-- ==== Sys2Proof/Word.lean ====
section
/-!
DEFINITION. The word and byte types, and the one sparse table used for everything the hardware indexes by number.
-/

namespace Sys2Proof

/-- A 32-bit register word (R19). -/
abbrev Word := BitVec 32

/-- A byte of any memory. -/
abbrev Byte := BitVec 8

/-- A sparse table from numbers to values: entries in strictly rising order of key, no entry equal to the
default. Registers, memories, decks, engines and tables of the device are all held in this one form, so that
equal contents are equal data. -/
abbrev Tab (α : Type) := List (Nat × α)

/-- What a table holds at `k`; an unlisted key reads as the default `d k`. -/
@[irreducible] def Tab.get {α : Type} (d : Nat → α) : Tab α → Nat → α
  | [], k => d k
  | (a, v) :: t, k => if k = a then v else Tab.get d t k

/-- Remove a key. -/
def Tab.erase {α : Type} : Tab α → Nat → Tab α
  | [], _ => []
  | (a, v) :: t, k => if k = a then Tab.erase t k else (a, v) :: Tab.erase t k

/-- Insert a key that is not listed, keeping the order. -/
def Tab.insert {α : Type} : Tab α → Nat → α → Tab α
  | [], k, v => [(k, v)]
  | (a, w) :: t, k, v => if k < a then (k, v) :: (a, w) :: t else (a, w) :: Tab.insert t k v

/-- Write a key: writing the default removes the entry, so the canonical form is kept. -/
@[irreducible] def Tab.put {α : Type} [DecidableEq α] (d : Nat → α) (t : Tab α) (k : Nat) (v : α) : Tab α :=
  if v = d k then Tab.erase t k else Tab.insert (Tab.erase t k) k v

/-- The canonical form: keys strictly rising, no entry equal to its default. -/
def Tab.wf {α : Type} [DecidableEq α] (d : Nat → α) (t : Tab α) : Bool :=
  decide (List.Pairwise (· < ·) (List.map Prod.fst t)) && List.all t fun p => decide (p.2 ≠ d p.1)

/-- Every entry changed in place by a function (used by resets and sweeps). -/
def Tab.mapVals {α : Type} [DecidableEq α] (d : Nat → α) (f : Nat → α → α) (t : Tab α) : Tab α :=
  (List.map (fun p => (p.1, f p.1 p.2)) t).filter fun p => decide (p.2 ≠ d p.1)

/-- The entries whose key meets a test are dropped, back to their default. -/
def Tab.clearKeys {α : Type} (p : Nat → Bool) (t : Tab α) : Tab α :=
  List.filter (fun e => !p e.1) t

end Sys2Proof
end

