-- ==== Sys2Proof/Syntax.lean ====
section
/-!
DEFINITION. The commands of the block: one constructor per row of the table of operations and events.

Operands name what the command acts on, or carry what comes from outside the model: a bus write's value, a
packet's bytes, a pin's level, a sensor's reading, or the outcome of an analog event that the spec leaves to the
cells (which columns failed, whether a spare verified). The conventions are log entry 2: `f` is a PCIe function
(0 = PF, n = VF n), `w`, `d` a ring of it, `uid` the model's number of a fetched descriptor, `st` and `op` a stream
of a step and an operation of it, `e` a flat engine index (guard engine g is 98,304 + g), `cl` a flat cluster.
-/

namespace Sys2Proof

/-- The messages that CTRL flits carry (R569): enumeration and its report, budgets and power reports (R549), wake,
leave (R588), the reset of an instance (R431) and a chain generation (R582). -/
inductive CtrlMsg where
  /-- Enumeration: the coordinates of the device that sends it, and the size and topology. -/
  | enumerate (topo x y sizeX sizeY : Nat)
  /-- A device reports its ID and whether its wiring agrees with it. -/
  | report (id : Nat) (wiringOk : Bool)
  | budget (mw : Nat)
  | power (mw waitNs : Nat)
  | wake
  | leave
  | reset (inst : Nat)
  | generation (inst cgen : Nat)
  deriving DecidableEq, Repr

/-- The payload of a chain flit (R569). Its fields are held by name; where the spec gives a payload no byte layout
there is none to hold. -/
inductive Payload where
  | idle
  | data (handle off tag : Nat) (last packed : Bool) (bytes : List Nat)
  | peg (handle off : Nat) (set : Bool) (value : Nat)
  | desc (ring slot : Nat) (bytes : List Nat)
  /-- A completion record with its work ring and slot, an event record with its destination instance, or a copy for
  the master's global log: kinds 0, 1 and 2. -/
  | record (kind ring slot : Nat) (bytes : List Nat)
  | host (write : Bool) (addr len tag : Nat) (bytes : List Nat)
  | hostRsp (tag : Nat) (bytes : List Nat)
  | reg (response write : Bool) (off value : Nat)
  | ctrl (m : CtrlMsg)
  | train
  | xack (tag blocks status : Nat)
  /-- A flit of a reserved TYPE, 11 to 15. -/
  | reserved (type : Nat)
  deriving DecidableEq, Repr

/-- A chain flit (R568, R571): header fields, payload, link word, and whether its CRC matches. -/
structure Flit where
  vc      : Nat
  cls     : Nat
  src     : Nat
  dst     : Nat
  seq     : Nat
  inst    : Nat
  cgen    : Nat
  hops    : Nat
  payload : Payload
  ack     : Nat
  nak     : Bool
  creditVc : Nat
  creditCls : Nat
  credits : Nat
  crcOk   : Bool
  deriving DecidableEq, Repr

/-- One command of the block. -/
inductive Instr where
  /-- WORK_RING_DOORBELL (R386). A host write of a new tail to a work-ring doorbell is checked and, if accepted, announces descriptors. -/
  | workRingDoorbell (f : Nat) (w : Nat) (value : Nat) (bytes : Nat)
  /-- DONE_RING_DOORBELL (R386). A host write of a new head to a done-ring doorbell frees completion-record slots. -/
  | doneRingDoorbell (f : Nat) (d : Nat) (value : Nat) (bytes : Nat)
  /-- EVENT_RING_DOORBELL (R386). A host write of a new head to the event-ring doorbell frees error-record slots. -/
  | eventRingDoorbell (f : Nat) (value : Nat) (bytes : Nat)
  /-- DESCRIPTOR_FETCH (R388). The hub reads announced work-ring slots in ring order and advances WR_HEAD. -/
  | descriptorFetch (f : Nat) (w : Nat) (n : Nat)
  /-- NOP (R391). A NOP descriptor completes as it starts. -/
  | nop (f : Nat) (w : Nat)
  /-- RUN_STEP (R392). A RUN_STEP descriptor reads the step image and output table and has them checked. -/
  | runStep (f : Nat) (w : Nat)
  /-- STEP_BIND (R327). Once earlier steps on the same cores have ended, an accepted image is bound in order and its streams start. -/
  | stepBind (uid : Nat) (cal : List Bool)
  /-- STEP_COMPLETE (R351). When all operations, entries and writes are done, the step is unbound, its counters are added and its completion record is written. -/
  | stepComplete (uid : Nat)
  /-- DMA_COPY (R395). A DMA_COPY descriptor is range-checked and queued for the hub DMA engine. -/
  | dmaCopy (f : Nat) (w : Nat)
  /-- DMA_COPY_COMPLETE (R659). The last write of a copy is acknowledged, the completion peg is signalled and the copy completes. -/
  | dmaCopyComplete (uid : Nat)
  /-- BUF_ALLOC (R270). A BUF_ALLOC descriptor is decided, and a buffer and handle are allocated on success. -/
  | bufAlloc (f : Nat) (w : Nat)
  /-- BUF_ALLOC_ZERO_DONE (R271). Zeroing of a new T2 buffer or of reassigned granules ends, and the result is written. -/
  | bufAllocZeroDone (uid : Nat)
  /-- BUF_FREE (R272). A BUF_FREE descriptor is decided; it frees the buffer or waits while the buffer is in use. -/
  | bufFree (f : Nat) (w : Nat)
  /-- BUF_FREE_RESUME (R273). The use of a buffer ends, and the waiting free returns its units and its index. -/
  | bufFreeResume (uid : Nat)
  /-- PROGRAM_DECKS (R164). A PROGRAM_DECKS descriptor has its buffers checked and its whole target list read. -/
  | programDecks (f : Nat) (w : Nat)
  /-- RINSE (R162). A RINSE descriptor queues targets that program every cell of a deck to the mid level. -/
  | rinse (f : Nat) (w : Nat)
  /-- PROGRAM_TARGET_START (R661). A granted programming slot starts a target's CHECK stage. -/
  | programTargetStart (uid : Nat) (pos : Nat)
  /-- CLAIM (R166). After a running evaluation or darn ends, the deck is claimed, PBO cleared, wear counted and the journal written. -/
  | claim (uid : Nat) (pos : Nat)
  /-- ROW_PASS (R147). A completed row pass pulses and verifies the unverified cells of one row. -/
  | rowPass (uid : Nat) (pos : Nat) (reads : List (Nat × Nat × Nat))
  /-- COMMIT (R166). After darning and calibration, pending marks are cleared, PBO is set and the target's result is written. -/
  | commit (uid : Nat) (pos : Nat)
  /-- VPROG_FAULT (R151). V_PROG leaves its range, and targets in progress fail at the end of their pass. -/
  | vprogFault
  /-- PEG_SIGNAL (R396). A PEG_SIGNAL descriptor performs ADD or SET on a peg. -/
  | pegSignal (f : Nat) (w : Nat)
  /-- PEG_WAIT (R396). A PEG_WAIT descriptor registers a wait and holds back its ring until the wait completes. -/
  | pegWait (f : Nat) (w : Nat)
  /-- FENCE (R397). A FENCE descriptor starts and completes once the earlier descriptors in its scope have completed. -/
  | fence (f : Nat) (w : Nat)
  /-- POWER_HINT (R398). A POWER_HINT descriptor gives Press a hint to hold. -/
  | powerHint (f : Nat) (w : Nat)
  /-- SELF_TEST (R198). A SELF_TEST descriptor queues tests on its targets under a deadline. -/
  | selfTest (f : Nat) (w : Nat)
  /-- CALIBRATE (R198). A CALIBRATE descriptor queues deck calibrations, and may set new check sources. -/
  | calibrate (f : Nat) (w : Nat)
  /-- TEST_DEADLINE (R199). A target that has not started by its deadline ends with TEST_DEFERRED. -/
  | testDeadline (uid : Nat) (pos : Nat)
  /-- LEND (R201). A LEND descriptor lends masked engines to the management instance at their next gap. -/
  | lend (f : Nat) (w : Nat)
  /-- RECLAIM (R201). A RECLAIM descriptor returns lent engines once any full calibration on them ends. -/
  | reclaim (f : Nat) (w : Nat)
  /-- LEND_EXPIRY (R201). A loan's LEND_MS runs out and the engines are returned. -/
  | lendExpiry (e : Nat)
  /-- STREAM_BIND (R399). A STREAM_BIND descriptor binds or unbinds a CSI-2 stream context. -/
  | streamBind (f : Nat) (w : Nat)
  /-- INST_RESET (R400). An INST_RESET descriptor starts an instance reset. -/
  | instReset (f : Nat) (w : Nat)
  /-- COMPLETION_RECORD_WRITE (R406). A due completion record is written to its done ring, or held when the ring is full. -/
  | completionRecordWrite
  /-- HELD_RECORD_RELEASE (R407). A freed done-ring slot lets a held record be written and fetching resume. -/
  | heldRecordRelease (f : Nat) (d : Nat)
  /-- WR_CTRL_ENABLE (R410). A write to WR_CTRL.ENABLE starts a work ring at position 0 or stops its fetching. -/
  | wrCtrlEnable (f : Nat) (w : Nat) (value : Nat)
  /-- DR_CTRL_ENABLE (R404). A write to DR_CTRL.ENABLE resets the done-ring positions, or is refused. -/
  | drCtrlEnable (f : Nat) (d : Nat) (value : Nat)
  /-- EV_CTRL_ENABLE (R596). A write to EV_CTRL.ENABLE enables or disables the event ring. -/
  | evCtrlEnable (f : Nat) (value : Nat)
  /-- OPERATION_START (R344). A stream operation starts once its order, DEPS, gate, unit and tokens allow. -/
  | operationStart (uid : Nat) (st : Nat) (op : Nat)
  /-- EVAL (R67). An EVAL starts an evaluation: it checks the deck, latches its inputs and drives the rows of one deck. -/
  | eval (uid : Nat) (st : Nat) (op : Nat) (oor : Bool)
  /-- EVAL_HANDOFF (R87). An evaluation completes and hands its raw column values and saturation bits to the periphery. -/
  | evalHandoff (e : Nat)
  /-- EVAL_PLEAT (R103). An EVAL_PLEAT decides the pleat's mode and starts its members together. -/
  | evalPleat (uid : Nat) (st : Nat) (op : Nat) (cal : Bool) (oor : Bool)
  /-- PLEAT_HANDOFF (R110). A pleat evaluation ends with its sums handed to the head's periphery. -/
  | pleatHandoff (e : Nat)
  /-- ACT (R341). An ACT applies a nonlinearity to INT16 elements in T0. -/
  | act (uid : Nat) (st : Nat) (op : Nat)
  /-- POOL (R341). A POOL pools rows of INT16 elements in T0. -/
  | pool (uid : Nat) (st : Nat) (op : Nat)
  /-- VEC_ADD (R341). A VEC_ADD adds two vectors. -/
  | vecAdd (uid : Nat) (st : Nat) (op : Nat)
  /-- VEC_SUB (R341). A VEC_SUB subtracts two vectors. -/
  | vecSub (uid : Nat) (st : Nat) (op : Nat)
  /-- VEC_MAX (R341). A VEC_MAX takes the element-wise maximum of two vectors. -/
  | vecMax (uid : Nat) (st : Nat) (op : Nat)
  /-- VEC_MUL (R341). A VEC_MUL multiplies two vectors. -/
  | vecMul (uid : Nat) (st : Nat) (op : Nat)
  /-- VEC_SCALE (R341). A VEC_SCALE applies scale and offset to each element. -/
  | vecScale (uid : Nat) (st : Nat) (op : Nat)
  /-- VEC_CVT (R341). A VEC_CVT converts between INT16 and FP16. -/
  | vecCvt (uid : Nat) (st : Nat) (op : Nat)
  /-- VEC_QUANT (R341). A VEC_QUANT quantises elements to codes through thresholds. -/
  | vecQuant (uid : Nat) (st : Nat) (op : Nat)
  /-- VECTOR_OP_COMPLETE (R345). A vector-unit operation ends once its results are written to T0. -/
  | vectorOpComplete (uid : Nat) (st : Nat) (op : Nat)
  /-- MOVE (R342). A MOVE copies data between spaces through the router or the cluster DMA engine. -/
  | move (uid : Nat) (st : Nat) (op : Nat)
  /-- MOVE_COMPLETE (R659). A MOVE completes when its last write is acknowledged. -/
  | moveComplete (uid : Nat) (st : Nat) (op : Nat)
  /-- PREFETCH (R343). A PREFETCH operation runs an in-line prefetch entry. -/
  | prefetch (uid : Nat) (st : Nat) (op : Nat)
  /-- MATMUL (R227). A PE_MATMUL MATMUL multiplies two matrices on the Precision Engine. -/
  | matmul (uid : Nat) (st : Nat) (op : Nat)
  /-- BATCHED (R227). A PE_MATMUL BATCHED runs batched matrix products. -/
  | batched (uid : Nat) (st : Nat) (op : Nat)
  /-- GATHER (R233). A PE_MATMUL GATHER copies indexed table rows to the output. -/
  | gather (uid : Nat) (st : Nat) (op : Nat)
  /-- SCATTER (R233). A PE_MATMUL SCATTER writes input rows to indexed table rows. -/
  | scatter (uid : Nat) (st : Nat) (op : Nat)
  /-- SCATTER_ADD (R233). A PE_MATMUL SCATTER_ADD adds input rows into indexed table rows in list order. -/
  | scatterAdd (uid : Nat) (st : Nat) (op : Nat)
  /-- QK (R228). A PE_ATTN QK computes scaled, optionally masked, attention scores. -/
  | qk (uid : Nat) (st : Nat) (op : Nat)
  /-- AV (R228). A PE_ATTN AV multiplies probabilities by values. -/
  | av (uid : Nat) (st : Nat) (op : Nat)
  /-- ROPE (R231). A PE_ATTN ROPE rotates element pairs by position. -/
  | rope (uid : Nat) (st : Nat) (op : Nat)
  /-- RMS (R230). A PE_NORM RMS normalises rows. -/
  | rms (uid : Nat) (st : Nat) (op : Nat)
  /-- LAYER (R230). A PE_NORM LAYER normalises rows with gain and bias. -/
  | layer (uid : Nat) (st : Nat) (op : Nat)
  /-- SOFTMAX (R229). A PE_SOFTMAX SOFTMAX computes a row-wise softmax. -/
  | softmax (uid : Nat) (st : Nat) (op : Nat)
  /-- TOPK (R232). A PE_SOFTMAX TOPK writes the k largest values of each row with their indices. -/
  | topk (uid : Nat) (st : Nat) (op : Nat)
  /-- PE_BLOCK_STEP (R236). A Precision Engine block step runs on a Press token. -/
  | peBlockStep (cl : Nat)
  /-- PE_OPERATION_COMPLETE (R662). A Precision Engine operation completes, or stops with only its finished blocks written. -/
  | peOperationComplete (cl : Nat)
  /-- PEG_ADD (R357). A PEG_ADD adds VALUE to a peg at its home. -/
  | pegAdd (uid : Nat) (st : Nat) (op : Nat)
  /-- PEG_SET (R357). A PEG_SET writes VALUE to a peg at its home. -/
  | pegSet (uid : Nat) (st : Nat) (op : Nat)
  /-- PEG_WAIT_GE (R359). A PEG_WAIT_GE registers a half-range greater-or-equal wait at the peg's home. -/
  | pegWaitGe (uid : Nat) (st : Nat) (op : Nat)
  /-- PEG_WAIT_EQ (R359). A PEG_WAIT_EQ registers an equality wait at the peg's home. -/
  | pegWaitEq (uid : Nat) (st : Nat) (op : Nat)
  /-- NOP_OP (R345). A NOP stream operation completes as it starts. -/
  | nopOp (uid : Nat) (st : Nat) (op : Nat)
  /-- WAIT_REGISTRATION_RETRY (R370). 250 ns after a refusal because the wait table was full, a waiter registers again. -/
  | waitRegistrationRetry (n : Nat)
  /-- PEG_WATCHDOG (R373). A wait outlives WD_MS, and all waits and steps of the instance end with PEG_WATCHDOG. -/
  | pegWatchdog (n : Nat)
  /-- ALIAS_ADD (R365). A host write to a peg alias ADD performs ADD on its target, or holds the low word. -/
  | aliasAdd (f : Nat) (a : Nat) (part : Nat) (value : Nat)
  /-- ALIAS_SET (R365). A host write to a peg alias SET performs SET on its target, or holds the low word. -/
  | aliasSet (f : Nat) (a : Nat) (part : Nat) (value : Nat)
  /-- PEG_SNAP_TAKE (R376). PEG.SNAP.TAKE captures the selected peg's value, its waiters and its last signaller. -/
  | pegSnapTake
  /-- PREFETCH_ENTRY_ISSUE (R282). A cluster DMA engine starts a prefetch entry once it is past its issue point and its destination is released. -/
  | prefetchEntryIssue (uid : Nat) (k : Nat)
  /-- PREFETCH_ENTRY_DONE (R283). A prefetch entry's writes are all acknowledged, and the steps waiting for it may start. -/
  | prefetchEntryDone (uid : Nat) (k : Nat)
  /-- TILE_EXPAND (R252). On a token, the expander checks one tile and writes its dense elements. -/
  | tileExpand (uid : Nat) (k : Nat) (bad : Bool)
  /-- TILE_REREAD (R254). A re-read damaged tile returns and is written, or fails the step. -/
  | tileReread (uid : Nat) (k : Nat) (bad : Bool)
  /-- STEP_LATE_FETCH (R287). A stall longer than STALL_LIMIT fails the step. -/
  | stepLateFetch (uid : Nat) (cl : Nat)
  /-- BACKGROUND_VISIT (R185). The background checker's period falls due, and a check evaluation of one vector runs in a gap. -/
  | backgroundVisit (e : Nat)
  /-- CHECK_EVALUATION_DONE (R178). A check evaluation ends and each column is judged pass or fail. -/
  | checkEvaluationDone (e : Nat)
  /-- CHECK_RETRY (R187). A failed check is repeated in a gap at least 1 ms later, and the fault is classed transient or lasting. -/
  | checkRetry (e : Nat)
  /-- DARN_COMPLETE (R189). The spare's passes end, and the spare is connected or marked failed. -/
  | darnComplete (e : Nat) (ok : Bool)
  /-- COLUMN_CALIBRATION (R192). A due calibration runs in a gap and sets the TRIM of each column. -/
  | columnCalibration (e : Nat)
  /-- REFERENCE_RECALIBRATION (R93). Every 1 ms, each ring-oscillator reference is recalibrated against REFCLK_100. -/
  | referenceRecalibration (r : Nat)
  /-- SENSOR_SAMPLE (R655). Every 10 µs, the temperature sensors are sampled and thermal caps and calibration dues are updated. -/
  | sensorSample (temps : List (Nat × Nat × Nat))
  /-- SCRUB_BLOCK (R279). The patrol scrubber reads one T2 block, corrects it or poisons it. -/
  | scrubBlock (find : Nat)
  /-- PAGE_MOVE_COMPLETE (R607). A page move ends, the buffer is remapped and PAGE_RETIRED is raised. -/
  | pageMoveComplete (page : Nat)
  /-- PACKET_AT_HEM (R308). A packet that reaches a closed hem is admitted or answered with DOMAIN_DOWN. -/
  | packetAtHem (dom : Nat) (uid : Nat) (st : Nat) (op : Nat)
  /-- DOMAIN_DOWN (R309). A DOMAIN_DOWN response stops the transfer and fails its operation. -/
  | domainDown (uid : Nat) (st : Nat) (op : Nat)
  /-- SKEW_MONITOR_TRIP (R305). A crossing's sides differ by more than 200 mV, and the crossing is held. -/
  | skewMonitorTrip (d : Nat) (x : Nat)
  /-- SKEW_MONITOR_RELEASE (R305). The difference falls to 170 mV, and the crossing passes tokens again. -/
  | skewMonitorRelease (d : Nat) (x : Nat)
  /-- INST_SEL_WRITE (R415). A write to INST.SEL selects an instance and loads the staged fields. -/
  | instSelWrite (value : Nat)
  /-- CREATE (R416). INST.CMD CREATE makes a workload instance with a new generation, a new key pair and the staged hamper. -/
  | create (keyOk : Bool)
  /-- APPLY (R416). INST.CMD APPLY applies the staged hamper to an existing instance. -/
  | apply
  /-- RESET (R427). INST.CMD RESET starts an instance reset. -/
  | reset (keyOk : Bool)
  /-- DESTROY (R420). INST.CMD DESTROY resets an instance, then frees its buffers and cores and destroys its keys. -/
  | destroy (keyOk : Bool)
  /-- INFLIGHT_ZERO (R427). The instance's in-flight count reaches zero, the old keys are destroyed and the instance becomes READY. -/
  | inflightZero (inst : Nat)
  /-- INST_RESET_TIMEOUT (R430). A reset that does not drain in 50 µs leaves the instance FAILED. -/
  | instResetTimeout (inst : Nat)
  /-- VF_ENABLE_CLEAR (R414). A configuration write that clears VF Enable or lowers NumVFs destroys instances. -/
  | vfEnableClear (n : Nat) (keyOk : Bool)
  /-- VF_ENABLE (R414). VF Enable is set again, and a PARKED instance enters READY. -/
  | vfEnable (n : Nat)
  /-- VF_FLR (R615). A function-level reset of a VF resets its instance and its VF registers. -/
  | vfFlr (inst : Nat) (keyOk : Bool)
  /-- PF_FLR (R414). A function-level reset of the PF destroys every workload instance and resets instance 0's rings. -/
  | pfFlr (keyOk : Bool)
  /-- GET_VERSION (R434). An SPDM GET_VERSION request is answered with version 1.2. -/
  | getVersion
  /-- GET_CAPABILITIES (R434). An SPDM GET_CAPABILITIES request is answered. -/
  | getCapabilities
  /-- NEGOTIATE_ALGORITHMS (R434). An SPDM NEGOTIATE_ALGORITHMS request is answered with P-384 and SHA-384. -/
  | negotiateAlgorithms
  /-- GET_DIGESTS (R434). An SPDM GET_DIGESTS request is answered for slot 0. -/
  | getDigests
  /-- GET_CERTIFICATE (R434). An SPDM GET_CERTIFICATE request returns the certificate chain of slot 0. -/
  | getCertificate (slot : Nat) (off : Nat) (len : Nat)
  /-- CHALLENGE (R434). An SPDM CHALLENGE is answered, signed with the device key. -/
  | challenge (slot : Nat) (nonce : Nat)
  /-- GET_MEASUREMENTS (R435). An SPDM GET_MEASUREMENTS returns the measurement indices, signed on request. -/
  | getMeasurements (index : Nat) (sign : Bool) (nonce : Nat)
  /-- SPDM_UNSUPPORTED_REQUEST (R434). Any other SPDM request is answered with ERROR UnsupportedRequest. -/
  | spdmUnsupportedRequest (code : Nat)
  /-- FRAME_BOUNDARY (R441). At a guard frame boundary, verdicts commit and every enabled lane snapshots its window and runs its program. -/
  | frameBoundary (late : List Nat)
  /-- FSP_PACKET (R446). A Fast Sample Port packet is accepted, or discarded on CRC or reserved bits. -/
  | fspPacket (port : Nat) (pkt : List Nat)
  /-- FSP_CLOCK_LOSS (R446). 100 ns without clock edges clears the port's CLK bit. -/
  | fspClockLoss (port : Nat)
  /-- GUARD_OSC_TRIM (R440). Every 1 ms, the guard oscillator is trimmed against REFCLK_100 or XTAL_32K. -/
  | guardOscTrim
  /-- GUARD_CHECK_EVAL (R471). Every 250 frames a lane runs one check evaluation in its slack. -/
  | guardCheckEval (l : Nat)
  /-- GUARD_CHECK_RETRY (R472). 500 frames after a failed guard check, the check is repeated and the column may be marked failed. -/
  | guardCheckRetry (l : Nat)
  /-- GUARD_CALIBRATION (R473). A guard engine is calibrated over 32 frame slacks, and the new trims apply at one boundary. -/
  | guardCalibration (l : Nat) (e : Nat)
  /-- LANE_EN_WRITE (R455). A write to GUARD.CTRL.LANE_EN checks and enables a lane, or stops it at the next boundary. -/
  | laneEnWrite (value : Nat)
  /-- COMPARATOR_TRIP (R461). A window comparator input leaves or enters its window: AON_CMP_IN comes to `vin`, in 0.1 mV. -/
  | comparatorTrip (c : Nat) (vin : Nat)
  /-- COMPARATOR_DEGLITCH (R461). A condition held for 20 ns with DEGLITCH set takes effect as a trip or a release. -/
  | comparatorDeglitch (c : Nat)
  /-- CMP_CFG_WRITE (R648). A write of comparator thresholds takes effect within 1 µs. -/
  | cmpCfgWrite (c : Nat) (value : Nat)
  /-- LATCHED_CLEAR (R458). A write of 1 to GUARD.LATCHED clears a latch, which sets again if the stop still holds. -/
  | latchedClear (value : Nat)
  /-- GUARD_PORT_LATCH (R465). GP_OE_n falling, or GP_A changing, latches the addressed guard word onto GP_D. -/
  | guardPortLatch (a : Nat)
  /-- GUARD_LOAD (R468). When the guard domain comes up with AUTO_LOAD, lanes and global settings are loaded from flash. -/
  | guardLoad
  /-- SAVE (R474). LANE_CMD SAVE writes a lane's configuration and periphery to its backup. -/
  | save (l : Nat)
  /-- LOAD (R474). LANE_CMD LOAD restores a lane's configuration and periphery from its backup. -/
  | load (l : Nat)
  /-- RESTORE_DECKS (R474). LANE_CMD RESTORE_DECKS reprograms a lane's decks from its backup sections. -/
  | restoreDecks (l : Nat)
  /-- DARN (R474). LANE_CMD DARN darns a lane's failed or pending columns from its backup. -/
  | darn (l : Nat)
  /-- SAVE_GLOBAL (R474). LANE_CMD SAVE_GLOBAL writes the global guard settings to the backup header. -/
  | saveGlobal
  /-- LANE_CMD_END (R474). A lane command that took time ends and reports its status. -/
  | laneCmdEnd (status : Nat)
  /-- FRAME_START (R484). A CSI-2 Frame Start opens a frame in its slot, or drops it when there is no room. -/
  | frameStart (p : Nat) (vc : Nat) (num : Nat) (hdr : Nat)
  /-- LONG_PACKET (R481). A CSI-2 long packet of a bound context is stored as a line. -/
  | longPacket (p : Nat) (vc : Nat) (dt : Nat) (bytes : List Nat) (crcBad : Bool) (hdr : Nat)
  /-- FRAME_END (R481). A CSI-2 Frame End latches TS_END and closes the frame. -/
  | frameEnd (p : Nat) (vc : Nat) (num : Nat) (hdr : Nat)
  /-- FRAME_CLOSE (R484). Once line writes are acknowledged, the header is written and the frame is announced by peg and vector. -/
  | frameClose (c : Nat)
  /-- FRAME_TIMEOUT (R486). No Frame End within FRAME_TIMEOUT closes the frame as INCOMPLETE. -/
  | frameTimeout (c : Nat)
  /-- CSI_LINK_ERROR (R486). A start-of-transmission sync error or a lost clock lane closes the open frame. -/
  | csiLinkError (p : Nat) (kind : Nat)
  /-- PSTATE_REQ_RUN (R490). PSTATE.REQ with TARGET RUN cancels an entry that has not committed. -/
  | pstateReqRun
  /-- PSTATE_REQ_IDLE (R493). PSTATE.REQ with TARGET IDLE starts an entry to IDLE. -/
  | pstateReqIdle
  /-- PSTATE_REQ_SLEEP (R493). PSTATE.REQ with TARGET SLEEP starts an entry to SLEEP. -/
  | pstateReqSleep
  /-- PSTATE_REQ_DEEP (R493). PSTATE.REQ with TARGET DEEP starts an entry to DEEP. -/
  | pstateReqDeep
  /-- PSTATE_REQ_OFF (R493). PSTATE.REQ with TARGET OFF starts an entry to OFF. -/
  | pstateReqOff
  /-- AUTO_IDLE (R491). IDLE_US of inactivity with AUTO_IDLE set requests IDLE. -/
  | autoIdle
  /-- ENTRY_ANSWER (R495). A block answers ACCEPT, DELAY or REFUSE to the entry handshake. -/
  | entryAnswer (b : Nat)
  /-- ENTRY_ANSWER_TIMEOUT (R494). No answer within 1 ms counts as REFUSE with DELAY_LIMIT. -/
  | entryAnswerTimeout (b : Nat)
  /-- LINK_L2L3_READY (R492). The PCIe link reaches L2/L3 Ready, and the PCIe block answers ACCEPT. -/
  | linkL2l3Ready
  /-- ENTRY_COMPLETE (R493). Every rail acknowledges, the entry completes and a latched wake is replayed. -/
  | entryComplete
  /-- WAKE_EVENT (R501). A wake source is latched in the always-on domain and starts an exit. -/
  | wakeEvent (src : Nat) (detail : Nat)
  /-- DEV_WAKE_N (R499). DEV_WAKE_n is asserted, which is wake source 1. -/
  | devWakeN
  /-- VR_PGOOD (R502). Rails are up and acknowledged during an exit. -/
  | vrPgood
  /-- OSC_RDY (R502). PLLs are locked and references trimmed during an exit. -/
  | oscRdy
  /-- MEM_RDY (R502). HBM3E is out of self-refresh or trained during an exit. -/
  | memRdy
  /-- LOGIC_RDY (R504). Logic is released, state restored, hems reopened and held writes and records delivered. -/
  | logicRdy (keyOk : Bool)
  /-- READY_TIMEOUT (R503). A ready signal misses its timeout; the step is repeated, then the device goes FATAL. -/
  | readyTimeout
  /-- AVS_VDONE (R514). A Status read with VDone acknowledges a rail's change. -/
  | avsVdone (rail : Nat)
  /-- AVS_ATTEMPT_TIMEOUT (R517). An attempt without VDone in 50 µs is retried, and after four attempts the rail is lost. -/
  | avsAttemptTimeout (rail : Nat)
  /-- AVS_PROBE (R518). Every 10 ms on a lost bus, a Status read probes for the link's return. -/
  | avsProbe (bus : Nat) (ok : Bool) (mv : List Nat)
  /-- VOLT_RAIL_WRITE (R513). A write of VP_MIN or VP_MAX limits Press's targets and may move the current target. -/
  | voltRailWrite (rail : Nat) (value : Nat)
  /-- LB_ENTRY_STAGE (R525). A write to legacy entry B1, B2 or B3 stages values. -/
  | lbEntryStage (n : Nat) (value : Nat)
  /-- LB_ENTRY_COMMIT (R525). A write to B0 commits all staged entries when they are in order. -/
  | lbEntryCommit (value : Nat)
  /-- PRESS_TICK (R539). Every 1 µs, Press sets each die's level from rail, package, thermal and alert limits. -/
  | pressTick (est : List Nat)
  /-- PRESS_CALIBRATION (R534). Every 10 ms, Press reads rail currents and updates its gains. -/
  | pressCalibration (ma : List Nat)
  /-- VPOINT_LOWER (R541). A die whose level has stayed below 48 for 100 µs has its V_CORE target lowered one step. -/
  | vpointLower (d : Nat)
  /-- VPOINT_RAISE (R541). A die at level 64 for 100 µs with demand has its V_CORE target raised one step. -/
  | vpointRaise (d : Nat)
  /-- VR_ALERT_ASSERT (R543). VR_ALERT_n asserts, and every die goes to level 1 and V-point 0. -/
  | vrAlertAssert (n : Nat)
  /-- VR_ALERT_HOLD_END (R543). 100 µs after VR_ALERT_n deasserts, the hold ends. -/
  | vrAlertHoldEnd (n : Nat)
  /-- PRESS_CAP_WRITE (R537). A write of CAP or BURST_PCT restarts the package windows. -/
  | pressCapWrite (value : Nat)
  /-- HINT_START (R544). 100 µs before a hint's START, Press raises the hinted dies and reserves power. -/
  | hintStart (k : Nat)
  /-- HINT_UNUSED (R544). 50 µs after START, an unused reserve is dropped. -/
  | hintUnused (k : Nat)
  /-- FLOOR_ENTRY (R545). 100 µs at level 1, at minimum V-points and over the cap sets FLOOR and raises CAP_FLOOR. -/
  | floorEntry
  /-- FLOOR_EXIT (R545). 100 µs at or below the cap clears FLOOR. -/
  | floorExit
  /-- CHAIN_TOTAL_WRITE (R549). A write of CHAIN_TOTAL on a master sets or stops chain power budgets. -/
  | chainTotalWrite (value : Nat)
  /-- CHAIN_BUDGET_SHIFT (R549). Every 1 ms, the master moves budget toward the device that waits least and sends budgets. -/
  | chainBudgetShift
  /-- PROGRAM (R557). FLASH.CMD PROGRAM programs up to 16 flash words from the data buffer. -/
  | program
  /-- ERASE (R557). FLASH.CMD ERASE erases one sector. -/
  | erase
  /-- SUSPEND (R557). FLASH.CMD SUSPEND suspends the management instance's running erase. -/
  | suspend
  /-- RESUME (R557). FLASH.CMD RESUME resumes a suspended erase. -/
  | resume
  /-- BLANK_CHECK (R557). FLASH.CMD BLANK_CHECK finds the first non-erased word of a range. -/
  | blankCheck
  /-- CRC32C (R557). FLASH.CMD CRC32C computes the CRC-32C of a flash range. -/
  | crc32c
  /-- SIGNED_UPDATE (R565). FLASH.CMD SIGNED_UPDATE verifies a Hernum package and writes it to the inactive copy. -/
  | signedUpdate
  /-- FLASH_OP_END (R561). A flash program, erase or read command ends and RESULT is set. -/
  | flashOpEnd (fw : Bool)
  /-- FLASH_TIMEOUT (R562). A program or erase that passes its maximum time stops with TIMEOUT. -/
  | flashTimeout (fw : Bool)
  /-- FLASH_WINDOW_READ (R559). A window read of a busy bank returns all ones and sets FLASH_BUSY. -/
  | flashWindowRead (off : Nat)
  /-- FIRMWARE_RECORD_WRITE (R560). Firmware writes a record in bank 0, suspending a user erase if one runs. -/
  | firmwareRecordWrite (addr : Nat) (bytes : List Nat)
  /-- CHAIN_ENABLE_WRITE (R574). A write of CHAIN.CTRL.ENABLE starts bring-up of the ports. -/
  | chainEnableWrite (value : Nat)
  /-- PORT_STATE_ADVANCE (R574). A chain port finishes DETECT, TRAIN, ALIGN or EXCHANGE and moves on. -/
  | portStateAdvance (p : Nat) (lanes : Nat) (peer : Nat) (peerPort : Nat)
  /-- PORT_STATE_TIMEOUT (R574). A bring-up state misses its maximum, and the port returns to DETECT. -/
  | portStateTimeout (p : Nat)
  /-- FORM (R576). CHAIN.CTRL.FORM starts chain formation with enumeration messages. -/
  | form
  /-- FORM_TIMEOUT (R576). Formation that is not complete within 500 ms sets FORM_FAIL. -/
  | formTimeout
  /-- IDLE_FLIT (R570). A received IDLE flit returns credits and acknowledgements. -/
  | idleFlit (p : Nat) (fl : Flit)
  /-- DATA_FLIT (R584). A DATA flit is checked against the buffer table, written and acknowledged by XACK. -/
  | dataFlit (p : Nat) (fl : Flit)
  /-- PEG_FLIT (R585). A PEG flit executes a peg operation at the remote hub peg unit. -/
  | pegFlit (p : Nat) (fl : Flit)
  /-- DESC_FLIT (R579). A DESC flit delivers a forwarded descriptor to run on its ring. -/
  | descFlit (p : Nat) (fl : Flit)
  /-- RECORD_FLIT (R579). A RECORD flit delivers a record that the master writes into the named ring. -/
  | recordFlit (p : Nat) (fl : Flit)
  /-- HOST_FLIT (R579). A HOST flit makes the master issue a host read or write on PCIe. -/
  | hostFlit (p : Nat) (fl : Flit)
  /-- HOST_RSP_FLIT (R579). A HOST_RSP flit returns read data for a HOST tag. -/
  | hostRspFlit (p : Nat) (fl : Flit)
  /-- REG_FLIT (R581). A REG flit carries a remote-window register access or its response. -/
  | regFlit (p : Nat) (fl : Flit)
  /-- CTRL_FLIT (R569). A CTRL flit carries an enumeration, budget, wake, leave, reset or generation message. -/
  | ctrlFlit (p : Nat) (fl : Flit) (keyOk : Bool)
  /-- TRAIN_FLIT (R574). A TRAIN flit serves lane alignment during bring-up. -/
  | trainFlit (p : Nat) (fl : Flit)
  /-- XACK_FLIT (R584). An XACK flit acknowledges the remote writes of a transfer. -/
  | xackFlit (p : Nat) (fl : Flit)
  /-- NAK_RECEIVED (R573). A NAK starts a replay of unacknowledged flits. -/
  | nakReceived (p : Nat) (ack : Nat)
  /-- ACK_TIMEOUT (R573). No ACK advance for 2 µs starts a replay, and a replay without ACK for 50 µs fails. -/
  | ackTimeout (p : Nat)
  /-- PORT_DOWN (R587). A third failed replay, a lost lane lock or a failed retrain takes a port down and reroutes or fails flits. -/
  | portDown (p : Nat)
  /-- REMOTE_WINDOW_ACCESS (R581). An access to the remote window sends a REG flit to another device. -/
  | remoteWindowAccess (off : Nat) (write : Bool) (value : Nat)
  /-- REMOTE_WINDOW_TIMEOUT (R581). No answer within 100 µs reads all ones and sets RWIN_TIMEOUT. -/
  | remoteWindowTimeout
  /-- MIRROR_WRITE (R583). A write of a MIRROR entry joins a local T2 buffer to a remote one, or is refused. -/
  | mirrorWrite (k : Nat) (value : Nat)
  /-- SPAN_WRITE (R582). A write of SPAN with a new value increments the instance's chain generation and sends it. -/
  | spanWrite (inst : Nat) (value : Nat)
  /-- EVENT_RING_WRITE (R595). The record engine writes a raised record to an event ring, or drops it when the ring is full or disabled. -/
  | eventRingWrite
  /-- ERRLOG_HEAD_WRITE (R597). A write of ERRLOG.HEAD acknowledges global-log entries. -/
  | errlogHeadWrite (value : Nat)
  /-- DOUBLE_FAULT (R599). A record not written within 1 ms, or a fault of the record engine, halts the device. -/
  | doubleFault (code : Nat) (seq : Nat)
  /-- FATAL_VALID_CLEAR (R601). A write of 1 to FATAL_VALID clears the saved fatal record. -/
  | fatalValidClear (value : Nat)
  /-- FW_WATCHDOG (R609). An unserviced control-processor watchdog restarts the processor, or is fatal on a second expiry. -/
  | fwWatchdog (cp : Nat)
  /-- FW_RESTART_DONE (R609). A restarted control processor resumes, and waiting commands run. -/
  | fwRestartDone (cp : Nat) (keyOk : Bool)
  /-- THERMAL_TRIP (R657). An analog trip detector fires, raising FATAL and switching rails off. -/
  | thermalTrip (d : Nat)
  /-- V_AON_RISE (R610). V_AON rising starts a cold reset and latches the straps. -/
  | vAonRise (straps : Nat)
  /-- V_AON_LOSS (R636). V_AON falls, and programming pulses stop within 1 µs. -/
  | vAonLoss
  /-- COLD_RESET (R611). A cold boot runs its steps from the always-on domain up to READY. -/
  | coldReset (keyOk : Bool) (dies : Nat) (fail : Nat)
  /-- BOOT_READY (R611). The boot reaches step 7, and BOOT.STATUS.READY is set. -/
  | bootReady
  /-- LOAD_CMD_GO (R613). BOOT.LOAD_CMD.GO reads and verifies a host-loaded firmware image and continues the boot. -/
  | loadCmdGo
  /-- RESET_CTRL_WARM (R617). A keyed BOOT.RESET_CTRL write with OP 1 starts a warm reset. -/
  | resetCtrlWarm (key : Nat) (keyOk : Bool) (dies : Nat)
  /-- RESET_CTRL_COLD (R615). A keyed BOOT.RESET_CTRL write with OP 2 starts a cold reset. -/
  | resetCtrlCold (key : Nat)
  /-- PERST_N_ASSERT (R615). PERST_n asserted starts a warm reset, or a cold reset when the device is FATAL. -/
  | perstNAssert (keyOk : Bool) (dies : Nat)
  /-- PERST_N_DEASSERT (R499). PERST_n deasserted wakes the device from DEEP or OFF. -/
  | perstNDeassert
  /-- PCIE_SURPRISE_DOWN (R410). A surprise link-down is handled as PCIe specifies while descriptors run on. -/
  | pcieSurpriseDown
  /-- ALARM_FIRE (R621). An armed alarm's COMPARE is reached, and the alarm fires, interrupts or wakes. -/
  | alarmFire (n : Nat)
  /-- ALARM_CTRL_WRITE (R621). Enabling an alarm whose COMPARE has passed fires it at once. -/
  | alarmCtrlWrite (n : Nat) (value : Nat)
  /-- TOUT_PULSE_END (R652). 1 µs after an alarm fires, TOUTn returns low. -/
  | toutPulseEnd (n : Nat)
  /-- BYPASS (R624). The JTAG BYPASS instruction selects the 1-bit register. -/
  | bypass
  /-- IDCODE (R624). The JTAG IDCODE instruction returns the device ID code. -/
  | idcode
  /-- SAMPLE_PRELOAD (R624). The JTAG SAMPLE/PRELOAD instruction observes pins through boundary scan. -/
  | samplePreload (pins : Nat)
  /-- EXTEST (R625). The JTAG EXTEST instruction stops work and drives outputs from boundary cells, when enabled. -/
  | extest
  /-- EXTEST_PULSE (R625). The JTAG EXTEST_PULSE instruction runs an AC board test, when enabled. -/
  | extestPulse
  /-- EXTEST_TRAIN (R625). The JTAG EXTEST_TRAIN instruction runs an AC board test with pulse trains, when enabled. -/
  | extestTrain
  /-- REGACC (R626). An Update-DR of REGACC starts a register read or write, or is refused. -/
  | regacc (dr : Nat)
  /-- DEBUG_SNAP_TAKE (R630). DEBUG.SNAP.TAKE captures a die's counters at one device time. -/
  | debugSnapTake (value : Nat)
  /-- PERI_APERTURE_ACCESS (R145). A periphery aperture access between evaluations reads, writes or is refused. -/
  | periApertureAccess (d : Nat) (off : Nat) (write : Bool) (value : Nat)
  /-- CLIP_CLEAR (R140). CLIP_CLEAR zeroes EVALS and every CLIP counter of an engine. -/
  | clipClear (d : Nat) (value : Nat)
  /-- PINMUX_FUNC_WRITE (R650). A write that changes a pin's FUNC parks the pin. -/
  | pinmuxFuncWrite (n : Nat) (value : Nat)
  /-- PARK_END (R650). A park of up to 40 ns ends, and the new function takes the pin. -/
  | parkEnd (n : Nat)
  /-- GPIO_EDGE (R651). An enabled input edge on a GPIO sets EDGE and is a wake event. -/
  | gpioEdge (n : Nat) (rise : Bool)
  /-- I3C_PRIVATE_WRITE (R654). An I3C private write sets the index of the word file. -/
  | i3cPrivateWrite (port : Nat) (index : Nat)
  /-- I3C_PRIVATE_READ (R654). An I3C private read returns words of the file from the index. -/
  | i3cPrivateRead (port : Nat) (n : Nat)
  /-- ENTDAA (R654). The I3C ENTDAA command assigns a dynamic address. -/
  | entdaa (port : Nat) (addr : Nat)
  /-- SETDASA (R654). The I3C SETDASA command sets the dynamic address from the static one. -/
  | setdasa (port : Nat) (addr : Nat)
  /-- SPI_TRANSACTION (R654). An SPI transaction takes an index byte and shifts out words of the file. -/
  | spiTransaction (index : Nat) (n : Nat)
  /-- REGISTER_WRITE (R19). A write to a register that has no row of its own sets its fields, with low-word holding for 64-bit registers. -/
  | registerWrite (path : Nat) (off : Nat) (value : Nat)
  /-- PCIE_LINK_UP (R410). The PCIe link returns after a surprise link-down, and the records and host traffic that waited for it are written. -/
  | pcieLinkUp
  /-- VPROG_IN_RANGE (R151). V_PROG returns within its rated range, and the hub may again start programming passes. -/
  | vprogInRange
  /-- PROGRAM_FETCH_TIMEOUT (R164). Host memory gives no data for 10 ms while a target list, image header or section is read, and the descriptor or target fails with PROGRAM_FETCH_FAIL. -/
  | programFetchTimeout (uid : Nat) (pos : Nat)
  /-- VR_ALERT_DEASSERT (R543). VR_ALERT_n deasserts, ALERT_A or ALERT_B clears, and the 100 µs hold begins. -/
  | vrAlertDeassert (n : Nat)
  /-- GP_OE_N_RISE (R465). GP_OE_n rises and GP_D goes high-impedance within 3 ns. -/
  | gpOeNRise
  /-- CHAIN_POWER_REPORT (R549). Every 1 ms each chain device sends the master its package estimate and CHAIN_WAIT. -/
  | chainPowerReport
  /-- KEY_HEALTH_TEST_FAIL (R423). A continuous SP 800-90B health test of the key unit's generator fails, and a KEY_FAIL record is written. -/
  | keyHealthTestFail
  /-- UART_LINE_SENT (R653). UART_TX finishes sending one 5.73 ms line, freeing a slot in the 16-line queue. -/
  | uartLineSent
  deriving DecidableEq, Repr

end Sys2Proof
end

