-- ==== Sys2Proof/Decode.lean ====
section
/-!
DEFINITION. The words of the table. The block takes commands, not words: no row of the table gives its command bits, so that no word
spells one (log entry 14).
-/

namespace Sys2Proof

/-- The command that a word of `nbits` bits spells: none, since no row gives bits. -/
def decodeTableWord (_nbits _w : Nat) : Option Instr := none

end Sys2Proof
end

