-- ==== Sys2Proof/Config.lean ====
section
/-!
DEFINITION. What one part fixes and what the spec leaves open: constants of the part, and the free values, each an
opaque constant that nothing in Lean can evaluate.
-/

namespace Sys2Proof.Config

/-- A fresh natural number for the `n`-th draw: every value the spec leaves open is a draw from it, reduced to
the value's range. Log entry 4. -/
opaque freeNat : Nat → Nat

/-- A fresh integer for the `n`-th draw: the analog errors of the noise model (R63, R65, R94). Log entry 5. -/
opaque freeInt : Nat → Int

/-- Integral nonlinearity of a converter at one of its thresholds, in 2^-16 LSB, before its limits of R92: converter, how often it has
been trimmed, and threshold. Log entry 5. -/
opaque inl (converter trims threshold : Nat) : Int

/-- Which mean drift exponent a deck has in the range of R56. Log entry 5. -/
opaque nuMean (deck : Nat) : Nat

/-- What rinsing left in a cell as shipped: its error in nS (R55) and its drift exponent's distance from the mean (R56), by the cell's
number and 0 or 1. Log entry 9. -/
opaque shipCell (cell which : Nat) : Int

/-- Effective age in ns of the decks at the start of the cold reset from which the machine runs (R57). Log entry 9. -/
opaque shipAge : Nat

/-- The byte that a reader under key pair `key` gets from T2 address `addr` whose block was last written under
pair `written` (R276, R424). Log entry 6. -/
opaque t2Cipher (key written addr : Nat) : Byte

/-- exp, recip and rsqrt of an FP32 pattern: the pattern that the part answers, where it lies within the bound of R234 (R234, R235).
Log entry 7. -/
opaque exp32 : Nat → Nat
/-- See `exp32`. -/
opaque recip32 : Nat → Nat
/-- See `exp32`. -/
opaque rsqrt32 : Nat → Nat

/-- The signing and digest functions of the key unit and the firmware check: SPDM answers and package signatures
(R434, R435, R565). Argument: request or item number; result: an opaque value. Log entry 8. -/
opaque digest : Nat → List Nat → Nat

/-- Whether a Hernum package verifies against the root key in OTP (R565, R611). Log entry 8. -/
opaque packageOk : List Nat → Bool

/-- What a Hernum package that verifies carries, whose layout the spec does not give: the region it names (even = the factory
region, odd = a firmware image), the bytes written there, and the voltage table of a factory record (R565). Log entry 8. -/
opaque packageRegion : List Nat → Nat
/-- See `packageRegion`. -/
opaque packageImage : List Nat → List Nat
/-- See `packageRegion`: millivolts by rail × 16 + V-point. -/
opaque packageTable : List Nat → Nat → Nat

/-- Where a copy of a region begins, as an offset into the region: region and copy (R553, R565). Log entry 8. -/
opaque copyPlace (region copy : Nat) : Nat

/-- IDENT.STEPPING.MINOR and IDENT.SERIAL of the part. Log entry 9. -/
opaque stepping : Nat
/-- See `stepping`. -/
opaque serial : Nat

/-- Voltage at AON_CMP_REF in 0.1 mV above 1.0 V, before its limit of R647. Log entry 30. -/
opaque cmpRef : Nat

/-- Error of a comparator's threshold in 0.1 mV above its lower limit of R647: comparator, and 0 = LO, 1 = HI. Log entry 30. -/
opaque cmpError (c which : Nat) : Nat

/-- Hysteresis of a comparator in 0.1 mV above its lower limit of R647. Log entry 30. -/
opaque cmpHyst (c : Nat) : Nat

/-- Leakage of a rail in mA, from the per-chip table in OTP: rail as PRESS_TICK numbers it, millivolts, and hottest sensor
in 0.25 °C units (R532). Log entry 10. -/
opaque leak (rail mv : Nat) (temp : Int) : Nat

/-- Power of a state below IDLE in mW, from OTP, by the code of the state (R548). Log entry 10. -/
opaque statePower : Nat → Nat

end Sys2Proof.Config
end

