-- ==== Sys2Proof/Machine/Codes.lean ====
section
/-!
DEFINITION. Status codes (R409, R436), record codes and classes (R589, R593), and the device's counts (R3).
-/

namespace Sys2Proof.Machine

/-- Engines of the device, guard engines apart (R3). -/
def nEngines : Nat := 98304
/-- Cores (R3). -/
def nCores : Nat := 6144
/-- Clusters (R3). -/
def nClusters : Nat := 256
/-- Flat core of a flat engine index (R7). -/
def coreOf (e : Nat) : Nat := e / 16
/-- Flat cluster of a flat core (R7). -/
def clusterOf (c : Nat) : Nat := c / 24
/-- Die of a flat cluster (R7). -/
def dieOf (cl : Nat) : Nat := cl / 32
/-- Die of a flat engine index (R7). -/
def dieOfEngine (e : Nat) : Nat := e / 12288
/-- An engine index of the model that names a guard engine: 98,304 + lane × 4 + engine (R6). -/
def isGuard (e : Nat) : Bool := decide (nEngines ≤ e)
/-- Key of a deck. -/
def deckKey (e k : Nat) : Nat := e * 8 + k
/-- Engine location of R593: flat engine in [16:0], deck in [19:17]. -/
def engineLoc (e k : Nat) : Nat := e % 2 ^ 17 + (k % 8) <<< 17

/-! Record classes (R589). -/

/-- The fault was handled. -/
def corrected : Nat := 0
/-- Data was poisoned in place. -/
def deferred : Nat := 1
/-- One step or descriptor failed. -/
def instClass : Nat := 2
/-- A device resource is degraded. -/
def deviceClass : Nat := 3
/-- The device halts. -/
def fatalClass : Nat := 4
/-- INSTANCE of a record that no instance owns. -/
def noOwner : Nat := 31

/-! Statuses (R409, R436). -/

namespace St
def ok : Nat := 0x0000
def descInvalid : Nat := 0x0001
def descNotPermitted : Nat := 0x0002
def descRange : Nat := 0x0003
def chainTarget : Nat := 0x0004
def domainDown : Nat := 0x0005
def pegArgInvalid : Nat := 0x0006
def pegWatchdog : Nat := 0x0007
def bufArgInvalid : Nat := 0x0010
def bufLocation : Nat := 0x0011
def bufQuota : Nat := 0x0012
def bufNoSpace : Nat := 0x0013
def bufNoHandle : Nat := 0x0014
def bufNotAllocated : Nat := 0x0015
def bufNotOwner : Nat := 0x0016
def stepImageInvalid : Nat := 0x0020
def stepContract : Nat := 0x0021
def stepLateFetch : Nat := 0x0022
def stepTileDamaged : Nat := 0x0023
def stepPoison : Nat := 0x0024
def stepPleatSpread : Nat := 0x0025
def stepPeIndex : Nat := 0x0026
def stepBounds : Nat := 0x0027
def stepUninit : Nat := 0x0028
def stepDeckRetired : Nat := 0x0029
def engineNotOwned : Nat := 0x0030
def engineLent : Nat := 0x0031
def deckNotOwned : Nat := 0x0032
def deckRetired : Nat := 0x0033
def deckWorn : Nat := 0x0034
def duplicateTarget : Nat := 0x0035
def guardLaneActive : Nat := 0x0036
def guardBackupInvalid : Nat := 0x0037
def guardProgramInvalid : Nat := 0x0038
def guardBackupWriteFail : Nat := 0x0039
def imageFormat : Nat := 0x0040
def sectionOutOfRange : Nat := 0x0041
def sectionDamaged : Nat := 0x0042
def codebookInvalid : Nat := 0x0043
def programFetchFail : Nat := 0x0044
def sectionChanged : Nat := 0x0045
def vprogFault : Nat := 0x0046
def programVerifyFail : Nat := 0x0047
def programNotStarted : Nat := 0x0048
def testDeferred : Nat := 0x0050
def checkFailed : Nat := 0x0051
def streamBusy : Nat := 0x0060
def streamArgInvalid : Nat := 0x0061
def instPlacement : Nat := 0x0070
def instBroadLimit : Nat := 0x0071
def instArgInvalid : Nat := 0x0072
def instExists : Nat := 0x0073
def instNotFound : Nat := 0x0074
def instVfDisabled : Nat := 0x0075
def instCoreTaken : Nat := 0x0076
def instInUse : Nat := 0x0077
def instKeyFail : Nat := 0x0078
def instResetTimeout : Nat := 0x0079
end St

/-! Record codes (R593). -/

namespace Rc
def pleatSplit : Nat := 0x8001
def checkSourceLost : Nat := 0x8002
def darnPending : Nat := 0x8003
def columnDarned : Nat := 0x8004
def engineRetired : Nat := 0x8005
def clipHigh : Nat := 0x8006
def tileReread : Nat := 0x8007
def chainRetry : Nat := 0x8008
def vrLinkRestored : Nat := 0x8009
def instResetLate : Nat := 0x800A
def pageRetired : Nat := 0x800B
def eventOverflow : Nat := 0x800C
def t2Poison : Nat := 0x8010
def doorbellInvalid : Nat := 0x8020
def chainBadHandle : Nat := 0x8021
def legacyOrder : Nat := 0x8022
def voltSkew : Nat := 0x8030
def tempSkew : Nat := 0x8031
def hemDrop : Nat := 0x8032
def keyFail : Nat := 0x8033
def guardLate : Nat := 0x8034
def guardLoadFail : Nat := 0x8035
def guardColumnFault : Nat := 0x8036
def vtableFallback : Nat := 0x8037
def vrLinkLost : Nat := 0x8038
def capFloor : Nat := 0x8039
def flashTimeout : Nat := 0x803A
def chainFormFail : Nat := 0x803B
def chainPortDown : Nat := 0x803C
def fwRestart : Nat := 0x803D
def hubT2Ue : Nat := 0x803E
def pstateTimeout : Nat := 0x8040
def doubleFault : Nat := 0x8041
def fwFatal : Nat := 0x8042
def thermalTrip : Nat := 0x8043
end Rc

end Sys2Proof.Machine
end

