-- ==== Sys2Proof/Machine/Bits.lean ====
section
/-!
DEFINITION. Bit fields, byte order, sign extension, saturation and the checksum: the helpers every meaning uses.
-/

namespace Sys2Proof.Machine

/-- Bits `[msb:lsb]` of a number (R14 writes ranges so). -/
def fld (w msb lsb : Nat) : Nat := (w >>> lsb) % 2 ^ (msb + 1 - lsb)

/-- The number with bits `[msb:lsb]` replaced by the low bits of `v`. -/
def setFld (w msb lsb v : Nat) : Nat :=
  w - (fld w msb lsb) <<< lsb + (v % 2 ^ (msb + 1 - lsb)) <<< lsb

/-- Bit `n` of a number. -/
def bit (w n : Nat) : Bool := w.testBit n

/-- A bit as 0 or 1. -/
def b2n (b : Bool) : Nat := if b then 1 else 0

/-- The number with bit `n` set or cleared. -/
def putBit (w n : Nat) (b : Bool) : Nat := setFld w n n (b2n b)

/-- Saturating sum of a counter of `bits` bits (R623). -/
def satAdd (bits a b : Nat) : Nat := min (a + b) (2 ^ bits - 1)

/-- Little-endian number of a byte list (R15). -/
def leNat : List Nat → Nat
  | [] => 0
  | b :: t => b + 256 * leNat t

/-- The `n` little-endian bytes of a number (R15). -/
def leBytes : Nat → Nat → List Nat
  | 0, _ => []
  | n + 1, v => v % 256 :: leBytes n (v / 256)

/-- A `bits`-bit number read as two's complement. -/
def toSigned (bits v : Nat) : Int :=
  if v % 2 ^ bits < 2 ^ (bits - 1) then ((v % 2 ^ bits : Nat) : Int) else ((v % 2 ^ bits : Nat) : Int) - (2 ^ bits : Nat)

/-- The two's complement code of an integer in `bits` bits. -/
def ofSigned (bits : Nat) (v : Int) : Nat := (v % ((2 ^ bits : Nat) : Int)).toNat

/-- An integer clamped to `lo … hi`. -/
def clampInt (lo hi v : Int) : Int := if v < lo then lo else if hi < v then hi else v

/-- Saturation to INT16. -/
def sat16 (v : Int) : Int := clampInt (-32768) 32767 v

/-- The 16-bit number at byte offset `o` of a byte list. -/
def u16At (b : List Nat) (o : Nat) : Nat := leNat ((b.drop o).take 2)

/-- The 32-bit number at byte offset `o` of a byte list. -/
def u32At (b : List Nat) (o : Nat) : Nat := leNat ((b.drop o).take 4)

/-- The 64-bit number at byte offset `o` of a byte list. -/
def u64At (b : List Nat) (o : Nat) : Nat := leNat ((b.drop o).take 8)

/-- The byte at offset `o` of a byte list. -/
def u8At (b : List Nat) (o : Nat) : Nat := b.getD o 0

/-- One bit of the reflected CRC-32C (polynomial 0x1EDC6F41, reflected 0x82F63B78). -/
def crcBit (c : Nat) : Nat := if c % 2 = 1 then (c / 2) ^^^ 0x82F63B78 else c / 2

/-- One byte of CRC-32C. -/
def crcByte (c b : Nat) : Nat :=
  crcBit (crcBit (crcBit (crcBit (crcBit (crcBit (crcBit (crcBit (c ^^^ b))))))))

/-- CRC-32C of a byte list. -/
def crc32c (bs : List Nat) : Nat := (bs.foldl crcByte 0xFFFFFFFF) ^^^ 0xFFFFFFFF

/-- Integer division rounding half to even, of a non-negative divisor. -/
def divRne (n : Int) (d : Nat) : Int :=
  let q := n / (d : Int)
  let r := n % (d : Int)
  if 2 * r < d then q else if (d : Int) < 2 * r then q + 1 else if q % 2 = 0 then q else q + 1

/-- The integers `0 … n-1` for which a test holds, in rising order. -/
def upTo (n : Nat) (p : Nat → Bool) : List Nat := (List.range n).filter p

/-- A list with position `i` replaced. -/
def setAt {α : Type} (l : List α) (i : Nat) (v : α) : List α := l.set i v

/-- How many entries of a list meet a test. -/
def countIf {α : Type} (p : α → Bool) (l : List α) : Nat := (l.filter p).length

end Sys2Proof.Machine
end

