-- ==== Sys2Proof/Machine/RegMap.lean ====
section
/-!
DEFINITION. The register map: every register of PF BAR0, of the die windows and of the function pages, with the
fields, types and reset values of the chapters' register tables (R16, R18, R20, R39, R380, R381). A register is
known by a key: its PF BAR0 offset, or 0x1000_0000 + 0x1_0000 × function + its offset in the VF BAR0 layout.
-/

namespace Sys2Proof.Machine

/-- One register of the map: `n1` copies `s1` bytes apart, each of `n2` copies `s2` bytes apart, of `width` bits.
`rw`, `w1c` are the masks of the fields of those types (R16); `reset` is the value after cold reset. -/
structure RegRow where
  name  : String
  base  : Nat
  n1    : Nat
  s1    : Nat
  n2    : Nat
  s2    : Nat
  width : Nat
  rw    : Nat
  w1c   : Nat
  reset : Nat
  deriving DecidableEq, Repr

/-- A field of a register: the key of its word, and its bits. A field above bit 31 reads two words. -/
structure RField where
  key : Nat
  msb : Nat
  lsb : Nat
  deriving DecidableEq, Repr

/-- The first key of the function pages. -/
def fnBase : Nat := 0x10000000

/-- The key of offset `off` of function `f`'s page (VF BAR0 layout, R380; function 0 is the PF, R381). -/
def fnKey (f off : Nat) : Nat := fnBase + 0x10000 * f + off

/-- The key of offset `off` of die `d`'s window (R39). -/
def dieKey (d off : Nat) : Nat := 0x01000000 + 0x100000 * d + off

/-- Registers of group B0 of the map. -/
def regRowsB0 : List RegRow :=
  [⟨"IDENT.DEVICE", 0x0, 1, 0x0, 1, 0x0, 32, 0x0, 0x0, 0x1f5c0848⟩,
   ⟨"IDENT.STEPPING", 0x4, 1, 0x0, 1, 0x0, 32, 0x0, 0x0, 0x0⟩,
   ⟨"IDENT.CAPS0", 0x8, 1, 0x0, 1, 0x0, 32, 0x0, 0x0, 0x84a10ff⟩,
   ⟨"IDENT.CAPS1", 0xc, 1, 0x0, 1, 0x0, 32, 0x0, 0x0, 0x102⟩,
   ⟨"IDENT.ENGINES", 0x10, 1, 0x0, 1, 0x0, 32, 0x0, 0x0, 0x18000⟩,
   ⟨"IDENT.SERIAL", 0x18, 1, 0x0, 1, 0x0, 64, 0x0, 0x0, 0x0⟩]

/-- Registers of group B1 of the map. -/
def regRowsB1 : List RegRow :=
  [⟨"BOOT.STATUS", 0x10000, 1, 0x0, 1, 0x0, 32, 0x0, 0x0, 0x0⟩,
   ⟨"BOOT.RESET_CTRL", 0x10004, 1, 0x0, 1, 0x0, 32, 0x0, 0x0, 0x0⟩,
   ⟨"BOOT.LOAD_ADDR", 0x10008, 1, 0x0, 1, 0x0, 64, 0xffffffffffffffc0, 0x0, 0x0⟩,
   ⟨"BOOT.LOAD_LEN", 0x10010, 1, 0x0, 1, 0x0, 32, 0x1ffffff, 0x0, 0x0⟩,
   ⟨"BOOT.LOAD_CMD", 0x10014, 1, 0x0, 1, 0x0, 32, 0x0, 0x0, 0x0⟩,
   ⟨"BOOT.RESET_COUNT", 0x10020, 4, 0x4, 1, 0x0, 32, 0x0, 0x0, 0x0⟩]

/-- Registers of group B2 of the map. -/
def regRowsB2 : List RegRow :=
  [⟨"TIME.NOW", 0x20000, 1, 0x0, 1, 0x0, 64, 0x0, 0x0, 0x0⟩,
   ⟨"TIME.STATUS", 0x20008, 1, 0x0, 1, 0x0, 32, 0x0, 0x0, 0x80000000⟩,
   ⟨"TIME.ALARM_CMP", 0x20100, 4, 0x10, 1, 0x0, 64, 0xffffffffffffffff, 0x0, 0x0⟩,
   ⟨"TIME.ALARM_CTRL", 0x20108, 4, 0x10, 1, 0x0, 32, 0xe03f0000, 0x10000000, 0x0⟩]

/-- Registers of group B3 of the map. -/
def regRowsB3 : List RegRow :=
  [⟨"PINMUX.PIN", 0x30000, 16, 0x4, 1, 0x0, 32, 0xf1, 0x0, 0x0⟩,
   ⟨"GPIO.OUT", 0x30040, 1, 0x0, 1, 0x0, 32, 0xffff, 0x0, 0x0⟩,
   ⟨"GPIO.OE", 0x30044, 1, 0x0, 1, 0x0, 32, 0xffff, 0x0, 0x0⟩,
   ⟨"GPIO.IN", 0x30048, 1, 0x0, 1, 0x0, 32, 0x0, 0x0, 0x0⟩,
   ⟨"GPIO.RISE", 0x3004c, 1, 0x0, 1, 0x0, 32, 0xffff, 0x0, 0x0⟩,
   ⟨"GPIO.FALL", 0x30050, 1, 0x0, 1, 0x0, 32, 0xffff, 0x0, 0x0⟩,
   ⟨"GPIO.EDGE", 0x30054, 1, 0x0, 1, 0x0, 32, 0x0, 0xffff, 0x0⟩,
   ⟨"GPIO.CTRL", 0x30058, 1, 0x0, 1, 0x0, 32, 0xbf000000, 0x0, 0x0⟩]

/-- Registers of group B4 of the map. -/
def regRowsB4 : List RegRow :=
  [⟨"PSTATE.REQ", 0x40000, 1, 0x0, 1, 0x0, 32, 0x0, 0x0, 0x0⟩,
   ⟨"PSTATE.CTRL", 0x40004, 1, 0x0, 1, 0x0, 32, 0xe03fffff, 0x0, 0xc0000064⟩,
   ⟨"PSTATE.STATUS", 0x40008, 1, 0x0, 1, 0x0, 32, 0x0, 0x0, 0x0⟩,
   ⟨"PSTATE.ENTRY_RESULT", 0x4000c, 1, 0x0, 1, 0x0, 32, 0x0, 0x0, 0x0⟩,
   ⟨"PSTATE.ENTRY_TIME", 0x40010, 1, 0x0, 1, 0x0, 64, 0x0, 0x0, 0x0⟩,
   ⟨"PSTATE.WAKE_EN", 0x40018, 1, 0x0, 1, 0x0, 32, 0x1f0, 0x0, 0x3e⟩,
   ⟨"PSTATE.LAST_WAKE", 0x40020, 1, 0x0, 1, 0x0, 32, 0x0, 0x0, 0x0⟩,
   ⟨"PSTATE.LAST_WAKE_TIME", 0x40028, 1, 0x0, 1, 0x0, 64, 0x0, 0x0, 0x0⟩,
   ⟨"PSTATE.WAKE_COUNT", 0x40044, 8, 0x4, 1, 0x0, 32, 0x0, 0x0, 0x0⟩]

/-- Registers of group B5 of the map. -/
def regRowsB5 : List RegRow :=
  [⟨"VOLT.STATUS", 0x50000, 1, 0x0, 1, 0x0, 32, 0x0, 0x0, 0x0⟩,
   ⟨"VOLT.RAIL", 0x50100, 9, 0x4, 1, 0x0, 32, 0xff000000, 0x0, 0xf0880000⟩,
   ⟨"VOLT.VTABLE", 0x50200, 9, 0x40, 16, 0x4, 32, 0x0, 0x0, 0x0⟩,
   ⟨"VOLT.AVS_COUNT", 0x50600, 6, 0x4, 1, 0x0, 32, 0x0, 0x0, 0x0⟩,
   ⟨"VOLT.LB_ENTRY", 0x50800, 4, 0x4, 1, 0x0, 32, 0xff77, 0x0, 0x0⟩,
   ⟨"VOLT.LB_STATUS", 0x50810, 1, 0x0, 1, 0x0, 32, 0x0, 0x0, 0x20000000⟩]

/-- Registers of group B6 of the map. -/
def regRowsB6 : List RegRow :=
  [⟨"PRESS.CAP", 0x60000, 1, 0x0, 1, 0x0, 32, 0xff03ffff, 0x0, 0x6e01d4c0⟩,
   ⟨"PRESS.CTRL", 0x60004, 1, 0x0, 1, 0x0, 32, 0xfff00000, 0x0, 0x800000⟩,
   ⟨"PRESS.STATUS", 0x60008, 1, 0x0, 1, 0x0, 32, 0x0, 0x0, 0x701d4c0⟩,
   ⟨"PRESS.EST", 0x6000c, 1, 0x0, 1, 0x0, 32, 0x0, 0x0, 0x0⟩,
   ⟨"PRESS.SHORTFALL", 0x60010, 1, 0x0, 1, 0x0, 32, 0x0, 0x0, 0x0⟩,
   ⟨"PRESS.LEVEL", 0x60020, 8, 0x4, 1, 0x0, 32, 0x0, 0x0, 0x740⟩,
   ⟨"PRESS.RAIL_LIMIT.CORE", 0x60100, 8, 0x4, 1, 0x0, 32, 0xffffffff, 0x0, 0xfa00e10⟩,
   ⟨"PRESS.RAIL_LIMIT.ANA", 0x60120, 8, 0x4, 1, 0x0, 32, 0xffffffff, 0x0, 0x32002d0⟩,
   ⟨"PRESS.RAIL_LIMIT.HUB", 0x60140, 1, 0x0, 1, 0x0, 32, 0xffffffff, 0x0, 0xdac0c4e⟩,
   ⟨"PRESS.GAIN", 0x60180, 19, 0x4, 1, 0x0, 32, 0x0, 0x0, 0x4000⟩,
   ⟨"PRESS.REASON_US", 0x60200, 7, 0x8, 1, 0x0, 64, 0x0, 0x0, 0x0⟩,
   ⟨"PRESS.REASON_LAST", 0x60280, 7, 0x10, 1, 0x0, 128, 0x0, 0x0, 0x0⟩,
   ⟨"PRESS.ENERGY", 0x60300, 1, 0x0, 1, 0x0, 64, 0x0, 0x0, 0x0⟩,
   ⟨"PRESS.HINT_COUNT", 0x60308, 1, 0x0, 1, 0x0, 32, 0x0, 0x0, 0x0⟩,
   ⟨"PRESS.CHAIN_TOTAL", 0x60400, 1, 0x0, 1, 0x0, 32, 0xffffff, 0x0, 0x0⟩,
   ⟨"PRESS.CHAIN_BUDGET", 0x60404, 1, 0x0, 1, 0x0, 32, 0x0, 0x0, 0x0⟩,
   ⟨"PRESS.CHAIN_WAIT", 0x60408, 1, 0x0, 1, 0x0, 32, 0x0, 0x0, 0x0⟩]

/-- Registers of group B7 of the map. -/
def regRowsB7 : List RegRow :=
  [⟨"THERM.CTRL", 0x70000, 1, 0x0, 1, 0x0, 32, 0xbf00001f, 0x0, 0x5⟩,
   ⟨"THERM.LIMITS", 0x70004, 1, 0x0, 1, 0x0, 32, 0x0, 0x0, 0x19001b8⟩,
   ⟨"THERM.STATUS", 0x70008, 1, 0x0, 1, 0x0, 32, 0x0, 0x0, 0x0⟩,
   ⟨"THERM.DOMAIN", 0x70010, 10, 0x4, 1, 0x0, 32, 0x0, 0x0, 0x0⟩,
   ⟨"THERM.SENSOR", 0x70100, 10, 0x100, 40, 0x4, 32, 0x0, 0x0, 0x0⟩]

/-- Registers of group B8 of the map. -/
def regRowsB8 : List RegRow :=
  [⟨"INST.SEL", 0x80000, 1, 0x0, 1, 0x0, 32, 0x1f, 0x0, 0x0⟩,
   ⟨"INST.CMD", 0x80004, 1, 0x0, 1, 0x0, 32, 0x0, 0x0, 0x0⟩,
   ⟨"INST.RESULT", 0x80008, 1, 0x0, 1, 0x0, 32, 0x0, 0x0, 0x0⟩,
   ⟨"INST.CFG", 0x8000c, 1, 0x0, 1, 0x0, 32, 0x80000707, 0x0, 0x0⟩,
   ⟨"INST.QUOTA", 0x80010, 5, 0x4, 1, 0x0, 32, 0xffffff, 0x0, 0x0⟩,
   ⟨"INST.STATE", 0x80040, 1, 0x0, 1, 0x0, 32, 0x0, 0x0, 0x0⟩,
   ⟨"INST.CORE_MAP", 0x80100, 192, 0x4, 1, 0x0, 32, 0xffffffff, 0x0, 0x0⟩]

/-- Registers of group BA of the map. -/
def regRowsBA : List RegRow :=
  [⟨"PEG.SEL", 0xa0000, 1, 0x0, 1, 0x0, 32, 0xc0001fff, 0x0, 0x0⟩,
   ⟨"PEG.SEL_ADDR", 0xa0008, 1, 0x0, 1, 0x0, 64, 0xfffffffff, 0x0, 0x0⟩,
   ⟨"PEG.SNAP", 0xa0010, 1, 0x0, 1, 0x0, 32, 0x0, 0x0, 0x0⟩,
   ⟨"PEG.STATUS", 0xa0014, 1, 0x0, 1, 0x0, 32, 0x0, 0x0, 0x0⟩,
   ⟨"PEG.VALUE", 0xa0018, 1, 0x0, 1, 0x0, 64, 0x0, 0x0, 0x0⟩,
   ⟨"PEG.WAITER", 0xa0020, 8, 0x4, 1, 0x0, 32, 0x0, 0x0, 0x0⟩,
   ⟨"PEG.LAST_SIG", 0xa0040, 1, 0x0, 1, 0x0, 32, 0x0, 0x0, 0x0⟩,
   ⟨"PEG.LAST_TIME", 0xa0048, 1, 0x0, 1, 0x0, 64, 0x0, 0x0, 0x0⟩]

/-- Registers of group BB of the map. -/
def regRowsBB : List RegRow :=
  [⟨"ERRLOG.STATUS", 0xb0000, 1, 0x0, 1, 0x0, 32, 0x0, 0x0, 0x0⟩,
   ⟨"ERRLOG.TAIL", 0xb0004, 1, 0x0, 1, 0x0, 32, 0x0, 0x0, 0x0⟩,
   ⟨"ERRLOG.HEAD", 0xb0008, 1, 0x0, 1, 0x0, 32, 0x7f, 0x0, 0x0⟩,
   ⟨"ERRLOG.CTRL", 0xb000c, 1, 0x0, 1, 0x0, 32, 0xbf000000, 0x0, 0x0⟩,
   ⟨"ERRLOG.CLASS_COUNT", 0xb0020, 5, 0x4, 1, 0x0, 32, 0x0, 0x0, 0x0⟩,
   ⟨"ERRLOG.FATAL_RECORD", 0xb0100, 8, 0x4, 1, 0x0, 32, 0x0, 0x0, 0x0⟩,
   ⟨"ERRLOG.FATAL_VALID", 0xb0120, 1, 0x0, 1, 0x0, 32, 0x0, 0x1, 0x0⟩,
   ⟨"ERRLOG.ENTRY", 0xb1000, 64, 0x20, 8, 0x4, 32, 0x0, 0x0, 0x0⟩]

/-- Registers of group BC of the map. -/
def regRowsBC : List RegRow :=
  [⟨"FLASH.STATUS", 0xc0000, 1, 0x0, 1, 0x0, 32, 0x0, 0x8000000, 0x0⟩,
   ⟨"FLASH.CMD", 0xc0004, 1, 0x0, 1, 0x0, 32, 0x0, 0x0, 0x0⟩,
   ⟨"FLASH.ADDR", 0xc0008, 1, 0x0, 1, 0x0, 32, 0x1fffffff, 0x0, 0x0⟩,
   ⟨"FLASH.LENGTH", 0xc000c, 1, 0x0, 1, 0x0, 32, 0x3fffffff, 0x0, 0x0⟩,
   ⟨"FLASH.RESULT", 0xc0010, 1, 0x0, 1, 0x0, 32, 0x0, 0x0, 0x0⟩,
   ⟨"FLASH.WIN_BASE", 0xc0014, 1, 0x0, 1, 0x0, 32, 0x1fff8000, 0x0, 0x0⟩,
   ⟨"FLASH.UPDATE_SRC", 0xc0018, 1, 0x0, 1, 0x0, 64, 0xffffffffffffffc0, 0x0, 0x0⟩,
   ⟨"FLASH.COUNT", 0xc0020, 5, 0x4, 1, 0x0, 32, 0x0, 0x0, 0x0⟩,
   ⟨"FLASH.DATA", 0xc0100, 64, 0x4, 1, 0x0, 32, 0xffffffff, 0x0, 0xffffffff⟩]

/-- Registers of group BD of the map. -/
def regRowsBD : List RegRow :=
  [⟨"SENSOR.CSI_CFG", 0xd0000, 8, 0x20, 1, 0x0, 32, 0x80000007, 0x0, 0x4⟩,
   ⟨"SENSOR.CSI_STATUS", 0xd0004, 8, 0x20, 1, 0x0, 32, 0x0, 0x0, 0x0⟩,
   ⟨"SENSOR.CSI_ERR", 0xd0008, 8, 0x20, 4, 0x4, 32, 0x0, 0x0, 0x0⟩,
   ⟨"SENSOR.CTX_VIEW", 0xd1000, 16, 0x8, 1, 0x0, 64, 0x0, 0x0, 0xf8000000⟩,
   ⟨"SENSOR.FSP_STATUS", 0xd8000, 4, 0x10, 1, 0x0, 32, 0x40000000, 0x0, 0x40000000⟩,
   ⟨"SENSOR.FSP_COUNT", 0xd8004, 4, 0x10, 1, 0x0, 32, 0x0, 0x0, 0x0⟩]

/-- Registers of group BE of the map. -/
def regRowsBE : List RegRow :=
  [⟨"GUARD.CTRL", 0xe0000, 1, 0x0, 1, 0x0, 32, 0xf000ffff, 0x0, 0x10000000⟩,
   ⟨"GUARD.STATUS", 0xe0004, 1, 0x0, 1, 0x0, 32, 0x0, 0x10000000, 0x0⟩,
   ⟨"GUARD.FRAME", 0xe0008, 1, 0x0, 1, 0x0, 32, 0x0, 0x0, 0x0⟩,
   ⟨"GUARD.FRAME_TIME", 0xe0010, 1, 0x0, 1, 0x0, 64, 0x0, 0x0, 0x0⟩,
   ⟨"GUARD.VERDICT", 0xe0020, 16, 0x4, 1, 0x0, 32, 0x0, 0x0, 0xff12⟩,
   ⟨"GUARD.OUT_CFG", 0xe0064, 1, 0x0, 1, 0x0, 32, 0xffffff, 0x0, 0xff00⟩,
   ⟨"GUARD.LATCHED", 0xe0068, 1, 0x0, 1, 0x0, 32, 0x0, 0xff, 0x0⟩,
   ⟨"GUARD.LANE_CFG0", 0xe0080, 16, 0x8, 1, 0x0, 32, 0xffffffff, 0x0, 0xff120001⟩,
   ⟨"GUARD.LANE_CFG1", 0xe0084, 16, 0x8, 1, 0x0, 32, 0xf, 0x0, 0x0⟩,
   ⟨"GUARD.CMP_CFG", 0xe0200, 8, 0x4, 1, 0x0, 32, 0xffffff07, 0x0, 0xff000000⟩,
   ⟨"GUARD.CMP_STATE", 0xe0220, 1, 0x0, 1, 0x0, 32, 0x0, 0x0, 0x0⟩,
   ⟨"GUARD.LANE_CMD", 0xe0300, 1, 0x0, 1, 0x0, 32, 0x0, 0x0, 0x0⟩,
   ⟨"GUARD.LANE_RESULT", 0xe0304, 1, 0x0, 1, 0x0, 32, 0x0, 0x0, 0x0⟩,
   ⟨"GUARD.LANE_ERR", 0xe0308, 1, 0x0, 1, 0x0, 32, 0x0, 0x0, 0x0⟩,
   ⟨"GUARD.APER_SEL", 0xe0310, 1, 0x0, 1, 0x0, 32, 0x13f, 0x0, 0x0⟩,
   ⟨"GUARD.ENGINE_STATE", 0xe0400, 64, 0x4, 1, 0x0, 32, 0x0, 0x0, 0x0⟩,
   ⟨"GUARD.WEAR", 0xe0500, 64, 0x4, 1, 0x0, 32, 0x0, 0x0, 0x0⟩,
   ⟨"GUARD.LANE_COUNT", 0xe0800, 16, 0x10, 4, 0x4, 32, 0x0, 0x0, 0x0⟩]

/-- Registers of group BF of the map. -/
def regRowsBF : List RegRow :=
  [⟨"CHAIN.CTRL", 0xf0000, 1, 0x0, 1, 0x0, 32, 0x70ffff00, 0x0, 0x0⟩,
   ⟨"CHAIN.STATUS", 0xf0004, 1, 0x0, 1, 0x0, 32, 0x0, 0x10000000, 0x0⟩,
   ⟨"CHAIN.PORT_STATUS", 0xf0010, 4, 0x10, 1, 0x0, 32, 0x0, 0x0, 0x0⟩,
   ⟨"CHAIN.PORT_COUNT", 0xf0100, 4, 0x20, 8, 0x4, 32, 0x0, 0x0, 0x0⟩,
   ⟨"CHAIN.RWIN_SEL", 0xf0200, 1, 0x0, 1, 0x0, 32, 0xffff8000, 0x0, 0x0⟩,
   ⟨"CHAIN.MIRROR", 0xf0300, 64, 0x10, 1, 0x0, 128, 0xffffffffffffffffffffffdf, 0x0, 0x0⟩,
   ⟨"CHAIN.CGEN", 0xf0804, 16, 0x4, 1, 0x0, 32, 0x0, 0x0, 0x0⟩,
   ⟨"CHAIN.SPAN", 0xf0888, 16, 0x8, 1, 0x0, 64, 0xffffffffffffffff, 0x0, 0x0⟩]

/-- Registers of group B10 of the map. -/
def regRowsB10 : List RegRow :=
  [⟨"HBM.SCRUB_CTRL", 0x100000, 1, 0x0, 1, 0x0, 32, 0x800000ff, 0x0, 0x80000018⟩,
   ⟨"HBM.SCRUB_STATUS", 0x100004, 1, 0x0, 1, 0x0, 32, 0x0, 0x0, 0x0⟩,
   ⟨"HBM.CE_COUNT", 0x100008, 1, 0x0, 1, 0x0, 32, 0x0, 0x0, 0x0⟩,
   ⟨"HBM.UE_COUNT", 0x10000c, 1, 0x0, 1, 0x0, 32, 0x0, 0x0, 0x0⟩,
   ⟨"HBM.PAGES", 0x100010, 1, 0x0, 1, 0x0, 32, 0x0, 0x0, 0x5ff0⟩,
   ⟨"HBM.POISON", 0x100014, 1, 0x0, 1, 0x0, 32, 0x0, 0x0, 0x0⟩]

/-- Registers of group D of the map. -/
def regRowsD : List RegRow :=
  [⟨"DIE.CHECK_CTRL", 0x0, 1, 0x0, 1, 0x0, 32, 0x800000ff, 0x0, 0x8000000a⟩,
   ⟨"DIE.HEALTH_SEL", 0x4, 1, 0x0, 1, 0x0, 32, 0x3fff, 0x0, 0x0⟩,
   ⟨"DIE.DARN_ENTRY", 0x1000, 8, 0x40, 16, 0x4, 32, 0x0, 0x0, 0x0⟩,
   ⟨"DIE.DECK_HEALTH", 0x1200, 8, 0x4, 1, 0x0, 32, 0x0, 0x0, 0x8000⟩,
   ⟨"DIE.HEALTH_COUNT", 0x2000, 10, 0x4, 1, 0x0, 32, 0x0, 0x0, 0x0⟩,
   ⟨"DIE.WEAR", 0x40000, 12288, 0x20, 8, 0x4, 32, 0x0, 0x0, 0x0⟩,
   ⟨"DIE.DECK_STATE", 0xa0000, 12288, 0x8, 2, 0x4, 32, 0x0, 0x0, 0x0⟩,
   ⟨"DIE.PROG_STATUS", 0xb8000, 1, 0x0, 1, 0x0, 32, 0x0, 0x0, 0x0⟩,
   ⟨"DIE.PLEAT_RECAL", 0xc0000, 32, 0x10, 1, 0x0, 32, 0x0, 0x0, 0x0⟩,
   ⟨"DIE.PLEAT_SPLIT", 0xc0004, 32, 0x10, 1, 0x0, 32, 0x0, 0x0, 0x0⟩,
   ⟨"DIE.PLEAT_STATE", 0xc0008, 32, 0x10, 1, 0x0, 32, 0x0, 0x0, 0x0⟩,
   ⟨"DIE.PE_COUNT", 0xc1000, 32, 0x10, 4, 0x4, 32, 0x0, 0x0, 0x0⟩,
   ⟨"DIE.TILE_COUNT", 0xc2000, 32, 0x10, 4, 0x4, 32, 0x0, 0x0, 0x0⟩,
   ⟨"DIE.HEM_STATUS", 0xc3000, 1, 0x0, 1, 0x0, 32, 0x0, 0x0, 0x0⟩,
   ⟨"DIE.XING_TRIP", 0xc3004, 1, 0x0, 1, 0x0, 32, 0x0, 0x0, 0x0⟩,
   ⟨"DIE.TEMP_SPREAD", 0xc3008, 1, 0x0, 1, 0x0, 32, 0x0, 0x0, 0x0⟩,
   ⟨"DIE.HEM_DROP", 0xc300c, 1, 0x0, 1, 0x0, 32, 0x0, 0x0, 0x0⟩,
   ⟨"DIE.ANA_OOR", 0xc4000, 1, 0x0, 1, 0x0, 32, 0x0, 0x0, 0x0⟩,
   ⟨"DIE.SRAM_CE", 0xc4004, 1, 0x0, 1, 0x0, 32, 0x0, 0x0, 0x0⟩,
   ⟨"DIE.SRAM_POISON", 0xc4008, 1, 0x0, 1, 0x0, 32, 0x0, 0x0, 0x0⟩,
   ⟨"DIE.CORE_SEL", 0xc4010, 1, 0x0, 1, 0x0, 32, 0x3ff, 0x0, 0x0⟩,
   ⟨"DIE.CORE_COUNT", 0xc4014, 4, 0x4, 1, 0x0, 32, 0x0, 0x0, 0x0⟩,
   ⟨"DIE.PERI_SEL", 0xd0000, 1, 0x0, 1, 0x0, 32, 0x3fff, 0x0, 0x0⟩,
   ⟨"DIE.PERI_STATUS", 0xd0004, 1, 0x0, 1, 0x0, 32, 0x0, 0x4, 0x0⟩]

/-- Registers of group B200 of the map. -/
def regRowsB200 : List RegRow :=
  [⟨"DEBUG.CTRL", 0x2000000, 1, 0x0, 1, 0x0, 32, 0xe0000000, 0x0, 0x0⟩,
   ⟨"DEBUG.SNAP", 0x2000004, 1, 0x0, 1, 0x0, 32, 0x7, 0x0, 0x0⟩,
   ⟨"DEBUG.SNAP_TIME", 0x2000008, 1, 0x0, 1, 0x0, 64, 0x0, 0x0, 0x0⟩]

/-- Registers of group V of the map. -/
def regRowsV : List RegRow :=
  [⟨"WR_BASE", 0x1000, 16, 0x20, 1, 0x0, 64, 0xfffffffffffff000, 0x0, 0x0⟩,
   ⟨"WR_CTRL", 0x1008, 16, 0x20, 1, 0x0, 32, 0x80000f1f, 0x0, 0x6⟩,
   ⟨"WR_HEAD", 0x100c, 16, 0x20, 1, 0x0, 32, 0x0, 0x0, 0x0⟩,
   ⟨"WR_TAIL", 0x1010, 16, 0x20, 1, 0x0, 32, 0x0, 0x0, 0x0⟩,
   ⟨"DR_BASE", 0x1200, 16, 0x20, 1, 0x0, 64, 0xfffffffffffff000, 0x0, 0x0⟩,
   ⟨"DR_CTRL", 0x1208, 16, 0x20, 1, 0x0, 32, 0xc03f001f, 0x0, 0x6⟩,
   ⟨"DR_TAIL", 0x120c, 16, 0x20, 1, 0x0, 32, 0x0, 0x0, 0x0⟩,
   ⟨"DR_HEAD", 0x1210, 16, 0x20, 1, 0x0, 32, 0x0, 0x0, 0x0⟩,
   ⟨"DR_STATUS", 0x1214, 16, 0x20, 1, 0x0, 32, 0x0, 0x0, 0x0⟩,
   ⟨"EV_BASE", 0x1400, 1, 0x0, 1, 0x0, 64, 0xfffffffffffff000, 0x0, 0x0⟩,
   ⟨"EV_CTRL", 0x1408, 1, 0x0, 1, 0x0, 32, 0xc03f001f, 0x0, 0x6⟩,
   ⟨"EV_TAIL", 0x140c, 1, 0x0, 1, 0x0, 32, 0x0, 0x0, 0x0⟩,
   ⟨"EV_HEAD", 0x1410, 1, 0x0, 1, 0x0, 32, 0x0, 0x0, 0x0⟩,
   ⟨"RING_ERR", 0x1480, 1, 0x0, 1, 0x0, 32, 0x0, 0x0, 0x0⟩,
   ⟨"ALIAS.VALUE", 0x2010, 64, 0x40, 1, 0x0, 64, 0x0, 0x0, 0x0⟩,
   ⟨"ALIAS.TARGET_TIER", 0x2018, 64, 0x40, 1, 0x0, 32, 0x7, 0x0, 0x0⟩,
   ⟨"ALIAS.TARGET_UNIT", 0x201c, 64, 0x40, 1, 0x0, 32, 0xffffffff, 0x0, 0x0⟩,
   ⟨"ALIAS.TARGET_ADDR", 0x2020, 64, 0x40, 1, 0x0, 64, 0xffffffffffffffff, 0x0, 0x0⟩,
   ⟨"ALIAS.STATUS", 0x2028, 64, 0x40, 1, 0x0, 32, 0x0, 0x1, 0x0⟩,
   ⟨"INST_STATUS.STATE", 0x3000, 1, 0x0, 1, 0x0, 32, 0x0, 0x0, 0x0⟩,
   ⟨"INST_STATUS.ARRAY_EVALS", 0x3100, 1, 0x0, 1, 0x0, 64, 0x0, 0x0, 0x0⟩,
   ⟨"INST_STATUS.CLIP_EVALS", 0x3108, 1, 0x0, 1, 0x0, 64, 0x0, 0x0, 0x0⟩,
   ⟨"INST_STATUS.CLIP_CTRL", 0x3110, 1, 0x0, 1, 0x0, 32, 0x800fffff, 0x0, 0x3e8⟩,
   ⟨"INST_STATUS.CLIP_ALERTS", 0x3114, 1, 0x0, 1, 0x0, 32, 0x0, 0x0, 0x0⟩,
   ⟨"INST_STATUS.MEM_CTRL", 0x3120, 1, 0x0, 1, 0x0, 32, 0x80000000, 0x0, 0x0⟩,
   ⟨"INST_STATUS.STALL_LIMIT", 0x3124, 1, 0x0, 1, 0x0, 32, 0xffffffff, 0x0, 0x2710⟩,
   ⟨"INST_STATUS.UNINIT_READ", 0x3128, 1, 0x0, 1, 0x0, 32, 0x0, 0x0, 0x0⟩,
   ⟨"INST_STATUS.BUF_ERRORS", 0x312c, 1, 0x0, 1, 0x0, 32, 0x0, 0x0, 0x0⟩,
   ⟨"INST_STATUS.PEG_CTRL", 0x3130, 1, 0x0, 1, 0x0, 32, 0xc0003fff, 0x0, 0xfa⟩,
   ⟨"INST_STATUS.PEG_COUNT", 0x3134, 1, 0x0, 1, 0x0, 32, 0x0, 0x0, 0x0⟩,
   ⟨"INST_STATUS.EV_COUNT", 0x3138, 1, 0x0, 1, 0x0, 32, 0x0, 0x0, 0x0⟩,
   ⟨"INST_STATUS.STALL_NS", 0x3140, 5, 0x8, 1, 0x0, 64, 0x0, 0x0, 0x0⟩,
   ⟨"INST_STATUS.HAMPER", 0x3200, 6, 0x8, 1, 0x0, 64, 0x0, 0x0, 0x0⟩,
   ⟨"INST_STATUS.CTX_CTRL", 0x3400, 16, 0x20, 1, 0x0, 32, 0xffffffff, 0x0, 0x3e8⟩,
   ⟨"INST_STATUS.CTX_FRAMES", 0x3404, 16, 0x20, 1, 0x0, 32, 0x0, 0x0, 0x0⟩,
   ⟨"INST_STATUS.CTX_RELEASE", 0x3408, 16, 0x20, 1, 0x0, 32, 0xffffffff, 0x0, 0x0⟩,
   ⟨"INST_STATUS.CTX_ERR", 0x340c, 16, 0x20, 1, 0x0, 32, 0x0, 0x0, 0x0⟩,
   ⟨"MSIX.ADDR", 0x8000, 64, 0x10, 1, 0x0, 64, 0xfffffffffffffffc, 0x0, 0x0⟩,
   ⟨"MSIX.DATA", 0x8008, 64, 0x10, 1, 0x0, 32, 0xffffffff, 0x0, 0x0⟩,
   ⟨"MSIX.CTRL", 0x800c, 64, 0x10, 1, 0x0, 32, 0x1, 0x0, 0x1⟩,
   ⟨"MSIX.PBA", 0x8800, 1, 0x0, 1, 0x0, 64, 0x0, 0x0, 0x0⟩]

/-- The rows of the block that offset `o` of PF BAR0 lies in (R39); die windows and function pages have rows
with offsets local to the window or page. -/
def regRowsAt (k : Nat) : List RegRow :=
  if fnBase ≤ k then regRowsV
  else if 0x01000000 ≤ k ∧ k < 0x01800000 then regRowsD
  else match k >>> 16 with
  | 0x0 => regRowsB0
  | 0x1 => regRowsB1
  | 0x2 => regRowsB2
  | 0x3 => regRowsB3
  | 0x4 => regRowsB4
  | 0x5 => regRowsB5
  | 0x6 => regRowsB6
  | 0x7 => regRowsB7
  | 0x8 => regRowsB8
  | 0xA => regRowsBA
  | 0xB => regRowsBB
  | 0xC => regRowsBC
  | 0xD => regRowsBD
  | 0xE => regRowsBE
  | 0xF => regRowsBF
  | 0x10 => regRowsB10
  | 0x200 => regRowsB200
  | _ => []

/-- The offset within the window or page that a key names. -/
def localOff (k : Nat) : Nat :=
  if fnBase ≤ k then (k - fnBase) % 0x10000
  else if 0x01000000 ≤ k ∧ k < 0x01800000 then (k - 0x01000000) % 0x100000
  else k

/-- Byte position of an offset inside the register copy that contains it, if the row covers it. -/
def RegRow.pos (r : RegRow) (o : Nat) : Option Nat :=
  if o < r.base then none else
  let x := o - r.base
  let i := if r.s1 = 0 then 0 else min (x / r.s1) (r.n1 - 1)
  let y := x - i * r.s1
  let j := if r.s2 = 0 then 0 else min (y / r.s2) (r.n2 - 1)
  let z := y - j * r.s2
  if z * 8 < r.width then some z else none

/-- The register row and byte position that a key falls in, if any: a key with none is a reserved offset (R18). -/
def findReg : List RegRow → Nat → Option (RegRow × Nat)
  | [], _ => none
  | r :: t, o => match r.pos o with
    | some z => some (r, z)
    | none => findReg t o

/-- The register at a key. -/
def regAt (k : Nat) : Option (RegRow × Nat) := findReg (regRowsAt k) (localOff k)

/-- The value of a register word after cold reset (R20). LANE_CFG1.SOURCE of lane `l` resets to `l`. -/
@[irreducible] def regReset (k : Nat) : Word :=
  if 0xE0080 ≤ k ∧ k < 0xE0100 ∧ k % 8 = 4 then BitVec.ofNat 32 ((k - 0xE0084) / 8)
  else match regAt k with
    | some (r, z) => BitVec.ofNat 32 (r.reset >>> (8 * (z - z % 4)))
    | none => 0

namespace R

def IDENT_DEVICE_VENDOR : RField := ⟨0x0, 31, 16⟩
def IDENT_DEVICE_PART : RField := ⟨0x0, 15, 0⟩
def IDENT_STEPPING_MAJOR : RField := ⟨0x4, 15, 8⟩
def IDENT_STEPPING_MINOR : RField := ⟨0x4, 7, 0⟩
def IDENT_CAPS0_GRADE : RField := ⟨0x8, 31, 30⟩
def IDENT_CAPS0_CHAIN_MASTER : RField := ⟨0x8, 29, 29⟩
def IDENT_CAPS0_LEGACY_PM : RField := ⟨0x8, 28, 28⟩
def IDENT_CAPS0_CSI2_RX : RField := ⟨0x8, 27, 24⟩
def IDENT_CAPS0_CHAIN_PORTS : RField := ⟨0x8, 23, 20⟩
def IDENT_CAPS0_HBM_STACKS : RField := ⟨0x8, 19, 18⟩
def IDENT_CAPS0_VF_COUNT : RField := ⟨0x8, 17, 13⟩
def IDENT_CAPS0_GUARD_LANES : RField := ⟨0x8, 12, 8⟩
def IDENT_CAPS0_DIE_MASK : RField := ⟨0x8, 7, 0⟩
def IDENT_CAPS1_CONTRACT_MAJOR : RField := ⟨0xc, 15, 8⟩
def IDENT_CAPS1_CONTRACT_MINOR : RField := ⟨0xc, 7, 0⟩
def IDENT_ENGINES_AVAILABLE : RField := ⟨0x10, 16, 0⟩
def IDENT_SERIAL_SERIAL : RField := ⟨0x18, 63, 0⟩
def BOOT_STATUS_READY : RField := ⟨0x10000, 31, 31⟩
def BOOT_STATUS_MODE : RField := ⟨0x10000, 30, 29⟩
def BOOT_STATUS_FLASH_FAIL : RField := ⟨0x10000, 28, 28⟩
def BOOT_STATUS_FW_COPY : RField := ⟨0x10000, 27, 27⟩
def BOOT_STATUS_HOST_LOADED : RField := ⟨0x10000, 26, 26⟩
def BOOT_STATUS_LOAD_RESULT : RField := ⟨0x10000, 25, 24⟩
def BOOT_STATUS_LAST_RESET : RField := ⟨0x10000, 23, 20⟩
def BOOT_RESET_CTRL_KEY : RField := ⟨0x10004, 31, 16⟩
def BOOT_RESET_CTRL_OP : RField := ⟨0x10004, 1, 0⟩
def BOOT_LOAD_ADDR_ADDR : RField := ⟨0x10008, 63, 6⟩
def BOOT_LOAD_LEN_BYTES : RField := ⟨0x10010, 24, 0⟩
def BOOT_LOAD_CMD_GO : RField := ⟨0x10014, 31, 31⟩
def BOOT_RESET_COUNT_COUNT (i : Nat) : RField := ⟨0x10020 + 0x4 * i, 31, 0⟩
def TIME_NOW_NS : RField := ⟨0x20000, 63, 0⟩
def TIME_STATUS_SOURCE : RField := ⟨0x20008, 31, 31⟩
def TIME_STATUS_OFF_COUNT : RField := ⟨0x20008, 15, 0⟩
def TIME_ALARM_CMP_COMPARE (i : Nat) : RField := ⟨0x20100 + 0x10 * i, 63, 0⟩
def TIME_ALARM_CTRL_ENABLE (i : Nat) : RField := ⟨0x20108 + 0x10 * i, 31, 31⟩
def TIME_ALARM_CTRL_WAKE (i : Nat) : RField := ⟨0x20108 + 0x10 * i, 30, 30⟩
def TIME_ALARM_CTRL_IRQ_EN (i : Nat) : RField := ⟨0x20108 + 0x10 * i, 29, 29⟩
def TIME_ALARM_CTRL_FIRED (i : Nat) : RField := ⟨0x20108 + 0x10 * i, 28, 28⟩
def TIME_ALARM_CTRL_VECTOR (i : Nat) : RField := ⟨0x20108 + 0x10 * i, 21, 16⟩
def PINMUX_PIN_PARKED (i : Nat) : RField := ⟨0x30000 + 0x4 * i, 12, 12⟩
def PINMUX_PIN_PULL (i : Nat) : RField := ⟨0x30000 + 0x4 * i, 7, 6⟩
def PINMUX_PIN_DRIVE (i : Nat) : RField := ⟨0x30000 + 0x4 * i, 5, 4⟩
def PINMUX_PIN_FUNC (i : Nat) : RField := ⟨0x30000 + 0x4 * i, 0, 0⟩
def GPIO_OUT_PINS : RField := ⟨0x30040, 15, 0⟩
def GPIO_OE_PINS : RField := ⟨0x30044, 15, 0⟩
def GPIO_IN_PINS : RField := ⟨0x30048, 15, 0⟩
def GPIO_RISE_PINS : RField := ⟨0x3004c, 15, 0⟩
def GPIO_FALL_PINS : RField := ⟨0x30050, 15, 0⟩
def GPIO_EDGE_PINS : RField := ⟨0x30054, 15, 0⟩
def GPIO_CTRL_IRQ_EN : RField := ⟨0x30058, 31, 31⟩
def GPIO_CTRL_VECTOR : RField := ⟨0x30058, 29, 24⟩
def PSTATE_REQ_GO : RField := ⟨0x40000, 31, 31⟩
def PSTATE_REQ_TARGET : RField := ⟨0x40000, 2, 0⟩
def PSTATE_CTRL_AUTO_IDLE : RField := ⟨0x40004, 31, 31⟩
def PSTATE_CTRL_HOST_WAKE : RField := ⟨0x40004, 30, 30⟩
def PSTATE_CTRL_IRQ_EN : RField := ⟨0x40004, 29, 29⟩
def PSTATE_CTRL_VECTOR : RField := ⟨0x40004, 21, 16⟩
def PSTATE_CTRL_IDLE_US : RField := ⟨0x40004, 15, 0⟩
def PSTATE_STATUS_BUSY : RField := ⟨0x40008, 31, 31⟩
def PSTATE_STATUS_LINK_WAIT : RField := ⟨0x40008, 30, 30⟩
def PSTATE_STATUS_TARGET : RField := ⟨0x40008, 10, 8⟩
def PSTATE_STATUS_STATE : RField := ⟨0x40008, 2, 0⟩
def PSTATE_ENTRY_RESULT_TARGET : RField := ⟨0x4000c, 31, 29⟩
def PSTATE_ENTRY_RESULT_OUTCOME : RField := ⟨0x4000c, 28, 24⟩
def PSTATE_ENTRY_RESULT_BLOCK : RField := ⟨0x4000c, 23, 16⟩
def PSTATE_ENTRY_RESULT_REASON : RField := ⟨0x4000c, 15, 8⟩
def PSTATE_ENTRY_RESULT_DELAYS : RField := ⟨0x4000c, 7, 0⟩
def PSTATE_ENTRY_TIME_TIME : RField := ⟨0x40010, 63, 0⟩
def PSTATE_WAKE_EN_EN : RField := ⟨0x40018, 8, 4⟩
def PSTATE_WAKE_EN_ALWAYS : RField := ⟨0x40018, 3, 1⟩
def PSTATE_LAST_WAKE_REPLAYED : RField := ⟨0x40020, 31, 31⟩
def PSTATE_LAST_WAKE_FROM : RField := ⟨0x40020, 30, 28⟩
def PSTATE_LAST_WAKE_SOURCE : RField := ⟨0x40020, 27, 24⟩
def PSTATE_LAST_WAKE_DETAIL : RField := ⟨0x40020, 23, 16⟩
def PSTATE_LAST_WAKE_TIME_TIME : RField := ⟨0x40028, 63, 0⟩
def PSTATE_WAKE_COUNT_COUNT (i : Nat) : RField := ⟨0x40044 + 0x4 * i, 31, 0⟩
def VOLT_STATUS_LEGACY : RField := ⟨0x50000, 31, 31⟩
def VOLT_STATUS_LOST_A : RField := ⟨0x50000, 30, 30⟩
def VOLT_STATUS_LOST_B : RField := ⟨0x50000, 29, 29⟩
def VOLT_STATUS_TABLE_SRC : RField := ⟨0x50000, 28, 27⟩
def VOLT_STATUS_COPY_MISMATCH : RField := ⟨0x50000, 26, 26⟩
def VOLT_RAIL_VP_MAX (i : Nat) : RField := ⟨0x50100 + 0x4 * i, 31, 28⟩
def VOLT_RAIL_VP_MIN (i : Nat) : RField := ⟨0x50100 + 0x4 * i, 27, 24⟩
def VOLT_RAIL_TARGET (i : Nat) : RField := ⟨0x50100 + 0x4 * i, 23, 20⟩
def VOLT_RAIL_ACKED (i : Nat) : RField := ⟨0x50100 + 0x4 * i, 19, 16⟩
def VOLT_RAIL_STATE (i : Nat) : RField := ⟨0x50100 + 0x4 * i, 15, 14⟩
def VOLT_VTABLE_RATE (i j : Nat) : RField := ⟨0x50200 + 0x40 * i + 0x4 * j, 31, 16⟩
def VOLT_VTABLE_MV (i j : Nat) : RField := ⟨0x50200 + 0x40 * i + 0x4 * j, 15, 0⟩
def VOLT_AVS_COUNT_COUNT (i : Nat) : RField := ⟨0x50600 + 0x4 * i, 31, 0⟩
def VOLT_LB_ENTRY_FBB_N (i : Nat) : RField := ⟨0x50800 + 0x4 * i, 15, 12⟩
def VOLT_LB_ENTRY_FBB_P (i : Nat) : RField := ⟨0x50800 + 0x4 * i, 11, 8⟩
def VOLT_LB_ENTRY_WA (i : Nat) : RField := ⟨0x50800 + 0x4 * i, 6, 4⟩
def VOLT_LB_ENTRY_RA (i : Nat) : RField := ⟨0x50800 + 0x4 * i, 2, 0⟩
def VOLT_LB_STATUS_RESULT : RField := ⟨0x50810, 31, 30⟩
def VOLT_LB_STATUS_TABLE_LOST : RField := ⟨0x50810, 29, 29⟩
def VOLT_LB_STATUS_COMMITS : RField := ⟨0x50810, 15, 0⟩
def PRESS_CAP_BURST_PCT : RField := ⟨0x60000, 31, 24⟩
def PRESS_CAP_CAP_MW : RField := ⟨0x60000, 17, 0⟩
def PRESS_CTRL_FIXED : RField := ⟨0x60004, 31, 31⟩
def PRESS_CTRL_IRQ_EN : RField := ⟨0x60004, 30, 30⟩
def PRESS_CTRL_VECTOR : RField := ⟨0x60004, 29, 24⟩
def PRESS_CTRL_FIXED_VP : RField := ⟨0x60004, 23, 20⟩
def PRESS_STATUS_FLOOR : RField := ⟨0x60008, 31, 31⟩
def PRESS_STATUS_ALERT_A : RField := ⟨0x60008, 30, 30⟩
def PRESS_STATUS_ALERT_B : RField := ⟨0x60008, 29, 29⟩
def PRESS_STATUS_CAL_HELD : RField := ⟨0x60008, 28, 28⟩
def PRESS_STATUS_HINT_ACTIVE : RField := ⟨0x60008, 27, 27⟩
def PRESS_STATUS_BINDING : RField := ⟨0x60008, 26, 24⟩
def PRESS_STATUS_CAP_APPLIED : RField := ⟨0x60008, 17, 0⟩
def PRESS_EST_MW : RField := ⟨0x6000c, 17, 0⟩
def PRESS_SHORTFALL_MW : RField := ⟨0x60010, 17, 0⟩
def PRESS_LEVEL_BINDING (i : Nat) : RField := ⟨0x60020 + 0x4 * i, 10, 8⟩
def PRESS_LEVEL_LEVEL (i : Nat) : RField := ⟨0x60020 + 0x4 * i, 6, 0⟩
def PRESS_RAIL_LIMIT_CORE_PEAK (i : Nat) : RField := ⟨0x60100 + 0x4 * i, 31, 16⟩
def PRESS_RAIL_LIMIT_CORE_SUST (i : Nat) : RField := ⟨0x60100 + 0x4 * i, 15, 0⟩
def PRESS_RAIL_LIMIT_ANA_PEAK (i : Nat) : RField := ⟨0x60120 + 0x4 * i, 31, 16⟩
def PRESS_RAIL_LIMIT_ANA_SUST (i : Nat) : RField := ⟨0x60120 + 0x4 * i, 15, 0⟩
def PRESS_RAIL_LIMIT_HUB_PEAK : RField := ⟨0x60140, 31, 16⟩
def PRESS_RAIL_LIMIT_HUB_SUST : RField := ⟨0x60140, 15, 0⟩
def PRESS_GAIN_GAIN (i : Nat) : RField := ⟨0x60180 + 0x4 * i, 15, 0⟩
def PRESS_REASON_US_US (i : Nat) : RField := ⟨0x60200 + 0x8 * i, 63, 0⟩
def PRESS_REASON_LAST_START (i : Nat) : RField := ⟨0x60280 + 0x10 * i, 63, 0⟩
def PRESS_REASON_LAST_DURATION_US (i : Nat) : RField := ⟨0x60280 + 0x10 * i + 8, 31, 0⟩
def PRESS_REASON_LAST_DIES (i : Nat) : RField := ⟨0x60280 + 0x10 * i + 12, 7, 0⟩
def PRESS_REASON_LAST_RAIL (i : Nat) : RField := ⟨0x60280 + 0x10 * i + 12, 12, 8⟩
def PRESS_ENERGY_UJ : RField := ⟨0x60300, 63, 0⟩
def PRESS_HINT_COUNT_DROPPED : RField := ⟨0x60308, 31, 16⟩
def PRESS_HINT_COUNT_UNUSED : RField := ⟨0x60308, 15, 0⟩
def PRESS_CHAIN_TOTAL_MW : RField := ⟨0x60400, 23, 0⟩
def PRESS_CHAIN_BUDGET_MW : RField := ⟨0x60404, 23, 0⟩
def PRESS_CHAIN_WAIT_NS : RField := ⟨0x60408, 31, 0⟩
def THERM_CTRL_IRQ_EN : RField := ⟨0x70000, 31, 31⟩
def THERM_CTRL_VECTOR : RField := ⟨0x70000, 29, 24⟩
def THERM_CTRL_MARGIN : RField := ⟨0x70000, 4, 0⟩
def THERM_LIMITS_JMAX : RField := ⟨0x70004, 31, 16⟩
def THERM_LIMITS_TRIP : RField := ⟨0x70004, 15, 0⟩
def THERM_STATUS_THROTTLE : RField := ⟨0x70008, 31, 31⟩
def THERM_STATUS_HOT : RField := ⟨0x70008, 9, 0⟩
def THERM_DOMAIN_MAX (i : Nat) : RField := ⟨0x70010 + 0x4 * i, 31, 16⟩
def THERM_DOMAIN_NOW (i : Nat) : RField := ⟨0x70010 + 0x4 * i, 15, 0⟩
def THERM_SENSOR_VALID (i j : Nat) : RField := ⟨0x70100 + 0x100 * i + 0x4 * j, 31, 31⟩
def THERM_SENSOR_TEMP (i j : Nat) : RField := ⟨0x70100 + 0x100 * i + 0x4 * j, 15, 0⟩
def INST_SEL_INSTANCE : RField := ⟨0x80000, 4, 0⟩
def INST_CMD_GO : RField := ⟨0x80004, 31, 31⟩
def INST_CMD_OP : RField := ⟨0x80004, 2, 0⟩
def INST_RESULT_BUSY : RField := ⟨0x80008, 31, 31⟩
def INST_RESULT_STATUS : RField := ⟨0x80008, 15, 0⟩
def INST_CFG_BROAD : RField := ⟨0x8000c, 31, 31⟩
def INST_CFG_PEG_PER_CORE : RField := ⟨0x8000c, 10, 8⟩
def INST_CFG_DIE : RField := ⟨0x8000c, 2, 0⟩
def INST_QUOTA_LIMIT (i : Nat) : RField := ⟨0x80010 + 0x4 * i, 23, 0⟩
def INST_STATE_GENERATION : RField := ⟨0x80040, 31, 16⟩
def INST_STATE_BROAD_COUNT : RField := ⟨0x80040, 15, 8⟩
def INST_STATE_STATE : RField := ⟨0x80040, 2, 0⟩
def INST_CORE_MAP_CORES (i : Nat) : RField := ⟨0x80100 + 0x4 * i, 31, 0⟩
def PEG_SEL_TIER : RField := ⟨0xa0000, 31, 30⟩
def PEG_SEL_UNIT : RField := ⟨0xa0000, 12, 0⟩
def PEG_SEL_ADDR_ADDRESS : RField := ⟨0xa0008, 35, 0⟩
def PEG_SNAP_TAKE : RField := ⟨0xa0010, 0, 0⟩
def PEG_STATUS_VALID : RField := ⟨0xa0014, 31, 31⟩
def PEG_STATUS_DONE : RField := ⟨0xa0014, 30, 30⟩
def PEG_STATUS_WAITERS : RField := ⟨0xa0014, 23, 16⟩
def PEG_STATUS_SHOWN : RField := ⟨0xa0014, 3, 0⟩
def PEG_VALUE_VALUE : RField := ⟨0xa0018, 63, 0⟩
def PEG_WAITER_ID (i : Nat) : RField := ⟨0xa0020 + 0x4 * i, 31, 0⟩
def PEG_LAST_SIG_ID : RField := ⟨0xa0040, 31, 0⟩
def PEG_LAST_TIME_TIME : RField := ⟨0xa0048, 63, 0⟩
def ERRLOG_STATUS_FROZEN : RField := ⟨0xb0000, 31, 31⟩
def ERRLOG_STATUS_FATAL : RField := ⟨0xb0000, 30, 30⟩
def ERRLOG_STATUS_OVERFLOW : RField := ⟨0xb0000, 15, 0⟩
def ERRLOG_TAIL_POSITION : RField := ⟨0xb0004, 6, 0⟩
def ERRLOG_HEAD_POSITION : RField := ⟨0xb0008, 6, 0⟩
def ERRLOG_CTRL_IRQ_EN : RField := ⟨0xb000c, 31, 31⟩
def ERRLOG_CTRL_VECTOR : RField := ⟨0xb000c, 29, 24⟩
def ERRLOG_CLASS_COUNT_COUNT (i : Nat) : RField := ⟨0xb0020 + 0x4 * i, 31, 0⟩
def ERRLOG_FATAL_RECORD_RECORD (i : Nat) : RField := ⟨0xb0100 + 0x4 * i, 31, 0⟩
def ERRLOG_FATAL_VALID_VALID : RField := ⟨0xb0120, 0, 0⟩
def ERRLOG_ENTRY_RECORD (i j : Nat) : RField := ⟨0xb1000 + 0x20 * i + 0x4 * j, 31, 0⟩
def FLASH_STATUS_BUSY : RField := ⟨0xc0000, 31, 31⟩
def FLASH_STATUS_BANK0 : RField := ⟨0xc0000, 30, 30⟩
def FLASH_STATUS_BANK1 : RField := ⟨0xc0000, 29, 29⟩
def FLASH_STATUS_SUSPENDED : RField := ⟨0xc0000, 28, 28⟩
def FLASH_STATUS_FLASH_BUSY : RField := ⟨0xc0000, 27, 27⟩
def FLASH_STATUS_RESULT : RField := ⟨0xc0000, 7, 0⟩
def FLASH_CMD_GO : RField := ⟨0xc0004, 31, 31⟩
def FLASH_CMD_OP : RField := ⟨0xc0004, 3, 0⟩
def FLASH_ADDR_ADDR : RField := ⟨0xc0008, 28, 0⟩
def FLASH_LENGTH_LENGTH : RField := ⟨0xc000c, 29, 0⟩
def FLASH_RESULT_VALUE : RField := ⟨0xc0010, 31, 0⟩
def FLASH_WIN_BASE_BASE : RField := ⟨0xc0014, 28, 15⟩
def FLASH_UPDATE_SRC_ADDR : RField := ⟨0xc0018, 63, 6⟩
def FLASH_COUNT_COUNT (i : Nat) : RField := ⟨0xc0020 + 0x4 * i, 31, 0⟩
def FLASH_DATA_DATA (i : Nat) : RField := ⟨0xc0100 + 0x4 * i, 31, 0⟩
def SENSOR_CSI_CFG_ENABLE (i : Nat) : RField := ⟨0xd0000 + 0x20 * i, 31, 31⟩
def SENSOR_CSI_CFG_LANES (i : Nat) : RField := ⟨0xd0000 + 0x20 * i, 2, 0⟩
def SENSOR_CSI_STATUS_CLK (i : Nat) : RField := ⟨0xd0004 + 0x20 * i, 31, 31⟩
def SENSOR_CSI_STATUS_SYNCED (i : Nat) : RField := ⟨0xd0004 + 0x20 * i, 30, 30⟩
def SENSOR_CSI_STATUS_RATE (i : Nat) : RField := ⟨0xd0004 + 0x20 * i, 15, 0⟩
def SENSOR_CSI_ERR_COUNT (i j : Nat) : RField := ⟨0xd0008 + 0x20 * i + 0x4 * j, 31, 0⟩
def SENSOR_CTX_VIEW_FRAMES (i : Nat) : RField := ⟨0xd1000 + 0x8 * i + 4, 31, 0⟩
def SENSOR_CTX_VIEW_INSTANCE (i : Nat) : RField := ⟨0xd1000 + 0x8 * i, 31, 27⟩
def SENSOR_CTX_VIEW_PORT (i : Nat) : RField := ⟨0xd1000 + 0x8 * i, 26, 24⟩
def SENSOR_CTX_VIEW_VC (i : Nat) : RField := ⟨0xd1000 + 0x8 * i, 23, 20⟩
def SENSOR_CTX_VIEW_DT (i : Nat) : RField := ⟨0xd1000 + 0x8 * i, 19, 14⟩
def SENSOR_FSP_STATUS_CLK (i : Nat) : RField := ⟨0xd8000 + 0x10 * i, 31, 31⟩
def SENSOR_FSP_STATUS_ENABLE (i : Nat) : RField := ⟨0xd8000 + 0x10 * i, 30, 30⟩
def SENSOR_FSP_STATUS_PKT_ERR (i : Nat) : RField := ⟨0xd8000 + 0x10 * i, 15, 0⟩
def SENSOR_FSP_COUNT_SEQ_GAP (i : Nat) : RField := ⟨0xd8004 + 0x10 * i, 31, 16⟩
def SENSOR_FSP_COUNT_OVERRUN (i : Nat) : RField := ⟨0xd8004 + 0x10 * i, 15, 0⟩
def GUARD_CTRL_ARM : RField := ⟨0xe0000, 31, 31⟩
def GUARD_CTRL_GUARD_IN_DEEP : RField := ⟨0xe0000, 30, 30⟩
def GUARD_CTRL_GUARD_HOLD : RField := ⟨0xe0000, 29, 29⟩
def GUARD_CTRL_AUTO_LOAD : RField := ⟨0xe0000, 28, 28⟩
def GUARD_CTRL_LANE_EN : RField := ⟨0xe0000, 15, 0⟩
def GUARD_STATUS_DOMAIN_UP : RField := ⟨0xe0004, 31, 31⟩
def GUARD_STATUS_LOADED : RField := ⟨0xe0004, 30, 30⟩
def GUARD_STATUS_TIMEBASE : RField := ⟨0xe0004, 29, 29⟩
def GUARD_STATUS_WRITE_REFUSED : RField := ⟨0xe0004, 28, 28⟩
def GUARD_STATUS_HEALTH : RField := ⟨0xe0004, 15, 0⟩
def GUARD_FRAME_COUNT : RField := ⟨0xe0008, 31, 0⟩
def GUARD_FRAME_TIME_TIME : RField := ⟨0xe0010, 63, 0⟩
def GUARD_VERDICT_WORD (i : Nat) : RField := ⟨0xe0020 + 0x4 * i, 15, 0⟩
def GUARD_OUT_CFG_FORCE : RField := ⟨0xe0064, 23, 16⟩
def GUARD_OUT_CFG_ABSENT_STOP : RField := ⟨0xe0064, 15, 8⟩
def GUARD_OUT_CFG_LATCH : RField := ⟨0xe0064, 7, 0⟩
def GUARD_LATCHED_LATCHED : RField := ⟨0xe0068, 7, 0⟩
def GUARD_LANE_CFG0_THRESH (i : Nat) : RField := ⟨0xe0080 + 0x8 * i, 31, 24⟩
def GUARD_LANE_CFG0_FLAG_MASK (i : Nat) : RField := ⟨0xe0080 + 0x8 * i, 23, 16⟩
def GUARD_LANE_CFG0_MATRIX (i : Nat) : RField := ⟨0xe0080 + 0x8 * i, 15, 8⟩
def GUARD_LANE_CFG0_STALE_FRAMES (i : Nat) : RField := ⟨0xe0080 + 0x8 * i, 7, 0⟩
def GUARD_LANE_CFG1_SOURCE (i : Nat) : RField := ⟨0xe0084 + 0x8 * i, 3, 0⟩
def GUARD_CMP_CFG_HI (i : Nat) : RField := ⟨0xe0200 + 0x4 * i, 31, 24⟩
def GUARD_CMP_CFG_LO (i : Nat) : RField := ⟨0xe0200 + 0x4 * i, 23, 16⟩
def GUARD_CMP_CFG_ROUTE (i : Nat) : RField := ⟨0xe0200 + 0x4 * i, 15, 8⟩
def GUARD_CMP_CFG_DEGLITCH (i : Nat) : RField := ⟨0xe0200 + 0x4 * i, 2, 2⟩
def GUARD_CMP_CFG_POLARITY (i : Nat) : RField := ⟨0xe0200 + 0x4 * i, 1, 1⟩
def GUARD_CMP_CFG_ENABLE (i : Nat) : RField := ⟨0xe0200 + 0x4 * i, 0, 0⟩
def GUARD_CMP_STATE_CMP_OVR : RField := ⟨0xe0220, 15, 8⟩
def GUARD_CMP_STATE_TRIP : RField := ⟨0xe0220, 7, 0⟩
def GUARD_LANE_CMD_GO : RField := ⟨0xe0300, 31, 31⟩
def GUARD_LANE_CMD_LANE : RField := ⟨0xe0300, 11, 8⟩
def GUARD_LANE_CMD_OP : RField := ⟨0xe0300, 2, 0⟩
def GUARD_LANE_RESULT_BUSY : RField := ⟨0xe0304, 31, 31⟩
def GUARD_LANE_RESULT_STATUS : RField := ⟨0xe0304, 15, 0⟩
def GUARD_LANE_ERR_SLOT : RField := ⟨0xe0308, 31, 16⟩
def GUARD_LANE_ERR_REASON : RField := ⟨0xe0308, 7, 4⟩
def GUARD_LANE_ERR_LANE : RField := ⟨0xe0308, 3, 0⟩
def GUARD_APER_SEL_KIND : RField := ⟨0xe0310, 8, 8⟩
def GUARD_APER_SEL_INDEX : RField := ⟨0xe0310, 5, 0⟩
def GUARD_ENGINE_STATE_PBO (i : Nat) : RField := ⟨0xe0400 + 0x4 * i, 31, 31⟩
def GUARD_ENGINE_STATE_RETIRED (i : Nat) : RField := ⟨0xe0400 + 0x4 * i, 30, 30⟩
def GUARD_ENGINE_STATE_FREE (i : Nat) : RField := ⟨0xe0400 + 0x4 * i, 29, 25⟩
def GUARD_ENGINE_STATE_CAL_MISSING (i : Nat) : RField := ⟨0xe0400 + 0x4 * i, 24, 24⟩
def GUARD_ENGINE_STATE_FAILED (i : Nat) : RField := ⟨0xe0400 + 0x4 * i, 23, 16⟩
def GUARD_ENGINE_STATE_TCAL (i : Nat) : RField := ⟨0xe0400 + 0x4 * i, 7, 0⟩
def GUARD_WEAR_COUNT (i : Nat) : RField := ⟨0xe0500 + 0x4 * i, 31, 0⟩
def GUARD_LANE_COUNT_COUNT (i j : Nat) : RField := ⟨0xe0800 + 0x10 * i + 0x4 * j, 31, 0⟩
def CHAIN_CTRL_FORM : RField := ⟨0xf0000, 31, 31⟩
def CHAIN_CTRL_ENABLE : RField := ⟨0xf0000, 30, 30⟩
def CHAIN_CTRL_TOPO : RField := ⟨0xf0000, 29, 28⟩
def CHAIN_CTRL_X : RField := ⟨0xf0000, 23, 16⟩
def CHAIN_CTRL_Y : RField := ⟨0xf0000, 15, 8⟩
def CHAIN_STATUS_FORMED : RField := ⟨0xf0004, 31, 31⟩
def CHAIN_STATUS_FORM_FAIL : RField := ⟨0xf0004, 30, 30⟩
def CHAIN_STATUS_MASTER : RField := ⟨0xf0004, 29, 29⟩
def CHAIN_STATUS_RWIN_TIMEOUT : RField := ⟨0xf0004, 28, 28⟩
def CHAIN_STATUS_DEVICE_ID : RField := ⟨0xf0004, 27, 22⟩
def CHAIN_STATUS_DEVICES : RField := ⟨0xf0004, 21, 15⟩
def CHAIN_STATUS_PORT_UP : RField := ⟨0xf0004, 3, 0⟩
def CHAIN_PORT_STATUS_STATE (i : Nat) : RField := ⟨0xf0010 + 0x10 * i, 31, 29⟩
def CHAIN_PORT_STATUS_LANES (i : Nat) : RField := ⟨0xf0010 + 0x10 * i, 28, 25⟩
def CHAIN_PORT_STATUS_PEER (i : Nat) : RField := ⟨0xf0010 + 0x10 * i, 24, 19⟩
def CHAIN_PORT_STATUS_PEER_PORT (i : Nat) : RField := ⟨0xf0010 + 0x10 * i, 18, 17⟩
def CHAIN_PORT_COUNT_COUNT (i j : Nat) : RField := ⟨0xf0100 + 0x20 * i + 0x4 * j, 31, 0⟩
def CHAIN_RWIN_SEL_DEVICE : RField := ⟨0xf0200, 31, 26⟩
def CHAIN_RWIN_SEL_BASE : RField := ⟨0xf0200, 25, 15⟩
def CHAIN_MIRROR_REMOTE_HANDLE (i : Nat) : RField := ⟨0xf0300 + 0x10 * i + 8, 31, 0⟩
def CHAIN_MIRROR_LOCAL_HANDLE (i : Nat) : RField := ⟨0xf0300 + 0x10 * i + 4, 31, 0⟩
def CHAIN_MIRROR_SCALE_EXP (i : Nat) : RField := ⟨0xf0300 + 0x10 * i, 31, 24⟩
def CHAIN_MIRROR_RANK (i : Nat) : RField := ⟨0xf0300 + 0x10 * i, 23, 16⟩
def CHAIN_MIRROR_FORMAT (i : Nat) : RField := ⟨0xf0300 + 0x10 * i, 15, 14⟩
def CHAIN_MIRROR_PACK (i : Nat) : RField := ⟨0xf0300 + 0x10 * i, 13, 13⟩
def CHAIN_MIRROR_VALID (i : Nat) : RField := ⟨0xf0300 + 0x10 * i, 12, 12⟩
def CHAIN_MIRROR_DEVICE (i : Nat) : RField := ⟨0xf0300 + 0x10 * i, 11, 6⟩
def CHAIN_MIRROR_INST (i : Nat) : RField := ⟨0xf0300 + 0x10 * i, 4, 0⟩
def CHAIN_CGEN_CGEN (i : Nat) : RField := ⟨0xf0804 + 0x4 * i, 15, 0⟩
def CHAIN_SPAN_SPAN (i : Nat) : RField := ⟨0xf0888 + 0x8 * i, 63, 0⟩
def HBM_SCRUB_CTRL_ENABLE : RField := ⟨0x100000, 31, 31⟩
def HBM_SCRUB_CTRL_PERIOD_H : RField := ⟨0x100000, 7, 0⟩
def HBM_SCRUB_STATUS_PASSES : RField := ⟨0x100004, 31, 16⟩
def HBM_SCRUB_STATUS_PAGE : RField := ⟨0x100004, 14, 0⟩
def HBM_CE_COUNT_COUNT : RField := ⟨0x100008, 31, 0⟩
def HBM_UE_COUNT_COUNT : RField := ⟨0x10000c, 31, 0⟩
def HBM_PAGES_RETIRED : RField := ⟨0x100010, 31, 16⟩
def HBM_PAGES_FREE : RField := ⟨0x100010, 15, 0⟩
def HBM_POISON_READS : RField := ⟨0x100014, 31, 16⟩
def HBM_POISON_PENDING : RField := ⟨0x100014, 15, 0⟩
def DIE_CHECK_CTRL_ENABLE (d : Nat) : RField := ⟨dieKey d (0x0), 31, 31⟩
def DIE_CHECK_CTRL_PERIOD (d : Nat) : RField := ⟨dieKey d (0x0), 7, 0⟩
def DIE_HEALTH_SEL_ENGINE (d : Nat) : RField := ⟨dieKey d (0x4), 13, 0⟩
def DIE_DARN_ENTRY_STATE (d i j : Nat) : RField := ⟨dieKey d (0x1000 + 0x40 * i + 0x4 * j), 31, 29⟩
def DIE_DARN_ENTRY_COLUMN (d i j : Nat) : RField := ⟨dieKey d (0x1000 + 0x40 * i + 0x4 * j), 9, 0⟩
def DIE_DECK_HEALTH_SEQ (d i : Nat) : RField := ⟨dieKey d (0x1200 + 0x4 * i), 31, 16⟩
def DIE_DECK_HEALTH_FREE (d i : Nat) : RField := ⟨dieKey d (0x1200 + 0x4 * i), 15, 11⟩
def DIE_DECK_HEALTH_CAL_MISSING (d i : Nat) : RField := ⟨dieKey d (0x1200 + 0x4 * i), 10, 10⟩
def DIE_DECK_HEALTH_SRC_LOST (d i : Nat) : RField := ⟨dieKey d (0x1200 + 0x4 * i), 9, 9⟩
def DIE_DECK_HEALTH_CAL_DUE (d i : Nat) : RField := ⟨dieKey d (0x1200 + 0x4 * i), 8, 8⟩
def DIE_DECK_HEALTH_TCAL (d i : Nat) : RField := ⟨dieKey d (0x1200 + 0x4 * i), 7, 0⟩
def DIE_HEALTH_COUNT_COUNT (d i : Nat) : RField := ⟨dieKey d (0x2000 + 0x4 * i), 31, 0⟩
def DIE_WEAR_COUNT (d i j : Nat) : RField := ⟨dieKey d (0x40000 + 0x20 * i + 0x4 * j), 31, 0⟩
def DIE_DECK_STATE_STATE (d i j : Nat) : RField := ⟨dieKey d (0xa0000 + 0x8 * i + 0x4 * j), 31, 0⟩
def DIE_PROG_STATUS_ACTIVE (d : Nat) : RField := ⟨dieKey d (0xb8000), 6, 0⟩
def DIE_PLEAT_RECAL_COUNT (d i : Nat) : RField := ⟨dieKey d (0xc0000 + 0x10 * i), 31, 0⟩
def DIE_PLEAT_SPLIT_COUNT (d i : Nat) : RField := ⟨dieKey d (0xc0004 + 0x10 * i), 31, 0⟩
def DIE_PLEAT_STATE_MAX_SPREAD (d i : Nat) : RField := ⟨dieKey d (0xc0008 + 0x10 * i), 31, 24⟩
def DIE_PLEAT_STATE_SPLIT_NOW (d i : Nat) : RField := ⟨dieKey d (0xc0008 + 0x10 * i), 23, 16⟩
def DIE_PLEAT_STATE_CAL_FAIL (d i : Nat) : RField := ⟨dieKey d (0xc0008 + 0x10 * i), 15, 0⟩
def DIE_PE_COUNT_COUNT (d i j : Nat) : RField := ⟨dieKey d (0xc1000 + 0x10 * i + 0x4 * j), 31, 0⟩
def DIE_TILE_COUNT_COUNT (d i j : Nat) : RField := ⟨dieKey d (0xc2000 + 0x10 * i + 0x4 * j), 31, 0⟩
def DIE_HEM_STATUS_STATE (d : Nat) : RField := ⟨dieKey d (0xc3000), 31, 30⟩
def DIE_HEM_STATUS_RETURNED (d : Nat) : RField := ⟨dieKey d (0xc3000), 29, 0⟩
def DIE_XING_TRIP_HELD (d : Nat) : RField := ⟨dieKey d (0xc3004), 31, 29⟩
def DIE_XING_TRIP_COUNT (d : Nat) : RField := ⟨dieKey d (0xc3004), 28, 0⟩
def DIE_TEMP_SPREAD_NOW (d : Nat) : RField := ⟨dieKey d (0xc3008), 31, 24⟩
def DIE_TEMP_SPREAD_MAX (d : Nat) : RField := ⟨dieKey d (0xc3008), 23, 16⟩
def DIE_TEMP_SPREAD_HOLDS (d : Nat) : RField := ⟨dieKey d (0xc3008), 15, 0⟩
def DIE_HEM_DROP_COUNT (d : Nat) : RField := ⟨dieKey d (0xc300c), 31, 0⟩
def DIE_ANA_OOR_COUNT (d : Nat) : RField := ⟨dieKey d (0xc4000), 31, 0⟩
def DIE_SRAM_CE_COUNT (d : Nat) : RField := ⟨dieKey d (0xc4004), 31, 0⟩
def DIE_SRAM_POISON_COUNT (d : Nat) : RField := ⟨dieKey d (0xc4008), 31, 0⟩
def DIE_CORE_SEL_CORE (d : Nat) : RField := ⟨dieKey d (0xc4010), 9, 0⟩
def DIE_CORE_COUNT_COUNT (d i : Nat) : RField := ⟨dieKey d (0xc4014 + 0x4 * i), 31, 0⟩
def DIE_PERI_SEL_ENGINE (d : Nat) : RField := ⟨dieKey d (0xd0000), 13, 0⟩
def DIE_PERI_STATUS_WRITE_REFUSED (d : Nat) : RField := ⟨dieKey d (0xd0004), 2, 2⟩
def DIE_PERI_STATUS_RETIRED (d : Nat) : RField := ⟨dieKey d (0xd0004), 1, 1⟩
def DIE_PERI_STATUS_OWNED (d : Nat) : RField := ⟨dieKey d (0xd0004), 0, 0⟩
def DEBUG_CTRL_JTAG_REG : RField := ⟨0x2000000, 31, 30⟩
def DEBUG_CTRL_SCAN_EN : RField := ⟨0x2000000, 29, 29⟩
def DEBUG_SNAP_TAKE : RField := ⟨0x2000004, 31, 31⟩
def DEBUG_SNAP_DONE : RField := ⟨0x2000004, 30, 30⟩
def DEBUG_SNAP_DIE : RField := ⟨0x2000004, 2, 0⟩
def DEBUG_SNAP_TIME_TIME : RField := ⟨0x2000008, 63, 0⟩
def WR_BASE_BASE (f i : Nat) : RField := ⟨fnKey f (0x1000 + 0x20 * i), 63, 12⟩
def WR_CTRL_ENABLE (f i : Nat) : RField := ⟨fnKey f (0x1008 + 0x20 * i), 31, 31⟩
def WR_CTRL_DONE_RING (f i : Nat) : RField := ⟨fnKey f (0x1008 + 0x20 * i), 11, 8⟩
def WR_CTRL_SIZE_LOG2 (f i : Nat) : RField := ⟨fnKey f (0x1008 + 0x20 * i), 4, 0⟩
def WR_HEAD_POSITION (f i : Nat) : RField := ⟨fnKey f (0x100c + 0x20 * i), 16, 0⟩
def WR_TAIL_POSITION (f i : Nat) : RField := ⟨fnKey f (0x1010 + 0x20 * i), 16, 0⟩
def DR_BASE_BASE (f i : Nat) : RField := ⟨fnKey f (0x1200 + 0x20 * i), 63, 12⟩
def DR_CTRL_ENABLE (f i : Nat) : RField := ⟨fnKey f (0x1208 + 0x20 * i), 31, 31⟩
def DR_CTRL_MSIX_EN (f i : Nat) : RField := ⟨fnKey f (0x1208 + 0x20 * i), 30, 30⟩
def DR_CTRL_VECTOR (f i : Nat) : RField := ⟨fnKey f (0x1208 + 0x20 * i), 21, 16⟩
def DR_CTRL_SIZE_LOG2 (f i : Nat) : RField := ⟨fnKey f (0x1208 + 0x20 * i), 4, 0⟩
def DR_TAIL_POSITION (f i : Nat) : RField := ⟨fnKey f (0x120c + 0x20 * i), 16, 0⟩
def DR_HEAD_POSITION (f i : Nat) : RField := ⟨fnKey f (0x1210 + 0x20 * i), 16, 0⟩
def DR_STATUS_HELD (f i : Nat) : RField := ⟨fnKey f (0x1214 + 0x20 * i), 6, 0⟩
def EV_BASE_BASE (f : Nat) : RField := ⟨fnKey f (0x1400), 63, 12⟩
def EV_CTRL_ENABLE (f : Nat) : RField := ⟨fnKey f (0x1408), 31, 31⟩
def EV_CTRL_MSIX_EN (f : Nat) : RField := ⟨fnKey f (0x1408), 30, 30⟩
def EV_CTRL_VECTOR (f : Nat) : RField := ⟨fnKey f (0x1408), 21, 16⟩
def EV_CTRL_SIZE_LOG2 (f : Nat) : RField := ⟨fnKey f (0x1408), 4, 0⟩
def EV_TAIL_POSITION (f : Nat) : RField := ⟨fnKey f (0x140c), 16, 0⟩
def EV_HEAD_POSITION (f : Nat) : RField := ⟨fnKey f (0x1410), 16, 0⟩
def RING_ERR_DB_INVALID (f : Nat) : RField := ⟨fnKey f (0x1480), 31, 16⟩
def RING_ERR_CTRL_REFUSED (f : Nat) : RField := ⟨fnKey f (0x1480), 15, 0⟩
def ALIAS_VALUE_VALUE (f i : Nat) : RField := ⟨fnKey f (0x2010 + 0x40 * i), 63, 0⟩
def ALIAS_TARGET_TIER_TIER (f i : Nat) : RField := ⟨fnKey f (0x2018 + 0x40 * i), 2, 0⟩
def ALIAS_TARGET_UNIT_UNIT (f i : Nat) : RField := ⟨fnKey f (0x201c + 0x40 * i), 31, 0⟩
def ALIAS_TARGET_ADDR_ADDR (f i : Nat) : RField := ⟨fnKey f (0x2020 + 0x40 * i), 63, 0⟩
def ALIAS_STATUS_DROPPED (f i : Nat) : RField := ⟨fnKey f (0x2028 + 0x40 * i), 0, 0⟩
def INST_STATUS_STATE_GENERATION (f : Nat) : RField := ⟨fnKey f (0x3000), 31, 16⟩
def INST_STATUS_STATE_BROAD (f : Nat) : RField := ⟨fnKey f (0x3000), 15, 15⟩
def INST_STATUS_STATE_STATE (f : Nat) : RField := ⟨fnKey f (0x3000), 2, 0⟩
def INST_STATUS_ARRAY_EVALS_COUNT (f : Nat) : RField := ⟨fnKey f (0x3100), 63, 0⟩
def INST_STATUS_CLIP_EVALS_COUNT (f : Nat) : RField := ⟨fnKey f (0x3108), 63, 0⟩
def INST_STATUS_CLIP_CTRL_ALERT_EN (f : Nat) : RField := ⟨fnKey f (0x3110), 31, 31⟩
def INST_STATUS_CLIP_CTRL_LIMIT_PPM (f : Nat) : RField := ⟨fnKey f (0x3110), 19, 0⟩
def INST_STATUS_CLIP_ALERTS_COUNT (f : Nat) : RField := ⟨fnKey f (0x3114), 31, 0⟩
def INST_STATUS_MEM_CTRL_UNINIT_TRAP (f : Nat) : RField := ⟨fnKey f (0x3120), 31, 31⟩
def INST_STATUS_STALL_LIMIT_LIMIT_US (f : Nat) : RField := ⟨fnKey f (0x3124), 31, 0⟩
def INST_STATUS_UNINIT_READ_COUNT (f : Nat) : RField := ⟨fnKey f (0x3128), 31, 0⟩
def INST_STATUS_BUF_ERRORS_TAG_VIOLATION (f : Nat) : RField := ⟨fnKey f (0x312c), 31, 16⟩
def INST_STATUS_BUF_ERRORS_FREE_REJECTED (f : Nat) : RField := ⟨fnKey f (0x312c), 15, 0⟩
def INST_STATUS_PEG_CTRL_COMPAT32 (f : Nat) : RField := ⟨fnKey f (0x3130), 31, 31⟩
def INST_STATUS_PEG_CTRL_WAIT_DELAY (f : Nat) : RField := ⟨fnKey f (0x3130), 30, 30⟩
def INST_STATUS_PEG_CTRL_WD_MS (f : Nat) : RField := ⟨fnKey f (0x3130), 13, 0⟩
def INST_STATUS_PEG_COUNT_WD_FIRES (f : Nat) : RField := ⟨fnKey f (0x3134), 31, 16⟩
def INST_STATUS_PEG_COUNT_TABLE_FULL (f : Nat) : RField := ⟨fnKey f (0x3134), 15, 0⟩
def INST_STATUS_EV_COUNT_OVERFLOW (f : Nat) : RField := ⟨fnKey f (0x3138), 31, 16⟩
def INST_STATUS_EV_COUNT_DISABLED (f : Nat) : RField := ⟨fnKey f (0x3138), 15, 0⟩
def INST_STATUS_STALL_NS_NS (f i : Nat) : RField := ⟨fnKey f (0x3140 + 0x8 * i), 63, 0⟩
def INST_STATUS_HAMPER_LIMIT (f i : Nat) : RField := ⟨fnKey f (0x3200 + 0x8 * i + 4), 31, 0⟩
def INST_STATUS_HAMPER_USED (f i : Nat) : RField := ⟨fnKey f (0x3200 + 0x8 * i), 31, 0⟩
def INST_STATUS_CTX_CTRL_OVERWRITE (f i : Nat) : RField := ⟨fnKey f (0x3400 + 0x20 * i), 31, 31⟩
def INST_STATUS_CTX_CTRL_MSIX_EN (f i : Nat) : RField := ⟨fnKey f (0x3400 + 0x20 * i), 30, 30⟩
def INST_STATUS_CTX_CTRL_VECTOR (f i : Nat) : RField := ⟨fnKey f (0x3400 + 0x20 * i), 29, 27⟩
def INST_STATUS_CTX_CTRL_STRIDE (f i : Nat) : RField := ⟨fnKey f (0x3400 + 0x20 * i), 26, 16⟩
def INST_STATUS_CTX_CTRL_FRAME_TIMEOUT (f i : Nat) : RField := ⟨fnKey f (0x3400 + 0x20 * i), 15, 0⟩
def INST_STATUS_CTX_FRAMES_COUNT (f i : Nat) : RField := ⟨fnKey f (0x3404 + 0x20 * i), 31, 0⟩
def INST_STATUS_CTX_RELEASE_COUNT (f i : Nat) : RField := ⟨fnKey f (0x3408 + 0x20 * i), 31, 0⟩
def INST_STATUS_CTX_ERR_DROPPED (f i : Nat) : RField := ⟨fnKey f (0x340c + 0x20 * i), 31, 16⟩
def INST_STATUS_CTX_ERR_INCOMPLETE (f i : Nat) : RField := ⟨fnKey f (0x340c + 0x20 * i), 15, 8⟩
def INST_STATUS_CTX_ERR_OVERLONG (f i : Nat) : RField := ⟨fnKey f (0x340c + 0x20 * i), 7, 0⟩
def MSIX_ADDR_ADDR (f i : Nat) : RField := ⟨fnKey f (0x8000 + 0x10 * i), 63, 2⟩
def MSIX_DATA_DATA (f i : Nat) : RField := ⟨fnKey f (0x8008 + 0x10 * i), 31, 0⟩
def MSIX_CTRL_MASK (f i : Nat) : RField := ⟨fnKey f (0x800c + 0x10 * i), 0, 0⟩
def MSIX_PBA_PENDING (f : Nat) : RField := ⟨fnKey f (0x8800), 63, 0⟩

end R

end Sys2Proof.Machine
end

