-- ==== Sys2Proof/Machine/State.lean ====
section
/-!
DEFINITION. The state of the block: every register, buffer, counter, memory, mode and pin the spec gives it, the
queue of waiting commands, and the state at the start of a cold reset.

Conventions: tables are sparse (`Tab`), keyed by the numbers of R7 and by the keys of the register map. Times are
device time in ns.
-/

namespace Sys2Proof.Machine

/-! ### Records (R589 to R601) -/

/-- A 32-byte record of R590, by field. CTRL and the bytes are computed from it when it is written. -/
structure Record where
  code   : Nat
  cls    : Nat
  inst   : Nat
  masked : Bool
  device : Nat
  chain  : Bool
  genLo  : Nat
  seq    : Nat
  time   : Nat
  info0  : Nat
  info1  : Nat
  deriving DecidableEq, Repr

/-- One copy of a raised record on its way to an event ring (R592, R595): `ring` is the instance whose event
ring takes it. -/
structure RingJob where
  ring : Nat
  record : Record
  deriving DecidableEq, Repr

/-- The record engine and the always-on part of error handling (R591, R595 to R601, R609). -/
structure Errs where
  /-- Next SEQ (R591). -/
  seq      : Nat
  /-- Copies waiting to be written to event rings, oldest first (R595). -/
  toRings  : List RingJob
  /-- Records raised while the hub is in retention, at most 8: whether the global log takes it, and its event rings (R595). -/
  held     : List (Record × Bool × List (Nat × Bool))
  /-- Records lost by each full event ring since its last marker (R596). -/
  lost     : Tab Nat
  /-- Page of T2 → the distinct uncorrectable blocks found in it since cold reset (R607). -/
  pageUe   : Tab (List Nat)
  /-- Page moves in progress: page moved from, page moved to, buffer index (R607). -/
  moves    : List (Nat × Nat × Nat)
  /-- Pages that wait for retirement because no page was free (R607). -/
  pendRet  : List Nat
  /-- Control processor → time of its last watchdog expiry, plus 1; 0 = none (R609). -/
  wdLast   : Tab Nat
  /-- Control processors that are restarting (R609). -/
  restarting : List Nat
  /-- FW_RESTART count since cold reset, per control processor (R593). -/
  restarts : Tab Nat
  /-- FAULT_n asserted (R599, R600). -/
  faultPin : Bool
  deriving DecidableEq, Repr

/-! ### Instances (R411 to R433) -/

/-- The states of R412. -/
inductive InstState where
  | none | ready | resetting | failed | parked
  deriving DecidableEq, Repr

/-- One instance: its hamper, generation and reset in progress. -/
structure Inst where
  st         : InstState
  /-- Generation, 16 bits (R413). -/
  gen        : Nat
  broad      : Bool
  die        : Nat
  pegPerCore : Nat
  /-- Quotas of R264 in the order of INST.QUOTA: T0, T1, T2 pages, peg units, work rings. -/
  quota      : List Nat
  /-- Flat cores held, ascending (R417). -/
  cores      : List Nat
  /-- The key pair in force (R421, R424); 0 = none. Pairs are numbered as they are drawn. -/
  key        : Nat
  /-- The old pair, kept until a reset completes (R427 step 8); 0 = none. -/
  oldKey     : Nat
  /-- Packets issued and not acknowledged (R427). -/
  inFlight   : Nat
  /-- Device time at the start of the reset in progress (R430). -/
  resetAt    : Nat
  /-- INST_RESET descriptors that complete with the reset in progress (R432). -/
  resetDescs : List Nat
  /-- The reset in progress is the first part of DESTROY (R420). -/
  destroying : Bool
  /-- INST.RESULT answers the reset's end: it was started by INST.CMD (R415). -/
  byCommand  : Bool
  /-- The reset is a function-level reset: its end returns the function's registers to reset (R410). -/
  flr        : Bool
  /-- Its bound has run out, and it completes late if at all (R430). -/
  late       : Bool
  /-- T2 words, by handle and offset, that the PEG_PLANs of steps bound at the reset name (R427 order 8). -/
  rekey      : List (Nat × Nat)
  deriving DecidableEq, Repr

/-- An instance that does not exist. -/
def Inst.init : Inst where
  st := .none
  gen := 0
  broad := false
  die := 0
  pegPerCore := 0
  quota := [0, 0, 0, 0, 0]
  cores := []
  key := 0
  oldKey := 0
  inFlight := 0
  resetAt := 0
  resetDescs := []
  destroying := false
  byCommand := false
  flr := false
  late := false
  rekey := []

/-! ### Buffers and memory tiers (R260 to R279) -/

/-- One entry of the device's buffer table (R266, R267). -/
structure Buf where
  live  : Bool
  gen   : Nat
  owner : Nat
  /-- 0 = T0, 1 = T1, 2 = T2. -/
  tier  : Nat
  /-- Flat core (T0) or flat cluster (T1). -/
  loc   : Nat
  /-- Byte address of the first unit in T0 or T1. -/
  base  : Nat
  /-- Bytes, whole units (R264). -/
  size  : Nat
  /-- Physical pages of a T2 buffer, in offset order (R266, R289). -/
  pages : List Nat
  deriving DecidableEq, Repr

/-- A buffer-table entry never issued. -/
def Buf.init : Buf where
  live := false
  gen := 0
  owner := 31
  tier := 0
  loc := 0
  base := 0
  size := 0
  pages := []

/-- The state of one 64-byte granule of T0 or T1 (R263, R275, R603). -/
structure Granule where
  tag     : Nat
  written : Bool
  poison  : Bool
  /-- An ECC error stands in it: 0 = none, 1 = correctable, 2 = uncorrectable (R602, R603). -/
  err     : Nat
  deriving DecidableEq, Repr

/-- A granule no instance was ever given. -/
def Granule.init : Granule where
  tag := 31
  written := false
  poison := false
  err := 0

/-- T0, T1, T2 and host memory, and the tables over them. Bytes unlisted are 0; whether a granule or a T2 block
holds them as written is in its tag table. -/
structure Mem where
  /-- T0 bytes: flat core × 131,072 + byte address. -/
  t0      : List Host.Cell
  /-- T1 bytes: flat cluster × 4,194,304 + byte address. -/
  t1      : List Host.Cell
  /-- T2 bytes by physical address, as written under the key of their 16-byte block. -/
  t2      : List Host.Cell
  /-- T4, the host's memory, as the device reads and writes it. -/
  host    : List Host.Cell
  /-- T0 granules: T0 byte key / 64. -/
  g0      : Tab Granule
  /-- T1 granules: T1 byte key / 64. -/
  g1      : Tab Granule
  /-- T2 16-byte block → the key pair it was last written under (R277, R424); 0 = never written. -/
  t2Key   : Tab Nat
  /-- T2 64-byte blocks that hold poison (R603). -/
  t2Poison : Tab Bool
  /-- T2 pages retired (R265, R607). -/
  retired : Tab Bool
  /-- T2 64-byte blocks in which an ECC error stands: 1 = correctable, 2 = uncorrectable (R278). -/
  t2Err   : Tab Nat
  /-- Scrubber position within its page, in 64-byte blocks (R279). -/
  scrubBlock : Nat
  /-- Time in ns that the scrubber has run, and that time at which its present pass began (R279). -/
  scrubNs : Nat
  scrubFrom : Nat
  bufs    : Tab Buf
  /-- The next index never yet issued (R267). -/
  nextIdx : Nat
  /-- Freed indices in the order of freeing (R267). -/
  freed   : List Nat
  /-- BUF_ALLOC descriptors whose zeroing has not ended: descriptor, buffer index (R271, R425). -/
  zeroing : List (Nat × Nat)
  /-- BUF_FREE descriptors that wait for a use to end: descriptor, handle (R272). -/
  freeWaits : List (Nat × Nat)
  /-- Next key-pair number of the key unit (R421). -/
  nextKey : Nat
  /-- The hub's own pair (R421, R424). -/
  hubKey  : Nat
  /-- A continuous health test of the key unit's generator has failed (R423). -/
  keyFail : Bool
  deriving DecidableEq, Repr

/-! ### Rings and descriptors (R378 to R410) -/

/-- A descriptor fetched and not completed. -/
structure Desc where
  /-- The model's own number of the descriptor. -/
  uid     : Nat
  /-- Instance whose ring held it. -/
  inst    : Nat
  ring    : Nat
  slot    : Nat
  /-- Instance generation at the fetch (R413). -/
  gen     : Nat
  /-- The 64 bytes as read (R387). -/
  bytes   : List Nat
  started : Bool
  /-- It came in a DESC flit from this chain device; its record goes back there (R579). -/
  fromDev : Option Nat
  /-- Device time of the fetch (R398). -/
  time    : Nat
  deriving DecidableEq, Repr

/-- A completion record that is due (R403). -/
structure CRec where
  uid    : Nat
  inst   : Nat
  ring   : Nat
  slot   : Nat
  gen    : Nat
  descId : Nat
  type   : Nat
  irq    : Bool
  status : Nat
  detail : Nat
  /-- Done ring that takes it: that of its work ring when it became due (WR_CTRL.DONE_RING). -/
  done   : Nat
  /-- Counter bytes 0x0C–0x16 and 0x1A–0x1B, present when COUNTERS is 1: ARRAY_EVALS, CLIP_EVALS, STALL_US,
  STALL_CAUSE, SPLIT_EVALS. -/
  counters : Option (Nat × Nat × Nat × Nat × Nat)
  /-- The chain device that forwarded the descriptor (R579). -/
  fromDev : Option Nat
  /-- HOST writes of its instance that were not acknowledged when it became due, by tag (R29, R406). -/
  after  : List Nat
  deriving DecidableEq, Repr

/-- A copy of the hub DMA engine (R394, R395). -/
structure DmaJob where
  desc   : Nat
  srcSpace : Nat
  dstSpace : Nat
  srcUnit : Nat
  dstUnit : Nat
  srcOff : Nat
  dstOff : Nat
  len    : Nat
  pegAlias : Option Nat
  pegValue : Nat
  /-- Bytes that the engine has copied so far, in pieces of 64 KiB (R395). -/
  moved    : Nat
  deriving DecidableEq, Repr

/-- The ring engine, the PCIe functions and the hub DMA engine. -/
structure Rings where
  /-- Next descriptor number. -/
  nextUid : Nat
  /-- Fetched descriptors not completed, in fetch order. -/
  descs   : List Desc
  /-- Completion records due, in the order in which they became due (R402, R407). -/
  due     : List CRec
  /-- Records held because their done ring was full (R407). -/
  held    : List CRec
  /-- Doorbell page offset key → last value accepted (R385). -/
  bells   : Tab Nat
  /-- Work rings whose ENABLE was written 0 and that still have fetched descriptors: function × 16 + ring. -/
  stopping : List Nat
  /-- MSI-X messages sent: function × 64 + vector → how many (R408). -/
  sent    : Tab Nat
  /-- The last MSI-X message sent: the address and the data of its table entry (R382). -/
  message : Nat × Nat
  /-- Work ring from which the round-robin of fetch reads goes on: instance × 16 + ring (R388). -/
  turn    : Nat
  /-- Copies, in the order in which the engine serves them: the first is next (R395). -/
  dma     : List DmaJob
  /-- NumVFs while VF Enable is set; 0 = clear (R414). -/
  numVfs  : Nat
  /-- The PCIe link is up (R410, R506). -/
  linkUp  : Bool
  /-- The instance of the INST command that runs (R415). -/
  instBusy : Option Nat
  /-- INST, FLASH and LANE_CMD commands that wait for a control processor (R609): register key and value. -/
  fwWaiting : List (Nat × Nat)
  /-- Copies that a reset of their instance stopped with packets behind a held crossing: instance and copy (R427, R430). -/
  stopped : List (Nat × DmaJob)
  /-- Registers of the staged hamper whose last write had a reserved bit set, by key (R416). -/
  stagedRes : List Nat
  deriving DecidableEq, Repr

/-! ### Decks, engines and cores (R40 to R59, R125, R146, R167 to R201) -/

/-- A check source record (R179). -/
structure CheckSource where
  /-- 2 = T2, 4 = T4. -/
  tier    : Nat
  handle  : Nat
  /-- Image start: offset in the T2 buffer, or host bus address. -/
  addr    : Nat
  section_ : Nat
  deriving DecidableEq, Repr

/-- One cell, as it was last programmed (R56, R147). -/
structure Cell where
  /-- Conductance at the verify, in nS. -/
  g0   : Nat
  /-- Drift exponent, in 10^-6. -/
  nu   : Nat
  /-- Effective age of its core at the verify, in 2^-32 ns. -/
  born : Nat
  deriving DecidableEq, Repr

/-- One deck: its cells, its non-volatile metadata (R167) and its calibration state (R192 to R194). -/
structure Deck where
  /-- Cell at row × 544 + physical column; `none` is a cell as shipped, rinsed (R54, R55). -/
  cells    : Tab (Option Cell)
  /-- Weight codebook (R47); empty = none stored. -/
  codebook : List Nat
  /-- Zero codes by column group (R49). -/
  zero     : List Nat
  pair     : Bool
  wear     : Nat
  /-- Owner tag: 0–16, or 31 = none (R168). -/
  owner    : Nat
  pbo      : Bool
  retired  : Bool
  src      : Option CheckSource
  /-- Darn map: STATE and COLUMN of the 16 spares (R189, DIE.DARN_ENTRY). -/
  spares   : List (Nat × Nat)
  /-- Darn map sequence number (R191). -/
  seq      : Nat
  /-- Physical columns failed or pending: 1 = failed (R188), 2 = pending (R189). -/
  badCols  : List (Nat × Nat)
  /-- TCAL, in °C (R192). -/
  tcal     : Int
  /-- Calibrated since its last programming and its last exit from DEEP or OFF (R194). -/
  calOk    : Bool
  calDue   : Bool
  /-- Data columns whose own calibration is due (R193). -/
  colDue   : List Nat
  srcLost  : Bool
  calMissing : Bool
  /-- The vector of the next background visit (R185). -/
  nextVec  : Nat
  /-- Device time of the last background visit. -/
  lastVisit : Nat
  deriving DecidableEq, Repr

/-- A deck as shipped: rinsed, owned by none (R55). The darn map of a part is its own (R62): DESIGN CHOICE, every spare free, SEQ 0, no
column failed and no cell stuck (log entry 9). -/
def Deck.init : Deck where
  cells := []
  codebook := []
  zero := []
  pair := false
  wear := 0
  owner := 31
  pbo := false
  retired := false
  src := none
  spares := List.replicate 16 (0, 0)
  seq := 0
  badCols := []
  tcal := 0
  calOk := false
  calDue := false
  colDue := []
  srcLost := false
  calMissing := false
  nextVec := 0
  lastVisit := 0

/-- What the protected region of the program-store flash holds of a deck (R172, R189, R191, R195). -/
structure DeckMirror where
  wear    : Nat
  spares  : List (Nat × Nat)
  seq     : Nat
  retired : Bool
  deriving DecidableEq, Repr

/-- The mirror of a deck as shipped (log entry 9). -/
def DeckMirror.init : DeckMirror where
  wear := 0
  spares := List.replicate 16 (0, 0)
  seq := 0
  retired := false

/-- A check vector as an evaluation uses it (R175). -/
structure Vec where
  base  : Nat
  count : Nat
  shift : Nat
  posOnly : Bool
  tol   : Nat
  input : List Nat
  expected : List Int
  deriving DecidableEq, Repr

/-- A ring-oscillator reference (R93): the time of its last recalibration, its trim in force, and a trim that waits for an evaluation
to end. -/
structure Rosc where
  at_  : Nat
  trim : Nat
  next : Option Nat
  deriving DecidableEq, Repr

/-- A reference that has not been recalibrated. -/
def Rosc.init : Rosc where
  at_ := 0
  trim := 0
  next := none

/-- The settings and results of one evaluation between its start and its hand-off (R67, R87, R124, R660). -/
structure Eval where
  step      : Nat
  stream    : Nat
  op        : Nat
  deck      : Nat
  rowBase   : Nat
  rowCount  : Nat
  nibble    : Bool
  posOnly   : Bool
  shift     : Nat
  /-- Signed drives of the active rows, latched at setup (R70, R72, R97). -/
  drives    : List Int
  /-- The engine's periphery words in force at the start, as listed in `Array_.peri` (R124). -/
  peri      : Tab Nat
  /-- Physical columns in place of each data column's and each reference column's own at the start (R43, R79). -/
  colMap    : List Nat
  refMap    : List Nat
  /-- The window this evaluation was started in was discarded (R135). -/
  stale     : Bool
  /-- V_ANA of the die lay outside its rated range (R96). -/
  oor       : Bool
  deriving DecidableEq, Repr

/-- A pleat evaluation: its members' evaluations and the mode decided for it (R103, R116). -/
structure PleatEval where
  size   : Nat
  first  : Nat
  split  : Bool
  shift  : Nat
  members : List Eval
  deriving DecidableEq, Repr

/-- One engine (R3, R45, R133, R182). -/
structure Engine where
  /-- The evaluation running, if any (R87). -/
  eval     : Option Eval
  /-- Head of the pleat evaluation it takes part in, plus 1; 0 = none (R102). -/
  pleat    : Nat
  /-- Deck connected by the last evaluation, for R46; none = the next start takes the added time. -/
  lastDeck : Option Nat
  /-- The open pooling window: its deck, and the pre- or post-activation values of its evaluations so far. -/
  poolDeck : Nat
  pool     : List (List (Int × Bool))
  /-- Output blocks queued for a stream consumer, oldest first: step, DEST_KIND, values with their flags (R134, R209, R346). -/
  blocks   : List (Nat × Nat × List (Int × Bool))
  /-- Lent to the management instance (R201). -/
  lent     : Bool
  /-- Device time at which the loan ends; 0 = until RECLAIM. -/
  lendEnd  : Nat
  /-- A full calibration or requested test runs on it (R200, R201). -/
  testing  : Bool
  /-- End of its last check evaluation (R185). -/
  lastCheck : Nat
  /-- Device time at which its present gap began (R182, R187; log entry 23). -/
  gapAt    : Nat
  retired  : Bool
  /-- Lasting converter failures: converter, deck, time (R187 row 1). -/
  convFails : List (Nat × Nat × Nat)
  deriving DecidableEq, Repr

/-- An engine with nothing running. -/
def Engine.init : Engine where
  eval := none
  pleat := 0
  lastDeck := none
  poolDeck := 0
  pool := []
  blocks := []
  lent := false
  lendEnd := 0
  testing := false
  lastCheck := 0
  gapAt := 0
  retired := false
  convFails := []

/-- One check evaluation or calibration in progress or due for retry (R177, R187). -/
structure Check where
  engine  : Nat
  deck    : Nat
  vec     : Nat
  /-- The columns that failed the first time; none = this is the first run. -/
  first   : Option (List Nat)
  /-- Device time from which the retry may run (R187). -/
  notBefore : Nat
  /-- The check evaluation has started. -/
  running : Bool
  /-- The vector that a started check evaluation uses, and whether V_ANA lay outside its range (R96). -/
  data    : Option Vec
  oor     : Bool
  /-- The descriptor target it serves, if any: descriptor, list position. -/
  target  : Option (Nat × Nat)
  deriving DecidableEq, Repr

/-- One target of PROGRAM_DECKS, RINSE, SELF_TEST or CALIBRATE (R161, R166, R198). -/
structure Target where
  section_ : Nat
  engine  : Nat
  deck    : Nat
  guard   : Bool
  /-- Programming: 0 = not started, 1 = checked and waiting for CLAIM, 2 = PASSES, 3 = DARN and CALIBRATE, 5 = ended.
  Tests: 0 = waiting for a gap, 1 = running, 2 = waiting for retries, 5 = ended. -/
  stage   : Nat
  row     : Nat
  /-- Passes run on this row (R149). -/
  pass    : Nat
  /-- Passes run in this burst (R155). -/
  burst   : Nat
  /-- Physical columns of the row not yet verified. -/
  open_   : List Nat
  /-- Unplaced cells: row × 544 + physical column (R149). -/
  unplaced : List Nat
  status  : Nat
  /-- Result bits [31:16] (R163, R198). -/
  res1    : Nat
  /-- Result bits [63:32] (R163, R198). -/
  res2    : Nat
  /-- The section up to its check vectors, as CHECK read it, and its SECTION_CRC. -/
  head    : List Nat
  want    : Nat
  /-- CRC-32C so far of the second read, and the codes it gave for this row (R166). -/
  crc     : Nat
  codes   : List Nat
  deriving DecidableEq, Repr

/-- A PROGRAM_DECKS, RINSE, SELF_TEST or CALIBRATE descriptor with its targets (R160 to R164, R198). -/
structure ProgJob where
  desc     : Nat
  inst     : Nat
  /-- Descriptor type 0x05, 0x06, 0x0B or 0x0C (R391). -/
  kind     : Nat
  flags    : Nat
  imgHandle : Nat
  /-- LIST_HANDLE, when the target list lies in T2; 0 = it lies in host memory (R273). -/
  listHandle : Nat
  imgAddr  : Nat
  resultAddr : Nat
  test     : Nat
  /-- Device time of the deadline (R198, R199). -/
  deadline : Nat
  targets  : List Target
  deriving DecidableEq, Repr

/-- A darn in progress (R189). -/
structure Darn where
  engine : Nat
  deck   : Nat
  spare  : Nat
  col    : Nat
  /-- It serves this target: descriptor, list position. -/
  target : Option (Nat × Nat)
  deriving DecidableEq, Repr

/-- A LEND or RECLAIM that waits for gaps or calibrations (R201). -/
structure LendJob where
  desc   : Nat
  inst   : Nat
  lend   : Bool
  core   : Nat
  mask   : Nat
  ms     : Nat
  deriving DecidableEq, Repr

/-- One declared pleat of a bound step, with its mode (R114 to R121). -/
structure Pleat where
  size   : Nat
  first  : Nat
  split  : Bool
  /-- Spread at the last chain calibration, in 0.25 °C units. -/
  sCal   : Nat
  /-- Sum of the members' sensor readings at the last chain calibration, in 0.25 °C units. -/
  meanCal : Int
  /-- It must be calibrated at its next evaluation (R122). -/
  calAgain : Bool
  deriving DecidableEq, Repr

/-- Everything of the arrays, their checking and their programming. -/
structure Array_ where
  /-- Decks by flat engine × 8 + deck. -/
  decks    : Tab Deck
  /-- Engines by flat engine index (R7). -/
  engines  : Tab Engine
  /-- Periphery words: flat engine × 0x1_0000 + local offset of R146, words of 32 bits. -/
  peri     : Tab Nat
  /-- Activation codebook bytes: flat core × 4,096 + byte (R69). -/
  books    : Tab Nat
  /-- Core → the 512 bytes of its check buffer (R177). -/
  checkBuf : Tab (List Nat)
  /-- Core → bind tag: image tier, handle, start, HEADER_CRC, instance (R328). -/
  bindTag  : Tab (List Nat)
  pleatEvals : List PleatEval
  checks   : List Check
  jobs     : List ProgJob
  /-- Instance of the last programming slot granted in the present round, plus 1; 0 = the round begins (R152). -/
  grant    : Nat
  darns    : List Darn
  lends    : List LendJob
  /-- Aperture writes that wait for the end of an engine's evaluation, oldest first: engine, local offset, value (R145). -/
  aper     : List (Nat × Nat × Nat)
  /-- Core temperature by flat core, in units of 0.25 °C above −64 °C; the sensors of R114. -/
  coreTemp : Tab Nat
  /-- SIGN_DROP, VEC_SAT, evaluations started, blocks discarded, by flat core × 4 + n (DIE.CORE_COUNT). -/
  coreCount : Tab Nat
  /-- Ring-oscillator references, one for each engine (R93; log entry 23). -/
  rosc     : Tab Rosc
  /-- Engine → how many full calibrations have trimmed its converters and its integrator gain ratio (R200). -/
  engTrim  : Tab Nat
  /-- Decks that are to retire when no step is bound to their engine (R197). -/
  toRetire : List (Nat × Nat)
  /-- Effective age that has accrued since the start, in 2^-32 ns; and by core, 6,144 = the guard domain, what it accrued beyond that
  above 85 °C (R57). -/
  aged     : Nat
  agedHot  : Tab Nat
  /-- The flash mirror of the decks, by flat engine × 8 + deck (R172, R189, R191, R195). -/
  mirror   : Tab DeckMirror
  /-- V_PROG lies within its rated range (R151). -/
  vprogOk  : Bool
  /-- Die → time from which its background visits are due: the checker's last start (R185). -/
  visitBase : Tab Nat
  deriving DecidableEq, Repr

/-! ### Steps (R314 to R353) -/

/-- One operation of a stream: its 32 or 64 bytes, and how far it has come. -/
structure Op where
  bytes : List Nat
  /-- 0 = not started, 1 = started (R344), 2 = its effect has begun, 3 = complete (R345). -/
  stage : Nat
  /-- Writes held until the operation ends: space, unit, address, bytes. -/
  result : List (Nat × Nat × Nat × List Nat)
  deriving DecidableEq, Repr

/-- One operation stream (R335). -/
structure Stream where
  cluster : Bool
  unit    : Nat
  ops     : List Op
  /-- Slots fetched, ahead of execution (R349). -/
  fetched : Nat
  deriving DecidableEq, Repr

/-- One prefetch entry and its state: 0 = waiting, 1 = transferring, 2 = done, 3 = ended without completing;
`tile` is the tile it has reached, `reread` that the tile is read again (R254, R282). -/
structure Entry where
  bytes  : List Nat
  st     : Nat
  tile   : Nat
  reread : Bool
  deriving DecidableEq, Repr

/-- An accepted step image and its run. -/
structure Step where
  /-- The RUN_STEP descriptor. -/
  uid      : Nat
  inst     : Nat
  /-- Instance generation at the check (R413). -/
  gen      : Nat
  ring     : Nat
  descId   : Nat
  bound    : Bool
  /-- 32-bit peg mode in force at the bind (R360, R375). -/
  compat   : Bool
  /-- Tier of the image, 2 or 4, and its bind tag: image start, HEADER_CRC, instance (R328). -/
  imgTier  : Nat
  tag      : List Nat
  stepCount : Nat
  /-- BUFFERS: handle, ACCESS (R329). -/
  bufs     : List (Nat × Nat)
  /-- ENGINE_MAP: core, mask (R321). -/
  cores    : List (Nat × Nat)
  /-- DECK_BINDINGS: engine, deck (R322). -/
  decks    : List (Nat × Nat)
  pleats   : List Pleat
  /-- PERIPHERY records: engine, local offset, words (R325). -/
  peri     : List (Nat × Nat × List Nat)
  /-- CODEBOOKS records: core, slot, bytes (R330). -/
  books    : List (Nat × Nat × List Nat)
  /-- PE_PARAMS blocks (R332). -/
  params   : List (List Nat)
  entries  : List Entry
  /-- PEG_PLAN entries of 32 bytes (R331). -/
  plan     : List (List Nat)
  /-- CHECK_SOURCES entries of 24 bytes (R326). -/
  sources  : List (List Nat)
  /-- Output table: host address, length (R393). -/
  outs     : List (Nat × Nat)
  streams  : List Stream
  /-- First failure recorded (R352): status, 0 = none; and its schedule step. -/
  status   : Nat
  failStep : Nat
  evals    : Nat
  clips    : Nat
  splits   : Nat
  /-- Stall ns charged, by cause (R288). -/
  stallNs  : List Nat
  /-- Cluster → start of its present stall, plus 1 (R286, R287). -/
  stall    : Tab Nat
  deriving DecidableEq, Repr

/-- One output block of a Precision Engine operation, or one row of an element-wise function (R236, R237, R662). -/
structure PeBlock where
  /-- Block steps it takes; 0 = a row of an element-wise function. -/
  steps  : Nat
  /-- What it writes when it is finished: space, unit, address, bytes. -/
  writes : List (Nat × Nat × Nat × List Nat)
  /-- NaN outputs, saturations and indices out of range that it counts. -/
  nans   : Nat
  sats   : Nat
  oor    : Nat
  deriving DecidableEq, Repr

/-- A Precision Engine operation in progress on a cluster (R236, R662). -/
structure PeRun where
  step    : Nat
  stream  : Nat
  op      : Nat
  /-- Blocks not yet finished, in order. -/
  blocks  : List PeBlock
  /-- Block steps run of the first of them. -/
  ran     : Nat
  /-- Status with which it stops after them, 0 = none, and the place and value its record names (R594). -/
  fail    : Nat
  hi      : Nat
  info    : Nat
  deriving DecidableEq, Repr

/-! ### Pegs (R354 to R377) -/

/-- A peg's place: tier 0 = T0, 1 = T1, 2 = T2, 3 = host; unit = flat core, flat cluster or handle (R354). -/
structure PegLoc where
  tier : Nat
  unit : Nat
  addr : Nat
  deriving DecidableEq, Repr

/-- A registered wait (R359, R370, R373). -/
structure Wait where
  /-- 0 = T0, 1 = T1, 2 = T2 (handle and offset), 4 and 5 = a stream block (R346). -/
  tier   : Nat
  unit   : Nat
  addr   : Nat
  ge     : Bool
  value  : Nat
  compat : Bool
  /-- Waiter ID of R377. -/
  id     : Nat
  inst   : Nat
  /-- What completes: step, stream, operation; or the descriptor. -/
  step   : Nat
  stream : Nat
  op     : Nat
  desc   : Option Nat
  /-- MSIX field (R369). -/
  msix   : Nat
  /-- Age in ns of RUN and IDLE (R373). -/
  age    : Nat
  /-- Of a T2 peg: its value in the hub peg unit's own store, the same in every wait of the peg (R371). -/
  hub    : Nat
  deriving DecidableEq, Repr

/-- A registration refused by a full table, to be tried again (R370). -/
structure Retry where
  wait : Wait
  /-- Device time of the next try. -/
  at_  : Nat
  deriving DecidableEq, Repr

/-- Crossings of R302 that are no die's: the guard's configuration and register port, and the serdes' digital interface. -/
def guardCrossing : Nat := 32
/-- See `guardCrossing`. -/
def serdesCrossing : Nat := 33

/-- A host write that is held: the domain its target lies in, its function, offset in the page, value and width in bytes; and for an
alias write its target and COMPAT32 as they were when it arrived (R310, R366, R375). -/
structure Posted where
  dom    : Nat
  fn     : Nat
  off    : Nat
  value  : Nat
  width  : Nat
  target : Option PegLoc
  compat : Bool
  deriving DecidableEq, Repr

/-- Pegs, their waits and the aliases. -/
structure Pegs where
  /-- T0 pegs: flat core × 256 + peg (R354). -/
  t0      : Tab Nat
  /-- T0 peg units: flat core × 4 + unit → instance + 1; 0 = unassigned (R355). -/
  owner   : Tab Nat
  waits   : List Wait
  retries : List Retry
  /-- Peg location → last signaller ID and its time (R376, R377). -/
  last    : List (Nat × Nat × Nat × Nat × Nat)
  /-- Host pegs of bound steps: step, host address, shadow (R367). -/
  shadows : List (Nat × Nat × Nat)
  /-- Alias low words held: function × 256 + alias × 2 (+ 1 for SET) → word + 1 (R365). -/
  low     : Tab Nat
  /-- Writes held behind a closed hem or a held crossing, oldest first (R305, R310). -/
  posted  : List Posted
  deriving DecidableEq, Repr

/-! ### The guard plane (R437 to R476) -/

/-- One reflex lane. -/
structure Lane where
  /-- The window W of R437, oldest first. -/
  w        : List Nat
  /-- CODE and VAL of R437, sparse over 0. -/
  code     : Tab Nat
  val      : Tab Int
  /-- Pending verdict (R437): score and user flags of the running frame. -/
  score    : Nat
  user     : Nat
  /-- Flags of the running frame: OVR, STALE, CLIP, SFAULT. -/
  ovr      : Bool
  stale    : Bool
  clip     : Bool
  sfault   : Bool
  /-- Accepted and not yet stopped (R455); a frame of it runs; it stops at the next boundary. -/
  on       : Bool
  started  : Bool
  stopping : Bool
  present  : Bool
  tripped  : Bool
  /-- Configuration loaded or written since the guard domain came up (R455). -/
  loaded   : Bool
  /-- Frames since the last check evaluation, and the next engine × 4 + vector (R471). -/
  checkAge : Nat
  checkNext : Nat
  /-- Failed checks waiting for their repeat: engine, vector, columns, frames still to go (R472). -/
  retry    : List (Nat × Nat × List Nat × Nat)
  /-- A check evaluation has used the slack of the frame that runs; frame slacks that a calibration has used (R441, R473). -/
  slack    : Bool
  calRuns  : Nat
  /-- New TRIM words of the lane's engines, which take effect at the next boundary: engine, local offset, word (R473). -/
  trims    : List (Nat × Nat × Nat)
  deriving DecidableEq, Repr

/-- A lane that was never enabled. -/
def Lane.init : Lane where
  w := List.replicate 512 0
  code := []
  val := []
  score := 0
  user := 0
  ovr := false
  stale := false
  clip := false
  sfault := false
  on := false
  started := false
  stopping := false
  present := false
  tripped := false
  loaded := false
  checkAge := 0
  checkNext := 0
  retry := []
  slack := false
  calRuns := 0
  trims := []

/-- One guard stream (R444 to R449). -/
structure GStream where
  /-- Samples accepted since the last snapshot, oldest first (R447). -/
  queue   : List Int
  lastSeq : Option Nat
  /-- A packet of the current snapshot carried SFAULT (R449). -/
  sfault  : Bool
  /-- Snapshots in a row with no sample (R450). -/
  silent  : Nat
  deriving DecidableEq, Repr

/-- A stream with no packet yet. -/
def GStream.init : GStream where
  queue := []
  lastSeq := none
  sfault := false
  silent := 0

/-- One lane's backup in flash (R468, R474). -/
structure Backup where
  /-- Configuration and periphery valid: the copy passes its CRC. -/
  valid   : Bool
  /-- Lane configuration bytes (R451 layout). -/
  config  : Tab Nat
  /-- Periphery words of the four engines: engine × 4,096 + aperture offset. -/
  peri    : Tab Nat
  /-- Deck sections of the four engines that are valid; bytes of each section. -/
  sections : List (Option (List Nat))
  deriving DecidableEq, Repr

/-- An empty backup. -/
def Backup.init : Backup where
  valid := false
  config := []
  peri := []
  sections := [none, none, none, none]

/-- A window comparator (R461 to R463). -/
structure Comparator where
  /-- AON_CMP_IN in 0.1 mV. -/
  vin     : Nat
  /-- How it reads: 0 = within LO to HI, 1 = below LO, 2 = above HI, 3 = above 1.9 V, clamped. -/
  level   : Nat
  /-- Device time from which that input takes effect, plus 1; 0 = it has taken effect. -/
  at_     : Nat
  trip    : Bool
  deriving DecidableEq, Repr

/-- A comparator at rest. -/
def Comparator.init : Comparator where
  vin := 0
  level := 0
  at_ := 0
  trip := false

/-- The guard plane. Guard engine lane × 4 + e has its deck and periphery in `Array_` at flat engine 98,304 +
lane × 4 + e. -/
structure Guard where
  lanes    : Tab Lane
  /-- Lane configuration bytes: lane × 4,096 + offset (R451, GUARD.APER_SEL). -/
  config   : Tab Nat
  streams  : Tab GStream
  /-- Bits that an FSP receiver has taken and not yet used, oldest first, by port (R446). -/
  rx       : Tab (List Nat)
  /-- Device time in ns before which the guard oscillator reaches no further frame boundary (R440). -/
  frameNext : Nat
  cmps     : Tab Comparator
  /-- Saved global settings of the backup header: GUARD.CTRL, OUT_CFG, LANE_CFG0, LANE_CFG1 and CMP_CFG words by
  key (R468, R474); empty = no valid header. -/
  header   : Tab Nat
  headerOk : Bool
  backups  : Tab Backup
  /-- The guard domain is up (R466). -/
  up       : Bool
  /-- Outputs GUARD_OUT_n[j]: 0 = low, 1 = high, 2 = high-impedance (R458). -/
  out      : List Nat
  /-- GP_D and GP_A as latched; none = high-impedance (R465). -/
  gpD      : Option Nat
  gpA      : Nat
  gpOeLow  : Bool
  /-- LANE_CMD running: OP, lane (R474). -/
  cmd      : Option (Nat × Nat)
  /-- Engine of the lane that a RESTORE_DECKS has claimed and programs (R154, R474). -/
  claimed  : Option Nat
  /-- Guard-domain temperature, °C (R473). -/
  temp     : Int
  /-- Device time of the last oscillator trim (R440). -/
  trimAt   : Nat
  /-- Lanes tripped or not present at the last commit (R464). -/
  tripMask : Nat
  /-- The domain came up after a cold reset or OFF, so that AUTO_LOAD is the backup header's (R468). -/
  cold     : Bool
  /-- A LANE_CMD that the domain's fall cut short and that runs again at the next load: OP, lane (R476). -/
  again    : Option (Nat × Nat)
  /-- Register writes that wait at the guard's held register port, oldest first: key, value (R305). -/
  port     : List (Nat × Nat)
  deriving DecidableEq, Repr

/-! ### Camera streams (R477 to R487) -/

/-- A bound CSI-2 context with the frame it has open. -/
structure Ctx where
  inst     : Nat
  port     : Nat
  vc       : Nat
  dt       : Nat
  slots    : Nat
  handle   : Nat
  slotBytes : Nat
  pegAlias : Option Nat
  /-- Sequence number of the last frame (R482). -/
  seq      : Nat
  /-- A frame is open; closing = Frame End seen, header not yet written (R484). -/
  open_    : Bool
  closing  : Bool
  frameNum : Nat
  status   : Nat
  tsStart  : Nat
  tsEnd    : Nat
  bytes    : Nat
  lines    : Nat
  crcLines : Nat
  eccFixed : Nat
  /-- LINE_STRIDE in force, bytes; 0 = packed (R484). -/
  stride   : Nat
  /-- Offset of the next line in the slot, when packed (R482). -/
  next     : Nat
  /-- Later lines of the frame are discarded (R486). -/
  full     : Bool
  deriving DecidableEq, Repr

/-- The CSI-2 receivers' contexts, by context number. -/
structure Csi where
  ctxs : List (Nat × Ctx)
  deriving DecidableEq, Repr


/-! ### Power states (R488 to R507) -/

/-- The power states of R488, in the order of their PSTATE.REQ codes. -/
inductive PState where
  | run | idle | sleep | deep | off
  deriving DecidableEq, Repr

/-- The PSTATE.STATUS code of a state. -/
def PState.code : PState → Nat
  | .run => 0
  | .idle => 1
  | .sleep => 2
  | .deep => 3
  | .off => 4

/-- A wake event: source, detail, device time (R499, R501). -/
structure Wake where
  source : Nat
  detail : Nat
  time   : Nat
  deriving DecidableEq, Repr

/-- The power-state controller. -/
structure Power where
  st        : PState
  /-- The entry in progress, by its target (R493); none = no entry. -/
  entry     : Option PState
  /-- The entry has committed (R498). -/
  committed : Bool
  /-- Blocks that have answered ACCEPT (R495 codes). -/
  accepted  : List Nat
  /-- The PCIe block has been asked (R492). -/
  askedPcie : Bool
  /-- Block → device time of its request or of its last DELAY (R494). -/
  askedAt   : Tab Nat
  /-- A request that reached the device in IDLE and waits for RUN (R490). -/
  reqHeld   : Option PState
  /-- Block → DELAY answers so far (R494). -/
  delays    : Tab Nat
  /-- Wake event latched during the entry (R501). -/
  latched   : Option Wake
  /-- An event of this state has been recorded in LAST_WAKE (R501). -/
  recorded  : Bool
  /-- Step of R502 awaited: 0 = no exit running. -/
  exit      : Nat
  /-- The awaited step has missed its timeout once (R503). -/
  repeated  : Bool
  /-- A warm reset waits for the end of the exit (R507): its cause, and the dies that pass step 5. -/
  warmAfter : Option (Nat × Nat)
  /-- WAKE_n driven low (R500). -/
  wakePin   : Bool
  /-- PERST_n as sampled: true = asserted. -/
  perst     : Bool
  /-- Device time at which the device last had activity (R491). -/
  idleSince : Nat
  /-- Domains whose hem is closed: die 0–7, 8 = HBM, 9 = serdes (R308). -/
  closed    : List Nat
  /-- Transfers under way when the hems closed, whose packets so far are admitted, by uid, stream and operation (R308). -/
  admitted  : List (Nat × Nat × Nat)
  /-- Crossings held by a skew trip: die × 4 + crossing; 32 = the guard's port, 33 = the serdes interface (R305). -/
  held      : List Nat
  /-- Crossing → time of its last VOLT_SKEW record, plus 1 (R305). -/
  skewLast  : Tab Nat
  deriving DecidableEq, Repr

/-! ### Voltage (R508 to R529) -/

/-- Voltage control. Rails are numbered as VOLT.RAIL numbers them. -/
structure Volt where
  /-- Rail → attempts made of the write under way, 0 = none (R514, R517). -/
  attempt  : Tab Nat
  /-- Rail → V-point of that write. -/
  sent     : Tab Nat
  /-- Rails switched off, by the numbers of PRESS.GAIN (R489, R657). -/
  off      : List Nat
  /-- OTP voltage table, and its copy in flash: V-point → millivolts of every rail (R511, R512). -/
  otp      : Tab Nat
  copy     : Tab Nat
  /-- The table in force, coded as VOLT.STATUS.TABLE_SRC shows it from step 3 of a cold boot (R512). -/
  src      : Nat
  /-- The OTP table and the flash copy pass their checks (R512). -/
  otpOk    : Bool
  copyOk   : Bool
  /-- Bus → device time of its loss or of its last probe (R518). -/
  probeAt  : List Nat
  /-- Words of the legacy entries B0 to B3 in force (R525). -/
  applied  : List Nat
  deriving DecidableEq, Repr

/-! ### Press (R529 to R551) -/

/-- A hint that Press holds (R544). -/
structure Hint where
  start : Nat
  dur   : Nat
  mw    : Nat
  dies  : List Nat
  /-- Its dies are raised and its power is reserved. -/
  on    : Bool
  /-- The largest dynamic estimate of its dies since START, in mW. -/
  most  : Nat
  deriving DecidableEq, Repr

/-- The power controller Press. -/
structure Press where
  hints   : List Hint
  /-- Package estimates of the last second, newest first: mW, and for how many ticks (R537). -/
  hist    : List (Nat × Nat)
  /-- Estimated currents of the 17 rails of PRESS.RAIL_LIMIT in mA at the last ticks, newest first, at most 49 (R536). -/
  rails   : List (List Nat)
  /-- The activity of the last tick (R532): see `State.activity`. -/
  last    : List Nat
  /-- Energy in pJ at nominal voltage of the work counted since the last tick, by rail of the estimate: of gated tokens under the rail's
  number, of what no gate governs under 32 + the rail (R532). -/
  work    : Tab Nat
  /-- Device time of the last tick (R531). -/
  tickAt  : Nat
  /-- VR_ALERT inputs asserted, and the end of each alert's hold, plus 1 (R543). -/
  alert   : List Bool
  holdEnd : List Nat
  /-- Die → time since which its level has stayed below 48, or at 64, plus 1 (R541). -/
  below   : Tab Nat
  full    : Tab Nat
  /-- Die → ticks at level 64, and the slots of them for which its gates had a token waiting, summed in 64ths (R541). -/
  waiting : Tab (Nat × Nat)
  /-- Die → the V-point that R541 wants for it. -/
  wanted  : Tab Nat
  /-- Rail → V-point below its VP_MIN that a rail limit forces at the floor, plus 1 (R546). -/
  forced  : Tab Nat
  /-- Time since which the floor conditions have held, plus 1; and since which the estimate has stayed within the cap
  (R545). -/
  floorIn  : Nat
  floorOut : Nat
  /-- Flat cluster → thermal cap level of R306, as 64 − cap. -/
  capCl   : Tab Nat
  /-- Dies with the spread condition of R306 in force; 8 = between dies. -/
  spread  : List Nat
  /-- Sums over the ticks since the last calibration, by the numbers of PRESS.GAIN: dynamic and leakage mA (R534). -/
  sums    : List (Nat × Nat)
  ticks   : Nat
  /-- Device time of the last calibration (R534). -/
  calAt   : Nat
  /-- Chain device → budget in mW, on the master (R549). -/
  budgets : Tab Nat
  /-- Power reports received since the last shift: device, estimate in mW, wait in ns (R549). -/
  reports : List (Nat × Nat × Nat)
  /-- Device times of the last report and of the last shift (R549). -/
  reportAt : Nat
  shiftAt  : Nat
  /-- Wait of the broad instances' registered waits since the last report, in ns (R549). -/
  waitNs  : Nat
  /-- Fractions of a µJ carried in ENERGY, in nJ (R548). -/
  energyFrac : Nat
  deriving DecidableEq, Repr

/-! ### Program-store flash (R552 to R566) -/

/-- A flash operation in progress. -/
structure FlashOp where
  /-- OP of FLASH.CMD; 15 = a firmware record write that runs, 16 = one that waits for a program to end (R560). -/
  kind : Nat
  addr : Nat
  len  : Nat
  data : List Nat
  /-- Device time in ns at which it began to run, moved on by the time it stood suspended; of a suspended ERASE, the time it has run
  (R560, R562). -/
  start : Nat
  deriving DecidableEq, Repr

/-- The program-store flash. -/
structure Flash where
  /-- Bytes; an unlisted byte reads 0xFF, as erased. -/
  bytes : List Host.Cell
  /-- Times each 16-byte word was programmed since its erase (R553). -/
  words : Tab Nat
  op    : Option FlashOp
  /-- The management instance's suspended ERASE (R557). -/
  susp  : Option FlashOp
  /-- A firmware record write that runs or waits (R560). -/
  fw    : Option FlashOp
  /-- Further records that are due, oldest first: address, bytes (R560). -/
  due   : List (Nat × List Nat)
  /-- A reset met the operation in progress: the registers read their reset values when it ends (R566). -/
  resetAfter : Bool
  /-- Copy in force, A = 0 or B = 1, of the factory record and of the firmware image (R555, R565). -/
  inForce : List Nat
  deriving DecidableEq, Repr

/-! ### Chain ports (R567 to R588) -/

/-- One chain port (R570 to R575). -/
structure Port where
  /-- Next SEQ to send, and the SEQ expected (R568, R572). -/
  txSeq   : Nat
  rxSeq   : Nat
  /-- Sequenced flits sent and not acknowledged, oldest first (R572). -/
  unacked : List Flit
  /-- Flits that wait for the port to be UP, for a credit or for room, oldest first (R570, R572). -/
  queue   : List Flit
  /-- Credits held, by VC × 2 + class (R570). -/
  credits : List Nat
  /-- A flit has been refused and the replay is awaited; its NAK is still to be sent (R572). -/
  nakSent : Bool
  nakDue  : Bool
  /-- Receive buffers freed and not yet returned as credits, by VC × 2 + class (R570). -/
  owed    : List Nat
  /-- The IDLE flit sent last (R569). -/
  idle    : Option Flit
  /-- A replay runs, started by the flit of this SEQ, plus 1; 0 = none (R573). -/
  replay  : Nat
  /-- Times of this port's failed replays within the last 1 ms (R573). -/
  fails   : List Nat
  /-- Time of its last CHAIN_RETRY record, plus 1 (R573). -/
  retryAt : Nat
  /-- The port has been UP since ENABLE (R574). -/
  wasUp   : Bool
  /-- Device time at which ACK last advanced, or a replay or the first unacknowledged flit left (R573). -/
  ackAt   : Nat
  /-- Device time at which the port came to its present state (R574). -/
  since   : Nat
  deriving DecidableEq, Repr

/-- A port that is off. -/
def Port.init : Port where
  txSeq := 0
  rxSeq := 0
  unacked := []
  queue := []
  credits := [0, 0, 0, 0, 0, 0]
  nakSent := false
  nakDue := false
  owed := [0, 0, 0, 0, 0, 0]
  idle := none
  replay := 0
  fails := []
  retryAt := 0
  wasUp := false
  ackAt := 0
  since := 0

/-- A transfer over the chain that waits for its XACKs or its host data (R584, R579). -/
structure Transfer where
  tag    : Nat
  inst   : Nat
  /-- Flits sent and not acknowledged. -/
  left   : Nat
  /-- What it serves: a stream operation (step, stream, operation) or a descriptor. -/
  uid    : Nat
  st     : Nat
  op     : Nat
  isDesc : Bool
  /-- 64-byte blocks acknowledged so far (R405). -/
  acked  : Nat
  /-- Local handle and offset of the write (R594). -/
  handle : Nat
  off    : Nat
  deriving DecidableEq, Repr

/-- A remote-window access that waits for its response (R581). -/
structure RemoteAccess where
  /-- Device time of the access. -/
  start : Nat
  write : Bool
  /-- PF BAR0 offset at the remote device. -/
  off   : Nat
  dev   : Nat
  /-- Access path it came by. -/
  path  : Nat
  deriving DecidableEq, Repr

/-- The chain unit. -/
structure Chain where
  ports   : Tab Port
  /-- Formation started at this time, plus 1; 0 = none runs (R576). -/
  forming : Nat
  /-- IDs of the devices that have reported, this one included. -/
  found   : List Nat
  transfers : List Transfer
  nextTag : Nat
  /-- Remote-window accesses that wait for their responses, oldest first (R581). -/
  rwin    : List RemoteAccess
  /-- What the last remote-window read returned. -/
  rwinData : Nat
  /-- Port by which the enumeration that this device forwarded came, plus 1 (R576). -/
  enumPort : Nat
  /-- Host reads sent to the master: tag, address, length, instance (R579). -/
  hostReads : List (Nat × Nat × Nat × Nat)
  /-- Host writes sent to the master that it has not acknowledged: tag, instance (R362, R579). -/
  hostWrites : List (Nat × Nat)
  /-- HOST flits that wait at the master for its PCIe link (R588). -/
  hostHeld : List Flit
  deriving DecidableEq, Repr

/-! ### Board pins and interfaces (R610, R624 to R657) -/

/-- Pins, JTAG, I3C, SPI and UART. -/
structure Board where
  /-- Strap pins: STRAP_BOOT in [1:0], CHAIN_MASTER [2], LEGACY_PM [3] (R610). -/
  pins     : Nat
  /-- Straps latched. -/
  straps   : Nat
  /-- Boot step reached (R611): 0 = V_AON down, 1 = step 1 done, 3 = a warm reset waits for firmware, 5 = steps 2 to 5
  done, 7 = READY. -/
  boot     : Nat
  /-- The device waits for LOAD_CMD.GO (R613). -/
  hostWait : Bool
  /-- JTAG instruction in force (R624), numbered in the order of its table: 0 = BYPASS to 6 = REGACC. -/
  jtag     : Nat
  /-- REGACC data register: the result of the last access (R626). -/
  regacc   : Nat
  /-- REGACC's own copies of the select registers, by key (R628). -/
  jtagSel  : Tab Nat
  /-- What the selected data register captured: the ID code, the boundary-scan sample, or 0 of BYPASS (R624). -/
  sample   : Nat
  /-- EXTEST modes drive the pins (R625). -/
  extest   : Bool
  /-- Snapshot words of DEBUG.SNAP (R630). -/
  snap     : Tab Word
  /-- GPIO.IN as it reads an input (R649). -/
  gpioIn   : Nat
  /-- Level of the pins themselves; during a park `gpioIn` holds the level at its start (R649). -/
  pad      : Nat
  /-- Parked pins: pin, device time of the park's end. -/
  parks    : List (Nat × Nat)
  /-- TOUTn pulses in progress: alarm, device time of the end. -/
  tout     : List (Nat × Nat)
  /-- Lines waiting on UART_TX: records of 32 bytes. -/
  uart     : List (List Nat)
  /-- Word-file index of each I3C port: management, I3C2 (R654). -/
  i3cIdx   : List Nat
  /-- Dynamic address of each I3C port, 0 = none. -/
  i3cAddr  : List Nat
  /-- Words shifted out by the last I3C read or SPI transaction. -/
  shifted  : List Nat
  /-- The last SPDM or DOE answer: response code and fields (R434). -/
  spdm     : List Nat
  deriving DecidableEq, Repr

/-- Device time (R619): ns, and the fraction carried in 1/64 ns. -/
structure Clock where
  ns   : Nat
  frac : Nat
  deriving DecidableEq, Repr

/-- Accesses kept per access path (R19): function 0–16, 17 = JTAG. -/
structure Holds where
  /-- Path → low word held for a 64-bit write: key and value. -/
  wr : List (Nat × Nat × Nat)
  /-- Path → high word latched by a low-word read: key and value. -/
  rd : List (Nat × Nat × Nat)
  /-- The value the last register read returned. -/
  last : Nat
  deriving DecidableEq, Repr

/-! ### The whole state -/

/-- Why a step can stop the block. -/
inductive Fault where
  /-- A command's operand names a unit that the device does not have (an engine, a port, a rail past the last).
  Raised by the meanings that check their operand's range; safe, since the block goes no further. -/
  | noSuchUnit
  deriving DecidableEq, Repr

/-- Why a command has no meaning. -/
inductive Refusal where
  /-- The command has no meaning in the model yet. Raised by `exec` only; safe. -/
  | notModelled (mnemonic : String)
  deriving DecidableEq, Repr

/-- The state of the G2. -/
structure State where
  /-- Register map words that differ from their reset value (R16, R20). -/
  regs   : Tab Word
  holds  : Holds
  clock  : Clock
  errs   : Errs
  insts  : Tab Inst
  mem    : Mem
  rings  : Rings
  arr    : Array_
  steps  : List Step
  /-- Precision Engine operations in progress, by flat cluster (R236). -/
  pe     : List (Nat × PeRun)
  pegs   : Pegs
  guard  : Guard
  csi    : Csi
  power  : Power
  volt   : Volt
  press  : Press
  flash  : Flash
  chain  : Chain
  board  : Board
  /-- The model's own field: the number of the next free value (log entry 4). -/
  free   : Nat
  /-- Commands waiting, first in first out. -/
  pending : List Instr
  deriving DecidableEq, Repr


/-- The part's OTP voltage table: V-point → millivolts, the typical values of R511 (log entry 9). -/
def otpTypical : Nat → Nat := fun k =>
  [600, 620, 640, 660, 680, 700, 720, 735, 750, 770, 790, 810, 830, 850, 870, 890].getD (k % 16) 0

/-- The always-on part of error handling with nothing raised. -/
def Errs.reset : Errs where
  seq := 0
  toRings := []
  held := []
  lost := []
  pageUe := []
  moves := []
  pendRet := []
  wdLast := []
  restarting := []
  restarts := []
  faultPin := false

/-- Every memory with nothing listed, no buffer, no key pair drawn. -/
def Mem.reset : Mem where
  t0 := []
  t1 := []
  t2 := []
  host := []
  g0 := []
  g1 := []
  t2Key := []
  t2Poison := []
  retired := []
  t2Err := []
  scrubBlock := 0
  scrubNs := 0
  scrubFrom := 0
  bufs := []
  nextIdx := 1
  freed := []
  zeroing := []
  freeWaits := []
  nextKey := 1
  hubKey := 0
  keyFail := false

/-- Rings with nothing fetched. -/
def Rings.reset : Rings where
  nextUid := 1
  descs := []
  due := []
  held := []
  bells := []
  stopping := []
  sent := []
  message := (0, 0)
  turn := 0
  dma := []
  numVfs := 0
  linkUp := false
  instBusy := none
  fwWaiting := []
  stopped := []
  stagedRes := []

/-- The arrays as shipped: every deck rinsed (R55), nothing running. -/
def Array_.reset : Array_ where
  decks := []
  engines := []
  peri := []
  books := []
  checkBuf := []
  bindTag := []
  pleatEvals := []
  checks := []
  jobs := []
  grant := 0
  darns := []
  lends := []
  aper := []
  coreTemp := []
  coreCount := []
  rosc := []
  engTrim := []
  toRetire := []
  aged := 0
  agedHot := []
  mirror := []
  vprogOk := true
  visitBase := []

/-- No peg written, no wait registered. -/
def Pegs.reset : Pegs where
  t0 := []
  owner := []
  waits := []
  retries := []
  last := []
  shadows := []
  low := []
  posted := []

/-- The guard plane at reset: no lane enabled, GUARD_OUT_n and GP_D high-impedance (R469). -/
def Guard.reset : Guard where
  lanes := []
  config := []
  streams := []
  rx := []
  frameNext := 0
  cmps := []
  header := []
  headerOk := false
  backups := []
  up := false
  out := List.replicate 8 2
  gpD := none
  gpA := 0
  gpOeLow := false
  cmd := none
  claimed := none
  temp := 25
  trimAt := 0
  tripMask := 0xFFFF
  cold := true
  again := none
  port := []

/-- RUN with no entry, exit or held crossing. -/
def Power.reset : Power where
  st := .run
  entry := none
  committed := false
  accepted := []
  askedPcie := false
  askedAt := []
  reqHeld := none
  delays := []
  latched := none
  recorded := false
  exit := 0
  repeated := false
  warmAfter := none
  wakePin := false
  perst := false
  idleSince := 0
  closed := []
  admitted := []
  held := []
  skewLast := []

/-- No voltage command under way. -/
def Volt.reset : Volt where
  attempt := []
  sent := []
  off := []
  otp := []
  copy := []
  src := 0
  otpOk := true
  copyOk := true
  probeAt := [0, 0]
  applied := [0, 0, 0, 0]

/-- No hint, alert or budget; both package windows as if the default cap had been drawn throughout (R537). -/
def Press.reset : Press where
  hints := []
  hist := [(120000, 1000000)]
  rails := []
  last := []
  work := []
  tickAt := 0
  alert := [false, false]
  holdEnd := [0, 0]
  below := []
  full := []
  waiting := []
  wanted := []
  forced := []
  floorIn := 0
  floorOut := 0
  capCl := []
  spread := []
  sums := []
  ticks := 0
  calAt := 0
  budgets := []
  reports := []
  reportAt := 0
  shiftAt := 0
  waitNs := 0
  energyFrac := 0

/-- An erased flash (log entry 12). -/
def Flash.reset : Flash where
  bytes := []
  words := []
  op := none
  susp := none
  fw := none
  due := []
  resetAfter := false
  inForce := [0, 0]

/-- Ports off, no chain formed. -/
def Chain.reset : Chain where
  ports := []
  forming := 0
  found := []
  transfers := []
  nextTag := 0
  rwin := []
  rwinData := 0
  enumPort := 0
  hostReads := []
  hostWrites := []
  hostHeld := []

/-- Pins and serial interfaces at the start of a cold boot, every strap low (log entry 12). -/
def Board.reset : Board where
  pins := 0
  straps := 0
  boot := 1
  hostWait := false
  jtag := 0
  regacc := 0
  jtagSel := []
  sample := 0
  extest := false
  snap := []
  gpioIn := 0
  pad := 0
  parks := []
  tout := []
  uart := []
  i3cIdx := [0, 0]
  i3cAddr := [0, 0]
  shifted := []
  spdm := []

/-- The machine at the start of a cold reset, step 1 of R611 done: every register at the reset value of its table,
device time 0, every table empty, READY clear. -/
def State.reset : State where
  regs := []
  holds := ⟨[], [], 0⟩
  clock := ⟨0, 0⟩
  errs := Errs.reset
  insts := []
  mem := Mem.reset
  rings := Rings.reset
  arr := Array_.reset
  steps := []
  pe := []
  pegs := Pegs.reset
  guard := Guard.reset
  csi := ⟨[]⟩
  power := Power.reset
  volt := Volt.reset
  press := Press.reset
  flash := Flash.reset
  chain := Chain.reset
  board := Board.reset
  free := 0
  pending := []

end Sys2Proof.Machine
end

