-- ==== Sys2Proof/Machine/Ops.lean ====
section
/-!
DEFINITION. The named operations over the state that every meaning uses: registers and their fields, free values,
the memory tiers, records, MSI-X messages, pins and wake events.
-/

namespace Sys2Proof.Machine

/-! ### Outcomes -/

/-- The outcome of a command that the rules let happen. -/
def done (s : State) : Host.Outcome State Fault Refusal := .next s

/-- The outcome of a command whose operand must name a unit of the device. -/
def unit (ok : Bool) (s : State) : Host.Outcome State Fault Refusal :=
  if ok then .next s else .fault .noSuchUnit

/-- An effect that comes about only when its condition holds; otherwise the event does not occur (log entry 3). -/
def State.when (s : State) (c : Bool) (f : State → State) : State := if c then f s else s

/-! ### Registers (R14 to R20) -/

/-- A register word (R19). -/
def State.word (s : State) (k : Nat) : Nat := (Tab.get regReset s.regs k).toNat

/-- Set a register word. -/
def State.setWord (s : State) (k v : Nat) : State :=
  { s with regs := Tab.put regReset s.regs k (BitVec.ofNat 32 v) }

/-- A register of two words, low word first (R19). -/
def State.word64 (s : State) (k : Nat) : Nat := s.word k + s.word (k + 4) * 2 ^ 32

/-- Set a register of two words. -/
def State.setWord64 (s : State) (k v : Nat) : State := (s.setWord k v).setWord (k + 4) (v / 2 ^ 32)

/-- A field of a register (R14, R16). -/
def State.rd (s : State) (f : RField) : Nat :=
  if f.msb < 32 then fld (s.word f.key) f.msb f.lsb else fld (s.word64 f.key) f.msb f.lsb

/-- Set a field of a register. -/
def State.wr (s : State) (f : RField) (v : Nat) : State :=
  if f.msb < 32 then s.setWord f.key (setFld (s.word f.key) f.msb f.lsb v)
  else s.setWord64 f.key (setFld (s.word64 f.key) f.msb f.lsb v)

/-- Is a one-bit field set. -/
def State.flag (s : State) (f : RField) : Bool := s.rd f != 0

/-- Set or clear a one-bit field. -/
def State.setFlag (s : State) (f : RField) (b : Bool) : State := s.wr f (b2n b)

/-- Add to a counter, which saturates at its largest value (R623). -/
def State.bump (s : State) (f : RField) (n : Nat) : State := s.wr f (satAdd (f.msb + 1 - f.lsb) (s.rd f) n)

/-- Add to a counter that wraps (R623). -/
def State.bumpWrap (s : State) (f : RField) (n : Nat) : State := s.wr f (s.rd f + n)

/-- The registers of a range of keys return to their reset values. -/
def State.resetRegs (s : State) (p : Nat → Bool) : State := { s with regs := Tab.clearKeys p s.regs }

/-! ### Free values and time -/

/-- The next free value. -/
def State.drawn (s : State) : Nat := Config.freeNat s.free

/-- Past `n` free values. -/
def State.skip (s : State) (n : Nat) : State := { s with free := s.free + n }

/-- Device time (R619). -/
def State.now (s : State) : Nat := s.clock.ns

/-! ### Tables of the parts -/

/-- The table of instances: instance 0 exists from cold reset (R411). -/
def instDflt (i : Nat) : Inst := if i = 0 then { Inst.init with st := .ready } else Inst.init

/-- Instance `i`. -/
def State.inst (s : State) (i : Nat) : Inst := Tab.get instDflt s.insts i

/-- Replace instance `i`. -/
def State.setInst (s : State) (i : Nat) (v : Inst) : State :=
  { s with insts := Tab.put instDflt s.insts i v }

/-- Change instance `i`. -/
def State.modInst (s : State) (i : Nat) (f : Inst → Inst) : State := s.setInst i (f (s.inst i))

/-- Deck `k` of engine `e`. -/
def State.deck (s : State) (e k : Nat) : Deck := Tab.get (fun _ => Deck.init) s.arr.decks (deckKey e k)

/-- Replace a deck. -/
def State.setDeck (s : State) (e k : Nat) (v : Deck) : State :=
  { s with arr := { s.arr with decks := Tab.put (fun _ => Deck.init) s.arr.decks (deckKey e k) v } }

/-- Change a deck. -/
def State.modDeck (s : State) (e k : Nat) (f : Deck → Deck) : State := s.setDeck e k (f (s.deck e k))

/-- Engine `e`. -/
def State.engine (s : State) (e : Nat) : Engine := Tab.get (fun _ => Engine.init) s.arr.engines e

/-- Replace an engine. -/
def State.setEngine (s : State) (e : Nat) (v : Engine) : State :=
  { s with arr := { s.arr with engines := Tab.put (fun _ => Engine.init) s.arr.engines e v } }

/-- Change an engine. -/
def State.modEngine (s : State) (e : Nat) (f : Engine → Engine) : State := s.setEngine e (f (s.engine e))

/-- Buffer-table entry `i` (R267). -/
def State.buf (s : State) (i : Nat) : Buf := Tab.get (fun _ => Buf.init) s.mem.bufs i

/-- Replace a buffer-table entry. -/
def State.setBuf (s : State) (i : Nat) (v : Buf) : State :=
  { s with mem := { s.mem with bufs := Tab.put (fun _ => Buf.init) s.mem.bufs i v } }

/-- Lane `l` of the guard plane. -/
def State.lane (s : State) (l : Nat) : Lane := Tab.get (fun _ => Lane.init) s.guard.lanes l

/-- Replace a lane. -/
def State.setLane (s : State) (l : Nat) (v : Lane) : State :=
  { s with guard := { s.guard with lanes := Tab.put (fun _ => Lane.init) s.guard.lanes l v } }

/-- Change a lane. -/
def State.modLane (s : State) (l : Nat) (f : Lane → Lane) : State := s.setLane l (f (s.lane l))

/-- Chain port `p`. -/
def State.port (s : State) (p : Nat) : Port := Tab.get (fun _ => Port.init) s.chain.ports p

/-- Replace a chain port. -/
def State.setPort (s : State) (p : Nat) (v : Port) : State :=
  { s with chain := { s.chain with ports := Tab.put (fun _ => Port.init) s.chain.ports p v } }

/-! ### What the device is able to do -/

/-- The device is halted under R600, by a FATAL record or by an EXTEST instruction (R625). -/
def State.halted (s : State) : Bool := s.flag R.ERRLOG_STATUS_FATAL || s.board.extest

/-- READY of R611. -/
def State.ready (s : State) : Bool := s.flag R.BOOT_STATUS_READY

/-- The hub is at retention or down, so it writes no record and no register (R489, R595). -/
def State.hubAsleep (s : State) : Bool :=
  match s.power.st with
  | .deep => true
  | .off => true
  | _ => false

/-- The hub serves accesses: booted, not halted, V_HUB up (R489, R600, R611). -/
def State.hubUp (s : State) : Bool := s.ready && !s.halted && !s.hubAsleep

/-- The device is in RUN with nothing halted: dispatch, fabric and DMA move (R489). -/
def State.running (s : State) : Bool := s.hubUp && s.power.st = .run

/-- A block of R495 may start new work: it has not answered ACCEPT to an entry in progress (R493). -/
def State.mayStart (s : State) (block : Nat) : Bool := s.running && !s.power.accepted.contains block

/-- Control processor work (INST, FLASH, LANE_CMD, fetch) waits while one restarts (R609). -/
def State.fwUp (s : State) : Bool := s.errs.restarting.isEmpty

/-! ### Energy counted for Press (R532) -/

/-- Add energy in pJ to what Press has counted since its last tick. -/
def State.spend (s : State) (k pj : Nat) : State :=
  { s with press := { s.press with work := Tab.put (fun _ => 0) s.press.work k (Tab.get (fun _ => 0) s.press.work k + pj) } }

/-- Energy of rail `i` that no gate governs. -/
def State.spendFree (s : State) (i pj : Nat) : State := s.spend (32 + i) pj

/-- Accesses of T2, each of 64 bytes: V_HUB and the HBM rails (R532); the latter under V_HBM_CORE (log entry 10). -/
def State.spendT2 (s : State) (n : Nat) : State := (s.spendFree 16 (200 * n)).spendFree 20 (350 * n)

/-! ### MSI-X (R382, R408) -/

/-- Vectors of a function (R382). -/
def vectorCount (f : Nat) : Nat := if f = 0 then 64 else 8

/-- Send vector `v` of function `f`; under masking the pending bit is set instead (R408). -/
def State.msix (s : State) (f v : Nat) : State :=
  if v < vectorCount f then
    if s.flag (R.MSIX_CTRL_MASK f v) then s.wr ⟨fnKey f 0x8800, 63, 0⟩ (s.rd ⟨fnKey f 0x8800, 63, 0⟩ ||| 2 ^ v)
    else
      { s with rings := { s.rings with
          sent := Tab.put (fun _ => 0) s.rings.sent (f * 64 + v) (Tab.get (fun _ => 0) s.rings.sent (f * 64 + v) + 1)
          message := (s.rd (R.MSIX_ADDR_ADDR f v) * 4, s.rd (R.MSIX_DATA_DATA f v)) } }
  else s

/-- Send a vector when its enable is set. -/
def State.irq (s : State) (en : Bool) (v : Nat) : State := if en then s.msix 0 v else s

/-! ### Records (R589 to R600) -/

/-- The 32 bytes of a record (R590). -/
def Record.bytes (r : Record) (phase : Bool) : List Nat :=
  leBytes 2 r.code ++ [r.cls % 8 + 8 * b2n phase + 16 * b2n r.masked + 32 * b2n r.chain, r.inst, r.device, r.genLo]
    ++ leBytes 2 r.seq ++ leBytes 8 r.time ++ leBytes 8 r.info0 ++ leBytes 8 r.info1

/-- The copy of a record for an event ring that may not see its owner (R592). -/
def Record.mask (r : Record) : Record := { r with inst := noOwner, genLo := 0, info0 := 0, info1 := 0, masked := true }

/-- Words of a byte list. -/
def wordsOf (bs : List Nat) : List Nat := (List.range ((bs.length + 3) / 4)).map fun i => u32At bs (4 * i)

/-- Write a list of words from key `k` upward. -/
def State.setWords (s : State) (k : Nat) : List Nat → State
  | [] => s
  | w :: t => (s.setWord k w).setWords (k + 4) t

/-- Count of a queue of 2 × `size` positions (R384). -/
def posCount (writer reader size : Nat) : Nat := (writer + 2 * size - reader % (2 * size)) % (2 * size)

/-- Queue a line on UART_TX (R653). -/
def State.uartLine (s : State) (bs : List Nat) : State :=
  if s.board.uart.length < 16 ∧ s.hubAsleep = false ∧ s.flag ⟨0x30010, 0, 0⟩ then
    { s with board := { s.board with uart := s.board.uart ++ [bs] } }
  else s

/-- A record enters the global log, or is dropped when the log is full (R597). -/
def State.logRecord (s : State) (r : Record) : State :=
  if s.flag R.ERRLOG_STATUS_FROZEN then s else
  let t := s.rd R.ERRLOG_TAIL_POSITION
  if posCount t (s.rd R.ERRLOG_HEAD_POSITION) 64 < 64 then
    let s1 := (s.setWords (0xB1000 + 0x20 * (t % 64)) (wordsOf (r.bytes false))).wr R.ERRLOG_TAIL_POSITION (t + 1)
    let s2 := s1.uartLine (r.bytes false)
    s2.irq (s.flag R.ERRLOG_CTRL_IRQ_EN && decide (3 ≤ r.cls)) (s.rd R.ERRLOG_CTRL_VECTOR)
  else s.bump R.ERRLOG_STATUS_OVERFLOW 1

/-- May a record be written to instance `i`'s event ring (R592). -/
def State.takesRecords (s : State) (i : Nat) : Bool :=
  decide (i ≤ 16) && !((s.inst i).st = .none || (s.inst i).st = .failed)

/-- The event rings that take a record: instance and whether its copy is masked (R592). -/
def State.recordDests (s : State) (r : Record) : List (Nat × Bool) :=
  if r.code = St.bufNotOwner then []
  else if r.cls = fatalClass then []
  else if r.cls = deviceClass then
    let own := if r.inst ≤ 16 ∧ r.inst ≠ 0 ∧ s.takesRecords r.inst then [(r.inst, false)] else []
    own ++ ((upTo 17 fun i => decide (i ≠ 0 ∧ i ≠ r.inst) && (s.inst i).st = .ready).map fun i => (i, true)) ++ [(0, false)]
  else if r.inst = noOwner then [(0, false)]
  else if s.takesRecords r.inst then [(r.inst, false)] else []

/-- Records bound for event rings are handed to the record engine (R595). -/
def State.queueRecord (s : State) (r : Record) (dests : List (Nat × Bool)) : State :=
  let jobs : List RingJob := dests.map fun d => ⟨d.1, if d.2 then r.mask else r⟩
  { s with errs := { s.errs with toRings := s.errs.toRings ++ jobs } }

/-- What every FATAL record does besides being written (R600, R601): FAULT_n, the first record kept, the log
frozen, the device halted. -/
def State.halt (s : State) (r : Record) : State :=
  let s1 := { s with errs := { s.errs with faultPin := true } }
  let s2 := if s.flag R.ERRLOG_FATAL_VALID_VALID then s1
    else (s1.setWords 0xB0100 (wordsOf (r.bytes false))).setFlag R.ERRLOG_FATAL_VALID_VALID true
  (s2.setFlag R.ERRLOG_STATUS_FATAL true).setFlag R.ERRLOG_STATUS_FROZEN true

/-- The device ID of this device when it is part of a chain (R590). -/
def State.chainId (s : State) : Option Nat :=
  if s.flag R.CHAIN_STATUS_FORMED then some (s.rd R.CHAIN_STATUS_DEVICE_ID) else none

/-- The next record of the device (R590, R591), before it is delivered. -/
def State.newRecord (s : State) (code cls owner info0 info1 : Nat) : Record where
  code := code
  cls := cls
  inst := owner
  masked := false
  device := s.chainId.getD 0
  chain := s.chainId.isSome
  genLo := if owner = noOwner then 0 else (s.inst owner).gen % 256
  seq := s.errs.seq
  time := s.now
  info0 := info0
  info1 := info1

/-- The count of a record raised: SEQ and CLASS_COUNT (R591). -/
def State.countRecord (s : State) (cls : Nat) : State :=
  ({ s with errs := { s.errs with seq := (s.errs.seq + 1) % 65536 } } : State).bump (R.ERRLOG_CLASS_COUNT_COUNT cls) 1

/-- A record of class 0 to 3 is raised for chosen destinations (R591, R592, R595): the global log when `log`, and event
rings. While the hub is in retention it is held, at most 8 of them. After a FATAL record it is only counted. -/
def State.raiseTo (s : State) (code cls owner info0 info1 : Nat) (log : Bool) (dests : List (Nat × Bool)) : State :=
  let r := s.newRecord code cls owner info0 info1
  let s1 := s.countRecord cls
  if s.halted then s1
  else if s.hubAsleep then
    if s.errs.held.length < 8 then { s1 with errs := { s1.errs with held := s1.errs.held ++ [(r, log, dests)] } }
    else s1.bump R.ERRLOG_STATUS_OVERFLOW 1
  else (if log then s1.logRecord r else s1).queueRecord r dests

/-- Destination that stands for the global log of a chain master elsewhere (R579). -/
def masterLog : Nat := 17

/-- A FATAL record of a chain device that is not the master also goes there (R579, R601). -/
def State.tellMaster (s : State) (r : Record) : State :=
  if s.chainId.isSome && !s.flag R.CHAIN_STATUS_MASTER then s.queueRecord r [(masterLog, false)] else s

/-- Raise a record for the destinations of R592 (R591, R595, R597, R600). -/
def State.raise (s : State) (code cls owner info0 info1 : Nat) : State :=
  if cls = fatalClass then
    let r := s.newRecord code cls owner info0 info1
    let s1 := s.countRecord cls
    if s.halted then s1 else ((if s.hubAsleep then s1 else s1.logRecord r).halt r).tellMaster r
  else s.raiseTo code cls owner info0 info1 true (s.recordDests (s.newRecord code cls owner info0 info1))

/-- Raise a CORRECTED record that its own rule sends to the owner's event ring and nowhere else (R121, R180, R189, R215,
R254; R592). -/
def State.raiseOwner (s : State) (code owner info0 info1 : Nat) : State :=
  s.raiseTo code corrected owner info0 info1 false (if s.takesRecords owner then [(owner, false)] else [])

/-! ### Wake events (R499 to R501) -/

/-- Source `src` acts in this state (R499). -/
def wakeActs (src : Nat) (st : PState) (guardUp : Bool) : Bool :=
  match st with
  | .run => false
  | .idle => src != 2
  | .sleep => src != 2
  | .deep => src = 1 || src = 2 || src = 5 || src = 6 || (src = 7 && guardUp) || src = 8
  | .off => src = 1 || src = 2

/-- Its WAKE_EN bit is 1; sources 1 to 3 always are (R499). -/
def State.wakeEnabled (s : State) (src : Nat) : Bool := decide (src ≤ 3) || bit (s.word 0x40018) src

/-- LAST_WAKE of a wake event (R501). -/
def State.recordWake (s : State) (w : Wake) (from_ : PState) (replayed : Bool) : State :=
  (s.setWord 0x40020 (b2n replayed * 2 ^ 31 + from_.code * 2 ^ 28 + w.source * 2 ^ 24 + w.detail % 256 * 2 ^ 16)).setWord64
    0x40028 w.time

/-- V_AON is up. -/
def State.aon (s : State) : Bool := s.board.boot != 0

/-- Legacy bias mode (R521). -/
def State.legacy (s : State) : Bool := bit s.board.straps 3

/-- The first event of a lower state starts the exit; WAKE_n follows R500. IDLE passes steps 1 to 3 at once (R502), and in
legacy mode step 1 is met at once (R505). -/
def State.startExit (s : State) (src : Nat) : State :=
  if s.power.exit ≠ 0 then s else
  let wake := (s.power.st = .deep || s.power.st = .off) && src != 2 && s.flag R.PSTATE_CTRL_HOST_WAKE
  { s with power := { s.power with
      exit := (if s.power.st = .idle then 4 else if s.legacy then 2 else 1), repeated := false, wakePin := s.power.wakePin || wake } }

/-- A wake event (R499 to R501). -/
def State.wake (s : State) (src detail : Nat) : State :=
  if s.halted || !s.aon || !s.wakeEnabled src then s else
  match s.power.entry with
  | some t =>
    if wakeActs src t s.guard.up then
      let s1 := s.bump (R.PSTATE_WAKE_COUNT_COUNT (src - 1)) 1
      if s.power.latched.isNone then
        { s1 with power := { s1.power with latched := some ⟨src, detail, s.now⟩ } }
      else s1
    else s
  | none =>
    if wakeActs src s.power.st s.guard.up then
      let s1 := s.bump (R.PSTATE_WAKE_COUNT_COUNT (src - 1)) 1
      if s.power.recorded then s1
      else
        let s2 := s1.recordWake ⟨src, detail, s.now⟩ s.power.st false
        ({ s2 with power := { s2.power with recorded := true } } : State).startExit src
    else s

/-- A PCIe request to a function: wake source 3, and the end of an idle time (R491, R499). -/
def State.pcieTouch (s : State) (f : Nat) : State := s.wake 3 f

/-- The low word that a path holds is discarded (R19). -/
def State.dropHeld (s : State) (path : Nat) : State :=
  { s with holds := { s.holds with wr := s.holds.wr.filter fun h => h.1 != path } }

/-- A register write that reaches the device as a command of its own, by function `f`: it discards the low word that path holds
(R19), has its effect, and is a wake event (R499). -/
def State.cmdWrite (s : State) (f : Nat) (g : State → State) : State := (g (s.dropHeld f)).pcieTouch f

/-- The device has work: the idle time of R491 starts again. -/
def State.busyNow (s : State) : State := { s with power := { s.power with idleSince := s.now } }

end Sys2Proof.Machine
end

