-- ==== Sys2Proof/Machine/ChainOps.lean ====
section
/-!
DEFINITION. Chain flits on their way: routes, datelines, credits, sequence numbers and the queues of a port (R568 to
R577, R587).
-/

namespace Sys2Proof.Machine

/-- PORT_STATUS.STATE codes. -/
def portUp : Nat := 5

/-- Port `p` is UP. -/
def State.portIsUp (s : State) (p : Nat) : Bool := s.rd (R.CHAIN_PORT_STATUS_STATE p) = portUp

/-- A port takes a state; PORT_UP follows (R574). -/
def State.setPortState (s : State) (p st : Nat) : State :=
  ((s.setPort p { s.port p with since := s.now }).wr (R.CHAIN_PORT_STATUS_STATE p) st).wr ⟨R.CHAIN_STATUS_PORT_UP.key, p, p⟩
    (b2n (st == portUp))

/-- This device is the chain master (R579). -/
def State.isMaster (s : State) : Bool := s.flag R.CHAIN_STATUS_MASTER

/-- Is a device in the formed chain (R390, R580). -/
def State.inChain (s : State) (d : Nat) : Bool := s.flag R.CHAIN_STATUS_FORMED && s.chain.found.contains d

/-- The port of one dimension toward a distance `dist` of `size`, the + direction on a tie (R577): `plus` and `plus`
+ 1 are the ports of the two directions. A down port sends the flit the other way round on a torus (R587). -/
def State.dimPort (s : State) (torus : Bool) (dist size plus : Nat) : Option Nat :=
  let first := if 2 * dist ≤ size then plus else plus + 1
  let other := if first = plus then plus + 1 else plus
  if s.portIsUp first then some first
  else if torus && s.portIsUp other then some other
  else none

/-- The port a flit for device `dst` leaves by (R577, R587); none = it cannot be delivered. -/
def State.route (s : State) (dst : Nat) : Option Nat :=
  let me := s.rd R.CHAIN_STATUS_DEVICE_ID
  let x := s.rd R.CHAIN_CTRL_X
  let y := s.rd R.CHAIN_CTRL_Y
  if s.rd R.CHAIN_CTRL_TOPO = 1 then s.dimPort false ((dst + x - me % x) % x) x 0
  else if s.rd R.CHAIN_CTRL_TOPO = 2 then
    let dx := (dst % x + x - me % x) % x
    if dx ≠ 0 then s.dimPort true dx x 0 else s.dimPort true ((dst / x + y - me / x) % y) y 2
  else none

/-- A flit that leaves this device by port `p` crosses the dateline of its dimension (R577). -/
def State.crosses (s : State) (p : Nat) : Bool :=
  let me := s.rd R.CHAIN_STATUS_DEVICE_ID
  let x := s.rd R.CHAIN_CTRL_X
  let y := s.rd R.CHAIN_CTRL_Y
  let c := if s.rd R.CHAIN_CTRL_TOPO = 1 then me else if p ≤ 1 then me % x else me / x
  let size := if p ≤ 1 then x else y
  if p % 2 = 0 then c + 1 = size else c = 0

/-- CLASS of a flit that arrived by `arr` (none at its origin) and leaves by port `p` (R577). -/
def State.nextClass (s : State) (cls : Nat) (arr : Option Nat) (p : Nat) : Nat :=
  let start := match arr with
    | none => 0
    | some a => if a ≤ 1 ∧ 2 ≤ p then 0 else cls
  if s.crosses p then 1 else start

/-- Unsequenced flits (R568). -/
def unsequenced : Payload → Bool
  | .idle => true
  | .train => true
  | _ => false

/-- VC of a payload (R569); a REG response travels as a response. -/
def payloadVc : Payload → Nat
  | .idle => 2
  | .data .. => 0
  | .peg .. => 0
  | .desc .. => 0
  | .record .. => 1
  | .host .. => 0
  | .hostRsp .. => 1
  | .reg r .. => b2n r
  | .ctrl _ => 2
  | .train => 2
  | .xack .. => 1
  | .reserved _ => 0

/-- The link word that a flit leaves with: ACK, the NAK that is due, and credits for freed buffers of one VC and class (R570, R571). -/
def Port.stamp (p : Port) (f : Flit) : Flit :=
  let c := (p.owed.findIdx? fun n => n != 0).getD 0
  { f with ack := (p.rxSeq + 4095) % 4096, nak := p.nakDue, creditVc := c / 2, creditCls := c % 2, credits := min 63 (p.owed.getD c 0) }

/-- What that flit's link word carried is no longer due. -/
def Port.stamped (p : Port) (f : Flit) : Port :=
  let c := f.creditVc * 2 + f.creditCls
  { p with nakDue := false, owed := p.owed.set c (p.owed.getD c 0 - f.credits) }

/-- A sequenced flit is accepted, and its buffer freed (R570, R572). -/
def Port.accept (p : Port) (f : Flit) : Port :=
  let c := f.vc * 2 + f.cls
  { p with rxSeq := (f.seq + 1) % 4096, nakSent := false, nakDue := false, owed := p.owed.set c (p.owed.getD c 0 + 1) }

/-- A flit is refused: one NAK goes back before the replay (R572). -/
def Port.refuse (p : Port) : Port := { p with nakSent := true, nakDue := p.nakDue || !p.nakSent }

/-- Send what a port's queue, credits and replay buffer allow, in order, one VC never overtaking itself (R570,
R572). -/
def Port.pump : Port → List Flit → List Flit → Port
  | p, kept, [] => { p with queue := kept }
  | p, kept, f :: t =>
    let c := f.vc * 2 + f.cls
    if decide (0 < p.credits.getD c 0) && decide (p.unacked.length < 1024) && !kept.any (fun g => g.vc == f.vc) then
      let g := p.stamp { f with seq := p.txSeq }
      Port.pump { p.stamped g with
        txSeq := (p.txSeq + 1) % 4096, unacked := p.unacked ++ [g], credits := p.credits.set c (p.credits.getD c 0 - 1) } kept t
    else Port.pump p (kept ++ [f]) t

/-- The serdes' digital interface passes tokens: its crossing is not held (R302, R305). -/
def State.serdesOpen (s : State) : Bool := !s.power.held.contains serdesCrossing

/-- Send what port `p` can send (R570, R572); SENT counts the flits. -/
def State.pumpPort (s : State) (p : Nat) : State :=
  if s.portIsUp p && s.serdesOpen then
    let a := s.port p
    let b := a.pump [] a.queue
    (s.setPort p (if a.unacked.isEmpty then { b with ackAt := s.now } else b)).bump (R.CHAIN_PORT_COUNT_COUNT p 0) (b.unacked.length - a.unacked.length)
  else s

/-- An IDLE flit returns the credits and the NAK that are due at a port with nothing else to send (R569, R570). -/
def State.sendIdle (s : State) (p : Nat) : State :=
  let a := s.port p
  if s.portIsUp p && s.serdesOpen && (a.nakDue || a.owed.any fun n => n != 0) then
    let g := a.stamp ⟨2, 0, s.rd R.CHAIN_STATUS_DEVICE_ID, 0, 0, 0, 0, 15, .idle, 0, false, 0, 0, 0, true⟩
    (s.setPort p { a.stamped g with idle := some g }).bump (R.CHAIN_PORT_COUNT_COUNT p 0) 1
  else s

/-- Give a flit to port `p` for sending. -/
def State.enqueue (s : State) (p : Nat) (f : Flit) : State :=
  let a := s.port p
  (s.setPort p { a with queue := a.queue ++ [f] }).pumpPort p

/-- A flit of this device's own making (R568): HOPS 15, CLASS 0, the instance's chain generation. -/
def State.newFlit (s : State) (dst i : Nat) (pl : Payload) : Flit where
  vc := payloadVc pl
  cls := 0
  src := s.rd R.CHAIN_STATUS_DEVICE_ID
  dst := dst
  seq := 0
  inst := i
  cgen := if i = 0 then 0 else s.rd (R.CHAIN_CGEN_CGEN (i - 1))
  hops := 15
  payload := pl
  ack := 0
  nak := false
  creditVc := 0
  creditCls := 0
  credits := 0
  crcOk := true

/-- Send a payload to device `dst` under instance `i`; nothing is sent where no route is up. -/
def State.sendFlit (s : State) (dst i : Nat) (pl : Payload) : State :=
  match s.route dst with
  | none => s
  | some p => s.enqueue p { s.newFlit dst i pl with cls := s.nextClass 0 none p }

/-- Send a control message out of a port, whatever its destination (enumeration, leave, wake). -/
def State.sendOut (s : State) (p : Nat) (pl : Payload) : State := s.enqueue p (s.newFlit 0 0 pl)

/-- This device's records and host accesses go to a chain master elsewhere (R579). -/
def State.reportsToMaster (s : State) : Bool := s.flag R.CHAIN_STATUS_FORMED && !s.isMaster

/-- The host can be reached over this device's own PCIe link. -/
def State.linkOpen (s : State) : Bool := s.rings.linkUp && s.serdesOpen

/-- Host memory can be reached: over PCIe, or by the chain (R579). -/
def State.hostUp (s : State) : Bool := if s.reportsToMaster then s.serdesOpen && (s.route 0).isSome else s.linkOpen

/-- A flit can reach device `dst` (R580). -/
def State.reachable (s : State) (dst : Nat) : Bool :=
  s.inChain dst && (dst = s.rd R.CHAIN_STATUS_DEVICE_ID || (s.route dst).isSome)

end Sys2Proof.Machine
end

