-- ==== Sys2Proof/Machine/MemOps.lean ====
section
/-!
DEFINITION. The memory tiers: bytes, granules, tags, written-bits and poison of T0 and T1, pages and keys of T2,
the flash user region and host memory, each read and written by one operation (R260 to R278, R603 to R606).
-/

namespace Sys2Proof.Machine

/-! ### Byte stores -/

/-- What an unlisted byte of T0, T1, T2 or host memory holds (log entry 11). -/
def noByte : Nat → Byte := fun _ => 0

/-- What an unlisted byte of flash holds: an erased byte (R556). -/
def erased : Nat → Byte := fun _ => 255

/-- `n` bytes of a store from address `a`. -/
def cellsRead (d : Nat → Byte) (m : List Host.Cell) (a n : Nat) : List Nat :=
  (List.range n).map fun i => (Tab.get d m (a + i)).toNat

/-- Write bytes to a store from address `a`. -/
def cellsWrite (d : Nat → Byte) (m : List Host.Cell) (a : Nat) : List Nat → List Host.Cell
  | [] => m
  | b :: t => cellsWrite d (Tab.put d m a (BitVec.ofNat 8 b)) (a + 1) t

/-- The multiples of `g` that meet the range `a … a+n-1`, divided by `g`. -/
def unitsOf (g a n : Nat) : List Nat :=
  if n = 0 then [] else (List.range ((a + n - 1) / g + 1 - a / g)).map fun i => a / g + i

/-! ### Host memory (T4) -/

/-- Read host memory. -/
def State.hostRead (s : State) (a n : Nat) : List Nat := cellsRead noByte s.mem.host a n

/-- Runs of at most 224 bytes, what one flit carries (R569): address and bytes. -/
def flitRuns : Nat → Nat → List Nat → List (Nat × List Nat)
  | 0, _, _ => []
  | n + 1, o, bs => if bs.isEmpty then [] else (o, bs.take 224) :: flitRuns n (o + 224) (bs.drop 224)

/-- Host bytes change. -/
def State.hostStore (s : State) (a : Nat) (bs : List Nat) : State :=
  { s with mem := { s.mem with host := cellsWrite noByte s.mem.host a bs } }

/-- Write host memory for instance `i`; a device that is not the chain master sends the bytes there in HOST flits (R579). -/
def State.hostWrite (s : State) (i a : Nat) (bs : List Nat) : State :=
  let s1 := s.hostStore a bs
  if s.reportsToMaster then
    (flitRuns bs.length a bs).foldl (fun (b : State) r =>
      let tag := b.chain.nextTag
      let b1 : State := { b with chain := { b.chain with
        nextTag := (tag + 1) % 65536, hostWrites := b.chain.hostWrites ++ [(tag, i)] } }
      b1.sendFlit 0 i (.host true r.1 r.2.length tag r.2)) s1
  else s1

/-- The master has acknowledged every host write of an instance (R362, R579). -/
def State.hostAcked (s : State) (i : Nat) : Bool := !s.chain.hostWrites.any fun w => w.2 == i

/-- A device that is not the chain master asks it for host bytes, in HOST flits (R579). -/
def State.hostAsk (s : State) (i a n : Nat) : State :=
  if s.reportsToMaster then
    (flitRuns n a (List.replicate n 0)).foldl (fun (b : State) r =>
      let tag := b.chain.nextTag
      let b1 : State := { b with chain := { b.chain with
        nextTag := (tag + 1) % 65536, hostReads := b.chain.hostReads ++ [(tag, r.1, r.2.length, i)] } }
      b1.sendFlit 0 i (.host false r.1 r.2.length tag [])) s
  else s

/-! ### Outcome of an access -/

/-- What a read or write of a tier gives: the bytes, and the status of R603, R263 or R275 with its place. -/
structure Access where
  bytes  : List Nat
  status : Nat
  /-- Flat core, flat cluster or handle (R594). -/
  place  : Nat
  /-- Location of R594: tier in [63:62], address below. -/
  loc    : Nat
  deriving DecidableEq, Repr

/-- An access with no failure. -/
def Access.ok (bs : List Nat) : Access := ⟨bs, St.ok, 0, 0⟩

/-- Location of R594. -/
def locOf (tier addr : Nat) : Nat := tier * 2 ^ 62 + addr

/-! ### T0 and T1 -/

/-- Bytes of one unit's T0 or T1 (R260). -/
def unitBytes (tier : Nat) : Nat := if tier = 0 then 131072 else 4194304

/-- Key of a byte of T0 or T1. -/
def sramKey (tier u a : Nat) : Nat := u * unitBytes tier + a

/-- The granule table of a tier. -/
def Mem.granules (m : Mem) (tier : Nat) : Tab Granule := if tier = 0 then m.g0 else m.g1

/-- The bytes of a tier. -/
def Mem.sram (m : Mem) (tier : Nat) : List Host.Cell := if tier = 0 then m.t0 else m.t1

/-- Replace the granule table of a tier. -/
def Mem.setGranules (m : Mem) (tier : Nat) (g : Tab Granule) : Mem :=
  if tier = 0 then { m with g0 := g } else { m with g1 := g }

/-- Replace the bytes of a tier. -/
def Mem.setSram (m : Mem) (tier : Nat) (b : List Host.Cell) : Mem :=
  if tier = 0 then { m with t0 := b } else { m with t1 := b }

/-- Granule number `g` of a tier. -/
def Mem.granule (m : Mem) (tier g : Nat) : Granule := Tab.get (fun _ => Granule.init) (m.granules tier) g

/-- Replace granule `g`. -/
def Mem.setGranule (m : Mem) (tier g : Nat) (v : Granule) : Mem :=
  m.setGranules tier (Tab.put (fun _ => Granule.init) (m.granules tier) g v)

/-- One byte as an instance reads it: zero in a foreign or unwritten granule (R263, R275). -/
def Mem.sramByte (m : Mem) (tier i k : Nat) : Nat :=
  let g := m.granule tier (k / 64)
  if g.tag = i ∧ g.written then (Tab.get noByte (m.sram tier) k).toNat else 0

/-- The first granule of a list that meets a test, as an address. -/
def firstAddr (gs : List Nat) (p : Nat → Bool) : Nat := ((gs.filter p).headD 0) * 64

/-- Read T0 (`tier` 0) or T1 of unit `u` for instance `i` (R263, R275, R603, R660). -/
def Mem.sramRead (m : Mem) (trap : Bool) (tier i u a n : Nat) : Access × Bool × Bool :=
  let k := sramKey tier u a
  let gs := unitsOf 64 k n
  let own := fun g => decide ((m.granule tier g).tag = i)
  let poison := fun g => (m.granule tier g).poison || (m.granule tier g).err == 2
  let foreign := fun g => !own g
  let unwritten := fun g => own g && !(m.granule tier g).written
  let bytes := (List.range n).map fun j => m.sramByte tier i (k + j)
  let at_ := fun p => locOf tier (max a (firstAddr gs p - u * unitBytes tier))
  let acc : Access :=
    if gs.any poison then ⟨bytes, St.stepPoison, u, at_ poison⟩
    else if gs.any foreign then ⟨bytes, St.stepBounds, u, at_ foreign⟩
    else if gs.any unwritten && trap then ⟨bytes, St.stepUninit, u, at_ unwritten⟩
    else Access.ok bytes
  (acc, gs.any foreign, gs.any unwritten)

/-- Zero the bytes of a granule that a first write does not cover (R275). -/
def zeroGranule (m : List Host.Cell) (g : Nat) : List Host.Cell := cellsWrite noByte m (g * 64) (List.replicate 64 0)

/-- Write bytes into one granule of instance `i`: the part of `bs` (from key `k`) that lies in it. -/
def Mem.writeGranule (m : Mem) (tier i k : Nat) (bs : List Nat) (g : Nat) : Mem :=
  let gr := m.granule tier g
  if gr.tag ≠ i then m else
  let lo := max k (g * 64)
  let hi := min (k + bs.length) (g * 64 + 64)
  let old := m.sram tier
  let base := if gr.written then old else zeroGranule old g
  let m1 := m.setSram tier (cellsWrite noByte base lo ((bs.drop (lo - k)).take (hi - lo)))
  m1.setGranule tier g { gr with
    written := true
    poison := gr.poison && decide (hi - lo ≠ 64)
    err := if hi - lo = 64 then 0 else gr.err }

/-- Write T0 or T1 for instance `i` (R263, R275, R606); the flag says that a foreign granule refused a part. -/
def Mem.sramWrite (m : Mem) (tier i u a : Nat) (bs : List Nat) : Mem × Access :=
  let k := sramKey tier u a
  let gs := unitsOf 64 k bs.length
  let foreign := fun g => !decide ((m.granule tier g).tag = i)
  let m1 := gs.foldl (fun m g => m.writeGranule tier i k bs g) m
  (m1, if gs.any foreign then ⟨[], St.stepBounds, u, locOf tier (max a (firstAddr gs foreign - u * unitBytes tier))⟩
       else Access.ok [])

/-- UNINIT_TRAP of an instance. -/
def State.trap (s : State) (i : Nat) : Bool := s.flag (R.INST_STATUS_MEM_CTRL_UNINIT_TRAP i)

/-- Granules of a range whose standing ECC error is of kind `e`. -/
def Mem.sramErrs (m : Mem) (tier u a n e : Nat) : List Nat :=
  (unitsOf 64 (sramKey tier u a) n).filter fun g => (m.granule tier g).err == e

/-- Flat cluster of a unit of T0 or T1. -/
def sramCluster (tier u : Nat) : Nat := if tier = 0 then clusterOf u else u

/-- The ECC errors that a read of T0 or T1 meets: correctable ones are counted, uncorrectable ones poison their granule and are
counted (R603). -/
def State.sramEcc (s : State) (tier u a n : Nat) : State :=
  let bad := s.mem.sramErrs tier u a n 2
  let good := s.mem.sramErrs tier u a n 1
  if bad.isEmpty && good.isEmpty then s else
  let d := dieOf (sramCluster tier u)
  let m := bad.foldl (fun m g => m.setGranule tier g { m.granule tier g with poison := true, err := 0 }) s.mem
  (({ s with mem := m } : State).bump (R.DIE_SRAM_CE_COUNT d) good.length).bump (R.DIE_SRAM_POISON_COUNT d) bad.length

/-- Read T0 or T1, with the counters of R263, R275 and R603. -/
def State.sramRead (s : State) (tier i u a n : Nat) : State × Access :=
  let r := s.mem.sramRead (s.trap i) tier i u a n
  let s0 := s.sramEcc tier u a n
  let s1 := if r.2.1 then s0.bump (R.INST_STATUS_BUF_ERRORS_TAG_VIOLATION i) 1 else s0
  let s2 := if r.2.2 then s1.bump (R.INST_STATUS_UNINIT_READ_COUNT i) 1 else s1
  (s2, r.1)

/-- Write T0 or T1, with the counter of R263. -/
def State.sramWrite (s : State) (tier i u a : Nat) (bs : List Nat) : State × Access :=
  let r := s.mem.sramWrite tier i u a bs
  let s1 := { s with mem := r.1 }
  (if r.2.status = St.ok then s1 else s1.bump (R.INST_STATUS_BUF_ERRORS_TAG_VIOLATION i) 1, r.2)

/-! ### T2 -/

/-- Bytes of a T2 page. -/
def pageBytes : Nat := 2097152

/-- Physical address of offset `o` of a T2 buffer (R266). -/
def Buf.phys (b : Buf) (o : Nat) : Nat := (b.pages.getD (o / pageBytes) 0) * pageBytes + o % pageBytes

/-- Key pair under which a T2 block was last written; 0 = never. -/
def Mem.blockKey (m : Mem) (blk : Nat) : Nat := Tab.get (fun _ => 0) m.t2Key blk

/-- One T2 byte as a reader under key pair `key` gets it (R276, R277, R424). -/
def Mem.t2Byte (m : Mem) (key a : Nat) : Nat :=
  let w := m.blockKey (a / 16)
  if w = key ∧ w ≠ 0 then (Tab.get noByte m.t2 a).toNat else (Config.t2Cipher key w a).toNat

/-- A 64-byte T2 block is poisoned (R603). -/
def Mem.t2Bad (m : Mem) (b64 : Nat) : Bool := Tab.get (fun _ => false) m.t2Poison b64

/-- Write the bytes of `bs` (from physical address `a`) that lie in 16-byte block `blk`, under pair `key`: the
block is re-enciphered whole (R277). -/
def Mem.t2WriteBlock (m : Mem) (key a : Nat) (bs : List Nat) (blk : Nat) : Mem :=
  let old := (List.range 16).map fun j => m.t2Byte key (blk * 16 + j)
  let new := (List.range 16).map fun j =>
    let p := blk * 16 + j
    if a ≤ p ∧ p < a + bs.length then bs.getD (p - a) 0 else old.getD j 0
  { m with t2 := cellsWrite noByte m.t2 (blk * 16) new, t2Key := Tab.put (fun _ => 0) m.t2Key blk key }

/-- Write T2 at a physical address, inside one page (R277, R606). -/
def Mem.t2Write (m : Mem) (key a : Nat) (bs : List Nat) : Mem :=
  let m1 := (unitsOf 16 a bs.length).foldl (fun m b => m.t2WriteBlock key a bs b) m
  let whole := (unitsOf 64 a bs.length).filter fun b => decide (a ≤ b * 64 ∧ b * 64 + 64 ≤ a + bs.length)
  { m1 with
    t2Poison := Tab.clearKeys (fun b => whole.contains b) m1.t2Poison
    t2Err := Tab.clearKeys (fun b => whole.contains b) m1.t2Err }

/-- A buffer-table entry named by a handle, when it is live and its generation matches (R267). -/
def State.live (s : State) (h : Nat) : Option Buf :=
  let b := s.buf (h / 256)
  if h / 256 ≠ 0 ∧ b.live ∧ b.gen = h % 256 then some b else none

/-- Key pair of an instance. -/
def State.key (s : State) (i : Nat) : Nat := (s.inst i).key

/-! ### Pages and their retirement (R264, R265, R607) -/

/-- A T2 page is free: not reserved, not retired, not allocated, and not the target of a page move (R264, R265,
R607). -/
def State.pageFree (s : State) (p : Nat) : Bool :=
  decide (16 ≤ p ∧ p < 24576) && !Tab.get (fun _ => false) s.mem.retired p
    && !(s.mem.bufs.any fun e => e.2.live && e.2.tier = 2 && e.2.pages.contains p)
    && !s.errs.moves.any fun m => m.2.1 == p

/-- The first free page at or after candidate `c` that is not in `no`. -/
def State.findPage (s : State) (no : List Nat) : Nat → Nat → Option Nat
  | 0, _ => none
  | k + 1, c =>
    let p := 16 + c % 24560
    if s.pageFree p && !no.contains p then some p else s.findPage no k (c + 1)

/-- A page is retired, its record naming the handle of its buffer or 0. -/
def State.retirePage (s : State) (p owner h : Nat) : State :=
  let s1 : State := { s with mem := { s.mem with retired := Tab.put (fun _ => false) s.mem.retired p true } }
  (s1.bump R.HBM_PAGES_RETIRED 1).raise Rc.pageRetired corrected owner h p

/-- The live buffer that holds a T2 page: its index. -/
def State.pageBuf (s : State) (p : Nat) : Option (Nat × Buf) :=
  s.mem.bufs.find? fun e => e.2.live && e.2.tier == 2 && e.2.pages.contains p

/-- An uncorrectable block is found in a page: the second distinct one retires it or starts its move. -/
def State.pageFind (s : State) (p blk : Nat) : State :=
  let old := Tab.get (fun _ => []) s.errs.pageUe p
  if old.contains blk then s else
  let s1 : State := { s with errs := { s.errs with pageUe := Tab.put (fun _ => []) s.errs.pageUe p (old ++ [blk]) } }
  if p < 16 ∨ old.length ≠ 1 ∨ Tab.get (fun _ => false) s.mem.retired p then s1
  else match s1.pageBuf p with
    | none => s1.retirePage p noOwner 0
    | some (k, _) =>
      match s1.findPage [] 24560 s1.drawn with
      | some q => { s1.skip 1 with errs := { s1.errs with moves := s1.errs.moves ++ [(p, q, k)] } }
      | none => ({ s1 with errs := { s1.errs with pendRet := s1.errs.pendRet ++ [p] } } : State).bump R.HBM_POISON_PENDING 1

/-- The 64-byte blocks, by physical address / 64, that `n` bytes at offset `o` of a buffer meet. -/
def Buf.blocks (b : Buf) (o n : Nat) : List Nat := (unitsOf 64 o n).map fun k => b.phys (k * 64) / 64

/-- A T2 block becomes poisoned. -/
def State.poisonT2 (s : State) (blk : Nat) : State :=
  { s with mem := { s.mem with
    t2Poison := Tab.put (fun _ => false) s.mem.t2Poison blk true
    t2Err := Tab.put (fun _ => 0) s.mem.t2Err blk 0 } }

/-- The ECC errors that a read of T2 blocks meets: correctable ones are counted; a fresh uncorrectable one is counted, poisons its
block and counts toward its page's retirement (R278, R605, R607). -/
def State.t2Ecc (s : State) (blks : List Nat) : State :=
  let kind := fun (b : Nat) => Tab.get (fun _ => 0) s.mem.t2Err b
  if blks.all fun b => kind b == 0 then s else
  let s1 := s.bump R.HBM_CE_COUNT_COUNT (countIf (fun b => kind b == 1) blks)
  (blks.filter fun b => kind b == 2).foldl (fun a b =>
    ((a.bump R.HBM_UE_COUNT_COUNT 1).poisonT2 b).pageFind (b / 32768) (b % 32768)) s1

/-- Read `n` bytes at offset `o` of a T2 buffer for instance `i` (R276, R278, R603, R605). -/
def State.t2Read (s : State) (i h o n : Nat) : State × Access :=
  match s.live h with
  | none => (s, ⟨List.replicate n 0, St.stepBounds, h, locOf 2 o⟩)
  | some b =>
    if b.tier ≠ 2 ∨ b.owner ≠ i ∨ b.size < o + n then (s, ⟨List.replicate n 0, St.stepBounds, h, locOf 2 o⟩)
    else
      let bytes := (List.range n).map fun j => s.mem.t2Byte (s.key i) (b.phys (o + j))
      let old := (unitsOf 64 o n).any fun k => s.mem.t2Bad (b.phys (k * 64) / 64)
      let s1 := (s.t2Ecc (b.blocks o n)).spendT2 (unitsOf 64 o n).length
      match (unitsOf 64 o n).find? fun k => s1.mem.t2Bad (b.phys (k * 64) / 64) with
      | none => (s1, Access.ok bytes)
      | some k => (if old then s1.bump R.HBM_POISON_READS 1 else s1, ⟨bytes, St.stepPoison, h, locOf 2 (k * 64)⟩)

/-- Write bytes at offset `o` of a T2 buffer of instance `i`, byte by byte over its pages. -/
def State.t2Write (s : State) (i h o : Nat) (bs : List Nat) : State × Access :=
  match s.live h with
  | none => (s, ⟨[], St.stepBounds, h, locOf 2 o⟩)
  | some b =>
    if b.tier ≠ 2 ∨ b.owner ≠ i ∨ b.size < o + bs.length then (s, ⟨[], St.stepBounds, h, locOf 2 o⟩)
    else
      let pieces := unitsOf pageBytes o bs.length
      let m := pieces.foldl (fun m p =>
        let lo := max o (p * pageBytes)
        let hi := min (o + bs.length) (p * pageBytes + pageBytes)
        m.t2Write (s.key i) (b.phys lo) ((bs.drop (lo - o)).take (hi - lo))) s.mem
      (({ s with mem := m } : State).spendT2 (unitsOf 64 o bs.length).length, Access.ok [])

/-! ### T3 (R554) -/

/-- Flash address of user region offset 0 (R554). -/
def flashUser : Nat := 0x06000000

/-- Size of the user region (R553). -/
def flashUserBytes : Nat := 0x1A000000

/-- Read flash bytes by flash address. -/
def State.flashRead (s : State) (a n : Nat) : List Nat := cellsRead erased s.flash.bytes a n

/-- Bytes of a flash bank (R552). -/
def bankBytes : Nat := 0x10000000

/-- A program or erase runs in bank `b` (R559, R565): PROGRAM, ERASE, SIGNED_UPDATE or a firmware record write. -/
def FlashOp.busies (o : FlashOp) (b : Nat) : Bool :=
  if o.kind = 1 ∨ o.kind = 2 then o.addr / bankBytes == b else if o.kind = 7 ∨ o.kind = 15 then b == 0 else false

/-- Bank `b` is busy (R559). -/
def State.bankBusy (s : State) (b : Nat) : Bool :=
  (match s.flash.op with
    | some o => o.busies b
    | none => false) || (s.flash.fw.isSome && b == 0)

/-- A range of the user region meets a busy bank, so a DMA engine waits (R285). -/
def State.t3Busy (s : State) (off n : Nat) : Bool := (unitsOf bankBytes (flashUser + off) n).any fun b => s.bankBusy b

/-! ### One operation for every space -/

/-- Read a space of R394: 0 = T0, 1 = T1, 2 = T2, 3 = T3, 4 = host. -/
def State.readSpace (s : State) (i space u o n : Nat) : State × Access :=
  if space ≤ 1 then s.sramRead space i u o n
  else if space = 2 then s.t2Read i u o n
  else if space = 3 then (s, Access.ok (s.flashRead (flashUser + o) n))
  else (s.hostAsk i o n, Access.ok (s.hostRead o n))

/-- Write a space of R394; T3 is never a destination. -/
def State.writeSpace (s : State) (i space u o : Nat) (bs : List Nat) : State × Access :=
  if space ≤ 1 then s.sramWrite space i u o bs
  else if space = 2 then s.t2Write i u o bs
  else if space = 4 then (s.hostWrite i o bs, Access.ok [])
  else (s, Access.ok [])

/-- A range of T0, T1 or T2 lies inside one live buffer of an instance (R281, R395). -/
def State.inBuffer (s : State) (i tier u a n : Nat) : Bool :=
  if tier = 2 then
    match s.live u with
    | none => false
    | some b => b.tier = 2 && b.owner = i && decide (a + n ≤ b.size)
  else s.mem.bufs.any fun e => e.2.live && e.2.tier = tier && e.2.owner = i && e.2.loc = u
      && decide (e.2.base ≤ a ∧ a + n ≤ e.2.base + e.2.size)

/-! ### Hampers (R264) -/

/-- Bytes of a quota unit of a tier. -/
def quotaUnit (tier : Nat) : Nat := if tier = 0 then 4096 else if tier = 1 then 65536 else pageBytes

/-- Units of a tier that an instance has allocated. -/
def State.unitsUsed (s : State) (i tier : Nat) : Nat :=
  (s.mem.bufs.map fun e => if e.2.live && e.2.owner = i && e.2.tier = tier then e.2.size / quotaUnit tier else 0).foldl
    (· + ·) 0

/-- Peg units assigned to an instance (R355, R417). -/
def State.pegUnits (s : State) (i : Nat) : Nat := countIf (fun e => e.2 = i + 1) s.pegs.owner

/-- Enabled work rings of a function. -/
def State.workRings (s : State) (f : Nat) : Nat := countIf (fun w => s.flag (R.WR_CTRL_ENABLE f w)) (List.range 16)

/-- A resource's units now allocated (INST_STATUS.HAMPER.USED). -/
def State.used (s : State) (i n : Nat) : Nat :=
  if n ≤ 2 then s.unitsUsed i n
  else if n = 3 then (s.inst i).cores.length
  else if n = 4 then s.pegUnits i
  else s.workRings i

/-- Free T2 pages (HBM.PAGES.FREE): 24,560 less the retired and the allocated. -/
def State.freePages (s : State) : Nat :=
  24560 - countIf (fun e => decide (16 ≤ e.1) && e.2) s.mem.retired
    - (s.mem.bufs.map fun e => if e.2.live && e.2.tier = 2 then e.2.pages.length else 0).foldl (· + ·) 0

/-- Memory is in its canonical form: every store lists rising addresses and no default entry. -/
def Mem.wf (m : Mem) : Bool :=
  Tab.wf noByte m.t0 && Tab.wf noByte m.t1 && Tab.wf noByte m.t2 && Tab.wf noByte m.host
    && Tab.wf (fun _ => Granule.init) m.g0 && Tab.wf (fun _ => Granule.init) m.g1 && Tab.wf (fun _ => 0) m.t2Key

end Sys2Proof.Machine
end

