-- ==== Sys2Proof/Machine/Operands.lean ====
section
/-!
DEFINITION. The operand forms: descriptors (R389 to R400 and the bodies of R160, R198, R201, R268, R272), target
lists (R161), and the check that the hub makes of every fetched descriptor (R390).
-/

namespace Sys2Proof.Machine

/-- Bytes `o … o+n-1` are all 0. -/
def zeroAt (b : List Nat) (o n : Nat) : Bool := ((b.drop o).take n).all (· == 0)

/-- TYPE of a descriptor (R389). -/
def dType (b : List Nat) : Nat := u8At b 0
/-- Its IRQ flag. -/
def dIrq (b : List Nat) : Bool := bit (u8At b 1) 0
/-- DESC_ID. -/
def dId (b : List Nat) : Nat := u32At b 4
/-- TARGET_DEVICE. -/
def dDevice (b : List Nat) : Nat := u16At b 8

/-- The body shared by PROGRAM_DECKS, RINSE, SELF_TEST and CALIBRATE obeys R160, with `flags` the FLAGS bits the
type allows and `image` whether it may name an image. -/
def progBody (b : List Nat) (flags : Nat) (image : Bool) : Bool :=
  let f := u16At b 0x34
  decide (f &&& (0xFFFF - flags) = 0) && decide (1 ≤ u32At b 0x30 ∧ u32At b 0x30 ≤ 4096)
    && decide (u64At b 0x20 % 8 = 0 ∧ u64At b 0x28 % 8 = 0)
    && (if bit f 1 then u32At b 0x14 == 0 else true)
    && (if image then decide (u64At b 0x18 % 4096 = 0) && (if bit f 0 then u32At b 0x10 == 0 else true)
        else u32At b 0x10 == 0 && u64At b 0x18 == 0 && !bit f 0)

/-- The body of a DMA_COPY obeys R394. -/
def dmaBody (b : List Nat) : Bool :=
  let ss := u8At b 0x10
  let ds := u8At b 0x11
  decide (ss ≤ 4 ∧ ds ≤ 4 ∧ ds ≠ 3 ∧ ¬(ss = 4 ∧ ds = 4) ∧ u8At b 0x12 ≤ 1 ∧ u8At b 0x13 ≤ 63)
    && (decide (ss ≤ 2) || u32At b 0x14 == 0) && (decide (ds ≤ 2) || u32At b 0x20 == 0)
    && decide (u32At b 0x24 % 64 = 0 ∧ 64 ≤ u32At b 0x24) && zeroAt b 0x38 8

/-- The body of a PEG_SIGNAL or PEG_WAIT obeys R396. -/
def pegBody (b : List Nat) : Bool :=
  let t := u8At b 0x11
  decide (u8At b 0x10 ≤ 1 ∧ t ≤ 3 ∧ u8At b 0x12 ≤ 8) && zeroAt b 0x13 1 && (decide (t ≠ 3) || u32At b 0x14 == 0)
    && (decide (t = 0 ∨ t = 3) || decide (u64At b 0x18 % 8 = 0)) && zeroAt b 0x28 24

/-- The body of a descriptor holds no nonzero reserved field and no field outside its range (R390 row 1). The TIER and the reserved
fields of a BUF_ALLOC are judged by row 1 of R270 (log entry 25). -/
def bodyOk (b : List Nat) : Bool :=
  match dType b with
  | 0x00 => zeroAt b 0x10 48
  | 0x01 => decide (u16At b 0x14 ≤ 1 ∧ u16At b 0x16 ≤ 16 ∧ u64At b 0x18 % 64 = 0 ∧ 64 ≤ u64At b 0x20
      ∧ u64At b 0x28 % 16 = 0 ∧ (u16At b 0x16 = 0 → u64At b 0x28 = 0) ∧ (u16At b 0x14 = 1 → u32At b 0x10 = 0))
      && zeroAt b 0x30 16
  | 0x02 => dmaBody b
  | 0x03 => decide (u64At b 0x20 % 8 = 0)
  | 0x04 => zeroAt b 0x14 44
  | 0x05 => progBody b 0xF true && zeroAt b 0x36 10
  | 0x06 => progBody b 0xE false && zeroAt b 0x36 10
  | 0x07 => pegBody b
  | 0x08 => pegBody b
  | 0x09 => decide (u8At b 0x10 ≤ 1) && zeroAt b 0x11 47
  | 0x0A => decide (1 ≤ u32At b 0x14 ∧ u32At b 0x14 ≤ 10000000) && zeroAt b 0x1D 35
  | 0x0B => progBody b 0xA false && decide (u8At b 0x36 ≤ 2 ∧ u32At b 0x38 ≤ 10000000) && zeroAt b 0x37 1 && zeroAt b 0x3C 4
  | 0x0C => (if bit (u16At b 0x34) 2 then progBody b 0xF true else progBody b 0xA false)
      && zeroAt b 0x36 2 && decide (u32At b 0x38 ≤ 10000000) && zeroAt b 0x3C 4
  | 0x0D => decide (u32At b 0x10 < nCores) && zeroAt b 0x16 2 && zeroAt b 0x1C 36
  | 0x0E => decide (u32At b 0x10 < nCores) && zeroAt b 0x16 42
  | 0x0F => decide (u8At b 0x10 ≤ 15 ∧ u8At b 0x11 ≤ 1)
      && (u8At b 0x11 == 1 || (decide (u8At b 0x12 ≤ 7 ∧ u8At b 0x13 ≤ 15 ∧ u8At b 0x14 ≤ 0x3F ∧ 1 ≤ u8At b 0x15
        ∧ u8At b 0x15 ≤ 64 ∧ u8At b 0x16 ≤ 1 ∧ u8At b 0x17 ≤ 63 ∧ u32At b 0x1C % 4096 = 0) && zeroAt b 0x20 32))
  | 0x10 => decide (1 ≤ u8At b 0x10 ∧ u8At b 0x10 ≤ 16) && zeroAt b 0x11 47
  | _ => false

/-- The header holds no nonzero reserved field and TARGET_DEVICE is 0–63 (R389). -/
def headerOk (b : List Nat) : Bool :=
  decide (u8At b 1 ≤ 1 ∧ dDevice b ≤ 63) && zeroAt b 2 2 && zeroAt b 0x0A 6

/-- Permitted only to the management instance (R391): INST_RESET, and SELF_TEST with TEST = 2. -/
def mgmtOnly (b : List Nat) : Bool := dType b == 0x10 || (dType b == 0x0B && u8At b 0x36 == 2)

/-- The check of a fetched descriptor (R390); 0 = it runs. `inChain` says that the chain holds a device. -/
def descStatus (master broad : Bool) (inChain : Nat → Bool) (i : Nat) (b : List Nat) : Nat :=
  if !(headerOk b && bodyOk b) then St.descInvalid
  else if mgmtOnly b && i != 0 then St.descNotPermitted
  else if dDevice b ≠ 0 ∧ !(master && broad && inChain (dDevice b)) then St.chainTarget
  else St.ok

/-- A target-list entry (R161). -/
structure TEntry where
  section_ : Nat
  engine   : Nat
  deck     : Nat
  guard    : Bool
  ok       : Bool
  deriving DecidableEq, Repr

/-- A target-list entry from its 64 bits. A guard engine is named 98,304 + lane × 4 + engine. -/
def tEntry (v : Nat) : TEntry :=
  let g := bit v 63
  { section_ := fld v 31 0
    engine := if g then nEngines + fld v 37 32 else fld v 48 32
    deck := fld v 51 49
    guard := g
    ok := fld v 62 52 = 0 && (if g then fld v 48 38 = 0 && fld v 51 49 = 0 else decide (fld v 48 32 < nEngines)) }

/-- Entries of a list of 8-byte words. -/
def tEntries (bs : List Nat) : List TEntry := (List.range (bs.length / 8)).map fun j => tEntry (u64At bs (8 * j))

end Sys2Proof.Machine
end

