-- ==== Sys2Proof/Machine/RingOps.lean ====
section
/-!
DEFINITION. Rings, descriptors in progress and completion records: the operations that the commands of the rings and
every descriptor's end share (R384, R401 to R408, R595, R596).
-/

namespace Sys2Proof.Machine

/-! ### Positions (R384) -/

/-- Slots of a ring whose SIZE_LOG2 is `l`. -/
def ringSize (l : Nat) : Nat := 2 ^ l

/-- Position of a position register: index in [15:0], wrap bit [16] (R384). -/
def posOf (reg size : Nat) : Nat := b2n (bit reg 16) * size + reg % 65536

/-- The register form of a position. -/
def regOf (pos size : Nat) : Nat := (pos / size % 2) * 65536 + pos % size

/-- The position after `pos`. -/
def posNext (pos size : Nat) : Nat := (pos + 1) % (2 * size)

/-- SIZE_LOG2 lies in 6–16 (R384). -/
def sizeOk (l : Nat) : Bool := decide (6 ≤ l ∧ l ≤ 16)

/-- Slots of work ring `w` of function `f`. -/
def State.wrSize (s : State) (f w : Nat) : Nat := ringSize (s.rd (R.WR_CTRL_SIZE_LOG2 f w))
/-- Slots of done ring `d`. -/
def State.drSize (s : State) (f d : Nat) : Nat := ringSize (s.rd (R.DR_CTRL_SIZE_LOG2 f d))
/-- Slots of the event ring. -/
def State.evSize (s : State) (f : Nat) : Nat := ringSize (s.rd (R.EV_CTRL_SIZE_LOG2 f))

/-- Free slots of a done ring. -/
def State.drFree (s : State) (f d : Nat) : Nat :=
  let z := s.drSize f d
  z - posCount (posOf (s.rd (R.DR_TAIL_POSITION f d)) z) (posOf (s.rd (R.DR_HEAD_POSITION f d)) z) z

/-- Free slots of the event ring. -/
def State.evFree (s : State) (f : Nat) : Nat :=
  let z := s.evSize f
  z - posCount (posOf (s.rd (R.EV_TAIL_POSITION f)) z) (posOf (s.rd (R.EV_HEAD_POSITION f)) z) z

/-! ### Descriptors in progress -/

/-- The fetched descriptor of number `uid`. -/
def State.desc? (s : State) (uid : Nat) : Option Desc := s.rings.descs.find? fun d => d.uid == uid

/-- Remove a descriptor from the table; its work ring's ENABLE falls once the last one of a ring that is stopping
has gone (WR_CTRL.ENABLE). -/
def State.dropDesc (s : State) (uid : Nat) : State :=
  let left := s.rings.descs.filter fun d => d.uid != uid
  let ended := s.rings.stopping.filter fun k => !left.any fun d => d.inst * 16 + d.ring == k
  let s1 := { s with rings := { s.rings with
    descs := left, stopping := s.rings.stopping.filter fun k => !ended.contains k } }
  ended.foldl (fun s k => s.setFlag (R.WR_CTRL_ENABLE (k / 16) (k % 16)) false) s1

/-- The done ring that takes a work ring's records. -/
def State.doneRing (s : State) (f w : Nat) : Nat := s.rd (R.WR_CTRL_DONE_RING f w)

/-- A descriptor completes with a status (R403, R406): its record is due. -/
def State.completeC (s : State) (uid status detail : Nat) (counters : Option (Nat × Nat × Nat × Nat × Nat)) : State :=
  match s.desc? uid with
  | none => s
  | some d =>
    let c : CRec := ⟨uid, d.inst, d.ring, d.slot, d.gen, dId d.bytes, dType d.bytes, dIrq d.bytes, status, detail, s.doneRing d.inst d.ring, counters, d.fromDev,
      (s.chain.hostWrites.filter fun w => w.2 == d.inst).map Prod.fst⟩
    let s1 := s.dropDesc uid
    ({ s1 with rings := { s1.rings with due := s1.rings.due ++ [c] } } : State).busyNow

/-- A descriptor that carries no step counters completes. -/
def State.complete (s : State) (uid status detail : Nat) : State := s.completeC uid status detail none

/-- A descriptor has started. -/
def State.started (s : State) (uid : Nat) : State :=
  let l := s.rings.descs.map fun d => if d.uid == uid then { d with started := true } else d
  ({ s with rings := { s.rings with descs := l } } : State).busyNow

/-- Types that hold back later descriptors of their ring until they complete (R401). -/
def holdsBack (t : Nat) : Bool := t == 0x08 || t == 0x09 || t == 0x10

/-- The first descriptor of a work ring that has not started. -/
def State.firstWaiting (s : State) (f w : Nat) : Option Desc :=
  s.rings.descs.find? fun d => d.inst == f && d.ring == w && !d.started

/-- May the first waiting descriptor of a ring start (R388, R401, R412): the instance runs, no earlier descriptor of
the ring holds it back, fewer than 64 of the instance are started and not completed. -/
def State.mayBegin (s : State) (f w : Nat) : Bool :=
  s.mayStart 4 && (s.inst f).st = .ready
    && !(s.rings.descs.any fun d => d.inst == f && d.ring == w && d.started && holdsBack (dType d.bytes))
    && decide (countIf (fun d => d.inst == f && d.started) s.rings.descs < 64)

/-- The descriptor of type `t` that starts next in a ring, if it may. -/
def State.begin (s : State) (f w t : Nat) : Option Desc :=
  match s.firstWaiting f w with
  | none => none
  | some d => if s.mayBegin f w && dType d.bytes == t then some d else none

/-- The effect of a descriptor command: when the descriptor may start, it starts and `g` runs on it. -/
def State.onDesc (s : State) (f w t : Nat) (g : State → Desc → State) : State :=
  match s.begin f w t with
  | none => s
  | some d => g (s.started d.uid) d

/-! ### Writing records (R403 to R408, R595, R596) -/

/-- The 32 bytes of a completion record (R403). -/
def CRec.bytes (c : CRec) (phase : Bool) (timeLo : Nat) : List Nat :=
  let k := c.counters.getD (0, 0, 0, 0, 0)
  leBytes 4 c.descId ++ leBytes 2 c.status ++ [c.type, b2n phase + 2 * b2n c.counters.isSome] ++ leBytes 4 timeLo
    ++ leBytes 4 k.1 ++ leBytes 4 k.2.1 ++ leBytes 2 k.2.2.1 ++ [k.2.2.2.1, c.ring] ++ leBytes 2 c.slot
    ++ leBytes 2 k.2.2.2.2 ++ leBytes 4 c.detail

/-- Write a completion record at the tail of its done ring, and send its vector (R404, R408). -/
def State.writeDone (s : State) (f d : Nat) (bytes : Bool → List Nat) (vector : Bool) : State :=
  let z := s.drSize f d
  let p := posOf (s.rd (R.DR_TAIL_POSITION f d)) z
  let a := s.rd (R.DR_BASE_BASE f d) * 4096 + (p % z) * 32
  let s1 := (s.hostWrite f a (bytes (decide (p < z)))).wr (R.DR_TAIL_POSITION f d) (regOf (posNext p z) z)
  if vector && s1.flag (R.DR_CTRL_MSIX_EN f d) then s1.msix f (s1.rd (R.DR_CTRL_VECTOR f d)) else s1

/-- The record can be written to its done ring: a slot is free, and no older record waits for one (R407). -/
def State.doneTakes (s : State) (c : CRec) : Bool :=
  s.flag (R.DR_CTRL_ENABLE c.inst c.done) && decide (0 < s.drFree c.inst c.done)
    && !s.rings.held.any (fun h => h.inst == c.inst && h.done == c.done)

/-- A record due to a done ring of this device: written, or held when no slot is free (R407). -/
def State.deliverDone (s : State) (c : CRec) : State :=
  let d := c.done
  if s.doneTakes c then
    s.writeDone c.inst d (fun ph => c.bytes ph (s.now % 2 ^ 32)) (c.irq || decide (c.status ≠ St.ok))
  else
    ({ s with rings := { s.rings with held := s.rings.held ++ [c] } } : State).wr (R.DR_STATUS_HELD c.inst d)
      (countIf (fun h => h.inst == c.inst && h.done == d) s.rings.held + 1)

/-- An error record written at the tail of an event ring (R595), with its vector. -/
def State.writeEvent (s : State) (f : Nat) (r : Record) : State :=
  let z := s.evSize f
  let p := posOf (s.rd (R.EV_TAIL_POSITION f)) z
  let a := s.rd (R.EV_BASE_BASE f) * 4096 + (p % z) * 32
  let s1 := (s.hostWrite f a (r.bytes (decide (p < z)))).wr (R.EV_TAIL_POSITION f) (regOf (posNext p z) z)
  if s1.flag (R.EV_CTRL_MSIX_EN f) then s1.msix f (s1.rd (R.EV_CTRL_VECTOR f)) else s1

/-- Records lost by a full event ring since its last marker. -/
def State.lostOf (s : State) (f : Nat) : Nat := Tab.get (fun _ => 0) s.errs.lost f

/-- Set that count. -/
def State.setLost (s : State) (f n : Nat) : State :=
  { s with errs := { s.errs with lost := Tab.put (fun _ => 0) s.errs.lost f n } }

/-- A record reaches an event ring: written, dropped and counted when the ring is full or disabled (R596). -/
def State.deliverEvent (s : State) (f : Nat) (r : Record) : State :=
  if !s.flag (R.EV_CTRL_ENABLE f) then s.bump (R.INST_STATUS_EV_COUNT_DISABLED f) 1
  else if s.evFree f = 0 then (s.bump (R.INST_STATUS_EV_COUNT_OVERFLOW f) 1).setLost f (s.lostOf f + 1)
  else s.writeEvent f r

/-- When a full event ring has freed a slot, the EVENT_OVERFLOW marker is raised and written before any newer record
(R596). -/
def State.overflowMarker (s : State) (f : Nat) : State :=
  if s.lostOf f ≠ 0 ∧ s.flag (R.EV_CTRL_ENABLE f) ∧ s.evFree f ≠ 0 ∧ !s.halted then
    let r := s.newRecord Rc.eventOverflow corrected f (s.lostOf f) 0
    ((s.countRecord corrected).setLost f 0).writeEvent f r
  else s

/-- A record of a device that is not the chain master travels to the master (R579, R592). -/
def State.forwardRecord (s : State) (kind ring slot i : Nat) (bytes : List Nat) : State :=
  s.sendFlit 0 i (.record kind ring slot bytes)

end Sys2Proof.Machine
end

