-- ==== Sys2Proof/Machine/MirrorOps.lean ====
section
/-!
DEFINITION. Writes into a mirror's local buffer, sent to the remote buffer as DATA flits (R583 to R586), and the tile
headers that packing fills in (R244 to R246, R257).
-/

namespace Sys2Proof.Machine

/-! ### Tile headers -/

/-- Bytes of a factor element of FORMAT 1 (E4M3) or 2 (BF16). -/
def factorBytes (format : Nat) : Nat := if format = 2 then 2 else 1
/-- PAYLOAD_LENGTH (R244). -/
def tilePayload (format rank : Nat) : Nat := 128 * rank * factorBytes format
/-- STRIDE (R246). -/
def tileStride (format rank : Nat) : Nat := 64 + tilePayload format rank
/-- The RANK codes. -/
def rankOk (r : Nat) : Bool := r == 4 || r == 8 || r == 16 || r == 32
/-- The FORMAT codes. -/
def formatOk (f : Nat) : Bool := f == 1 || f == 2

/-- The header bytes of a tile with a CRC field (R244). -/
def tileHeader (format rank index crc scale : Nat) : List Nat :=
  [0x52, 0x4C, format, rank] ++ leBytes 2 (tilePayload format rank) ++ leBytes 2 index ++ leBytes 4 crc ++ [scale, 0, 0, 0]

/-- A whole slot with its header filled in under R586. -/
def packSlot (format rank scale index : Nat) (slot : List Nat) : List Nat :=
  let payload := (slot.drop 16).take (tilePayload format rank)
  tileHeader format rank (index % 65536) (crc32c (tileHeader format rank (index % 65536) 0 scale ++ payload)) scale
    ++ slot.drop 16

/-! ### Mirrored writes -/

/-- The mirror, if any, whose local buffer a handle of an instance is (R583): its index. -/
def State.mirrorOf (s : State) (i h : Nat) : Option Nat :=
  (List.range 64).find? fun k =>
    s.flag (R.CHAIN_MIRROR_VALID k) && s.rd (R.CHAIN_MIRROR_LOCAL_HANDLE k) == h && s.rd (R.CHAIN_MIRROR_INST k) == i

/-- The pieces (offset, bytes) in which a write of `bs` at `off` leaves with packing (R586): each slot of `stride` bytes
that it covers whole becomes a tile; a slot it covers in part is sent with MAGIC 0. -/
def packPieces (format rank scale off : Nat) (bs : List Nat) : List (Nat × List Nat) :=
  let z := tileStride format rank
  (unitsOf z off bs.length).map fun n =>
    let lo := max off (n * z)
    let hi := min (off + bs.length) (n * z + z)
    let part := (bs.drop (lo - off)).take (hi - lo)
    if hi - lo = z then (lo, packSlot format rank scale n part)
    else (n * z, [0, 0] ++ ((List.replicate (lo - n * z) 0 ++ part).drop 2))

/-- Send a write into mirror `k` as DATA flits; what waits for them is named by `uid st op` (`isDesc`: a descriptor).
Nothing is sent, and the flag is false, when the remote device cannot be reached (R587). -/
def State.mirrorWrite (s : State) (i k off : Nat) (bs : List Nat) (uid st op : Nat) (isDesc : Bool) : State × Bool :=
  let dev := s.rd (R.CHAIN_MIRROR_DEVICE k)
  if !s.reachable dev then (s, false) else
  let packed := s.flag (R.CHAIN_MIRROR_PACK k)
  let pieces :=
    if packed then packPieces (s.rd (R.CHAIN_MIRROR_FORMAT k)) (s.rd (R.CHAIN_MIRROR_RANK k))
      (s.rd (R.CHAIN_MIRROR_SCALE_EXP k)) off bs
    else [(off, bs)]
  let runs := pieces.flatMap fun p => flitRuns p.2.length p.1 p.2
  let tag := s.chain.nextTag
  let s1 : State := { s with chain := { s.chain with
    nextTag := (tag + 1) % 65536, transfers := s.chain.transfers ++ [⟨tag, i, runs.length, uid, st, op, isDesc, 0,
      s.rd (R.CHAIN_MIRROR_LOCAL_HANDLE k), off⟩] } }
  let h := s.rd (R.CHAIN_MIRROR_REMOTE_HANDLE k)
  let s2 := (runs.zipIdx).foldl (fun s r =>
    s.sendFlit dev i (.data h r.1.1 tag (decide (r.2 + 1 = runs.length)) packed r.1.2)) s1
  (s2, true)

end Sys2Proof.Machine
end

