-- ==== Sys2Proof/Machine/StepOps.lean ====
section
/-!
DEFINITION. Steps in progress: their operations, the start rule of R344 with the gate of R282, failure (R352) and the
operands of an operation (R336 to R343).
-/

namespace Sys2Proof.Machine

/-! ### Fields of an operation (R336) -/

/-- OPCODE. -/
def Op.code (o : Op) : Nat := u8At o.bytes 0
/-- DEPS. -/
def Op.deps (o : Op) : Nat := u8At o.bytes 1
/-- STEP. -/
def Op.step (o : Op) : Nat := u16At o.bytes 2
/-- FUNC of a Precision Engine operation (R343). -/
def Op.func (o : Op) : Nat := u8At o.bytes 8
/-- The operation has started. -/
def Op.begun (o : Op) : Bool := o.stage != 0
/-- The operation has completed. -/
def Op.over (o : Op) : Bool := o.stage == 3

/-! ### Finding and changing -/

/-- The step of RUN_STEP descriptor `uid`. -/
def State.step? (s : State) (uid : Nat) : Option Step := s.steps.find? fun t => t.uid == uid

/-- Change a step. -/
def State.modStep (s : State) (uid : Nat) (f : Step → Step) : State :=
  { s with steps := s.steps.map fun t => if t.uid == uid then f t else t }

/-- Change an operation of a stream. -/
def Stream.modOp (m : Stream) (op : Nat) (f : Op → Op) : Stream := { m with ops := m.ops.modify op f }

/-- Change an operation of a step. -/
def State.modOp (s : State) (uid st op : Nat) (f : Op → Op) : State :=
  s.modStep uid fun t => { t with streams := t.streams.modify st fun m => m.modOp op f }

/-- Set an operation's stage: 1 = started, 2 = its effect has begun, 3 = complete (R345). -/
def State.setStage (s : State) (uid st op n : Nat) : State := s.modOp uid st op fun o => { o with stage := n }

/-- An operation completes (R345). -/
def State.opDone (s : State) (uid st op : Nat) : State := (s.setStage uid st op 3).busyNow

/-- An operation of a step, with its step and stream. -/
def State.op? (s : State) (uid st op : Nat) : Option (Step × Stream × Op) := do
  let t ← s.step? uid
  let m ← t.streams[st]?
  let o ← m.ops[op]?
  some (t, m, o)

/-- Flat cluster of a stream. -/
def Stream.clusterNo (m : Stream) : Nat := if m.cluster then m.unit else clusterOf m.unit

/-- The effect of an operation command: in RUN it runs on an operation of opcode `code` that has started (R344) and whose
effect has not begun. -/
def State.onOp (s : State) (uid st op code : Nat) (f : Step → Stream → Op → State) : State :=
  match s.op? uid st op with
  | some (t, m, o) => if s.running && o.stage == 1 && o.code == code then f t m o else s
  | none => s

/-- The step is bound, has not failed, and its instance has not been reset since (R352, R428). -/
def State.alive (s : State) (t : Step) : Bool := t.bound && t.status == 0 && (s.inst t.inst).gen == t.gen

/-! ### Failure (R352, R594) -/

/-- The waits of a step end without their condition (R352, R375). -/
def State.dropWaits (s : State) (p : Wait → Bool) : State :=
  let gone := (s.pegs.waits.filter p) ++ (s.pegs.retries.map Retry.wait).filter p
  let s1 := { s with pegs := { s.pegs with
    waits := s.pegs.waits.filter (fun w => !p w), retries := s.pegs.retries.filter (fun r => !p r.wait) } }
  gone.foldl (fun s w => if w.desc.isNone && decide (w.tier ≤ 3) then s.opDone w.step w.stream w.op else s) s1

/-- PEG_WAIT_GE or PEG_WAIT_EQ: a stream holds at most one wait at a time (R370). -/
def isPegWait (n : Nat) : Bool := n == 0x42 || n == 0x43

/-- A PEG_WAIT that has started ends without its condition (R352). -/
def Op.endWait (o : Op) : Op :=
  if isPegWait o.code ∧ (o.stage = 1 ∨ o.stage = 2) then { o with stage := 3 } else o

/-- A step fails: only its first failure sets its status, and writes the record of R594 unless the rule of the
failure writes its own (`noisy` false, R373). -/
def State.failWith (s : State) (uid status hi info1 sched : Nat) (noisy : Bool) : State :=
  match s.step? uid with
  | none => s
  | some t =>
    if t.status ≠ 0 ∨ (s.inst t.inst).gen ≠ t.gen then s
    else
      let s1 := s.modStep uid fun t => { t with
        status := status, failStep := sched, streams := t.streams.map fun m => { m with ops := m.ops.map Op.endWait } }
      let s2 := if noisy then s1.raise status instClass t.inst (t.descId + hi * 2 ^ 32) info1 else s1
      s2.dropWaits fun w => w.desc.isNone && w.step == uid

/-- A step fails with its record (R594). -/
def State.failStep (s : State) (uid status hi info1 sched : Nat) : State := s.failWith uid status hi info1 sched true

/-- An access of an operation failed: the step fails with its status and place (R594); an access that did not fail
changes nothing. -/
def State.failAccess (s : State) (uid : Nat) (a : Access) (sched : Nat) : State :=
  if a.status = St.ok then s else s.failStep uid a.status a.place a.loc sched

/-! ### Schedule steps and the gate (R282) -/

/-- Operations of a step in one cluster. -/
def Step.clusterOps (t : Step) (cl : Nat) : List Op :=
  (t.streams.filter fun m => m.clusterNo == cl).flatMap Stream.ops

/-- CUR of a cluster (R282): the lowest schedule step with an operation that has not completed. -/
def Step.cur (t : Step) (cl : Nat) : Nat :=
  (t.clusterOps cl).foldl (fun c o => if o.over then c else min c o.step) t.stepCount

/-- The lowest schedule step of a step with an operation that has not completed, in any cluster. -/
def Step.lowest (t : Step) : Nat :=
  (t.streams.flatMap Stream.ops).foldl (fun c o => if o.over then c else min c o.step) t.stepCount

/-- CLUSTER of a prefetch entry (R280). -/
def Entry.cluster (e : Entry) : Nat := u16At e.bytes 8
/-- USE_STEP. -/
def Entry.use (e : Entry) : Nat := u16At e.bytes 0
/-- LAST_USE. -/
def Entry.last (e : Entry) : Nat := u16At e.bytes 2
/-- LEAD. -/
def Entry.lead (e : Entry) : Nat := u8At e.bytes 4
/-- KIND is a tile transfer. -/
def Entry.isTile (e : Entry) : Bool := u8At e.bytes 5 == 1
/-- An in-line entry (R334). -/
def Entry.inLine (e : Entry) : Bool := e.use == 0xFFFF

/-- The gate of R282 for schedule step `n` in a cluster: every scheduled entry with USE_STEP ≤ n is done. -/
def Step.gateOpen (t : Step) (cl n : Nat) : Bool :=
  t.entries.all fun e => e.inLine || e.cluster != cl || decide (n < e.use) || e.st == 2

/-! ### The start rule (R344) -/

/-- Every earlier operation of the stream has started, and those named by DEPS have completed. -/
def depsMet (m : Stream) (op : Nat) (o : Op) : Bool :=
  (m.ops.take op).all Op.begun
    && (List.range 7).all (fun k => !bit o.deps k || match m.ops[op - (k + 1)]? with
        | some p => p.over
        | none => true)
    && (!bit o.deps 7 || (m.ops.take op).all Op.over)

/-- Opcodes of the vector unit (R337). -/
def isVector (code : Nat) : Bool := code == 3 || code == 4 || (decide (0x10 ≤ code) && decide (code ≤ 0x16))
/-- Opcodes of the Precision Engine. -/
def isPe (code : Nat) : Bool := decide (0x30 ≤ code) && decide (code ≤ 0x33)

/-- An operation of a stream has started and has not completed. -/
def runningOp (p : Op → Bool) (m : Stream) : Bool := m.ops.any fun o => o.begun && !o.over && p o

/-- Some stream of the device has an operation of a kind in progress. -/
def State.anyOp (s : State) (q : Stream → Bool) (p : Op → Bool) : Bool :=
  s.steps.any fun t => t.streams.any fun m => q m && runningOp p m

/-- Some prefetch entry of a cluster is transferring: the cluster DMA engine is busy. -/
def State.entryBusy (s : State) (cl : Nat) : Bool :=
  s.steps.any fun t => t.entries.any fun e => e.cluster == cl && e.st == 1

/-- The thermal cap of a cluster passes tokens: a cap of 0 closes its gates (R306, R530). -/
def State.gateTokens (s : State) (cl : Nat) : Bool := decide (Tab.get (fun _ => 0) s.press.capCl cl < 64)

/-- A crossing is held or isolated between a die and the hub, so no token passes (R305). -/
def State.bridgeHeld (s : State) (d : Nat) : Bool := s.power.held.contains (d * 4)

/-- Members of a pleat of size `n` whose first engine is `e`. -/
def membersOf (n e : Nat) : List Nat := (List.range n).map fun j => e + j

/-- Engine of an EVAL (R338). -/
def evalEngine (m : Stream) (o : Op) : Nat := m.unit * 16 + u8At o.bytes 8

/-- Engines an operation evaluates on: one for EVAL, the members for EVAL_PLEAT. -/
def opEngines (m : Stream) (o : Op) : List Nat :=
  if o.code == 1 then [evalEngine m o]
  else if o.code == 2 then membersOf (u8At o.bytes 8) (u32At o.bytes 0x0C)
  else []

/-- An engine is free for an evaluation: nothing evaluates, tests or programs a burst on it (R45, R87, R155). -/
def State.engineFree (s : State) (e : Nat) : Bool :=
  let g := s.engine e
  g.eval.isNone && g.pleat == 0 && !g.testing && !s.arr.checks.any (fun c => c.engine == e && c.running)
    && !s.arr.jobs.any fun j => j.targets.any fun t => t.engine == e && t.stage == 2 && t.burst != 0

/-- Engine streams that an operation consumes: T0 sources have bit 31 clear (R340), CADDR space 2 is a stream (R333). -/
def Step.sources_ (t : Step) (m : Stream) (o : Op) : List Nat :=
  if isVector o.code then
    let a := u32At o.bytes 8
    let b := u32At o.bytes 0xC
    let two := decide (0x10 ≤ o.code ∧ o.code ≤ 0x13)
    (if bit a 31 then [m.unit * 16 + a % 16] else []) ++ (if two && bit b 31 then [m.unit * 16 + b % 16] else [])
  else if isPe o.code then
    match t.params[u32At o.bytes 0xC]? with
    | none => []
    | some p => (if u32At p 8 / 2 ^ 30 == 2 then [m.unit * 384 + u32At p 8 % 512] else [])
        ++ (if u32At p 0xC / 2 ^ 30 == 2 then [m.unit * 384 + u32At p 0xC % 512] else [])
  else []

/-- The streams an operation consumes have a block of its step for it, and an evaluation's engine queues fewer than 2 (R346,
R347). -/
def State.streamReady (s : State) (t : Step) (m : Stream) (o : Op) : Bool :=
  let src := t.sources_ m o
  let kind := if isPe o.code then 2 else 1
  let has := fun e => countIf (fun b : Nat × Nat × List (Int × Bool) => b.1 == t.uid && b.2.1 == kind) (s.engine e).blocks
  src.all (fun e => decide (countIf (· == e) src ≤ has e))
    && (if o.code == 1 then decide ((s.engine (evalEngine m o)).blocks.length < 2)
        else if o.code == 2 then decide ((s.engine (u32At o.bytes 0xC + u8At o.bytes 8 - 1)).blocks.length < 2)
        else true)

/-- The operation's unit is free, and the Press token it needs can be granted (R37, R111, R236, R344). -/
def State.unitFree (s : State) (m : Stream) (o : Op) : Bool :=
  if o.code == 1 || o.code == 2 then
    (opEngines m o).all (fun e => s.engineFree e) && s.gateTokens m.clusterNo
      && !(s.steps.any fun u => u.streams.any fun n => n.ops.any fun p => p.stage == 1 && (p.code == 1 || p.code == 2)
        && (opEngines n p).any fun e => (opEngines m o).contains e)
  else if isVector o.code then !s.anyOp (fun n => !n.cluster && n.unit == m.unit) (fun p => isVector p.code)
  else if isPe o.code then
    s.gateTokens m.clusterNo && !s.anyOp (fun n => n.cluster && n.unit == m.unit) (fun p => isPe p.code)
  else if o.code == 0x20 || o.code == 0x21 then
    !m.cluster || (!s.anyOp (fun n => n.cluster && n.unit == m.unit) (fun p => p.code == 0x20 || p.code == 0x21)
      && !s.entryBusy m.unit)
  else if isPegWait o.code then !m.ops.any fun p => isPegWait p.code && (p.stage == 1 || p.stage == 2)
  else true

/-- The block of R495 that an operation runs on. -/
def opBlock (m : Stream) (o : Op) : Nat := if isPe o.code then 1 else if m.cluster && (o.code == 0x20 || o.code == 0x21) then 2 else 0

/-- Everything R344 asks for but the gate and the streams. -/
def State.opReady (s : State) (t : Step) (m : Stream) (op : Nat) (o : Op) : Bool :=
  s.mayStart (opBlock m o) && s.alive t && o.stage == 0 && depsMet m op o && s.unitFree m o

/-! ### Fetching the streams (R349) -/

/-- Slots of the first `n` operations of a stream. -/
def Stream.slotsTo (m : Stream) (n : Nat) : Nat := ((m.ops.take n).map fun o => o.bytes.length / 32).foldl (· + ·) 0

/-- The slots of operation `op` have been fetched. -/
def Stream.has (m : Stream) (op : Nat) : Bool := decide (m.slotsTo (op + 1) ≤ m.fetched)

/-- Slots that the hub fetches ahead of the first operation not started (log entry 45). -/
def fetchAhead : Nat := 256

/-- The hub fetches a stream ahead. -/
def Stream.fetch (m : Stream) : Stream :=
  let first := (m.ops.findIdx? fun o => !o.begun).getD m.ops.length
  { m with fetched := max m.fetched (min (m.slotsTo m.ops.length) (m.slotsTo first + fetchAhead)) }

/-- The tier that holds a step's image can be read by the hub: T2 behind an open hem, or the host (R308, R349). -/
def State.imageReady (s : State) (t : Step) : Bool := if t.imgTier = 4 then s.hostUp else !s.power.closed.contains 8

/-- The hub fetches the streams of a bound step ahead, as far as its image can be read. -/
def State.fetchStreams (s : State) (t : Step) : Step :=
  if t.bound && s.imageReady t then { t with streams := t.streams.map Stream.fetch } else t

/-- The hub fetches the streams of the step of descriptor `uid` ahead. -/
def State.fetchStep (s : State) (uid : Nat) : State := s.modStep uid fun t => s.fetchStreams t

/-! ### Buffers of a step (R273, R329) -/

/-- Handle of a buffer slot of a step. -/
def Step.handle (t : Step) (slot : Nat) : Nat := (t.bufs.getD slot (0, 0)).1

/-- A range of a transfer lies in a buffer. -/
def Buf.holds (b : Buf) (h space u o : Nat) : Bool :=
  b.tier == space && (if space == 2 then u == h else b.loc == u && decide (b.base ≤ o ∧ o < b.base + b.size))

/-- A buffer is named by a bound step, by a transfer or programming job in progress, by a mirror, or by a camera context (R273,
R479, R583). -/
def State.inUse (s : State) (h : Nat) : Bool :=
  let b := s.buf (h / 256)
  s.steps.any (fun t => t.bound && t.bufs.any fun b => b.1 == h)
    || s.rings.dma.any (fun j => b.holds h j.srcSpace j.srcUnit j.srcOff || b.holds h j.dstSpace j.dstUnit j.dstOff)
    || s.arr.jobs.any (fun j => j.imgHandle == h || j.listHandle == h)
    || s.csi.ctxs.any (fun c => c.2.handle == h)
    || (List.range 64).any fun k => s.flag (R.CHAIN_MIRROR_VALID k) && s.rd (R.CHAIN_MIRROR_LOCAL_HANDLE k) == h

end Sys2Proof.Machine
end

