-- ==== Sys2Proof/Machine/PegOps.lean ====
section
/-!
DEFINITION. Pegs: their values at their homes, the two operations that change them, waits and their release, host
shadows and aliases (R354 to R377).
-/

namespace Sys2Proof.Machine

/-! ### Hems and crossings (R302, R305, R308) -/

/-- A domain number for what lies in the hub itself, which has no hem. -/
def hubSide : Nat := 10

/-- The crossings between two domains: two dies adjacent in a column have a bridge, and every other route goes through the
hub (R295, R302). Domain 9 is the serdes. -/
def crossings (a b : Nat) : List Nat :=
  if decide (a < 8 ∧ b < 8 ∧ a / 4 = b / 4 ∧ a + 1 = b) then [a * 4 + 2, b * 4 + 1]
  else if decide (a < 8 ∧ b < 8 ∧ a / 4 = b / 4 ∧ b + 1 = a) then [a * 4 + 1, b * 4 + 2]
  else (if a < 8 then [a * 4] else []) ++ (if b < 8 then [b * 4] else []) ++ (if a = 9 ∨ b = 9 then [serdesCrossing] else [])

/-- A crossing on the way from domain `own` to domain `b` is held (R305). -/
def State.heldTo (s : State) (own b : Nat) : Bool := own != b && (crossings own b).any fun x => s.power.held.contains x

/-- No token of the transfer `key` passes from domain `own` to domain `b` now: its hem has closed, and not admitted the transfer, or a
crossing on the way is held (R305, R308). -/
def State.blockedFor (s : State) (key : Nat × Nat × Nat) (own b : Nat) : Bool :=
  (own != b && s.power.closed.contains b && !s.power.admitted.contains key) || s.heldTo own b

/-- A packet has met the closed hem of a domain: a die counts it (R308). -/
def State.returned (s : State) (d : Nat) : State := if d < 8 then s.bump (R.DIE_HEM_STATUS_RETURNED d) 1 else s

/-! ### Pegs -/

/-- The wait is on this peg. -/
def Wait.on (w : Wait) (l : PegLoc) : Bool := w.tier == l.tier && w.unit == l.unit && w.addr == l.addr

/-- A waiter or signaller ID (R377). -/
def pegId (kind inst unit : Nat) : Nat := kind * 2 ^ 28 + inst * 2 ^ 23 + unit % 2 ^ 23

/-- Key of a T0 peg. -/
def t0PegKey (core n : Nat) : Nat := core * 256 + n

/-- A T0 peg lies in a unit assigned to the instance (R355). -/
def State.pegAssigned (s : State) (i core n : Nat) : Bool :=
  decide (n < 256) && Tab.get (fun _ => 0) s.pegs.owner (core * 4 + n / 64) = i + 1

/-- The instance may operate on the peg: an assigned T0 unit, or a word of a live buffer of its own (R355, R366). -/
def State.pegAllowed (s : State) (i : Nat) (l : PegLoc) : Bool :=
  if l.tier = 0 then s.pegAssigned i l.unit l.addr
  else decide (l.tier ≤ 2 ∧ l.addr % 8 = 0) && s.inBuffer i l.tier l.unit l.addr 8

/-- A device peg's word where it lies; an unwritten T1 granule gives 0 and counts nothing (R356). -/
def State.pegWord (s : State) (i : Nat) (l : PegLoc) : Nat :=
  if l.tier = 0 then Tab.get (fun _ => 0) s.pegs.t0 (t0PegKey l.unit l.addr)
  else if l.tier = 1 then
    leNat ((List.range 8).map fun j => s.mem.sramByte 1 i (sramKey 1 l.unit l.addr + j))
  else match s.live l.unit with
    | none => 0
    | some b => leNat ((List.range 8).map fun j => s.mem.t2Byte (s.key i) (b.phys (l.addr + j)))

/-- A device peg's value at its home: the hub peg unit holds a T2 peg that has a registered waiter in its own store (R371). -/
def State.pegValue (s : State) (i : Nat) (l : PegLoc) : Nat :=
  match (if l.tier = 2 then s.pegs.waits.find? fun w => w.on l else none) with
  | some w => w.hub
  | none => s.pegWord i l

/-- A peg operation finds its T1 word: a granule whose written-bit is clear becomes written (R275, R356). -/
def State.pegTouch (s : State) (i : Nat) (l : PegLoc) : State :=
  let g := s.mem.granule 1 (sramKey 1 l.unit l.addr / 64)
  if l.tier = 1 ∧ g.tag = i ∧ !g.written then (s.sramWrite 1 i l.unit l.addr (leBytes 8 0)).1 else s

/-- The word lies in poisoned memory (R604). -/
def State.pegPoisoned (s : State) (i : Nat) (l : PegLoc) : Bool :=
  if l.tier = 1 then
    let g := s.mem.granule 1 (sramKey 1 l.unit l.addr / 64)
    decide (g.tag = i) && g.poison
  else if l.tier = 2 then
    match s.live l.unit with
    | none => false
    | some b => s.mem.t2Bad (b.phys l.addr / 64)
  else false

/-- Write a device peg at its home (R356, R357). -/
def State.pegStore (s : State) (i : Nat) (l : PegLoc) (v : Nat) : State :=
  if l.tier = 0 then
    { s with pegs := { s.pegs with t0 := Tab.put (fun _ => 0) s.pegs.t0 (t0PegKey l.unit l.addr) (v % 2 ^ 64) } }
  else if l.tier = 1 then (s.sramWrite 1 i l.unit l.addr (leBytes 8 v)).1
  else
    let keep := fun (w : Wait) => if w.on l then { w with hub := v } else w
    { (s.t2Write i l.unit l.addr (leBytes 8 v)).1 with pegs := { s.pegs with waits := s.pegs.waits.map keep } }

/-- The value an ADD or SET leaves (R357, R360). -/
def pegResult (compat set : Bool) (old v : Nat) : Nat :=
  if set then v % 2 ^ 64
  else if compat then old - old % 2 ^ 32 + (old + v) % 2 ^ 32
  else (old + v) % 2 ^ 64

/-- The condition of a wait (R357, R360). -/
def waitHolds (compat ge : Bool) (peg v : Nat) : Bool :=
  let m := if compat then 2 ^ 32 else 2 ^ 64
  let d := (peg % m + m - v % m) % m
  if ge then decide (d < m / 2) else d == 0

/-- The wait table of a home (R370): key and capacity. -/
def homeSize (tier : Nat) : Nat := if tier = 0 then 32 else if tier = 1 then 64 else 512

/-- Registered waits at the home of a peg. -/
def State.waitsAt (s : State) (l : PegLoc) : Nat :=
  countIf (fun w => w.tier == l.tier && (l.tier == 2 || w.unit == l.unit)) s.pegs.waits

/-- The function's MSI-X vector of an MSIX field 1–8 (R369). -/
def State.pegMsix (s : State) (i m : Nat) : State := if m = 0 then s else s.msix i (m - 1)

/-- A wait completes: its stream operation or its PEG_WAIT descriptor does, and its vector is sent (R359, R369). -/
def State.finishWait (s : State) (w : Wait) (v : Nat) : State :=
  let s1 := match w.desc with
    | some uid => s.complete uid St.ok (v % 2 ^ 32)
    | none => s.opDone w.step w.stream w.op
  s1.pegMsix w.inst w.msix

/-- After an ADD or SET, the waits of the peg whose condition holds complete, oldest first (R359). -/
def State.releaseWaits (s : State) (l : PegLoc) (v : Nat) : State :=
  let hit := fun (w : Wait) => w.on l && waitHolds w.compat w.ge v w.value
  let go := s.pegs.waits.filter hit
  let s1 := { s with pegs := { s.pegs with waits := s.pegs.waits.filter fun w => !hit w } }
  go.foldl (fun s w => s.finishWait w v) s1

/-! ### What is a peg (R331, R364, R376) -/

/-- A PEG_PLAN entry's peg: T2 entries name a buffer slot of the step. -/
def Step.planLoc (t : Step) (e : List Nat) : PegLoc :=
  let tier := u8At e 0
  ⟨tier, if tier = 2 then t.handle (u32At e 4) else u32At e 4, u64At e 8⟩

/-- The target of alias `a` of function `f`: TARGET_TIER 1–3 select T0 to T2. -/
def State.aliasLoc (s : State) (f a : Nat) : PegLoc :=
  ⟨s.rd (R.ALIAS_TARGET_TIER_TIER f a) - 1, s.rd (R.ALIAS_TARGET_UNIT_UNIT f a), s.rd (R.ALIAS_TARGET_ADDR_ADDR f a)⟩

/-- The alias is enabled (TARGET_TIER 1–3). -/
def State.aliasOn (s : State) (f a : Nat) : Bool :=
  decide (1 ≤ s.rd (R.ALIAS_TARGET_TIER_TIER f a) ∧ s.rd (R.ALIAS_TARGET_TIER_TIER f a) ≤ 3)

/-- A word is a peg: a T0 peg, or a word that a bound step's plan, an alias target or a registered wait names (R376). -/
def State.isPeg (s : State) (l : PegLoc) : Bool :=
  if l.tier = 0 then decide (l.addr < 256 ∧ l.unit < nCores)
  else decide (l.addr % 8 = 0)
    && (s.steps.any (fun t => t.bound && t.plan.any fun e => t.planLoc e == l)
      || (s.pegs.waits.any fun w => w.on l)
      || (List.range 17).any fun f => (List.range 64).any fun a => s.aliasOn f a && s.aliasLoc f a == l)

/-- The peg's last signaller, of a word that is a peg (R376). -/
def State.setSignaller (s : State) (l : PegLoc) (id : Nat) : State :=
  let rest := s.pegs.last.filter fun e => !(e.1 == l.tier && e.2.1 == l.unit && e.2.2.1 == l.addr)
  if s.isPeg l then { s with pegs := { s.pegs with last := rest ++ [(l.tier, l.unit, l.addr, id, s.now)] } } else s

/-- A word that is about to be named by a plan, an alias or a wait: if it has been no peg, it has no last signaller (R376). -/
def State.becomesPeg (s : State) (l : PegLoc) : State :=
  if s.isPeg l then s
  else { s with pegs := { s.pegs with last := s.pegs.last.filter fun e => !(e.1 == l.tier && e.2.1 == l.unit && e.2.2.1 == l.addr) } }

/-- ADD or SET on a device peg at its home (R357 to R359); on a mirrored word it travels as a PEG flit (R585). -/
def State.pegOp (s : State) (i : Nat) (l : PegLoc) (compat set : Bool) (v id : Nat) : State :=
  match (if l.tier = 2 then s.mirrorOf i l.unit else none) with
  | some k =>
    s.sendFlit (s.rd (R.CHAIN_MIRROR_DEVICE k)) i (.peg (s.rd (R.CHAIN_MIRROR_REMOTE_HANDLE k)) l.addr set v)
  | none =>
    let n := pegResult compat set (s.pegValue i l) v
    ((s.pegStore i l n).setSignaller l id).releaseWaits l n

/-- Shadow of a host peg of a step (R367). -/
def State.shadow (s : State) (uid a : Nat) : Nat :=
  match s.pegs.shadows.find? fun e => e.1 == uid && e.2.1 == a with
  | some e => e.2.2
  | none => 0

/-- Set a shadow and write all 8 bytes to host memory (R367). -/
def State.setShadow (s : State) (uid a v : Nat) : State :=
  let rest := s.pegs.shadows.filter fun e => !(e.1 == uid && e.2.1 == a)
  ({ s with pegs := { s.pegs with shadows := rest ++ [(uid, a, v % 2 ^ 64)] } } : State).hostWrite
    (((s.step? uid).map Step.inst).getD 0) a (leBytes 8 v)

/-- COMPAT32 of an instance. -/
def State.compat (s : State) (i : Nat) : Bool := s.flag (R.INST_STATUS_PEG_CTRL_COMPAT32 i)

/-- Register a wait: the condition is tested at once; a full table refuses it until 250 ns later (R359, R370). -/
def State.register (s : State) (w : Wait) : State :=
  let l : PegLoc := ⟨w.tier, w.unit, w.addr⟩
  if homeSize w.tier ≤ s.waitsAt l then
    ({ s with pegs := { s.pegs with retries := s.pegs.retries ++ [⟨w, s.now + 250⟩] } } : State).bump
      (R.INST_STATUS_PEG_COUNT_TABLE_FULL w.inst) 1
  else
    let v := s.pegValue w.inst l
    let s1 := (s.becomesPeg l).pegTouch w.inst l
    if waitHolds w.compat w.ge v w.value then s1.finishWait w v
    else { s1 with pegs := { s1.pegs with waits := s1.pegs.waits ++ [{ w with hub := if w.tier = 2 then v else 0 }] } }

/-- ID of a stream as waiter or signaller (R377). -/
def streamId (i : Nat) (m : Stream) : Nat := pegId (if m.cluster then 2 else 1) i m.unit

/-! ### Alias writes (R310, R364 to R366) -/

/-- The check of R366: the target is enabled and the instance may operate on it. -/
def State.aliasOk (s : State) (f a : Nat) : Bool := s.aliasOn f a && s.pegAllowed f (s.aliasLoc f a)

/-- Hem domain of a peg's home: its die, or HBM for T2 (R308). -/
def pegDomain (l : PegLoc) : Nat :=
  if l.tier = 0 then dieOf (clusterOf l.unit) else if l.tier = 1 then dieOf l.unit else 8

/-- A write held behind a closed hem or a held crossing, or discarded when the queue is full (R310). -/
def State.post (s : State) (p : Posted) : State :=
  if s.pegs.posted.length < 256 then { s with pegs := { s.pegs with posted := s.pegs.posted ++ [p] } }
  else
    let s0 := if p.dom < 8 then s.bump (R.DIE_HEM_DROP_COUNT p.dom) 1 else s
    s0.raise Rc.hemDrop deviceClass noOwner p.dom p.fn

/-- Key of the low word held for alias `a`. -/
def lowKey (f a : Nat) (set : Bool) : Nat := f * 256 + a * 2 + b2n set

/-- A write to ADD or SET of alias `a` acts on its target (R365): `width` 8 is the whole value, 4 the word at `part`, 0 = low. -/
def State.aliasAct (s : State) (f a part width v : Nat) (set : Bool) (l : PegLoc) (compat : Bool) : State :=
  let k := lowKey f a set
  let held := Tab.get (fun _ => 0) s.pegs.low k
  let put := fun (s : State) (n : Nat) => { s with pegs := { s.pegs with low := Tab.put (fun _ => 0) s.pegs.low k n } }
  let op := fun (s : State) (n : Nat) => if s.pegAllowed f l then s.pegOp f l compat set n (pegId 4 f a) else s
  if width = 8 then op s (v % 2 ^ 64)
  else if compat then (if part = 0 then op s (v % 2 ^ 32) else s)
  else if part = 0 then put s (v % 2 ^ 32 + 1)
  else if held = 0 then s
  else op (put s 0) ((v % 2 ^ 32) * 2 ^ 32 + (held - 1))

/-- A write to ADD or SET reaches the hub: its target is checked, and it is held where the way to it is closed (R305, R310, R366). -/
def State.aliasTake (s : State) (f a part width v : Nat) (set : Bool) : State :=
  let l := s.aliasLoc f a
  if !s.aliasOk f a then s.setFlag (R.ALIAS_STATUS_DROPPED f a) true
  else if s.power.closed.contains (pegDomain l) || s.heldTo hubSide (pegDomain l) then
    s.post ⟨pegDomain l, f, 0x2000 + a * 0x40 + 8 * b2n set + 4 * part, v, width, some l, s.compat f⟩
  else s.aliasAct f a part width v set l (s.compat f)

end Sys2Proof.Machine
end

