-- ==== Sys2Proof/Machine/Rings.lean ====
section
/-!
DEFINITION. Rings and doorbells: the meanings of doorbells, descriptor fetch, completion records, the descriptors NOP
and FENCE, and the writes of WR_CTRL, DR_CTRL and EV_CTRL (R383 to R390, R397, R401 to R410).
-/

namespace Sys2Proof.Machine

/-! ### Doorbells (R385, R386) -/

/-- A function number. -/
def fnOk (f : Nat) : Bool := decide (f ≤ 16)
/-- A ring number. -/
def ringOk (f w : Nat) : Bool := decide (f ≤ 16 ∧ w < 16)

/-- The compute dies on which an instance's work lies: those of its cores; any die for an instance with none. -/
def State.instDies (s : State) (i : Nat) : List Nat :=
  match (s.inst i).cores with
  | [] => List.range 8
  | cs => (List.range 8).filter fun d => cs.any fun c => dieOf (clusterOf c) == d

/-- The first of them behind a closed hem (R310). -/
def State.closedFor (s : State) (i : Nat) : Option Nat :=
  (s.instDies i).find? fun d => s.power.closed.contains d

/-- A doorbell refused (R386). -/
def State.badBell (s : State) (f off v : Nat) : State :=
  (s.bump (R.RING_ERR_DB_INVALID f) 1).raise Rc.doorbellInvalid instClass f off v

/-- The value obeys R385. -/
def bellForm (v size : Nat) : Bool := decide (v / 131072 = 0 ∧ v % 65536 < size)

/-- The instance's state lets its doorbells be accepted (R412). -/
def State.takesBells (s : State) (f : Nat) : Bool :=
  match (s.inst f).st with
  | .ready => true
  | .resetting => true
  | _ => false

/-- The last value accepted by a doorbell, which a read returns (R385). -/
def State.setBell (s : State) (f off v : Nat) : State :=
  { s with rings := { s.rings with bells := Tab.put (fun _ => 0) s.rings.bells (fnKey f off) v } }

/-- Work ring `w` runs: enabled, and not stopping. -/
def State.workOn (s : State) (f w : Nat) : Bool :=
  s.flag (R.WR_CTRL_ENABLE f w) && !s.rings.stopping.contains (f * 16 + w)

/-- A work-ring doorbell at the hub (R386). -/
def State.workBell (s : State) (f w v : Nat) : State :=
  let z := s.wrSize f w
  let tail := posOf (s.rd (R.WR_TAIL_POSITION f w)) z
  let head := posOf (s.rd (R.WR_HEAD_POSITION f w)) z
  if s.takesBells f && s.workOn f w && bellForm v z
      && decide (posCount (posOf v z) tail z ≤ z - posCount tail head z) then
    (s.wr (R.WR_TAIL_POSITION f w) v).setBell f (4 * w) v
  else s.badBell f (4 * w) v

/-- A done-ring doorbell at the hub (R386). -/
def State.doneBell (s : State) (f d v : Nat) : State :=
  let z := s.drSize f d
  let tail := posOf (s.rd (R.DR_TAIL_POSITION f d)) z
  let head := posOf (s.rd (R.DR_HEAD_POSITION f d)) z
  if s.takesBells f && s.flag (R.DR_CTRL_ENABLE f d) && bellForm v z
      && decide (posCount (posOf v z) head z ≤ posCount tail head z) then
    (s.wr (R.DR_HEAD_POSITION f d) v).setBell f (0x100 + 4 * d) v
  else s.badBell f (0x100 + 4 * d) v

/-- An event-ring doorbell at the hub (R386); slots freed by it let the marker of R596 be written. -/
def State.eventBell (s : State) (f v : Nat) : State :=
  let z := s.evSize f
  let tail := posOf (s.rd (R.EV_TAIL_POSITION f)) z
  let head := posOf (s.rd (R.EV_HEAD_POSITION f)) z
  if s.takesBells f && s.flag (R.EV_CTRL_ENABLE f) && bellForm v z
      && decide (posCount (posOf v z) head z ≤ posCount tail head z) then
    ((s.wr (R.EV_HEAD_POSITION f) v).setBell f 0x200 v).overflowMarker f
  else s.badBell f 0x200 v

/-- A doorbell lies at this word offset of the doorbell page (R385); the others are reserved (R18). -/
def bellAt (off : Nat) : Bool := decide (off < 0x40 ∨ (0x100 ≤ off ∧ off < 0x140) ∨ (0x200 ≤ off ∧ off < 0x204))

/-- The doorbell at an offset of the doorbell page. -/
def State.bell (s : State) (f off v : Nat) : State :=
  if off < 0x40 then s.workBell f (off / 4) v
  else if 0x100 ≤ off ∧ off < 0x140 then s.doneBell f ((off - 0x100) / 4) v
  else if 0x200 ≤ off ∧ off < 0x204 then s.eventBell f v
  else s

/-- A host write of `width` bytes to a doorbell (R385, R386, R310, R499). A VF that is not enabled takes no access. -/
def State.bellWrite (s : State) (f off v width : Nat) : State :=
  if !s.hubUp || (s.inst f).st == .parked then s
  else if width ≠ 4 then (s.badBell f off v).pcieTouch f
  else match s.closedFor f with
    | some d => (s.post ⟨d, f, off, v, 4, none, false⟩).pcieTouch f
    | none => (s.bell f off v).pcieTouch f

/-- WORK_RING_DOORBELL (R386). -/
def execWorkRingDoorbell (f w value bytes : Nat) (s : State) : Host.Outcome State Fault Refusal :=
  unit (ringOk f w) ((s.dropHeld f).bellWrite f (4 * w) value bytes)

/-- DONE_RING_DOORBELL (R386). -/
def execDoneRingDoorbell (f d value bytes : Nat) (s : State) : Host.Outcome State Fault Refusal :=
  unit (ringOk f d) ((s.dropHeld f).bellWrite f (0x100 + 4 * d) value bytes)

/-- EVENT_RING_DOORBELL (R386, R596). -/
def execEventRingDoorbell (f value bytes : Nat) (s : State) : Host.Outcome State Fault Refusal :=
  unit (fnOk f) ((s.dropHeld f).bellWrite f 0x200 value bytes)

/-! ### Fetch (R387 to R390, R579, R580) -/

/-- DETAIL of a descriptor that ends before anything of it ran (R405). -/
def failDetail (t : Nat) : Nat :=
  if t == 0x01 || t == 0x05 || t == 0x06 || t == 0x0B || t == 0x0C then 0xFFFFFFFF else 0

/-- The check of a fetched descriptor: R390, and for a DMA_COPY with a completion peg the check of its alias (R395). -/
def State.fetchStatus (s : State) (f : Nat) (b : List Nat) : Nat :=
  let st := descStatus s.isMaster (s.inst f).broad s.inChain f b
  if st ≠ St.ok then st
  else if dType b == 0x02 && dDevice b == 0 && bit (u8At b 0x12) 0 && !s.aliasOk f (u8At b 0x13) then St.pegArgInvalid
  else if dDevice b ≠ 0 ∧ !s.reachable (dDevice b) then St.chainTarget
  else St.ok

/-- Read the slot at WR_HEAD of a work ring, advance WR_HEAD, and check the descriptor (R387, R388, R390). -/
def State.fetchOne (s : State) (f w : Nat) : State :=
  let z := s.wrSize f w
  let p := posOf (s.rd (R.WR_HEAD_POSITION f w)) z
  let b := s.hostRead (s.rd (R.WR_BASE_BASE f w) * 4096 + (p % z) * 64) 64
  let d : Desc := ⟨s.rings.nextUid, f, w, p % z, (s.inst f).gen, b, false, none, s.now⟩
  let s1 := s.wr (R.WR_HEAD_POSITION f w) (regOf (posNext p z) z)
  let s2 : State := { s1 with rings := { s1.rings with nextUid := s1.rings.nextUid + 1, descs := s1.rings.descs ++ [d] } }
  let st := s.fetchStatus f b
  if st ≠ St.ok then s2.complete d.uid st (failDetail (dType b)) else s2.busyNow

/-- Slots announced and not fetched. -/
def State.announced (s : State) (f w : Nat) : Nat :=
  let z := s.wrSize f w
  posCount (posOf (s.rd (R.WR_TAIL_POSITION f w)) z) (posOf (s.rd (R.WR_HEAD_POSITION f w)) z) z

/-- The hub may read slots of a work ring (R388, R401, R407, R412, R609). -/
def State.mayFetch (s : State) (f w : Nat) : Bool :=
  s.mayStart 4 && s.fwUp && s.linkOpen && (s.inst f).st == .ready && s.workOn f w
    && !(s.rings.held.any fun h => h.inst == f && h.done == s.doneRing f w)

/-- Slots of a work ring wait for a read that may be made. -/
def State.wantsFetch (s : State) (k : Nat) : Bool := s.mayFetch (k / 16) (k % 16) && decide (0 < s.announced (k / 16) (k % 16))

/-- Round-robin (R388): no other work ring with slots to read comes before ring `w` of instance `f`, counted from the one after
the ring read last. -/
def State.myTurn (s : State) (f w : Nat) : Bool :=
  let rank := fun (k : Nat) => (k + 272 - s.rings.turn) % 272
  (List.range 272).all fun k => !(decide (rank k < rank (f * 16 + w)) && s.wantsFetch k)

/-- One read of up to 8 slots (R388), in the ring's turn. -/
def State.fetch (s : State) (f w n : Nat) : State :=
  s.when (s.mayFetch f w && s.myTurn f w && decide (0 < min n (s.announced f w))) fun s =>
    (List.range (min (min n 8) (s.announced f w))).foldl (fun s _ => s.fetchOne f w)
      { s with rings := { s.rings with turn := (f * 16 + w + 1) % 272 } }

/-- Descriptors of a ring for another device of the chain leave in DESC flits, each when it may start (R388, R401, R579). -/
def State.forwardReady (s : State) (f w : Nat) : Nat → State
  | 0 => s
  | n + 1 => match s.firstWaiting f w with
    | none => s
    | some d =>
      if dDevice d.bytes ≠ 0 && d.fromDev.isNone && s.mayBegin f w then
        ((s.started d.uid).sendFlit (dDevice d.bytes) f (.desc w d.slot d.bytes)).forwardReady f w n
      else s

/-- Every descriptor of a ring that may leave for another device leaves. -/
def State.forwardAll (s : State) (f w : Nat) : State := s.forwardReady f w s.rings.descs.length

/-- DESCRIPTOR_FETCH (R388): a read of up to `n` slots, none with `n` = 0, after which the forwarded descriptors whose turn has come
leave (log entry 17). -/
def execDescriptorFetch (f w n : Nat) (s : State) : Host.Outcome State Fault Refusal :=
  unit (ringOk f w) ((s.fetch f w n).forwardAll f w)

/-! ### NOP and FENCE -/

/-- NOP: it completes as it starts (R391). -/
def State.nopDesc (s : State) (f w : Nat) : State := s.onDesc f w 0x00 fun s d => s.complete d.uid St.ok 0

/-- NOP (R391). -/
def execNop (f w : Nat) (s : State) : Host.Outcome State Fault Refusal := unit (ringOk f w) (s.nopDesc f w)

/-- The descriptors a FENCE waits for have completed (R397). -/
def State.fenceMet (s : State) (d : Desc) : Bool :=
  !s.rings.descs.any fun e =>
    decide (e.uid < d.uid) && e.inst == d.inst && (u8At d.bytes 0x10 == 1 || e.ring == d.ring)

/-- FENCE: it starts when R397 is met, and completes as it starts. -/
def State.fence (s : State) (f w : Nat) : State :=
  match s.begin f w 0x09 with
  | none => s
  | some d => if s.fenceMet d then (s.started d.uid).complete d.uid St.ok 0 else s

/-- FENCE (R397). -/
def execFence (f w : Nat) (s : State) : Host.Outcome State Fault Refusal := unit (ringOk f w) (s.fence f w)

/-! ### Completion records (R403 to R408) -/

/-- The CLIP_HIGH record of the step, if it raised one, has reached its event ring (R215). -/
def State.clipTold (s : State) (c : CRec) : Bool :=
  !s.errs.toRings.any fun j => j.record.code == Rc.clipHigh && j.ring == c.inst && j.record.info0 == c.descId

/-- The host writes that the work of the record issued are acknowledged (R29, R406). -/
def State.outputsThere (s : State) (c : CRec) : Bool := !s.chain.hostWrites.any fun w => c.after.contains w.1

/-- A record may be written or held now: the host writes of its work are acknowledged (R406), and its CLIP_HIGH has gone before it
(R215). One for another device goes at once; one of this device when the host is there, and its done ring has a slot or fewer
than 64 records of its instance are held (R407). -/
def State.mayDeliver (s : State) (c : CRec) : Bool :=
  s.outputsThere c && s.clipTold c && (c.fromDev.isSome
    || (s.linkOpen && (s.doneTakes c || decide (countIf (fun h => h.inst == c.inst) s.rings.held < 64))))

/-- A record due is written to its done ring, or held; a device that is not the master sends it there (R579). -/
def State.writeOne (s : State) (c : CRec) : State :=
  let s1 : State := { s with rings := { s.rings with due := s.rings.due.erase c } }
  match c.fromDev with
  | some m => s1.sendFlit m c.inst (.record 0 c.ring c.slot (c.bytes false (s.now % 2 ^ 32)))
  | none => s1.deliverDone c

/-- The first record due that may be delivered is delivered. -/
def State.writeRecord (s : State) : State :=
  match s.rings.due.find? s.mayDeliver with
  | none => s
  | some c => if s.hubUp then s.writeOne c else s

/-- COMPLETION_RECORD_WRITE (R406, R408). -/
def execCompletionRecordWrite (s : State) : Host.Outcome State Fault Refusal := done s.writeRecord

/-- The oldest held record of a done ring is written once a slot is free (R407). -/
def State.releaseHeld (s : State) (f d : Nat) : State :=
  let mine := fun (c : CRec) => c.inst == f && c.done == d
  match s.rings.held.find? mine with
  | none => s
  | some c =>
    if s.hubUp && s.linkOpen && s.flag (R.DR_CTRL_ENABLE f d) && decide (0 < s.drFree f d) then
      let s1 : State := { s with rings := { s.rings with held := s.rings.held.erase c } }
      (s1.writeDone f d (fun ph => c.bytes ph (s.now % 2 ^ 32)) (c.irq || decide (c.status ≠ St.ok))).wr
        (R.DR_STATUS_HELD f d) (countIf mine s.rings.held - 1)
    else s

/-- The records of an instance that can be written now are, before its ring registers go (R410, R428). -/
def State.writeOut (s : State) (i : Nat) : State :=
  let s1 := (s.rings.held.filter fun c => c.inst == i).foldl (fun (a : State) c => a.releaseHeld i c.done) s
  (s1.rings.due.filter fun c => c.inst == i).foldl (fun (a : State) c =>
    if a.hubUp && a.mayDeliver c && (c.fromDev.isSome || a.doneTakes c) then a.writeOne c else a) s1

/-- HELD_RECORD_RELEASE (R407). -/
def execHeldRecordRelease (f d : Nat) (s : State) : Host.Outcome State Fault Refusal :=
  unit (ringOk f d) (s.releaseHeld f d)

/-! ### Ring control registers -/

/-- A write of WR_CTRL. -/
def State.writeWrCtrl (s : State) (f w v : Nat) : State :=
  if s.flag (R.WR_CTRL_ENABLE f w) then
    if bit v 31 then s
    else if s.rings.descs.any fun d => d.inst == f && d.ring == w then
      { s with rings := { s.rings with stopping := (s.rings.stopping.filter (· != f * 16 + w)) ++ [f * 16 + w] } }
    else s.setFlag (R.WR_CTRL_ENABLE f w) false
  else
    let s1 := (s.wr (R.WR_CTRL_DONE_RING f w) (fld v 11 8)).wr (R.WR_CTRL_SIZE_LOG2 f w) (fld v 4 0)
    if bit v 31 && sizeOk (fld v 4 0) && decide (s.workRings f < (s.inst f).quota.getD 4 0) then
      ((s1.wr (R.WR_HEAD_POSITION f w) 0).wr (R.WR_TAIL_POSITION f w) 0).setFlag (R.WR_CTRL_ENABLE f w) true
    else s1

/-- A write of DR_CTRL. -/
def State.writeDrCtrl (s : State) (f d v : Nat) : State :=
  let soft := fun (s : State) => (s.wr (R.DR_CTRL_MSIX_EN f d) (fld v 30 30)).wr (R.DR_CTRL_VECTOR f d) (fld v 21 16)
  if s.flag (R.DR_CTRL_ENABLE f d) then
    if bit v 31 then soft s
    else if (List.range 16).any (fun w => s.flag (R.WR_CTRL_ENABLE f w) && s.doneRing f w == d)
        || s.rings.held.any (fun c => c.inst == f && c.done == d) then
      (soft s).bump (R.RING_ERR_CTRL_REFUSED f) 1
    else (soft s).setFlag (R.DR_CTRL_ENABLE f d) false
  else
    let s1 := (soft s).wr (R.DR_CTRL_SIZE_LOG2 f d) (fld v 4 0)
    if bit v 31 && sizeOk (fld v 4 0) then
      ((s1.wr (R.DR_TAIL_POSITION f d) 0).wr (R.DR_HEAD_POSITION f d) 0).setFlag (R.DR_CTRL_ENABLE f d) true
    else s1

/-- A write of EV_CTRL: as DR_CTRL, but ENABLE is never refused; the slots it frees let the marker of R596 be
written. -/
def State.writeEvCtrl (s : State) (f v : Nat) : State :=
  let s0 := (s.wr (R.EV_CTRL_MSIX_EN f) (fld v 30 30)).wr (R.EV_CTRL_VECTOR f) (fld v 21 16)
  if s.flag (R.EV_CTRL_ENABLE f) then (if bit v 31 then s0 else s0.setFlag (R.EV_CTRL_ENABLE f) false)
  else
    let s1 := s0.wr (R.EV_CTRL_SIZE_LOG2 f) (fld v 4 0)
    if bit v 31 && sizeOk (fld v 4 0) then
      (((s1.wr (R.EV_TAIL_POSITION f) 0).wr (R.EV_HEAD_POSITION f) 0).setFlag (R.EV_CTRL_ENABLE f) true).overflowMarker f
    else s1

/-- WR_CTRL_ENABLE: software writes WR_CTRL of a ring. -/
def execWrCtrlEnable (f w value : Nat) (s : State) : Host.Outcome State Fault Refusal :=
  unit (ringOk f w) (s.when s.hubUp fun s => s.cmdWrite f fun s => s.writeWrCtrl f w value)

/-- DR_CTRL_ENABLE: software writes DR_CTRL of a ring. -/
def execDrCtrlEnable (f d value : Nat) (s : State) : Host.Outcome State Fault Refusal :=
  unit (ringOk f d) (s.when s.hubUp fun s => s.cmdWrite f fun s => s.writeDrCtrl f d value)

/-- EV_CTRL_ENABLE: software writes EV_CTRL. -/
def execEvCtrlEnable (f value : Nat) (s : State) : Host.Outcome State Fault Refusal :=
  unit (fnOk f) (s.when s.hubUp fun s => s.cmdWrite f fun s => s.writeEvCtrl f value)

end Sys2Proof.Machine
end

