-- ==== Sys2Proof/Machine/Memory.lean ====
section
/-!
DEFINITION. Buffers, copies and the scrubber: the meanings of BUF_ALLOC, BUF_FREE, DMA_COPY and their ends, and of the
patrol scrubber and page moves (R264 to R279, R394, R395, R425, R604 to R607).
-/

namespace Sys2Proof.Machine

/-! ### Placing a buffer (R266, R270; the choice of place is free, log entry 13) -/

/-- Quota units of `n` bytes, rounded up. -/
def unitsFor (tier n : Nat) : Nat := (n + quotaUnit tier - 1) / quotaUnit tier

/-- Units `u … u+n-1` of T0 or T1 of one place lie in no live buffer. -/
def State.runFree (s : State) (tier loc u n : Nat) : Bool :=
  let q := quotaUnit tier
  !s.mem.bufs.any fun e => e.2.live && e.2.tier == tier && e.2.loc == loc
    && decide (e.2.base < (u + n) * q ∧ u * q < e.2.base + e.2.size)

/-- The first free run of `n` units at or after candidate `c`, going round `total` units once. -/
def State.findRun (s : State) (tier loc n total : Nat) : Nat → Nat → Option Nat
  | 0, _ => none
  | k + 1, c =>
    let u := c % total
    if decide (u + n ≤ total) && s.runFree tier loc u n then some u else s.findRun tier loc n total k (c + 1)

/-- `n` free pages, each from its own free value. -/
def State.findPages (s : State) : Nat → List Nat → Option (List Nat)
  | 0, got => some got
  | n + 1, got =>
    match s.findPage got 24560 (Config.freeNat (s.free + n)) with
    | none => none
    | some p => s.findPages n (got ++ [p])

/-- The index that the next buffer takes (R267). -/
def State.nextIndex (s : State) : Option Nat :=
  if s.mem.nextIdx ≤ 16777215 then some s.mem.nextIdx else s.mem.freed.head?

/-- The index is issued. -/
def State.takeIndex (s : State) : State :=
  if s.mem.nextIdx ≤ 16777215 then { s with mem := { s.mem with nextIdx := s.mem.nextIdx + 1 } }
  else { s with mem := { s.mem with freed := s.mem.freed.tail } }

/-- Cores and clusters in which an instance may place buffers (R264). -/
def State.mayPlace (s : State) (i tier loc : Nat) : Bool :=
  if tier = 0 then (s.inst i).cores.contains loc
  else if tier = 1 then (s.inst i).cores.any fun c => clusterOf c == loc
  else true

/-- The most bytes of a tier (R270). -/
def tierMax (tier : Nat) : Nat := if tier = 0 then 131072 else if tier = 1 then 4194304 else 51539607552

/-- The decision of R270 before the places are looked for: 0 = no row 1 to 3 applies. -/
def State.allocStatus (s : State) (i : Nat) (b : List Nat) : Nat :=
  let tier := u8At b 0x10
  let size := u64At b 0x18
  if 2 < tier ∨ size = 0 ∨ tierMax tier < size ∨ (tier = 2 ∧ u32At b 0x14 ≠ 0) ∨ 1 < u8At b 0x11 ∨ !zeroAt b 0x12 2 ∨ !zeroAt b 0x28 24 then
    St.bufArgInvalid
  else if !s.mayPlace i tier (u32At b 0x14) then St.bufLocation
  else if (s.inst i).quota.getD tier 0 < s.unitsUsed i tier + unitsFor tier size then St.bufQuota
  else St.ok

/-- The place found: base unit, or pages. -/
def State.place (s : State) (b : List Nat) : Option (Nat × List Nat) :=
  let tier := u8At b 0x10
  let n := unitsFor tier (u64At b 0x18)
  if tier = 2 then (s.findPages n []).map fun ps => (0, ps)
  else
    let total := unitBytes tier / quotaUnit tier
    (s.findRun tier (u32At b 0x14) n total total s.drawn).map fun u => (u, [])

/-- One granule of a new buffer is tagged to instance `i`, its written-bit clear; one that named another instance, or
none, is first written with zeros, which replaces poison too (R271, R425, R606). -/
def Mem.tagGranule (m : Mem) (tier i g : Nat) : Mem :=
  let gr := m.granule tier g
  if gr.tag = i then m.setGranule tier g { gr with written := false }
  else (m.setSram tier (zeroGranule (m.sram tier) g)).setGranule tier g ⟨i, false, false, 0⟩

/-- Tag every granule of a new T0 or T1 buffer. -/
def Mem.tagRange (m : Mem) (tier i loc base size : Nat) : Mem :=
  (unitsOf 64 (sramKey tier loc base) size).foldl (fun m g => m.tagGranule tier i g) m

/-- The result of R269 is written and the descriptor completes. -/
def State.allocResult (s : State) (d : Desc) (h base : Nat) : State :=
  (s.hostWrite d.inst (u64At d.bytes 0x20) (leBytes 4 h ++ leBytes 4 base)).complete d.uid St.ok h

/-- BUF_ALLOC (R268 to R271). -/
def State.allocDesc (s : State) (d : Desc) : State :=
  let b := d.bytes
  let tier := u8At b 0x10
  let st := s.allocStatus d.inst b
  if st ≠ St.ok then s.complete d.uid st 0
  else match s.place b with
    | none => s.complete d.uid St.bufNoSpace 0
    | some (u, pages) =>
      match s.nextIndex with
      | none => s.complete d.uid St.bufNoHandle 0
      | some k =>
        let size := unitsFor tier (u64At b 0x18) * quotaUnit tier
        let base := u * quotaUnit tier
        let g := (s.buf k).gen
        let h := k * 256 + g
        let s1 := (s.takeIndex.setBuf k ⟨true, g, d.inst, tier, (if tier = 2 then 0 else u32At b 0x14), base, size, pages⟩).skip
          (if tier = 2 then pages.length else 1)
        if tier = 2 then
          if bit (u8At b 0x11) 0 then { s1 with mem := { s1.mem with zeroing := s1.mem.zeroing ++ [(d.uid, k)] } }
          else s1.allocResult d h 0
        else ({ s1 with mem := s1.mem.tagRange tier d.inst (u32At b 0x14) base size } : State).allocResult d h base

/-- BUF_ALLOC (R268). -/
def execBufAlloc (f w : Nat) (s : State) : Host.Outcome State Fault Refusal :=
  unit (ringOk f w) (s.onDesc f w 0x03 fun s d => s.allocDesc d)

/-- One page of T2 filled with zeros under a key pair. -/
def Mem.zeroPage (m : Mem) (key p : Nat) : Mem := m.t2Write key (p * pageBytes) (List.replicate pageBytes 0)

/-- BUF_ALLOC_ZERO_DONE: every byte has been written with zeros; the result and the record follow (R271). -/
def State.allocZeroDone (s : State) (uid : Nat) : State :=
  match s.mem.zeroing.find? (fun z => z.1 == uid), s.desc? uid with
  | some z, some d =>
    let b := s.buf z.2
    let m := b.pages.foldl (fun m p => m.zeroPage (s.key b.owner) p) s.mem
    ({ s with mem := { m with zeroing := m.zeroing.filter (fun y => y.1 != uid) } } : State).allocResult d
      (z.2 * 256 + b.gen) 0
  | _, _ => s

/-- BUF_ALLOC_ZERO_DONE (R271). -/
def execBufAllocZeroDone (uid : Nat) (s : State) : Host.Outcome State Fault Refusal :=
  done (s.when s.hubUp fun s => s.allocZeroDone uid)

/-! ### Page retirement (R607) -/

/-- The T2 contents of a page as its owner reads them, carried to another page with their poison. -/
def Mem.movePage (m : Mem) (key p q : Nat) : Mem :=
  let b0 := p * 131072
  let mine := m.t2Key.filter fun e => decide (b0 ≤ e.1 ∧ e.1 < b0 + 131072) && e.2 == key
  let inPage := fun (k : Nat) => decide (p * 32768 ≤ k ∧ k < p * 32768 + 32768)
  let bad := (m.t2Poison.filter fun e => inPage e.1 && e.2).map Prod.fst ++ (m.t2Err.filter fun e => inPage e.1 && e.2 == 2).map Prod.fst
  let cleared : Mem := { m with
    t2Key := Tab.clearKeys (fun k => decide (q * 131072 ≤ k ∧ k < q * 131072 + 131072)) m.t2Key,
    t2Poison := Tab.clearKeys (fun k => decide (q * 32768 ≤ k ∧ k < q * 32768 + 32768)) m.t2Poison
    t2Err := Tab.clearKeys (fun k => decide (q * 32768 ≤ k ∧ k < q * 32768 + 32768 ∨ p * 32768 ≤ k ∧ k < p * 32768 + 32768)) m.t2Err }
  let m1 := mine.foldl (fun n e =>
    n.t2Write key ((q * 131072 + (e.1 - b0)) * 16) (cellsRead noByte m.t2 (e.1 * 16) 16)) cleared
  bad.foldl (fun n e =>
    { n with t2Poison := Tab.put (fun _ => false) n.t2Poison (q * 32768 + (e - p * 32768)) true }) m1

/-- PAGE_MOVE_COMPLETE: the buffer's offsets are remapped and the page left is retired (R607). -/
def State.pageMoved (s : State) (p : Nat) : State :=
  match s.errs.moves.find? fun m => m.1 == p with
  | none => s
  | some (_, q, k) =>
    let s1 : State := { s with errs := { s.errs with moves := s.errs.moves.filter fun m => m.1 != p } }
    let b := s.buf k
    if b.live && b.pages.contains p then
      let s2 : State := { s1 with mem := s1.mem.movePage (s1.key b.owner) p q }
      (s2.setBuf k { b with pages := b.pages.map fun x => if x == p then q else x }).retirePage p b.owner (k * 256 + b.gen)
    else s1.retirePage p noOwner 0

/-- PAGE_MOVE_COMPLETE (R607). -/
def execPageMoveComplete (page : Nat) (s : State) : Host.Outcome State Fault Refusal :=
  unit (decide (page < 24576)) (s.when s.hubUp fun s => s.pageMoved page)

/-! ### Freeing (R272 to R274) -/

/-- The units return to the hamper and the index to the free list; a page that waited for retirement is retired. -/
def State.freeBuf (s : State) (k : Nat) : State :=
  let b := s.buf k
  let s1 := s.setBuf k { b with live := false, gen := (b.gen + 1) % 256 }
  let s2 : State := { s1 with mem := { s1.mem with freed := s1.mem.freed ++ [k] } }
  let due := b.pages.filter fun p => s2.errs.pendRet.contains p
  let s3 : State := { s2 with errs := { s2.errs with pendRet := s2.errs.pendRet.filter fun p => !due.contains p } }
  due.foldl (fun s p => (s.wr R.HBM_POISON_PENDING (s.rd R.HBM_POISON_PENDING - 1)).retirePage p noOwner 0) s3

/-- BUF_FREE by the rows of R272. -/
def State.freeDesc (s : State) (d : Desc) : State :=
  let h := u32At d.bytes 0x10
  match s.live h with
  | none => (s.bump (R.INST_STATUS_BUF_ERRORS_FREE_REJECTED d.inst) 1).complete d.uid St.bufNotAllocated 0
  | some b =>
    if b.owner ≠ d.inst then (s.raise St.bufNotOwner instClass d.inst h b.owner).complete d.uid St.bufNotOwner 0
    else if s.inUse h then { s with mem := { s.mem with freeWaits := s.mem.freeWaits ++ [(d.uid, h)] } }
    else (s.freeBuf (h / 256)).complete d.uid St.ok 0

/-- BUF_FREE (R272). -/
def execBufFree (f w : Nat) (s : State) : Host.Outcome State Fault Refusal :=
  unit (ringOk f w) (s.onDesc f w 0x04 fun s d => s.freeDesc d)

/-- BUF_FREE_RESUME: the use of a buffer that a free waits for has ended (R272 row 4). A second free of the same handle
finds it not allocated. -/
def State.freeResume (s : State) (uid : Nat) : State :=
  match s.mem.freeWaits.find? fun w => w.1 == uid with
  | none => s
  | some (_, h) =>
    if s.inUse h then s else
    let s1 : State := { s with mem := { s.mem with freeWaits := s.mem.freeWaits.filter fun w => w.1 != uid } }
    match s1.live h, s1.desc? uid with
    | some _, some _ => (s1.freeBuf (h / 256)).complete uid St.ok 0
    | none, some d =>
      (s1.bump (R.INST_STATUS_BUF_ERRORS_FREE_REJECTED d.inst) 1).complete uid St.bufNotAllocated 0
    | _, none => s1

/-- BUF_FREE_RESUME (R273). -/
def execBufFreeResume (uid : Nat) (s : State) : Host.Outcome State Fault Refusal :=
  done (s.when s.hubUp fun s => s.freeResume uid)

/-! ### DMA_COPY (R394, R395) -/

/-- One side's range is legal (R395). -/
def State.sideOk (s : State) (i space u o n : Nat) : Bool :=
  if space ≤ 2 then s.inBuffer i space u o n
  else if space = 3 then decide (o + n ≤ flashUserBytes)
  else true

/-- The copy a DMA_COPY descriptor asks for. -/
def dmaJob (d : Desc) : DmaJob :=
  let b := d.bytes
  ⟨d.uid, u8At b 0x10, u8At b 0x11, u32At b 0x14, u32At b 0x20, u64At b 0x18, u64At b 0x28, u32At b 0x24,
    (if bit (u8At b 0x12) 0 then some (u8At b 0x13) else none), u64At b 0x30, 0⟩

/-- DMA_COPY: the ranges are checked and the copy starts (R395). -/
def State.dmaStart (s : State) (d : Desc) : State :=
  let j := dmaJob d
  if s.sideOk d.inst j.srcSpace j.srcUnit j.srcOff j.len && s.sideOk d.inst j.dstSpace j.dstUnit j.dstOff j.len then
    { s with rings := { s.rings with dma := s.rings.dma ++ [j] } }
  else s.complete d.uid St.descRange 0

/-- DMA_COPY (R394). -/
def execDmaCopy (f w : Nat) (s : State) : Host.Outcome State Fault Refusal :=
  unit (ringOk f w) (s.onDesc f w 0x02 fun s d => s.dmaStart d)

/-- Copy `n` blocks of 64 bytes from block `k` on, until a source block is poisoned: the state, the blocks copied, and
the status of the block that stopped it (R604). -/
def State.dmaBlocks (s : State) (i : Nat) (j : DmaJob) (k : Nat) : Nat → State × Nat × Nat
  | 0 => (s, k, St.ok)
  | n + 1 =>
    let r := s.readSpace i j.srcSpace j.srcUnit (j.srcOff + 64 * k) 64
    if r.2.status = St.stepPoison ∨ r.2.status = St.stepBounds then (r.1, k, r.2.status)
    else
      let w := r.1.writeSpace i j.dstSpace j.dstUnit (j.dstOff + 64 * k) r.2.bytes
      if w.2.status ≠ St.ok then (w.1, k, w.2.status) else w.1.dmaBlocks i j (k + 1) n

/-- The source bytes of a copy into a mirror, block by block, until one is poisoned. -/
def State.dmaSource (s : State) (i : Nat) (j : DmaJob) (k : Nat) : Nat → State × List Nat × Nat
  | 0 => (s, [], St.ok)
  | n + 1 =>
    let r := s.readSpace i j.srcSpace j.srcUnit (j.srcOff + 64 * k) 64
    if r.2.status = St.stepPoison ∨ r.2.status = St.stepBounds then (r.1, [], r.2.status)
    else
      let t := r.1.dmaSource i j (k + 1) n
      (t.1, r.2.bytes ++ t.2.1, t.2.2)

/-- Hem domain of one side of a copy (R308). -/
def spaceDomain (space u : Nat) : Nat :=
  if space = 0 then dieOf (clusterOf u) else if space = 1 then dieOf u else if space = 2 then 8
  else if space = 4 then 9 else hubSide

/-- Domains of the two sides of a copy. -/
def DmaJob.domains (j : DmaJob) : List Nat := [spaceDomain j.srcSpace j.srcUnit, spaceDomain j.dstSpace j.dstUnit]

/-- Neither side of the copy lies behind a closed hem or a held crossing (R305, R309). -/
def State.dmaOpen (s : State) (j : DmaJob) : Bool := !j.domains.any fun d => s.blockedFor (j.desc, 0, 0) hubSide d

/-- The way to the home of a copy's completion peg is not held (R305). -/
def State.dmaPegPasses (s : State) (i : Nat) (j : DmaJob) : Bool :=
  match j.pegAlias with
  | none => true
  | some a => !s.aliasOk i a || !s.heldTo hubSide (pegDomain (s.aliasLoc i a))

/-- The copy is over: the completion peg, if any, and then the record (R362). -/
def State.dmaEnd (s : State) (i : Nat) (j : DmaJob) : State :=
  match j.pegAlias with
  | none => s.complete j.desc St.ok 0
  | some a =>
    if !s.aliasOk i a then (s.setFlag (R.ALIAS_STATUS_DROPPED i a) true).complete j.desc St.ok 0
    else if s.power.closed.contains (pegDomain (s.aliasLoc i a)) then
      (s.returned (pegDomain (s.aliasLoc i a))).complete j.desc St.domainDown (j.len / 64)
    else (s.pegOp i (s.aliasLoc i a) (s.compat i) false j.pegValue (pegId 5 i 256)).complete j.desc St.ok 0

/-- SRC_SPACE of a copy into a mirror that poison has stopped: it ends with status `pegValue` after `len` bytes. -/
def stoppedCopy : Nat := 5

/-- Bytes of one turn of the hub DMA engine (R395). -/
def dmaPieceBytes : Nat := 65536

/-- Nothing holds up the next `n` bytes of a copy: its sides are open, its bank is not busy, its host is there (R285, R309). -/
def State.dmaFree (s : State) (j : DmaJob) (n : Nat) : Bool :=
  s.dmaOpen j && !(j.srcSpace == 3 && s.t3Busy (j.srcOff + j.moved) n) && (decide (j.srcSpace ≠ 4 ∧ j.dstSpace ≠ 4) || s.hostUp)

/-- The mirror that a copy of instance `i` writes into (R583). -/
def State.dmaMirror (s : State) (i : Nat) (j : DmaJob) : Option Nat := if j.dstSpace = 2 then s.mirrorOf i j.dstUnit else none

/-- One piece of a copy, which then stands last in the engine's round; a block that fails ends the copy (R395, R604). -/
def State.dmaPiece (s : State) (i : Nat) (j : DmaJob) : State :=
  let n := min dmaPieceBytes (j.len - j.moved)
  let rest := s.rings.dma.filter fun k => k.desc != j.desc
  if !s.dmaFree j n || (s.dmaMirror i j).isSome || n == 0 then { s with rings := { s.rings with dma := rest ++ [j] } }
  else
    let r := s.dmaBlocks i j (j.moved / 64) (n / 64)
    if r.2.2 = St.ok then { r.1 with rings := { r.1.rings with dma := rest ++ [{ j with moved := j.moved + n }] } }
    else ({ r.1 with rings := { r.1.rings with dma := rest } } : State).complete j.desc r.2.2 r.2.1

/-- The engine serves the copies of all instances in turn, a piece each, until all of copy `uid` is moved (R395). -/
def State.dmaServe (s : State) (uid : Nat) : Nat → State
  | 0 => s
  | n + 1 =>
    if !s.rings.dma.any fun k => k.desc == uid && decide (k.moved < k.len) then s
    else match s.rings.dma with
      | [] => s
      | j :: _ => match s.desc? j.desc with
        | some d => (s.dmaPiece d.inst j).dmaServe uid n
        | none => s

/-- Turns that suffice for copy `j` to come to its end. -/
def State.dmaTurns (s : State) (j : DmaJob) : Nat := ((j.len - j.moved) / dmaPieceBytes + 2) * (s.rings.dma.length + 1)

/-- A copy into a mirror leaves as DATA flits and ends with their XACKs (R583, R584). -/
def State.dmaToMirror (s : State) (d : Desc) (j : DmaJob) (k : Nat) : State :=
  let s1 : State := { s with rings := { s.rings with dma := s.rings.dma.filter fun k => k.desc != d.uid } }
  let r := s1.dmaSource d.inst j 0 (j.len / 64)
  let sent := if r.2.2 = St.ok then j
    else { j with srcSpace := stoppedCopy, len := r.2.1.length, pegAlias := none, pegValue := r.2.2 }
  if r.2.1.isEmpty then r.1.complete d.uid r.2.2 0
  else
    let w := r.1.mirrorWrite d.inst k j.dstOff r.2.1 d.uid 0 0 true
    if w.2 then { w.1 with rings := { w.1.rings with dma := w.1.rings.dma ++ [sent] } }
    else s1.complete d.uid St.domainDown 0

/-- DMA_COPY_COMPLETE: the engine's round has come to the end of copy `uid` and its last write has been acknowledged: its peg, and
then its record (R362). -/
def State.dmaDone (s : State) (uid : Nat) : State :=
  match s.rings.dma.find? (fun j => j.desc == uid), s.desc? uid with
  | some j, some d =>
    match s.dmaMirror d.inst j with
    | some k => if s.dmaFree j (j.len - j.moved) then s.dmaToMirror d j k else s
    | none =>
      let s1 := s.dmaServe uid (s.dmaTurns j)
      match s1.rings.dma.find? (fun j => j.desc == uid) with
      | none => s1
      | some j1 =>
        if j1.moved < j1.len || !s1.dmaPegPasses d.inst j1 || !s1.hostAcked d.inst then s1
        else ({ s1 with rings := { s1.rings with dma := s1.rings.dma.filter fun k => k.desc != uid } } : State).dmaEnd d.inst j1
  | _, _ => s

/-- The copy has left for a mirror and waits for its XACKs (R584). -/
def State.dmaSent (s : State) (uid : Nat) : Bool :=
  s.chain.transfers.any fun t => t.isDesc && t.uid == uid

/-- DMA_COPY_COMPLETE (R362). -/
def execDmaCopyComplete (uid : Nat) (s : State) : Host.Outcome State Fault Refusal :=
  done (s.when (s.hubUp && !s.dmaSent uid) fun s => s.dmaDone uid)

/-! ### The patrol scrubber (R278, R279, R603 to R607) -/

/-- An uncorrectable error found by the scrubber at a block (R605). -/
def State.scrubUe (s : State) (p blk : Nat) : State :=
  let a := p * pageBytes + blk * 64
  let s1 := s.bump R.HBM_UE_COUNT_COUNT 1
  if p < 16 then s1.raise Rc.hubT2Ue deviceClass noOwner a 0
  else
    let s2 := s1.poisonT2 (p * 32768 + blk)
    let s3 := match s2.pageBuf p with
      | some (k, b) => s2.raise Rc.t2Poison deferred b.owner (k * 256 + b.gen) (b.pages.idxOf p * pageBytes + blk * 64)
      | none => s2.raise Rc.t2Poison deferred 0 0 a
    s3.pageFind p blk

/-- Time of one pass in ns (PERIOD_H of HBM.SCRUB_CTRL, 0 acting as 24). -/
def State.scrubPeriod (s : State) : Nat :=
  let h := s.rd R.HBM_SCRUB_CTRL_PERIOD_H
  (if h = 0 then 24 else h) * 3600000000000

/-- 64-byte blocks of T2. -/
def t2Blocks : Nat := 805306368

/-- The block at the scrubber's position is due: the blocks of a pass are spread evenly over its period, counted in the time that
the scrubber has run (R279). -/
def State.scrubDue (s : State) : Bool :=
  let n := s.rd R.HBM_SCRUB_STATUS_PAGE * 32768 + s.mem.scrubBlock
  decide (n * s.scrubPeriod ≤ (s.mem.scrubNs - s.mem.scrubFrom) * t2Blocks)

/-- The scrubber's position moves to the next block; a full pass is counted, and the next begins when its period is over. -/
def State.scrubNext (s : State) : State :=
  let p := s.rd R.HBM_SCRUB_STATUS_PAGE
  if s.mem.scrubBlock + 1 < 32768 then { s with mem := { s.mem with scrubBlock := s.mem.scrubBlock + 1 } }
  else if p + 1 < 24576 then
    ({ s with mem := { s.mem with scrubBlock := 0 } } : State).wr R.HBM_SCRUB_STATUS_PAGE (p + 1)
  else
    let s1 : State := { s with mem := { s.mem with scrubBlock := 0, scrubFrom := s.mem.scrubFrom + s.scrubPeriod } }
    (s1.wr R.HBM_SCRUB_STATUS_PAGE 0).bump R.HBM_SCRUB_STATUS_PASSES 1

/-- No ECC error stands in a T2 block any more. -/
def State.clearErr (s : State) (b : Nat) : State :=
  { s with mem := { s.mem with t2Err := Tab.put (fun _ => 0) s.mem.t2Err b 0 } }

/-- One block of the scrubber's pass. What it finds is the error that stands in the block, or the one that `find` says has arisen
there: 1 correctable, counted and written back corrected; 2 uncorrectable. A poisoned block is skipped. -/
def State.scrub (s : State) (find : Nat) : State :=
  let p := s.rd R.HBM_SCRUB_STATUS_PAGE
  let blk := s.mem.scrubBlock
  let kind := max find (Tab.get (fun _ => 0) s.mem.t2Err (p * 32768 + blk))
  let s1 :=
    if s.mem.t2Bad (p * 32768 + blk) then s
    else if kind = 1 then (s.bump R.HBM_CE_COUNT_COUNT 1).clearErr (p * 32768 + blk)
    else if kind = 2 then (s.clearErr (p * 32768 + blk)).scrubUe p blk
    else s
  s1.scrubNext

/-- The scrubber runs: enabled, in RUN or IDLE (R279). -/
def State.scrubOn (s : State) : Bool :=
  s.hubUp && s.flag R.HBM_SCRUB_CTRL_ENABLE && (s.power.st == .run || s.power.st == .idle)

/-- SCRUB_BLOCK (R279). -/
def execScrubBlock (find : Nat) (s : State) : Host.Outcome State Fault Refusal :=
  done (s.when (s.scrubOn && s.scrubDue) fun s => s.scrub find)

end Sys2Proof.Machine
end

