-- ==== Sys2Proof/Machine/Pegs.lean ====
section
/-!
DEFINITION. Pegs: the meanings of the PEG_ operations, PEG_SIGNAL and PEG_WAIT, alias writes, the retry of a refused
registration, the wait watchdog and the debug snapshot (R354 to R377, R396).
-/

namespace Sys2Proof.Machine

/-! ### Stream operations (R343, R357) -/

/-- Plan entry of a PEG_ operation. -/
def Step.planEntry (t : Step) (o : Op) : List Nat := t.plan.getD (u16At o.bytes 8) []
/-- MSIX field. -/
def Op.msix (o : Op) : Nat := u8At o.bytes 0x0A
/-- VALUE. -/
def Op.value (o : Op) : Nat := u64At o.bytes 0x10

/-- Place of a peg for a STEP_POISON record (R594): unit, and location. -/
def PegLoc.poison (l : PegLoc) : Access := ⟨[], St.stepPoison, l.unit, locOf l.tier l.addr⟩

/-- PEG_ADD (`set` false) or PEG_SET of a stream. An operation of an old generation is suppressed (R428). -/
def State.pegStream (s : State) (uid st op : Nat) (set : Bool) : State :=
  s.onOp uid st op (if set then 0x41 else 0x40) fun t m o =>
    let e := t.planEntry o
    let l := t.planLoc e
    if (s.inst t.inst).gen ≠ t.gen then s.opDone uid st op
    else if l.tier = 3 then
      let n := pegResult t.compat set (s.shadow uid l.addr) o.value
      ((s.setShadow uid l.addr n).pegMsix t.inst o.msix).opDone uid st op
    else if s.blockedFor (uid, st, op) (dieOf m.clusterNo) (pegDomain l) then s
    else if s.pegPoisoned t.inst l then (s.failAccess uid l.poison o.step).opDone uid st op
    else ((s.pegOp t.inst l t.compat set o.value (streamId t.inst m)).pegMsix t.inst o.msix).opDone uid st op

/-- PEG_ADD (R357). -/
def execPegAdd (uid st op : Nat) (s : State) : Host.Outcome State Fault Refusal := done (s.pegStream uid st op false)

/-- PEG_SET (R357). -/
def execPegSet (uid st op : Nat) (s : State) : Host.Outcome State Fault Refusal := done (s.pegStream uid st op true)

/-- PEG_WAIT_GE (`ge`) or PEG_WAIT_EQ of a stream: the wait is registered (R359). -/
def State.pegWaitStream (s : State) (uid st op : Nat) (ge : Bool) : State :=
  s.onOp uid st op (if ge then 0x42 else 0x43) fun t m o =>
    let l := t.planLoc (t.planEntry o)
    if (s.inst t.inst).gen ≠ t.gen then s.opDone uid st op
    else if s.blockedFor (uid, st, op) (dieOf m.clusterNo) (pegDomain l) then s
    else if s.pegPoisoned t.inst l then (s.failAccess uid l.poison o.step).opDone uid st op
    else (s.setStage uid st op 2).register
      ⟨l.tier, l.unit, l.addr, ge, o.value, t.compat, streamId t.inst m, t.inst, uid, st, op, none, o.msix, 0, 0⟩

/-- PEG_WAIT_GE (R359). -/
def execPegWaitGe (uid st op : Nat) (s : State) : Host.Outcome State Fault Refusal := done (s.pegWaitStream uid st op true)

/-- PEG_WAIT_EQ (R359). -/
def execPegWaitEq (uid st op : Nat) (s : State) : Host.Outcome State Fault Refusal := done (s.pegWaitStream uid st op false)

/-- NOP_OP: a stream NOP completes when it starts (R345). -/
def State.nopStream (s : State) (uid st op : Nat) : State := s.onOp uid st op 0x00 fun _ _ _ => s.opDone uid st op

/-- NOP_OP (R345). -/
def execNopOp (uid st op : Nat) (s : State) : Host.Outcome State Fault Refusal := done (s.nopStream uid st op)

/-! ### Descriptors (R396) -/

/-- The peg a PEG_ descriptor names. -/
def descPeg (b : List Nat) : PegLoc := ⟨u8At b 0x11, u32At b 0x14, u64At b 0x18⟩

/-- The crossing on the way to the peg of the next descriptor of a ring is not held; while it is, the descriptor waits (R305). -/
def State.descPegPasses (s : State) (f w : Nat) : Bool :=
  match s.firstWaiting f w with
  | none => true
  | some d => (descPeg d.bytes).tier == 3 || !s.heldTo hubSide (pegDomain (descPeg d.bytes))

/-- PEG_SIGNAL (R357, R368, R396). -/
def State.signalDesc (s : State) (d : Desc) : State :=
  let l := descPeg d.bytes
  if l.tier = 3 ∨ !s.pegAllowed d.inst l then s.complete d.uid St.pegArgInvalid 0
  else if s.power.closed.contains (pegDomain l) then (s.returned (pegDomain l)).complete d.uid St.domainDown 0
  else if s.pegPoisoned d.inst l then s.complete d.uid St.stepPoison 0
  else
    ((s.pegOp d.inst l (s.compat d.inst) (u8At d.bytes 0x10 == 1) (u64At d.bytes 0x20) (pegId 3 d.inst d.ring)).pegMsix
      d.inst (u8At d.bytes 0x12)).complete d.uid St.ok 0

/-- PEG_SIGNAL (R396). -/
def execPegSignal (f w : Nat) (s : State) : Host.Outcome State Fault Refusal :=
  unit (ringOk f w) (s.when (s.descPegPasses f w) fun s => s.onDesc f w 0x07 fun s d => s.signalDesc d)

/-- PEG_WAIT (R359, R368, R396); a wait on a mirrored word is a breach (R585). -/
def State.waitDesc (s : State) (d : Desc) : State :=
  let l := descPeg d.bytes
  if l.tier = 3 ∨ !s.pegAllowed d.inst l ∨ (l.tier = 2 ∧ (s.mirrorOf d.inst l.unit).isSome) then s.complete d.uid St.pegArgInvalid 0
  else if s.power.closed.contains (pegDomain l) then (s.returned (pegDomain l)).complete d.uid St.domainDown 0
  else if s.pegPoisoned d.inst l then s.complete d.uid St.stepPoison 0
  else s.register ⟨l.tier, l.unit, l.addr, u8At d.bytes 0x10 == 0, u64At d.bytes 0x20, s.compat d.inst,
    pegId 3 d.inst d.ring, d.inst, 0, 0, 0, some d.uid, u8At d.bytes 0x12, 0, 0⟩

/-- PEG_WAIT (R396). -/
def execPegWait (f w : Nat) (s : State) : Host.Outcome State Fault Refusal :=
  unit (ringOk f w) (s.when (s.descPegPasses f w) fun s => s.onDesc f w 0x08 fun s d => s.waitDesc d)

/-! ### Waits -/

/-- The domain in which a waiter stands. -/
def State.waitSide (s : State) (w : Wait) : Nat :=
  match (if w.desc.isSome then none else s.op? w.step w.stream w.op) with
  | some x => dieOf x.2.1.clusterNo
  | none => hubSide

/-- A refused registration is made again once its 250 ns have passed, and no crossing on its way is held (R305, R370). -/
def State.retryWait (s : State) (n : Nat) : State :=
  match s.pegs.retries[n]? with
  | none => s
  | some r =>
    if r.at_ ≤ s.now ∧ !s.heldTo (s.waitSide r.wait) (pegDomain ⟨r.wait.tier, r.wait.unit, r.wait.addr⟩) then
      ({ s with pegs := { s.pegs with retries := s.pegs.retries.eraseIdx n } } : State).register r.wait
    else s

/-- WAIT_REGISTRATION_RETRY (R370). -/
def execWaitRegistrationRetry (n : Nat) (s : State) : Host.Outcome State Fault Refusal :=
  done (s.when s.hubUp fun s => s.retryWait n)

/-- WD_MS in force, in ns (PEG_CTRL). -/
def State.wdNs (s : State) (i : Nat) : Nat :=
  let m := s.rd (R.INST_STATUS_PEG_CTRL_WD_MS i)
  (if m = 0 then 250 else min m 10000) * 1000000

/-- Location of a wait in the record of R594: tier, unit, address; a T2 peg by its physical address. -/
def State.waitPlace (s : State) (w : Wait) : Nat :=
  if w.tier = 2 then
    2 * 2 ^ 62 + (match s.live w.unit with
      | some b => b.phys w.addr
      | none => 0)
  else (w.tier % 4) * 2 ^ 62 + (w.unit % 2 ^ 22) * 2 ^ 40 + w.addr % 2 ^ 40

/-- The oldest of a list of waits. -/
def oldestWait : List Wait → Option Wait
  | [] => none
  | w :: t => match oldestWait t with
    | none => some w
    | some v => if v.age > w.age then some v else some w

/-- DESC_ID of what a wait holds up. -/
def State.waitDescId (s : State) (w : Wait) : Nat :=
  match w.desc with
  | some uid => match s.desc? uid with
    | some d => dId d.bytes
    | none => 0
  | none => match s.step? w.step with
    | some t => t.descId
    | none => 0

/-- Schedule step of the failure of step `u` under R373: that of the oldest wait's operation when it is the step's own. -/
def State.waitStep (s : State) (u : Nat) (w : Wait) : Nat :=
  match (if w.desc.isNone && w.step == u then s.op? u w.stream w.op else none) with
  | some x => x.2.2.step
  | none => match s.step? u with
    | some t => t.lowest
    | none => 0

/-- The fault of R373 for instance `i`. -/
def State.watchdog (s : State) (i : Nat) : State :=
  let mine := s.pegs.waits.filter fun w => w.inst == i
  match oldestWait (mine.filter fun w => decide (s.wdNs i < w.age)) with
  | none => s
  | some w =>
    let s1 := s.raise St.pegWatchdog instClass i (s.waitDescId w + w.id * 2 ^ 32) (s.waitPlace w)
    let s2 := s1.bump (R.INST_STATUS_PEG_COUNT_WD_FIRES i) 1
    let descs := (mine ++ (s.pegs.retries.map Retry.wait).filter fun w => w.inst == i).filterMap Wait.desc
    let bound := (s.steps.filter fun t => t.inst == i && t.bound).map Step.uid
    let s3 := bound.foldl (fun s u => s.failWith u St.pegWatchdog 0 0 (s.waitStep u w) false) s2
    let s4 := s3.dropWaits fun w => w.inst == i
    descs.foldl (fun s u => s.complete u St.pegWatchdog 0) s4

/-- PEG_WATCHDOG of an instance (R373, R374). -/
def execPegWatchdog (n : Nat) (s : State) : Host.Outcome State Fault Refusal :=
  unit (fnOk n) (s.when s.hubUp fun s => s.watchdog n)

/-! ### Aliases (R364 to R366) -/

/-- A host write to ADD or SET: `part` 0 = 64 bits, 1 = the low word, 2 = the high word (R365). -/
def State.aliasWrite (s : State) (f a part v : Nat) (set : Bool) : State :=
  if part = 0 then s.aliasTake f a 0 8 v set else s.aliasTake f a (part - 1) 4 v set

/-- An alias write as the hub takes it. -/
def State.aliasCmd (s : State) (f a part v : Nat) (set : Bool) : State :=
  s.when (s.hubUp && (s.inst f).st != .parked) fun s => (s.aliasWrite f a part v set).pcieTouch f

/-- ALIAS_ADD (R364). -/
def execAliasAdd (f a part value : Nat) (s : State) : Host.Outcome State Fault Refusal :=
  unit (decide (f ≤ 16 ∧ a < 64 ∧ part ≤ 2)) (s.aliasCmd f a part value false)

/-- ALIAS_SET (R364). -/
def execAliasSet (f a part value : Nat) (s : State) : Host.Outcome State Fault Refusal :=
  unit (decide (f ≤ 16 ∧ a < 64 ∧ part ≤ 2)) (s.aliasCmd f a part value true)

/-! ### Snapshot (R376) -/

/-- The peg that PEG.SEL and PEG.SEL_ADDR select; a T2 address is translated to its buffer. -/
def State.selPeg (s : State) : Option PegLoc :=
  let tier := s.rd R.PEG_SEL_TIER
  let a := s.rd R.PEG_SEL_ADDR_ADDRESS
  if tier = 0 then some ⟨0, s.rd R.PEG_SEL_UNIT, a⟩
  else if tier = 1 then some ⟨1, s.rd R.PEG_SEL_UNIT, a⟩
  else if tier = 2 then
    (s.pageBuf (a / pageBytes)).map fun kb =>
      ⟨2, kb.1 * 256 + kb.2.gen, kb.2.pages.idxOf (a / pageBytes) * pageBytes + a % pageBytes⟩
  else none

/-- The instance whose bytes a peg's word holds. -/
def State.pegOwner (s : State) (l : PegLoc) : Nat :=
  if l.tier = 1 then (s.mem.granule 1 (sramKey 1 l.unit l.addr / 64)).tag
  else match s.live l.unit with
    | some b => b.owner
    | none => 0

/-- A snapshot of the selected word (R376). -/
def State.pegSnap (s : State) : State :=
  let clear := fun (s : State) => s.setWords 0xA0014 (List.replicate 15 0)
  match s.selPeg with
  | none => (clear s).setFlag R.PEG_STATUS_DONE true
  | some l =>
    if !s.isPeg l then (clear s).setFlag R.PEG_STATUS_DONE true
    else
      let ids := (s.pegs.waits.filter fun w => w.on l).map Wait.id
      let s1 := ((clear s).setFlag R.PEG_STATUS_VALID true).setFlag R.PEG_STATUS_DONE true
      let s2 := (s1.wr R.PEG_STATUS_WAITERS (min ids.length 255)).wr R.PEG_STATUS_SHOWN (min ids.length 8)
      let s3 := (s2.wr R.PEG_VALUE_VALUE (s.pegValue (s.pegOwner l) l)).setWords 0xA0020 (ids.take 8)
      match s.pegs.last.find? fun e => e.1 == l.tier && e.2.1 == l.unit && e.2.2.1 == l.addr with
      | none => s3
      | some e => (s3.wr R.PEG_LAST_SIG_ID e.2.2.2.1).wr R.PEG_LAST_TIME_TIME e.2.2.2.2

/-- PEG_SNAP_TAKE (R376). -/
def execPegSnapTake (s : State) : Host.Outcome State Fault Refusal := done (s.when s.hubUp fun s => s.cmdWrite 0 State.pegSnap)

end Sys2Proof.Machine
end

