-- ==== Sys2Proof/Machine/Periphery.lean ====
section
/-!
DEFINITION. The arithmetic of one evaluation that does not depend on where it runs: drive, conversion, the raw
result, and the engine periphery's scaling, nonlinearity, pooling and output codes (R70 to R90, R108, R109,
R123 to R138). Every function here is bit-exact.
-/

namespace Sys2Proof.Machine

/-- Physical column of data column `j` (R42). -/
def physCol (j : Nat) : Nat := 33 * (j / 32) + j % 32

/-- Physical column of the reference column of group `g` (R41). -/
def refCol (g : Nat) : Nat := 33 * g + 32

/-- Physical column of spare `s` (R42). -/
def spareCol (s : Nat) : Nat := 528 + s

/-- Converter resolution from ROW_COUNT (R81). -/
def resolution (rows : Nat) : Nat :=
  if rows ≤ 64 then 6 else if rows ≤ 128 then 7 else if rows ≤ 256 then 8 else 9

/-- Resolution of a pleat in time mode (R108). -/
def pleatResolution (size : Nat) : Nat := if size = 2 then 10 else 11

/-- Pulse length of a codebook entry in the evaluation's mode (R70, R72): MODE 1 is nibble. -/
def pulseLen (nibble : Bool) (entry : Nat) : Nat :=
  if nibble then fld entry 3 0 else fld entry 7 0

/-- Signed row drive of a codebook entry, in units of full drive / 255 or / 15; with `posOnly`, a negative entry
is not driven (R70, R72, R75, R76). -/
def rowDrive (nibble posOnly : Bool) (entry : Nat) : Int :=
  if bit entry 15 then (if posOnly then 0 else -(pulseLen nibble entry : Int)) else pulseLen nibble entry

/-- An active row that a positive-only evaluation drops (R76). -/
def dropsSign (nibble posOnly : Bool) (entry : Nat) : Bool :=
  posOnly && bit entry 15 && pulseLen nibble entry != 0

/-- The denominator of a drive: full drive is 255 units in byte mode and 15 in nibble mode (R70, R72). -/
def driveUnit (nibble : Bool) : Nat := if nibble then 15 else 255

/-- What one conversion gives: the code and the saturation bit. -/
structure Conv where
  q   : Int
  sat : Bool
  deriving DecidableEq, Repr

/-- The converter (R83, R89): net charge `n / d` in G_fs × full drive, resolution `b`, RANGE_SHIFT `s`. -/
def convert (n : Int) (d b s : Nat) : Conv :=
  let q := (2 * n * (2 ^ s : Nat) + d) / (2 * d : Nat)
  let lo : Int := -((2 ^ (b - 1) : Nat) : Int)
  let hi : Int := ((2 ^ (b - 1) : Nat) : Int) - 1
  ⟨clampInt lo hi q, decide (q < lo ∨ hi < q)⟩

/-! ### The converter's nonlinearity (R92) -/

/-- Integral nonlinearity at threshold `k`, in 2^-16 LSB: within ±0.5 LSB, and from one threshold to the next it moves by no more than the
±0.5 LSB of the differential nonlinearity (R92). -/
def inlWalk (draw : Nat → Int) : Nat → Int
  | 0 => clampInt (-32767) 32768 (draw 0)
  | k + 1 => clampInt (-32767) 32768 (inlWalk draw k + clampInt (-32768) 32768 (draw (k + 1)))

/-- A real converter: the code is the number of thresholds at or below the net charge `n / d`, each half an LSB below its code but for the
nonlinearity (R89, R92). Beyond the range it gives the end code and the saturation bit, as `convert` does. -/
def convertBy (draw : Nat → Int) (n : Int) (d b s : Nat) : Conv :=
  let c := convert n d b s
  let lo : Int := -((2 ^ (b - 1) : Nat) : Int)
  let below := fun (k : Nat) =>
    decide (((2 * (lo + ((k : Int) + 1)) - 1) * 32768 + inlWalk draw k) * (d : Int) ≤ n * (2 ^ (s + 16) : Nat))
  if c.sat then c else ⟨lo + countIf below (List.range (2 ^ b - 1)), false⟩

/-! ### Drift and temperature (R56, R57, R59) -/

/-- 2^(-(2^-i)) for i = 1 to 24, in 2^-32. -/
def halfPowers : List Nat :=
  [3037000500, 3611622603, 3938502376, 4112874773, 4202935003, 4248701965, 4271771996, 4283353945, 4289156690, 4292061010, 4293513907,
    4294240540, 4294603903, 4294785595, 4294876445, 4294921870, 4294944583, 4294955939, 4294961618, 4294964457, 4294965876, 4294966586,
    4294966941, 4294967119]

/-- 2^(-x / 2^24), in 2^-32. -/
def exp2Neg (x : Nat) : Nat :=
  (halfPowers.zipIdx.foldl (fun a p => if x.testBit (23 - p.2) then a * p.1 / 2 ^ 32 else a) (2 ^ 32)) / 2 ^ (x / 2 ^ 24)

/-- Fraction of the base-2 logarithm of `x / 2^31`, 1 ≤ x / 2^31 < 2, in `k` bits. -/
def log2Frac : Nat → Nat → Nat
  | 0, _ => 0
  | k + 1, x =>
    let y := x * x / 2 ^ 31
    if 2 ^ 32 ≤ y then 2 ^ k + log2Frac k (y / 2) else log2Frac k y

/-- Base-2 logarithm of a positive number, in 2^-24. -/
def log2Fix (n : Nat) : Nat := Nat.log2 n * 2 ^ 24 + log2Frac 24 (n * 2 ^ 31 / 2 ^ Nat.log2 n)

/-- One second, in the 2^-32 ns of an effective age. -/
def ageSecond : Nat := 1000000000 * 2 ^ 32

/-- The drift factor of R56 at effective age `t` with exponent `nu` in 10^-6, in 2^-32: 1 up to t₀ = 1 s, then (t / t₀)^-ν. -/
def drift (t nu : Nat) : Nat :=
  if t ≤ ageSecond then 2 ^ 32 else exp2Neg ((log2Fix t - log2Fix ageSecond) * nu / 1000000)

/-- Effective age that one ns adds at a temperature in 0.25 °C above −64 °C, in 2^-32 ns: 1 up to 85 °C, then 2^((Tj − 85) / 10) (R57). -/
def ageRate (t : Nat) : Nat :=
  if t ≤ 596 then 2 ^ 32
  else
    let x := t - 596
    let c := x / 40 + 1
    exp2Neg ((40 * c - x) * 2 ^ 24 / 40) * 2 ^ c

/-- The gain of R59 at `dt` quarter-degrees from TCAL: 1 − 0.0018 for each °C, in 1 / 40,000. -/
def tempGain (dt : Int) : Int := 40000 - 18 * dt

/-- The raw column value of a code (R89). -/
def rawOf (q : Int) (s : Nat) : Int := q * (2 ^ (8 - s) : Nat)

/-- RANGE_SHIFT of a member in split mode (R118). -/
def splitShift (size s : Nat) : Nat := if size = 2 then s - 1 else s - 2

/-- SCALE from SCALE_NOM and TRIM (R129). -/
def deriveScale (nom trim : Nat) : Nat := min 0xFFFF ((nom * trim + 2 ^ 14) / 2 ^ 15)

/-- Pre-activation and clip flag (R128). -/
def preAct (v : Int) (scale : Nat) (offset : Int) (pshift : Nat) : Int × Bool :=
  let y := (v * scale + (2 ^ (11 + pshift) : Nat)) / (2 ^ (12 + pshift) : Nat)
  let z := y + offset
  (sat16 z, decide (32767 < z ∨ z < -32768))

/-- Interpolation in a table of `2 ^ tb` INT16 entries (R131 with 8, R132 with 4). -/
def interp (tb : Nat) (t : Nat → Int) (p : Int) : Int :=
  let sh := 16 - tb
  let a := (p + 32768).toNat
  let i := a / 2 ^ sh
  let f := a % 2 ^ sh
  let last := 2 ^ tb - 1
  let nxt := if i < last then t (i + 1) else sat16 (2 * t last - t (last - 1))
  t i + ((nxt - t i) * f + (2 ^ (sh - 1) : Nat)) / (2 ^ sh : Nat)

/-- The nonlinearity of an ACT field (R130): `fine` is table × entry, `coarse` the group's table. -/
def nonlin (act : Nat) (fine : Nat → Nat → Int) (coarse : Nat → Int) (p : Int) : Int :=
  if act = 1 then max p 0
  else if act = 2 then interp 4 coarse p
  else if 4 ≤ act ∧ act ≤ 7 then interp 8 (fine (act - 4)) p
  else p

/-- A pooling mode: columns and evaluations of its window, and whether it averages (R133, DECK_CFG0). -/
structure PoolMode where
  wc  : Nat
  we  : Nat
  avg : Bool
  deriving DecidableEq, Repr

/-- The pooling mode of a POOL_MODE code and POOL_N; none when pooling is off (DECK_CFG0, R133). -/
def poolMode (code n : Nat) : Option PoolMode :=
  if code = 1 then some ⟨2, 2, false⟩
  else if code = 2 then some ⟨3, 3, false⟩
  else if code = 3 then (if n = 0 then none else some ⟨n + 1, 1, false⟩)
  else if code = 4 then some ⟨2, 2, true⟩
  else if code = 5 then some ⟨3, 3, true⟩
  else if code = 6 then (if n = 0 then none else some ⟨n + 1, 1, true⟩)
  else none

/-- The stride of POOL_STRIDE: 0 acts as 256 (R133). -/
def poolStride (f : Nat) : Nat := if f = 0 then 256 else f

/-- Output channels of a window over `n` channels (R133). -/
def poolOuts (n s wc : Nat) : Nat := n / (s * wc) * s

/-- The channels that belong to output channel `o`, lowest first (R133). -/
def poolMembers (s wc o : Nat) : List Nat :=
  (List.range wc).map fun i => (o / s) * (s * wc) + i * s + o % s

/-- K16 of R134: 65,536 / K rounded to nearest. -/
def k16 (k : Nat) : Nat := (65536 * 2 + k) / (2 * k)

/-- The pooled value of a window's values (R134). -/
def poolValue (avg : Bool) (vs : List Int) : Int :=
  if avg then sat16 ((vs.foldl (· + ·) 0 * (k16 vs.length : Nat) + (2 ^ 15 : Nat)) / (2 ^ 16 : Nat))
  else match vs with
    | [] => 0
    | v :: t => t.foldl max v

/-- The output code of a value: the number of thresholds at or below it (R137). -/
def outCode (ts : List Int) (x : Int) : Nat := countIf (fun t => decide (t ≤ x)) ts

/-- Output formats of R136: 0 and 3 = INT16, 1 = 8-bit code, 2 = 4-bit code. -/
def outBytes (fmt : Nat) (ts : List Int) (vs : List Int) : List Nat :=
  if fmt = 1 then vs.map (outCode ts)
  else if fmt = 2 then
    let cs := vs.map (outCode (ts.take 15))
    (List.range ((cs.length + 1) / 2)).map fun i => cs.getD (2 * i) 0 % 16 + 16 * (cs.getD (2 * i + 1) 0 % 16)
  else vs.flatMap fun v => leBytes 2 (ofSigned 16 v)

/-- Pair recombination of two columns (R53, R127). -/
def pairValue (hi lo : Int) : Int := 16 * hi + lo

/-- The 4-bit code of byte list position `i` in nibble mode (R73). -/
def nibbleAt (bs : List Nat) (i : Nat) : Nat :=
  if i % 2 = 0 then u8At bs (i / 2) % 16 else u8At bs (i / 2) / 16

/-- The activation codes of `n` active rows (R71, R73). -/
def rowCodes (nibble : Bool) (bs : List Nat) (n : Nat) : List Nat :=
  (List.range n).map fun i => if nibble then nibbleAt bs i else u8At bs i

/-- Bytes that hold the codes of `n` active rows (R71, R73). -/
def codeBytes (nibble : Bool) (n : Nat) : Nat := if nibble then (n + 1) / 2 else n

end Sys2Proof.Machine
end

