-- ==== Sys2Proof/Machine/ArrayOps.lean ====
section
/-!
DEFINITION. Engines, decks and engine peripheries as the array families share them: the local space of R146 and its
writes, the deck check of R98 and R197, the columns a darned deck uses, and the bind tag (R328).
-/

namespace Sys2Proof.Machine

/-! ### Periphery space (R146) -/

/-- Reset value of the word at a local offset (R146). -/
def periReset (o : Nat) : Nat :=
  if o < 0x4000 then 0x10001000
  else if o < 0x6000 then 0x80008000
  else if 0x8E00 ≤ o ∧ o < 0x8E80 ∧ o % 16 = 0 then 0x1000
  else if o = 0x8F00 then 0xFF
  else 0

/-- Key of a local offset of an engine. -/
def periKey (e o : Nat) : Nat := e * 0x10000 + o

/-- Default of the periphery table. -/
def periDflt (k : Nat) : Nat := periReset (k % 0x10000)

/-- A stored word of a periphery table. -/
def periGet (t : Tab Nat) (e o : Nat) : Nat := Tab.get periDflt t (periKey e o)

/-- A 16-bit entry at a byte offset. -/
def periHalf (t : Tab Nat) (e o : Nat) : Nat := periGet t e (o - o % 4) / 2 ^ (8 * (o % 4)) % 65536

/-- SCALE of deck `d`, channel `j` (R129). -/
def periScale (t : Tab Nat) (e d j : Nat) : Nat :=
  deriveScale (periHalf t e (0x2000 + d * 0x400 + 2 * j)) (periHalf t e (0x4000 + d * 0x400 + 2 * j))

/-- OFFSET of deck `d`, channel `j`. -/
def periOffset (t : Tab Nat) (e d j : Nat) : Int := toSigned 16 (periHalf t e (0x6000 + d * 0x400 + 2 * j))

/-- Entry `i` of fine table `n` (R131). -/
def periFine (t : Tab Nat) (e n i : Nat) : Int := toSigned 16 (periHalf t e (0x8000 + n * 0x200 + 2 * i))

/-- Entry `i` of the coarse table of group `g` (R132). -/
def periCoarse (t : Tab Nat) (e g i : Nat) : Int := toSigned 16 (periHalf t e (0x8800 + g * 0x20 + 2 * i))

/-- The 255 thresholds of output codebook slot `o` (R137). -/
def periThresholds (t : Tab Nat) (e o : Nat) : List Int :=
  (List.range 255).map fun k => toSigned 16 (periHalf t e (0x8A00 + o * 0x200 + 2 * k))

/-- DECK_CFG word `n` of deck `d`. -/
def periCfg (t : Tab Nat) (e d n : Nat) : Nat := periGet t e (0x8E00 + d * 16 + 4 * n)

/-- ACT of column group `g` of deck `d` (DECK_CFG1, DECK_CFG2). -/
def periAct (t : Tab Nat) (e d g : Nat) : Nat := periCfg t e d (1 + g / 8) / 2 ^ (4 * (g % 8)) % 16

/-- Store a periphery word. -/
def State.setPeri (s : State) (e o v : Nat) : State :=
  { s with arr := { s.arr with peri := Tab.put periDflt s.arr.peri (periKey e o) (v % 2 ^ 32) } }

/-- Add to a periphery counter, saturating at 32 bits. -/
def State.bumpPeri (s : State) (e o n : Nat) : State := s.setPeri e o (satAdd 32 (periGet s.arr.peri e o) n)

/-- The engine's listed words, as an evaluation latches them (R124). -/
def State.periOf (s : State) (e : Nat) : Tab Nat := s.arr.peri.filter fun p => p.1 / 0x10000 == e

/-- The word at a local offset as a read gives it (R129, R146): SCALE is derived, DECK_CFG0.PAIR is the deck's.
DESIGN CHOICE (log entry 51): R143 and R144 return every location to its reset value at an allocation and at the exit from DEEP or OFF, and
R167 keeps the deck's PAIR flag; PAIR goes on to show the flag. -/
def State.periRead (s : State) (e o : Nat) : Nat :=
  if o < 0x2000 then
    periScale s.arr.peri e (o / 0x400) (o % 0x400 / 2) + periScale s.arr.peri e (o / 0x400) (o % 0x400 / 2 + 1) * 65536
  else if 0x8E00 ≤ o ∧ o < 0x8E80 ∧ o % 16 = 0 then
    putBit (periGet s.arr.peri e o) 28 (s.deck e ((o - 0x8E00) / 16)).pair
  else if o < 0x8E80 ∨ (0x8F00 ≤ o ∧ o ≤ 0x8F08) ∨ (0x9000 ≤ o ∧ o < 0x9800) then periGet s.arr.peri e o
  else 0

/-- The bits of a word that a write from a bind, a MOVE or the aperture sets (R146): none in RO and unlisted words. -/
def periMask (o : Nat) : Nat :=
  if o < 0x2000 then 0
  else if o < 0x8A00 then 0xFFFFFFFF
  else if o < 0x8E00 then (if o % 0x200 = 0x1FC then 0xFFFF else 0xFFFFFFFF)
  else if o < 0x8E80 then
    (if o % 16 = 0 then 0xEFFFFF00 else if o % 16 = 12 then 0 else 0xFFFFFFFF)
  else if o = 0x8F00 then 0xFF
  else 0

/-- The pooling of a DECK_CFG0 word. -/
def cfgPool (cfg : Nat) : Option PoolMode := poolMode (fld cfg 26 24) (fld cfg 23 20)

/-- The evaluation that will hand results to the engine's periphery: its own, or that of the pleat it heads (R126). -/
def State.headEval (s : State) (e : Nat) : Option Eval :=
  match (s.engine e).eval with
  | some v => some v
  | none => match s.arr.pleatEvals.find? fun p => p.first + p.size - 1 == e with
    | some p => p.members.getLast?
    | none => none

/-- The evaluation running belongs to a pooling window. -/
def pools (e : Nat) (v : Eval) : Bool := !v.stale && (cfgPool (periCfg v.peri e v.deck 0)).isSome

/-- A window is open: it holds evaluations, or one of its evaluations runs. -/
def State.windowOpen (s : State) (e : Nat) : Bool :=
  !(s.engine e).pool.isEmpty || match s.headEval e with
    | some v => pools e v
    | none => false

/-- An evaluation of the pooled deck already started belongs to the discarded window. -/
def staleEval (d : Nat) (v : Eval) : Eval := { v with stale := v.stale || v.deck == d }

/-- The open window of an engine is discarded (R135, R143). -/
def State.dropWindow (s : State) (e : Nat) : State :=
  if !s.windowOpen e then s
  else
    let g := s.engine e
    let d := g.poolDeck
    let ps := s.arr.pleatEvals.map fun p =>
      if p.first + p.size - 1 == e then { p with members := p.members.modify (p.size - 1) (staleEval d) } else p
    let s1 : State := { s with arr := { s.arr with pleatEvals := ps } }
    (s1.setEngine e { g with pool := [], eval := g.eval.map (staleEval d) }).bumpPeri e 0x8F08 1

/-- Any write to the pooled deck's DECK_CFG words discards an open window (R143). -/
def State.cfgTouched (s : State) (e o : Nat) : State :=
  let g := s.engine e
  if 0x8E00 ≤ o ∧ o < 0x8E80 ∧ (o - 0x8E00) / 16 = g.poolDeck then s.dropWindow e else s

/-- Zero EVALS and every CLIP counter of an engine (R140). -/
def State.clipClear (s : State) (e : Nat) : State :=
  let keep := fun k => !(k / 0x10000 == e && (k % 0x10000 == 0x8F04 || (decide (0x9000 ≤ k % 0x10000) && decide (k % 0x10000 < 0x9800))))
  { s with arr := { s.arr with peri := s.arr.peri.filter fun p => keep p.1 } }

/-- Write one word of an engine's local space (R146). -/
def State.periWrite (s : State) (e o v : Nat) : State :=
  if o = 0x8F0C then (if bit v 0 then s.clipClear e else s)
  else
    let m := periMask o
    (s.cfgTouched e o).setPeri e o ((periGet s.arr.peri e o &&& (0xFFFFFFFF - m)) + (v &&& m))

/-- Write words from a local offset. -/
def State.periWords (s : State) (e o : Nat) : List Nat → State
  | [] => s
  | w :: t => (s.periWrite e o w).periWords e (o + 4) t

/-- The locations that a PERIPHERY record or a MOVE may write: RW of R146 but TRIM (R325). -/
def periWritable (o n : Nat) : Bool :=
  decide (o % 4 = 0 ∧ n % 4 = 0 ∧ 4 ≤ n ∧ n ≤ 38912)
    && (decide (0x2000 ≤ o ∧ o + n ≤ 0x4000) || decide (0x6000 ≤ o ∧ o + n ≤ 0x8E80) || decide (o = 0x8F00 ∧ n = 4))

/-- Every periphery location returns to its reset value and the pool state is discarded (R143, R144). -/
def State.periClear (s : State) (e : Nat) : State :=
  let g := s.engine e
  let s1 : State := { s with arr := { s.arr with peri := s.arr.peri.filter fun p => p.1 / 0x10000 != e } }
  s1.setEngine e { g with pool := [], blocks := [], lastDeck := none }

/-! ### What an evaluation issues (R133, R136, R138) -/

/-- Output channels per window or evaluation. -/
def cfgOuts (cfg : Nat) (pair : Bool) : Nat :=
  let n := if pair then 256 else 512
  match cfgPool cfg with
  | none => n
  | some p => poolOuts n (poolStride (fld cfg 19 12)) p.wc

/-- Bytes of `n` output channels in an output format. -/
def fmtBytes (fmt n : Nat) : Nat := if fmt = 1 then n else if fmt = 2 then (n + 1) / 2 else 2 * n

/-! ### Activation codebooks (R69) -/

/-- Entry `c` of slot `k` of a core's codebook store. -/
def State.bookEntry (s : State) (core k c : Nat) : Nat :=
  let a := core * 4096 + k * 512 + 2 * c
  Tab.get (fun _ => 0) s.arr.books a + 256 * Tab.get (fun _ => 0) s.arr.books (a + 1)

/-- Write bytes of a core's codebook store. -/
def State.bookWrite (s : State) (core o : Nat) : List Nat → State
  | [] => s
  | b :: t =>
    State.bookWrite ({ s with arr := { s.arr with books := Tab.put (fun _ => 0) s.arr.books (core * 4096 + o) (b % 256) } })
      core (o + 1) t

/-! ### Bind tags (R328) -/

/-- The bind tag of a core. -/
def State.bindTag (s : State) (core : Nat) : List Nat := Tab.get (fun _ => []) s.arr.bindTag core

/-- Set a core's bind tag; the empty list is a cleared tag. -/
def State.setTag (s : State) (core : Nat) (t : List Nat) : State :=
  { s with arr := { s.arr with bindTag := Tab.put (fun _ => []) s.arr.bindTag core t } }

/-! ### Weight images (R157 to R159) -/

/-- Bytes of a deck section. -/
def sectionBytes : Nat := 143360

/-- The image header obeys R157. -/
def imageHeaderOk (h : List Nat) : Bool :=
  let n := u32At h 8
  let b := u32At h 0xC
  u32At h 0 == 0x31495747 && u16At h 4 == 1 && decide (1 ≤ n ∧ n ≤ 786432 ∧ b % 4096 = 0 ∧ 4096 ≤ b
    ∧ b + n * sectionBytes ≤ u64At h 0x10) && crc32c (h.take 0x3C) == u32At h 0x3C

/-- Offset of section `i` from the image start (R159). -/
def sectionAt (h : List Nat) (i : Nat) : Nat := u32At h 0xC + i * sectionBytes

/-- Section `i` lies in the image (R661 row 8). -/
def sectionIn (h : List Nat) (i : Nat) : Bool :=
  decide (i < u32At h 8 ∧ sectionAt h i + sectionBytes ≤ u64At h 0x10)

/-! ### Decks -/

/-- What is wrong with naming a deck for instance `i` (R98, R170, R197, R324); 0 = nothing. -/
def State.deckStatus (s : State) (i e k : Nat) : Nat :=
  let d := s.deck e k
  if d.retired || (s.engine e).retired then St.stepDeckRetired
  else if d.owner ≠ i ∨ !d.pbo then St.deckNotOwned
  else St.ok

/-- The spare that stands in for physical column `c` (R43, R189): STATE 1 = active. -/
def Deck.spareFor (d : Deck) (c : Nat) : Option Nat := d.spares.findIdx? fun p => p.1 == 1 && p.2 == c

/-- The spare that serves or is to serve physical column `c`: active, or pending. -/
def Deck.standIn (d : Deck) (c : Nat) : Option Nat :=
  d.spares.findIdx? fun p => (p.1 == 1 || p.1 == 2) && p.2 == c

/-- Where the cells of physical column `c` are programmed (R148). -/
def Deck.home (d : Deck) (c : Nat) : Nat := match d.standIn c with
  | some n => spareCol n
  | none => c

/-- The physical column that delivers for physical column `c` (R43, R79). -/
def Deck.through (d : Deck) (c : Nat) : Nat :=
  match d.spareFor c with
  | some n => spareCol n
  | none => c

/-- Add to a core counter (DIE.CORE_COUNT): 0 = SIGN_DROP, 1 = VEC_SAT, 2 = evaluations started, 3 = blocks discarded. -/
def State.bumpCore (s : State) (core n k : Nat) : State :=
  let c := Tab.get (fun _ => 0) s.arr.coreCount (core * 4 + n)
  { s with arr := { s.arr with coreCount := Tab.put (fun _ => 0) s.arr.coreCount (core * 4 + n) (satAdd 32 c k) } }

/-- The engine connects a deck and drives its rows: an open window of another deck is discarded (R143), the deck is the one
of the last evaluation (R46), and the core and die count it (R76, R96). `drop`: a negative row was not driven. -/
def State.driveRows (s : State) (e k : Nat) (drop oor : Bool) : State :=
  let s1 := if (s.engine e).poolDeck ≠ k then s.dropWindow e else s
  let s2 := s1.modEngine e fun g => { g with lastDeck := some k, poolDeck := k }
  if isGuard e then s2
  else
    let s3 := s2.bumpCore (coreOf e) 2 1
    let s4 := if drop then s3.bumpCore (coreOf e) 0 1 else s3
    if oor then s4.bump (R.DIE_ANA_OOR_COUNT (dieOfEngine e)) 1 else s4

/-- The share of an evaluation's energy that its rows take, in pJ: 2.15 nJ × m × (rows / 512) × (b / 9) (R88, R112). -/
def rowEnergy (nibble posOnly : Bool) (rows b : Nat) : Nat :=
  let m := if nibble then (if posOnly then 70 else 76) else if posOnly then 86 else 100
  2150 * m * rows * b / (100 * 512 * 9)

/-- An engine's evaluation is weighed for Press: 0.25 nJ and 35 % of the rest on V_CORE, 65 % on V_ANA (R88, R111, R112, R532). Guard
engines lie on V_GUARD, which has a fixed figure. -/
def State.spendEval (s : State) (e : Nat) (nibble posOnly : Bool) (rows b : Nat) : State :=
  if isGuard e then s
  else
    let w := rowEnergy nibble posOnly rows b
    (s.spend (dieOfEngine e) (250 + 35 * w / 100)).spend (8 + dieOfEngine e) (65 * w / 100)

/-- The background checker of die `d` starts: its visits are counted from now (R185). -/
def State.startVisits (s : State) (d : Nat) : State :=
  { s with arr := { s.arr with visitBase := Tab.put (fun _ => 0) s.arr.visitBase d s.now } }

/-! ### Ring-oscillator references (R93) -/

/-- The reference of engine `e`. -/
def State.rosc (s : State) (e : Nat) : Rosc := Tab.get (fun _ => Rosc.init) s.arr.rosc e

/-- Replace it. -/
def State.setRosc (s : State) (e : Nat) (v : Rosc) : State :=
  { s with arr := { s.arr with rosc := Tab.put (fun _ => Rosc.init) s.arr.rosc e v } }

/-- An evaluation of the engine has ended, so a trim that waits comes into force. -/
def State.trimIn (s : State) (e : Nat) : State :=
  match (s.rosc e).next with
  | none => s
  | some v => s.setRosc e { s.rosc e with trim := v, next := none }

/-- The core of an engine lies in an instance's hamper. -/
def State.ownsEngine (s : State) (i e : Nat) : Bool := (s.inst i).cores.contains (coreOf e)

/-- The engine is allocated to a workload instance, and not lent (R145). -/
def State.owned (s : State) (e : Nat) : Bool :=
  (upTo 17 fun i => i != 0 && s.ownsEngine i e).isEmpty == false && !(s.engine e).lent

/-- An evaluation of the engine runs: a step's, a pleat's, a check or a requested test. -/
def State.evaluates (s : State) (e : Nat) : Bool :=
  let g := s.engine e
  g.eval.isSome || g.pleat != 0 || g.testing || s.arr.checks.any fun c => c.engine == e && c.running

/-- An aperture write is served: refused on an engine of a workload instance and on a retired one (R145). -/
def State.aperServe (s : State) (e o v : Nat) : State :=
  if (s.engine e).retired || s.owned e then s.setFlag (R.DIE_PERI_STATUS_WRITE_REFUSED (e / 12288)) true else s.periWrite e o v

/-- The aperture writes that wait for engine `e`, served in their order. -/
def State.aperLand (s : State) (e : Nat) : State :=
  (s.arr.aper.filter fun x => x.1 == e).foldl (fun (a : State) x => a.aperServe e x.2.1 x.2.2)
    { s with arr := { s.arr with aper := s.arr.aper.filter fun x => x.1 != e } }

/-- Between evaluations of the engine, waiting aperture writes are served (R145). -/
def State.aperIn (s : State) (e : Nat) : State := if s.evaluates e then s else s.aperLand e

/-- The same for every engine that has one waiting. -/
def State.aperAll (s : State) : State := (s.arr.aper.map Prod.fst).eraseDups.foldl State.aperIn s

/-! ### Temperature and age (R57, R114) -/

/-- Reading of a core's temperature sensor, in 0.25 °C units above −64 °C (R114). -/
def State.coreTemp (s : State) (core : Nat) : Nat := Tab.get (fun _ => 0) s.arr.coreTemp core

/-- Temperature of an engine's core, or of the guard domain (R473), in 0.25 °C. -/
def State.quarters (s : State) (e : Nat) : Int :=
  if isGuard e then 4 * s.guard.temp else (s.coreTemp (coreOf e) : Nat) - 256

/-- Temperature of an engine's core, or of the guard domain, in whole °C (R114, R473). -/
def State.degrees (s : State) (e : Nat) : Int := s.quarters e / 4

/-- Where an engine's age is kept: its core, or the guard domain. -/
def ageKey (e : Nat) : Nat := if isGuard e then nCores else coreOf e

/-- Effective age of an engine's decks since the start, in 2^-32 ns (R57). -/
def State.ageOf (s : State) (e : Nat) : Nat := s.arr.aged + Tab.get (fun _ => 0) s.arr.agedHot (ageKey e)

/-- `dt` ns pass: every deck ages, and those above 85 °C faster (R57). Temperatures are those of the last sensor samples. -/
def State.grow (s : State) (dt : Nat) : State :=
  let more := fun (t : Tab Nat) (k q : Nat) =>
    if q ≤ 596 then t else Tab.put (fun _ => 0) t k (Tab.get (fun _ => 0) t k + dt * (ageRate q - 2 ^ 32))
  let hot := s.arr.coreTemp.foldl (fun t p => more t p.1 p.2) s.arr.agedHot
  { s with arr := { s.arr with
    aged := s.arr.aged + dt * 2 ^ 32, agedHot := more hot nCores (4 * (s.guard.temp + 64)).toNat } }

end Sys2Proof.Machine
end

