-- ==== Sys2Proof/Machine/StepImage.lean ====
section
/-!
DEFINITION. The step image: its container, its sections and the check that accepts or rejects it (R314 to R343, with
R67, R68, R100, R101, R104, R218, R219, R227 to R233, R247, R281, R346, R368, R585).
-/

namespace Sys2Proof.Machine

/-! ### Breaches (R318, R319) -/

/-- A breach: the row of R318, the section type and the byte offset that the record names. -/
structure Breach where
  row : Nat
  sec : Nat
  off : Nat
  deriving DecidableEq, Repr

/-- A breach unless a condition holds. -/
def need (ok : Bool) (row sec off : Nat) : List Breach := if ok then [] else [⟨row, sec, off⟩]

/-- The breach that decides: the first found of the lowest row (R318). -/
def firstBreach (bs : List Breach) : Option Breach :=
  (List.range 7).findSome? fun r => bs.find? fun b => b.row == r

/-- Status of a row of R318. -/
def rowStatus (r : Nat) : Nat := if 2 ≤ r ∧ r ≤ 5 then St.stepContract else St.stepImageInvalid

/-! ### The container (R315 to R317) -/

/-- A directory entry: its position, TYPE, SFLAGS, OFFSET, LENGTH and CRC. -/
structure DirEntry where
  pos   : Nat
  type  : Nat
  flags : Nat
  off   : Nat
  len   : Nat
  crc   : Nat
  deriving DecidableEq, Repr

/-- The directory entries of an image (R316). -/
def dirOf (b : List Nat) : List DirEntry :=
  (List.range (u16At b 0x10)).map fun i =>
    let p := 0x40 + 16 * i
    ⟨p, u16At b p, u16At b (p + 2), u32At b (p + 4), u32At b (p + 8), u32At b (p + 12)⟩

/-- Entry size of a section type; 0 = none (R317). -/
def entrySize (t : Nat) : Nat :=
  if t = 1 ∨ t = 2 ∨ t = 3 ∨ t = 10 then 8
  else if t = 5 then 528 else if t = 7 then 64 else if t = 8 then 48 else if t = 9 then 32 else if t = 11 then 24 else 0

/-- G2 implementation section types (R317). -/
def isImplType (t : Nat) : Bool := t == 2 || t == 3 || t == 4 || t == 10 || t == 11
/-- Section types the G2 knows. -/
def isKnownType (t : Nat) : Bool := decide (1 ≤ t ∧ t ≤ 11)

/-- An image under check. -/
structure Img where
  inst  : Nat
  bytes : List Nat
  outs  : List (Nat × Nat)
  deriving DecidableEq, Repr

/-- CONTRACT_MINOR. -/
def Img.minor (im : Img) : Nat := u16At im.bytes 6
/-- STEP_COUNT. -/
def Img.steps (im : Img) : Nat := u16At im.bytes 0x12

/-- A reserved field must be 0: row 5 of R318 above minor version 2, row 6 otherwise. -/
def Img.res (im : Img) (ok : Bool) (sec off : Nat) : List Breach := need ok (if im.minor > 2 then 5 else 6) sec off

/-- A directory entry whose section lies where it may (R316, R317). -/
def Img.placed (im : Img) (e : DirEntry) : Bool :=
  decide (e.off % 64 = 0 ∧ 0x40 + 16 * u16At im.bytes 0x10 ≤ e.off ∧ e.off + e.len ≤ u64At im.bytes 8)

/-- Offset and bytes of the first section of a type; nothing when there is none. -/
def Img.sec (im : Img) (t : Nat) : List Nat :=
  match (dirOf im.bytes).find? fun e => e.type == t && im.placed e with
  | some e => (im.bytes.drop e.off).take e.len
  | none => []

/-- The whole entries of a section with their offsets. -/
def Img.entries (im : Img) (t : Nat) : List (Nat × List Nat) :=
  let b := im.sec t
  let z := entrySize t
  (List.range (b.length / z)).map fun i => (i * z, (b.drop (i * z)).take z)

/-- Header and directory (R315 to R318). A section that is missing is named by the start of the directory, one that is repeated by
its second entry (R319; log entry 45). -/
def Img.checkHeader (im : Img) : List Breach :=
  let b := im.bytes
  let dir := dirOf b
  let dend := 0x40 + 16 * u16At b 0x10
  let impl := dir.any fun e => isImplType e.type || (bit e.flags 0 && decide (e.type < 0x8000))
  let once := fun (t : Nat) (must : Bool) =>
    match dir.filter fun e => e.type == t with
    | [] => need (!must) 6 0 0x40
    | [_] => []
    | _ :: e :: _ => need false 6 0 e.pos
  need (decide (u16At b 4 = 1)) 2 0 4
    ++ (if impl then need (decide (u16At b 0x14 = 0x848 ∧ u16At b 0x16 = 1)) 3 0 0x14
        else need (decide (u16At b 0x14 = 0 ∧ u16At b 0x16 = 0)) 6 0 0x14)
    ++ im.res (zeroAt b 0x20 28) 0 0x20
    ++ need (decide (1 ≤ u16At b 0x12)) 6 0 0x12
    ++ need (decide (1 ≤ u16At b 0x10 ∧ u16At b 0x10 ≤ 64 ∧ dend ≤ u64At b 8)) 6 0 0x10
    ++ (dir.flatMap fun e =>
      im.res (decide (e.flags < 4)) 0 (e.pos + 2)
        ++ need (!(bit e.flags 1) || isKnownType e.type || decide (0x8000 ≤ e.type)) 4 0 e.pos
        ++ need (!(bit e.flags 1 && decide (0x8000 ≤ e.type))) 6 0 e.pos
        ++ need (decide (e.type ≠ 11 ∨ 2 ≤ im.minor)) 4 0 e.pos
        ++ need (!isKnownType e.type || bit e.flags 0 == isImplType e.type) 6 0 e.pos
        ++ need (decide (entrySize e.type = 0 ∨ e.len % entrySize e.type = 0)) 6 0 e.pos
        ++ need (im.placed e) 6 0 (e.pos + 4)
        ++ need (!im.placed e || crc32c ((b.drop e.off).take e.len) == e.crc) 6 0 (e.pos + 12)
        ++ need (!dir.any fun f => decide (f.pos < e.pos ∧ f.off < e.off + e.len ∧ e.off < f.off + f.len)) 6 0 e.pos)
    ++ once 1 true ++ once 2 true ++ once 6 true
    ++ [3, 4, 5, 7, 8, 9, 10, 11].flatMap fun t => once t false

/-! ### Parsed sections -/

/-- BUFFERS: handle and ACCESS (R329). -/
def Img.bufs (im : Img) : List (Nat × Nat) := (im.entries 1).map fun e => (u32At e.2 0, u8At e.2 4)
/-- ENGINE_MAP: core and mask (R321). -/
def Img.emap (im : Img) : List (Nat × Nat) := (im.entries 2).map fun e => (u32At e.2 0, u16At e.2 4)
/-- DECK_BINDINGS: engine, deck, PAIR (R322). -/
def Img.binds (im : Img) : List (Nat × Nat × Bool) :=
  (im.entries 3).map fun e => (fld (u32At e.2 0) 16 0, fld (u32At e.2 0) 19 17, bit (u32At e.2 0) 20)
/-- PLEAT_MAP: first engine and size (R323). -/
def Img.pleats (im : Img) : List (Nat × Nat) := (im.entries 10).map fun e => (u32At e.2 0, u8At e.2 4)
/-- CODEBOOKS: core, slot, bytes (R330). -/
def Img.books (im : Img) : List (Nat × Nat × List Nat) :=
  (im.entries 5).map fun e => (u32At e.2 0, u8At e.2 4, e.2.drop 16)
/-- PE_PARAMS blocks (R332). -/
def Img.params (im : Img) : List (List Nat) := (im.entries 7).map Prod.snd
/-- PREFETCH entries (R280). -/
def Img.prefetch (im : Img) : List (List Nat) := (im.entries 8).map Prod.snd
/-- PEG_PLAN entries (R331). -/
def Img.plan (im : Img) : List (List Nat) := (im.entries 9).map Prod.snd
/-- CHECK_SOURCES entries (R326). -/
def Img.sources (im : Img) : List (List Nat) := (im.entries 11).map Prod.snd

/-- PERIPHERY records from a section offset on: offset, and the record's bytes from its head to its padding. -/
def periRecords : Nat → Nat → List Nat → List (Nat × List Nat)
  | 0, _, _ => []
  | n + 1, o, b =>
    if b.isEmpty then [] else
    let z := 16 + (u32At b 8 + 15) / 16 * 16
    (o, b.take z) :: periRecords n (o + z) (b.drop z)

/-- PERIPHERY records with their offsets (R325). -/
def Img.periRecs (im : Img) : List (Nat × List Nat) := periRecords (im.sec 4).length 0 (im.sec 4)

/-- PERIPHERY: engine, local offset, words (R325). -/
def Img.peri (im : Img) : List (Nat × Nat × List Nat) :=
  im.periRecs.map fun r => (u32At r.2 0, u32At r.2 4, wordsOf ((r.2.drop 16).take (u32At r.2 8)))

/-- The engine is in a mask of ENGINE_MAP (R321). -/
def Img.mapped (im : Img) (e : Nat) : Bool := im.emap.any fun m => m.1 == e / 16 && bit m.2 (e % 16)
/-- The core is in ENGINE_MAP. -/
def Img.hasCore (im : Img) (c : Nat) : Bool := im.emap.any fun m => m.1 == c
/-- The deck is listed in DECK_BINDINGS (R322). -/
def Img.bound (im : Img) (e k : Nat) : Bool := im.binds.any fun d => d.1 == e && d.2.1 == k
/-- The listed PAIR of a deck. -/
def Img.pairOf (im : Img) (e k : Nat) : Bool := im.binds.any fun d => d.1 == e && d.2.1 == k && d.2.2

/-- A byte range lies inside one listed buffer with the access asked for (R329); `unit` is the flat core, the flat
cluster or the handle. -/
def State.imgInside (s : State) (im : Img) (tier unit a n : Nat) (rd wr : Bool) : Bool :=
  im.bufs.any fun l => (!rd || bit l.2 0) && (!wr || bit l.2 1) &&
    match s.live l.1 with
    | none => false
    | some b => b.tier == tier && b.owner == im.inst && (if tier = 2 then l.1 == unit && decide (a + n ≤ b.size)
        else b.loc == unit && decide (b.base ≤ a ∧ a + n ≤ b.base + b.size))

/-- Handle of a buffer slot; 0, which is never live, when there is no such slot. -/
def Img.handle (im : Img) (slot : Nat) : Nat := (im.bufs.getD slot (0, 0)).1

/-! ### Sections but STREAMS (R321 to R334) -/

/-- Entries 0 to k − 1 of a list hold `v` under `key`. -/
def seenBefore (l : List (Nat × Nat)) (k v : Nat) : Bool := (l.take k).any fun p => p.1 == v

/-- BUFFERS (R329). -/
def State.checkBuffers (s : State) (im : Img) : List Breach :=
  need (decide (im.bufs.length ≤ 4096)) 6 1 (8 * 4096)
    ++ (im.entries 1).flatMap fun e =>
      im.res (decide (u8At e.2 4 < 4) && zeroAt e.2 5 3) 1 (e.1 + 4)
        ++ need (match s.live (u32At e.2 0) with
          | some b => b.owner == im.inst
          | none => false) 6 1 e.1

/-- ENGINE_MAP (R320, R321): every core is in the hamper as it stands, and appears once. -/
def State.checkMap (s : State) (im : Img) : List Breach :=
  (im.entries 2).flatMap fun e =>
    im.res (zeroAt e.2 6 2) 2 (e.1 + 6)
      ++ need (decide (u32At e.2 0 < nCores) && (s.inst im.inst).cores.contains (u32At e.2 0)
        && !seenBefore im.emap (e.1 / 8) (u32At e.2 0)) 6 2 e.1

/-- DECK_BINDINGS (R322). -/
def State.checkBindings (s : State) (im : Img) : List Breach :=
  (im.entries 3).flatMap fun e =>
    let v := u32At e.2 0
    let d := s.deck (fld v 16 0) (fld v 19 17)
    im.res (decide (v < 2 ^ 21) && zeroAt e.2 4 4) 3 e.1
      ++ need (im.mapped (fld v 16 0) && d.pair == bit v 20) 6 3 e.1

/-- A span that R99 and R100 allow. -/
def pleatSpan (first size : Nat) : Bool :=
  (size == 2 || size == 4) && decide (first + size ≤ nEngines ∧ first / 384 = (first + size - 1) / 384)

/-- PLEAT_MAP (R101, R323). -/
def Img.checkPleats (im : Img) : List Breach :=
  (im.entries 10).flatMap fun e =>
    im.res (zeroAt e.2 5 3) 10 (e.1 + 5)
      ++ need (pleatSpan (u32At e.2 0) (u8At e.2 4) && (membersOf (u8At e.2 4) (u32At e.2 0)).all fun m => im.mapped m) 6 10 e.1

/-- PERIPHERY (R325). -/
def Img.checkPeri (im : Img) : List Breach :=
  im.periRecs.flatMap fun r =>
    let n := u32At r.2 8
    need (decide (16 ≤ r.2.length ∧ r.2.length = 16 + (n + 15) / 16 * 16)) 6 4 r.1
      ++ im.res (zeroAt r.2 12 4) 4 (r.1 + 12)
      ++ need (im.mapped (u32At r.2 0) && periWritable (u32At r.2 4) n) 6 4 r.1
      ++ im.res ((r.2.drop (16 + n)).all (· == 0)) 4 (r.1 + 16 + n)

/-- CODEBOOKS (R69, R330). -/
def Img.checkBooks (im : Img) : List Breach :=
  (im.entries 5).flatMap fun e =>
    need (im.hasCore (u32At e.2 0) && decide (u8At e.2 4 ≤ 7)) 6 5 e.1
      ++ im.res (zeroAt e.2 5 11) 5 (e.1 + 5)
      ++ im.res ((List.range 256).all fun c => decide (u8At e.2 (17 + 2 * c) % 128 = 0)) 5 (e.1 + 16)

/-- PEG_PLAN (R331, R355). -/
def State.checkPlan (s : State) (im : Img) : List Breach :=
  (im.entries 9).flatMap fun e =>
    let t := u8At e.2 0
    let l := u32At e.2 4
    let a := u64At e.2 8
    im.res (zeroAt e.2 2 2 && zeroAt e.2 24 8 && (decide (t ≠ 3) || l == 0)) 9 (e.1 + 2)
      ++ need (decide (t ≤ 3 ∧ u8At e.2 1 ≤ 1)) 6 9 e.1
      ++ need (if t = 0 then s.pegAssigned im.inst l a
          else decide (a % 8 = 0) && (t == 3 || s.imgInside im t (if t = 2 then im.handle l else l) a 8 false false)) 6 9 (e.1 + 4)

/-- The bytes that a T2 check source reads lie in a listed buffer: the image header and, when the header is one, the section
(R180, R329). -/
def State.sourceInside (s : State) (im : Img) (h sec a : Nat) : Bool :=
  let b := (s.t2Read im.inst h a 64).2.bytes
  s.imgInside im 2 h a 64 true false
    && (!(imageHeaderOk b && sectionIn b sec) || s.imgInside im 2 h (a + sectionAt b sec) sectionBytes true false)

/-- CHECK_SOURCES (R326). -/
def State.checkSources (s : State) (im : Img) : List Breach :=
  (im.entries 11).flatMap fun e =>
    let v := u32At e.2 0
    let t := u8At e.2 4
    im.res (decide (v < 2 ^ 20) && zeroAt e.2 5 3 && (decide (t ≠ 4) || u32At e.2 8 == 0)) 11 e.1
      ++ need (im.mapped (fld v 16 0) && (t == 2 || t == 4)) 6 11 e.1
      ++ need (decide (t ≠ 2) || s.sourceInside im (u32At e.2 8) (u32At e.2 12) (u64At e.2 16)) 6 11 (e.1 + 8)

/-- The output table (R393). -/
def Img.checkOuts (im : Img) : List Breach :=
  (im.outs.zipIdx).flatMap fun o =>
    need (decide (o.1.1 % 64 = 0 ∧ o.1.2 % 64 = 0 ∧ 64 ≤ o.1.2 ∧ o.1.2 ≤ 2 ^ 32)) 6 0xFFFF (16 * o.2)

/-! ### PREFETCH (R247, R280, R281, R334) -/

/-- Element bytes of a tile transfer's OUT_FMT. -/
def tileOutBytes (fmt : Nat) : Nat := if fmt = 0 then 2 else 1
/-- Block columns of a tensor (R248). -/
def tileNbc (e : List Nat) : Nat := (u16At e 0x26 + 1 + 63) / 64
/-- Tiles of a tensor (R248). -/
def tileTotal (e : List Nat) : Nat := (u16At e 0x24 + 1 + 63) / 64 * tileNbc e

/-- Destination bytes of a tile transfer: first offset from DST, and length (R248, R249). -/
def tileDst (e : List Nat) : Nat × Nat :=
  let eo := tileOutBytes (fld (u16At e 0xA) 2 1)
  let f := u32At e 0x1C
  let l := f + u32At e 0x20 - 1
  let nbc := tileNbc e
  let cols := u16At e 0x26 + 1
  let rows := min (64 * (l / nbc - f / nbc + 1)) (u16At e 0x24 + 1 - 64 * (f / nbc))
  let c0 := if l / nbc = f / nbc then 64 * (f % nbc) else 0
  let c1 := if l / nbc = f / nbc then min cols (64 * (l % nbc + 1)) else cols
  (c0 * eo, (rows - 1) * u32At e 0x28 + c1 * eo - c0 * eo)

/-- The tile rules of R247. -/
def State.checkTile (s : State) (im : Img) (o : Nat) (e : List Nat) : List Breach :=
  let z := tileStride (u8At e 0x2C) (u8At e 0x2D)
  let f := u32At e 0x1C
  let n := u32At e 0x20
  let ok := formatOk (u8At e 0x2C) && rankOk (u8At e 0x2D) && decide (f < tileTotal e ∧ 1 ≤ n ∧ n ≤ tileTotal e - f)
    && decide (fld (u16At e 0xA) 2 1 ≤ 2 ∧ u32At e 0x28 % 64 = 0 ∧ u8At e 7 < 128 ∧ u8At e 6 ≠ 3)
  need (decide (1 ≤ im.minor)) 4 8 (o + 5)
    ++ im.res (decide (u16At e 0xA < 8)) 8 (o + 0xA)
    ++ need ok 6 8 (o + 0x1C)
    ++ (if !ok then [] else
      need (decide (u8At e 6 ≠ 2)
          || s.imgInside im 2 (u32At e 0xC) (u64At e 0x10 + f * z) (n * z) true false) 6 8 (o + 0x10)
        ++ need (s.imgInside im 1 (u16At e 8) (u32At e 0x18 + (tileDst e).1) (tileDst e).2 false true) 6 8 (o + 0x18))

/-- The copy rules of R280 and R281. -/
def State.checkCopy (s : State) (im : Img) (o : Nat) (e : List Nat) : List Breach :=
  let n := u32At e 0x1C
  let a := u64At e 0x10
  let t0 := bit (u8At e 7) 7
  let u := if t0 then u16At e 8 * 24 + u8At e 7 % 32 else u16At e 8
  im.res (u16At e 0xA == 0 && zeroAt e 0x20 14) 8 (o + 0xA)
    ++ need (decide (n % 64 = 0 ∧ 64 ≤ n ∧ n ≤ 4194304)) 6 8 (o + 0x1C)
    ++ need (if u8At e 6 = 2 then s.imgInside im 2 (u32At e 0xC) a n true false
        else decide (u8At e 6 ≠ 3 ∨ a + n ≤ flashUserBytes)) 6 8 (o + 0x10)
    ++ need (s.imgInside im (if t0 then 0 else 1) u (u32At e 0x18) n false true) 6 8 (o + 0x18)

/-- USE_STEP of the scheduled entries before entry `k`, the largest (R280: schedule order). -/
def Img.lastUse (im : Img) (k : Nat) : Nat :=
  (im.prefetch.take k).foldl (fun m e => if u16At e 0 = 0xFFFF then m else max m (u16At e 0)) 0

/-- PREFETCH (R280, R281, R334). -/
def State.checkPrefetch (s : State) (im : Img) : List Breach :=
  (im.entries 8).flatMap fun p =>
    let o := p.1
    let e := p.2
    let use := u16At e 0
    let dst := u8At e 7
    need (decide (u8At e 5 ≤ 1 ∧ 2 ≤ u8At e 6 ∧ u8At e 6 ≤ 4 ∧ u16At e 8 < 256 ∧ u8At e 4 ≤ 15
        ∧ u64At e 0x10 % 64 = 0 ∧ u32At e 0x18 % 64 = 0) && (!bit dst 7 || decide (dst % 32 ≤ 23))) 6 8 o
      ++ im.res (decide (fld dst 6 5 = 0) && (bit dst 7 || dst % 32 == 0) && (u8At e 6 == 2 || u32At e 0xC == 0)
          && zeroAt e 0x2E 2) 8 (o + 7)
      ++ (if use = 0xFFFF then im.res (u8At e 4 == 0 && u16At e 2 == 0) 8 (o + 2)
          else need (decide (use < im.steps ∧ use ≤ u16At e 2 ∧ im.lastUse (o / 48) ≤ use)) 6 8 o)
      ++ (if u8At e 5 = 1 then s.checkTile im o e else s.checkCopy im o e)

/-! ### Evaluations (R67, R68, R338, R339) -/

/-- The row window and input address of R67 and R68. -/
def windowOk (base count input : Nat) : Bool :=
  decide (base ≤ 511 ∧ 1 ≤ count ∧ count ≤ 512 ∧ base + count ≤ 512 ∧ input % 64 = 0)

/-- The DECK_CFG0 that the bind leaves in force (R338): the last PERIPHERY word for it, else the present one. -/
def State.boundCfg (s : State) (im : Img) (e k : Nat) : Nat :=
  let a := 0x8E00 + 16 * k
  im.peri.foldl (fun v r =>
    if r.1 = e ∧ r.2.1 ≤ a ∧ a + 4 ≤ r.2.1 + 4 * r.2.2.length then r.2.2.getD ((a - r.2.1) / 4) 0 else v)
    (periGet s.arr.peri e a)

/-- The destination of an evaluation (R138, R338). -/
def State.checkDest (s : State) (im : Img) (o e k core kind dcore daddr : Nat) : List Breach :=
  let cfg := s.boundCfg im e k
  let dc := core / 768 * 768 + dcore
  need (decide (kind ≤ 2)) 6 6 o
    ++ (if kind = 0 then
      need (decide (dcore ≤ 767 ∧ daddr % 64 = 0) && im.hasCore dc) 6 6 (o + 2)
        ++ need (s.imgInside im 0 dc daddr (fmtBytes (fld cfg 31 30) (cfgOuts cfg (im.pairOf e k))) false true) 6 6 (o + 4)
    else need (decide (fld cfg 31 30 ≠ 1 ∧ fld cfg 31 30 ≠ 2)) 6 6 o)

/-- EVAL (R67, R68, R322, R338). -/
def State.checkEval (s : State) (im : Img) (core o : Nat) (b : List Nat) : List Breach :=
  let e := core * 16 + u8At b 8
  let k := u8At b 9
  let rows := u16At b 0xC
  im.res (decide (u8At b 0xF < 32) && zeroAt b 0x15 1 && zeroAt b 0x1C 4) 6 (o + 0xF)
    ++ need (decide (u8At b 8 ≤ 15) && im.mapped e) 6 6 (o + 8)
    ++ need (decide (k ≤ 7) && im.bound e k) 6 6 (o + 9)
    ++ need (windowOk (u16At b 0xA) rows (u32At b 0x10)) 6 6 (o + 0xA)
    ++ need (decide (u8At b 0xE ≤ 7)) 6 6 (o + 0xE)
    ++ need (s.imgInside im 0 core (u32At b 0x10) (codeBytes (bit (u8At b 0xF) 0) rows) true false) 6 6 (o + 0x10)
    ++ s.checkDest im (o + 0x14) e k core (u8At b 0x14) (u16At b 0x16) (u32At b 0x18)

/-- Member word `m` of an EVAL_PLEAT (R339). -/
def memberWord (b : List Nat) (m : Nat) : Nat := u64At b (if m = 0 then 0x18 else 0x20 + 8 * m)
/-- DECK of a member word. -/
def mwDeck (w : Nat) : Nat := fld w 2 0
/-- ROW_BASE of a member word. -/
def mwBase (w : Nat) : Nat := fld w 11 3
/-- ROW_COUNT of a member word. -/
def mwCount (w : Nat) : Nat := fld w 21 12
/-- INPUT of a member word. -/
def mwInput (w : Nat) : Nat := fld w 38 22

/-- EVAL_PLEAT (R101, R103, R104, R339). -/
def State.checkPleat (s : State) (im : Img) (core o : Nat) (b : List Nat) : List Breach :=
  let size := u8At b 8
  let first := u32At b 0xC
  let ctrl := u8At b 0xA
  let head := first + size - 1
  let ms := List.range size
  need (im.pleats.contains (first, size) && head / 16 == core) 6 6 (o + 8)
    ++ need (!bit ctrl 5 || decide (2 ≤ im.minor)) 4 6 (o + 0xA)
    ++ im.res (decide (ctrl < 64) && zeroAt b 0xB 1 && zeroAt b 0x11 1 && zeroAt b 0x21 7) 6 (o + 0xA)
    ++ need (decide (u8At b 9 ≤ 7)) 6 6 (o + 9)
    ++ need (u8At b 0x20 == 0xFF) 6 6 (o + 0x20)
    ++ im.res ((List.range 4).all fun m => if m < size then decide (memberWord b m < 2 ^ 39) else memberWord b m == 0) 6 (o + 0x18)
    ++ (ms.flatMap fun m =>
      let w := memberWord b m
      need (windowOk (mwBase w) (mwCount w) (mwInput w) && im.bound (first + m) (mwDeck w)
        && s.imgInside im 0 ((first + m) / 16) (mwInput w) (codeBytes (bit ctrl 0) (mwCount w)) true false) 6 6 (o + 0x18))
    ++ need (ms.all fun m => im.pairOf (first + m) (mwDeck (memberWord b m)) == im.pairOf first (mwDeck (memberWord b 0))) 6 6 o
    ++ s.checkDest im (o + 0x10) head (mwDeck (memberWord b (size - 1))) core (u8At b 0x10) (u16At b 0x12) (u32At b 0x14)

/-! ### Vector unit and MOVE (R340 to R342) -/

/-- Elements, in bytes, that an operation reads through SRC_B (R340); 0 = it does not. -/
def srcBBytes (code count mode : Nat) : Nat :=
  if 0x10 ≤ code ∧ code ≤ 0x13 then 2 * count
  else if code = 0x14 then 4 * count
  else if code = 0x16 then 510
  else if code = 3 then (if fld mode 2 1 = 1 then 512 else if fld mode 2 1 = 2 then 32 else 0)
  else 0

/-- The pooling of a POOL operation: columns from its code, rows W_e from SHIFT (R340, R341). -/
def opPool (b : List Nat) : Option PoolMode :=
  (poolMode (fld (u8At b 0x18) 3 1) (fld (u8At b 0x18) 7 4)).map fun p => { p with we := u8At b 0x19 + 1 }

/-- Bytes a vector operation writes at DST. -/
def vecOutBytes (code : Nat) (b : List Nat) : Nat :=
  let n := u32At b 0x14
  if code = 0x16 then (if bit (u8At b 0x18) 1 then (n + 1) / 2 else n)
  else if code = 4 then
    match opPool b with
    | some p => 2 * poolOuts n (poolStride (u16At b 0x1A)) p.wc
    | none => 0
  else 2 * n

/-- Bytes a vector operation reads through SRC_A. -/
def vecInBytes (code : Nat) (b : List Nat) : Nat :=
  (if code = 4 then u8At b 0x19 * u32At b 0x1C else 0) + 2 * u32At b 0x14

/-- A source of a vector operation (R340). -/
def State.checkSrc (s : State) (im : Img) (core o v n : Nat) : List Breach :=
  if bit v 31 then
    im.res (decide (fld v 30 4 = 0)) 6 o ++ need (im.mapped (core * 16 + v % 16)) 6 6 o
  else need (decide (v % 64 = 0) && s.imgInside im 0 core v n true false) 6 6 o

/-- ACT, POOL and VEC_ operations (R340, R341). -/
def State.checkVec (s : State) (im : Img) (core o code : Nat) (b : List Nat) : List Breach :=
  let n := u32At b 0x14
  let mode := u8At b 0x18
  let intOnly := code == 3 || code == 4 || decide (0x14 ≤ code)
  let nb := srcBBytes code n mode
  need (decide (1 ≤ n ∧ n ≤ 65536)) 6 6 (o + 0x14)
    ++ need (!(intOnly && bit mode 0) && !(code == 3 && fld mode 2 1 == 3) && !(code == 4 && (opPool b).isNone)) 6 6 (o + 0x18)
    ++ need (decide (code ≠ 4 ∨ (u32At b 0x1C % 64 = 0 ∧ u16At b 0x1A ≤ 256))) 6 6 (o + 0x1A)
    ++ s.checkSrc im core (o + 8) (u32At b 8) (vecInBytes code b)
    ++ (if nb = 0 then [] else
      need (!bit (u32At b 0xC) 31 || decide (0x10 ≤ code ∧ code ≤ 0x13)) 6 6 (o + 0xC)
        ++ s.checkSrc im core (o + 0xC) (u32At b 0xC) nb)
    ++ need (decide (u32At b 0x10 % 64 = 0) && s.imgInside im 0 core (u32At b 0x10) (vecOutBytes code b) false true) 6 6 (o + 0x10)

/-- SPACE of a MOVE location (R342). -/
def locSpace (v : Nat) : Nat := fld v 63 60
/-- UNIT of a MOVE location. -/
def locUnit (v : Nat) : Nat := fld v 59 40
/-- OFFSET of a MOVE location. -/
def locOff (v : Nat) : Nat := fld v 39 0

/-- A T0, T1 or T2 side of a MOVE lies in a listed buffer. -/
def State.moveInside (s : State) (im : Img) (v n : Nat) (wr : Bool) : Bool :=
  s.imgInside im (locSpace v) (if locSpace v = 2 then im.handle (locUnit v) else locUnit v) (locOff v) n (!wr) wr

/-- MOVE (R325, R342, R393). -/
def State.checkMove (s : State) (im : Img) (o : Nat) (b : List Nat) : List Breach :=
  let src := u64At b 8
  let dst := u64At b 0x10
  let n := u32At b 0x18
  let ds := locSpace dst
  im.res (zeroAt b 0x1C 4) 6 (o + 0x1C)
    ++ need (decide (locSpace src ≤ 2) && (decide (ds ≤ 3) || decide (locSpace src ≤ 1)) && s.moveInside im src n false) 6 6 (o + 8)
    ++ need (if ds ≤ 2 then s.moveInside im dst n true
        else if ds = 3 then decide (locUnit dst < im.outs.length ∧ locOff dst + n ≤ (im.outs.getD (locUnit dst) (0, 0)).2)
        else if ds = 4 then im.hasCore (locUnit dst) && decide (locOff dst % 512 = 0 ∧ locOff dst < 4096)
        else decide (ds = 5) && im.mapped (locUnit dst) && periWritable (locOff dst) n) 6 6 (o + 0x10)
    ++ need (if ds ≤ 3 then decide (n % 64 = 0 ∧ 64 ≤ n ∧ n ≤ 4194304) else decide (ds ≠ 4 ∨ n = 512)) 6 6 (o + 0x18)

/-! ### Precision Engine operations (R218, R219, R223, R226 to R233, R332, R333) -/

/-- Function number: 8 × (OPCODE − 0x30) + FUNC (R343). -/
def peFunc (code func : Nat) : Nat := (code - 0x30) * 8 + func

/-- MATMUL. -/
def fMatmul : Nat := 0
/-- BATCHED. -/
def fBatched : Nat := 1
/-- GATHER. -/
def fGather : Nat := 2
/-- SCATTER. -/
def fScatter : Nat := 3
/-- SCATTER_ADD. -/
def fScatterAdd : Nat := 4
/-- QK. -/
def fQk : Nat := 8
/-- AV. -/
def fAv : Nat := 9
/-- ROPE. -/
def fRope : Nat := 10
/-- RMS. -/
def fRms : Nat := 16
/-- LAYER. -/
def fLayer : Nat := 17
/-- SOFTMAX. -/
def fSoftmax : Nat := 24
/-- TOPK. -/
def fTopk : Nat := 25

/-- The functions of R343. -/
def peKnown (f : Nat) : Bool := [0, 1, 2, 3, 4, 8, 9, 10, 16, 17, 24, 25].contains f

/-- M of a parameter block. -/
def pM (p : List Nat) : Nat := u16At p 0 + 1
/-- N of a parameter block. -/
def pN (p : List Nat) : Nat := u16At p 2 + 1
/-- K of a parameter block. -/
def pK (p : List Nat) : Nat := u16At p 4 + 1
/-- BATCH of a parameter block. -/
def pBatch (p : List Nat) : Nat := u8At p 6 + 1
/-- OUT_FMT. -/
def pOut (p : List Nat) : Nat := fld (u8At p 7) 6 4
/-- SAT. -/
def pSat (p : List Nat) : Bool := bit (u8At p 7) 7
/-- CADDR of operand A, B or C, or of SCALE or BIAS, at its offset. -/
def pAddr (p : List Nat) (o : Nat) : Nat := u32At p o
/-- Space of a CADDR (R333). -/
def caSpace (c : Nat) : Nat := fld c 31 30
/-- Format code of A; a stream counts as BF16 (R219). -/
def pAFmt (p : List Nat) : Nat := if caSpace (u32At p 8) = 2 then 0 else fld (u8At p 7) 1 0
/-- Format code of B. -/
def pBFmt (p : List Nat) : Nat := if caSpace (u32At p 0xC) = 2 then 0 else fld (u8At p 7) 3 2
/-- Bytes of an operand element. -/
def inBytes (f : Nat) : Nat := if f = 0 then 2 else 1
/-- Bytes of a result element. -/
def outElemBytes (f : Nat) : Nat := if f = 0 ∨ f = 4 then 4 else if f = 1 then 2 else 1
/-- Class of an operand format (R223): 0 = BF16, 1 = FP8, 2 = INT8. -/
def fmtClass (f : Nat) : Nat := if f = 0 then 0 else if f = 3 then 2 else 1
/-- k of TOPK. -/
def pTopk (p : List Nat) : Nat := fld (u32At p 0x38) 5 0 + 1
/-- Bytes of the values of a TOPK row, up to the indices (R232). -/
def topkValues (p : List Nat) : Nat := (pTopk p * inBytes (pAFmt p) + 63) / 64 * 64

/-- Byte fields (offset, length) that a function does not use (R332). -/
def peUnused (f : Nat) : List (Nat × Nat) :=
  let elem := [(4, 2), (6, 1), (0x20, 12)]
  let moveRows := [(2, 2), (6, 1), (7, 1), (0x18, 4), (0x28, 4), (0x2C, 4), (0x30, 4), (0x34, 4), (0x38, 4)]
  if f = fMatmul then [(6, 1), (0x20, 12), (0x34, 4), (0x38, 4)]
  else if f = fBatched then [(0x34, 4), (0x38, 4)]
  else if f = fQk then [(0x2C, 4), (0x30, 4)]
  else if f = fAv then [(0x34, 4), (0x38, 4)]
  else if f = fRope then elem ++ [(0x30, 4), (0x34, 4), (0x38, 4)]
  else if f = fRms then elem ++ [(0xC, 4), (0x18, 4), (0x30, 4), (0x38, 4)]
  else if f = fLayer then elem ++ [(0xC, 4), (0x18, 4), (0x38, 4)]
  else if f = fSoftmax then elem ++ [(0xC, 4), (0x18, 4), (0x2C, 4), (0x30, 4), (0x34, 4), (0x38, 4)]
  else if f = fTopk then elem ++ [(0xC, 4), (0x18, 4), (0x2C, 4), (0x30, 4), (0x34, 4)]
  else if f = fGather then moveRows
  else if f = fScatter then moveRows ++ [(0x20, 8)]
  else [(2, 2), (6, 1), (0x18, 4), (0x20, 12), (0x2C, 4), (0x30, 4), (0x34, 4), (0x38, 4)]

/-- Bits of FMT and CTRL that a function does not use are 0 (R332). -/
def peBitsOk (f : Nat) (p : List Nat) : Bool :=
  let c := u32At p 0x3C
  let fm := u8At p 7
  let mm := f == fMatmul || f == fBatched
  let tbl := f == fGather || f == fScatter || f == fScatterAdd
  (mm || decide (fld c 9 0 = 0)) && (f == fQk || !bit c 10) && (tbl || !bit c 11)
    && (decide (f ≤ 1) || f == fQk || f == fAv || decide (fld fm 3 2 = 0))
    && (f != fTopk || decide (fm / 16 = 0)) && (f != fScatterAdd || decide (fld fm 6 4 = 0))
    && (f != fTopk || decide (u32At p 0x38 < 64))

/-- The formats of a function (R223, R226, R228). -/
def peFmtOk (f : Nat) (p : List Nat) : Bool :=
  let a := pAFmt p
  let b := pBFmt p
  let o := pOut p
  let int := fmtClass a == 2
  decide (o ≤ 5) &&
    (if f = fMatmul ∨ f = fBatched then fmtClass a == fmtClass b && (int == decide (4 ≤ o))
      && (decide (o ≠ 5) || decide (1 ≤ fld (u32At p 0x3C) 9 5))
    else if f = fQk then fmtClass a == fmtClass b && !int && decide (o ≤ 1)
    else if f = fAv then fmtClass a == fmtClass b && !int && decide (o ≤ 3)
    else if f = fGather ∨ f = fScatter ∨ f = fTopk then true
    else if f = fScatterAdd then !int
    else !int && decide (o ≤ 3))

/-- The sizes of a function (R227, R232, R233). -/
def peSizeOk (f : Nat) (p : List Nat) : Bool :=
  let head := if f = fQk then pK p else pN p
  let w := u32At p 0x14
  let tbl := f == fGather || f == fScatter || f == fScatterAdd
  (!(f == fQk || f == fAv) || decide (head % 16 = 0 ∧ 16 ≤ head ∧ head ≤ 256))
    && (f != fRope || decide (pN p % 2 = 0 ∧ pN p ≤ 256))
    && (f != fTopk || decide (pTopk p ≤ pN p ∧ topkValues p + 4 * pTopk p ≤ u32At p 0x1C))
    && (!tbl || decide (64 ≤ w ∧ w ≤ 65536))
    && (f != fGather || (decide (w ≤ u32At p 0x1C) && (caSpace (u32At p 8) == 3 || u64At p 0x20 == 0)))
    && (!(f == fScatter || f == fScatterAdd) || u32At p 0x1C == 0)

/-- Strides are multiples of 64 (R218); bytes 0x20 to 0x27 of a GATHER from T2 are the table's offset instead (R332). -/
def peStridesOk (f : Nat) (p : List Nat) : Bool :=
  (if f = fGather ∧ caSpace (u32At p 8) = 3 then [0x14, 0x18, 0x1C, 0x28] else [0x14, 0x18, 0x1C, 0x20, 0x24, 0x28]).all fun o =>
    u32At p o % 64 == 0

/-- Bytes that `rows` rows of `rb` bytes over `nb` members cover. -/
def extent (nb bs rows stride rb : Nat) : Nat := (nb - 1) * bs + (rows - 1) * stride + rb

/-- The operand ranges of a function: offset of its CADDR, length, write (R227, R232, R233). -/
def peRanges (f : Nat) (p : List Nat) : List (Nat × Nat × Bool) :=
  let m := pM p
  let n := pN p
  let k := pK p
  let ea := inBytes (pAFmt p)
  let eb := inBytes (pBFmt p)
  let eo := outElemBytes (pOut p)
  let nb := if f = fMatmul then 1 else pBatch p
  let st := fun o => u32At p o
  let mat := fun ar ac br bc => [(8, extent nb (st 0x20) ar (st 0x14) (ac * ea), false),
    (0xC, extent nb (st 0x24) br (st 0x18) (bc * eb), false), (0x10, extent nb (st 0x28) m (st 0x1C) (n * eo), true)]
  let int := fmtClass (pAFmt p) == 2
  if f = fMatmul ∨ f = fBatched then
    mat m k k n ++ (if st 0x2C = 0 then [] else [(0x2C, n * (if int then 2 else 4), false)])
      ++ (if st 0x30 = 0 then [] else [(0x30, n * (if int && pOut p == 5 then 1 else 4), false)])
  else if f = fQk then mat m k n k
  else if f = fAv then
    mat m k k n ++ (if st 0x2C = 0 then [] else [(0x2C, n * 4, false)]) ++ (if st 0x30 = 0 then [] else [(0x30, n * 4, false)])
  else if f = fGather then
    [(0xC, 4 * m, false), (8, k * st 0x14, false), (0x10, extent 1 0 m (st 0x1C) (st 0x14), true)]
  else if f = fScatter then [(0xC, 4 * m, false), (8, m * st 0x14, false), (0x10, k * st 0x14, true)]
  else if f = fScatterAdd then
    [(0xC, 4 * m, false), (8, m * st 0x14, false), (0x10, k * st 0x14, true), (0x10, k * st 0x14, false)]
  else
    let row := [(8, extent 1 0 m (st 0x14) (n * ea), false),
      (0x10, extent 1 0 m (st 0x1C) (if f = fTopk then topkValues p + 4 * pTopk p else n * eo), true)]
    row ++ (if f = fRope then [(0xC, 4 * n, false)] else [])
      ++ (if st 0x2C = 0 then [] else [(0x2C, if f = fRope then 4 * m else 4 * n, false)])
      ++ (if st 0x30 = 0 then [] else [(0x30, 4 * n, false)])

/-- Unused bits of a CADDR are 0 (R333). -/
def caReserved (c : Nat) : Bool :=
  if caSpace c = 0 then decide (fld c 29 22 = 0)
  else if caSpace c = 1 then decide (fld c 29 27 = 0 ∧ fld c 21 17 = 0)
  else if caSpace c = 2 then decide (fld c 29 9 = 0)
  else decide (fld c 29 16 = 0)

/-- The space of a CADDR suits its place: streams feed MATMUL, T2 holds the GATHER table, T0 takes results (R218, R227,
R233, R333). -/
def caAllowed (f o c : Nat) : Bool :=
  caSpace c == 0
    || (caSpace c == 1 && o == 0x10 && f != fScatter && f != fScatterAdd)
    || (caSpace c == 2 && f == fMatmul && (o == 8 || o == 0xC))
    || (caSpace c == 3 && f == fGather && o == 8)

/-- One operand range (R218, R227, R329, R333). -/
def State.checkRange (s : State) (im : Img) (cl f o : Nat) (p : List Nat) (r : Nat × Nat × Bool) : List Breach :=
  let c := u32At p r.1
  let sp := caSpace c
  let e := cl * 384 + c % 512
  let a := if sp = 0 then c % 2 ^ 22 else if sp = 1 then c % 2 ^ 17 else u64At p 0x20
  let u := if sp = 0 then cl else if sp = 1 then cl * 24 + fld c 26 22 else im.handle (c % 65536)
  let tier := if sp = 0 then 1 else if sp = 1 then 0 else 2
  im.res (caReserved c) 7 (o + r.1)
    ++ need (caAllowed f r.1 c) 6 7 (o + r.1)
    ++ need (if sp = 2 then decide (c % 512 < 384) && im.mapped e
        else (decide (sp ≠ 1) || decide (fld c 26 22 ≤ 23)) && decide (a % 64 = 0)
          && s.imgInside im tier u a r.2.1 (!r.2.2) r.2.2) 6 7 (o + r.1)

/-- A Precision Engine operation and its parameter block (R227). -/
def State.checkPe (s : State) (im : Img) (cl o code : Nat) (b : List Nat) : List Breach :=
  let f := peFunc code (u8At b 8)
  let i := u32At b 0xC
  im.res (zeroAt b 9 3 && zeroAt b 0x10 16) 6 (o + 9)
    ++ need (decide (u8At b 8 < 8) && peKnown f) 6 6 (o + 8)
    ++ need (decide (f ≠ fTopk ∨ 2 ≤ im.minor)) 4 6 (o + 8)
    ++ match im.params[i]? with
      | none => need false 6 6 (o + 0xC)
      | some p =>
        let q := 64 * i
        ((peUnused f).flatMap fun r => need (zeroAt p r.1 r.2) 6 7 (q + r.1))
          ++ im.res (decide (u32At p 0x3C < 2 ^ 12)) 7 (q + 0x3C)
          ++ need (peBitsOk f p) 6 7 (q + 0x3C)
          ++ need (peFmtOk f p) 6 7 (q + 7)
          ++ need (peSizeOk f p) 6 7 q
          ++ need (peStridesOk f p) 6 7 (q + 0x14)
          ++ (peRanges f p).flatMap fun r => s.checkRange im cl f q p r

/-! ### Streams (R335 to R337, R343, R346) -/

/-- A stream directory entry: its offset in the section, KIND, UNIT, OP_OFFSET, SLOT_COUNT (R335). -/
structure SDir where
  pos   : Nat
  kind  : Nat
  unit  : Nat
  off   : Nat
  slots : Nat
  deriving DecidableEq, Repr

/-- The stream directory. -/
def Img.sdirs (im : Img) : List SDir :=
  let b := im.sec 6
  (List.range (min (u32At b 0) (b.length / 16))).map fun i =>
    let p := 16 + 16 * i
    ⟨p, u8At b p, u32At b (p + 4), u32At b (p + 8), u32At b (p + 12)⟩

/-- The operations of a run of slots, with their offsets: EVAL_PLEAT takes two slots (R336, R337). -/
def opsFrom : Nat → Nat → List Nat → List (Nat × List Nat)
  | 0, _, _ => []
  | n + 1, o, b =>
    if b.isEmpty then [] else
    let z := if u8At b 0 = 2 then 64 else 32
    (o, b.take z) :: opsFrom n (o + z) (b.drop z)

/-- The operations of a stream. -/
def Img.opsOf (im : Img) (d : SDir) : List (Nat × List Nat) :=
  opsFrom d.slots d.off (((im.sec 6).drop d.off).take (32 * d.slots))

/-- The opcodes of R337 but EXT. -/
def opKnown (c : Nat) : Bool :=
  decide (c ≤ 4) || decide (0x10 ≤ c ∧ c ≤ 0x16) || c == 0x20 || c == 0x21 || decide (0x30 ≤ c ∧ c ≤ 0x33)
    || decide (0x40 ≤ c ∧ c ≤ 0x43)

/-- An operation may stand in a core stream. -/
def inCore (c : Nat) : Bool := decide (c ≤ 4) || decide (0x10 ≤ c ∧ c ≤ 0x16) || c == 0x20 || decide (0x40 ≤ c)
/-- An operation may stand in a cluster stream. -/
def inCluster (c : Nat) : Bool := c == 0 || c == 0x20 || c == 0x21 || decide (0x30 ≤ c)

/-- PREFETCH: an in-line entry of the stream's cluster (R334, R343). -/
def Img.checkInline (im : Img) (cl o : Nat) (b : List Nat) : List Breach :=
  need (decide (1 ≤ im.minor)) 4 6 o
    ++ im.res (zeroAt b 0xC 20) 6 (o + 0xC)
    ++ need (match im.prefetch[u32At b 8]? with
      | some e => u16At e 0 == 0xFFFF && u16At e 8 == cl
      | none => false) 6 6 (o + 8)

/-- The word of a T1 or T2 peg lies in a buffer with the access that the operation makes (R329): an ADD reads and writes it, a SET
writes it, a wait reads it. -/
def State.pegAccess (s : State) (im : Img) (code : Nat) (e : List Nat) : Bool :=
  let t := u8At e 0
  t == 0 || t == 3
    || s.imgInside im t (if t = 2 then im.handle (u32At e 4) else u32At e 4) (u64At e 8) 8 (code != 0x41) (decide (code < 0x42))

/-- PEG operations (R329, R343, R368, R585). -/
def State.checkPeg (s : State) (im : Img) (o code : Nat) (b : List Nat) : List Breach :=
  im.res (zeroAt b 0xB 5 && zeroAt b 0x18 8) 6 (o + 0xB)
    ++ need (decide (u8At b 0xA ≤ 8)) 6 6 (o + 0xA)
    ++ need (match im.plan[u16At b 8]? with
      | some e => s.pegAccess im code e && (decide (code < 0x42)
          || (u8At e 0 != 3 && !(u8At e 0 == 2 && (s.mirrorOf im.inst (im.handle (u32At e 4))).isSome)))
      | none => false) 6 6 (o + 8)

/-- The body of an operation of a stream. -/
def State.checkBody (s : State) (im : Img) (d : SDir) (o : Nat) (b : List Nat) : List Breach :=
  let c := u8At b 0
  let cl := if d.kind = 1 then d.unit else clusterOf d.unit
  if c = 0 then im.res (zeroAt b 8 24) 6 (o + 8)
  else if c = 1 then s.checkEval im d.unit o b
  else if c = 2 then s.checkPleat im d.unit o b
  else if c = 0x20 then s.checkMove im o b
  else if c = 0x21 then im.checkInline cl o b
  else if isPe c then s.checkPe im cl o c b
  else if 0x40 ≤ c then s.checkPeg im o c b
  else s.checkVec im d.unit o c b

/-- The operations of a stream from the `k`-th on, the last STEP having been `last` (R336, R337). An operation in a stream of the
wrong kind is a breach of row 6; a breach of an earlier row in its body still decides (R318). -/
def State.checkOps (s : State) (im : Img) (d : SDir) : Nat → Nat → List (Nat × List Nat) → List Breach
  | _, _, [] => []
  | k, last, (o, b) :: t =>
    let c := u8At b 0
    let here :=
      if !opKnown c then need false (if c = 0xFF then 6 else 4) 6 o
      else
        let z := if c = 2 then 2 else 1
        let fits := if d.kind = 0 then inCore c else inCluster c
        need (decide (b.length = 32 * z)) 6 6 o
          ++ need (decide (u8At b 4 = z ∧ u16At b 2 < im.steps ∧ last ≤ u16At b 2)) 6 6 (o + 2)
          ++ need (decide (u8At b 1 % 128 < 2 ^ k)) 6 6 (o + 1)
          ++ im.res (zeroAt b 5 3) 6 (o + 5)
          ++ need fits 6 6 o ++ s.checkBody im d o b
    here ++ s.checkOps im d (k + 1) (max last (u16At b 2)) t

/-- Blocks that the evaluations of a stream queue for engine `e`'s consumers of kind `kind`, in order: channel counts
(R133, R135, R346). The accumulator holds the deck of an open window, its evaluations so far, and the blocks. -/
def State.blocksOf (s : State) (im : Img) (core e kind : Nat) (ops : List (Nat × List Nat)) : List Nat :=
  let upd := fun (a : Nat × Nat × List Nat) (k dk : Nat) =>
    let cfg := s.boundCfg im e k
    let we := ((cfgPool cfg).map PoolMode.we).getD 1
    let n := if a.1 = k then a.2.1 + 1 else 1
    if n = we then (k, 0, if dk = kind then a.2.2 ++ [cfgOuts cfg (im.pairOf e k)] else a.2.2) else (k, n, a.2.2)
  (ops.foldl (fun a o =>
    let b := o.2
    if u8At b 0 = 1 ∧ core * 16 + u8At b 8 = e then upd a (u8At b 9) (u8At b 0x14)
    else if u8At b 0 = 2 ∧ u32At b 0xC + u8At b 8 - 1 = e then upd a (mwDeck (memberWord b (u8At b 8 - 1))) (u8At b 0x10)
    else a) (8, 0, [])).2.2

/-- Element counts with which the operations of a core stream take engine `e`'s blocks (R346). -/
def vecTakes (core e : Nat) (ops : List (Nat × List Nat)) : List (Nat × Nat) :=
  ops.flatMap fun o =>
    let b := o.2
    let c := u8At b 0
    let two := decide (0x10 ≤ c ∧ c ≤ 0x13)
    let n := u32At b 0x14 * (if c = 4 then u8At b 0x19 + 1 else 1)
    let hit := fun v => bit v 31 && core * 16 + v % 16 == e
    if isVector c then
      (if hit (u32At b 8) then [(o.1, n)] else []) ++ (if two && hit (u32At b 0xC) then [(o.1, n)] else [])
    else []

/-- Element counts with which the operations of a cluster stream take engine `e`'s blocks (R346). -/
def Img.peTakes (im : Img) (cl e : Nat) (ops : List (Nat × List Nat)) : List (Nat × Nat) :=
  ops.flatMap fun o =>
    if isPe (u8At o.2 0) then
      match im.params[u32At o.2 0xC]? with
      | none => []
      | some p =>
        let hit := fun c => caSpace c == 2 && cl * 384 + c % 512 == e
        (if hit (u32At p 8) then [(o.1, pM p * pK p)] else []) ++ (if hit (u32At p 0xC) then [(o.1, pK p * pN p)] else [])
    else []

/-- Every block taken has the element count of its consumer (R346). -/
def State.checkTakes (s : State) (im : Img) : List Breach :=
  let cores := im.sdirs.filter fun d => d.kind == 0
  cores.flatMap fun d =>
    let ops := im.opsOf d
    let cl := clusterOf d.unit
    let cops := (im.sdirs.filter fun c => c.kind == 1 && c.unit == cl).flatMap fun c => im.opsOf c
    (List.range 16).flatMap fun i =>
      let e := d.unit * 16 + i
      let pair := fun (l : List Nat) (t : List (Nat × Nat)) => (l.zip t).flatMap fun x => need (decide (x.1 = x.2.2)) 6 6 x.2.1
      pair (s.blocksOf im d.unit e 1 ops) (vecTakes d.unit e ops) ++ pair (s.blocksOf im d.unit e 2 ops) (im.peTakes cl e cops)

/-- STREAMS (R335). -/
def State.checkStreams (s : State) (im : Img) : List Breach :=
  let b := im.sec 6
  let ds := im.sdirs
  need (decide (16 ≤ b.length ∧ 16 + 16 * u32At b 0 ≤ b.length)) 6 6 0
    ++ im.res (zeroAt b 4 12) 6 4
    ++ (ds.flatMap fun d =>
      let cl := decide (d.unit < nClusters) && (im.emap.any (fun m => clusterOf m.1 == d.unit)
        || im.bufs.any fun l => match s.live l.1 with
          | some f => f.tier == 1 && f.loc == d.unit
          | none => false)
      let ok := decide (d.kind ≤ 1 ∧ d.off % 32 = 0 ∧ 1 ≤ d.slots ∧ d.slots ≤ 1048576 ∧ d.off + 32 * d.slots ≤ b.length)
        && (if d.kind = 0 then im.hasCore d.unit else cl)
        && !ds.any fun c => decide (c.pos < d.pos) && c.kind == d.kind && c.unit == d.unit
      im.res (zeroAt b (d.pos + 1) 3) 6 (d.pos + 1)
        ++ need ok 6 6 d.pos
        ++ (if d.off % 32 = 0 then s.checkOps im d 0 0 (im.opsOf d) else []))
    ++ s.checkTakes im

/-! ### The whole check (R318 to R320) -/

/-- Row 1 of R318: MAGIC, HEADER_CRC, IMAGE_LENGTH within the area. -/
def headBreach (b : List Nat) (area : Nat) : Option Breach :=
  if u32At b 0 ≠ 0x31495347 then some ⟨1, 0, 0⟩
  else if crc32c (b.take 0x3C) ≠ u32At b 0x3C then some ⟨1, 0, 0x3C⟩
  else if area < u64At b 8 then some ⟨1, 0, 8⟩
  else none

/-- Every breach of an image past row 1. The sections are read only in an image of contract major version 1. -/
def State.breaches (s : State) (im : Img) : List Breach :=
  im.checkHeader
    ++ (if u16At im.bytes 4 ≠ 1 then [] else
      s.checkBuffers im ++ s.checkMap im ++ s.checkBindings im ++ im.checkPleats ++ im.checkPeri ++ im.checkBooks
        ++ s.checkPrefetch im ++ s.checkPlan im ++ s.checkSources im ++ s.checkStreams im ++ im.checkOuts)

/-- The step that an accepted image becomes, before its bind. -/
def Img.toStep (im : Img) (d : Desc) (tag : List Nat) : Step where
  uid := d.uid
  inst := d.inst
  gen := d.gen
  ring := d.ring
  descId := dId d.bytes
  bound := false
  compat := false
  imgTier := tag.headD 2
  tag := tag
  stepCount := im.steps
  bufs := im.bufs
  cores := im.emap
  decks := im.binds.map fun b => (b.1, b.2.1)
  pleats := im.pleats.map fun p => ⟨p.2, p.1, false, 0, 0, false⟩
  peri := im.peri
  books := im.books
  params := im.params
  entries := im.prefetch.map fun e => ⟨e, 0, 0, false⟩
  plan := im.plan
  sources := im.sources
  outs := im.outs
  streams := im.sdirs.map fun d => ⟨d.kind == 1, d.unit, (im.opsOf d).map fun o => ⟨o.2, 0, []⟩, 0⟩
  status := 0
  failStep := 0
  evals := 0
  clips := 0
  splits := 0
  stallNs := [0, 0, 0, 0, 0]
  stall := []

end Sys2Proof.Machine
end

