-- ==== Sys2Proof/Machine/CheckOps.lean ====
section
/-!
DEFINITION. Weight images, check vectors, column calibration, fault localisation, darning and retirement: the
operations that programming, checking and the bind of a step share (R148, R157 to R159, R175 to R197).
-/

namespace Sys2Proof.Machine

/-! ### Weight images (R157 to R159) -/

/-- CRC-32C of a section with its CRC field taken as 0 (R158). -/
def sectionCrc (c : List Nat) : Nat := crc32c (c.take 0x3C ++ [0, 0, 0, 0] ++ c.drop 0x40)

/-- The section's PAIR flag. -/
def secPair (c : List Nat) : Bool := bit (u16At c 0) 0
/-- The section's codebook (R47). -/
def secBook (c : List Nat) : List Nat := (List.range 16).map fun k => u16At c (8 + 2 * k)
/-- The section's zero codes (R49, R158). -/
def secZero (c : List Nat) : List Nat := (List.range 16).map fun g => nibbleAt (c.drop 0x28) g
/-- Code of the cell at row `i`, data column `j` (R158). -/
def secCode (c : List Nat) (i j : Nat) : Nat := nibbleAt (c.drop (0x3000 + 256 * i)) j
/-- USED of a data column; in pair mode the even column's entry governs both (R158). -/
def secUsed (c : List Nat) (j : Nat) : Bool := bit (u16At c (0x40 + 2 * (if secPair c then j - j % 2 else j))) 0
/-- No reserved bit of FLAGS or COLUMN_MAP is set (R661 row 10). -/
def secReservedOk (c : List Nat) : Bool :=
  decide (u16At c 0 ≤ 1) && (List.range 512).all fun j => decide (u16At c (0x40 + 2 * j) ≤ 1)

/-- A valid weight codebook (R48). -/
def bookOk (b : List Nat) : Bool :=
  b.all (fun x => decide (500 ≤ x ∧ x ≤ 25000))
    && (List.range 15).all fun k => decide (b.getD k 0 + 625 ≤ b.getD (k + 1) 0)

/-- A uniform codebook, and every zero code 8 (R52). -/
def pairBookOk (b z : List Nat) : Bool :=
  let d := b.getD 1 0 - b.getD 0 0
  ((List.range 16).all fun k => b.getD k 0 == b.getD 0 0 + k * d) && z.all (· == 8)

/-- Target of the cell of row `i` and physical column `c`, in nS (R148). -/
def cellTarget (sec : List Nat) (i c : Nat) : Nat :=
  let g := c / 33
  let j := 32 * g + c % 33
  let code := if c % 33 = 32 then (secZero sec).getD g 0
    else if secUsed sec j then secCode sec i j else (secZero sec).getD g 0
  (secBook sec).getD code 0

/-- Mean drift exponent of a deck, in 10^-6 (R56). -/
def meanNu (id : Nat) : Nat := 4000 + Config.nuMean id % 4001

/-- A cell as a program pulse leaves it, verified and relaxed (R147, R63): draws `n` and `n + 1` are its programming error, within the
conductance range, and its drift exponent's distance from the deck's mean. -/
def placedCell (id age n target : Nat) : Cell :=
  ⟨(clampInt 500 25000 (target + Config.freeInt n)).toNat, (meanNu id + Config.freeInt (n + 1)).toNat, age⟩

/-- A cell of the deck `id` is placed at a target. -/
def Deck.put (d : Deck) (id age n row col target : Nat) : Deck :=
  { d with cells := Tab.put (fun _ => none) d.cells (row * 544 + col) (some (placedCell id age n target)) }

/-- Place cells of a row: physical column and target. -/
def Deck.place (d : Deck) (id age n row : Nat) (cells : List (Nat × Nat)) : Deck :=
  (cells.zipIdx).foldl (fun d p => d.put id age (n + 2 * p.2) row p.1.1 p.1.2) d

/-- Place cells of a row of a deck. -/
def State.placeRow (s : State) (e k row : Nat) (cells : List (Nat × Nat)) : State :=
  (s.modDeck e k fun d => d.place (deckKey e k) (s.ageOf e) s.free row cells).skip (2 * cells.length)

/-- Target of row `i` of a spare that is to serve physical column `c`: without a section, the mid level of R54. -/
def spareTarget (sec : Option (List Nat)) (i c : Nat) : Nat := match sec with
  | some s => cellTarget s i c
  | none => 12750

/-- Program spare `n` with the targets of physical column `c` (R189 step 3). -/
def State.placeSpare (s : State) (e k : Nat) (sec : Option (List Nat)) (n c : Nat) : State :=
  (List.range 512).foldl (fun a i => a.placeRow e k i [(spareCol n, spareTarget sec i c)]) s

/-! ### Check vectors (R175 to R181) -/

/-- Vector `v` of a section (R175). -/
def vecBytes (sec : List Nat) (v : Nat) : List Nat := (sec.drop (0x440 + 0x800 * v)).take 2048

/-- A vector is valid (R176). -/
def vecOk (index : Nat) (b : List Nat) : Bool :=
  crc32c (b.take 0x7FC) == u32At b 0x7FC && u32At b 0x208 == index
    && windowOk (u16At b 0x200) (u16At b 0x202) 0 && decide (u8At b 0x204 ≤ 7 ∧ u8At b 0x205 ≤ 1) && u8At b 0x206 != 0

/-- The vector of its bytes. -/
def vecOf (b : List Nat) : Vec where
  base := u16At b 0x200
  count := u16At b 0x202
  shift := u8At b 0x204
  posOnly := u8At b 0x205 == 1
  tol := u8At b 0x206
  input := b.take 512
  expected := (List.range 512).map fun j => toSigned 16 (u16At b (0x210 + 2 * j))

/-- The built-in vector of a rinsed deck (R181). -/
def builtIn : Vec := ⟨0, 512, 0, false, 2, List.replicate 512 0x7F, List.replicate 512 0⟩

/-- Entry of the check codebook for a code, in the layout of R69 (R177). -/
def checkEntry (c : Nat) : Nat :=
  let m := c % 128
  (if bit c 7 then 2 ^ 15 else 0) + (if m = 0 then 0 else 2 * m + 1)

/-- A deck as a rinse leaves it holds no codebook (R166). -/
def Deck.rinsed (d : Deck) : Bool := d.codebook.isEmpty

/-- Backup section of a guard engine (R471). -/
def State.backupSection (s : State) (e : Nat) : Option (List Nat) :=
  (Tab.get (fun _ => Backup.init) s.guard.backups ((e - nEngines) / 4)).sections.getD ((e - nEngines) % 4) none

/-- The section of a deck's resident image, read at its source (R180); none = not resident. A guard engine's is its backup
section (R471). -/
def State.residentSection (s : State) (e k : Nat) : State × Option (List Nat) :=
  let d := s.deck e k
  if isGuard e then (s, s.backupSection e) else
  match d.src with
  | none => (s, none)
  | some c =>
    let h := s.readSpace d.owner c.tier c.handle c.addr 64
    if h.2.status ≠ St.ok ∨ !imageHeaderOk h.2.bytes ∨ !sectionIn h.2.bytes c.section_ then (h.1, none)
    else
      let r := h.1.readSpace d.owner c.tier c.handle (c.addr + sectionAt h.2.bytes c.section_) sectionBytes
      if r.2.status ≠ St.ok ∨ !((List.range 4).all fun v => vecOk c.section_ (vecBytes r.2.bytes v)) then (r.1, none)
      else (r.1, some r.2.bytes)

/-- The first read that finds a deck's image not resident sets SRC_LOST and writes one record; a deck without a source is not read
(R180). -/
def State.sourceLost (s : State) (e k : Nat) : State :=
  let d := s.deck e k
  if d.srcLost || d.src.isNone then s
  else (s.setDeck e k { d with srcLost := true }).raiseOwner Rc.checkSourceLost d.owner (engineLoc e k) 0

/-- The vectors a deck is checked with: the built-in one, those of its resident image, or none. -/
def State.vectors (s : State) (e k : Nat) : State × List Vec :=
  if (s.deck e k).rinsed then (s, [builtIn])
  else
    let r := s.residentSection e k
    match r.2 with
    | some sec => (r.1, (List.range 4).map fun v => vecOf (vecBytes sec v))
    | none => (r.1.sourceLost e k, [])

/-! ### One evaluation of a deck (R64, R70 to R90, R92, R94, R96) -/

/-- What an evaluation meets of the physics: the deck's number, its engine's effective age (R57), the gain of its temperature against
TCAL (R59), and the number of its first read-noise draw. -/
structure Analog where
  id    : Nat
  age   : Nat
  gain  : Int
  noise : Nat
  deriving DecidableEq, Repr

/-- The physics of an evaluation that starts now. A calibration of a whole deck sets TCAL itself, so its runs have no offset from it
(R59, R65, R192). -/
def State.analog (s : State) (e k : Nat) (whole : Bool) : Analog :=
  ⟨deckKey e k, s.ageOf e, tempGain (if whole then 0 else s.quarters e - 4 * (s.deck e k).tcal), s.free⟩

/-- A cell: programmed, or as shipped (R55, R56). -/
def Deck.cellAt (d : Deck) (id key : Nat) : Cell :=
  match Tab.get (fun _ => none) d.cells key with
  | some c => c
  | none => ⟨(clampInt 500 25000 (12750 + Config.shipCell (id * 278528 + key) 0)).toNat,
      (meanNu id + Config.shipCell (id * 278528 + key) 1).toNat, 0⟩

/-- Effective age of a cell: since its verify, or since the part was made. -/
def Deck.cellAge (d : Deck) (age key : Nat) : Nat :=
  match Tab.get (fun _ => none) d.cells key with
  | some c => age - c.born
  | none => Config.shipAge * 2 ^ 32 + age

/-- What a read of a cell gives, in nS × `cellUnit` / 25,000: its conductance drifted (R56) and at its temperature (R59), with the read
noise of this evaluation (R63, R94), one draw for each cell. -/
def Deck.read (d : Deck) (a : Analog) (row col : Nat) : Int :=
  let key := row * 544 + col
  let c := d.cellAt a.id key
  (c.g0 * drift (d.cellAge a.age key) c.nu / 2 ^ 16 : Nat) * a.gain + Config.freeInt (a.noise + key)

/-- G_fs in the units of `Deck.read`: 25,000 nS, drift in 2^-16, gain in 1 / 40,000. -/
def cellUnit : Nat := 25000 * 2 ^ 16 * 40000

/-- Net charge of data column `j` in G_fs / `cellUnit` × drive units: its column less its group's reference column, through the
columns of the darn map (R50, R78, R79). A row not driven adds nothing (R65). -/
def Deck.charge (d : Deck) (a : Analog) (cols refs : List Nat) (base : Nat) (drives : List Int) (j : Nat) : Int :=
  (drives.zipIdx).foldl (fun q p =>
    if p.1 = 0 then q
    else q + p.1 * (d.read a (base + p.2) (cols.getD j 0) - d.read a (base + p.2) (refs.getD (j / 32) 0))) 0

/-- Physical columns that deliver for the data columns; within a programming target the pending spares serve already (R148). -/
def Deck.cols (d : Deck) (target : Bool) : List Nat :=
  (List.range 512).map fun j => if target then d.home (physCol j) else d.through (physCol j)
/-- Physical columns that deliver for the reference columns. -/
def Deck.refs (d : Deck) (target : Bool) : List Nat :=
  (List.range 16).map fun g => if target then d.home (refCol g) else d.through (refCol g)

/-- The net charges of all data columns. -/
def Deck.charges (d : Deck) (a : Analog) (cols refs : List Nat) (base : Nat) (drives : List Int) : List Int :=
  (List.range 512).map fun j => d.charge a cols refs base drives j

/-- Read-noise draws of one evaluation: one for each cell. -/
def noiseDraws : Nat := 512 * 544

/-- The conversions of net charges (R80, R89, R92): converter `conv j` of engine `e` takes column `j`. -/
def State.convertAll (s : State) (e : Nat) (conv : Nat → Nat) (nibble : Bool) (b sh : Nat) (charges : List Int) : List Conv :=
  let trims := Tab.get (fun _ => 0) s.arr.engTrim e
  (charges.zipIdx).map fun p => convertBy (Config.inl (e * 128 + conv p.2) trims) p.1 (driveUnit nibble * cellUnit) b sh

/-- The converter of a data column (R80). -/
def sarOf (j : Nat) : Nat := j / 8

/-- Codes of an evaluation made outside the rated range of V_ANA: any code with either saturation bit (R96). -/
def anyCodes (n b : Nat) : List Conv :=
  (List.range 512).map fun j =>
    ⟨(Config.freeNat (n + 2 * j) % 2 ^ b : Nat) - ((2 ^ (b - 1) : Nat) : Int), Config.freeNat (n + 2 * j + 1) % 2 == 1⟩

/-- Whether the die's V_ANA lies outside its rated range while a check or calibration runs: free (R96; log entry 21). The guard domain has
none. -/
def State.drawOor (s : State) (e : Nat) : Bool := !isGuard e && Config.freeNat s.free % 2 == 1

/-- The row drives of a check evaluation (R177). -/
def checkDrives (v : Vec) : List Int := (v.input.take v.count).map fun c => rowDrive false v.posOnly (checkEntry c)

/-- A check evaluation starts: the check buffer of the core takes its input, and the deck's rows are driven (R76, R96, R177). -/
def State.checkStart (s : State) (e k : Nat) (v : Vec) (oor : Bool) : State :=
  let buf := if isGuard e then s.arr.checkBuf else Tab.put (fun _ => []) s.arr.checkBuf (coreOf e) v.input
  (({ s with arr := { s.arr with checkBuf := buf } } : State).spendEval e false v.posOnly v.count (resolution v.count)).driveRows e k
    ((v.input.take v.count).any fun c => dropsSign false v.posOnly (checkEntry c)) oor

/-- Its conversions (R177). `whole`: it belongs to a calibration of the whole deck; `target`: to a programming target. -/
def State.checkConvert (s : State) (e k : Nat) (v : Vec) (oor whole target : Bool) : State × List Conv :=
  let d := s.deck e k
  let b := resolution v.count
  let cs := if oor then anyCodes s.free b
    else s.convertAll e sarOf false b v.shift (d.charges (s.analog e k whole) (d.cols target) (d.refs target) v.base (checkDrives v))
  ((s.skip noiseDraws).trimIn e, cs)

/-- One check evaluation from start to end. -/
def State.checkRun (s : State) (e k : Nat) (v : Vec) (whole target : Bool) : State × List Conv :=
  let oor := s.drawOor e
  ((s.skip 1).checkStart e k v oor).checkConvert e k v oor whole target

/-- TRIM of a data column. -/
def State.trimOf (s : State) (e k j : Nat) : Nat := periHalf s.arr.peri e (0x4000 + k * 0x400 + 2 * j)

/-- dev of R178. -/
def checkDev (q : Int) (trim : Nat) (x : Int) : Int := (q * trim + 16384) / 32768 - x

/-- A column passes (R178). -/
def columnPasses (q : Int) (sat : Bool) (trim : Nat) (x : Int) (tol : Nat) : Bool :=
  let dev := checkDev q trim x
  (!sat || q == x) && decide (dev.natAbs ≤ tol)

/-- The columns of a run that fail, each with whether its dev is negative. -/
def State.failing (s : State) (e k : Nat) (v : Vec) (cs : List Conv) : List (Nat × Bool) :=
  ((cs.zip v.expected).zipIdx).filterMap fun p =>
    let t := s.trimOf e k p.2
    if columnPasses p.1.1.q p.1.1.sat t p.1.2 v.tol then none
    else some (p.2, decide (checkDev p.1.1.q t p.1.2 < 0))

/-- Write a TRIM (R129, R192). -/
def State.setTrim (s : State) (e k j v : Nat) : State :=
  let o := 0x4000 + k * 0x400 + 2 * j
  let w := periGet s.arr.peri e (o - o % 4)
  s.setPeri e (o - o % 4) (if o % 4 = 0 then setFld w 15 0 v else setFld w 31 16 v)

/-! ### Column calibration (R192 to R194) -/

/-- HEALTH_COUNT `n` of an engine's die. -/
def State.health (s : State) (e n k : Nat) : State :=
  if isGuard e then s else s.bump (R.DIE_HEALTH_COUNT_COUNT (dieOfEngine e) n) k

/-- Eight runs of each vector. -/
def State.calRuns (s : State) (e k : Nat) (whole target : Bool) : List Vec → State × List (Vec × List (List Conv))
  | [] => (s, [])
  | v :: t =>
    let r := (List.range 8).foldl (fun (a : State × List (List Conv)) _ =>
      let c := a.1.checkRun e k v whole target
      (c.1, a.2 ++ [c.2])) (s, [])
    let u := r.1.calRuns e k whole target t
    (u.1, (v, r.2) :: u.2)

/-- What a column's runs of one vector give: expected code, sum of the eight codes, whether any saturated, TOL. -/
def columnSums (runs : List (Vec × List (List Conv))) (j : Nat) : List (Int × Int × Bool × Nat) :=
  runs.map fun r =>
    let cs := r.2.map fun c => c.getD j ⟨0, false⟩
    (r.1.expected.getD j 0, cs.foldl (fun a c => a + c.q) 0, cs.any Conv.sat, r.1.tol)

/-- The TRIM of a column (R192); none = a lasting fault. -/
def calTrim (l : List (Int × Int × Bool × Nat)) : Option Nat :=
  let ee : Int := l.foldl (fun a x => a + x.1 * x.1) 0
  let n : Int := l.foldl (fun a x => a + 8 * x.1 * x.2.1) 0
  let d : Int := l.foldl (fun a x => a + x.2.1 * x.2.1) 0
  if ee = 0 then some 0x8000
  else if d = 0 ∨ 5 * n < 4 * d ∨ 5 * d < 4 * n then none
  else some (min 0xFFFF ((65536 * n + d) / (2 * d)).toNat)

/-- A column with its new TRIM fails on a vector: the sign of dev (R192). -/
def calFails (trim : Nat) (l : List (Int × Int × Bool × Nat)) : Option Bool :=
  l.findSome? fun x =>
    let q := (2 * x.2.1 + 8) / 16
    if columnPasses q x.2.2.1 trim x.1 x.2.2.2 then none else some (decide (checkDev q trim x.1 < 0))

/-- Whether a deck has, as far as it is known, no source of valid vectors (R180, R194). -/
def Deck.noSource (d : Deck) (guard : Bool) : Bool := !guard && !d.rinsed && (d.src.isNone || d.srcLost)

/-- A deck whose due calibration finds no valid vector: it stays due (R194). -/
def State.calNone (s : State) (e k : Nat) : State := s.modDeck e k fun d => { d with calMissing := true }

/-- Calibrate a deck with vectors, or the listed data columns of it (R192, R193): the TRIMs are written, and the columns
with a lasting fault are given back, each with the sign of its dev, on which rows 3 and 4 of R187 turn. DESIGN CHOICE (log entry 23): a
column whose num / den lies out of range counts as positive, and one that fails on several vectors has the sign of the first. -/
def State.calibrateBy (s : State) (e k : Nat) (vs : List Vec) (only : Option (List Nat)) (target : Bool) :
    State × List (Nat × Bool) :=
  let r := s.calRuns e k only.isNone target vs
  let cols := only.getD (List.range 512)
  let u := cols.foldl (fun (a : State × List (Nat × Bool)) j =>
    let l := columnSums r.2 j
    match calTrim l with
    | none => (a.1, a.2 ++ [(j, false)])
    | some t =>
      let b := a.1.setTrim e k j t
      match calFails t l with
      | none => (b, a.2)
      | some neg => (b, a.2 ++ [(j, neg)])) (r.1, [])
  let w := match only with
    | none => u.1.modDeck e k fun d => { d with
        tcal := s.degrees e, calOk := true, calDue := false, colDue := [], calMissing := false }
    | some l => u.1.modDeck e k fun d => { d with
        colDue := d.colDue.filter fun j => !l.contains j, calMissing := d.calMissing && (d.calDue || !d.calOk) }
  (w.health e 9 1, u.2)

/-- Calibrate with the vectors a deck is checked with; without a valid one nothing runs and CAL_MISSING is set (R194). DESIGN CHOICE (log
entry 23): a rinsed deck, which has no source, is calibrated with the built-in vector of R181. -/
def State.calibrate (s : State) (e k : Nat) (only : Option (List Nat)) : State × List (Nat × Bool) :=
  let v := s.vectors e k
  if v.2.isEmpty then (v.1.calNone e k, []) else v.1.calibrateBy e k v.2 only false

/-! ### Who holds an engine (R156, R182) -/

/-- A bound step maps the engine. -/
def State.boundTo (s : State) (e : Nat) : Bool :=
  s.steps.any fun t => t.bound && t.cores.any fun c => c.1 == coreOf e && bit c.2 (e % 16)

/-- A programming target holds the engine, from its claim to its end (R156). -/
def State.progHolds (s : State) (e : Nat) : Bool :=
  s.arr.jobs.any fun j => decide (j.kind ≤ 6) && j.targets.any fun t => t.engine == e && decide (2 ≤ t.stage ∧ t.stage ≤ 4)

/-! ### The flash mirror (R172, R189, R191, R195) -/

/-- The mirror of a deck. -/
def State.flashMirror (s : State) (e k : Nat) : DeckMirror := Tab.get (fun _ => DeckMirror.init) s.arr.mirror (deckKey e k)

/-- Firmware writes the deck's entry of the mirror: its wear, its darn map and whether it is retired (log entry 22). -/
def State.mirrorDeck (s : State) (e k : Nat) : State :=
  let d := s.deck e k
  { s with arr := { s.arr with
    mirror := Tab.put (fun _ => DeckMirror.init) s.arr.mirror (deckKey e k) ⟨d.wear, d.spares, d.seq, d.retired⟩ } }

/-! ### Retirement (R195 to R197) -/

/-- A darn that stops leaves its spare and column pending (R202). -/
def Deck.pend (d : Deck) (x : Darn) : Deck :=
  { d with
    spares := d.spares.set x.spare (2, x.col)
    badCols := (d.badCols.filter fun p => p.1 != x.col) ++ [(x.col, 2)] }

/-- The darns of a deck stop at their current pass (R202). -/
def State.stopDarns (s : State) (p : Darn → Bool) : State :=
  let gone := s.arr.darns.filter p
  let s1 : State := { s with arr := { s.arr with darns := s.arr.darns.filter fun x => !p x } }
  gone.foldl (fun a x => (a.modDeck x.engine x.deck fun d => d.pend x).mirrorDeck x.engine x.deck) s1

/-- A deck takes its RETIRED bit and its mirror entry; it is never programmed again, so its darns stop (R195). -/
def State.setRetired (s : State) (e k : Nat) : State :=
  ((s.stopDarns fun x => x.engine == e && x.deck == k).modDeck e k fun d => { d with retired := true }).mirrorDeck e k

/-- Retire an engine with all its decks (R196). -/
def State.retireEngineNow (s : State) (e : Nat) : State :=
  if (s.engine e).retired then s else
  let owner := (s.deck e 0).owner
  let s1 := (List.range 8).foldl (fun (a : State) k => a.setRetired e k) s
  let s0 := s1.modEngine e fun g => { g with retired := true }
  let s2 := if isGuard e then s0 else s0.wr R.IDENT_ENGINES_AVAILABLE (s1.rd R.IDENT_ENGINES_AVAILABLE - 1)
  (s2.health e 6 1).raise Rc.engineRetired corrected owner e 0

/-- Retire a deck on its own (R195); the third of an engine retires the engine (R196). DESIGN CHOICE (log entry 23): the third deck is
retired on its own first, with its DECK_RETIRED record and its count in HEALTH_COUNT 5. -/
def State.retireDeckNow (s : State) (e k : Nat) : State :=
  let d := s.deck e k
  if d.retired then s else
  let s1 := ((s.setRetired e k).health e 5 1).raise St.deckRetired corrected d.owner (engineLoc e k) 0
  if 2 < countIf (fun j => (s1.deck e j).retired) (List.range 8) then s1.retireEngineNow e else s1

/-- Number of the whole engine in the list of what is to retire. -/
def wholeEngine : Nat := 8

/-- A deck, or with `wholeEngine` its engine, retires: at once in a gap or inside a programming target, else when no step is bound to the
engine any more (R197). -/
def State.retire (s : State) (e k : Nat) : State :=
  if s.boundTo e && !s.progHolds e then
    { s with arr := { s.arr with toRetire := if s.arr.toRetire.contains (e, k) then s.arr.toRetire else s.arr.toRetire ++ [(e, k)] } }
  else if k = wholeEngine then s.retireEngineNow e
  else s.retireDeckNow e k

/-- What was to retire of an engine that no step is bound to any more retires (R197). -/
def State.retireWaiting (s : State) (e : Nat) : State :=
  if s.boundTo e then s
  else
    let gone := s.arr.toRetire.filter fun p => p.1 == e
    let s1 : State := { s with arr := { s.arr with toRetire := s.arr.toRetire.filter fun p => p.1 != e } }
    gone.foldl (fun a p => a.retire p.1 p.2) s1

/-- A deck is retired, or is to be. -/
def State.retiring (s : State) (e k : Nat) : Bool :=
  (s.deck e k).retired || s.arr.toRetire.contains (e, k) || s.arr.toRetire.contains (e, wholeEngine)

/-! ### Darning (R188 to R190) -/

/-- Set the state of spare `n` for physical column `c`. -/
def Deck.setSpare (d : Deck) (n st c : Nat) : Deck := { d with spares := d.spares.set n (st, c) }

/-- Mark a physical column failed (1) or pending (2), or clear its mark (0). -/
def Deck.markCol (d : Deck) (c m : Nat) : Deck :=
  let rest := d.badCols.filter fun p => p.1 != c
  { d with badCols := if m = 0 then rest else rest ++ [(c, m)] }

/-- Lowest-numbered free spare (R189 step 1). -/
def Deck.freeSpare (d : Deck) : Option Nat := d.spares.findIdx? fun p => p.1 == 0

/-- A darn of physical column `c` is in progress or pending. -/
def Deck.inDarn (d : Deck) (c : Nat) : Bool := d.spares.any fun p => (p.1 == 4 || p.1 == 2) && p.2 == c

/-- Within a target, a pending spare that was to serve physical column `c` has failed (R166). -/
def Deck.failPending (d : Deck) (cs : List Nat) : Deck :=
  { d with spares := d.spares.map fun p => if p.1 == 2 && cs.contains p.2 then (3, p.2) else p }

/-- Darn physical column `c` (R189 steps 1 to 3). `rinse`: within a RINSE target, which needs no image. The deck retires
when no spare is free. What serves the column now, itself or a spare, goes on serving it until the darn's step 5 (R188, R190). -/
def State.darnColumn (s : State) (e k c : Nat) (target : Option (Nat × Nat)) (sec : Option (List Nat)) (rinse : Bool) : State :=
  let d := if target.isSome then (s.deck e k).failPending [c] else s.deck e k
  if d.inDarn c then s else
  match d.freeSpare with
  | none => (s.setDeck e k (d.markCol c 1)).retire e k
  | some n =>
    let d1 := { ((d.markCol c 1).setSpare n 4 c) with seq := (d.seq + 1) % 65536 }
    let s1 := (s.setDeck e k d1).mirrorDeck e k
    let r := if sec.isSome || rinse then (s1, sec) else s1.residentSection e k
    if r.2.isSome || rinse then
      let s2 := r.1.placeSpare e k r.2 n c
      { s2 with arr := { s2.arr with darns := s2.arr.darns ++ [⟨e, k, n, c, target⟩] } }
    else
      let s2 := ((r.1.sourceLost e k).modDeck e k fun d => (d.setSpare n 2 c).markCol c 2).mirrorDeck e k
      (s2.health e 4 1).raiseOwner Rc.darnPending d.owner (engineLoc e k) c

/-- Darn a list of physical columns; once the deck is retired the rest is left. -/
def State.darnColumns (s : State) (e k : Nat) (cs : List Nat) (target : Option (Nat × Nat)) (sec : Option (List Nat))
    (rinse : Bool) : State :=
  cs.foldl (fun s c => if s.retiring e k then s else s.darnColumn e k c target sec rinse) s

/-! ### Localisation (R187) -/

/-- CHECK_CTRL.PERIOD of an engine's die, in ns, 0 taken as 1 s. -/
def State.checkPeriod (s : State) (e : Nat) : Nat := max 1 (s.rd (R.DIE_CHECK_CTRL_PERIOD (dieOfEngine e))) * 1000000000

/-- Column groups that hold a failing column. -/
def failGroups (f : List (Nat × Bool)) : List Nat := upTo 16 fun g => f.any fun p => p.1 / 32 == g

/-- Physical columns to darn in a group (R187 rows 3 to 5). -/
def groupDarns (f : List (Nat × Bool)) (g : Nat) : List Nat :=
  let cs := f.filter fun p => p.1 / 32 == g
  let one := cs.all (fun p => p.2) || cs.all fun p => !p.2
  if 16 ≤ cs.length ∧ one then [refCol g] else cs.map fun p => physCol p.1

/-- Row 1 of R187: lasting faults of converters are noted, for deck `k`, or 8 for a converter test that uses none; the answer says
whether a converter now has them on 3 decks within one PERIOD. -/
def State.noteConverters (s : State) (e k : Nat) (convs : List Nat) : State × Bool :=
  let g := s.engine e
  let fresh := (g.convFails ++ convs.map fun m => (m, k, s.now)).filter fun x => decide (s.now < x.2.2 + s.checkPeriod e + 1)
  let decksOf := fun m => ((fresh.filter fun x => x.1 == m).map fun x => x.2.1).eraseDups.length
  (s.setEngine e { g with convFails := fresh }, convs.any fun m => decide (3 ≤ decksOf m))

/-- The failing columns that no action has met yet: neither they nor their group's reference column is being darned (R187). -/
def Deck.newFaults (d : Deck) (f : List (Nat × Bool)) (target : Bool) : List (Nat × Bool) :=
  if target then f else f.filter fun p => !d.inDarn (physCol p.1) && !d.inDarn (refCol (p.1 / 32))

/-- Lasting faults of a deck's data columns are localised and acted on (R187). The lasting-fault count takes one for each
action. `sec` and `target` are those of a programming target, if one found them. -/
def State.localise (s : State) (e k : Nat) (f0 : List (Nat × Bool)) (target : Option (Nat × Nat)) (sec : Option (List Nat)) :
    State :=
  let f := (s.deck e k).newFaults f0 target.isSome
  if f.isEmpty || s.retiring e k then s else
  let r := s.noteConverters e k (f.map fun p => p.1 / 8).eraseDups
  if r.2 then (r.1.health e 2 1).retire e wholeEngine
  else if 5 ≤ (failGroups f).length ∨ 64 < f.length then (r.1.health e 2 1).retire e k
  else
    let cs := (failGroups f).flatMap fun g => groupDarns f g
    (r.1.health e 2 cs.length).darnColumns e k cs target sec false

/-! ### Gaps (R182 to R185) -/

/-- A gap action may start on the engine: a gap, or a loan; nothing runs on it (R182, R199). -/
def State.gapFree (s : State) (e : Nat) : Bool :=
  (!s.boundTo e || (s.engine e).lent) && !s.progHolds e && s.engineFree e && !(s.engine e).retired

/-- A gap action runs on the engine (R183). -/
def State.gapBusy (s : State) (e : Nat) : Bool :=
  (s.engine e).testing || s.arr.checks.any fun c => c.engine == e && c.running

/-- A calibration is due on the deck under R193. -/
def Deck.calIsDue (d : Deck) : Bool := d.calDue || !d.colDue.isEmpty

/-- The lowest-numbered deck of an engine whose due calibration can run: it is not known to have no valid vector (R193, R194). -/
def State.calNext (s : State) (e : Nat) : Option Nat :=
  (List.range 8).find? fun k => let d := s.deck e k; !d.retired && d.calIsDue && !(d.calMissing && d.noSource (isGuard e))

/-- A calibration is due on the engine under R193, and can run. -/
def State.calWaits (s : State) (e : Nat) : Bool := (s.calNext e).isSome

end Sys2Proof.Machine
end

