-- ==== Sys2Proof/Machine/GapOps.lean ====
section
/-!
DEFINITION. Jobs of PROGRAM_DECKS, RINSE, SELF_TEST and CALIBRATE, with the end of a target, and what an engine's gap lets
begin: loans, and tests on request (R163, R164, R182 to R184, R198 to R201).
-/

namespace Sys2Proof.Machine

/-! ### Jobs and targets -/

/-- The job of a descriptor. -/
def State.job? (s : State) (uid : Nat) : Option ProgJob := s.arr.jobs.find? fun j => j.desc == uid

/-- A job with one of its targets. -/
def State.target? (s : State) (uid pos : Nat) : Option (ProgJob × Target) := do
  let j ← s.job? uid
  let t ← j.targets[pos]?
  some (j, t)

/-- Change a job. -/
def State.modJob (s : State) (uid : Nat) (f : ProgJob → ProgJob) : State :=
  { s with arr := { s.arr with jobs := s.arr.jobs.map fun j => if j.desc == uid then f j else j } }

/-- Change a target. -/
def State.modTarget (s : State) (uid pos : Nat) (f : Target → Target) : State :=
  s.modJob uid fun j => { j with targets := j.targets.modify pos f }

/-- Remove a job. -/
def State.dropJob (s : State) (uid : Nat) : State :=
  { s with arr := { s.arr with jobs := s.arr.jobs.filter fun j => j.desc != uid } }

/-- A job programs decks; else it tests or calibrates. -/
def ProgJob.programs (j : ProgJob) : Bool := decide (j.kind ≤ 6)

/-- STOP_ON_FAIL (R160, R198). -/
def ProgJob.stops (j : ProgJob) : Bool := bit j.flags 3

/-- Space of a job's image: host or T2. -/
def ProgJob.space (j : ProgJob) : Nat := if bit j.flags 0 then 4 else 2

/-- The result of a target is written (R163). -/
def State.writeResult8 (s : State) (j : ProgJob) (pos status res1 res2 : Nat) : State :=
  if j.resultAddr = 0 then s
  else s.hostWrite j.inst (j.resultAddr + 8 * pos) (leBytes 2 status ++ leBytes 2 (min res1 0xFFFF) ++ leBytes 4 res2)

/-- Unplaced cells of unused data columns (R163). -/
def Target.unusedCells (t : Target) (kind : Nat) (d : Deck) : Nat :=
  if kind = 6 then 0
  else
    let idle := (upTo 528 fun c => c % 33 != 32 && !secUsed t.head (32 * (c / 33) + c % 33)).map d.home
    countIf (fun x => idle.contains (x % 544)) t.unplaced

/-- Mark a target ended and write its result. Under PROGRAM_DECKS and RINSE bits [31:16] count the unplaced cells of unused data columns
and bits [63:32] hold the wear counter (R163); a test's are what it found (R198). -/
def State.closeTarget (s : State) (uid pos status : Nat) : State :=
  match s.target? uid pos with
  | none => s
  | some (j, t) =>
    let d := s.deck t.engine t.deck
    let res1 := if j.programs then t.unusedCells j.kind d else t.res1
    let res2 := if j.programs then d.wear else t.res2
    (s.modTarget uid pos fun t => { t with stage := 5, status := status }).writeResult8 j pos status res1 res2

/-- The completion of a job whose targets have all ended: OK, or the status and position of the first that did not succeed
(R164, R405). -/
def State.closeJob (s : State) (uid : Nat) : State :=
  match s.job? uid with
  | none => s
  | some j =>
    if j.targets.all fun t => t.stage == 5 then
      match j.targets.findIdx? fun t => t.status != St.ok with
      | none => (s.dropJob uid).complete uid St.ok 0
      | some n => (s.dropJob uid).complete uid ((j.targets[n]?.map Target.status).getD 0) n
    else s

/-- A target ends. With STOP_ON_FAIL, targets not started are not started (R164). -/
def State.endTarget (s : State) (uid pos status : Nat) : State :=
  match s.target? uid pos with
  | none => s
  | some (j, _) =>
    let s1 := s.closeTarget uid pos status
    let s2 :=
      if status ≠ St.ok && j.stops then
        ((j.targets.zipIdx).filter fun p => p.1.stage == 0 && p.2 != pos).foldl
          (fun a p => a.closeTarget uid p.2 St.programNotStarted) s1
      else s1
    s2.closeJob uid

/-! ### Who may name an engine -/

/-- A core is allocated to an instance (R417). -/
def State.coreTaken (s : State) (c : Nat) : Bool := (List.range 17).any fun i => (s.inst i).cores.contains c

/-- The finding of R165 on a programming target, as R661 row 1 states it; a guard engine is the management instance's
(R154). -/
def State.progOwner (s : State) (j : ProgJob) (t : Target) : Nat :=
  if t.guard then (if j.inst = 0 then St.ok else St.engineNotOwned)
  else if (s.engine t.engine).lent then St.engineLent
  else if s.ownsEngine j.inst t.engine then St.ok
  else if j.inst = 0 ∧ j.kind = 6 ∧ !s.coreTaken (coreOf t.engine) then St.ok
  else St.engineNotOwned

/-- The finding on a test or calibration target (R165, R198 to R200): the owner's engine unless it is lent, or the management
instance's loan; a full calibration only on a loan or an unallocated engine. -/
def State.testOwner (s : State) (j : ProgJob) (t : Target) : Nat :=
  let lent := (s.engine t.engine).lent
  if t.guard then St.engineNotOwned
  else if j.test = 2 then
    (if lent || !s.coreTaken (coreOf t.engine) then St.ok else St.engineNotOwned)
  else if lent then (if j.inst = 0 then St.ok else St.engineLent)
  else if s.ownsEngine j.inst t.engine then St.ok
  else St.engineNotOwned

/-- A target that no test may run on: its engine's owner, then its deck (R195, R200). -/
def State.testRefusal (s : State) (j : ProgJob) (t : Target) : Nat :=
  let own := s.testOwner j t
  if own ≠ St.ok then own
  else if (j.kind = 0x0C ∨ j.test = 0) ∧ (s.deck t.engine t.deck).retired then St.deckRetired
  else if j.kind = 0x0B ∧ (s.engine t.engine).retired then St.deckRetired
  else St.ok

/-! ### Gaps: loans, then tests in the order of R184 -/

/-- The engine is in a gap with no gap action running (R156, R182). -/
def State.inGap (s : State) (e : Nat) : Bool := !s.boundTo e && !s.progHolds e && !s.gapBusy e

/-- An engine is lent or returned on behalf of LEND job `j`; the job's descriptor completes with the last of its engines
(R201). -/
def State.lendOne (s : State) (j : LendJob) (e : Nat) : State :=
  let s1 := s.modEngine e fun g =>
    if j.lend then { g with lent := true, lendEnd := if j.ms = 0 then 0 else s.now + j.ms * 1000000 }
    else { g with lent := false, lendEnd := 0 }
  let left := putBit j.mask (e % 16) false
  if left = 0 then
    ({ s1 with arr := { s1.arr with lends := s1.arr.lends.filter fun x => x.desc != j.desc } } : State).complete j.desc St.ok 0
  else { s1 with arr := { s1.arr with lends := s1.arr.lends.map fun x => if x.desc == j.desc then { x with mask := left } else x } }

/-- The first loan or return that waits for an engine (R201). -/
def State.lendFor (s : State) (e : Nat) : Option LendJob :=
  s.arr.lends.find? fun j => j.core == coreOf e && bit j.mask (e % 16)

/-- Loans that wait for a gap of the engine take effect, and returns once no test runs on it. -/
def State.lendTry (s : State) (e : Nat) : State :=
  match s.lendFor e with
  | none => s
  | some j =>
    if j.lend then (if s.inGap e then s.lendOne j e else s)
    else if (s.engine e).testing then s else s.lendOne j e

/-- The oldest test or calibration target that waits for an engine: descriptor and list position. -/
def State.testFor (s : State) (e : Nat) : Option (Nat × Nat) :=
  s.arr.jobs.findSome? fun j =>
    if j.programs then none
    else (j.targets.findIdx? fun t => t.engine == e && t.stage == 0).map fun n => (j.desc, n)

/-- A Press token for a check or calibration evaluation of an engine (R186, R202); the guard domain needs none. -/
def State.checkToken (s : State) (e : Nat) : Bool := isGuard e || s.gateTokens (clusterOf (coreOf e))

/-- The oldest waiting target starts in a gap, or on a loan, after every calibration that is due and before its deadline
(R184, R199, R202), unless it may not run there any more (R200). -/
def State.startTest (s : State) (e : Nat) : State :=
  match s.testFor e with
  | none => s
  | some (u, n) =>
    match s.job? u with
    | none => s
    | some j =>
      if s.mayStart 0 && s.gapFree e && !s.calWaits e && s.checkToken e && decide (s.now < j.deadline) then
        let st := ((j.targets[n]?).map fun t => s.testRefusal j t).getD St.ok
        if st ≠ St.ok then s.endTarget u n st
        else (s.modTarget u n fun t => { t with stage := 1 }).modEngine e fun g => { g with testing := true }
      else s

/-- What waits for a gap of the engine may begin: retirements, loans, tests (R197, R199, R201). -/
def State.gapTry (s : State) (e : Nat) : State := ((s.retireWaiting e).lendTry e).startTest e

/-- An engine has come to a gap, or a gap action on it has ended and a gap begins anew (R187; log entry 23). -/
def State.gapEvent (s : State) (e : Nat) : State := (s.modEngine e fun g => { g with gapAt := s.now }).gapTry e

/-! ### Tests that settle -/

/-- A test target ends when no retry of its own is left: CHECK_FAILED with a lasting fault, else OK (R199). -/
def State.settleTest (s : State) (uid pos : Nat) : State :=
  match s.target? uid pos with
  | none => s
  | some (_, t) =>
    if s.arr.checks.any fun c => c.target == some (uid, pos) then s.modTarget uid pos fun t => { t with stage := 2 }
    else s.endTarget uid pos (if t.res1 = 0 then St.ok else St.checkFailed)

/-- Checks and retries are dropped; a test target whose last retry goes settles (R202). -/
def State.dropChecks (s : State) (p : Check → Bool) : State :=
  let gone := (s.arr.checks.filter p).filterMap Check.target
  let s1 : State := { s with arr := { s.arr with checks := s.arr.checks.filter fun c => !p c } }
  gone.eraseDups.foldl (fun a x => match a.target? x.1 x.2 with
    | some (_, t) => if t.stage == 2 then a.settleTest x.1 x.2 else a
    | none => a) s1

/-- Retries of decks that have been retired are dropped: a retired deck is never driven (R195). -/
def State.dropRetired (s : State) (e : Nat) : State :=
  s.dropChecks fun c => c.engine == e && !c.running && (s.deck e c.deck).retired

end Sys2Proof.Machine
end

