-- ==== Sys2Proof/Machine/PleatOps.lean ====
section
/-!
DEFINITION. Pleats: spread, chain calibration and the choice between time and split mode (R114 to R122).
-/

namespace Sys2Proof.Machine

/-- Cores that hold the members of a pleat. -/
def pleatCores (size first : Nat) : List Nat := ((membersOf size first).map coreOf).eraseDups

/-- Spread of a pleat: largest less smallest sensor reading, in 0.25 °C units (R114). -/
def State.spread (s : State) (size first : Nat) : Nat :=
  let ts := (pleatCores size first).map fun c => s.coreTemp c
  ts.foldl max 0 - ts.foldl min (ts.headD 0)

/-- Sum of the readings of a pleat's sensors, with their number (R115). -/
def State.readings (s : State) (size first : Nat) : Nat × Nat :=
  let ts := (pleatCores size first).map fun c => s.coreTemp c
  (ts.foldl (· + ·) 0, ts.length)

/-- Head of a pleat (R99). -/
def headOf (size first : Nat) : Nat := first + size - 1

/-- Cluster of an engine within its die, and its die. -/
def clusterPos (e : Nat) : Nat × Nat := let cl := clusterOf (coreOf e); (dieOf cl, cl % 32)

/-- SPLIT_NOW of a cluster: declared pleats of bound steps now in split mode. -/
def State.splitNow (s : State) (e : Nat) : State :=
  let p := clusterPos e
  let n := (s.steps.map fun t => if t.bound then countIf (fun q : Pleat => q.split && clusterPos q.first == p) t.pleats else 0).foldl (· + ·) 0
  s.wr (R.DIE_PLEAT_STATE_SPLIT_NOW p.1 p.2) (min n 255)

/-- MAX_SPREAD takes a spread in. DESIGN CHOICE (log entry 21): a pleat sees a spread when it is calibrated or its mode is decided, not at
each sensor sample. -/
def State.seeSpread (s : State) (e sp : Nat) : State :=
  let p := clusterPos e
  s.wr (R.DIE_PLEAT_STATE_MAX_SPREAD p.1 p.2) (max (s.rd (R.DIE_PLEAT_STATE_MAX_SPREAD p.1 p.2)) (min sp 255))

/-- Change the pleat of a step that starts at `first` with `size` members. -/
def State.modPleat (s : State) (uid size first : Nat) (f : Pleat → Pleat) : State :=
  s.modStep uid fun t => { t with pleats := t.pleats.map fun p => if p.size == size && p.first == first then f p else p }

/-- One chain calibration of a pleat with its outcome (R115, R116, R121): at the bind, or before an evaluation
(`recal`, which PLEAT_RECAL counts). -/
def State.chainCal (s : State) (uid size first : Nat) (recal pass : Bool) : State :=
  match s.step? uid with
  | none => s
  | some t =>
    let p := clusterPos first
    let sp := s.spread size first
    let wasTime := !(t.pleats.any fun q => q.size == size && q.first == first && q.split)
    let s1 := s.modPleat uid size first fun q =>
      { q with split := !pass, sCal := sp, meanCal := (s.readings size first).1, calAgain := false }
    let s2 := if recal then s1.bump (R.DIE_PLEAT_RECAL_COUNT p.1 p.2) 1 else s1
    let s3 := if pass then s2 else s2.bump (R.DIE_PLEAT_STATE_CAL_FAIL p.1 p.2) 1
    let s4 := if !pass && wasTime then s3.raiseOwner Rc.pleatSplit t.inst (headOf size first) sp else s3
    (s4.seeSpread first sp).splitNow first

/-- A chain calibration comes before the pleat's next evaluation (R116 rows 1 to 3 and 6, R122). Temperatures are in
0.25 °C units: 5 °C is 20, 2 °C is 8, 8 °C is 32, 4 °C is 16. -/
def State.needsCal (s : State) (p : Pleat) : Bool :=
  let sp := s.spread p.size p.first
  let r := s.readings p.size p.first
  p.calAgain || if p.split then decide (sp ≤ 16)
  else decide ((20 < sp ∧ p.sCal ≤ 20) ∨ p.sCal + 8 < sp ∨ sp + 8 < p.sCal
    ∨ 32 * r.2 < ((r.1 : Int) - p.meanCal).natAbs)

end Sys2Proof.Machine
end

