-- ==== Sys2Proof/Machine/Steps.lean ====
section
/-!
DEFINITION. Steps: the meanings of RUN_STEP, STEP_BIND, STEP_COMPLETE, OPERATION_START and STEP_LATE_FETCH, and the
stalls of prefetch (R282, R286 to R288, R318 to R328, R344 to R353, R392, R393).
-/

namespace Sys2Proof.Machine

/-! ### RUN_STEP (R318, R319, R392, R393) -/

/-- DETAIL of a RUN_STEP that fails before its bind (R405). -/
def noStep : Nat := 0xFFFFFFFF

/-- A RUN_STEP ends before it runs: its record (R594), then its completion. `counters` once the check has passed. -/
def State.refuseStep (s : State) (d : Desc) (status hi info1 : Nat) (passed : Bool) : State :=
  (s.raise status instClass d.inst (dId d.bytes + hi * 2 ^ 32) info1).completeC d.uid status noStep
    (if passed then some (0, 0, 0, 0xFF, 0) else none)

/-- A rejected image (R319). -/
def State.rejectImage (s : State) (d : Desc) (b : Breach) : State := s.refuseStep d (rowStatus b.row) b.sec b.off false

/-- Output table of a RUN_STEP (R393). -/
def State.outTable (s : State) (b : List Nat) : List (Nat × Nat) :=
  let t := s.hostRead (u64At b 0x28) (16 * u16At b 0x16)
  (List.range (u16At b 0x16)).map fun k => (u64At t (16 * k), u64At t (16 * k + 8))

/-- What the check of a RUN_STEP finds. -/
inductive Checked where
  | breach (b : Breach)
  | failed (a : Access)
  | ok (im : Img)
  deriving DecidableEq, Repr

/-- The image and the output table of a RUN_STEP are read and checked (R318 to R320). A T2 read that meets the closed hem of the HBM
domain fails (R309). At least the header's 64 bytes are read, whatever IMAGE_LENGTH says. -/
def State.checkedImage (s : State) (d : Desc) : State × Checked :=
  let b := d.bytes
  let t4 := bit (u16At b 0x14) 0
  let h := u32At b 0x10
  let o := u64At b 0x18
  let area := u64At b 0x20
  let tier := if t4 then 4 else 2
  if !t4 && !s.inBuffer d.inst 2 h o area then (s, .breach ⟨1, 0, 0⟩)
  else if !t4 && s.power.closed.contains 8 then (s, .failed ⟨[], St.domainDown, 0, 0⟩)
  else
    let r := s.readSpace d.inst tier h o 64
    if r.2.status ≠ St.ok then (r.1, .failed r.2)
    else
      match headBreach r.2.bytes area with
      | some k => (r.1, .breach k)
      | none =>
        let q := r.1.readSpace d.inst tier h o (max 64 (u64At r.2.bytes 8))
        if q.2.status ≠ St.ok then (q.1, .failed q.2)
        else
          let im : Img := ⟨d.inst, q.2.bytes, q.1.outTable b⟩
          match firstBreach (q.1.breaches im) with
          | some k => (q.1, .breach k)
          | none => (q.1, .ok im)

/-- Tag of the image that a RUN_STEP names: tier, handle, start, HEADER_CRC, instance (R328). -/
def imageTag (d : Desc) (im : Img) : List Nat :=
  [if bit (u16At d.bytes 0x14) 0 then 4 else 2, u32At d.bytes 0x10, u64At d.bytes 0x18, u32At im.bytes 0x3C, d.inst]

/-- RUN_STEP: an image that fails its check ends it; an accepted one waits for its bind. -/
def State.runStep (s : State) (d : Desc) : State :=
  let r := s.checkedImage d
  match r.2 with
  | .breach k => r.1.rejectImage d k
  | .failed a => r.1.refuseStep d a.status a.place a.loc false
  | .ok im => { r.1 with steps := r.1.steps ++ [im.toStep d (imageTag d im)] }

/-- Some step of a work ring maps one of these cores. -/
def State.ringMaps (s : State) (i ring : Nat) (cores : List (Nat × Nat)) : Bool :=
  s.steps.any fun u => u.inst == i && u.ring == ring && u.cores.any fun c => cores.any fun e => c.1 == e.1

/-- A RUN_STEP starts once no earlier RUN_STEP of its ring that maps any of the same cores goes on (R350, R401). -/
def State.stepTurn (s : State) (d : Desc) : Bool :=
  match (s.checkedImage d).2 with
  | .ok im => !s.ringMaps d.inst d.ring im.emap
  | _ => true

/-- RUN_STEP (R392, R401). -/
def State.runStepNext (s : State) (f w : Nat) : State :=
  match s.begin f w 0x01 with
  | none => s
  | some d => if s.stepTurn d then (s.started d.uid).runStep d else s

/-- RUN_STEP (R392). -/
def execRunStep (f w : Nat) (s : State) : Host.Outcome State Fault Refusal := unit (ringOk f w) (s.runStepNext f w)

/-! ### Bind (R324, R326 to R328, R348, R350) -/

/-- Engines in the masks of a step. -/
def Step.engines (t : Step) : List Nat := t.cores.flatMap fun c => (upTo 16 fun e => bit c.2 e).map fun e => c.1 * 16 + e

/-- Every earlier RUN_STEP of the same work ring that maps any of the same cores has ended (R350). -/
def State.turnOf (s : State) (t : Step) : Bool :=
  !(s.steps.takeWhile fun u => u.uid != t.uid).any fun u =>
    u.inst == t.inst && u.ring == t.ring && u.cores.any fun c => t.cores.any fun d => c.1 == d.1

/-- A bind calibrates a deck: it is the first that names it since its calibration was lost, and a source may be there (R193, R194). -/
def State.bindCals (s : State) (p : Nat × Nat) : Bool :=
  let d := s.deck p.1 p.2
  !d.calOk && !(d.calMissing && d.noSource false)

/-- The step may bind now: gap actions on its engines have ended, and their queues are empty (R183, R327 order 1, R347); the calibrations
that it runs find their engines free of programming and a token (R45, R156, R202); no crossing to its pegs is held (R305). -/
def State.mayBind (s : State) (t : Step) : Bool :=
  s.mayStart 0 && !t.bound && (s.inst t.inst).gen == t.gen && s.turnOf t
    && !(t.engines.any fun e => s.gapBusy e || !(s.engine e).blocks.isEmpty)
    && (t.plan.all fun e => (t.planLoc e).tier == 3 || !s.heldTo hubSide (pegDomain (t.planLoc e)))
    && t.decks.all fun p => (s.deck p.1 p.2).calOk || (s.engineFree p.1 && !s.progHolds p.1 && s.checkToken p.1)

/-- The first domain behind a closed hem in which the bind would set a peg (R309). -/
def State.bindShut (s : State) (t : Step) : Option Nat :=
  t.plan.findSome? fun e =>
    let l := t.planLoc e
    if l.tier < 3 ∧ u8At e 1 = 1 ∧ s.power.closed.contains (pegDomain l) then some (pegDomain l) else none

/-- What fails the bind: status and engine location (R324). -/
def State.bindFault (s : State) (t : Step) : Option (Nat × Nat) :=
  match t.cores.find? fun c => !(s.inst t.inst).cores.contains c.1 with
  | some c => some (St.engineNotOwned, c.1 * 16)
  | none =>
    match t.engines.find? fun e => (s.engine e).lent with
    | some e => some (St.engineLent, e)
    | none => t.decks.findSome? fun p =>
      let st := s.deckStatus t.inst p.1 p.2
      if st = St.ok then none else some (st, engineLoc p.1 p.2)

/-- The RUN_STEP of a step that cannot bind ends. -/
def State.dropBind (s : State) (uid : Nat) (d : Desc) (status hi : Nat) : State :=
  ({ s with steps := s.steps.filter fun u => u.uid != uid } : State).refuseStep d status hi 0 true

/-- CHECK_SOURCES at the bind (R326). -/
def State.bindSource (s : State) (e : List Nat) : State :=
  let en := fld (u32At e 0) 16 0
  let k := fld (u32At e 0) 19 17
  let d := s.deck en k
  if d.src.isSome && !d.srcLost then s
  else
    let s1 := s.setDeck en k { d with src := some ⟨u8At e 4, u32At e 8, u64At e 16, u32At e 12⟩ }
    if d.srcLost then
      let r := s1.residentSection en k
      if r.2.isSome then r.1.modDeck en k fun d => { d with srcLost := false } else r.1
    else s1

/-- Pegs of the plan at the bind (R327 order 3, R367). -/
def State.bindPeg (s : State) (t : Step) (e : List Nat) : State :=
  let l := t.planLoc e
  let init := u8At e 1 == 1
  if l.tier = 3 then
    if init then s.setShadow t.uid l.addr (u64At e 16)
    else { s with pegs := { s.pegs with shadows :=
      (s.pegs.shadows.filter fun x => !(x.1 == t.uid && x.2.1 == l.addr)) ++ [(t.uid, l.addr, leNat (s.hostRead l.addr 8))] } }
  else if init then s.pegOp t.inst l t.compat true (u64At e 16) (pegId 6 t.inst 0)
  else s

/-- Codebooks and peripheries, but for the cores whose bind tag matches (R327 order 4, R328). -/
def State.bindWrites (s : State) (t : Step) : State :=
  let skip := fun c => s.bindTag c == t.tag
  let s1 := t.books.foldl (fun a b => if skip b.1 then a else a.bookWrite b.1 (b.2.1 * 512) b.2.2) s
  let s2 := t.peri.foldl (fun a p => if skip (coreOf p.1) then a else a.periWords p.1 p.2.1 p.2.2) s1
  t.cores.foldl (fun a c => a.setTag c.1 t.tag) s2

/-- A deck that a step names for the first time after an exit from DEEP or OFF is calibrated at the bind (R193). -/
def State.bindCal (s : State) (p : Nat × Nat) : State :=
  if !s.bindCals p then s
  else
    let r := s.calibrate p.1 p.2 none
    r.1.localise p.1 p.2 r.2 none none

/-- The bind of a step (R327, R349). `cal` gives the outcome of each declared pleat's chain calibration. -/
def State.bind (s : State) (t0 : Step) (cal : List Bool) : State :=
  let t := { t0 with bound := true, compat := s.compat t0.inst }
  let s0 := t.plan.foldl (fun (a : State) e => a.becomesPeg (t.planLoc e)) s
  let s1 := s0.modStep t.uid fun _ => t
  let s2 := t.sources.foldl (fun a e => a.bindSource e) s1
  let s3 := t.plan.foldl (fun a e => a.bindPeg t e) s2
  let s4 := s3.bindWrites t
  let s5 := (t.pleats.zipIdx).foldl (fun a p => a.chainCal t.uid p.1.size p.1.first false (cal.getD p.2 true)) s4
  ((t.decks.foldl (fun a p => a.bindCal p) s5).fetchStep t.uid).busyNow

/-- STEP_BIND: the step binds, or its RUN_STEP ends with the failure of R324. -/
def State.stepBind (s : State) (uid : Nat) (cal : List Bool) : State :=
  match s.step? uid, s.desc? uid with
  | some t, some d =>
    if !s.mayBind t then s
    else
      match s.bindFault t with
      | some x => s.dropBind uid d x.1 x.2
      | none => match s.bindShut t with
        | some dom => (s.returned dom).dropBind uid d St.domainDown 0
        | none => s.bind t cal
  | _, _ => s

/-- STEP_BIND (R327). -/
def execStepBind (uid : Nat) (cal : List Bool) (s : State) : Host.Outcome State Fault Refusal := done (s.stepBind uid cal)

/-! ### Prefetch order (R280, R282) and stalls (R286) -/

/-- Destination of an entry: core or cluster, first byte, length. -/
def Entry.dst (e : Entry) : Nat × Nat × Nat :=
  let a := u32At e.bytes 0x18
  if bit (u8At e.bytes 7) 7 then (nClusters + e.cluster * 24 + u8At e.bytes 7 % 32, a, u32At e.bytes 0x1C)
  else if e.isTile then (e.cluster, a + (tileDst e.bytes).1, (tileDst e.bytes).2)
  else (e.cluster, a, u32At e.bytes 0x1C)

/-- Two destinations overlap. -/
def overlaps (a b : Nat × Nat × Nat) : Bool := a.1 == b.1 && decide (a.2.1 < b.2.1 + b.2.2 ∧ b.2.1 < a.2.1 + a.2.2)

/-- The destination of entry `k` is released: every earlier scheduled entry that overlaps it has CUR past LAST_USE. -/
def Step.released (t : Step) (k : Nat) (e : Entry) : Bool :=
  (t.entries.take k).all fun f => f.inLine || !overlaps f.dst e.dst || decide (f.last < t.cur e.cluster)

/-- Packets of at most 1 KiB that a transfer in progress sends or asks for through its die's hub bridge (R293, R295). -/
def Entry.packets (e : Entry) : Nat :=
  if e.st ≠ 1 then 0 else if e.isTile then 1 else (u32At e.bytes 0x1C + 1023) / 1024

/-- Packets queued per class at the input of the hub bridge of die `d`, at most 64 (R298): tokens pass a crossing as they come, but
for one that is held. -/
def State.bridgeQueue (s : State) (d : Nat) : Nat :=
  if s.bridgeHeld d then
    min 64 ((s.steps.flatMap fun t => t.entries.filter fun e => dieOf e.cluster == d).foldl (fun n e => n + e.packets) 0)
  else 0

/-- The cause that the earliest entry a waiting step needs gives (R286): 0 = LATE_T2, 1 = LATE_T4, 2 = LATE_DECODE,
3 = LATE_QUOTA, 4 = LATE_BRIDGE. -/
def State.entryCause (s : State) (t : Step) (k : Nat) (e : Entry) : Nat :=
  if e.reread then 2
  else if e.st = 0 ∧ !t.released k e then 3
  else if u8At e.bytes 6 = 4 ∧ (e.st = 1 ∨ !s.hostUp) then 1
  else if 0 < e.packets ∧ 0 < s.bridgeQueue (dieOf e.cluster) then 4
  else 0

/-- The operations of a cluster that are ready but for the gate and their fetch: schedule step, and whether they are fetched. -/
def State.readyOps (s : State) (t : Step) (cl : Nat) : List (Nat × Bool) :=
  (t.streams.filter fun m => m.clusterNo == cl).flatMap fun m =>
    (m.ops.zipIdx).filterMap fun p => if s.opReady t m p.2 p.1 then some (p.1.step, m.has p.2) else none

/-- The waiting step of a cluster: the lowest with an operation that is ready (R286). -/
def State.waitingStep (s : State) (t : Step) (cl : Nat) : Option Nat :=
  match s.readyOps t cl with
  | [] => none
  | p :: l => some (l.foldl (fun n q => min n q.1) p.1)

/-- The stall of a cluster now, and the cause to which it is charged (R286): the gate of its waiting step is shut, or none of that
step's ready operations is fetched (R349). -/
def State.stallCause (s : State) (t : Step) (cl : Nat) : Option (Nat × Nat) :=
  match s.waitingStep t cl with
  | none => none
  | some w =>
    if !t.gateOpen cl w then
      ((t.entries.zipIdx).find? fun p => !p.1.inLine && p.1.cluster == cl && decide (p.1.use ≤ w) && p.1.st != 2).map fun p =>
        (w, s.entryCause t p.2 p.1)
    else if (s.readyOps t cl).any fun q => q.1 == w && q.2 then none
    else some (w, if t.imgTier = 4 then 1 else 0)

/-- Clusters in which a step has streams. -/
def Step.clusters (t : Step) : List Nat := (t.streams.map Stream.clusterNo).eraseDups

/-- `dt` ns pass: the hub fetches the streams ahead; each stalled cluster of a bound step is charged (R286, R288), and knows since when
it stalls. -/
def State.chargeStalls (s : State) (dt : Nat) : State :=
  let upd := fun (t0 : Step) =>
    let t := s.fetchStreams t0
    if !s.alive t then t
    else t.clusters.foldl (fun t cl =>
      match s.stallCause t cl with
      | none => { t with stall := Tab.put (fun _ => 0) t.stall cl 0 }
      | some c =>
        let st := if Tab.get (fun _ => 0) t.stall cl = 0 then s.now + 1 else Tab.get (fun _ => 0) t.stall cl
        { t with stallNs := t.stallNs.set c.2 (t.stallNs.getD c.2 0 + dt), stall := Tab.put (fun _ => 0) t.stall cl st }) t
  { s with steps := s.steps.map upd }

/-- STALL_LIMIT in force, in ns (INST_STATUS.STALL_LIMIT). -/
def State.stallLimit (s : State) (i : Nat) : Nat :=
  let v := s.rd (R.INST_STATUS_STALL_LIMIT_LIMIT_US i)
  (if v = 0 then 10000 else max 100 (min v 10000000)) * 1000

/-- STEP_LATE_FETCH: a stall longer than STALL_LIMIT fails the step (R287). -/
def State.lateFetch (s : State) (uid cl : Nat) : State :=
  match s.step? uid with
  | none => s
  | some t =>
    let since := Tab.get (fun _ => 0) t.stall cl
    match s.stallCause t cl with
    | none => s
    | some c =>
      if s.alive t && decide (since ≠ 0 ∧ s.stallLimit t.inst < s.now + 1 - since) then
        s.failStep uid St.stepLateFetch cl (c.1 + c.2 * 65536) c.1
      else s

/-- STEP_LATE_FETCH (R287). -/
def execStepLateFetch (uid cl : Nat) (s : State) : Host.Outcome State Fault Refusal :=
  unit (decide (cl < nClusters)) (s.lateFetch uid cl)

/-! ### Starting an operation (R344, R346) -/

/-- Take back the wait of an operation on an engine's stream. -/
def State.dropStreamWait (s : State) (uid st op : Nat) : State :=
  { s with pegs := { s.pegs with waits := s.pegs.waits.filter fun w =>
    !(decide (4 ≤ w.tier) && w.step == uid && w.stream == st && w.op == op) } }

/-- A wait for an engine's stream: 4 = an EVAL for room, 5 = a consumer for a block. It counts toward the wait
watchdog (R346, R373). -/
def streamWait (t : Step) (m : Stream) (o : Op) (st op : Nat) : Wait :=
  ⟨if o.code ≤ 2 then 4 else 5, m.unit, 0, true, 0, false, streamId t.inst m, t.inst, t.uid, st, op, none, 0, 0, 0⟩

/-- An operation whose slots are fetched starts, or its wait for a stream is registered. -/
def State.startFetched (s : State) (uid st op : Nat) : State :=
  match s.op? uid st op with
  | none => s
  | some (t, m, o) =>
    if !(s.opReady t m op o && m.has op && t.gateOpen m.clusterNo o.step) then s
    else if s.streamReady t m o then ((s.dropStreamWait uid st op).setStage uid st op 1).busyNow
    else
      let s1 := s.dropStreamWait uid st op
      let had := s.pegs.waits.find? fun w => decide (4 ≤ w.tier) && w.step == uid && w.stream == st && w.op == op
      { s1 with pegs := { s1.pegs with waits := s1.pegs.waits ++ [had.getD (streamWait t m o st op)] } }

/-- OPERATION_START: the streams are fetched ahead (R349), and the operation starts if it may (R344, R346). -/
def State.startOp (s : State) (uid st op : Nat) : State := (s.fetchStep uid).startFetched uid st op

/-- OPERATION_START (R344). -/
def execOperationStart (uid st op : Nat) (s : State) : Host.Outcome State Fault Refusal := done (s.startOp uid st op)

/-! ### The end of a step (R288, R347, R351, R352, R213 to R215) -/

/-- A step has nothing left to do: everything is complete, or what had started when it failed or was reset is. -/
def State.stepOver (s : State) (t : Step) : Bool :=
  t.bound &&
    (if s.alive t then (t.streams.all fun m => m.ops.all Op.over) && t.entries.all fun e => e.st == 2 || e.inLine
     else (t.streams.all fun m => m.ops.all fun o => !o.begun || o.over) && t.entries.all fun e => e.st != 1)

/-- The blocks that an engine still queues for a step are discarded and counted (R347). -/
def State.dropBlocks (s : State) (uid e : Nat) : State :=
  let g := s.engine e
  let n := countIf (fun b : Nat × Nat × List (Int × Bool) => b.1 == uid) g.blocks
  if n = 0 then s else (s.setEngine e { g with blocks := g.blocks.filter fun b => b.1 != uid }).bumpCore (coreOf e) 3 n

/-- A step leaves its engines: windows and blocks go, shadows go, pleats go, and what waits for a gap may come (R143,
R182, R347, R351, R367). -/
def State.unbind (s : State) (t : Step) : State :=
  let s1 := t.engines.foldl (fun a e => (a.dropWindow e).dropBlocks t.uid e) s
  let s2 : State := { s1 with
    steps := s1.steps.filter fun u => u.uid != t.uid
    pegs := { s1.pegs with shadows := s1.pegs.shadows.filter fun x => x.1 != t.uid } }
  let s3 := t.pleats.foldl (fun a p => a.splitNow p.first) s2
  t.engines.foldl (fun a e => a.gapEvent e) s3

/-- STALL_US and STALL_CAUSE (R288). -/
def Step.stallSummary (t : Step) : Nat × Nat :=
  let n := t.stallNs.foldl (· + ·) 0
  let best := t.stallNs.foldl max 0
  (min (n / 1000) 0xFFFF, if best = 0 then 0xFF else t.stallNs.findIdx fun x => x == best)

/-- The step's counters go to its instance, with CLIP_HIGH when it is due (R214, R215, R288). -/
def State.addCounters (s : State) (t : Step) : State :=
  let i := t.inst
  let s1 := (s.bump (R.INST_STATUS_ARRAY_EVALS_COUNT i) t.evals).bump (R.INST_STATUS_CLIP_EVALS_COUNT i) t.clips
  let s2 := (List.range 5).foldl (fun a n => a.bump (R.INST_STATUS_STALL_NS_NS i n) (t.stallNs.getD n 0)) s1
  if s2.flag (R.INST_STATUS_CLIP_CTRL_ALERT_EN i) && decide (0 < t.evals
      ∧ s2.rd (R.INST_STATUS_CLIP_CTRL_LIMIT_PPM i) * t.evals < t.clips * 1000000) then
    (s2.raiseOwner Rc.clipHigh i t.descId (min t.clips 0xFFFFFFFF * 2 ^ 32 + min t.evals 0xFFFFFFFF)).bump
      (R.INST_STATUS_CLIP_ALERTS_COUNT i) 1
  else s2

/-- STEP_COMPLETE: a step that is over is unbound; its counters are added and its completion record is due. After a
reset of its instance it ends with neither (R428). -/
def State.completeStep (s : State) (uid : Nat) : State :=
  match s.step? uid with
  | none => s
  | some t =>
    if !s.stepOver t then s
    else if (s.inst t.inst).gen ≠ t.gen then s.unbind t
    else
      let k := t.stallSummary
      ((s.unbind t).addCounters t).completeC uid t.status (if t.status = St.ok then 0 else t.failStep)
        (some (min t.evals 0xFFFFFFFF, min t.clips 0xFFFFFFFF, k.1, k.2, min t.splits 0xFFFF))

/-- STEP_COMPLETE (R351). -/
def execStepComplete (uid : Nat) (s : State) : Host.Outcome State Fault Refusal := done (s.completeStep uid)

end Sys2Proof.Machine
end

