-- ==== Sys2Proof/Machine/Evals.lean ====
section
/-!
DEFINITION. Evaluations: the meanings of EVAL, EVAL_PLEAT and their hand-offs, with the periphery that forms the outputs
(R67 to R98, R99 to R122, R123 to R140, R212, R346, R660).
-/

namespace Sys2Proof.Machine

/-! ### Setup -/

/-- The reset of instance `i` waits for its packets: it runs, or it is late (R427, R430). -/
def State.awaitsZero (s : State) (i : Nat) : Bool :=
  (s.inst i).st == .resetting || ((s.inst i).st == .failed && (s.inst i).late)

/-- Writes of a step land while its instance is as it was at the check, or until order 8 of its reset (R428, R430). -/
def State.mayWrite (s : State) (t : Step) : Bool := (s.inst t.inst).gen == t.gen || s.awaitsZero t.inst

/-- An effect under the pair that a reset of instance `i` has replaced (R424). -/
def State.underOld (s : State) (i : Nat) (f : State → State) : State :=
  let k := s.key i
  (f (s.modInst i fun x => { x with key := x.oldKey })).modInst i fun x => { x with key := k }

/-- What a step that a reset of its instance has overtaken still does, under the pair it was issued with (R424, R428). -/
def State.under (s : State) (t : Step) (f : State → State) : State :=
  if (s.inst t.inst).gen == t.gen then f s else s.underOld t.inst f

/-- What an evaluation is told (R67). -/
structure EvalArgs where
  engine  : Nat
  deck    : Nat
  base    : Nat
  count   : Nat
  input   : Nat
  acb     : Nat
  nibble  : Bool
  posOnly : Bool
  shift   : Nat
  deriving DecidableEq, Repr

/-- The parameters of an EVAL (R338). -/
def evalArgs (m : Stream) (o : Op) : EvalArgs where
  engine := evalEngine m o
  deck := u8At o.bytes 9
  base := u16At o.bytes 0xA
  count := u16At o.bytes 0xC
  input := u32At o.bytes 0x10
  acb := u8At o.bytes 0xE
  nibble := bit (u8At o.bytes 0xF) 0
  posOnly := bit (u8At o.bytes 0xF) 1
  shift := fld (u8At o.bytes 0xF) 4 2

/-- The parameters of member `m` of an EVAL_PLEAT (R103, R339); `shift` is the one it converts with. -/
def memberArgs (b : List Nat) (shift m : Nat) : EvalArgs :=
  let w := memberWord b m
  ⟨u32At b 0xC + m, mwDeck w, mwBase w, mwCount w, mwInput w, u8At b 9, bit (u8At b 0xA) 0, bit (u8At b 0xA) 1, shift⟩

/-- Latch the input codes of an evaluation (R71, R73, R660). -/
def State.latch (s : State) (i : Nat) (a : EvalArgs) : State × Access :=
  s.sramRead 0 i (coreOf a.engine) a.input (codeBytes a.nibble a.count)

/-- Codebook entries of the active rows (R69, R72). -/
def State.rowEntries (s : State) (a : EvalArgs) (bytes : List Nat) : List Nat :=
  (rowCodes a.nibble bytes a.count).map fun c => s.bookEntry (coreOf a.engine) a.acb c

/-- The evaluation that starts, with everything it holds until its hand-off. -/
def State.newEval (s : State) (uid st op : Nat) (a : EvalArgs) (bytes : List Nat) (oor : Bool) : Eval where
  step := uid
  stream := st
  op := op
  deck := a.deck
  rowBase := a.base
  rowCount := a.count
  nibble := a.nibble
  posOnly := a.posOnly
  shift := a.shift
  drives := (s.rowEntries a bytes).map (rowDrive a.nibble a.posOnly)
  peri := s.periOf a.engine
  colMap := (s.deck a.engine a.deck).cols false
  refMap := (s.deck a.engine a.deck).refs false
  stale := false
  oor := oor

/-- A row of the evaluation is not driven because it is negative (R76). -/
def State.dropsAny (s : State) (a : EvalArgs) (bytes : List Nat) : Bool :=
  (s.rowEntries a bytes).any (dropsSign a.nibble a.posOnly)

/-! ### EVAL -/

/-- EVAL: the deck is checked, the inputs are latched and the rows are driven (R67, R98, R197, R660). -/
def State.evalStart (s : State) (uid st op : Nat) (oor : Bool) : State :=
  s.onOp uid st op 0x01 fun t m o =>
    let a := evalArgs m o
    let ds := s.deckStatus t.inst a.engine a.deck
    if ds ≠ St.ok then (s.failStep uid ds (engineLoc a.engine a.deck) 0 o.step).opDone uid st op
    else
      let r := s.latch t.inst a
      if r.2.status ≠ St.ok then (r.1.failAccess uid r.2 o.step).opDone uid st op
      else
        let s1 := (r.1.spendEval a.engine a.nibble a.posOnly a.count (resolution a.count)).driveRows a.engine a.deck
          (s.dropsAny a r.2.bytes) oor
        (s1.modEngine a.engine fun g => { g with eval := some (s.newEval uid st op a r.2.bytes oor) }).setStage uid st op 2

/-- EVAL (R67). -/
def execEval (uid st op : Nat) (oor : Bool) (s : State) : Host.Outcome State Fault Refusal := done (s.evalStart uid st op oor)

/-! ### Conversion (R80 to R83, R89, R96) -/

/-- The raw values and saturation bits of net charges (R89), as the converters of engine `e` give them (R80, R92). -/
def State.rawValues (s : State) (e : Nat) (conv : Nat → Nat) (oor nibble : Bool) (b sh : Nat) (charges : List Int) :
    State × List (Int × Bool) :=
  let cs := if oor then anyCodes s.free b else s.convertAll e conv nibble b sh charges
  (s.skip (max 1024 noiseDraws), cs.map fun c => (rawOf c.q sh, c.sat))

/-- Net charges of an evaluation on its engine (R78). -/
def State.evalCharges (s : State) (e : Nat) (v : Eval) : List Int :=
  (s.deck e v.deck).charges (s.analog e v.deck false) v.colMap v.refMap v.rowBase v.drives

/-! ### The periphery (R123 to R140) -/

/-- Output channels before scaling: pairs recombined (R127). -/
def channels (pair : Bool) (vals : List (Int × Bool)) : List (Int × Bool) :=
  if pair then (List.range 256).map fun k =>
    let h := vals.getD (2 * k) (0, false)
    let l := vals.getD (2 * k + 1) (0, false)
    (pairValue h.1 l.1, h.2 || l.2)
  else vals

/-- Data column whose settings channel `j` uses (R127). -/
def chanCol (pair : Bool) (j : Nat) : Nat := if pair then 2 * j else j

/-- Pre-activations and clip bits of the channels (R128, R139). -/
def preActs (e : Nat) (v : Eval) (pair : Bool) (ch : List (Int × Bool)) : List (Int × Bool) :=
  let ps := fld (periCfg v.peri e v.deck 0) 11 8
  (ch.zipIdx).map fun x =>
    let c := chanCol pair x.2
    let p := preAct x.1.1 (periScale v.peri e v.deck c) (periOffset v.peri e v.deck c) ps
    (p.1, x.1.2 || p.2)

/-- The nonlinearity of channel `j`'s column group (R130). -/
def actOf (e : Nat) (v : Eval) (pair : Bool) (j : Nat) (p : Int) : Int :=
  let g := chanCol pair j / 32
  nonlin (periAct v.peri e v.deck g) (periFine v.peri e) (periCoarse v.peri e g) p

/-- The values with each channel's nonlinearity applied. -/
def actAll (e : Nat) (v : Eval) (pair : Bool) (pre : List (Int × Bool)) : List (Int × Bool) :=
  (pre.zipIdx).map fun x => (actOf e v pair x.2 x.1.1, x.1.2)

/-- The outputs of a complete window, each with the OR of its members' flags (R123, R133, R134, R209, R211). -/
def windowOuts (e : Nat) (v : Eval) (pair : Bool) (pm : PoolMode) (rows : List (List (Int × Bool))) : List (Int × Bool) :=
  let cfg := periCfg v.peri e v.deck 0
  let n := if pair then 256 else 512
  let sd := poolStride (fld cfg 19 12)
  (List.range (poolOuts n sd pm.wc)).map fun o =>
    let js := poolMembers sd pm.wc o
    let ms := rows.flatMap fun r => js.map fun j => r.getD j (0, false)
    let x := poolValue pm.avg (ms.map Prod.fst)
    (if bit cfg 27 then actOf e v pair (js.headD 0) x else x, ms.any Prod.snd)

/-- EVALS and CLIP (R139, R140). -/
def State.countClips (s : State) (e : Nat) (v : Eval) (pre : List (Int × Bool)) : State :=
  if bit (periGet v.peri e 0x8F00) v.deck then
    (pre.zipIdx).foldl (fun s x => if x.1.2 then s.bumpPeri e (0x9000 + 4 * x.2) 1 else s) (s.bumpPeri e 0x8F04 1)
  else s

/-- Step counters: an array evaluation, clipped or not, in split mode or not (R121, R212, R213). -/
def State.countEval (s : State) (uid : Nat) (clipped split : Bool) : State :=
  s.modStep uid fun t =>
    if t.status ≠ St.ok then t
    else { t with evals := t.evals + 1, clips := t.clips + b2n clipped, splits := t.splits + b2n split }

/-- Where the outputs of an evaluation go: DEST_KIND, flat core, address (R338, R339). -/
def evalDest (m : Stream) (o : Op) : Nat × Nat × Nat :=
  let k := if o.code == 1 then 0x14 else 0x10
  (u8At o.bytes k, m.unit / 768 * 768 + u16At o.bytes (k + 2), u32At o.bytes (k + 4))

/-- The outputs are issued: written to T0, or queued for the consumer (R136 to R138, R346, R347). -/
def State.issue (s : State) (e : Nat) (v : Eval) (t : Step) (m : Stream) (o : Op) (outs : List (Int × Bool)) : State :=
  let d := evalDest m o
  let cfg := periCfg v.peri e v.deck 0
  if d.1 = 0 then
    if s.mayWrite t then
      let w := s.sramWrite 0 t.inst d.2.1 d.2.2 (outBytes (fld cfg 31 30) (periThresholds v.peri e (fld cfg 29 29)) (outs.map Prod.fst))
      w.1.failAccess t.uid w.2 o.step
    else s
  else if (s.inst t.inst).gen == t.gen then s.modEngine e fun g => { g with blocks := g.blocks ++ [(t.uid, d.1, outs)] }
  else s

/-- Raw values reach the periphery of engine `e`: clips are counted and the outputs issued, unless a window stays open or
the evaluation belongs to a discarded one (R123, R135); the operation completes (R345). -/
def State.periphery (s : State) (e : Nat) (v : Eval) (vals : List (Int × Bool)) (split : Bool) : State :=
  match s.op? v.step v.stream v.op with
  | none => s
  | some (t, m, o) =>
    let pair := (s.deck e v.deck).pair
    let cfg := periCfg v.peri e v.deck 0
    let pre := preActs e v pair (channels pair vals)
    let s1 := (s.countClips e v pre).countEval t.uid (pre.any Prod.snd) split
    let s2 :=
      if v.stale then s1
      else match cfgPool cfg with
        | none => s1.issue e v t m o (actAll e v pair pre)
        | some pm =>
          let g := s1.engine e
          let rows := g.pool ++ [if bit cfg 27 then pre else actAll e v pair pre]
          if rows.length < pm.we then s1.setEngine e { g with pool := rows }
          else (s1.setEngine e { g with pool := [] }).issue e v t m o (windowOuts e v pair pm rows)
    s2.opDone t.uid v.stream v.op

/-- EVAL_HANDOFF: the columns are converted and handed to the periphery (R80, R87, R89). -/
def State.evalHandoff (s : State) (e : Nat) : State :=
  match (s.engine e).eval with
  | none => s
  | some v =>
    let r := s.rawValues e sarOf v.oor v.nibble (resolution v.rowCount) v.shift (s.evalCharges e v)
    ((r.1.modEngine e fun g => { g with eval := none }).trimIn e).periphery e v r.2 false |>.aperIn e

/-- EVAL_HANDOFF (R87). -/
def execEvalHandoff (e : Nat) (s : State) : Host.Outcome State Fault Refusal :=
  unit (decide (e < nEngines)) (s.when s.running fun s => s.evalHandoff e)

/-! ### Pleats -/

/-- The first member whose deck may not be evaluated: status and engine location (R105). -/
def State.pleatDeckFault (s : State) (i : Nat) (as : List EvalArgs) : Option (Nat × Nat) :=
  as.findSome? fun a =>
    let st := s.deckStatus i a.engine a.deck
    if st = St.ok then none else some (st, engineLoc a.engine a.deck)

/-- Every member latches its inputs (R660). -/
def State.latchAll (s : State) (i : Nat) : List EvalArgs → State × List Access
  | [] => (s, [])
  | a :: t =>
    let r := s.latch i a
    let u := r.1.latchAll i t
    (u.1, r.2 :: u.2)

/-- The failure of a latch that decides: poison, then bounds, then unwritten (R660). -/
def latchFault (as : List Access) : Option Access :=
  match as.find? fun a => a.status == St.stepPoison with
  | some a => some a
  | none => match as.find? fun a => a.status == St.stepBounds with
    | some a => some a
    | none => as.find? fun a => a.status == St.stepUninit

/-- The mode for this evaluation is decided, after a chain calibration whose outcome is `cal` where one is due (R115, R116,
R122). DESIGN CHOICE (log entry 21): a rerun after SLEEP (R122) and a row of R116 that hold together take one calibration, which
PLEAT_RECAL counts then and not for the rerun alone; one that passes puts a split pleat in time mode at any spread. -/
def State.decideMode (s : State) (uid size first : Nat) (p : Pleat) (cal : Bool) : State :=
  if s.needsCal p then s.chainCal uid size first (s.needsCal { p with calAgain := false }) cal
  else s.seeSpread first (s.spread size first)

/-- The declared pleat of a step. -/
def Step.pleat? (t : Step) (size first : Nat) : Option Pleat := t.pleats.find? fun p => p.size == size && p.first == first

/-- A pleat is in split mode. -/
def State.isSplit (s : State) (uid size first : Nat) : Bool :=
  match s.step? uid with
  | some t => match t.pleat? size first with
    | some p => p.split
    | none => false
  | none => false

/-- The members drive their rows together (R106, R118): the operation, its members' parameters and their input bytes. SIGN_DROP counts a
core once, and ANA_OOR the pleat evaluation once, not once for each member (DESIGN CHOICE, log entry 21). -/
def State.drivePleat (s : State) (uid st op size first : Nat) (split oor : Bool) (shift : Nat)
    (ms : List (EvalArgs × List Nat)) : State :=
  let evs := ms.map fun x => s.newEval uid st op x.1 x.2 oor
  let cores := ((ms.filter fun x => s.dropsAny x.1 x.2).map fun x => coreOf x.1.engine).eraseDups
  let s1 := ms.foldl (fun (a : State) x =>
    let b := if split then resolution x.1.count else pleatResolution size
    ((a.spendEval x.1.engine x.1.nibble x.1.posOnly x.1.count b).driveRows x.1.engine x.1.deck false false).modEngine x.1.engine
      fun g => { g with pleat := headOf size first + 1 }) s
  let s2 := cores.foldl (fun a c => a.bumpCore c 0 1) s1
  let p := clusterPos first
  let s3 := if split then s2.bump (R.DIE_PLEAT_SPLIT_COUNT p.1 p.2) 1 else s2
  let s4 := if oor then s3.bump (R.DIE_ANA_OOR_COUNT p.1) 1 else s3
  ({ s4 with arr := { s4.arr with pleatEvals := s4.arr.pleatEvals ++ [⟨size, first, split, shift, evs⟩] } } : State).setStage
    uid st op 2

/-- EVAL_PLEAT: decks are checked, the mode is decided, and the members latch and drive together (R103, R105, R116, R120). -/
def State.pleatStart (s : State) (uid st op : Nat) (cal oor : Bool) : State :=
  s.onOp uid st op 0x02 fun t _ o =>
    let b := o.bytes
    let size := u8At b 8
    let first := u32At b 0xC
    let shift := fld (u8At b 0xA) 4 2
    match t.pleat? size first with
    | none => s
    | some p =>
      match s.pleatDeckFault t.inst ((List.range size).map (memberArgs b shift)) with
      | some x => (s.failStep uid x.1 x.2 0 o.step).opDone uid st op
      | none =>
        let s1 := s.decideMode uid size first p cal
        let split := s1.isSplit uid size first
        if split && bit (u8At b 0xA) 5 then
          (s1.failStep uid St.stepPleatSpread (headOf size first) (s.spread size first) o.step).opDone uid st op
        else
          let as := (List.range size).map (memberArgs b (if split then splitShift size shift else shift))
          let r := s1.latchAll t.inst as
          match latchFault r.2 with
          | some a => (r.1.failAccess uid a o.step).opDone uid st op
          | none => r.1.drivePleat uid st op size first split oor shift (as.zip (r.2.map Access.bytes))

/-- EVAL_PLEAT (R103). -/
def execEvalPleat (uid st op : Nat) (cal oor : Bool) (s : State) : Host.Outcome State Fault Refusal :=
  done (s.pleatStart uid st op cal oor)

/-- Sum of lists, position by position. -/
def sumLists : List (List Int) → List Int
  | [] => []
  | [l] => l
  | l :: t => List.zipWith (· + ·) l (sumLists t)

/-- Sums of the members' raw values, a saturated member saturating the sum (R118). -/
def sumRaws : List (List (Int × Bool)) → List (Int × Bool)
  | [] => []
  | [l] => l
  | l :: t => List.zipWith (fun a b => (a.1 + b.1, a.2 || b.2)) l (sumRaws t)

/-- Members of a split pleat convert one after another in the model (R80, R81, R118). -/
def State.splitRaws (s : State) : List (Nat × Eval) → State × List (List (Int × Bool))
  | [] => (s, [])
  | x :: t =>
    let r := s.rawValues x.1 sarOf x.2.oor x.2.nibble (resolution x.2.rowCount) x.2.shift (s.evalCharges x.1 x.2)
    let u := r.1.splitRaws t
    (u.1, r.2 :: u.2)

/-- The net charges of a pleat's members, each with read noise of its own (R94, R107). -/
def State.memberCharges (s : State) : List (Nat × Eval) → State × List (List Int)
  | [] => (s, [])
  | x :: t =>
    let u := (s.skip noiseDraws).memberCharges t
    (u.1, s.evalCharges x.1 x.2 :: u.2)

/-- The time-to-digital converter of a head that takes a data column (R99, R110): 32 conversions each, numbered after the 64 of R80. -/
def tdcOf (j : Nat) : Nat := 64 + j / 32

/-- The raw values that a pleat's head receives (R106 to R109, R118). -/
def State.pleatRaws (s : State) (p : PleatEval) : State × List (Int × Bool) :=
  let ms := (p.members.zipIdx).map fun x => (p.first + x.2, x.1)
  if p.split then
    let r := s.splitRaws ms
    (r.1, sumRaws r.2)
  else
    let nib := p.members.any Eval.nibble
    let c := s.memberCharges ms
    c.1.rawValues (headOf p.size p.first) tdcOf (p.members.any Eval.oor) nib (pleatResolution p.size) p.shift (sumLists c.2)

/-- PLEAT_HANDOFF of the pleat whose head is engine `e` (R107, R110, R126). -/
def State.pleatHandoff (s : State) (e : Nat) : State :=
  match s.arr.pleatEvals.find? fun p => headOf p.size p.first == e with
  | none => s
  | some p =>
    let r := s.pleatRaws p
    let s1 : State := { r.1 with arr := { r.1.arr with pleatEvals := r.1.arr.pleatEvals.filter fun q => headOf q.size q.first != e } }
    let s2 := (membersOf p.size p.first).foldl (fun (a : State) n => (a.modEngine n fun g => { g with pleat := 0 }).trimIn n) s1
    match p.members.getLast? with
    | some v => (s2.periphery e v r.2 p.split).aperAll
    | none => s2

/-- PLEAT_HANDOFF (R110). -/
def execPleatHandoff (e : Nat) (s : State) : Host.Outcome State Fault Refusal :=
  unit (decide (e < nEngines)) (s.when s.running fun s => s.pleatHandoff e)

end Sys2Proof.Machine
end

