-- ==== Sys2Proof/Machine/Float.lean ====
section
/-!
DEFINITION. The number formats and the exact arithmetic of the Precision Engine, the tile expander and the vector
unit's FP16 (R220 to R234, R250, R341). A value is held exactly; each rounding is one call of `encode`.
-/

namespace Sys2Proof.Machine

/-- A floating-point format (R220): exponent and mantissa bits, bias, and whether the all-ones exponent is finite
(E4M3). -/
structure Fmt where
  eb   : Nat
  mb   : Nat
  bias : Nat
  fin  : Bool
  nan  : Nat
  deriving DecidableEq, Repr

/-- FP32 (R220). -/
def fFP32 : Fmt := ⟨8, 23, 127, false, 0x7FC00000⟩
/-- BF16 (R220). -/
def fBF16 : Fmt := ⟨8, 7, 127, false, 0x7FC0⟩
/-- FP8 E4M3 (R220). -/
def fE4M3 : Fmt := ⟨4, 3, 7, true, 0x7F⟩
/-- FP8 E5M2 (R220). -/
def fE5M2 : Fmt := ⟨5, 2, 15, false, 0x7E⟩
/-- IEEE binary16 of the vector unit (R341). -/
def fFP16 : Fmt := ⟨5, 10, 15, false, 0x7E00⟩

/-- Bytes of one element of a format. -/
def Fmt.bytes (f : Fmt) : Nat := (1 + f.eb + f.mb) / 8

/-- An exact value: NaN, an infinity, or ±`m` × 2^`e`; zero keeps its sign. -/
inductive FV where
  | nan
  | inf (neg : Bool)
  | num (neg : Bool) (m : Nat) (e : Int)
  deriving DecidableEq, Repr

/-- +0. -/
def FV.zero : FV := .num false 0 0

/-- The largest finite pattern of a format, without sign (R220). -/
def Fmt.maxFinite (f : Fmt) : Nat := if f.fin then 2 ^ (f.eb + f.mb) - 2 else (2 ^ f.eb - 1) * 2 ^ f.mb - 1

/-- The value of a pattern (R220). -/
def decodeF (f : Fmt) (p : Nat) : FV :=
  let neg := bit p (f.eb + f.mb)
  let ex := p / 2 ^ f.mb % 2 ^ f.eb
  let m := p % 2 ^ f.mb
  if ex = 2 ^ f.eb - 1 ∧ f.fin = false then (if m = 0 then .inf neg else .nan)
  else if f.fin ∧ ex = 2 ^ f.eb - 1 ∧ m = 2 ^ f.mb - 1 then .nan
  else if ex = 0 then .num neg m (1 - (f.bias : Int) - f.mb)
  else .num neg (2 ^ f.mb + m) ((ex : Int) - f.bias - f.mb)

/-- `m` × 2^`k` rounded to the nearest integer, ties to even. -/
def scaleRne (m : Nat) (k : Int) : Nat :=
  if 0 ≤ k then m * 2 ^ k.toNat else (divRne m (2 ^ (-k).toNat)).toNat

/-- The magnitude pattern of a nonzero value before overflow is decided (R221). -/
def roundMag (f : Fmt) (m : Nat) (e : Int) : Nat :=
  let ex : Int := (Nat.log2 m : Int) + e
  let emin : Int := 1 - (f.bias : Int)
  let q := max ex emin - f.mb
  let r := scaleRne m (e - q)
  if r < 2 ^ f.mb then r else (q + f.mb + f.bias).toNat * 2 ^ f.mb + (r - 2 ^ f.mb)

/-- Conversion to a format, rounded to nearest even, with the overflow rule SAT selects; the flag says that it
saturated (R221, R222). -/
def encodeF (f : Fmt) (sat : Bool) (v : FV) : Nat × Bool :=
  let sgn (neg : Bool) (p : Nat) : Nat := if neg then p + 2 ^ (f.eb + f.mb) else p
  let infPat := (2 ^ f.eb - 1) * 2 ^ f.mb
  match v with
  | .nan => (f.nan, false)
  | .inf neg =>
    if sat then (sgn neg f.maxFinite, true) else if f.fin then (f.nan, false) else (sgn neg infPat, false)
  | .num neg m e =>
    if m = 0 then (sgn neg 0, false) else
    let p := roundMag f m e
    if p ≤ f.maxFinite then (sgn neg p, false)
    else if sat then (sgn neg f.maxFinite, true)
    else if f.fin then (f.nan, false) else (sgn neg infPat, false)

/-- One rounding to a format without saturation. -/
def rneTo (f : Fmt) (v : FV) : FV := decodeF f (encodeF f false v).1

/-- One rounding to FP32. -/
def rne (v : FV) : FV := rneTo fFP32 v

/-- The FP32 pattern of a value. -/
def pat32 (v : FV) : Nat := (encodeF fFP32 false v).1

/-- Exact negation. -/
def FV.neg : FV → FV
  | .nan => .nan
  | .inf n => .inf (!n)
  | .num n m e => .num (!n) m e

/-- Exact product; infinity × 0 is NaN (R222). -/
def FV.mul : FV → FV → FV
  | .nan, _ => .nan
  | _, .nan => .nan
  | .inf a, .inf b => .inf (a != b)
  | .inf a, .num b m _ => if m = 0 then .nan else .inf (a != b)
  | .num a m _, .inf b => if m = 0 then .nan else .inf (a != b)
  | .num a m e, .num b n k => .num (a != b) (m * n) (e + k)

/-- A signed number `i` × 2^`e` as a value, +0 when it is zero. -/
def FV.ofInt (i e : Int) : FV := .num (decide (i < 0)) i.natAbs e

/-- Exact sum of two finite parts, as numerator and exponent. -/
def addParts (a : Int × Int) (b : Int × Int) : Int × Int :=
  if a.2 ≤ b.2 then (a.1 + b.1 * (2 ^ (b.2 - a.2).toNat : Nat), a.2)
  else (a.1 * (2 ^ (a.2 - b.2).toNat : Nat) + b.1, b.2)

/-- The signed parts of a finite value; 0 for the others. -/
def FV.parts : FV → Int × Int
  | .num n m e => (if n then -(m : Int) else m, e)
  | _ => (0, 0)

/-- Is the value a NaN. -/
def FV.isNan : FV → Bool
  | .nan => true
  | _ => false

/-- Is the value an infinity of this sign. -/
def FV.isInf (s : Bool) : FV → Bool
  | .inf n => n == s
  | _ => false

/-- Is the value −0. -/
def FV.isNegZero : FV → Bool
  | .num n m _ => n && m == 0
  | _ => false

/-- Exact sum of a list: NaN and infinities by R222; an exact zero is +0 unless every term is −0 (R224). -/
def FV.sum (vs : List FV) : FV :=
  if vs.any FV.isNan then .nan
  else if vs.any (FV.isInf false) && vs.any (FV.isInf true) then .nan
  else if vs.any (FV.isInf false) then .inf false
  else if vs.any (FV.isInf true) then .inf true
  else if !vs.isEmpty && vs.all FV.isNegZero then .num true 0 0
  else
    let s := vs.foldl (fun a v => addParts a v.parts) (0, 0)
    FV.ofInt s.1 s.2

/-- Exact sum of two values. -/
def FV.add (a b : FV) : FV := FV.sum [a, b]

/-- The comparison a < b of two values that are not NaN; −0 equals +0. -/
def FV.lt (a b : FV) : Bool :=
  match a, b with
  | .inf s, .inf t => s && !t
  | .inf s, .num .. => s
  | .num .., .inf t => !t
  | .num .., .num .. =>
    let d := addParts b.parts (-(a.parts.1), a.parts.2)
    decide (0 < d.1)
  | _, _ => false

/-- The sum of a list by the chunk rule (R224): one rounding of each exact chunk, one of each accumulation. -/
def chunkSum (chunk : Nat) : Nat → FV → List FV → FV
  | 0, acc, _ => acc
  | n + 1, acc, vs =>
    match vs with
    | [] => acc
    | _ => chunkSum chunk n (rne (acc.add (rne (FV.sum (vs.take chunk))))) (vs.drop chunk)

/-- The accumulated element of a floating-point multiply-accumulate (R224). -/
def dotF (chunk : Nat) (a b : List FV) (acc0 : FV) : FV :=
  chunkSum chunk (a.length + 1) acc0 (List.zipWith FV.mul a b)

/-- Chunk length of a format class (R224): 32 for BF16, 64 for FP8. -/
def chunkOf (f : Fmt) : Nat := if f = fBF16 then 32 else 64

/-! ### exp, recip and rsqrt (R234)

Each result lies within 1 ulp of the exact value; which value within that bound is free (log entry 7). -/

/-- An FP32 value within 1 ulp of `q` × 2^`e`, or with `more` of a value between that and (`q` + 1) × 2^`e`: the one of pattern `pat`
where it lies within the bound, else the nearest. -/
def within1 (neg : Bool) (q : Nat) (e : Int) (more : Bool) (pat : Nat) : FV :=
  let g := max ((Nat.log2 q : Int) + e - 23) (-149)
  match decodeF fFP32 (pat % 2 ^ 31) with
  | .num _ m f =>
    let b := min e (min f g)
    let up := fun (m : Nat) (x : Int) => m * 2 ^ (x - b).toNat
    if up m f ≤ up q e + up 1 g ∧ up (q + b2n more) e ≤ up m f + up 1 g then .num neg m f
    else rne (.num neg (2 * q + b2n more) (e - 1))
  | _ => rne (.num neg (2 * q + b2n more) (e - 1))

/-- ln 2 × 2^200. -/
def ln2Fix : Nat := 0xb17217f7d1cf79abc9e3b39803f2f6af40f343267298b62d8a

/-- exp(r / 2^200) × 2^200 for r below `ln2Fix`: its series, `n` terms from term `t` of number `i` on. -/
def expSeries (r : Nat) : Nat → Nat → Nat → Nat
  | 0, _, _ => 0
  | n + 1, i, t => t + expSeries r n (i + 1) (t * r / 2 ^ 200 / (i + 1))

/-- exp of an FP32 value that is not 0. -/
def expExact (neg : Bool) (m : Nat) (e : Int) (pat : Nat) : FV :=
  let x : Int := if neg then -((m * 2 ^ (e + 200).toNat : Nat) : Int) else (m * 2 ^ (e + 200).toNat : Nat)
  let k := x / (ln2Fix : Int)
  if 200 < k then .inf false
  else if k < -200 then within1 false 1 (-400) true pat
  else within1 false (expSeries (x % (ln2Fix : Int)).toNat 60 0 (2 ^ 200)) (k - 200) true pat

/-- exp of an FP32 value (R234). -/
def expF (v : FV) : FV :=
  match v with
  | .nan => .nan
  | .inf true => .zero
  | .inf false => .inf false
  | .num _ 0 _ => .num false 1 0
  | .num n m e => expExact n m e (Config.exp32 (pat32 v))

/-- recip of an FP32 value (R234). -/
def recipF (v : FV) : FV :=
  match v with
  | .nan => .nan
  | .inf n => .num n 0 0
  | .num n 0 _ => .inf n
  | .num n m e =>
    if pat32 v = 0x3F800000 then .num false 1 0
    else within1 n (2 ^ 88 / m) (-88 - e) (decide (2 ^ 88 % m ≠ 0)) (Config.recip32 (pat32 v))

/-- The bits of a square root from bit `n` down, `r` being those above. -/
def sqrtBits (a : Nat) : Nat → Nat → Nat
  | 0, r => r
  | n + 1, r => sqrtBits a n (if (r + 2 ^ n) * (r + 2 ^ n) ≤ a then r + 2 ^ n else r)

/-- rsqrt of a positive FP32 value: `m` × 2^(2 × `h`). -/
def rsqrtExact (m : Nat) (h : Int) (pat : Nat) : FV :=
  let q := sqrtBits (2 ^ 192 / m) 97 0
  within1 false q (-96 - h) (decide (q * q * m ≠ 2 ^ 192)) pat

/-- rsqrt of an FP32 value (R234). -/
def rsqrtF (v : FV) : FV :=
  match v with
  | .nan => .nan
  | .inf true => .nan
  | .inf false => .zero
  | .num n 0 _ => .inf n
  | .num true _ _ => .nan
  | .num false m e =>
    if e % 2 = 0 then rsqrtExact m (e / 2) (Config.rsqrt32 (pat32 v)) else rsqrtExact (2 * m) ((e - 1) / 2) (Config.rsqrt32 (pat32 v))

/-- An INT16 stream element on arrival at a Precision Engine (R219). -/
def ofStream (inExp : Nat) (x : Int) : FV := rneTo fBF16 (FV.ofInt x (-(inExp : Int)))

/-- The output stage of the floating-point class (R226): result pattern, and whether it saturated. -/
def outFloat (f : Fmt) (sat : Bool) (acc : FV) (scale bias : Option FV) : Nat × Bool :=
  let y := match scale with
    | some s => rne (acc.mul s)
    | none => acc
  let z := match bias with
    | some b => rne (y.add b)
    | none => y
  encodeF f sat z

/-- Saturation of an integer to `bits` bits two's complement, and whether it happened. -/
def satInt (bits : Nat) (v : Int) : Int × Bool :=
  let lo : Int := -((2 ^ (bits - 1) : Nat) : Int)
  let hi : Int := ((2 ^ (bits - 1) : Nat) : Int) - 1
  (clampInt lo hi v, decide (v < lo ∨ hi < v))

/-- The INT8 output stage (R226): the result and how many saturations. -/
def outInt8 (acc : Int) (scale : Option Nat) (bias : Option Int) (sh : Nat) : Int × Nat :=
  let p := match scale with
    | some s => (acc * s + (2 ^ (sh - 1) : Nat)) / (2 ^ sh : Nat)
    | none => (acc + (2 ^ (sh - 1) : Nat)) / (2 ^ sh : Nat)
  let a := satInt 8 p
  match bias with
  | some b =>
    let c := satInt 8 (a.1 + b)
    (c.1, b2n a.2 + b2n c.2)
  | none => (a.1, b2n a.2)

/-- SOFTMAX of one row, before the conversion to OUT_FMT (R229). -/
def softmaxRow (xs : List FV) : List FV :=
  if xs.any FV.isNan then xs.map fun _ => .nan else
  let m := match xs with
    | [] => FV.zero
    | x :: t => t.foldl (fun a b => if a.lt b then b else a) x
  if m.isInf true then xs.map fun _ => FV.zero else
  let e := xs.map fun x => if x.isInf true then FV.zero else expF (rne (x.add m.neg))
  let r := recipF (chunkSum 32 (e.length + 1) .zero e)
  e.map fun v => rne (v.mul r)

/-- Division of an FP32 value by a count, rounded once (R230). -/
def divCount (v : FV) (n : Nat) : FV :=
  match v with
  | .num s m e =>
    -- 64 extra bits and a sticky bit make the one rounding exact
    let q := m * 2 ^ 64 / n
    let st := if m * 2 ^ 64 % n = 0 then 0 else 1
    rne (.num s (2 * q + st) (e - 65))
  | v => v

/-- RMS of one row (R230). -/
def rmsRow (xs : List FV) (eps : FV) (gamma : List FV) : List FV :=
  let sq := xs.map fun x => x.mul x
  let r := rsqrtF (rne ((divCount (chunkSum 32 (sq.length + 1) .zero sq) xs.length).add eps))
  List.zipWith (fun x g => rne ((rne (x.mul r)).mul g)) xs gamma

/-- LAYER of one row (R230). -/
def layerRow (xs : List FV) (eps : FV) (gamma beta : List FV) : List FV :=
  let mu := divCount (chunkSum 32 (xs.length + 1) .zero xs) xs.length
  let d := xs.map fun x => rne (x.add mu.neg)
  let sq := d.map fun x => x.mul x
  let v := divCount (chunkSum 32 (sq.length + 1) .zero sq) xs.length
  let r := rsqrtF (rne (v.add eps))
  List.zipWith (fun y b => rne (y.add b)) (List.zipWith (fun x g => rne ((rne (x.mul r)).mul g)) d gamma) beta

/-- ROPE of one pair (R231): both products and the sum exact, one rounding. -/
def ropePair (x0 x1 c s : FV) : FV × FV :=
  (rne ((x0.mul c).add (x1.mul s).neg), rne ((x0.mul s).add (x1.mul c)))

/-- TOPK rank: does element (value, index) `a` stand before `b` (R232): larger first, NaN last, lower index
first among equals. -/
def topBefore (a b : FV × Nat) : Bool :=
  if a.1.isNan then b.1.isNan && decide (a.2 < b.2)
  else if b.1.isNan then true
  else if b.1.lt a.1 then true
  else if a.1.lt b.1 then false
  else decide (a.2 < b.2)

/-- Insertion of an element into a list ranked by `topBefore`. -/
def topInsert (a : FV × Nat) : List (FV × Nat) → List (FV × Nat)
  | [] => [a]
  | b :: t => if topBefore a b then a :: b :: t else b :: topInsert a t

/-- The `k` largest elements of a row with their indices (R232). -/
def topK (k : Nat) (xs : List FV) : List (FV × Nat) :=
  ((xs.zipIdx).foldl (fun l a => topInsert a l) []).take k

/-- One dense element of a tile (R250): rounded once to FP32, then converted. -/
def tileElem (out : Fmt) (sat : Bool) (scaleExp : Int) (u v : List FV) : Nat × Bool :=
  let s := FV.sum (List.zipWith FV.mul u v)
  let d := match s with
    | .num n m e => rne (.num n m (e + scaleExp))
    | v => v
  encodeF out sat d

end Sys2Proof.Machine
end

