-- ==== Sys2Proof/Machine/Vector.lean ====
section
/-!
DEFINITION. The vector unit and MOVE: the meanings of ACT, POOL, VEC_ADD, VEC_SUB, VEC_MAX, VEC_MUL, VEC_SCALE, VEC_CVT,
VEC_QUANT, MOVE, PREFETCH and their ends (R334, R340 to R346, R659).
-/

namespace Sys2Proof.Machine

/-! ### Operands -/

/-- INT16 elements of bytes. -/
def int16s (bs : List Nat) : List Int := (List.range (bs.length / 2)).map fun i => toSigned 16 (u16At bs (2 * i))

/-- FP16 elements of bytes (R341). -/
def fp16s (bs : List Nat) : List FV := (List.range (bs.length / 2)).map fun i => decodeF fFP16 (u16At bs (2 * i))

/-- Bytes of INT16 elements. -/
def bytes16 (vs : List Int) : List Nat := vs.flatMap fun v => leBytes 2 (ofSigned 16 v)

/-- The oldest block of a step that an engine queues for consumers of a DEST_KIND is taken (R346, R347). -/
def State.takeBlock (s : State) (uid e kind : Nat) : State × List Int :=
  let g := s.engine e
  match g.blocks.find? fun b => b.1 == uid && b.2.1 == kind with
  | none => (s, [])
  | some b => (s.setEngine e { g with blocks := g.blocks.erase b }, b.2.2.map Prod.fst)

/-- Read `rows` runs of `n` bytes, `stride` apart. -/
def State.readRows (s : State) (i tier u a n stride : Nat) : Nat → State × Access
  | 0 => (s, Access.ok [])
  | rows + 1 =>
    let r := s.sramRead tier i u a n
    let q := r.1.readRows i tier u (a + stride) n stride rows
    (q.1, if r.2.status ≠ St.ok then r.2 else if q.2.status ≠ St.ok then q.2 else Access.ok (r.2.bytes ++ q.2.bytes))

/-- A source of a vector operation: the stream of an engine of the core, or T0 (R340). -/
def State.vecSource (s : State) (uid i core v n stride rows : Nat) : State × Access :=
  if bit v 31 then
    let r := s.takeBlock uid (core * 16 + v % 16) 1
    (r.1, Access.ok (bytes16 r.2))
  else s.readRows i 0 core v n stride rows

/-- A vector operation reads its operands and forms its results with `f`, which gives their bytes and the number of INT16
saturations (VEC_SAT, R341). -/
def State.vecOp (s : State) (uid st op code : Nat) (f : List Nat → List Nat → List Nat → List Nat × Nat) : State :=
  s.onOp uid st op code fun t m o =>
    let b := o.bytes
    let n := u32At b 0x14
    let rows := if code = 4 then u8At b 0x19 + 1 else 1
    let ra := s.vecSource uid t.inst m.unit (u32At b 8) (2 * n) (u32At b 0x1C) rows
    let nb := srcBBytes code n (u8At b 0x18)
    let rb := if nb = 0 then (ra.1, Access.ok []) else ra.1.vecSource uid t.inst m.unit (u32At b 0xC) nb 0 1
    let bad := if ra.2.status ≠ St.ok then ra.2 else rb.2
    if bad.status ≠ St.ok then (rb.1.failAccess uid bad o.step).opDone uid st op
    else
      let r := f b ra.2.bytes rb.2.bytes
      ((rb.1.bumpCore m.unit 1 r.2).spendFree (dieOf m.clusterNo) (20 * ((n + 63) / 64))).modOp uid st op fun o => { o with stage := 2, result := [(0, m.unit, u32At b 0x10, r.1)] }

/-! ### Arithmetic (R341) -/

/-- Saturate each value to INT16, and count the saturations. -/
def satAll (vs : List Int) : List Nat × Nat :=
  (bytes16 (vs.map sat16), countIf (fun v => decide (v < -32768 ∨ 32767 < v)) vs)

/-- A two-operand operation in INT16 or FP16, as MODE says. -/
def vecTwo (fi : Int → Int → Int) (ff : FV → FV → Nat) (b x y : List Nat) : List Nat × Nat :=
  if bit (u8At b 0x18) 0 then ((List.zipWith ff (fp16s x) (fp16s y)).flatMap (leBytes 2), 0)
  else satAll (List.zipWith fi (int16s x) (int16s y))

/-- One rounding to FP16, NaN as 0x7E00, overflow to infinity. -/
def to16 (v : FV) : Nat := (encodeF fFP16 false v).1

/-- VEC_ADD. -/
def vecAdd : List Nat → List Nat → List Nat → List Nat × Nat := vecTwo (· + ·) fun a b => to16 (a.add b)
/-- VEC_SUB. -/
def vecSub : List Nat → List Nat → List Nat → List Nat × Nat := vecTwo (· - ·) fun a b => to16 (a.add b.neg)
/-- VEC_MUL. -/
def vecMul : List Nat → List Nat → List Nat → List Nat × Nat :=
  vecTwo (fun a b => (a * b + (2 ^ 14 : Nat)) / (2 ^ 15 : Nat)) fun a b => to16 (a.mul b)

/-- The larger of two FP16 values: NaN when either is, and +0 above −0. -/
def maxF (a b : FV) : FV :=
  if a.isNan || b.isNan then .nan
  else if a.lt b then b
  else if b.lt a then a
  else if a.isNegZero then b else a

/-- VEC_MAX. -/
def vecMax : List Nat → List Nat → List Nat → List Nat × Nat := vecTwo max fun a b => to16 (maxF a b)

/-- VEC_SCALE: R128 per element, with its scale and offset pair from SRC_B. -/
def vecScale (b x y : List Nat) : List Nat × Nat :=
  let ps := ((int16s x).zipIdx).map fun p =>
    preAct p.1 (u16At y (4 * p.2)) (toSigned 16 (u16At y (4 * p.2 + 2))) (fld (u8At b 0x18) 4 1)
  (bytes16 (ps.map Prod.fst), countIf Prod.snd ps)

/-- The exact value x × 2^k rounded to the nearest integer, ties to even; infinities past every INT16. -/
def roundF : FV → Int → Int
  | .nan, _ => 0
  | .inf n, _ => if n then -65536 else 65536
  | .num n m e, k => if n then -(scaleRne m (e + k) : Int) else scaleRne m (e + k)

/-- VEC_CVT: INT16 × 2^(−SHIFT) to FP16, or FP16 × 2^SHIFT to INT16. -/
def vecCvt (b x _y : List Nat) : List Nat × Nat :=
  let k : Int := (u8At b 0x19 : Nat)
  if bit (u8At b 0x18) 1 then satAll ((fp16s x).map fun v => roundF v k)
  else (((int16s x).map fun v => to16 (FV.ofInt v (-k))).flatMap (leBytes 2), 0)

/-- VEC_QUANT: codes of the 255 thresholds of SRC_B (R137, R138). -/
def vecQuant (b x y : List Nat) : List Nat × Nat :=
  (outBytes (if bit (u8At b 0x18) 1 then 2 else 1) (int16s y) (int16s x), 0)

/-- ACT: ReLU, or a fine or coarse table at SRC_B (R130 to R132). -/
def vecAct (b x y : List Nat) : List Nat × Nat :=
  let k := fld (u8At b 0x18) 2 1
  let tab := int16s y
  let f := fun (p : Int) => if k = 0 then max p 0 else interp (if k = 1 then 8 else 4) (fun i => tab.getD i 0) p
  (bytes16 ((int16s x).map f), 0)

/-- An average saturates to INT16 (R134). -/
def avgSaturates (vs : List Int) : Bool :=
  let sum : Int := vs.foldl (· + ·) 0
  decide (32767 < (sum * (k16 vs.length : Nat) + 32768) / 65536 ∨ (sum * (k16 vs.length : Nat) + 32768) / 65536 < -32768)

/-- POOL: R133 and R134 over the rows read. -/
def vecPool (b x _y : List Nat) : List Nat × Nat :=
  match opPool b with
  | none => ([], 0)
  | some pm =>
    let n := u32At b 0x14
    let xs := int16s x
    let sd := poolStride (u16At b 0x1A)
    let wins := (List.range (poolOuts n sd pm.wc)).map fun o =>
      (List.range pm.we).flatMap fun r => (poolMembers sd pm.wc o).map fun j => xs.getD (r * n + j) 0
    (bytes16 (wins.map (poolValue pm.avg)), if pm.avg then countIf avgSaturates wins else 0)

/-- ACT (R341). -/
def execAct (uid st op : Nat) (s : State) : Host.Outcome State Fault Refusal := done (s.vecOp uid st op 0x03 vecAct)
/-- POOL (R341). -/
def execPool (uid st op : Nat) (s : State) : Host.Outcome State Fault Refusal := done (s.vecOp uid st op 0x04 vecPool)
/-- VEC_ADD (R341). -/
def execVecAdd (uid st op : Nat) (s : State) : Host.Outcome State Fault Refusal := done (s.vecOp uid st op 0x10 vecAdd)
/-- VEC_SUB (R341). -/
def execVecSub (uid st op : Nat) (s : State) : Host.Outcome State Fault Refusal := done (s.vecOp uid st op 0x11 vecSub)
/-- VEC_MAX (R341). -/
def execVecMax (uid st op : Nat) (s : State) : Host.Outcome State Fault Refusal := done (s.vecOp uid st op 0x12 vecMax)
/-- VEC_MUL (R341). -/
def execVecMul (uid st op : Nat) (s : State) : Host.Outcome State Fault Refusal := done (s.vecOp uid st op 0x13 vecMul)
/-- VEC_SCALE (R341). -/
def execVecScale (uid st op : Nat) (s : State) : Host.Outcome State Fault Refusal := done (s.vecOp uid st op 0x14 vecScale)
/-- VEC_CVT (R341). -/
def execVecCvt (uid st op : Nat) (s : State) : Host.Outcome State Fault Refusal := done (s.vecOp uid st op 0x15 vecCvt)
/-- VEC_QUANT (R341). -/
def execVecQuant (uid st op : Nat) (s : State) : Host.Outcome State Fault Refusal := done (s.vecOp uid st op 0x16 vecQuant)

/-! ### Ends -/

/-- Spaces of held results beyond those of R394: codebook stores and peripheries (R342). -/
def spaceBook : Nat := 5
/-- See `spaceBook`. -/
def spacePeri : Nat := 6

/-- Write one held result of a step (R342); a codebook store or periphery loses the bind tag of its core (R328). -/
def State.writeResult (s : State) (i : Nat) (r : Nat × Nat × Nat × List Nat) : State × Access :=
  if r.1 = spaceBook then ((s.bookWrite r.2.1 r.2.2.1 r.2.2.2).setTag r.2.1 [], Access.ok [])
  else if r.1 = spacePeri then ((s.periWords r.2.1 r.2.2.1 (wordsOf r.2.2.2)).setTag (coreOf r.2.1) [], Access.ok [])
  else s.writeSpace i r.1 r.2.1 r.2.2.1 r.2.2.2

/-- Write the held results of an operation in order; the first failure is kept. -/
def State.writeResults (s : State) (i : Nat) : List (Nat × Nat × Nat × List Nat) → State × Access
  | [] => (s, Access.ok [])
  | r :: t =>
    let w := s.writeResult i r
    let q := w.1.writeResults i t
    (q.1, if w.2.status ≠ St.ok then w.2 else q.2)

/-- The results of an operation are written and it completes (R345). -/
def State.finishOp (s : State) (t : Step) (st op : Nat) (o : Op) : State :=
  if s.mayWrite t then
    let w := s.writeResults t.inst o.result
    (w.1.failAccess t.uid w.2 o.step).opDone t.uid st op
  else s.opDone t.uid st op

/-- An operation whose effect has begun, in RUN. -/
def State.onBegun (s : State) (uid st op : Nat) (p : Nat → Bool) (f : Step → Stream → Op → State) : State :=
  match s.op? uid st op with
  | some (t, m, o) => if s.running && o.stage == 2 && p o.code then f t m o else s
  | none => s

/-- VECTOR_OP_COMPLETE: the results are written to T0 (R345). -/
def State.vecDone (s : State) (uid st op : Nat) : State :=
  s.onBegun uid st op isVector fun t _ o => s.finishOp t st op o

/-- VECTOR_OP_COMPLETE (R345). -/
def execVectorOpComplete (uid st op : Nat) (s : State) : Host.Outcome State Fault Refusal := done (s.vecDone uid st op)

/-! ### MOVE (R342) -/

/-- Unit of a T0, T1 or T2 location: for T2 the handle of the slot. -/
def Step.locUnit (t : Step) (v : Nat) : Nat := if locSpace v = 2 then t.handle (Machine.locUnit v) else Machine.locUnit v

/-- Where a MOVE writes, as a held result's space, unit and address. -/
def Step.moveDest (t : Step) (v : Nat) : Nat × Nat × Nat :=
  if locSpace v ≤ 2 then (locSpace v, t.locUnit v, locOff v)
  else if locSpace v = 3 then (4, 0, (t.outs.getD (Machine.locUnit v) (0, 0)).1 + locOff v)
  else if locSpace v = 4 then (spaceBook, Machine.locUnit v, locOff v)
  else (spacePeri, Machine.locUnit v, locOff v)

/-- MOVE: the source is read (R342). -/
def State.moveStart (s : State) (uid st op : Nat) : State :=
  s.onOp uid st op 0x20 fun t m o =>
    let src := u64At o.bytes 8
    let r := s.readSpace t.inst (locSpace src) (t.locUnit src) (locOff src) (u32At o.bytes 0x18)
    if r.2.status ≠ St.ok then (r.1.failAccess uid r.2 o.step).opDone uid st op
    else
      let d := t.moveDest (u64At o.bytes 0x10)
      (r.1.spendFree (dieOf m.clusterNo) (40 * ((u32At o.bytes 0x18 + 63) / 64))).modOp uid st op fun o =>
        { o with stage := 2, result := [(d.1, d.2.1, d.2.2, r.2.bytes)] }

/-- MOVE (R342). -/
def execMove (uid st op : Nat) (s : State) : Host.Outcome State Fault Refusal := done (s.moveStart uid st op)

/-- A MOVE into a mirror leaves as DATA flits and waits for their XACKs (R583, R584); the link being lost, it fails with
DOMAIN_DOWN (R587). -/
def State.moveMirror (s : State) (t : Step) (m : Stream) (st op k : Nat) (o : Op) (r : Nat × Nat × Nat × List Nat) : State :=
  let w := s.mirrorWrite t.inst k r.2.2.1 r.2.2.2 t.uid st op false
  if w.2 then w.1.modOp t.uid st op fun o => { o with result := [] }
  else (s.failStep t.uid St.domainDown m.clusterNo 0 o.step).opDone t.uid st op

/-- A MOVE to host memory on a device that is not the chain master leaves in HOST flits, and waits for the master's acknowledgements
(R345, R362, R579). -/
def State.moveHost (s : State) (t : Step) (st op : Nat) (r : Nat × Nat × Nat × List Nat) : State :=
  let tag := s.chain.nextTag
  let runs := flitRuns r.2.2.2.length r.2.2.1 r.2.2.2
  let s1 : State := { s.hostStore r.2.2.1 r.2.2.2 with chain := { s.chain with
    nextTag := (tag + 1) % 65536
    transfers := s.chain.transfers ++ [⟨tag, t.inst, runs.length, t.uid, st, op, false, 0, 0, 0⟩] } }
  (runs.foldl (fun (a : State) q => a.sendFlit 0 t.inst (.host true q.1 q.2.length tag q.2)) s1).modOp t.uid st op fun o =>
    { o with result := [] }

/-- Domains that a MOVE reads and writes (R308). -/
def Step.moveDomains (t : Step) (o : Op) : List Nat :=
  let src := u64At o.bytes 8
  let d := t.moveDest (u64At o.bytes 0x10)
  [spaceDomain (locSpace src) (t.locUnit src), if 5 ≤ d.1 then hubSide else spaceDomain d.1 d.2.1]

/-- The operation's transfer meets no closed hem and no held crossing. -/
def State.moveOpen (s : State) (t : Step) (m : Stream) (st op : Nat) (o : Op) : Bool :=
  !(t.moveDomains o).any fun d => d != hubSide && s.blockedFor (t.uid, st, op) (dieOf m.clusterNo) d

/-- A MOVE that stops at a packet boundary: the writes already issued complete, a free number of 64-byte blocks (R309, R427,
R662); of a codebook store whole slots, since no setup may meet a mixture (R206; log entry 45). -/
def State.moveStopped (s : State) (t : Step) (o : Op) : State :=
  match o.result with
  | [] => s
  | r :: _ =>
    let g := if r.1 = spaceBook then 512 else 64
    let n := g * (s.drawn % ((r.2.2.2.length + g - 1) / g + 1))
    if s.mayWrite t then (s.skip 1).under t fun s => (s.writeResult t.inst (r.1, r.2.1, r.2.2.1, r.2.2.2.take n)).1 else s

/-- MOVE_COMPLETE: every write is acknowledged (R345). A MOVE overtaken by a reset of its instance has stopped (R427). -/
def State.moveDone (s : State) (uid st op : Nat) : State :=
  s.onBegun uid st op (· == 0x20) fun t m o =>
    match o.result with
    | [] => s
    | r :: _ =>
      if (s.inst t.inst).gen ≠ t.gen then
        if (t.moveDomains o).any fun d => d != hubSide && s.heldTo (dieOf m.clusterNo) d then s
        else (if s.moveOpen t m st op o then s.moveStopped t o else s).opDone uid st op
      else if r.1 = 4 ∧ s.reportsToMaster ∧ s.hostUp ∧ s.moveOpen t m st op o then s.moveHost t st op r
      else if (r.1 = 4 ∧ !s.hostUp) ∨ !s.moveOpen t m st op o then s
      else match (if r.1 = 2 then s.mirrorOf t.inst r.2.1 else none) with
        | some k => s.moveMirror t m st op k o r
        | none => s.finishOp t st op o

/-- MOVE_COMPLETE (R345). -/
def execMoveComplete (uid st op : Nat) (s : State) : Host.Outcome State Fault Refusal := done (s.moveDone uid st op)

/-! ### PREFETCH (R334, R343) -/

/-- PREFETCH: the in-line entry it names is issued; its transfer starts with PREFETCH_ENTRY_ISSUE's rules but the gate. -/
def State.prefetchOp (s : State) (uid st op : Nat) : State :=
  s.onOp uid st op 0x21 fun t _ o =>
    let k := u32At o.bytes 8
    match t.entries[k]? with
    | none => s
    | some _ =>
      (s.modStep uid fun t => { t with entries := t.entries.modify k fun e => { e with st := 1, tile := u32At e.bytes 0x1C, reread := false } }).setStage
        uid st op 2

/-- PREFETCH (R334). -/
def execPrefetch (uid st op : Nat) (s : State) : Host.Outcome State Fault Refusal := done (s.prefetchOp uid st op)

end Sys2Proof.Machine
end

