-- ==== Sys2Proof/Machine/PeOps.lean ====
section
/-!
DEFINITION. The Precision Engine: operand reads and the results of each output block or row (R218 to R235, R332, R333).
-/

namespace Sys2Proof.Machine

/-! ### Formats -/

/-- Input format of a code of FMT (R332); INT8 has none. -/
def inFmt (c : Nat) : Fmt := if c = 0 then fBF16 else if c = 1 then fE4M3 else fE5M2
/-- Output format of an OUT_FMT code. -/
def outFmt (c : Nat) : Fmt := if c = 0 then fFP32 else if c = 1 then fBF16 else if c = 2 then fE4M3 else fE5M2
/-- Little-endian elements of `n` bytes each. -/
def elemsOf (n : Nat) (bs : List Nat) : List Nat := (List.range (bs.length / n)).map fun i => leNat ((bs.drop (n * i)).take n)
/-- FP32 values of bytes. -/
def fp32s (bs : List Nat) : List FV := (elemsOf 4 bs).map (decodeF fFP32)
/-- The value of an element of an input format; INT8 as an exact integer. -/
def inValue (c p : Nat) : FV := if c = 3 then FV.ofInt (toSigned 8 p) 0 else decodeF (inFmt c) p

/-! ### Operand reads (R218, R231, R263, R333) -/

/-- Where a Precision Engine operation runs, and on what: step, cluster, parameter block, stream bytes of A and B. -/
structure PeCtx where
  step : Step
  cl   : Nat
  p    : List Nat
  strA : List Nat
  strB : List Nat
  deriving DecidableEq, Repr

/-- Unit of a CADDR: the cluster for T1, the flat core for T0, the handle for T2 (R333). -/
def PeCtx.unit (x : PeCtx) (c : Nat) : Nat :=
  if caSpace c = 0 then x.cl else if caSpace c = 1 then x.cl * 24 + fld c 26 22 else x.step.handle (c % 65536)

/-- Memory tier of a CADDR. -/
def caTier (c : Nat) : Nat := if caSpace c = 0 then 1 else if caSpace c = 1 then 0 else 2

/-- Byte address of a CADDR. -/
def PeCtx.addr (x : PeCtx) (c : Nat) : Nat :=
  if caSpace c = 0 then c % 2 ^ 22 else if caSpace c = 1 then c % 2 ^ 17 else u64At x.p 0x20

/-- Read bytes at an offset from a CADDR; an address outside the unit's memory fails as R231 says. -/
def State.peRead (s : State) (x : PeCtx) (c : Nat) (off : Int) (n : Nat) : State × Access :=
  let a := (x.addr c : Int) + off
  let t := caTier c
  if a < 0 ∨ (t ≠ 2 ∧ (unitBytes t : Int) < a + n) then
    (s.bump (R.INST_STATUS_BUF_ERRORS_TAG_VIOLATION x.step.inst) 1,
      ⟨List.replicate n 0, St.stepBounds, x.unit c, locOf t (ofSigned 62 a)⟩)
  else s.readSpace x.step.inst t (x.unit c) a.toNat n

/-- Read bytes of operand A or B (`o` = 8 or 0xC): from its stream, or from memory. -/
def State.peBytes (s : State) (x : PeCtx) (o off n : Nat) : State × Access :=
  let c := u32At x.p o
  if caSpace c = 2 then (s, Access.ok (((if o = 8 then x.strA else x.strB).drop off).take n))
  else s.peRead x c off n

/-- Read a list of runs (offset, bytes); the first failure is kept, the bytes of each run given back. -/
def State.peRuns (s : State) (x : PeCtx) (o : Nat) : List (Nat × Nat) → State × Access × List (List Nat)
  | [] => (s, Access.ok [], [])
  | r :: t =>
    let a := s.peBytes x o r.1 r.2
    let q := a.1.peRuns x o t
    (q.1, if a.2.status ≠ St.ok then a.2 else q.2.1, a.2.bytes :: q.2.2)

/-- Offset of row `r` of member `b` of an operand whose rows have `w` bytes: a stream holds its rows one after another. -/
def PeCtx.rowOff (x : PeCtx) (o b r w : Nat) : Nat :=
  if caSpace (u32At x.p o) = 2 then r * w
  else b * u32At x.p (if o = 8 then 0x20 else 0x24) + r * u32At x.p (if o = 8 then 0x14 else 0x18)

/-! ### Results -/

/-- What a block or row gives: the block, or the failure that stops the operation. -/
structure PeRes where
  blk  : PeBlock
  fail : Nat
  hi   : Nat
  info : Nat
  deriving DecidableEq, Repr

/-- A result with its writes and counts. -/
def peGood (steps : Nat) (ws : List (Nat × Nat × Nat × List Nat)) (nans sats : Nat) : PeRes :=
  ⟨⟨steps, ws, nans, sats, 0⟩, St.ok, 0, 0⟩

/-- A failed access as a result. -/
def peBad (a : Access) : PeRes := ⟨⟨0, [], 0, 0, 0⟩, a.status, a.place, a.loc⟩

/-- A write of `bytes` at an offset of C. -/
def PeCtx.write (x : PeCtx) (off : Nat) (bytes : List Nat) : Nat × Nat × Nat × List Nat :=
  let c := u32At x.p 0x10
  (caTier c, x.unit c, x.addr c + off, bytes)

/-- Convert values to an output format (R221, R222): bytes, NaN outputs, saturations. -/
def encodeRow (f : Fmt) (sat : Bool) (vs : List FV) : List Nat × Nat × Nat :=
  let r := vs.map (encodeF f sat)
  (r.flatMap fun e => leBytes f.bytes e.1, countIf (fun e => (decodeF f e.1).isNan) r, countIf Prod.snd r)

/-! ### Matrix blocks (R224 to R228, R236) -/

/-- Energy of one block step in pJ: 32 × 32 outputs by one chunk (R236, R239). -/
def stepEnergy (afmt : Nat) : Nat :=
  if afmt = 0 then 32768 * 30 / 100 else if afmt = 3 then 65536 * 13 / 100 else 65536 * 16 / 100

/-- Energy of a function apart from its block steps, in pJ: its start, and its elements (R239). -/
def opEnergy (f m n : Nat) : Nat :=
  25 + m * n * (if f = fSoftmax then 18 else if f = fRms ∨ f = fLayer then 12 else if f = fRope then 9 else if f = fTopk then 6 else 0) / 10

/-- Chunks of a reduction (R224, R236). -/
def chunkLen (afmt : Nat) : Nat := if afmt = 0 then 32 else 64

/-- One output block: member, first row, first column. -/
structure PeTile where
  b  : Nat
  m0 : Nat
  n0 : Nat
  deriving DecidableEq, Repr

/-- The output blocks of a matrix operation, in order. -/
def peTiles (f : Nat) (p : List Nat) : List PeTile :=
  let mb := (pM p + 31) / 32
  let nb := (pN p + 31) / 32
  (List.range ((if f = fMatmul then 1 else pBatch p) * (mb * nb))).map fun i =>
    ⟨i / (mb * nb), i % (mb * nb) / nb * 32, i % nb * 32⟩

/-- One accumulated element through the output stage (R225, R226): bytes, NaN, saturations. `a` and `b` are the patterns of
its operands. -/
def peElement (f : Nat) (p : List Nat) (i j : Nat) (a b : List Nat) (scale bias : Option Nat) : List Nat × Nat × Nat :=
  let fa := pAFmt p
  let o := pOut p
  if fa = 3 then
    let acc := (List.zipWith (fun u v => toSigned 8 u * toSigned 8 v) a b).foldl (· + ·) 0
    if o = 4 then
      let r := match bias with
        | some v => satInt 32 (acc + toSigned 32 v)
        | none => (acc, false)
      (leBytes 4 (ofSigned 32 r.1), 0, b2n r.2)
    else
      let r := outInt8 acc scale (bias.map (toSigned 8)) (fld (u32At p 0x3C) 9 5)
      (leBytes 1 (ofSigned 8 r.1), 0, r.2)
  else
    let acc := dotF (chunkLen fa) (a.map (inValue fa)) (b.map (inValue (pBFmt p))) FV.zero
    let e :=
      if f = fQk then
        if bit (u32At p 0x3C) 10 && decide (i + u32At p 0x38 < j) then encodeF (outFmt o) (pSat p) (.inf true)
        else outFloat (outFmt o) (pSat p) acc (some (decodeF fFP32 (u32At p 0x34))) none
      else outFloat (outFmt o) (pSat p) acc (scale.map (decodeF fFP32)) (bias.map (decodeF fFP32))
    (leBytes (outElemBytes o) e.1, b2n (decodeF (outFmt o) e.1).isNan, b2n e.2)

/-- Read the part of a per-column vector that a block uses; a pointer of 0 names none (R226). QK has its SCALE as a parameter (R228). -/
def State.peVector (s : State) (x : PeCtx) (f o n0 n w : Nat) : State × Access × List Nat :=
  let c := u32At x.p o
  if c = 0 ∨ f = fQk then (s, Access.ok [], [])
  else
    let r := s.peRead x c (n0 * w : Nat) (n * w)
    (r.1, r.2, elemsOf w r.2.bytes)

/-- Read the columns of B that a block uses, as lists of patterns. -/
def State.peColumns (s : State) (x : PeCtx) (f : Nat) (t : PeTile) (n : Nat) : State × Access × List (List Nat) :=
  let p := x.p
  let eb := inBytes (pBFmt p)
  if f = fQk then
    let r := s.peRuns x 0xC ((List.range n).map fun j => (x.rowOff 0xC t.b (t.n0 + j) (pK p * eb), pK p * eb))
    (r.1, r.2.1, r.2.2.map (elemsOf eb))
  else
    let r := s.peRuns x 0xC ((List.range (pK p)).map fun k => (x.rowOff 0xC t.b k (pN p * eb) + t.n0 * eb, n * eb))
    let rows := r.2.2.map (elemsOf eb)
    (r.1, r.2.1, (List.range n).map fun j => rows.map fun w => w.getD j 0)

/-- One output block of MATMUL, BATCHED, QK or AV. -/
def State.peTile (s : State) (x : PeCtx) (f : Nat) (t : PeTile) : State × PeRes :=
  let p := x.p
  let m := min 32 (pM p - t.m0)
  let n := min 32 (pN p - t.n0)
  let ea := inBytes (pAFmt p)
  let int := pAFmt p == 3
  let ra := s.peRuns x 8 ((List.range m).map fun i => (x.rowOff 8 t.b (t.m0 + i) (pK p * ea), pK p * ea))
  let rb := ra.1.peColumns x f t n
  let rs := rb.1.peVector x f 0x2C t.n0 n (if int then 2 else 4)
  let ri := rs.1.peVector x f 0x30 t.n0 n (if int && pOut p == 5 then 1 else 4)
  match [ra.2.1, rb.2.1, rs.2.1, ri.2.1].find? fun a => a.status != St.ok with
  | some a => (ri.1, peBad a)
  | none =>
    let rows := ((ra.2.2.map (elemsOf ea)).zipIdx).map fun r =>
      (rb.2.2.zipIdx).map fun c => peElement f p (t.m0 + r.2) (t.n0 + c.2) r.1 c.1 rs.2.2[c.2]? ri.2.2[c.2]?
    let eo := outElemBytes (pOut p)
    let ws := (rows.zipIdx).map fun r =>
      x.write (t.b * u32At p 0x28 + (t.m0 + r.2) * u32At p 0x1C + t.n0 * eo) (r.1.flatMap Prod.fst)
    let sum := fun (g : List Nat × Nat × Nat → Nat) => (rows.flatten.map g).foldl (· + ·) 0
    (ri.1, peGood ((pK p + chunkLen (pAFmt p) - 1) / chunkLen (pAFmt p)) ws (sum fun e => e.2.1) (sum fun e => e.2.2))

/-! ### Rows of the element-wise functions (R229 to R232) -/

/-- A per-row vector of FP32 (γ, β); a pointer of 0 gives `d` for every element. -/
def State.peGain (s : State) (x : PeCtx) (o n : Nat) (d : FV) : State × Access × List FV :=
  let c := u32At x.p o
  if c = 0 then (s, Access.ok [], List.replicate n d)
  else
    let r := s.peRead x c 0 (4 * n)
    (r.1, r.2, fp32s r.2.bytes)

/-- POS of a ROPE row; a position the operation does not name is a free value (log entry 5). -/
def State.pePos (s : State) (x : PeCtx) (r : Nat) : State × Access × Int :=
  let c := u32At x.p 0x2C
  if c = 0 then (s.skip 1, Access.ok [], toSigned 32 s.drawn)
  else
    let a := s.peRead x c (4 * r : Nat) 4
    (a.1, a.2, toSigned 32 (u32At a.2.bytes 0))

/-- Row `r` of ROPE (R231). -/
def State.peRope (s : State) (x : PeCtx) (r : Nat) : State × PeRes :=
  let p := x.p
  let n := pN p
  let ea := inBytes (pAFmt p)
  let ra := s.peBytes x 8 (r * u32At p 0x14) (n * ea)
  let rp := ra.1.pePos x r
  let rt := rp.1.peRead x (u32At p 0xC) (rp.2.2 * (u32At p 0x18 : Nat)) (4 * n)
  match [ra.2, rp.2.1, rt.2].find? fun a => a.status != St.ok with
  | some a => (rt.1, peBad a)
  | none =>
    let xs := (elemsOf ea ra.2.bytes).map (inValue (pAFmt p))
    let cs := fp32s rt.2.bytes
    let ys := (List.range (n / 2)).flatMap fun i =>
      let y := ropePair (xs.getD (2 * i) .zero) (xs.getD (2 * i + 1) .zero) (cs.getD (2 * i) .zero) (cs.getD (2 * i + 1) .zero)
      [y.1, y.2]
    let e := encodeRow (outFmt (pOut p)) (pSat p) ys
    (rt.1, peGood 0 [x.write (r * u32At p 0x1C) e.1] e.2.1 e.2.2)

/-- RMS without β, LAYER with it where its pointer is not 0 (R230). -/
def normRow (layer hasBeta : Bool) (xs : List FV) (eps : FV) (gamma beta : List FV) : List FV :=
  if !layer then rmsRow xs eps gamma
  else if hasBeta then layerRow xs eps gamma beta
  else layerRow xs eps gamma (gamma.map fun _ => .num true 0 0)

/-- Row `r` of RMS or LAYER (R230). -/
def State.peNorm (s : State) (x : PeCtx) (layer : Bool) (r : Nat) : State × PeRes :=
  let p := x.p
  let n := pN p
  let ea := inBytes (pAFmt p)
  let ra := s.peBytes x 8 (r * u32At p 0x14) (n * ea)
  let rg := ra.1.peGain x 0x2C n (.num false 1 0)
  let rb := rg.1.peGain x 0x30 n .zero
  match [ra.2, rg.2.1, rb.2.1].find? fun a => a.status != St.ok with
  | some a => (rb.1, peBad a)
  | none =>
    let xs := (elemsOf ea ra.2.bytes).map (inValue (pAFmt p))
    let ys := normRow layer (u32At p 0x30 != 0) xs (decodeF fFP32 (u32At p 0x34)) rg.2.2 rb.2.2
    let e := encodeRow (outFmt (pOut p)) (pSat p) ys
    (rb.1, peGood 0 [x.write (r * u32At p 0x1C) e.1] e.2.1 e.2.2)

/-- Row `r` of SOFTMAX (R229). -/
def State.peSoftmax (s : State) (x : PeCtx) (r : Nat) : State × PeRes :=
  let p := x.p
  let ea := inBytes (pAFmt p)
  let ra := s.peBytes x 8 (r * u32At p 0x14) (pN p * ea)
  if ra.2.status ≠ St.ok then (ra.1, peBad ra.2)
  else
    let e := encodeRow (outFmt (pOut p)) (pSat p) (softmaxRow ((elemsOf ea ra.2.bytes).map (inValue (pAFmt p))))
    (ra.1, peGood 0 [x.write (r * u32At p 0x1C) e.1] e.2.1 e.2.2)

/-- Row `r` of TOPK (R232): values unchanged, then their indices. -/
def State.peTopk (s : State) (x : PeCtx) (r : Nat) : State × PeRes :=
  let p := x.p
  let ea := inBytes (pAFmt p)
  let ra := s.peBytes x 8 (r * u32At p 0x14) (pN p * ea)
  if ra.2.status ≠ St.ok then (ra.1, peBad ra.2)
  else
    let raw := elemsOf ea ra.2.bytes
    let top := (topK (pTopk p) (raw.map (inValue (pAFmt p)))).map Prod.snd
    let c := r * u32At p 0x1C
    (ra.1, peGood 0 [x.write c (top.flatMap fun i => leBytes ea (raw.getD i 0)),
      x.write (c + topkValues p) (top.flatMap (leBytes 4))] 0 0)

/-! ### GATHER, SCATTER and SCATTER_ADD (R233) -/

/-- The index of entry `r`. -/
def State.peIndex (s : State) (x : PeCtx) (r : Nat) : State × Access × Int :=
  let a := s.peBytes x 0xC (4 * r) 4
  (a.1, a.2, toSigned 32 (u32At a.2.bytes 0))

/-- An index outside the table: counted, or the operation stops (IDX_MODE). -/
def peOutside (x : PeCtx) (ix : Int) (ws : List (Nat × Nat × Nat × List Nat)) : PeRes :=
  if bit (u32At x.p 0x3C) 11 then ⟨⟨0, [], 0, 0, 0⟩, St.stepPeIndex, x.cl, ofSigned 64 ix⟩
  else ⟨⟨0, ws, 0, 0, 1⟩, St.ok, 0, 0⟩

/-- An index names a row of the table. -/
def inTable (x : PeCtx) (ix : Int) : Bool := decide (0 ≤ ix ∧ ix < (pK x.p : Int))

/-- Output row `r` of GATHER. -/
def State.peGather (s : State) (x : PeCtx) (r : Nat) : State × PeRes :=
  let w := u32At x.p 0x14
  let ri := s.peIndex x r
  if ri.2.1.status ≠ St.ok then (ri.1, peBad ri.2.1)
  else if !inTable x ri.2.2 then (ri.1, peOutside x ri.2.2 [x.write (r * u32At x.p 0x1C) (List.replicate w 0)])
  else
    let ra := ri.1.peBytes x 8 (ri.2.2.toNat * w) w
    if ra.2.status ≠ St.ok then (ra.1, peBad ra.2)
    else (ra.1, peGood 0 [x.write (r * u32At x.p 0x1C) ra.2.bytes] 0 0)

/-- Entry `r` of SCATTER. -/
def State.peScatter (s : State) (x : PeCtx) (r : Nat) : State × PeRes :=
  let w := u32At x.p 0x14
  let ri := s.peIndex x r
  if ri.2.1.status ≠ St.ok then (ri.1, peBad ri.2.1)
  else if !inTable x ri.2.2 then (ri.1, peOutside x ri.2.2 [])
  else
    let ra := ri.1.peBytes x 8 (r * w) w
    if ra.2.status ≠ St.ok then (ra.1, peBad ra.2)
    else (ra.1, peGood 0 [x.write (ri.2.2.toNat * w) ra.2.bytes] 0 0)

/-- The table row as the entries before have left it: their last write to it, else memory. -/
def State.peTableRow (s : State) (x : PeCtx) (done : List PeRes) (row w : Nat) : State × Access :=
  let a := (x.write (row * w) []).2.2.1
  match (done.reverse.flatMap fun d => d.blk.writes).find? fun k => k.2.2.1 == a with
  | some k => (s, Access.ok k.2.2.2)
  | none => s.peRead x (u32At x.p 0x10) (row * w : Nat) w

/-- Entry `r` of SCATTER_ADD, after the entries `done`. -/
def State.peScatterAdd (s : State) (x : PeCtx) (done : List PeRes) (r : Nat) : State × PeRes :=
  let p := x.p
  let w := u32At p 0x14
  let ri := s.peIndex x r
  if ri.2.1.status ≠ St.ok then (ri.1, peBad ri.2.1)
  else if !inTable x ri.2.2 then (ri.1, peOutside x ri.2.2 [])
  else
    let ra := ri.1.peBytes x 8 (r * w) w
    let rt := ra.1.peTableRow x done ri.2.2.toNat w
    match [ra.2, rt.2].find? fun a => a.status != St.ok with
    | some a => (rt.1, peBad a)
    | none =>
      let fa := pAFmt p
      let ea := inBytes fa
      let ys := List.zipWith (fun u v => rne ((inValue fa u).add (inValue fa v))) (elemsOf ea rt.2.bytes) (elemsOf ea ra.2.bytes)
      let e := encodeRow (inFmt fa) (pSat p) ys
      (rt.1, peGood 0 [x.write (ri.2.2.toNat * w) e.1] e.2.1 e.2.2)

/-! ### All blocks of an operation -/

/-- Blocks or rows `k, k+1, …` in order, `f` being given those before. -/
def State.peAll (s : State) (f : State → List PeRes → Nat → State × PeRes) (done : List PeRes) (k : Nat) :
    Nat → State × List PeRes
  | 0 => (s, done)
  | n + 1 =>
    let r := f s done k
    r.1.peAll f (done ++ [r.2]) (k + 1) n

/-- What one block or row of a function gives. -/
def State.peOne (s : State) (x : PeCtx) (f : Nat) (tiles : List PeTile) (done : List PeRes) (r : Nat) : State × PeRes :=
  if f = fMatmul ∨ f = fBatched ∨ f = fQk ∨ f = fAv then s.peTile x f (tiles.getD r ⟨0, 0, 0⟩)
  else if f = fGather then s.peGather x r
  else if f = fScatter then s.peScatter x r
  else if f = fScatterAdd then s.peScatterAdd x done r
  else if f = fRope then s.peRope x r
  else if f = fRms then s.peNorm x false r
  else if f = fLayer then s.peNorm x true r
  else if f = fSoftmax then s.peSoftmax x r
  else s.peTopk x r

/-- Number of blocks or rows of a function. -/
def peCount (f : Nat) (p : List Nat) : Nat :=
  if f = fMatmul ∨ f = fBatched ∨ f = fQk ∨ f = fAv then (peTiles f p).length else pM p

/-- The blocks that are finished before an operation stops at a failure: not fixed (R662), so each is kept or not by a free
value; the entries of SCATTER and SCATTER_ADD go in list order. -/
def peKept (f n : Nat) (rs : List PeRes) : List PeBlock :=
  if f = fScatter ∨ f = fScatterAdd then
    let good := rs.takeWhile fun r => r.fail == St.ok
    (good.take (Config.freeNat n % (good.length + 1))).map PeRes.blk
  else ((rs.zipIdx).filter fun r => r.1.fail == St.ok && Config.freeNat (n + r.2) % 2 == 1).map fun r => r.1.blk

/-- A function's blocks, and the failure that stops it. -/
def State.peBlocks (s : State) (x : PeCtx) (f : Nat) : State × List PeBlock × Option PeRes :=
  let r := s.peAll (fun s d k => s.peOne x f (peTiles f x.p) d k) [] 0 (peCount f x.p)
  match r.2.find? fun k => k.fail != St.ok with
  | none => (r.1, r.2.map PeRes.blk, none)
  | some b => (r.1.skip (peCount f x.p), peKept f r.1.free r.2, some b)

end Sys2Proof.Machine
end

