-- ==== Sys2Proof/Machine/Pe.lean ====
section
/-!
DEFINITION. The Precision Engine: the meanings of MATMUL, BATCHED, GATHER, SCATTER, SCATTER_ADD, QK, AV, ROPE, RMS, LAYER,
SOFTMAX, TOPK, of a block step and of an operation's end (R227, R236, R241, R662).
-/

namespace Sys2Proof.Machine

/-- The bytes of a stream operand on arrival: its block's values as BF16 (R219). -/
def State.peStream (s : State) (uid cl c inExp : Nat) : State × List Nat :=
  if caSpace c = 2 then
    let r := s.takeBlock uid (cl * 384 + c % 512) 2
    (r.1, r.2.flatMap fun v => leBytes 2 (encodeF fBF16 false (ofStream inExp v)).1)
  else (s, [])

/-- The operation reads a table in T2: GATHER alone may (R227, R333). -/
def peFromT2 (f : Nat) (p : List Nat) : Bool := f == fGather && caSpace (u32At p 8) == 3

/-- A Precision Engine operation of function `f` begins: it takes its streams and forms its blocks. Behind a closed hem of the HBM domain
its table's reads return, and it fails (R309); at a held crossing it waits (R305). -/
def State.peStart (s : State) (uid st op f : Nat) : State :=
  s.onOp uid st op (0x30 + f / 8) fun t m o =>
    if o.func ≠ f % 8 then s
    else match t.params[u32At o.bytes 0xC]? with
      | none => s
      | some p =>
        if peFromT2 f p ∧ s.heldTo (dieOf m.unit) 8 then s
        else if peFromT2 f p ∧ s.power.closed.contains 8 then (s.failStep uid St.domainDown m.unit 0 o.step).opDone uid st op
        else
        let inExp := fld (u32At p 0x3C) 4 0
        let ra := s.peStream uid m.unit (u32At p 8) inExp
        let rb := ra.1.peStream uid m.unit (u32At p 0xC) inExp
        let r := rb.1.peBlocks ⟨t, m.unit, p, ra.2, rb.2⟩ f
        let z := r.2.2.getD ⟨⟨0, [], 0, 0, 0⟩, St.ok, 0, 0⟩
        let s1 := r.1.spendFree (dieOf m.unit) (opEnergy f (pM p) (pN p))
        ({ s1 with pe := s1.pe ++ [(m.unit, ⟨uid, st, op, r.2.1, 0, z.fail, z.hi, z.info⟩)] } : State).setStage uid st op 2

/-- MATMUL (R224). -/
def execMatmul (uid st op : Nat) (s : State) : Host.Outcome State Fault Refusal := done (s.peStart uid st op fMatmul)
/-- BATCHED (R227). -/
def execBatched (uid st op : Nat) (s : State) : Host.Outcome State Fault Refusal := done (s.peStart uid st op fBatched)
/-- GATHER (R233). -/
def execGather (uid st op : Nat) (s : State) : Host.Outcome State Fault Refusal := done (s.peStart uid st op fGather)
/-- SCATTER (R233). -/
def execScatter (uid st op : Nat) (s : State) : Host.Outcome State Fault Refusal := done (s.peStart uid st op fScatter)
/-- SCATTER_ADD (R233). -/
def execScatterAdd (uid st op : Nat) (s : State) : Host.Outcome State Fault Refusal := done (s.peStart uid st op fScatterAdd)
/-- QK (R228). -/
def execQk (uid st op : Nat) (s : State) : Host.Outcome State Fault Refusal := done (s.peStart uid st op fQk)
/-- AV (R228). -/
def execAv (uid st op : Nat) (s : State) : Host.Outcome State Fault Refusal := done (s.peStart uid st op fAv)
/-- ROPE (R231). -/
def execRope (uid st op : Nat) (s : State) : Host.Outcome State Fault Refusal := done (s.peStart uid st op fRope)
/-- RMS (R230). -/
def execRms (uid st op : Nat) (s : State) : Host.Outcome State Fault Refusal := done (s.peStart uid st op fRms)
/-- LAYER (R230). -/
def execLayer (uid st op : Nat) (s : State) : Host.Outcome State Fault Refusal := done (s.peStart uid st op fLayer)
/-- SOFTMAX (R229). -/
def execSoftmax (uid st op : Nat) (s : State) : Host.Outcome State Fault Refusal := done (s.peStart uid st op fSoftmax)
/-- TOPK (R232). -/
def execTopk (uid st op : Nat) (s : State) : Host.Outcome State Fault Refusal := done (s.peStart uid st op fTopk)

/-! ### Block steps and the end -/

/-- The operation that runs on a cluster's Precision Engine. -/
def State.peRun? (s : State) (cl : Nat) : Option PeRun := (s.pe.find? fun r => r.1 == cl).map Prod.snd

/-- Change it. -/
def State.modPe (s : State) (cl : Nat) (f : PeRun → PeRun) : State :=
  { s with pe := s.pe.map fun r => if r.1 == cl then (cl, f r.2) else r }

/-- Count for a cluster (DIE.PE_COUNT). -/
def State.bumpPe (s : State) (cl n k : Nat) : State := s.bump (R.DIE_PE_COUNT_COUNT (dieOf cl) (cl % 32) n) k

/-- A finished block is written and counted (R226, R233). -/
def State.peWrite (s : State) (cl : Nat) (t : Step) (sched : Nat) (b : PeBlock) : State :=
  if s.mayWrite t then
    let w := s.writeResults t.inst b.writes
    (((w.1.failAccess t.uid w.2 sched).bumpPe cl 1 b.nans).bumpPe cl 2 b.sats).bumpPe cl 3 b.oor
  else s

/-- The operation was overtaken by a reset of its instance: it runs no further block step (R241). -/
def State.peStopped (s : State) (t : Step) : Bool := (s.inst t.inst).gen != t.gen

/-- Format of A of a Precision Engine operation. -/
def Step.peFormat (t : Step) (o : Op) : Nat := ((t.params[u32At o.bytes 0xC]?).map pAFmt).getD 0

/-- PE_BLOCK_STEP: one block step of the first unfinished block; with its last, the block is written (R236). -/
def State.peBlockStep (s : State) (cl : Nat) : State :=
  match s.peRun? cl with
  | none => s
  | some r =>
    match r.blocks, s.op? r.step r.stream r.op with
    | b :: rest, some (t, _, o) =>
      if b.steps = 0 ∨ s.peStopped t ∨ !s.gateTokens cl then s
      else
        let s1 := (s.bumpPe cl 0 1).spend (dieOf cl) (stepEnergy (t.peFormat o))
        if r.ran + 1 < b.steps then s1.modPe cl fun r => { r with ran := r.ran + 1 }
        else (s1.modPe cl fun r => { r with blocks := rest, ran := 0 }).peWrite cl t o.step b
    | _, _ => s

/-- PE_BLOCK_STEP (R236). -/
def execPeBlockStep (cl : Nat) (s : State) : Host.Outcome State Fault Refusal :=
  unit (decide (cl < nClusters)) (s.when s.running fun s => s.peBlockStep cl)

/-- Write a list of blocks. -/
def State.peWriteAll (s : State) (cl : Nat) (t : Step) (sched : Nat) (bs : List PeBlock) : State :=
  bs.foldl (fun a b => a.peWrite cl t sched b) s

/-- Rows of a stopped element-wise function that had finished: not fixed, so each is or is not by a free value (R662). -/
def freeRows (n : Nat) (bs : List PeBlock) : List PeBlock :=
  ((bs.zipIdx).filter fun b => b.1.steps == 0 && Config.freeNat (n + b.2) % 2 == 1).map Prod.fst

/-- PE_OPERATION_COMPLETE: what is finished is written; a failure of the operation fails its step (R233, R241, R662). -/
def State.peDone (s : State) (cl : Nat) : State :=
  match s.peRun? cl with
  | none => s
  | some r =>
    match s.op? r.step r.stream r.op with
    | none => s
    | some (t, _, o) =>
      let s1 : State := { s with pe := s.pe.filter fun x => x.1 != cl }
      if s.peStopped t then
        ((s1.skip r.blocks.length).peWriteAll cl t o.step (freeRows s.free r.blocks)).opDone r.step r.stream r.op
      else if r.blocks.any fun b => b.steps != 0 then s
      else
        let s2 := s1.peWriteAll cl t o.step r.blocks
        (if r.fail = St.ok then s2 else s2.failStep t.uid r.fail r.hi r.info o.step).opDone r.step r.stream r.op

/-- PE_OPERATION_COMPLETE (R662). -/
def execPeOperationComplete (cl : Nat) (s : State) : Host.Outcome State Fault Refusal :=
  unit (decide (cl < nClusters)) (s.when s.running fun s => s.peDone cl)

end Sys2Proof.Machine
end

