-- ==== Sys2Proof/Machine/Prefetch.lean ====
section
/-!
DEFINITION. Prefetch entries and low-rank tiles: the meanings of PREFETCH_ENTRY_ISSUE, PREFETCH_ENTRY_DONE, TILE_EXPAND and
TILE_REREAD (R244 to R259, R280 to R285).
-/

namespace Sys2Proof.Machine

/-! ### Entries -/

/-- Change entry `k` of a step. -/
def State.modEntry (s : State) (uid k : Nat) (f : Entry → Entry) : State :=
  s.modStep uid fun t => { t with entries := t.entries.modify k f }

/-- Entry `k` of a step. -/
def State.entry? (s : State) (uid k : Nat) : Option (Step × Entry) := do
  let t ← s.step? uid
  let e ← t.entries[k]?
  some (t, e)

/-- FIRST_TILE of a tile transfer. -/
def Entry.firstTile (e : Entry) : Nat := u32At e.bytes 0x1C

/-- Scheduled entries of the cluster before entry `k` are done (R282: one at a time, in schedule order). -/
def Step.earlierDone (t : Step) (k : Nat) (e : Entry) : Bool :=
  (t.entries.take k).all fun f => f.inLine || f.cluster != e.cluster || f.st == 2

/-- A cluster-stream MOVE or PREFETCH occupies the cluster DMA engine (R344). -/
def State.moverBusy (s : State) (cl : Nat) : Bool :=
  s.entryBusy cl || s.anyOp (fun n => n.cluster && n.unit == cl) fun p => p.code == 0x20 || p.code == 0x21

/-- The packets of an entry take the Press tokens they need: its cluster's gates pass some, or they are already on their way (R284,
R306). -/
def State.entryTokens (s : State) (t : Step) (k : Nat) (e : Entry) : Bool :=
  s.gateTokens e.cluster || s.power.admitted.contains (t.uid, t.streams.length, k)

/-- A scheduled entry may start (R282, R284, R352). -/
def State.mayIssue (s : State) (t : Step) (k : Nat) (e : Entry) : Bool :=
  s.mayStart 2 && s.alive t && e.st == 0 && !e.inLine && t.earlierDone k e && decide (e.use ≤ t.cur e.cluster + e.lead)
    && t.released k e && !s.moverBusy e.cluster && s.gateTokens e.cluster

/-- PREFETCH_ENTRY_ISSUE: the transfer starts (R282). -/
def State.issueEntry (s : State) (uid k : Nat) : State :=
  match s.entry? uid k with
  | none => s
  | some (t, e) =>
    if s.mayIssue t k e then (s.modEntry uid k fun e => { e with st := 1, tile := e.firstTile, reread := false }).busyNow else s

/-- PREFETCH_ENTRY_ISSUE (R282). -/
def execPrefetchEntryIssue (uid k : Nat) (s : State) : Host.Outcome State Fault Refusal := done (s.issueEntry uid k)

/-- The PREFETCH operation that waits for in-line entry `k`, if any, completes with it (R345). -/
def State.inlineDone (s : State) (t : Step) (k : Nat) : State :=
  (t.streams.zipIdx).foldl (fun s m => (m.1.ops.zipIdx).foldl (fun s o =>
    if o.1.code == 0x21 && o.1.stage == 2 && u32At o.1.bytes 8 == k then s.opDone t.uid m.2 o.2 else s) s) s

/-- The transfer of entry `k` is over: 2 = done, 3 = ended without completing. -/
def State.endEntry (s : State) (t : Step) (k n : Nat) : State :=
  (s.modEntry t.uid k fun e => { e with st := n }).inlineDone t k

/-- The schedule step a failing entry stands for: USE_STEP, or for an in-line entry that of its PREFETCH operation. -/
def Step.entryStep (t : Step) (k : Nat) (e : Entry) : Nat :=
  if e.inLine then
    match (t.streams.flatMap Stream.ops).find? fun o => o.code == 0x21 && o.stage == 2 && u32At o.bytes 8 == k with
    | some o => o.step
    | none => 0
  else e.use

/-- Packets of the entry are on their way: a copy in transfer, or a tile that has started (R259, R289). -/
def Entry.moving (e : Entry) : Bool := e.st == 1 && (!e.isTile || e.reread)

/-- Domain of an entry's source (R308). -/
def Entry.domain (e : Entry) : Nat := spaceDomain (u8At e.bytes 6) 0

/-- The source of a transfer can be read now: no closed hem and no held crossing on the way; host memory needs the link, T3
an idle bank (R285, R305, R308, R410). -/
def State.sourceReady (s : State) (t : Step) (k : Nat) (e : Entry) (off n : Nat) : Bool :=
  if s.blockedFor (t.uid, t.streams.length, k) (dieOf e.cluster) e.domain then false
  else if u8At e.bytes 6 = 4 then s.hostUp
  else if u8At e.bytes 6 = 3 then !s.t3Busy off n
  else true

/-- Read the source of an entry. -/
def State.readSource (s : State) (i : Nat) (e : Entry) (off n : Nat) : State × Access :=
  s.readSpace i (u8At e.bytes 6) (u32At e.bytes 0xC) off n

/-- Memory tier and unit of an entry's destination: T0 of a core or T1 of the cluster. -/
def Entry.place (e : Entry) : Nat × Nat :=
  if bit (u8At e.bytes 7) 7 then (0, e.cluster * 24 + u8At e.bytes 7 % 32) else (1, e.cluster)

/-- Copy `n` blocks of 64 bytes of an entry from block `k` on; the failing access stops it. -/
def State.copyBlocks (s : State) (i : Nat) (e : Entry) (k : Nat) : Nat → State × Access
  | 0 => (s, Access.ok [])
  | n + 1 =>
    let r := (s.spend (dieOf e.cluster) 40).readSource i e (u64At e.bytes 0x10 + 64 * k) 64
    if r.2.status ≠ St.ok then r
    else
      let w := r.1.sramWrite e.place.1 i e.place.2 (u32At e.bytes 0x18 + 64 * k) r.2.bytes
      if w.2.status ≠ St.ok then w else w.1.copyBlocks i e (k + 1) n

/-- The step was overtaken by a reset of its instance. -/
def State.old (s : State) (t : Step) : Bool := (s.inst t.inst).gen != t.gen

/-- A copy overtaken by a reset of its instance stops at a packet boundary: how far it came is a free value (R289). -/
def State.copyStopped (s : State) (t : Step) (e : Entry) : State :=
  let n := s.drawn % (u32At e.bytes 0x1C / 64 + 1)
  if s.mayWrite t then (s.skip 1).under t fun s => (s.copyBlocks t.inst e 0 n).1 else s

/-- PREFETCH_ENTRY_DONE: a copy's data has reached its destination, or all tiles of a tile transfer have (R283). -/
def State.entryDone (s : State) (uid k : Nat) : State :=
  match s.entry? uid k with
  | none => s
  | some (t, e) =>
    if e.st ≠ 1 then s
    else if e.isTile then
      if e.reread then s
      else if s.old t then s.endEntry t k 3
      else if e.tile = e.firstTile + u32At e.bytes 0x20 then s.endEntry t k 2 else s
    else if s.old t then
      if s.heldTo (dieOf e.cluster) e.domain then s
      else (if s.blockedFor (t.uid, t.streams.length, k) (dieOf e.cluster) e.domain then s else s.copyStopped t e).endEntry t k 3
    else if !s.entryTokens t k e || !s.sourceReady t k e (u64At e.bytes 0x10) (u32At e.bytes 0x1C) then s
    else
      let r := s.copyBlocks t.inst e 0 (u32At e.bytes 0x1C / 64)
      if r.2.status = St.ok then (r.1.endEntry t k 2).busyNow
      else (r.1.failAccess uid r.2 (t.entryStep k e)).endEntry t k 3

/-- PREFETCH_ENTRY_DONE (R283). -/
def execPrefetchEntryDone (uid k : Nat) (s : State) : Host.Outcome State Fault Refusal :=
  done (s.when s.running fun s => s.entryDone uid k)

/-! ### Tiles (R244 to R256) -/

/-- The tile passes (R251): `bs` its STRIDE bytes, `i` its index in the tensor. -/
def tileOk (format rank i : Nat) (bs : List Nat) : Bool :=
  u16At bs 0 == 0x4C52 && u8At bs 2 == format && u8At bs 3 == rank && u16At bs 4 == tilePayload format rank
    && u16At bs 6 == i % 65536
    && u32At bs 8 == crc32c (bs.take 8 ++ [0, 0, 0, 0] ++ (bs.drop 12).take (4 + tilePayload format rank))

/-- Factors of a tile: rows of U and columns of V as values (R245). -/
def tileFactors (format rank : Nat) (bs : List Nat) : (Nat → List FV) × (Nat → List FV) :=
  let w := factorBytes format
  let f := if format = 2 then fBF16 else fE4M3
  let at_ := fun i => decodeF f (leNat ((bs.drop (16 + w * i)).take w))
  (fun m => (List.range rank).map fun k => at_ (rank * m + k), fun n => (List.range rank).map fun k => at_ (64 * rank + 64 * k + n))

/-- The dense rows of a tile that lie in the tensor: destination address, bytes; and whether any element is NaN, infinite or
saturated (R248 to R250, R259). -/
def tileRows (e : List Nat) (i : Nat) (bs : List Nat) : List (Nat × List Nat × Bool) :=
  let nbc := tileNbc e
  let br := i / nbc
  let bc := i % nbc
  let fl := u16At e 0xA
  let out := inFmt (fld fl 2 1)
  let eo := tileOutBytes (fld fl 2 1)
  let rows := min 64 (u16At e 0x24 + 1 - 64 * br)
  let cols := min 64 (u16At e 0x26 + 1 - 64 * bc)
  let uv := tileFactors (u8At e 0x2C) (u8At e 0x2D) bs
  let sc := toSigned 8 (u8At bs 0xC)
  (List.range rows).map fun m =>
    let es := (List.range cols).map fun n => tileElem out (bit fl 0) sc (uv.1 m) (uv.2 n)
    let odd := es.any fun x => x.2 || match decodeF out x.1 with
      | .num .. => false
      | _ => true
    (u32At e 0x18 + (64 * (br - u32At e 0x1C / nbc) + m) * u32At e 0x28 + 64 * bc * eo, es.flatMap fun x => leBytes out.bytes x.1, odd)

/-- Count for a cluster (DIE.TILE_COUNT). -/
def State.bumpTile (s : State) (cl n : Nat) : State := s.bump (R.DIE_TILE_COUNT_COUNT (dieOf cl) (cl % 32) n) 1

/-- Write a list of rows to T1; the first failure is kept. -/
def State.writeRows (s : State) (i cl : Nat) : List (Nat × List Nat × Bool) → State × Access
  | [] => (s, Access.ok [])
  | r :: t =>
    let w := s.sramWrite 1 i cl r.1 r.2.1
    let q := w.1.writeRows i cl t
    (q.1, if w.2.status ≠ St.ok then w.2 else q.2)

/-- Energy of an expanded tile in pJ (R253); format 2 is BF16. -/
def tileEnergy (format rank : Nat) : Nat := 400 + 4096 * rank * (if format = 2 then 14 else 8) / 100

/-- A tile that passed is expanded (R250, R253, R259). -/
def State.expand (s : State) (t : Step) (k : Nat) (e : Entry) (bs : List Nat) : State :=
  let rows := tileRows e.bytes e.tile bs
  let w := (s.spend (dieOf e.cluster) (tileEnergy (u8At e.bytes 0x2C) (u8At e.bytes 0x2D))).writeRows t.inst e.cluster rows
  let s1 := w.1.bumpTile e.cluster 0
  let s2 := if rows.any fun r => r.2.2 then s1.bumpTile e.cluster 3 else s1
  if w.2.status ≠ St.ok then (s2.failAccess t.uid w.2 (t.entryStep k e)).endEntry t k 3
  else s2.modEntry t.uid k fun e => { e with tile := e.tile + 1, reread := false }

/-- Offset of the tile that a transfer has reached, from the start of its source (R248). -/
def Entry.tileAt (e : Entry) : Nat := u64At e.bytes 0x10 + e.tile * tileStride (u8At e.bytes 0x2C) (u8At e.bytes 0x2D)

/-- A tile transfer has a tile to read: it runs, and its source can be read. -/
def State.tileThere (s : State) (t : Step) (k : Nat) (e : Entry) : Bool :=
  e.st == 1 && e.isTile && decide (e.tile < e.firstTile + u32At e.bytes 0x20)
    && s.sourceReady t k e e.tileAt (tileStride (u8At e.bytes 0x2C) (u8At e.bytes 0x2D))

/-- The next tile may start: its Press token is granted, and the block starts new work. One that has started runs to its end, its second
read included (R252, R254, R259). -/
def State.tileReady (s : State) (t : Step) (k : Nat) (e : Entry) : Bool :=
  s.tileThere t k e && !e.reread && !s.old t && s.mayStart 2 && s.gateTokens e.cluster

/-- Read the tile reached and hand it on: poison fails the step (R256), else `f` is given the bytes and whether they pass.
`bad` says that this copy arrived damaged. -/
def State.readTile (s : State) (t : Step) (k : Nat) (e : Entry) (bad : Bool) (f : State → List Nat → Bool → State) : State :=
  let r := s.readSource t.inst e e.tileAt (16 + tilePayload (u8At e.bytes 0x2C) (u8At e.bytes 0x2D))
  if r.2.status ≠ St.ok then (r.1.failAccess t.uid r.2 (t.entryStep k e)).endEntry t k 3
  else f r.1 r.2.bytes (!bad && tileOk (u8At e.bytes 0x2C) (u8At e.bytes 0x2D) e.tile r.2.bytes)

/-- TILE_EXPAND: the tile is checked and written, or is to be read again (R251, R254). -/
def State.tileExpand (s : State) (uid k : Nat) (bad : Bool) : State :=
  match s.entry? uid k with
  | none => s
  | some (t, e) =>
    if !s.tileReady t k e then s
    else s.readTile t k e bad fun s bs ok =>
      if ok then s.expand t k e bs else s.modEntry uid k fun e => { e with reread := true }

/-- TILE_EXPAND (R252). -/
def execTileExpand (uid k : Nat) (bad : Bool) (s : State) : Host.Outcome State Fault Refusal :=
  done (s.when s.running fun s => s.tileExpand uid k bad)

/-- The second copy of a tile is written, or the transfer stops and the step fails (R254, R255). -/
def State.secondTile (s : State) (t : Step) (k : Nat) (e : Entry) (bad : Bool) : State :=
  s.readTile t k e bad fun s bs ok =>
    if ok then
      (s.bumpTile e.cluster 1 |>.raiseOwner Rc.tileReread t.inst e.tile (u64At e.bytes 0x10)).expand t k e bs
    else
      ((s.bumpTile e.cluster 2).failStep t.uid St.stepTileDamaged e.tile (u64At e.bytes 0x10) (t.entryStep k e)).endEntry t k 3

/-- TILE_REREAD. Under a reset of the instance the tile runs to its end, and the expansion stops there (R259). -/
def State.tileReread (s : State) (uid k : Nat) (bad : Bool) : State :=
  match s.entry? uid k with
  | none => s
  | some (t, e) =>
    if !(e.reread && s.tileThere t k e) then s
    else if s.old t then (if s.mayWrite t then s.under t fun s => s.secondTile t k e bad else s).endEntry t k 3
    else s.secondTile t k e bad

/-- TILE_REREAD (R254). -/
def execTileReread (uid k : Nat) (bad : Bool) (s : State) : Host.Outcome State Fault Refusal :=
  done (s.when s.running fun s => s.tileReread uid k bad)

end Sys2Proof.Machine
end

