-- ==== Sys2Proof/Machine/Programming.lean ====
section
/-!
DEFINITION. Programming weights: the meanings of PROGRAM_DECKS, RINSE, PROGRAM_TARGET_START, CLAIM, ROW_PASS, COMMIT and of
the supply and fetch events that end a target (R147 to R174, R661).
-/

namespace Sys2Proof.Machine

/-! ### Acceptance (R160 to R164) -/

/-- A target as its list entry gives it. -/
def newTarget (e : TEntry) : Target where
  section_ := e.section_
  engine := e.engine
  deck := e.deck
  guard := e.guard
  stage := 0
  row := 0
  pass := 0
  burst := 0
  open_ := []
  unplaced := []
  status := St.ok
  res1 := 0
  res2 := 0
  head := []
  want := 0
  crc := 0xFFFFFFFF
  codes := []

/-- DEADLINE of a test, in ns (R198). -/
def testTime (b : List Nat) : Nat := (if u32At b 0x38 = 0 then 1000000 else u32At b 0x38) * 1000

/-- The job of a descriptor (R160, R162, R198). -/
def newJob (d : Desc) (targets : List TEntry) : ProgJob where
  desc := d.uid
  inst := d.inst
  kind := dType d.bytes
  flags := u16At d.bytes 0x34
  imgHandle := u32At d.bytes 0x10
  listHandle := if bit (u16At d.bytes 0x34) 1 then 0 else u32At d.bytes 0x14
  imgAddr := u64At d.bytes 0x18
  resultAddr := u64At d.bytes 0x28
  test := u8At d.bytes 0x36
  deadline := d.time + testTime d.bytes
  targets := targets.map newTarget

/-- The descriptor names an image in T2. -/
def usesImage (b : List Nat) : Bool :=
  (dType b == 0x05 || (dType b == 0x0C && bit (u16At b 0x34) 2)) && !bit (u16At b 0x34) 0

/-- The buffers that the descriptor names are live and hold the image header and the target list (R164). -/
def State.listsOk (s : State) (i : Nat) (b : List Nat) : Bool :=
  (!usesImage b || s.inBuffer i 2 (u32At b 0x10) (u64At b 0x18) 64)
    && (bit (u16At b 0x34) 1 || s.inBuffer i 2 (u32At b 0x14) (u64At b 0x20) (8 * u32At b 0x30))

/-- The checks before any target starts: the job, or the status and DETAIL with which the descriptor ends (R161, R164). -/
def State.readTargets (s : State) (d : Desc) : State × (Nat × Nat ⊕ ProgJob) :=
  let b := d.bytes
  if !s.listsOk d.inst b then (s, .inl (St.descRange, 0xFFFFFFFF))
  else
    let r := s.readSpace d.inst (if bit (u16At b 0x34) 1 then 4 else 2) (u32At b 0x14) (u64At b 0x20) (8 * u32At b 0x30)
    if r.2.status ≠ St.ok then (r.1, .inl (St.programFetchFail, 0xFFFFFFFF))
    else
      let es := tEntries r.2.bytes
      match es.findIdx? fun e => !e.ok with
      | some n => (r.1, .inl (St.descInvalid, n))
      | none => (r.1, .inr (newJob d es))

/-- A descriptor with a target list: it ends at once, or its job waits with all its targets. -/
def State.acceptJob (s : State) (d : Desc) : State :=
  match s.readTargets d with
  | (s1, .inl x) => s1.complete d.uid x.1 x.2
  | (s1, .inr j) => { s1 with arr := { s1.arr with jobs := s1.arr.jobs ++ [j] } }

/-- PROGRAM_DECKS (R160, R164). -/
def execProgramDecks (f w : Nat) (s : State) : Host.Outcome State Fault Refusal :=
  unit (ringOk f w) (s.onDesc f w 0x05 fun s d => s.acceptJob d)

/-- RINSE (R162, R164). -/
def execRinse (f w : Nat) (s : State) : Host.Outcome State Fault Refusal :=
  unit (ringOk f w) (s.onDesc f w 0x06 fun s d => s.acceptJob d)

/-! ### Programming slots (R150, R152, R154, R174) -/

/-- Engines with a target between its CHECK and its end, by engine. -/
def State.slotEngines (s : State) : List Nat :=
  s.arr.jobs.flatMap fun j => if j.programs then
    (j.targets.filter fun t => t.stage != 0 && t.stage != 5).map Target.engine else []

/-- RESTORE_DECKS runs, which programs guard engines (R154). -/
def State.restoring (s : State) : Bool := match s.guard.cmd with
  | some c => c.1 == 3
  | none => false

/-- The guard engine that RESTORE_DECKS has claimed. -/
def State.restoreEngine (s : State) : List Nat := match s.guard.cmd, s.guard.claimed with
  | some (3, l), some e => [nEngines + l * 4 + e]
  | _, _ => []

/-- Engines that program: those with a target, those with a darn of their own (R190), and one that RESTORE_DECKS has claimed. -/
def State.progEngines (s : State) : List Nat := (s.slotEngines ++ s.restoreEngine ++ s.arr.darns.map Darn.engine).eraseDups

/-- A further compute-die engine may program (R150); one guard engine at a time (R154). -/
def slotFree (es : List Nat) (e : Nat) : Bool :=
  if isGuard e then !es.any isGuard
  else decide (countIf (fun x => !isGuard x) es < 256)
    && decide (countIf (fun x => !isGuard x && dieOfEngine x == dieOfEngine e) es < 64)

/-- Targets of the jobs before a job that name the same deck and have not ended (R174). -/
def State.deckQueued (s : State) (uid e k : Nat) : Bool :=
  (s.arr.jobs.takeWhile fun j => j.desc != uid).any fun j =>
    j.programs && j.targets.any fun t => t.engine == e && t.deck == k && t.stage != 5

/-- A target could start its CHECK if its instance's turn came (R152, R155, R174). -/
def State.startable (s : State) (j : ProgJob) (pos : Nat) (t : Target) : Bool :=
  j.programs && t.stage == 0 && slotFree (s.progEngines.filter (· != t.engine)) t.engine && !s.slotEngines.contains t.engine
    && !(j.targets.take pos).any (fun u => u.engine == t.engine && u.stage != 5)
    && !s.deckQueued j.desc t.engine t.deck

/-- Instances with a target that waits only for their turn. -/
def State.waitingInsts (s : State) : List Nat :=
  upTo 17 fun i => s.arr.jobs.any fun j => j.inst == i && (j.targets.zipIdx).any fun p => s.startable j p.2 p.1

/-- The instance whose turn it is: the next above the last granted in this round, else the lowest (R152). -/
def State.turn (s : State) : Option Nat :=
  match s.waitingInsts.find? fun i => decide (s.arr.grant ≤ i) with
  | some i => some i
  | none => s.waitingInsts.head?

/-! ### CHECK (R165, R173, R661) -/

/-- The rows of R661 that look at no image: 1 to 5. -/
def State.checkRows (s : State) (j : ProgJob) (pos : Nat) (t : Target) : Nat :=
  let own := s.progOwner j t
  let d := s.deck t.engine t.deck
  if own ≠ St.ok then own
  else if t.guard && bit (s.rd R.GUARD_CTRL_LANE_EN) ((t.engine - nEngines) / 4) then St.guardLaneActive
  else if d.retired then St.deckRetired
  else if (j.targets.take pos).any fun u => u.engine == t.engine && u.deck == t.deck then St.duplicateTarget
  else if 10000 ≤ d.wear ∧ !bit j.flags 2 then St.deckWorn
  else St.ok

/-- Read a section of a job's image: the status of R661 rows 6 to 8, or the section's bytes. -/
def State.readSection (s : State) (j : ProgJob) (sec : Nat) : State × Nat × List Nat :=
  let h := s.readSpace j.inst j.space j.imgHandle j.imgAddr 64
  if h.2.status ≠ St.ok then (h.1, St.programFetchFail, [])
  else if !imageHeaderOk h.2.bytes then (h.1, St.imageFormat, [])
  else
    let a := j.imgAddr + sectionAt h.2.bytes sec
    if !sectionIn h.2.bytes sec || (j.space == 2 && !h.1.inBuffer j.inst 2 j.imgHandle a sectionBytes) then
      (h.1, St.sectionOutOfRange, [])
    else
      let r := h.1.readSpace j.inst j.space j.imgHandle a sectionBytes
      (r.1, if r.2.status ≠ St.ok then St.programFetchFail else St.ok, r.2.bytes)

/-- Rows 9 to 11 of R661 on a section's bytes. -/
def sectionStatus (index : Nat) (c : List Nat) : Nat :=
  if sectionCrc c ≠ u32At c 0x3C ∨ u32At c 4 ≠ index then St.sectionDamaged
  else if !secReservedOk c then St.imageFormat
  else if !bookOk (secBook c) ∨ (secPair c ∧ !pairBookOk (secBook c) (secZero c)) then St.codebookInvalid
  else St.ok

/-- Every row of R661: the status, and the section when one was read. -/
def State.checkTarget (s : State) (j : ProgJob) (pos : Nat) (t : Target) : State × Nat × List Nat :=
  let st := s.checkRows j pos t
  if st ≠ St.ok ∨ j.kind = 6 then (s, st, [])
  else
    let r := s.readSection j t.section_
    if r.2.1 ≠ St.ok then r else (r.1, sectionStatus t.section_ r.2.2, r.2.2)

/-- PROGRAM_TARGET_START: a slot is granted and the target passes CHECK, or ends with its status (R152, R661). -/
def State.targetStart (s : State) (uid pos : Nat) : State :=
  match s.target? uid pos with
  | none => s
  | some (j, t) =>
    if !(s.mayStart 0 && s.startable j pos t && s.turn == some j.inst) then s
    else
      let s1 : State := { s with arr := { s.arr with grant := j.inst + 1 } }
      let r := s1.checkTarget j pos t
      if r.2.1 ≠ St.ok then (r.1.endTarget uid pos r.2.1).gapEvent t.engine
      else (r.1.modTarget uid pos fun t => { t with
        stage := 1, head := r.2.2.take 0x440, want := u32At r.2.2 0x3C }).busyNow

/-- PROGRAM_TARGET_START (R661). -/
def execProgramTargetStart (uid pos : Nat) (s : State) : Host.Outcome State Fault Refusal := done (s.targetStart uid pos)

/-! ### CLAIM (R97, R166, R171, R202) -/

/-- The deck as CLAIM leaves it: PBO clear, the wear counted, and under PROGRAM_DECKS the section's codebook, zero codes and
PAIR (R166). -/
def Deck.claim (d : Deck) (kind : Nat) (guard : Bool) (head : List Nat) : Deck :=
  let d1 := { d with pbo := false, wear := satAdd 32 d.wear 1, calOk := false, owner := if guard then 0 else d.owner }
  if kind = 5 then { d1 with codebook := secBook head, zero := secZero head, pair := secPair head } else d1

/-- The physical columns that a target programs (R148, R166). -/
def Deck.progCols (d : Deck) (kind : Nat) : List Nat :=
  if kind = 6 then List.range 544 else (List.range 528).map d.home

/-- A target that has waited for its CLAIM has lost its engine (R165, R174), or its lane has been enabled (R154). -/
def State.claimRefusal (s : State) (j : ProgJob) (t : Target) : Nat :=
  let own := s.progOwner j t
  if own ≠ St.ok then own
  else if t.guard && bit (s.rd R.GUARD_CTRL_LANE_EN) ((t.engine - nEngines) / 4) then St.guardLaneActive
  else if (s.deck t.engine t.deck).retired then St.deckRetired
  else St.ok

/-- CLAIM: the evaluations and darns it waits for have ended (R166, R202). The journal entry is written (R172), and the deck's DECK_CFG0.PAIR
takes its value, which discards an open window of the deck (R143). -/
def State.claimTarget (s : State) (uid pos : Nat) : State :=
  match s.target? uid pos with
  | none => s
  | some (j, t) =>
    let waits := (s.arr.darns.any fun x => x.engine == t.engine && x.deck != t.deck) || (t.guard && !s.restoreEngine.isEmpty)
    if !(s.mayStart 0 && t.stage == 1 && s.engineFree t.engine && !s.gapBusy t.engine && !waits) then s
    else if s.claimRefusal j t ≠ St.ok then (s.endTarget uid pos (s.claimRefusal j t)).gapEvent t.engine
    else
      let s1 := s.stopDarns fun x => x.engine == t.engine && x.deck == t.deck
      let s2 := s1.dropChecks fun c => c.engine == t.engine && c.deck == t.deck
      let s3 := ((s2.cfgTouched t.engine (0x8E00 + 16 * t.deck)).modDeck t.engine t.deck fun d =>
        d.claim j.kind t.guard t.head).mirrorDeck t.engine t.deck
      (s3.modTarget uid pos fun t => { t with
        stage := 2, row := 0, pass := 0, burst := 0, open_ := (s3.deck t.engine t.deck).progCols j.kind }).busyNow

/-- CLAIM (R166). -/
def execClaim (uid pos : Nat) (s : State) : Host.Outcome State Fault Refusal := done (s.claimTarget uid pos)

/-! ### Row passes (R147 to R149, R151, R155) -/

/-- An evaluation of the engine has started and not begun, or waits only for the engine (R155). -/
def State.evalWaits (s : State) (e : Nat) : Bool :=
  s.steps.any fun t => t.streams.any fun m => (m.ops.zipIdx).any fun p =>
    (p.1.code == 1 || p.1.code == 2) && (opEngines m p.1).contains e
      && (p.1.stage == 1 || (s.opReady t m p.2 p.1 && t.gateOpen m.clusterNo p.1.step && s.streamReady t m p.1))

/-- A burst of the target may run: V_PROG in range; a new burst begins after the evaluations that wait (R151, R155). -/
def State.mayPass (s : State) (t : Target) : Bool :=
  s.running && s.arr.vprogOk && t.stage == 2
    && (t.burst != 0 || (s.engineFree t.engine && !s.evalWaits t.engine))

/-- Bytes of the second read that come before row `r`'s codes (R158, R166): all that precedes CODES comes with row 0. -/
def State.streamRow (s : State) (j : ProgJob) (t : Target) : State × Nat × List Nat :=
  let h := s.readSpace j.inst j.space j.imgHandle j.imgAddr 64
  let a := j.imgAddr + sectionAt h.2.bytes t.section_
  let lo := if t.row = 0 then 0 else 0x3000 + 256 * t.row
  let r := h.1.readSpace j.inst j.space j.imgHandle (a + lo) (0x3000 + 256 * (t.row + 1) - lo)
  (r.1, if h.2.status = St.ok then r.2.status else h.2.status, r.2.bytes)

/-- The bytes of a row's part of the stream as the CRC takes them: SECTION_CRC counts as 0 (R158). -/
def crcPart (row : Nat) (bs : List Nat) : List Nat :=
  if row = 0 then bs.take 0x3C ++ [0, 0, 0, 0] ++ bs.drop 0x40 else bs

/-- Target in nS of the cell of physical column `c` in the row being programmed (R148, R166). -/
def Target.aim (t : Target) (kind : Nat) (d : Deck) (c : Nat) : Nat :=
  if kind = 6 then 12750
  else
    let p := if 528 ≤ c then (d.spares.getD (c - 528) (0, 0)).2 else c
    let g := p / 33
    let z := (secZero t.head).getD g 0
    let code := if p % 33 = 32 then z
      else if secUsed t.head (32 * g + p % 33) then nibbleAt t.codes (32 * g + p % 33) else z
    (secBook t.head).getD code 0

/-- The two reads of the cell of physical column `c` have a mean within ±300 nS of its target (R147); a cell of which none are given has
not verified. -/
def verified (reads : List (Nat × Nat × Nat)) (c target : Nat) : Bool :=
  match reads.find? fun r => r.1 == c with
  | some r => decide (((r.2.1 + r.2.2 : Nat) - 2 * (target : Int)).natAbs ≤ 600)
  | none => false

/-- A pass of the row has run, after which its cells were read: those verified hold their targets (R147). -/
def State.pulse (s : State) (j : ProgJob) (uid pos : Nat) (t : Target) (reads : List (Nat × Nat × Nat)) : State :=
  let d := s.deck t.engine t.deck
  let hit := t.open_.filter fun c => verified reads c (t.aim j.kind d c)
  let s1 := (s.placeRow t.engine t.deck t.row (hit.map fun c => (c, t.aim j.kind d c))).modEngine t.engine fun g =>
    { g with lastDeck := some t.deck }
  let open_ := t.open_.filter fun c => !hit.contains c
  let ended := open_.isEmpty || decide (12 ≤ t.pass + 1)
  let burst := if t.burst + 1 = 16 then 0 else t.burst + 1
  s1.modTarget uid pos fun t =>
    if ended then { t with
      row := t.row + 1, pass := 0, burst := burst, open_ := d.progCols j.kind,
      unplaced := t.unplaced ++ open_.map fun c => t.row * 544 + c }
    else { t with pass := t.pass + 1, burst := burst, open_ := open_ }

/-- Physical columns, of the data columns in use and the reference columns, whose cells are not all placed (R163, R166). -/
def Target.badColumns (t : Target) (kind : Nat) (d : Deck) : List Nat :=
  let bad := (t.unplaced.map fun x => x % 544).eraseDups
  (upTo 528 fun c => bad.contains (d.home c) && (kind == 6 || c % 33 == 32 || secUsed t.head (32 * (c / 33) + c % 33)))

/-- The section that a target's darns and calibration read: none needed under RINSE. -/
def State.jobSection (s : State) (j : ProgJob) (t : Target) : State × Option (List Nat) :=
  if j.kind = 6 then (s, none)
  else
    let r := s.readSection j t.section_
    (r.1, if r.2.1 = St.ok then some r.2.2 else none)

/-- The passes of a target are over: the stream is compared, and the columns that are not placed go to darning (R166). -/
def State.endPasses (s : State) (uid pos : Nat) : State :=
  match s.target? uid pos with
  | none => s
  | some (j, t) =>
    if j.kind = 5 ∧ (t.crc ^^^ 0xFFFFFFFF) ≠ t.want then s.endTarget uid pos St.sectionChanged
    else
      let d := s.deck t.engine t.deck
      let cs := t.badColumns j.kind d
      let s1 := (s.modTarget uid pos fun u => { u with stage := 3, burst := 0 }).modDeck t.engine t.deck fun d => d.failPending cs
      if cs.isEmpty then s1
      else
        let r := s1.jobSection j t
        if j.kind = 5 ∧ r.2.isNone then r.1.endTarget uid pos St.programFetchFail
        else
          let s2 := r.1.darnColumns t.engine t.deck cs (some (uid, pos)) r.2 (j.kind == 6)
          if (s2.deck t.engine t.deck).retired then s2.endTarget uid pos St.programVerifyFail else s2

/-- ROW_PASS: one pass of the current row; `reads` gives, by physical column, the two reads of each cell in nS (R147, R149). -/
def State.rowPass (s : State) (uid pos : Nat) (reads : List (Nat × Nat × Nat)) : State :=
  match s.target? uid pos with
  | none => s
  | some (j, t) =>
    if !s.mayPass t then s
    else
      let r := if t.pass = 0 ∧ j.kind = 5 then s.streamRow j t else (s, St.ok, [])
      if r.2.1 ≠ St.ok then (r.1.endTarget uid pos St.programFetchFail).gapEvent t.engine
      else
        let u := if t.pass = 0 ∧ j.kind = 5 then { t with
          crc := (crcPart t.row r.2.2).foldl crcByte t.crc,
          codes := if t.row = 0 then r.2.2.drop 0x3000 else r.2.2 } else t
        let s1 := (r.1.modTarget uid pos fun _ => u).pulse j uid pos u reads
        match s1.target? uid pos with
        | some (_, v) => if v.row = 512 then (s1.endPasses uid pos).gapEvent t.engine else s1
        | none => s1

/-- ROW_PASS (R147). -/
def execRowPass (uid pos : Nat) (reads : List (Nat × Nat × Nat)) (s : State) : Host.Outcome State Fault Refusal :=
  done (s.rowPass uid pos reads)

/-! ### COMMIT (R163, R166, R169, R179, R192) -/

/-- Every TRIM of a deck is 0x8000 (R166). -/
def State.trimReset (s : State) (e k : Nat) : State :=
  let lo := periKey e (0x4000 + k * 0x400)
  { s with arr := { s.arr with peri := s.arr.peri.filter fun p => !decide (lo ≤ p.1 ∧ p.1 < lo + 0x400) } }

/-- The CALIBRATE stage of a RINSE: TRIM 0x8000, no PAIR, no codebook (R166). -/
def State.rinseCal (s : State) (e k : Nat) : State :=
  (s.trimReset e k).modDeck e k fun d => { d with
    pair := false, codebook := [], tcal := s.degrees e, calOk := true, calDue := false, colDue := [], calMissing := false }

/-- Valid vectors of a section (R176). -/
def secVectors (index : Nat) (sec : List Nat) : List Vec :=
  ((List.range 4).filter fun v => vecOk index (vecBytes sec v)).map fun v => vecOf (vecBytes sec v)

/-- A calibration within a target: the whole deck, or the columns darned since (R166, R192, R193). It uses the pending spares, which the
target has programmed. -/
def State.targetCal (s : State) (e k : Nat) (vs : List Vec) : State × List (Nat × Bool) :=
  let d := s.deck e k
  if vs.isEmpty then (s.calNone e k, [])
  else if d.calOk then (if d.colDue.isEmpty then (s, []) else s.calibrateBy e k vs (some d.colDue) true)
  else s.calibrateBy e k vs none true

/-- Pending marks are cleared: their spares serve (R166). -/
def Deck.clearPending (d : Deck) : Deck :=
  let sp := d.spares.map fun p => if p.1 == 2 then (1, p.2) else p
  { d with spares := sp, badCols := d.badCols.filter fun p => p.2 != 2 }

/-- The deck as COMMIT leaves it (R166, R169, R179). -/
def Deck.commit (d : Deck) (j : ProgJob) (t : Target) (allValid : Bool) (now : Nat) : Deck :=
  let d1 := { d.clearPending with pbo := d.owner == j.inst, lastVisit := now, nextVec := 0 }
  if j.kind = 6 then { d1 with src := none }
  else
    let src := if t.guard then none else some ⟨j.space, j.imgHandle, j.imgAddr, t.section_⟩
    { d1 with src := src, srcLost := d.srcLost && !allValid }

/-- A guard target's section goes to the lane's backup slot (R474). -/
def State.saveSection (s : State) (e : Nat) (sec : List Nat) : State :=
  let l := (e - nEngines) / 4
  let b := Tab.get (fun _ => Backup.init) s.guard.backups l
  let new := { b with sections := b.sections.set ((e - nEngines) % 4) (some sec) }
  { s with guard := { s.guard with backups := Tab.put (fun _ => Backup.init) s.guard.backups l new } }

/-- The target commits and ends with its result (R166). -/
def State.commitNow (s : State) (uid pos : Nat) (j : ProgJob) (t : Target) (sec : Option (List Nat)) : State :=
  let ok := match sec with
    | some c => (List.range 4).all fun v => vecOk t.section_ (vecBytes c v)
    | none => false
  let s1 := (s.modDeck t.engine t.deck fun d => d.commit j t ok s.now).mirrorDeck t.engine t.deck
  let s2 := match sec with
    | some c => if t.guard then s1.saveSection t.engine c else s1
    | none => s1
  (s2.endTarget uid pos St.ok).gapEvent t.engine

/-- COMMIT: after the darns of the target, the CALIBRATE stage runs; columns with lasting faults go back to darning; when none
is left, the target commits (R166). -/
def State.commitTarget (s : State) (uid pos : Nat) : State :=
  match s.target? uid pos with
  | none => s
  | some (j, t) =>
    if !(s.running && t.stage == 3 && s.engineFree t.engine && s.checkToken t.engine && !s.arr.darns.any fun x => x.target == some (uid, pos)) then s
    else if j.kind = 6 then (s.rinseCal t.engine t.deck).commitNow uid pos j t none
    else
      let r := s.jobSection j t
      match r.2 with
      | none => (r.1.endTarget uid pos St.programFetchFail).gapEvent t.engine
      | some sec =>
        let c := r.1.targetCal t.engine t.deck (secVectors t.section_ sec)
        if c.2.isEmpty then c.1.commitNow uid pos j t (some sec)
        else
          let s1 := c.1.modDeck t.engine t.deck fun d => { d with colDue := c.2.map Prod.fst }
          let s2 := s1.localise t.engine t.deck c.2 (some (uid, pos)) (some sec)
          if (s2.deck t.engine t.deck).retired then (s2.endTarget uid pos St.programVerifyFail).gapEvent t.engine else s2

/-- COMMIT (R166). -/
def execCommit (uid pos : Nat) (s : State) : Host.Outcome State Fault Refusal := done (s.commitTarget uid pos)

/-! ### Failures from outside (R151, R164, R174) -/

/-- A target ends after its claim: PBO stays 0, and a darn of its own stops with its spare pending. -/
def State.breakTarget (s : State) (uid pos status : Nat) : State :=
  match s.target? uid pos with
  | none => s
  | some (_, t) => ((s.stopDarns fun x => x.target == some (uid, pos)).endTarget uid pos status).gapEvent t.engine

/-- Every target with passes in progress: descriptor and list position. -/
def State.inProgress (s : State) : List (Nat × Nat) :=
  s.arr.jobs.flatMap fun j => if j.programs then
    ((j.targets.zipIdx).filter fun p => p.1.stage == 2 || p.1.stage == 3).map fun p => (j.desc, p.2) else []

/-- A lane command ends (GUARD.LANE_RESULT). -/
def State.laneCmdEnd (s : State) (status : Nat) : State :=
  ({ ((s.wr R.GUARD_LANE_RESULT_STATUS status).setFlag R.GUARD_LANE_RESULT_BUSY false) with
    guard := { s.guard with cmd := none, claimed := none } } : State)

/-- VPROG_FAULT: V_PROG has left its range, and every target in progress fails, with a RESTORE_DECKS that has claimed a deck (R151). -/
def State.vprogLost (s : State) : State :=
  let s1 : State := { s with arr := { s.arr with vprogOk := false } }
  let s2 := s.inProgress.foldl (fun a p => a.breakTarget p.1 p.2 St.vprogFault) s1
  if s.restoreEngine.isEmpty then s2 else s2.laneCmdEnd St.vprogFault

/-- VPROG_FAULT (R151). -/
def execVprogFault (s : State) : Host.Outcome State Fault Refusal := done (s.when s.hubUp State.vprogLost)

/-- VPROG_IN_RANGE (R151). -/
def execVprogInRange (s : State) : Host.Outcome State Fault Refusal :=
  done { s with arr := { s.arr with vprogOk := true } }

/-- PROGRAM_FETCH_TIMEOUT: host memory has given no data for 10 ms. `pos` names the target whose image is read; a position
past the list stands for the target list itself, before any target has started (R164, R174, R661). -/
def State.fetchTimeout (s : State) (uid pos : Nat) : State :=
  match s.job? uid with
  | none => s
  | some j =>
    if j.targets.length ≤ pos then
      if bit j.flags 1 && j.targets.all fun t => t.stage == 0 then
        (s.dropJob uid).complete uid St.programFetchFail 0xFFFFFFFF
      else s
    else
      match j.targets[pos]? with
      | none => s
      | some t =>
        if j.kind = 5 ∧ bit j.flags 0 ∧ 1 ≤ t.stage ∧ t.stage ≤ 3 then s.breakTarget uid pos St.programFetchFail else s

/-- PROGRAM_FETCH_TIMEOUT (R164). -/
def execProgramFetchTimeout (uid pos : Nat) (s : State) : Host.Outcome State Fault Refusal :=
  done (s.when s.hubUp fun s => s.fetchTimeout uid pos)

end Sys2Proof.Machine
end

