-- ==== Sys2Proof/Machine/Checking.lean ====
section
/-!
DEFINITION. Checking, darning and calibration: the meanings of SELF_TEST, CALIBRATE, LEND and RECLAIM, of their deadlines, and
of background visits, retries, darns, column calibrations and reference recalibration (R93, R175 to R202).
-/

namespace Sys2Proof.Machine

/-! ### Tests and calibrations on request (R198 to R200) -/

/-- Targets refused end with their status; the others start or wait. -/
def State.sortTargets (s : State) (uid : Nat) : State :=
  match s.job? uid with
  | none => s
  | some j =>
    let s1 := (j.targets.zipIdx).foldl (fun (a : State) p =>
      match a.target? uid p.2 with
      | none => a
      | some (j, t) =>
        let st := a.testRefusal j t
        if t.stage = 0 ∧ st ≠ St.ok then a.endTarget uid p.2 st else a) s
    (j.targets.map Target.engine).eraseDups.foldl (fun a e => a.startTest e) s1

/-- SELF_TEST and CALIBRATE: the lists are read, and the targets start in gaps (R198, R199). -/
def State.acceptTests (s : State) (d : Desc) : State := (s.acceptJob d).sortTargets d.uid

/-- SELF_TEST (R198). -/
def execSelfTest (f w : Nat) (s : State) : Host.Outcome State Fault Refusal :=
  unit (ringOk f w) (s.onDesc f w 0x0B fun s d => s.acceptTests d)

/-- CALIBRATE (R198). -/
def execCalibrate (f w : Nat) (s : State) : Host.Outcome State Fault Refusal :=
  unit (ringOk f w) (s.onDesc f w 0x0C fun s d => s.acceptTests d)

/-- TEST_DEADLINE: a target that has not started by its deadline ends with nothing done (R199). -/
def State.testDeadline (s : State) (uid pos : Nat) : State :=
  match s.target? uid pos with
  | none => s
  | some (j, t) =>
    if !j.programs && t.stage == 0 && decide (j.deadline ≤ s.now) then
      (s.health t.engine 8 1).endTarget uid pos St.testDeferred
    else s

/-- TEST_DEADLINE (R199). -/
def execTestDeadline (uid pos : Nat) (s : State) : Host.Outcome State Fault Refusal :=
  done (s.when s.hubUp fun s => s.testDeadline uid pos)

/-! ### Loans (R201) -/

/-- The engines of a mask that a LEND or RECLAIM still has to change. -/
def State.lendLeft (s : State) (lend : Bool) (core mask : Nat) : Nat :=
  (upTo 16 fun n => bit mask n && (lend || (s.engine (core * 16 + n)).lent)).foldl (fun m n => putBit m n true) 0

/-- LEND (`lend`) or RECLAIM of a core's engines, by their owner. -/
def State.lendDesc (s : State) (d : Desc) (lend : Bool) : State :=
  let core := u32At d.bytes 0x10
  let mask := s.lendLeft lend core (u16At d.bytes 0x14)
  if !(s.inst d.inst).cores.contains core then s.complete d.uid St.engineNotOwned 0
  else if mask = 0 then s.complete d.uid St.ok 0
  else
    let j : LendJob := ⟨d.uid, d.inst, lend, core, mask, if lend then u32At d.bytes 0x18 else 0⟩
    (upTo 16 fun n => bit mask n).foldl (fun a n => a.gapTry (core * 16 + n))
      { s with arr := { s.arr with lends := s.arr.lends ++ [j] } }

/-- LEND (R201). -/
def execLend (f w : Nat) (s : State) : Host.Outcome State Fault Refusal :=
  unit (ringOk f w) (s.onDesc f w 0x0D fun s d => s.lendDesc d true)

/-- RECLAIM (R201). -/
def execReclaim (f w : Nat) (s : State) : Host.Outcome State Fault Refusal :=
  unit (ringOk f w) (s.onDesc f w 0x0E fun s d => s.lendDesc d false)

/-- A loan ends (R201). -/
def State.unlend (s : State) (e : Nat) : State := (s.modEngine e fun g => { g with lent := false, lendEnd := 0 }).gapEvent e

/-- LEND_EXPIRY: LEND_MS has run out, and no full calibration runs on the engine (R201). -/
def State.lendExpiry (s : State) (e : Nat) : State :=
  let g := s.engine e
  if g.lent && decide (g.lendEnd ≠ 0 ∧ g.lendEnd ≤ s.now) && !g.testing then s.unlend e else s

/-- LEND_EXPIRY (R201). -/
def execLendExpiry (e : Nat) (s : State) : Host.Outcome State Fault Refusal :=
  unit (decide (e < nEngines)) (s.when s.hubUp fun s => s.lendExpiry e)

/-! ### Background visits (R182 to R186) -/

/-- A retry may run on the engine: its gap began at least 1 ms after the first failure (R187). -/
def State.retryFor (s : State) (e : Nat) : Option Check :=
  s.arr.checks.find? fun c => c.engine == e && !c.running && c.first.isSome && decide (c.notBefore ≤ (s.engine e).gapAt)

/-- Time from which a deck's visits are counted: its last visit, or the last start of its die's checker (R185). -/
def State.visitFrom (s : State) (e k : Nat) : Nat :=
  max (s.deck e k).lastVisit (Tab.get (fun _ => 0) s.arr.visitBase (dieOfEngine e))

/-- The decks of an engine whose visit has fallen due (R185). -/
def State.dueDecks (s : State) (e : Nat) : List Nat :=
  upTo 8 fun k => let d := s.deck e k; d.pbo && !d.retired && decide (s.visitFrom e k + s.checkPeriod e ≤ s.now)

/-- Of several decks that are due, a visit takes the one due the longest, then the lowest number (DESIGN CHOICE: R185 states no order;
log entry 23). -/
def State.dueDeck (s : State) (e : Nat) : Option Nat :=
  (s.dueDecks e).foldl (fun b k => match b with
    | none => some k
    | some x => if s.visitFrom e k < s.visitFrom e x then some k else some x) none

/-- A check evaluation of the background checker may start: 96 µs have passed since the end of the engine's last one (R185), and a token
can be had (R186). -/
def State.checkReady (s : State) (e : Nat) : Bool :=
  s.mayStart 0 && s.gapFree e && !s.calWaits e && (s.testFor e).isNone && s.checkToken e
    && decide ((s.engine e).lastCheck = 0 ∨ (s.engine e).lastCheck + 96000 ≤ s.now)

/-- A visit may start on the engine: nothing earlier in the order of R184 waits (R182, R184 to R186). -/
def State.mayVisit (s : State) (e : Nat) : Bool := s.checkReady e && (s.retryFor e).isNone

/-- Visits of a deck that found no gap within their period are carried to the next (R185). -/
def State.carryVisits (s : State) (e k : Nat) : State :=
  let from_ := s.visitFrom e k
  let n := (s.now - from_) / s.checkPeriod e - 1
  (s.modDeck e k fun d => { d with lastVisit := from_ + n * s.checkPeriod e }).health e 7 n

/-- A background check evaluation starts: the deck is connected, the check buffer takes its input, and the engine holds the vector it uses
(R46, R177). -/
def State.startCheck (s : State) (e k v : Nat) (x : Vec) : State :=
  let oor := s.drawOor e
  let s1 := (s.skip 1).checkStart e k x oor
  let c : Check := ⟨e, k, v, none, s.now, true, some x, oor, none⟩
  { s1 with arr := { s1.arr with checks := s1.arr.checks ++ [c] } }

/-- BACKGROUND_VISIT of the engine's deck that is due: its check evaluation starts, unless its image is not resident; without
a gap the visit is carried (R180, R185). -/
def State.visit (s : State) (e : Nat) : State :=
  match s.dueDeck e with
  | none => s
  | some k =>
    let s1 := s.carryVisits e k
    if !s1.mayVisit e then s1
    else
      let r := s1.vectors e k
      let d := r.1.deck e k
      let s2 := r.1.setDeck e k { d with lastVisit := d.lastVisit + s.checkPeriod e, nextVec := (d.nextVec + 1) % 4 }
      let v := if r.2.length = 1 then 0 else d.nextVec
      match r.2[v]? with
      | none => s2
      | some x => s2.startCheck e k v x

/-- BACKGROUND_VISIT (R185). -/
def execBackgroundVisit (e : Nat) (s : State) : Host.Outcome State Fault Refusal :=
  unit (decide (e < nEngines)) (s.when (s.running && s.flag (R.DIE_CHECK_CTRL_ENABLE (dieOfEngine e))) fun s => s.visit e)

/-! ### Judging a check (R178, R187) -/

/-- A check evaluation has ended with conversions `cs` (R178, R185): it is counted, and its failing columns are given, with the sign of
dev. -/
def State.checkOver (s : State) (e k : Nat) (x : Vec) (cs : List Conv) : State × List (Nat × Bool) :=
  ((s.modEngine e fun g => { g with lastCheck := s.now }).health e 0 1, s.failing e k x cs)

/-- One run of vector `v` of a deck: the columns that fail, with the sign of dev; none when the vector can not be read. -/
def State.runVector (s : State) (e k v : Nat) : State × Option (List (Nat × Bool)) :=
  let r := s.vectors e k
  match r.2[v]? with
  | none => (r.1, none)
  | some x =>
    let u := r.1.checkRun e k x false false
    let o := u.1.checkOver e k x u.2
    (o.1, some o.2)

/-- A failed first run waits for its retry (R187). -/
def State.awaitRetry (s : State) (e k v : Nat) (cols : List Nat) (target : Option (Nat × Nat)) : State :=
  { s with arr := { s.arr with checks := s.arr.checks ++ [⟨e, k, v, some cols, s.now + 1000000, false, none, false, target⟩] } }

/-- The test on an engine is over. -/
def State.stopTesting (s : State) (e : Nat) : State := (s.modEngine e fun g => { g with testing := false }).gapEvent e

/-- The target that tests the engine now. -/
def State.runningTest (s : State) (e : Nat) : Option (ProgJob × Nat × Target) :=
  s.arr.jobs.findSome? fun j =>
    if j.programs then none
    else ((j.targets.zipIdx).find? fun p => p.1.engine == e && p.1.stage == 1).map fun p => (j, p.2, p.1)

/-- Vector number `v` of a SELF_TEST with TEST 0 is run; after the last one the target settles. -/
def State.testVector (s : State) (j : ProgJob) (pos : Nat) (t : Target) : State :=
  let r := s.runVector t.engine t.deck t.pass
  match r.2 with
  | none => (r.1.settleTest j.desc pos).stopTesting t.engine
  | some f =>
    let s1 := if f.isEmpty then r.1
      else r.1.awaitRetry t.engine t.deck t.pass (f.map Prod.fst) (some (j.desc, pos))
    let s2 := s1.modTarget j.desc pos fun t => { t with pass := t.pass + 1 }
    if t.pass = 3 then (s2.settleTest j.desc pos).stopTesting t.engine else s2

/-- The converter test: which converters fail is free; each has eight columns (R80, R199). Those that fail have a lasting fault, which counts
toward row 1 of R187, the one row that needs no deck. -/
def State.converterTest (s : State) (j : ProgJob) (pos : Nat) (t : Target) : State :=
  let bad := upTo 64 fun c => bit s.drawn c
  let s1 := (s.skip 1).modTarget j.desc pos fun t => { t with res1 := 8 * bad.length }
  let r := s1.noteConverters t.engine wholeEngine bad
  let s2 := r.1.health t.engine 2 (b2n (!bad.isEmpty))
  ((if r.2 then s2.retire t.engine wholeEngine else s2).settleTest j.desc pos).stopTesting t.engine

/-- CHECK_EVALUATION_DONE: the check evaluation that runs, or that a requested test runs, is judged (R178). -/
def State.checkDone (s : State) (e : Nat) : State :=
  match s.arr.checks.find? fun c => c.engine == e && c.running with
  | some c =>
    let s1 : State := { s with arr := { s.arr with checks := s.arr.checks.filter fun x => !(x.engine == e && x.running) } }
    match c.data with
    | none => s1.gapEvent e
    | some x =>
      let u := s1.checkConvert e c.deck x c.oor false false
      let r := u.1.checkOver e c.deck x u.2
      (if r.2.isEmpty then r.1 else r.1.awaitRetry e c.deck c.vec (r.2.map Prod.fst) none).gapEvent e
  | none =>
    match s.runningTest e with
    | some (j, pos, t) =>
      if !s.checkToken e then s
      else if j.kind = 0x0B ∧ j.test = 0 then s.testVector j pos t
      else if j.kind = 0x0B ∧ j.test = 1 then s.converterTest j pos t
      else s
    | none => s

/-- CHECK_EVALUATION_DONE (R178). -/
def execCheckEvaluationDone (e : Nat) (s : State) : Host.Outcome State Fault Refusal :=
  unit (decide (e < nEngines)) (s.when s.running fun s => (s.checkDone e).aperIn e)

/-- Physical columns of a deck that are being darned or are pending. -/
def State.darnsOf (s : State) (e k : Nat) : List Nat :=
  ((s.deck e k).spares.filter fun p => p.1 == 4 || p.1 == 2).map Prod.snd

/-- Columns that a target has found with lasting faults, and columns darned or set pending for it, by deck × 544 + column, are added to its
lists, each once; the counts are its result (R198). -/
def State.addFindings (s : State) (target : Option (Nat × Nat)) (faults darned : List Nat) : State :=
  match target with
  | none => s
  | some p => s.modTarget p.1 p.2 fun t =>
    let a := (t.open_ ++ faults).eraseDups
    let b := (t.unplaced ++ darned).eraseDups
    { t with open_ := a, unplaced := b, res1 := a.length, res2 := b.length }

/-- Lasting faults are localised and acted on, and counted for the target that found them. -/
def State.actOn (s : State) (e k : Nat) (f : List (Nat × Bool)) (target : Option (Nat × Nat)) : State :=
  let s1 := s.localise e k f none none
  s1.addFindings target (f.map fun p => k * 544 + p.1)
    (((s1.darnsOf e k).filter fun c => !(s.darnsOf e k).contains c).map fun c => k * 544 + c)

/-- A retry's verdict: the columns that failed both times are lasting, the others transient (R187). -/
def State.judgeRetry (s : State) (e k : Nat) (first : List Nat) (f : List (Nat × Bool)) (target : Option (Nat × Nat)) : State :=
  let both := f.filter fun p => first.contains p.1
  if f.isEmpty then s.health e 1 1
  else
    let once := countIf (fun p => !first.contains p.1) f + countIf (fun j => !f.any fun p => p.1 == j) first
    (s.health e 1 once).actOn e k both target

/-- CHECK_RETRY: a failed check is repeated in a gap (R184, R187). -/
def State.checkRetry (s : State) (e : Nat) : State :=
  match s.retryFor e with
  | none => s
  | some c =>
    if (s.deck e c.deck).retired then s.dropRetired e
    else if !s.checkReady e then s
    else
      let s1 : State := { s with arr := { s.arr with checks := s.arr.checks.erase c } }
      let r := s1.runVector e c.deck c.vec
      let s2 := match r.2 with
        | none => r.1
        | some f => r.1.judgeRetry e c.deck (c.first.getD []) f c.target
      let s3 := match c.target with
        | some p => (match s2.target? p.1 p.2 with
          | some (_, t) => if t.stage == 2 then s2.settleTest p.1 p.2 else s2
          | none => s2)
        | none => s2
      s3.gapEvent e

/-- CHECK_RETRY (R187). -/
def execCheckRetry (e : Nat) (s : State) : Host.Outcome State Fault Refusal :=
  unit (decide (e < nEngines)) (s.when s.running fun s => s.checkRetry e)

/-! ### Darns (R189, R190) -/

/-- A darn has its programming slot: the slots that targets and earlier darns leave (R150, R190). -/
def State.darnRuns (s : State) (x : Darn) : Bool :=
  let before := (s.slotEngines ++ s.restoreEngine ++ (s.arr.darns.takeWhile fun y => y != x).map Darn.engine).eraseDups
  slotFree (before.filter (· != x.engine)) x.engine

/-- The section that a darn reads again: that of its target, else the deck's resident image. -/
def State.darnSection (s : State) (x : Darn) : State × Option (List Nat) × Bool :=
  match x.target with
  | none => (s, none, false)
  | some p => match s.target? p.1 p.2 with
    | none => (s, none, false)
    | some (j, t) => let r := s.jobSection j t; (r.1, r.2, j.kind == 6)

/-- A spare that has served a column until now gives way to a new one. -/
def Deck.failActive (d : Deck) (c : Nat) : Deck :=
  { d with spares := d.spares.map fun p => if p.1 == 1 && p.2 == c then (3, c) else p }

/-- The spare is connected: it is active and the column darned, and the column's calibration is due (R189 steps 5 and 6). -/
def State.darned (s : State) (x : Darn) : State :=
  let due := if x.col % 33 = 32 then [] else [32 * (x.col / 33) + x.col % 33]
  let s1 := (s.modDeck x.engine x.deck fun d =>
    { ((d.failActive x.col).setSpare x.spare 1 x.col).markCol x.col 0 with
      colDue := d.colDue.filter (fun j => !due.contains j) ++ due }).mirrorDeck x.engine x.deck
  (s1.health x.engine 3 1).raise Rc.columnDarned corrected (s.deck x.engine x.deck).owner (engineLoc x.engine x.deck)
    (x.col + x.spare * 65536)

/-- The spare has failed and another one is tried (R189 step 4). -/
def State.redarn (s : State) (x : Darn) : State :=
  let r := s.darnSection x
  let s1 := r.1.modDeck x.engine x.deck fun d => d.setSpare x.spare 3 x.col
  let s2 := s1.darnColumn x.engine x.deck x.col x.target r.2.1 r.2.2
  match x.target with
  | some p => if (s2.deck x.engine x.deck).retired then s2.breakTarget p.1 p.2 St.programVerifyFail else s2
  | none => s2

/-- DARN_COMPLETE of the engine's first darn: `ok` says that every cell of the spare is placed (R189). -/
def State.darnComplete (s : State) (e : Nat) (ok : Bool) : State :=
  match s.arr.darns.find? fun x => x.engine == e with
  | none => s
  | some x =>
    if !(s.arr.vprogOk && s.darnRuns x && s.engineFree e) then s
    else
      let s0 : State := { s with arr := { s.arr with darns := s.arr.darns.erase x } }
      let s1 := s0.modEngine e fun g => { g with lastDeck := some x.deck }
      if ok then s1.darned x else s1.redarn x

/-- DARN_COMPLETE (R189). -/
def execDarnComplete (e : Nat) (ok : Bool) (s : State) : Host.Outcome State Fault Refusal :=
  unit (decide (e < nEngines + 64)) (s.when s.running fun s => s.darnComplete e ok)

/-! ### Column calibrations (R192 to R194, R198, R200) -/

/-- A due calibration of one deck runs (R193). -/
def State.dueCal (s : State) (e k : Nat) : State :=
  let d := s.deck e k
  let r := s.calibrate e k (if d.calDue then none else some d.colDue)
  r.1.actOn e k r.2 none

/-- Pending darns of a deck whose image has become resident go on at step 3 (R190). -/
def State.resumeDarns (s : State) (e k : Nat) (sec : List Nat) : State :=
  ((s.deck e k).spares.zipIdx).foldl (fun (a : State) p =>
    if p.1.1 = 2 then
      let b := ((a.modDeck e k fun d => (d.setSpare p.2 4 p.1.2).markCol p.1.2 1).mirrorDeck e k).placeSpare e k (some sec) p.2 p.1.2
      { b with arr := { b.arr with darns := b.arr.darns ++ [⟨e, k, p.2, p.1.2, none⟩] } }
    else a) s

/-- SET_SOURCE of a CALIBRATE target (R179, R180, R198). -/
def State.setSource (s : State) (j : ProgJob) (t : Target) : State :=
  let s1 := s.modDeck t.engine t.deck fun d => { d with src := some ⟨j.space, j.imgHandle, j.imgAddr, t.section_⟩ }
  let r := s1.residentSection t.engine t.deck
  match r.2 with
  | none => r.1
  | some sec => (r.1.modDeck t.engine t.deck fun d => { d with srcLost := false }).resumeDarns t.engine t.deck sec

/-- A CALIBRATE target runs (R193, R198). -/
def State.calTarget (s : State) (j : ProgJob) (pos : Nat) (t : Target) : State :=
  let s1 := if bit j.flags 2 then s.setSource j t else s
  let r := s1.calibrate t.engine t.deck none
  ((r.1.actOn t.engine t.deck r.2 (some (j.desc, pos))).settleTest j.desc pos).stopTesting t.engine

/-- A full calibration trims the engine's converters and its integrator gain ratio, and its ring-oscillator reference, to a free value
(R200). -/
def State.fullTrim (s : State) (e : Nat) : State :=
  let n := Tab.get (fun _ => 0) s.arr.engTrim e
  let s1 : State := { s with arr := { s.arr with engTrim := Tab.put (fun _ => 0) s.arr.engTrim e (n + 1) } }
  (s1.setRosc e ⟨s.now, s.drawn, none⟩).skip 1

/-- A full engine calibration: trims, then every deck with a resident image (R200). -/
def State.fullCal (s : State) (j : ProgJob) (pos : Nat) (t : Target) : State :=
  let s1 := (List.range 8).foldl (fun (a : State) k =>
    let v := a.vectors t.engine k
    if (a.deck t.engine k).retired || (a.deck t.engine k).rinsed || v.2.isEmpty then v.1
    else
      let r := v.1.calibrateBy t.engine k v.2 none false
      r.1.actOn t.engine k r.2 (some (j.desc, pos))) (s.fullTrim t.engine)
  (s1.settleTest j.desc pos).stopTesting t.engine

/-- COLUMN_CALIBRATION of an engine: a calibration that is due runs in a gap, or the one that a test target is at (R184,
R192). -/
def State.columnCal (s : State) (e : Nat) : State :=
  match s.runningTest e with
  | some (j, pos, t) =>
    if !s.checkToken e then s
    else if j.kind = 0x0C then s.calTarget j pos t
    else if j.test = 2 then s.fullCal j pos t
    else s
  | none =>
    match s.calNext e with
    | none => s
    | some k => if s.mayStart 0 && s.gapFree e && s.checkToken e then (s.dueCal e k).gapEvent e else s

/-- COLUMN_CALIBRATION (R192). -/
def execColumnCalibration (e : Nat) (s : State) : Host.Outcome State Fault Refusal :=
  unit (decide (e < nEngines)) (s.when s.running fun s => s.columnCal e)

/-! ### Ring-oscillator references (R93) -/

/-- REFERENCE_RECALIBRATION of the reference of engine `e`: 1 ms since its last one, in RUN. The new trim is a free value; while an evaluation
of the engine runs, it waits for its end. -/
def State.refTrim (s : State) (e : Nat) : State :=
  let x := s.rosc e
  if s.now < x.at_ + 1000000 then s
  else
    let v : Rosc := if s.engineFree e then ⟨s.now, s.drawn, none⟩ else ⟨s.now, x.trim, some s.drawn⟩
    (s.setRosc e v).skip 1

/-- REFERENCE_RECALIBRATION (R93). -/
def execReferenceRecalibration (e : Nat) (s : State) : Host.Outcome State Fault Refusal :=
  unit (decide (e < nEngines + 64)) (s.when s.running fun s => s.refTrim e)

end Sys2Proof.Machine
end

