-- ==== Sys2Proof/Machine/Fabric.lean ====
section
/-!
DEFINITION. The fabric and the temperature sensors: the meanings of PACKET_AT_HEM, DOMAIN_DOWN, the skew monitors and
SENSOR_SAMPLE (R193, R304 to R309, R655).
-/

namespace Sys2Proof.Machine

/-- No crossing is isolated: the dies are at their operating set points (R304). -/
def State.monitored (s : State) : Bool := s.hubUp && (s.power.st == .run || s.power.st == .idle) && !s.power.committed

/-! ### Held writes (R305, R310, R311) -/

/-- A held write is delivered. -/
def State.deliverPosted (s : State) (p : Posted) : State :=
  if (s.inst p.fn).st = .parked then s
  else match p.target with
    | none => s.bell p.fn p.off p.value
    | some l => s.aliasAct p.fn ((p.off - 0x2000) / 0x40) (p.off / 4 % 2) p.width p.value (decide (8 ≤ p.off % 0x40)) l p.compat

/-- The writes whose way is open are delivered in arrival order; the others stay. -/
def State.flushPosted (s : State) : State :=
  let stays := fun (p : Posted) => s.power.closed.contains p.dom || (p.target.isSome && s.heldTo hubSide p.dom)
  let rest : State := { s with pegs := { s.pegs with posted := s.pegs.posted.filter stays } }
  (s.pegs.posted.filter fun p => !stays p).foldl (fun a p => a.deliverPosted p) rest

/-! ### Transfers and hems (R308, R309) -/

/-- A transfer that sends packets: a hub copy, an operation, or a prefetch entry. -/
inductive Transit where
  | copy (j : DmaJob)
  | oper (t : Step) (m : Stream) (o : Op)
  | entry (t : Step) (k : Nat) (e : Entry)
  deriving DecidableEq, Repr

/-- The transfer that `uid st op` names, if it has packets to send: the copy of descriptor `uid`; operation `op` of stream `st`; or, with `st` past the
streams of the step, its prefetch entry `op`. -/
def State.transit (s : State) (uid st op : Nat) : Option Transit :=
  match s.rings.dma.find? fun j => j.desc == uid with
  | some j => some (.copy j)
  | none =>
    match s.step? uid with
    | none => none
    | some t =>
      if t.streams.length ≤ st then (t.entries[op]?).bind fun e =>
        if e.moving || (e.st == 1 && s.mayStart 2) then some (.entry t op e) else none
      else (s.op? uid st op).bind fun x =>
        if x.2.2.stage == 1 || (x.2.2.stage == 2 && x.2.2.code == 0x20) then some (.oper x.1 x.2.1 x.2.2) else none

/-- Domains an operation's packets go to: those of a MOVE, or of a peg at its home. -/
def Step.opDomains (t : Step) (o : Op) : List Nat :=
  if o.code = 0x20 then t.moveDomains o
  else if 0x40 ≤ o.code ∧ o.code ≤ 0x43 ∧ (t.planLoc (t.planEntry o)).tier ≤ 2 then [pegDomain (t.planLoc (t.planEntry o))]
  else []

/-- The domain that sends the packets of a transfer, and the domains they go to. -/
def Transit.ends : Transit → Nat × List Nat
  | .copy j => (hubSide, j.domains)
  | .oper t m o => (dieOf m.clusterNo, t.opDomains o)
  | .entry _ _ e => (dieOf e.cluster, [e.domain])

/-- The transfer meets the closed hem of domain `d` (R308). -/
def State.meetsHem (s : State) (x : Transit) (d : Nat) : Bool :=
  s.power.closed.contains d && x.ends.2.contains d && x.ends.1 != d

/-- PACKET_AT_HEM: a packet that arrives at a closed hem is returned and counted; an open hem admits it (R308). -/
def State.atHem (s : State) (d uid st op : Nat) : State :=
  match s.transit uid st op with
  | none => s
  | some x => if s.meetsHem x d && decide (d < 8) then s.bump (R.DIE_HEM_STATUS_RETURNED d) 1 else s

/-- PACKET_AT_HEM (R308). -/
def execPacketAtHem (dom uid st op : Nat) (s : State) : Host.Outcome State Fault Refusal :=
  unit (decide (dom ≤ 9)) (s.when s.hubUp fun s => s.atHem dom uid st op)

/-- Packets of a transfer may have landed: it was under way when the hems closed, and no crossing is isolated yet (R304, R308). -/
def State.landed (s : State) (key : Nat × Nat × Nat) : Bool := s.power.admitted.contains key && s.monitored

/-- A hub copy fails: the writes already issued are complete, a free number of blocks from what was moved on; its peg is not raised
(R309). -/
def State.copyDown (s : State) (j : DmaJob) : State :=
  match s.desc? j.desc with
  | none => s
  | some d =>
    let s1 : State := { s.skip 1 with rings := { s.rings with dma := s.rings.dma.filter fun k => k.desc != j.desc } }
    let left := (j.len - j.moved) / 64
    let r := s1.dmaBlocks d.inst j (j.moved / 64) (if s.landed (j.desc, 0, 0) then s.drawn % (left + 1) else 0)
    r.1.complete j.desc (if r.2.2 = St.ok then St.domainDown else r.2.2) r.2.1

/-- An operation fails; what a MOVE had written stays, a free number of 64-byte blocks (R309). -/
def State.operDown (s : State) (t : Step) (m : Stream) (o : Op) (st op : Nat) : State :=
  let s1 := if s.landed (t.uid, st, op) then s.moveStopped t o else s
  (s1.failStep t.uid St.domainDown m.clusterNo 0 o.step).opDone t.uid st op

/-- A prefetch entry fails; what a copy had written stays, a free number of blocks (R309). -/
def State.entryDown (s : State) (t : Step) (k : Nat) (e : Entry) : State :=
  let s1 := if e.isTile || !s.landed (t.uid, t.streams.length, k) then s else s.copyStopped t e
  (s1.failStep t.uid St.domainDown e.cluster 0 (t.entryStep k e)).endEntry t k 3

/-- DOMAIN_DOWN: the source of a returned packet stops its transfer, which fails (R309). -/
def State.domainDown (s : State) (uid st op : Nat) : State :=
  match s.transit uid st op with
  | none => s
  | some x =>
    if !x.ends.2.any fun d => s.meetsHem x d then s
    else match x with
      | .copy j => s.copyDown j
      | .oper t m o => s.operDown t m o st op
      | .entry t k e => s.entryDown t k e

/-- DOMAIN_DOWN (R309). -/
def execDomainDown (uid st op : Nat) (s : State) : Host.Outcome State Fault Refusal :=
  done (s.when s.hubUp fun s => s.domainDown uid st op)

/-! ### Skew monitors (R304, R305) -/

/-- Crossing `x` of die `d` exists: 0 = hub bridge, 1 = north, 2 = south (R291, R295); of `d` = 8, the hub: 0 = the guard's configuration
and register port, 1 = the serdes' digital interface (R302). Its number is `d` × 4 + `x`. -/
def crossingOk (d x : Nat) : Bool :=
  (decide (d < 8) && (x == 0 || (x == 1 && d % 4 != 0) || (x == 2 && d % 4 != 3))) || (d == 8 && decide (x < 2))

/-- SKEW_MONITOR_TRIP: the crossing is held; the first trip in 10 ms writes a record (R305). -/
def State.skewTrip (s : State) (d x : Nat) : State :=
  let k := d * 4 + x
  if s.power.held.contains k then s
  else
    let s1 : State := { s with power := { s.power with held := s.power.held ++ [k] } }
    let s2 := if d < 8 then
        (s1.bump (R.DIE_XING_TRIP_COUNT d) 1).wr (R.DIE_XING_TRIP_HELD d) (putBit (s.rd (R.DIE_XING_TRIP_HELD d)) x true)
      else s1
    let last := Tab.get (fun _ => 0) s.power.skewLast k
    if last = 0 ∨ last + 10000000 ≤ s.now + 1 then
      ({ s2 with power := { s2.power with skewLast := Tab.put (fun _ => 0) s2.power.skewLast k (s.now + 1) } } : State).raise
        Rc.voltSkew deviceClass noOwner d x
    else s2

/-- SKEW_MONITOR_TRIP (R305). -/
def execSkewMonitorTrip (d x : Nat) (s : State) : Host.Outcome State Fault Refusal :=
  unit (crossingOk d x) (s.when s.monitored fun s => s.skewTrip d x)

/-- SKEW_MONITOR_RELEASE: the crossing passes tokens again, and what waited for it goes on (R305). -/
def State.skewRelease (s : State) (d x : Nat) : State :=
  let s1 : State := { s with power := { s.power with held := s.power.held.filter fun k => k != d * 4 + x } }
  let s2 := if d < 8 then s1.wr (R.DIE_XING_TRIP_HELD d) (putBit (s.rd (R.DIE_XING_TRIP_HELD d)) x false)
    else (List.range 4).foldl State.pumpPort s1
  s2.flushPosted

/-! ### Sensors (R193, R306, R655) -/

/-- Sensors of a domain (R655). -/
def sensorCount (d : Nat) : Nat := if d < 8 then 40 else if d = 8 then 12 else if d = 9 then 1 else 0

/-- The domain of a sensor is up, so that it is sampled (THERM.SENSOR.VALID). -/
def State.sensed (s : State) (d : Nat) : Bool :=
  if d < 8 then s.power.st == .run || s.power.st == .idle
  else if d = 9 then s.guard.up else true

/-- A reading in 0.25 °C units above −64 °C, as the signed 16-bit field holds it. -/
def tempField (t : Nat) : Nat := ofSigned 16 ((t : Int) - 256)

/-- The signed reading of a 16-bit field. -/
def tempOf (v : Nat) : Int := toSigned 16 v

/-- The last reading of a sensor, in 0.25 °C. -/
def State.sensor (s : State) (d i : Nat) : Int := tempOf (s.rd (R.THERM_SENSOR_TEMP d i))

/-- Decks of a core whose temperature has left their TCAL by more than 8 °C are due for calibration (R193). -/
def State.calDues (s : State) (core t : Nat) : State :=
  let hit := fun (k : Nat) (d : Deck) => decide (k < nEngines * 8) && coreOf (k / 8) == core && d.calOk && !d.retired
    && decide (32 < ((t : Int) - 256 - 4 * d.tcal).natAbs)
  let decks := s.arr.decks.map fun p => if hit p.1 p.2 then (p.1, { p.2 with calDue := true }) else p
  { s with arr := { s.arr with decks := decks } }

/-- Guard engines whose TCAL the guard domain's temperature has left by more than 8 °C need calibration (R473). -/
def State.guardDues (s : State) : State :=
  let hit := fun (k : Nat) (d : Deck) => decide (nEngines * 8 ≤ k) && d.calOk && !d.retired
    && decide (8 < (s.guard.temp - d.tcal).natAbs)
  { s with arr := { s.arr with decks := s.arr.decks.map fun p => if hit p.1 p.2 then (p.1, { p.2 with calDue := true }) else p } }

/-- One reading: domain 0–9 and its sensor, or 10 and a flat core for the core's own sensor (R114). -/
def State.takeReading (s : State) (r : Nat × Nat × Nat) : State :=
  if r.1 = 10 then
    if r.2.1 < nCores ∧ s.sensed (dieOf (clusterOf r.2.1)) then
      let c := Tab.put (fun _ => 0) s.arr.coreTemp r.2.1 r.2.2
      ({ s with arr := { s.arr with coreTemp := c } } : State).calDues r.2.1 r.2.2
    else s
  else if r.2.1 < sensorCount r.1 ∧ s.sensed r.1 then
    let s1 := s.wr (R.THERM_SENSOR_TEMP r.1 r.2.1) (tempField r.2.2)
    if r.1 = 9 then ({ s1 with guard := { s1.guard with temp := ((r.2.2 / 4 : Nat) : Int) - 64 } } : State).guardDues else s1
  else s

/-- Hottest sensor of a domain, and the coolest, in 0.25 °C. -/
def State.hottest (s : State) (d : Nat) : Int :=
  (List.range (sensorCount d)).foldl (fun m i => max m (s.sensor d i)) (s.sensor d 0)
/-- See `hottest`. -/
def State.coolest (s : State) (d : Nat) : Int :=
  (List.range (sensorCount d)).foldl (fun m i => min m (s.sensor d i)) (s.sensor d 0)

/-- The margin of R656, in 0.25 °C units (THERM.CTRL.MARGIN). -/
def State.marginT (s : State) : Int := 4 * ((max 2 (min 20 (s.rd R.THERM_CTRL_MARGIN)) : Nat) : Int)

/-- The junction limit, in 0.25 °C units (THERM.LIMITS.JMAX). -/
def State.jmax (s : State) : Int := (s.rd R.THERM_LIMITS_JMAX : Nat)

/-- The cap of R656 for a temperature. -/
def State.junctionCap (s : State) (t : Int) : Nat :=
  let j := s.jmax
  let m := s.marginT
  if j ≤ t then 1 else if t < j - m then 64 else max 1 ((64 * (j - t)) / m).toNat

/-- The junction cap of a die: the lower of its own and the hub's (R656). -/
def State.dieCap (s : State) (d : Nat) : Nat := min (s.junctionCap (s.hottest d)) (s.junctionCap (s.hottest 8))

/-- NOW and MAX of a domain. -/
def State.seeDomain (s : State) (d : Nat) : State :=
  let t := s.hottest d
  let s1 := s.wr (R.THERM_DOMAIN_NOW d) (ofSigned 16 t)
  if tempOf (s.rd (R.THERM_DOMAIN_MAX d)) < t then s1.wr (R.THERM_DOMAIN_MAX d) (ofSigned 16 t) else s1

/-- THERM.STATUS, and its vector when a HOT bit sets. -/
def State.seeHot (s : State) : State :=
  let hot := (upTo 10 fun d => decide (s.jmax - s.marginT ≤ s.hottest d)).foldl (fun m d => putBit m d true) 0
  let old := s.rd R.THERM_STATUS_HOT
  let s1 := (s.wr R.THERM_STATUS_HOT hot).setFlag R.THERM_STATUS_THROTTLE ((List.range 8).any fun d => decide (s.dieCap d < 64))
  s1.irq (s.flag R.THERM_CTRL_IRQ_EN && decide (hot &&& (0x3FF - old) ≠ 0)) (s.rd R.THERM_CTRL_VECTOR)

/-! #### Spread conditions (R306)

A condition in force is numbered: die `d` above 16 °C = d, above 20 °C = 32 + d; between dies above 25 °C = 8 + 64 × the hottest
die, above 30 °C = 40 + 64 × the hottest die. -/

/-- Spread within a die, in 0.25 °C units. -/
def State.dieSpread (s : State) (d : Nat) : Nat := (s.hottest d - s.coolest d).toNat

/-- The hottest die. -/
def State.hottestDie (s : State) : Nat :=
  (List.range 8).foldl (fun m d => if s.hottest m < s.hottest d then d else m) 0

/-- Spread between dies. -/
def State.packSpread (s : State) : Nat :=
  (s.hottest s.hottestDie - (List.range 8).foldl (fun m d => min m (s.hottest d)) (s.hottest 0)).toNat

/-- A condition of base number `n` begins above `hi` and ends at or below `lo`; one that begins is named `new`. -/
def stepCond (old : List Nat) (n hi lo sp new : Nat) : List Nat :=
  match old.find? fun c => c % 64 == n with
  | some c => if sp ≤ lo then [] else [c]
  | none => if hi < sp then [new] else []

/-- The conditions in force after a sample. -/
def State.spreadNow (s : State) : List Nat :=
  let old := s.press.spread
  let h := s.hottestDie
  ((List.range 8).flatMap fun d => stepCond old d 64 56 (s.dieSpread d) d ++ stepCond old (32 + d) 80 72 (s.dieSpread d) (32 + d))
    ++ stepCond old 8 100 92 s.packSpread (8 + 64 * h) ++ stepCond old 40 120 112 s.packSpread (40 + 64 * h)

/-- The thermal cap of a cluster under the conditions in force. -/
def State.clusterCap (s : State) (conds : List Nat) (cl : Nat) : Nat :=
  let d := dieOf cl
  let near := decide (s.hottest d ≤ s.sensor d (cl % 32) + 16)
  conds.foldl (fun c n =>
    let low := if n % 64 < 32 then 16 else 0
    let named := if n % 32 = 8 then n / 64 == d else n % 32 == d && near
    if named then min c low else c) 64

/-- The spreads, their conditions, records, caps and counters after a sample (R306). -/
def State.seeSpreads (s : State) : State :=
  let new := s.spreadNow
  let begun := (new.filter fun n => decide (32 ≤ n % 64) && !s.press.spread.any fun o => o % 64 == n % 64)
  let caps : Tab Nat := (List.range nClusters).filterMap fun cl =>
    let c := s.clusterCap new cl
    if c = 64 then none else some (cl, 64 - c)
  let shut := fun (t : Tab Nat) d => t.any fun p => dieOf p.1 == d && p.2 == 64
  let s1 := (List.range 8).foldl (fun (a : State) d =>
    let sp := min (s.dieSpread d) 255
    let b := (a.wr (R.DIE_TEMP_SPREAD_NOW d) sp).wr (R.DIE_TEMP_SPREAD_MAX d) (max sp (s.rd (R.DIE_TEMP_SPREAD_MAX d)))
    if shut caps d && !shut s.press.capCl d then b.bump (R.DIE_TEMP_SPREAD_HOLDS d) 1 else b) s
  let s2 : State := { s1 with press := { s1.press with spread := new, capCl := caps } }
  begun.foldl (fun (a : State) n =>
    if n % 64 = 40 then a.raise Rc.tempSkew deviceClass noOwner 8 s.packSpread
    else a.raise Rc.tempSkew deviceClass noOwner (n - 32) (s.dieSpread (n - 32))) s2

/-- SENSOR_SAMPLE: the readings are taken, and what follows from them (R655). -/
def State.sample (s : State) (temps : List (Nat × Nat × Nat)) : State :=
  let s1 := temps.foldl State.takeReading s
  let s2 := (List.range 10).foldl State.seeDomain s1
  s2.seeHot.seeSpreads

/-- SENSOR_SAMPLE (R655). -/
def execSensorSample (temps : List (Nat × Nat × Nat)) (s : State) : Host.Outcome State Fault Refusal :=
  done (s.when s.hubUp fun s => s.sample temps)

end Sys2Proof.Machine
end

