-- ==== Sys2Proof/Machine/Hamper.lean ====
section
/-!
DEFINITION. Hampers and instance resets: the operations that the INST block, INST_RESET, function-level resets, VF enabling and
the exits from DEEP and OFF share (R411 to R433).
-/

namespace Sys2Proof.Machine

/-! ### Keys (R421 to R424) -/

/-- A continuous health test of the key unit's generator fails: one record, to the global log alone (R423). -/
def State.keyFailed (s : State) : State := s.raiseTo Rc.keyFail deviceClass noOwner 0 0 true []

/-- A new key pair, or 0 when the unit generates none: its generator has failed, or fails its tests now (`ok` false). -/
def State.drawKey (s : State) (ok : Bool) : State × Nat :=
  if s.mem.keyFail then (s, 0)
  else if ok then ({ s with mem := { s.mem with nextKey := s.mem.nextKey + 1 } }, s.mem.nextKey)
  else (s.keyFailed, 0)

/-! ### Cores and peg units (R168, R179, R202, R355, R417, R418) -/

/-- The engines of a core. -/
def coreEngines (c : Nat) : List Nat := (List.range 16).map fun n => c * 16 + n

/-- Owner tag set, PBO clear and check source none on every deck of a core's engines; their check retries are dropped (R168,
R179, R202). A retired engine is never allocated again, so its decks get no owner (R196). -/
def State.handDecks (s : State) (c owner : Nat) : State :=
  let s1 := (coreEngines c).foldl (fun (a : State) e => (List.range 8).foldl (fun a k => a.modDeck e k fun d => { d with
    owner := if (s.engine e).retired then noOwner else owner, pbo := false, src := none }) a) s
  s1.dropChecks fun x => coreOf x.engine == c

/-- A core is allocated: owner and PBO, periphery, pooling state, clip counters, codebook store and bind tag (R417). -/
def State.allocCore (s : State) (i c : Nat) : State :=
  let s1 := (coreEngines c).foldl (fun a e => a.periClear e) (s.handDecks c i)
  let books := Tab.clearKeys (fun k => k / 4096 == c) s1.arr.books
  ({ s1 with arr := { s1.arr with books := books } } : State).setTag c []

/-- Loans and returns that wait on a core end with it. -/
def State.dropLends (s : State) (p : LendJob → Bool) : State :=
  let gone := s.arr.lends.filter p
  gone.foldl (fun a j => a.complete j.desc St.engineNotOwned 0)
    { s with arr := { s.arr with lends := s.arr.lends.filter fun j => !p j } }

/-- A core is freed: a programming target on it ends, its decks lose their owner, its engines come home, and its peg units are
unassigned (R168, R174, R417). -/
def State.freeCore (s : State) (c : Nat) : State :=
  let s1 := (s.inProgress.filter fun p => match s.target? p.1 p.2 with
    | some (_, t) => coreOf t.engine == c
    | none => false).foldl (fun a p => a.breakTarget p.1 p.2 St.engineNotOwned) s
  let s2 := (s1.dropLends fun j => j.core == c).handDecks c noOwner
  let s3 := (coreEngines c).foldl (fun a e => a.modEngine e fun g => { g with lent := false, lendEnd := 0 }) s2
  { s3 with pegs := { s3.pegs with owner := Tab.clearKeys (fun k => k / 4 == c) s3.pegs.owner } }

/-- A peg unit is assigned, by its key core × 4 + unit, with its 64 pegs at 0 (R355). -/
def State.assignUnit (s : State) (i k : Nat) : State :=
  { s with pegs := { s.pegs with
    owner := Tab.put (fun _ => 0) s.pegs.owner k (i + 1)
    t0 := Tab.clearKeys (fun p => p / 64 == k) s.pegs.t0 } }

/-- A peg unit is in use by a bound step of the instance or by an alias (R416 row 8). -/
def State.pegUnitUsed (s : State) (i k : Nat) : Bool :=
  let hit := fun (l : PegLoc) => l.tier == 0 && l.unit * 4 + l.addr / 64 == k
  s.steps.any (fun t => t.bound && t.inst == i && t.plan.any fun e => hit (t.planLoc e))
    || (List.range 64).any fun a => s.aliasOn i a && hit (s.aliasLoc i a)

/-- The units assigned to an instance, ascending. -/
def State.unitsOfInst (s : State) (i : Nat) : List Nat := (s.pegs.owner.filter fun p => p.2 == i + 1).map Prod.fst

/-! ### Hampers (R415 to R418) -/

/-- A hamper as it is staged. -/
structure Hamper where
  broad : Bool
  die   : Nat
  pegPerCore : Nat
  quota : List Nat
  cores : List Nat
  deriving DecidableEq, Repr

/-- The staged hamper (INST.CFG, INST.QUOTA, INST.CORE_MAP). -/
def State.staged (s : State) : Hamper where
  broad := s.flag R.INST_CFG_BROAD
  die := s.rd R.INST_CFG_DIE
  pegPerCore := s.rd R.INST_CFG_PEG_PER_CORE
  quota := (List.range 5).map fun n => s.rd (R.INST_QUOTA_LIMIT n)
  cores := (List.range 192).flatMap fun w => (upTo 32 fun b => bit (s.rd (R.INST_CORE_MAP_CORES w)) b).map fun b => 32 * w + b

/-- Peg units that a new hamper keeps: those of kept cores, the lowest first, up to the quota (R418). -/
def State.keptUnits (s : State) (i : Nat) (h : Hamper) : List Nat :=
  ((s.unitsOfInst i).filter fun k => h.cores.contains (k / 4)).take (h.quota.getD 3 0)

/-- A core cannot be removed now (R416 row 8). -/
def State.coreBusy (s : State) (i c : Nat) : Bool :=
  s.mem.bufs.any (fun e => e.2.live && e.2.tier == 0 && e.2.owner == i && e.2.loc == c)
    || s.steps.any (fun t => t.bound && t.cores.any fun x => x.1 == c)
    || (coreEngines c).any fun e => (s.engine e).lent

/-- Rows 4 to 8 of R416. -/
def State.hamperStatus (s : State) (i : Nat) (h : Hamper) (res : Bool) : Nat :=
  let x := s.inst i
  let n := h.cores.length
  if 32 * n < h.quota.getD 0 0 ∨ h.pegPerCore * n < h.quota.getD 3 0 ∨ 16 < h.quota.getD 4 0 ∨ 4 < h.pegPerCore
      ∨ h.cores.any (fun c => !bit (s.rd R.IDENT_CAPS0_DIE_MASK) (dieOf (clusterOf c))) ∨ res
      ∨ !s.rings.stagedRes.isEmpty then St.instArgInvalid
  else if (List.range 17).any fun j => j != i && (s.inst j).cores.any fun c => h.cores.contains c then St.instCoreTaken
  else if !h.broad && h.cores.any fun c => dieOf (clusterOf c) != h.die then St.instPlacement
  else if h.broad && decide (2 ≤ countIf (fun j => j != i && (s.inst j).st != .none && (s.inst j).broad) (List.range 17)) then
    St.instBroadLimit
  else if (List.range 3).any (fun t => decide (h.quota.getD t 0 < s.unitsUsed i t))
      || (x.cores.filter fun c => !h.cores.contains c).any (fun c => s.coreBusy i c)
      || ((s.unitsOfInst i).filter fun k => !(s.keptUnits i h).contains k).any (fun k => s.pegUnitUsed i k)
      || decide (h.quota.getD 4 0 < s.workRings i) then St.instInUse
  else St.ok

/-- Units that an added core takes, in order, up to the quota (R417). -/
def addedUnits (h : Hamper) (added : List Nat) (kept : Nat) : List Nat :=
  (added.flatMap fun c => (List.range h.pegPerCore).map fun u => c * 4 + u).take (h.quota.getD 3 0 - kept)

/-- The staged hamper takes the place of the instance's (R417, R418). -/
def State.applyHamper (s : State) (i : Nat) (h : Hamper) : State :=
  let old := (s.inst i).cores
  let kept := s.keptUnits i h
  let added := h.cores.filter fun c => !old.contains c
  let s1 := (old.filter fun c => !h.cores.contains c).foldl (fun a c => a.freeCore c) s
  let drop := (s1.unitsOfInst i).filter fun k => !kept.contains k
  let s2 : State := { s1 with pegs := { s1.pegs with owner := Tab.clearKeys (fun k => drop.contains k) s1.pegs.owner } }
  let s3 := added.foldl (fun a c => a.allocCore i c) s2
  let s4 := s3.modInst i fun x => { x with
    broad := h.broad, die := h.die, pegPerCore := h.pegPerCore, quota := h.quota, cores := h.cores }
  (addedUnits h added kept.length).foldl (fun a k => a.assignUnit i k) s4

/-! ### Destruction (R420) -/

/-- The INST_STATUS registers of a function return to their reset values. -/
def State.resetStatus (s : State) (i : Nat) : State := s.resetRegs fun k => decide (fnKey i 0x3000 ≤ k ∧ k < fnKey i 0x4000)

/-- Every register of a function's page returns to its reset value; records that its rings have not taken go with them (R410, log
entry 28). -/
def State.resetPage (s : State) (i : Nat) : State :=
  let mine := fun k => decide (fnKey i 0 ≤ k ∧ k < fnKey (i + 1) 0)
  let s1 := s.resetRegs mine
  { s1 with
    rings := { s1.rings with
      bells := Tab.clearKeys mine s1.rings.bells
      held := s1.rings.held.filter fun c => c.inst != i
      due := s1.rings.due.filter fun c => c.inst != i || c.fromDev.isSome
      stopping := s1.rings.stopping.filter fun k => k / 16 != i }
    pegs := { s1.pegs with low := Tab.clearKeys (fun k => k / 256 == i) s1.pegs.low } }

/-- Every ring of a function is disabled. -/
def State.ringsOff (s : State) (i : Nat) : State :=
  let s1 := (List.range 16).foldl (fun (a : State) n => (a.setFlag (R.WR_CTRL_ENABLE i n) false).setFlag (R.DR_CTRL_ENABLE i n) false) s
  s1.setFlag (R.EV_CTRL_ENABLE i) false

/-- The rest of DESTROY, once the reset is over (R420, R480). -/
def State.destroyNow (s : State) (i : Nat) : State :=
  let bufs := (s.mem.bufs.filter fun e => e.2.live && e.2.owner == i).map Prod.fst
  let s1 := bufs.foldl (fun a k => a.freeBuf k) s
  let s2 := (s1.inst i).cores.foldl (fun a c => a.freeCore c) s1
  let s4 := s2.writeOut i
  let s3 : State := { s4 with
    csi := ⟨s4.csi.ctxs.filter fun c => c.2.inst != i⟩
    rings := { s4.rings with
      due := s4.rings.due.filter fun c => c.inst != i
      held := s4.rings.held.filter fun c => c.inst != i } }
  ((s3.ringsOff i).resetStatus i).setInst i { Inst.init with gen := (s3.inst i).gen }

/-! ### The INST block's answers (R415) -/

/-- The command that runs ends with a status. -/
def State.instEnd (s : State) (status : Nat) : State :=
  let s1 := (s.wr R.INST_RESULT_STATUS status).setFlag R.INST_RESULT_BUSY false
  { s1 with rings := { s1.rings with instBusy := none } }

/-- What asked for the reset of an instance hears of its end: the INST_RESET descriptors, and INST.RESULT. -/
def State.resetAnswer (s : State) (i status : Nat) : State :=
  let x := s.inst i
  let s1 := x.resetDescs.foldl (fun a u => a.complete u status 0) (s.modInst i fun x => { x with resetDescs := [], byCommand := false })
  if x.byCommand then s1.instEnd status else s1

/-! ### Reset: orders 1 to 6 (R427) -/

/-- A hub copy of the instance stops at a packet boundary: the writes issued complete, and nothing else follows. -/
def State.copyStop (s : State) (i : Nat) (j : DmaJob) : State :=
  let s1 : State := { s.skip 1 with rings := { s.rings with dma := s.rings.dma.filter fun k => k.desc != j.desc } }
  if s.dmaSent j.desc || (s.dmaMirror i j).isSome then s1
  else if j.domains.any fun d => s.heldTo hubSide d then
    { s1 with rings := { s1.rings with stopped := s1.rings.stopped ++ [(i, j)] } }
  else if !s.dmaOpen j then s1
  else (s1.dmaBlocks i j (j.moved / 64) (s.drawn % ((j.len - j.moved) / 64 + 1))).1

/-- The instance's copies stop, and its fetched descriptors go, with WR_HEAD at WR_TAIL on every work ring (R410, R427 orders 2
and 3). -/
def State.dropWork (s : State) (i : Nat) : State :=
  let uids := (s.rings.descs.filter fun d => d.inst == i).map Desc.uid
  let s1 := (s.rings.dma.filter fun j => uids.contains j.desc).foldl (fun a j => a.copyStop i j) s
  let s2 := uids.foldl (fun a u => a.dropDesc u) s1
  let s3 := (List.range 16).foldl (fun (a : State) w => a.wr (R.WR_HEAD_POSITION i w) (a.rd (R.WR_TAIL_POSITION i w))) s2
  { s3 with mem := { s3.mem with
    zeroing := s3.mem.zeroing.filter fun z => !uids.contains z.1
    freeWaits := s3.mem.freeWaits.filter fun z => !uids.contains z.1 } }

/-- A darn that a reset of instance `i` stops: it serves a target of the instance, or a deck of its own, from T2 (R202). -/
def State.darnStops (s : State) (i : Nat) (x : Darn) : Bool :=
  match x.target.bind fun p => s.job? p.1 with
  | some j => j.inst == i && j.space == 2
  | none =>
    let d := s.deck x.engine x.deck
    !isGuard x.engine && d.owner == i && (match d.src with
      | some c => c.tier == 2
      | none => true)

/-- The instance's programming jobs stop after the pass that runs, its tests are dropped, and its loans end (R174, R202). -/
def State.dropJobs (s : State) (i : Nat) : State :=
  let mine := s.arr.jobs.filter fun j => j.inst == i
  let uids := mine.map ProgJob.desc
  let tested := mine.flatMap fun j => if j.programs then [] else (j.targets.filter fun t => t.stage == 1).map Target.engine
  let held := mine.flatMap fun j => j.targets.map Target.engine
  let s1 := s.stopDarns fun x => s.darnStops i x
  let ours := fun (t : Option (Nat × Nat)) => match t with
    | some p => uids.contains p.1
    | none => false
  let s2 : State := { s1 with arr := { s1.arr with
    jobs := s1.arr.jobs.filter fun j => j.inst != i
    darns := s1.arr.darns.map fun x => if ours x.target then { x with target := none } else x
    checks := s1.arr.checks.filter fun c => !ours c.target
    lends := s1.arr.lends.filter fun j => j.inst != i } }
  let s3 := tested.foldl (fun a e => a.modEngine e fun g => { g with testing := false }) s2
  let lent := ((s.inst i).cores.flatMap coreEngines).filter fun e => (s.engine e).lent
  let s4 := lent.foldl (fun (a : State) e =>
    if (a.engine e).testing then a.modEngine e fun g => { g with lendEnd := s.now } else a.unlend e) s3
  (tested ++ held).eraseDups.foldl (fun a e => a.gapEvent e) s4

/-- Waits and held alias writes of the instance go (R375, R427 order 5). -/
def State.dropPegs (s : State) (i : Nat) : State :=
  let s1 := s.dropWaits fun w => w.inst == i
  { s1 with pegs := { s1.pegs with
    posted := s1.pegs.posted.filter fun p => !(p.fn == i && p.target.isSome)
    low := Tab.clearKeys (fun k => k / 256 == i) s1.pegs.low } }

/-- Steps of the instance: those not bound go; the windows and blocks of the others are discarded, and the bind tags of its
cores cleared (R143, R328, R347). -/
def State.dropSteps (s : State) (i : Nat) : State :=
  let s1 : State := { s with steps := s.steps.filter fun t => t.inst != i || t.bound }
  let s2 := (s1.steps.filter fun t => t.inst == i).foldl (fun a t =>
    t.engines.foldl (fun a e => (a.dropWindow e).dropBlocks t.uid e) a) s1
  (s.inst i).cores.foldl (fun a c => a.setTag c []) s2

/-- Open frames of the instance's camera contexts are dropped (R480). -/
def State.dropFrames (s : State) (i : Nat) : State :=
  { s with csi := ⟨s.csi.ctxs.map fun c => if c.2.inst == i then (c.1, { c.2 with open_ := false, closing := false }) else c⟩ }

/-- T2 peg words of the instance's bound steps: handle and offset. -/
def State.planWords (s : State) (i : Nat) : List (Nat × Nat) :=
  (s.steps.filter fun t => t.inst == i && t.bound).flatMap fun t =>
    ((t.plan.map t.planLoc).filter fun l => l.tier == 2).map fun l => (l.unit, l.addr)

/-- Devices set in SPAN of a broad instance, this one apart (R431). -/
def State.spanned (s : State) (i : Nat) : List Nat :=
  if i = 0 then [] else
    upTo 64 fun d => s.isMaster && bit (s.rd (R.CHAIN_SPAN_SPAN (i - 1))) d && d != s.rd R.CHAIN_STATUS_DEVICE_ID

/-- Orders 1 to 6 of an instance reset that begins now (R427). -/
def State.resetStart (s : State) (i : Nat) (keyOk : Bool) : State :=
  let words := s.planWords i
  let s1 := ((((s.dropWork i).dropSteps i).dropJobs i).dropPegs i).dropFrames i
  let k := s1.drawKey keyOk
  let s2 := k.1.modInst i fun x => { x with
    st := if k.2 = 0 then .failed else .resetting
    gen := (x.gen + 1) % 65536
    oldKey := x.key
    key := k.2
    resetAt := s.now
    late := false
    rekey := words }
  let s3 := (s.spanned i).foldl (fun a d => a.sendFlit d 0 (.ctrl (.reset i))) s2
  if k.2 = 0 then s3.resetAnswer i St.instKeyFail else s3

/-- A reset of instance `i` is asked for: by descriptor `desc`, by INST.CMD, by a function-level reset, or as the first part of
a destruction. It begins, or merges into the one in progress (R432). -/
def State.askReset (s : State) (i : Nat) (desc : Option Nat) (cmd flr destroy keyOk : Bool) : State :=
  let fresh := (s.inst i).st == .ready
  let s1 := s.modInst i fun x => { x with
    resetDescs := x.resetDescs ++ desc.toList
    byCommand := x.byCommand || cmd
    flr := x.flr || flr
    destroying := x.destroying || destroy }
  if fresh then s1.resetStart i keyOk else s1

/-! ### Reset: orders 8 and 9 (R427, R430) -/

/-- A stopped copy's packets wait behind a crossing that is still held (R305, R430). -/
def State.copyHeld (s : State) (i : Nat) : Bool :=
  s.rings.stopped.any fun x => x.1 == i && x.2.domains.any fun d => s.heldTo hubSide d

/-- Chain flits of an instance that this device has issued wait for a port or for their acknowledgement (R431). -/
def State.flitsOf (s : State) (i : Nat) : Bool :=
  s.chain.transfers.any (fun t => t.inst == i) || !s.hostAcked i || s.chain.hostReads.any (fun r => r.2.2.2 == i)
    || s.chain.ports.any fun p => (p.2.unacked ++ p.2.queue).any fun f =>
      f.inst == i && f.src == s.rd R.CHAIN_STATUS_DEVICE_ID

/-- The in-flight count is zero: the steps of the old generation have ended, nothing waits at a held crossing, and every chain flit is
acknowledged (R427, R431). -/
def State.drained (s : State) (i : Nat) : Bool :=
  !s.steps.any (fun t => t.inst == i && t.gen != (s.inst i).gen) && !s.copyHeld i && !s.flitsOf i

/-- The packets of the instance's stopped copies that had been issued land, a free number of 64-byte blocks (R427 order 7). -/
def State.landStopped (s : State) (i : Nat) : State :=
  let mine := s.rings.stopped.filter fun x => x.1 == i
  mine.foldl (fun (a : State) x =>
    let n := a.drawn % ((x.2.len - x.2.moved) / 64 + 1)
    (a.skip 1).underOld i fun b => (b.dmaBlocks i x.2 (x.2.moved / 64) n).1)
    { s with rings := { s.rings with stopped := s.rings.stopped.filter fun x => x.1 != i } }

/-- A T2 word is re-enciphered under the new pair (R427 order 8). -/
def State.rekeyWord (s : State) (i : Nat) (w : Nat × Nat) : State :=
  match s.live w.1 with
  | none => s
  | some b =>
    if b.tier = 2 ∧ b.owner = i ∧ w.2 + 8 ≤ b.size then
      let a := b.phys w.2
      let v := (List.range 8).map fun j => s.mem.t2Byte (s.inst i).oldKey (a + j)
      { s with mem := s.mem.t2Write (s.key i) a v }
    else s

/-- T2 words that are alias targets of the instance. -/
def State.aliasWords (s : State) (i : Nat) : List (Nat × Nat) :=
  (((List.range 64).filter fun a => s.aliasOk i a).map fun a => s.aliasLoc i a).filterMap fun l =>
    if l.tier = 2 then some (l.unit, l.addr) else none

/-- The chain master gives the instance a new chain generation and sends it to its devices (R582). -/
def State.chainGen (s : State) (i : Nat) : State :=
  if (s.spanned i).isEmpty then s
  else
    let g := (s.rd (R.CHAIN_CGEN_CGEN (i - 1)) + 1) % 65536
    (s.spanned i).foldl (fun a d => a.sendFlit d 0 (.ctrl (.generation i g))) (s.wr (R.CHAIN_CGEN_CGEN (i - 1)) g)

/-- The in-flight count of an instance has reached zero: orders 8 and 9, and the rest of a destruction (R427, R430, R432). -/
def State.resetEnd (s : State) (i : Nat) : State :=
  let x := s.inst i
  let s0 := s.landStopped i
  let s1 := (s0.aliasWords i ++ x.rekey).eraseDups.foldl (fun a w => a.rekeyWord i w) s0
  let s2 := (s1.chainGen i).modInst i fun x => { x with
    st := .ready, oldKey := 0, rekey := [], destroying := false, flr := false, late := false }
  let s3 := if x.flr then (s2.writeOut i).resetPage i else s2.resetStatus i
  let s4 := if x.late then s3.raiseTo Rc.instResetLate corrected noOwner i ((s.now - x.resetAt) / 1000) true [] else s3
  let s5 := s4.modInst i fun y => { y with resetDescs := [], byCommand := false }
  let s6 := x.resetDescs.foldl (fun a u => a.complete u St.ok 0) (if x.destroying then s5.destroyNow i else s5)
  if x.byCommand then s6.instEnd St.ok else s6

/-- A destruction that an event outside the INST block asks for (R414). -/
def State.destroyVf (s : State) (i : Nat) (keyOk : Bool) : State :=
  match (s.inst i).st with
  | .none => s
  | .parked => s.destroyNow i
  | _ => s.askReset i none false false true keyOk

end Sys2Proof.Machine
end

