-- ==== Sys2Proof/Machine/Instances.lean ====
section
/-!
DEFINITION. Instances, ownership and keys: the meanings of INST_RESET, of the INST block's commands, of VF enabling and
function-level resets, of the key unit's failure, and of the SPDM requests (R400, R411 to R436).
-/

namespace Sys2Proof.Machine

/-! ### INST_RESET (R400, R427, R432) -/

/-- An INST_RESET: the reset begins or merges; an instance that is not there to reset ends it (R412, R432). -/
def State.resetDesc (s : State) (d : Desc) : State :=
  let i := u8At d.bytes 0x10
  let st := (s.inst i).st
  if st == .ready || st == .resetting then
    (s.bump (R.BOOT_RESET_COUNT_COUNT 3) 1).askReset i (some d.uid) false false false true
  else s.complete d.uid St.instNotFound 0

/-- INST_RESET (R400). -/
def execInstReset (f w : Nat) (s : State) : Host.Outcome State Fault Refusal :=
  unit (ringOk f w) (s.onDesc f w 0x10 fun s d => s.resetDesc d)

/-! ### The INST block (R415 to R420) -/

/-- The staged registers take the selected instance's values, or zeros (R415, INST.SEL). -/
def State.stage (s : State) (i : Nat) : State :=
  let x := if i ≤ 16 ∧ (s.inst i).st ≠ .none then s.inst i else Inst.init
  let s1 := ((s.setFlag R.INST_CFG_BROAD x.broad).wr R.INST_CFG_PEG_PER_CORE x.pegPerCore).wr R.INST_CFG_DIE x.die
  let s2 := (List.range 5).foldl (fun a n => a.wr (R.INST_QUOTA_LIMIT n) (x.quota.getD n 0)) s1
  let s3 := (List.range 192).foldl (fun a w => a.wr (R.INST_CORE_MAP_CORES w) 0) s2
  x.cores.foldl (fun a c => a.wr (R.INST_CORE_MAP_CORES (c / 32)) (putBit (a.rd (R.INST_CORE_MAP_CORES (c / 32))) (c % 32) true))
    { s3 with rings := { s3.rings with stagedRes := [] } }

/-- A write of INST.SEL. -/
def State.writeInstSel (s : State) (v : Nat) : State := (s.wr R.INST_SEL_INSTANCE (fld v 4 0)).stage (fld v 4 0)

/-- INST_SEL_WRITE (R415). -/
def execInstSelWrite (value : Nat) (s : State) : Host.Outcome State Fault Refusal :=
  done (s.when s.hubUp fun s => s.cmdWrite 0 fun s => s.writeInstSel value)

/-- CREATE (R416, R417). `res`: a reserved field of INST.CMD was written nonzero. -/
def State.instCreate (s : State) (i : Nat) (keyOk res : Bool) : State :=
  let h := s.staged
  if (s.inst i).st ≠ .none then s.instEnd St.instExists
  else if s.rings.numVfs < i then s.instEnd St.instVfDisabled
  else if s.hamperStatus i h res ≠ St.ok then s.instEnd (s.hamperStatus i h res)
  else
    let k := s.drawKey keyOk
    if k.2 = 0 then k.1.instEnd St.instKeyFail
    else
      let s1 := k.1.setInst i { Inst.init with st := .ready, gen := ((s.inst i).gen + 1) % 65536, key := k.2 }
      ((s1.applyHamper i h).resetStatus i).instEnd St.ok

/-- APPLY (R416, R418, R432). -/
def State.instApply (s : State) (i : Nat) (res : Bool) : State :=
  if (s.inst i).st ≠ .ready then s.instEnd St.instNotFound
  else if s.hamperStatus i s.staged res ≠ St.ok then s.instEnd (s.hamperStatus i s.staged res)
  else (s.applyHamper i s.staged).instEnd St.ok

/-- RESET (R415, R432): the command ends with the reset. -/
def State.instResetCmd (s : State) (i : Nat) (keyOk : Bool) : State :=
  let st := (s.inst i).st
  if i = 0 then s.instEnd St.instArgInvalid
  else if st == .ready || st == .resetting then
    (s.bump (R.BOOT_RESET_COUNT_COUNT 3) 1).askReset i none true false false keyOk
  else s.instEnd St.instNotFound

/-- DESTROY (R415, R420, R432). -/
def State.instDestroy (s : State) (i : Nat) (keyOk : Bool) : State :=
  if i = 0 then s.instEnd St.instArgInvalid
  else match (s.inst i).st with
    | .none => s.instEnd St.instNotFound
    | .parked => (s.destroyNow i).instEnd St.ok
    | _ => s.askReset i none true false true keyOk

/-- The command of INST.CMD, on the selected instance: OP in bits [2:0] of `v`, the reserved field above (R416). -/
def State.instRun (s : State) (v : Nat) (keyOk : Bool) : State :=
  let i := s.rd R.INST_SEL_INSTANCE
  let op := v % 8
  let res := decide (8 ≤ v)
  if 16 < i then s.instEnd St.instArgInvalid
  else if op = 1 then s.instCreate i keyOk res
  else if op = 2 then s.instApply i res
  else if op = 3 then s.instResetCmd i keyOk
  else if op = 4 then s.instDestroy i keyOk
  else s.instEnd St.instArgInvalid

/-- GO written to INST.CMD: ignored while a command runs; it waits for a control processor that restarts (R415, R609). -/
def State.instGo (s : State) (op : Nat) (keyOk : Bool) : State :=
  if s.flag R.INST_RESULT_BUSY then s
  else
    let s0 := s.setFlag R.INST_RESULT_BUSY true
    let s1 : State := { s0 with rings := { s0.rings with instBusy := some (s.rd R.INST_SEL_INSTANCE) } }
    if s.fwUp then s1.instRun op keyOk
    else { s1 with rings := { s1.rings with fwWaiting := s1.rings.fwWaiting ++ [(R.INST_CMD_GO.key, op)] } }

/-- A write of INST.CMD that starts an operation, while the hub serves accesses. -/
def State.instCmd (s : State) (op : Nat) (keyOk : Bool) : State :=
  s.when s.hubUp fun s => s.cmdWrite 0 fun s => s.instGo op keyOk

/-- CREATE (R416). -/
def execCreate (keyOk : Bool) (s : State) : Host.Outcome State Fault Refusal := done (s.instCmd 1 keyOk)
/-- APPLY (R416). -/
def execApply (s : State) : Host.Outcome State Fault Refusal := done (s.instCmd 2 true)
/-- RESET (R427). -/
def execReset (keyOk : Bool) (s : State) : Host.Outcome State Fault Refusal := done (s.instCmd 3 keyOk)
/-- DESTROY (R420). -/
def execDestroy (keyOk : Bool) (s : State) : Host.Outcome State Fault Refusal := done (s.instCmd 4 keyOk)

/-! ### The end of a reset (R427, R430) -/

/-- A workload instance. -/
def workload (i : Nat) : Bool := decide (1 ≤ i ∧ i ≤ 16)

/-- INFLIGHT_ZERO (R427 orders 8 and 9). -/
def State.inflightZero (s : State) (i : Nat) : State := s.when (s.hubUp && s.awaitsZero i && s.drained i) fun s => s.resetEnd i

/-- INFLIGHT_ZERO (R427). -/
def execInflightZero (i : Nat) (s : State) : Host.Outcome State Fault Refusal := unit (workload i) (s.inflightZero i)

/-- INST_RESET_TIMEOUT: 50 µs have passed with packets in flight, whose number is free (R430). -/
def State.resetTimeout (s : State) (i : Nat) : State :=
  let x := s.inst i
  if x.st == .resetting && decide (x.resetAt + 50000 ≤ s.now) && !s.drained i then
    let s1 := s.modInst i fun x => { x with st := .failed, late := true, destroying := x.destroying && !x.byCommand }
    ((s1.skip 1).raiseTo St.instResetTimeout deviceClass noOwner i (1 + s.drawn) true [(0, false)]).resetAnswer i
      St.instResetTimeout
  else s

/-- INST_RESET_TIMEOUT (R430). -/
def execInstResetTimeout (i : Nat) (s : State) : Host.Outcome State Fault Refusal :=
  unit (workload i) (s.when s.hubUp fun s => s.resetTimeout i)

/-! ### Virtual functions (R410, R414, R615) -/

/-- VF_ENABLE_CLEAR: VF Enable is cleared (`n` = 0) or NumVFs lowered to `n`; the instances above are destroyed. -/
def State.vfClear (s : State) (n : Nat) (keyOk : Bool) : State :=
  if n < s.rings.numVfs then
    ((List.range 17).filter fun i => decide (n < i)).foldl (fun a i => a.destroyVf i keyOk)
      { s with rings := { s.rings with numVfs := n } }
  else s

/-- VF_ENABLE_CLEAR (R414). -/
def execVfEnableClear (n : Nat) (keyOk : Bool) (s : State) : Host.Outcome State Fault Refusal :=
  done (s.when s.hubUp fun s => (s.vfClear n keyOk).pcieTouch 0)

/-- VF_ENABLE: VFs 1 to `n` are enabled; parked instances among them enter READY. -/
def State.vfEnable (s : State) (n : Nat) : State :=
  if s.rings.numVfs ≤ n then
    (((List.range 17).filter fun i => decide (i ≤ n)).foldl (fun a i =>
      if (a.inst i).st == .parked then a.modInst i fun x => { x with st := .ready } else a)
      { s with rings := { s.rings with numVfs := n } })
  else s

/-- VF_ENABLE (R414). -/
def execVfEnable (n : Nat) (s : State) : Host.Outcome State Fault Refusal :=
  unit (decide (n ≤ 16)) (s.when s.hubUp fun s => (s.vfEnable n).pcieTouch 0)

/-- VF_FLR: an instance reset whose end returns every register of the page to reset; without an instance to reset, the page
alone is reset (R410, R615). A VF that is not enabled has none. -/
def State.vfFlr (s : State) (i : Nat) (keyOk : Bool) : State :=
  if s.rings.numVfs < i then s
  else
    let s1 := s.bump (R.BOOT_RESET_COUNT_COUNT 2) 1
    let st := (s.inst i).st
    if st == .ready || st == .resetting then s1.askReset i none false true false keyOk else (s1.writeOut i).resetPage i

/-- VF_FLR (R615). -/
def execVfFlr (i : Nat) (keyOk : Bool) (s : State) : Host.Outcome State Fault Refusal :=
  unit (workload i) (s.when s.hubUp fun s => (s.vfFlr i keyOk).pcieTouch i)

/-- PF_FLR: VF Enable is cleared, every workload instance destroyed, and instance 0's rings reset as a VF's are (R414, R616). -/
def State.pfFlr (s : State) (keyOk : Bool) : State :=
  let s0 := s.bump (R.BOOT_RESET_COUNT_COUNT 1) 1
  let s1 := ((List.range 17).filter fun i => decide (0 < i)).foldl (fun a i => a.destroyVf i keyOk)
    { s0 with rings := { s0.rings with numVfs := 0 } }
  let s2 := (((s1.dropWork 0).dropSteps 0).dropJobs 0).dropPegs 0
  let s3 := (s2.dropFrames 0).modInst 0 fun x => { x with gen := (x.gen + 1) % 65536 }
  let s4 : State := { s3 with flash := { s3.flash with resetAfter := s3.flash.resetAfter || s3.flash.op.isSome } }
  (s4.writeOut 0).resetPage 0

/-- PF_FLR (R566, R616). -/
def execPfFlr (keyOk : Bool) (s : State) : Host.Outcome State Fault Refusal :=
  done (s.when s.hubUp fun s => (s.pfFlr keyOk).pcieTouch 0)

/-! ### The key unit (R423) -/

/-- KEY_HEALTH_TEST_FAIL: from now on the generator gives no key. -/
def State.keyHealth (s : State) : State :=
  if s.mem.keyFail then s else { s with mem := { s.mem with keyFail := true } } |>.keyFailed

/-- KEY_HEALTH_TEST_FAIL (R423). -/
def execKeyHealthTestFail (s : State) : Host.Outcome State Fault Refusal := done s.keyHealth

/-! ### SPDM (R434, R435; response codes of DMTF SPDM 1.2) -/

/-- The answer of the DOE mailbox: a response code and its fields. -/
def State.answer (s : State) (l : List Nat) : State := s.when s.hubUp fun s =>
  ({ s with board := { s.board with spdm := l } } : State).pcieTouch 0

/-- ERROR with code UnsupportedRequest, for the request of a code. -/
def spdmError (code : Nat) : List Nat := [0x7F, 0x07, code]

/-- GET_VERSION: 1.2 only. -/
def execGetVersion (s : State) : Host.Outcome State Fault Refusal := done (s.answer [0x04, 0x12])

/-- GET_CAPABILITIES: CERT_CAP, CHAL_CAP, and MEAS_CAP with signatures. -/
def execGetCapabilities (s : State) : Host.Outcome State Fault Refusal := done (s.answer [0x61, 2 + 4 + 16])

/-- NEGOTIATE_ALGORITHMS: ECDSA over P-384, SHA-384. -/
def execNegotiateAlgorithms (s : State) : Host.Outcome State Fault Refusal := done (s.answer [0x63, 0x80, 0x02])

/-- Cells of a range of flash addresses, as a list that names its contents. -/
def State.flashCells (s : State) (lo hi : Nat) : List Nat :=
  (s.flash.bytes.filter fun c => decide (lo ≤ c.1 ∧ c.1 < hi)).flatMap fun c => [c.1, c.2.toNat]

/-- The factory region's contents (R553). -/
def State.factory (s : State) : List Nat := s.flash.inForce.take 1 ++ s.flashCells 0x20000 0x800000

/-- The certificate chain lies in the factory region (R435). -/
def State.certificate (s : State) : Nat := Config.digest 1 s.factory

/-- GET_DIGESTS: slot 0 only. -/
def execGetDigests (s : State) : Host.Outcome State Fault Refusal := done (s.answer [0x01, 1, s.certificate])

/-- GET_CERTIFICATE: slot 0 only; `len` bytes of the chain from `off`. -/
def execGetCertificate (slot off len : Nat) (s : State) : Host.Outcome State Fault Refusal :=
  done (s.answer (if slot = 0 then [0x02, 0, off, len, Config.digest 2 ([off, len] ++ s.factory)] else spdmError 0x82))

/-- A signature of the device key over a nonce and the fields before it; ECDSA draws a random value for each. -/
def State.signature (s : State) (l : List Nat) : Nat := Config.digest 3 (s.drawn :: l)

/-- CHALLENGE: signed with the device key. -/
def execChallenge (slot nonce : Nat) (s : State) : Host.Outcome State Fault Refusal :=
  done (if slot = 0 then (s.skip 1).answer [0x03, 0, s.certificate, s.signature [nonce, s.certificate]] else s.answer (spdmError 0x83))

/-- Measurement `n` (R435): firmware images, OTP configuration, straps with the ordering grade, factory region. -/
def State.measure (s : State) (n : Nat) : Nat :=
  if n = 1 ∨ n = 2 then Config.digest (3 + n) (s.flashCells 0x800000 0x2000000)
  else if n = 3 then Config.digest 6 (s.volt.otp.flatMap fun p => [p.1, p.2])
  else if n = 4 then Config.digest 7 [s.board.straps, s.rd R.IDENT_CAPS0_GRADE]
  else Config.digest 8 s.factory

/-- GET_MEASUREMENTS: index 0 asks for their number, 0xFF for all of them. -/
def State.measurements (s : State) (index : Nat) (sign : Bool) (nonce : Nat) : State :=
  if index ≤ 5 ∨ index = 0xFF then
    let l := if index = 0 then [5] else if index = 0xFF then (List.range 5).map fun n => s.measure (n + 1) else [s.measure index]
    if sign then (s.skip 1).answer ([0x60, index] ++ l ++ [s.signature (nonce :: l)]) else s.answer ([0x60, index] ++ l)
  else s.answer (spdmError 0xE0)

/-- GET_MEASUREMENTS (R434). -/
def execGetMeasurements (index : Nat) (sign : Bool) (nonce : Nat) (s : State) : Host.Outcome State Fault Refusal :=
  done (s.measurements index sign nonce)

/-- SPDM_UNSUPPORTED_REQUEST (R434). -/
def execSpdmUnsupportedRequest (code : Nat) (s : State) : Host.Outcome State Fault Refusal := done (s.answer (spdmError code))

end Sys2Proof.Machine
end

