-- ==== Sys2Proof/Machine/GuardOps.lean ====
section
/-!
DEFINITION. The guard plane's own operations: lane configuration, lane programs and their check, the OR stage, and the writes
of the guard aperture (R437 to R464, R476).
-/

namespace Sys2Proof.Machine

/-! ### Lane configuration (GUARD.APER_SEL) -/

/-- Byte of a lane's configuration. -/
def State.laneByte (s : State) (l o : Nat) : Nat := Tab.get (fun _ => 0) s.guard.config (l * 4096 + o)

/-- 16-bit entry of a lane's configuration. -/
def State.laneHalf (s : State) (l o : Nat) : Nat := s.laneByte l o + 256 * s.laneByte l (o + 1)

/-- Signed 16-bit entry of a lane's configuration. -/
def State.laneInt (s : State) (l o : Nat) : Int := toSigned 16 (s.laneHalf l o)

/-- Instruction slot `n` of a lane's program (R451). -/
def State.laneSlot (s : State) (l n : Nat) : Nat := leNat ((List.range 8).map fun j => s.laneByte l (8 * n + j))

/-- A guard engine, by lane and number within it (R6). -/
def guardEngine (l e : Nat) : Nat := nEngines + l * 4 + e

/-- Change lanes' guard stream `n`. -/
def State.gstream (s : State) (n : Nat) : GStream := Tab.get (fun _ => GStream.init) s.guard.streams n

/-- Replace a guard stream. -/
def State.setGstream (s : State) (n : Nat) (v : GStream) : State :=
  { s with guard := { s.guard with streams := Tab.put (fun _ => GStream.init) s.guard.streams n v } }

/-- Comparator `c`. -/
def State.cmp (s : State) (c : Nat) : Comparator := Tab.get (fun _ => Comparator.init) s.guard.cmps c

/-- Replace a comparator. -/
def State.setCmp (s : State) (c : Nat) (v : Comparator) : State :=
  { s with guard := { s.guard with cmps := Tab.put (fun _ => Comparator.init) s.guard.cmps c v } }

/-! ### What comparators read (R461, R462, R647) -/

/-- AON_CMP_REF in 0.1 mV, 1.0 to 1.8 V (R647). -/
def cmpRef : Nat := 10000 + Config.cmpRef % 8001

/-- Threshold of comparator `c` for a code, in 0.1 mV / 256: AON_CMP_REF × code / 256, with an error of at most 0.5 % of AON_CMP_REF and
4 mV (R461, R647). -/
def cmpThreshold (c which code : Nat) : Int :=
  let most := cmpRef / 200 + 40
  (cmpRef * code : Nat) + 256 * ((Config.cmpError c which % (2 * most + 1) : Nat) - (most : Int))

/-- Hysteresis of comparator `c`, 8 to 25 mV, in 0.1 mV / 256 (R647). It lies on the way back (log entry 30). -/
def cmpHyst (c : Nat) : Nat := 256 * (80 + Config.cmpHyst c % 171)

/-- How comparator `c` reads an input of `vin` with its codes, after it read `old`: an input above 1.9 V is clamped and reads above every
threshold (R461, R462). -/
def cmpLevel (c lo hi old vin : Nat) : Nat :=
  if 19000 < vin then 3
  else if 256 * (vin : Int) < cmpThreshold c 0 lo + (if old = 1 then cmpHyst c else 0 : Nat) then 1
  else if cmpThreshold c 1 hi - (if old = 2 ∨ old = 3 then cmpHyst c else 0 : Nat) < 256 * (vin : Int) then 2
  else 0

/-- Comparator `c` with its registers at reset: disabled, LO 0 and HI 255. -/
def Comparator.rest (x : Comparator) (c : Nat) : Comparator :=
  { Comparator.init with vin := x.vin, level := cmpLevel c 0 255 0 x.vin }

/-- How comparator `c` reads an input with the codes in force. -/
def State.levelAt (s : State) (c vin : Nat) : Nat :=
  cmpLevel c (s.rd (R.GUARD_CMP_CFG_LO c)) (s.rd (R.GUARD_CMP_CFG_HI c)) (s.cmp c).level vin

/-- SOURCE of TIME.STATUS: the crystal until READY, and in DEEP and OFF (R619). -/
def State.onCrystal (s : State) : Bool := decide (s.board.boot < 7) || s.hubAsleep

/-! ### Instructions (R451 to R453) -/

/-- OP. -/
def gOp (w : Nat) : Nat := fld w 63 60

/-- The slots of a program up to its GEND. -/
def State.laneProgram (s : State) (l : Nat) : List Nat :=
  ((List.range 32).map fun n => s.laneSlot l n).takeWhile fun w => gOp w != 0

/-- COUNT of instructions 2 to 7. -/
def gCount (w : Nat) : Nat := fld w 29 20 + 1

/-- Charged time in ns (R453). -/
def gCharge (w : Nat) : Nat :=
  let b := resolution (fld w 52 43)
  if gOp w = 1 then (if bit w 56 then [50, 59, 71, 84] else [67, 75, 88, 100]).getD (b - 6) 0
  else if gOp w = 6 ∨ gOp w = 7 then 8
  else if 2 ≤ gOp w ∧ gOp w ≤ 5 then 8 + 2 * ((gCount w + 31) / 32)
  else 0

/-- Every field of an instruction obeys R451 and R452. -/
def gFieldsOk (w : Nat) : Bool :=
  let op := gOp w
  let c := gCount w
  let a := fld w 59 50
  let b := fld w 49 40
  let d := fld w 39 30
  let p := fld w 19 16
  if op = 1 then
    let rows := fld w 52 43
    let inp := fld w 42 32
    let cols := fld w 22 13
    decide (fld w 2 0 = 0 ∧ 1 ≤ rows ∧ rows ≤ 512 ∧ (inp + rows ≤ 512 ∨ (512 ≤ inp ∧ inp + rows ≤ 1536)) ∧ 1 ≤ cols
      ∧ fld w 31 23 + cols ≤ 512 ∧ fld w 12 3 + cols ≤ 1024)
  else if op = 2 then decide (a + c ≤ 1024 ∧ d + c ≤ 1024 ∧ p ≤ 2)
  else if op = 3 then decide (a + c ≤ 1024 ∧ d + c ≤ 1024)
  else if op = 4 then decide (a + c ≤ 1024 ∧ b + c ≤ 1024 ∧ d + c ≤ 1024)
  else if op = 5 then decide (a + c ≤ 1024)
  else if op = 6 then true
  else if op = 7 then decide (p % 4 ≤ 2)
  else false

/-- First slot at which the charged times pass the budget of 1,800 ns. -/
def overBudget : List Nat → Nat → Nat → Option Nat
  | [], _, _ => none
  | w :: t, n, sum => if 1800 < sum + gCharge w then some n else overBudget t (n + 1) (sum + gCharge w)

/-- Engines a program names. -/
def programEngines (p : List Nat) : List Nat := ((p.filter fun w => gOp w == 1).map fun w => fld w 59 58).eraseDups

/-- The reason for which a lane is refused, and its slot (R455, GUARD.LANE_ERR); none = accepted. -/
def State.laneRefusal (s : State) (l : Nat) : Option (Nat × Nat) :=
  let p := s.laneProgram l
  match overBudget p 0 0 with
  | some n => some (1, n)
  | none => match p.findIdx? fun w => !gFieldsOk w with
    | some n => some (2, n)
    | none =>
      let ds := (programEngines p).map fun e => s.deck (guardEngine l e) 0
      if ds.any fun d => !d.pbo then some (3, 0)
      else if ds.any Deck.retired then some (4, 0)
      else if !(s.lane l).loaded then some (5, 0)
      else none

/-! ### Effects (R438, R452) -/

/-- VAL entries `a … a+n-1`. -/
def Lane.vals (x : Lane) (a n : Nat) : List Int := (List.range n).map fun i => Tab.get (fun _ => 0) x.val (a + i)

/-- Store values in VAL from `d`. -/
def Lane.putVals (x : Lane) (d : Nat) (vs : List Int) : Lane :=
  { x with val := (vs.zipIdx).foldl (fun t p => Tab.put (fun _ => 0) t (d + p.2) p.1) x.val }

/-- Input byte `n` of a GEVAL: W below 512, else CODE. -/
def Lane.input (x : Lane) (n : Nat) : Nat := if n < 512 then x.w.getD n 0 else Tab.get (fun _ => 0) x.code (n - 512)

/-- Row drives of a GEVAL (R69, R70, R438). -/
def State.gDrives (s : State) (l w : Nat) : List Int :=
  let x := s.lane l
  (List.range (fld w 52 43)).map fun r =>
    rowDrive false (bit w 56) (s.laneHalf l ((if bit w 57 then 0x600 else 0x400) + 2 * x.input (fld w 42 32 + r)))

/-- GEVAL: its values, and whether any column saturates or clips; the analog errors are those of R66 and R92 (R438, R439). -/
def State.gEval (s : State) (l w : Nat) : State × List (Int × Bool) :=
  let e := guardEngine l (fld w 59 58)
  let d := s.deck e 0
  let sh := fld w 55 53
  let drives := s.gDrives l w
  let ps := s.laneByte l (0x104 + fld w 59 58)
  let b := resolution (fld w 52 43)
  let one := fun (j : Nat) =>
    let net := d.charge (s.analog e 0 false) (d.cols false) (d.refs false) 0 drives j
    let q := ((s.convertAll e (fun _ => sarOf j) false b sh [net]).headD ⟨0, false⟩)
    let p := preAct (rawOf q.q sh) (periScale s.arr.peri e 0 j) (periOffset s.arr.peri e 0 j) ps
    (p.1, q.sat || p.2)
  (s.skip noiseDraws, (List.range (fld w 22 13)).map fun n => one (fld w 31 23 + n))

/-- GACT's function: ReLU or a fine table (R131). -/
def State.gAct (s : State) (l p : Nat) (v : Int) : Int :=
  if p = 0 then max v 0 else interp 8 (fun i => s.laneInt l ((if p = 1 then 0x800 else 0xA00) + 2 * i)) v

/-- The OCB thresholds of a lane. -/
def State.gThresholds (s : State) (l : Nat) : List Int := (List.range 255).map fun k => s.laneInt l (0xC00 + 2 * k)

/-- GSCORE's value. -/
def gScore (v : Int) (p : Nat) : Nat := (clampInt 0 255 ((v + ((2 ^ p / 2 : Nat) : Int)) / ((2 ^ p : Nat) : Int))).toNat

/-- One instruction of a lane's program (R452). -/
def State.gStep (s : State) (l w : Nat) : State :=
  let x := s.lane l
  let a := fld w 59 50
  let b := fld w 49 40
  let d := fld w 39 30
  let c := gCount w
  let p := fld w 19 16
  if gOp w = 1 then
    let r := s.gEval l w
    r.1.setLane l { x.putVals (fld w 12 3) (r.2.map Prod.fst) with clip := x.clip || r.2.any Prod.snd }
  else if gOp w = 2 then s.setLane l (x.putVals d ((x.vals a c).map fun v => s.gAct l p v))
  else if gOp w = 3 then
    let cs := (x.vals a c).map fun v => outCode (s.gThresholds l) v
    s.setLane l { x with code := (cs.zipIdx).foldl (fun t q => Tab.put (fun _ => 0) t (d + q.2) q.1) x.code }
  else if gOp w = 4 then s.setLane l (x.putVals d (((x.vals a c).zip (x.vals b c)).map fun q => sat16 (q.1 + q.2)))
  else if gOp w = 5 then
    match x.vals a c with
    | v :: t => s.setLane l (x.putVals d [t.foldl max v])
    | [] => s
  else if gOp w = 6 then s.setLane l { x with score := gScore (Tab.get (fun _ => 0) x.val a) p }
  else if gOp w = 7 then
    let v := Tab.get (fun _ => 0) x.val a
    let imm := toSigned 16 (fld w 15 0)
    let hit := if bit p 2 then decide (v < imm) else decide (imm ≤ v)
    if hit then s.setLane l { x with user := putBit x.user (p % 4) true } else s
  else s

/-- Instructions of a lane's program run one after another (R454). -/
def State.gRun (s : State) (l : Nat) (p : List Nat) : State := p.foldl (fun a w => a.gStep l w) s

/-! ### Verdicts and the OR stage (R456 to R458) -/

/-- HEALTH but for R443: an engine of the lane has a failed or pending column, or CAL_MISSING. -/
def State.laneHealth (s : State) (l : Nat) : Bool :=
  (List.range 4).any fun e => let d := s.deck (guardEngine l e) 0; !d.badCols.isEmpty || d.calMissing

/-- The verdict word of the frame that ends (R456). -/
def Lane.word (x : Lane) (health late : Bool) : Nat :=
  (if late then 255 else x.score) * 256 + x.user * 32 + b2n (health || late) * 16 + b2n x.sfault * 8 + b2n x.clip * 4
    + b2n x.stale * 2 + b2n x.ovr

/-- A verdict word trips a lane (R457). -/
def State.wordTrips (s : State) (l w : Nat) : Bool :=
  decide (s.rd (R.GUARD_LANE_CFG0_THRESH l) ≤ w / 256) || (w &&& s.rd (R.GUARD_LANE_CFG0_FLAG_MASK l)) % 256 != 0

/-- The stop condition of output `j` (R458). -/
def State.stopOf (s : State) (j : Nat) : Bool :=
  bit (s.rd R.GUARD_OUT_CFG_FORCE) j || bit (s.rd R.GUARD_LATCHED_LATCHED) j
    || (List.range 16).any (fun l => bit (s.rd (R.GUARD_LANE_CFG0_MATRIX l)) j
        && (if (s.lane l).present then (s.lane l).tripped else bit (s.rd R.GUARD_OUT_CFG_ABSENT_STOP) j))
    || (List.range 8).any fun c => bit (s.rd (R.GUARD_CMP_CFG_ROUTE c)) j && (s.cmp c).trip

/-- The OR stage re-evaluates (R458, R460); it is off in OFF (R466), and in a board test the boundary cells drive its pins
(R625). -/
def State.orStage (s : State) : State :=
  if s.power.st = .off ∨ s.board.extest then { s with guard := { s.guard with out := List.replicate 8 2 } }
  else
    let s1 := (List.range 16).foldl (fun (a : State) l =>
      if (a.lane l).present then a.modLane l fun x => { x with tripped := a.wordTrips l (a.rd (R.GUARD_VERDICT_WORD l)) }
      else if (a.lane l).tripped then a.modLane l fun x => { x with tripped := false } else a) s
    let stops := (List.range 8).map fun j => s1.stopOf j
    let held := (upTo 8 fun j => stops.getD j false && bit (s.rd R.GUARD_OUT_CFG_LATCH) j).foldl (fun m j => putBit m j true)
      (s.rd R.GUARD_LATCHED_LATCHED)
    let arm := s.flag R.GUARD_CTRL_ARM
    let s2 := s1.wr R.GUARD_LATCHED_LATCHED held
    { s2 with guard := { s2.guard with out := stops.map fun b => if !arm then 2 else if b then 0 else 1 } }

/-- A lane that is not present shows the verdict word of R457. -/
def absentWord : Nat := 0xFF12

/-- A lane stops: it is no longer present (R457). -/
def State.laneStops (s : State) (l : Nat) : State :=
  (s.modLane l fun x => { x with on := false, started := false, stopping := false, present := false, tripped := false }).wr
    (R.GUARD_VERDICT_WORD l) absentWord

/-! ### The guard port's words (R464) -/

/-- The word at an address of the guard port. -/
def State.portWord (s : State) (a : Nat) : Nat :=
  if a < 16 then s.rd (R.GUARD_VERDICT_WORD a)
  else if a = 16 then s.guard.tripMask
  else if a = 17 then
    let mask := fun (p : Nat → Bool) => (upTo 8 p).foldl (fun m j => putBit m j true) 0
    mask (fun c => (s.cmp c).trip) * 256 + mask fun j => s.guard.out.getD j 2 == 0
  else if a = 18 then s.rd R.GUARD_FRAME_COUNT % 65536
  else if a = 19 then s.rd R.GUARD_FRAME_COUNT / 65536
  else if a = 20 then b2n (s.flag R.GUARD_CTRL_ARM) * 2 ^ 15 + b2n (s.flag R.GUARD_STATUS_TIMEBASE) * 2 ^ 14
    + b2n (s.flag R.GUARD_STATUS_LOADED) * 2 ^ 13
  else 0

/-! ### The aperture (GUARD.APER_SEL, R476) -/

/-- A lane configuration offset holds something. -/
def laneListed (o : Nat) : Bool := decide (o < 0x108 ∨ (0x200 ≤ o ∧ o < 0x3FE) ∨ (0x400 ≤ o ∧ o < 0xDFE))

/-- Local periphery offset of a guard engine's aperture offset. -/
def guardPeri (o : Nat) : Nat := 0x2000 * (o / 0x400) + o % 0x400

/-- A word read through the guard aperture. -/
def State.readGuardAper (s : State) (o : Nat) : Nat :=
  let i := s.rd R.GUARD_APER_SEL_INDEX
  if s.flag R.GUARD_APER_SEL_KIND then s.periRead (nEngines + i) (guardPeri o)
  else leNat ((List.range 4).map fun j => if laneListed (o + j) then s.laneByte (i % 16) (o + j) else 0)

/-- A word written through the guard aperture: refused on an enabled lane; SCALE and TRIM are read only. -/
def State.writeGuardAper (s : State) (o v : Nat) : State :=
  let i := s.rd R.GUARD_APER_SEL_INDEX
  let kind := s.flag R.GUARD_APER_SEL_KIND
  let l := if kind then i / 4 else i % 16
  if !s.guard.up then s
  else if (s.lane l).on then s.setFlag R.GUARD_STATUS_WRITE_REFUSED true
  else
    if kind then (if o / 0x400 = 1 ∨ o / 0x400 = 3 then s.setPeri (nEngines + i) (guardPeri o) v else s)
    else
      let s1 := s.modLane l fun x => { x with loaded := true }
      let c := (List.range 4).foldl (fun t j =>
        if laneListed (o + j) then Tab.put (fun _ => 0) t (l * 4096 + o + j) (v / 2 ^ (8 * j) % 256) else t) s1.guard.config
      { s1 with guard := { s1.guard with config := c } }

end Sys2Proof.Machine
end

