-- ==== Sys2Proof/Machine/Guard.lean ====
section
/-!
DEFINITION. The guard plane: the meanings of frame boundaries, Fast Sample Port packets, guard checks and calibration, lane
enabling, comparators, the guard port and the lane commands (R437 to R476).
-/

namespace Sys2Proof.Machine

/-! ### Frames (R440 to R443, R450, R456, R457) -/

/-- The program of the frame that ends has run; one that has not ended is abandoned after a free number of instructions
(R443, R454). -/
def State.frameProgram (s : State) (l : Nat) (late : Bool) : State :=
  let p := s.laneProgram l
  if late then (s.skip 1).gRun l (p.take (s.drawn % p.length)) else s.gRun l p

/-- The verdict of a lane commits (R441, R456). -/
def State.commitLane (s : State) (l : Nat) (late : Bool) : State :=
  let s1 := s.frameProgram l late
  let x := s1.lane l
  let w := x.word (s1.laneHealth l) late
  let hit := s1.wordTrips l w
  let s2 := (s1.wr (R.GUARD_VERDICT_WORD l) w).setLane l { x with
    present := true, tripped := hit, checkAge := x.checkAge + 1, retry := x.retry.map fun r => (r.1, r.2.1, r.2.2.1, r.2.2.2 - 1) }
  let s3 := s2.wr R.GUARD_STATUS_HEALTH (putBit (s2.rd R.GUARD_STATUS_HEALTH) l (s1.laneHealth l || late))
  let s4 := (s3.bump (R.GUARD_LANE_COUNT_COUNT l 0) (b2n hit)).bump (R.GUARD_LANE_COUNT_COUNT l 1) (b2n x.ovr)
  let s5 := (s4.bump (R.GUARD_LANE_COUNT_COUNT l 2) (b2n x.stale)).bump (R.GUARD_LANE_COUNT_COUNT l 3) (b2n late)
  if late then s5.raise Rc.guardLate deviceClass noOwner l (s5.rd R.GUARD_FRAME_COUNT) else s5

/-- Input code of a sample, and whether it is out of range (R448). -/
def State.quantise (s : State) (l : Nat) (x : Int) : Nat × Bool :=
  if x < s.laneInt l 0x100 then (0, true)
  else if s.laneInt l 0x102 < x then (255, true)
  else (outCode ((List.range 255).map fun k => s.laneInt l (0x200 + 2 * k)) x, false)

/-- The snapshot of a lane, with which its frame begins (R442, R449, R450). -/
def State.snapshot (s : State) (l : Nat) : State :=
  let g := s.gstream (s.rd (R.GUARD_LANE_CFG1_SOURCE l))
  let q := g.queue.map fun v => s.quantise l v
  s.modLane l fun x => { x with
    w := (x.w ++ q.map Prod.fst).drop q.length
    score := 0
    user := 0
    ovr := q.any Prod.snd
    stale := decide (max 1 (s.rd (R.GUARD_LANE_CFG0_STALE_FRAMES l)) ≤ g.silent)
    clip := false
    sfault := g.sfault
    slack := false
    started := true }

/-- Streams count a snapshot with no sample before the lanes take it. -/
def State.ageStreams (s : State) : State :=
  (List.range 16).foldl (fun a n => let g := a.gstream n; a.setGstream n { g with silent := if g.queue.isEmpty then g.silent + 1 else 0 }) s

/-- Every stream's samples have been taken. -/
def State.clearStreams (s : State) : State :=
  (List.range 16).foldl (fun a n => let g := a.gstream n; a.setGstream n { g with queue := [], sfault := false }) s

/-- At the boundary: a calibration that an engine of the lane needs has had the frame's slack, if no check used it, and new TRIMs take
effect together (R441, R473). -/
def State.slackEnds (s : State) (l : Nat) : State :=
  let x := s.lane l
  let due := x.started && !x.slack && (List.range 4).any fun e => (s.deck (guardEngine l e) 0).calDue
  x.trims.foldl (fun (a : State) w => a.setPeri w.1 w.2.1 w.2.2)
    (s.setLane l { x with calRuns := if due then x.calRuns + 1 else x.calRuns, trims := [] })

/-- The least frame period in ns: 2,000 ns within 0.1 % while trimmed against REFCLK_100, within 0.5 % otherwise (R440). -/
def State.framePeriod (s : State) : Nat := if s.flag R.GUARD_STATUS_TIMEBASE then 1990 else 1998

/-- A frame boundary may lie in the present step of device time (R440). -/
def State.frameDue (s : State) : Bool := decide (s.guard.frameNext < s.now + if s.onCrystal then 30518 else 10)

/-- FRAME_BOUNDARY: lanes that stop do so, verdicts commit, the outputs follow, and every enabled lane takes its snapshot.
`late` lists the lanes whose programs have not ended. -/
def State.boundary (s : State) (late : List Nat) : State :=
  let s1 := (upTo 16 fun l => (s.lane l).stopping).foldl (fun a l => a.laneStops l) s
  let s2 := (s1.bumpWrap R.GUARD_FRAME_COUNT 1).wr R.GUARD_FRAME_TIME_TIME s.now
  let s3 := (upTo 16 fun l => (s1.lane l).started).foldl (fun a l => a.commitLane l (late.contains l)) s2
  let mask := (upTo 16 fun l => !(s3.lane l).present || (s3.lane l).tripped).foldl (fun m l => putBit m l true) 0
  let s4 := ({ s3 with guard := { s3.guard with tripMask := mask } } : State).orStage
  let s5 := (upTo 16 fun l => (s4.lane l).present && (s4.lane l).tripped).foldl (fun a l => a.wake 7 l) s4
  let s6 := (List.range 16).foldl State.slackEnds s5
  let s7 := (upTo 16 fun l => (s6.lane l).on).foldl (fun a l => a.snapshot l) s6.ageStreams
  let next := max s.guard.frameNext s.now + s.framePeriod
  ({ s7 with guard := { s7.guard with frameNext := next } } : State).clearStreams

/-- FRAME_BOUNDARY (R441). -/
def execFrameBoundary (late : List Nat) (s : State) : Host.Outcome State Fault Refusal :=
  done (s.when (s.guard.up && s.frameDue) fun s => s.boundary late)

/-- The 100 MHz reference reaches the guard oscillator: in RUN, IDLE and SLEEP, once the device has booted. -/
def State.refclk (s : State) : Bool := s.ready && decide (s.power.st.code ≤ 2)

/-- GUARD_OSC_TRIM (R440). -/
def State.oscTrim (s : State) : State :=
  if s.guard.trimAt + 1000000 ≤ s.now then
    ({ s with guard := { s.guard with trimAt := s.now } } : State).setFlag R.GUARD_STATUS_TIMEBASE (!s.refclk)
  else s

/-- GUARD_OSC_TRIM (R440). -/
def execGuardOscTrim (s : State) : Host.Outcome State Fault Refusal := done (s.when s.guard.up State.oscTrim)

/-! ### Fast Sample Ports (R444 to R447) -/

/-- One bit of the CRC-16 of R445. -/
def crc16Bit (c : Nat) : Nat := if bit c 15 then ((c * 2) % 65536) ^^^ 0x1021 else c * 2

/-- One word of it. -/
def crc16Word (c w : Nat) : Nat := (List.range 16).foldl (fun c _ => crc16Bit c) (c ^^^ w % 65536)

/-- CRC-16 of a list of words. -/
def crc16 (ws : List Nat) : Nat := ws.foldl crc16Word 0xFFFF

/-- One sample is queued; a full queue pushes out its oldest (R447). -/
def State.gSample (s : State) (p n : Nat) (v : Int) : State :=
  let g := s.gstream n
  if g.queue.length < 64 then s.setGstream n { g with queue := g.queue ++ [v] }
  else (s.setGstream n { g with queue := g.queue.drop 1 ++ [v] }).bump (R.SENSOR_FSP_COUNT_OVERRUN p) 1

/-- A packet's words, from its SYNC on: one that fails its CRC or has a reserved bit set is discarded whole (R445, R446). -/
def State.fspWhole (s : State) (p : Nat) (ws : List Nat) : State :=
  let h := ws.getD 1 0
  let n := fld h 13 10 + 1
  let st := 4 * p + fld h 15 14
  if fld h 2 0 ≠ 0 ∨ crc16 ((ws.drop 1).take (n + 1)) ≠ ws.getD (n + 2) 0 then s.bump (R.SENSOR_FSP_STATUS_PKT_ERR p) 1
  else
    let g := s.gstream st
    let seq := fld h 9 4
    let gap := match g.lastSeq with
      | some q => (q + 1) % 64 != seq
      | none => false
    let s2 := (s.bump (R.SENSOR_FSP_COUNT_SEQ_GAP p) (b2n gap)).setGstream st { g with
      lastSeq := some seq, sfault := g.sfault || bit h 3 }
    ((ws.drop 2).take n).foldl (fun a v => a.gSample p st (toSigned 16 v)) s2

/-- Bits of a word, most significant first (R444). -/
def wordBits (w : Nat) : List Nat := (List.range 16).map fun i => w / 2 ^ (15 - i) % 2

/-- Word `i` of a list of bits. -/
def bitsWord (bs : List Nat) (i : Nat) : Nat := ((bs.drop (16 * i)).take 16).foldl (fun n b => 2 * n + b) 0

/-- The receiver of port `p` works through its bits: outside a packet it searches for SYNC at every bit position, and after a packet it
goes on with the bit that follows (R446). `fuel` is at least the number of bits. It gives the bits of a packet still incomplete. -/
def State.fspScan : Nat → State → Nat → List Nat → State × List Nat
  | 0, s, _, bs => (s, bs)
  | fuel + 1, s, p, bs =>
    if bs.length < 16 then (s, bs)
    else if bitsWord bs 0 ≠ 0x0E5B then fspScan fuel s p (bs.drop 1)
    else
      let n := fld (bitsWord bs 1) 13 10 + 4
      if bs.length < 32 ∨ bs.length < 16 * n then (s, bs)
      else fspScan fuel (s.fspWhole p ((List.range n).map (bitsWord bs))) p (bs.drop (16 * n))

/-- FSP_PACKET: 16-bit words arrive at port `p`, behind bits that are still unused. -/
def State.fspPacket (s : State) (p : Nat) (ws : List Nat) : State :=
  let bs := Tab.get (fun _ => []) s.guard.rx p ++ ws.flatMap wordBits
  let r := (s.setFlag (R.SENSOR_FSP_STATUS_CLK p) true).fspScan bs.length p bs
  { r.1 with guard := { r.1.guard with rx := Tab.put (fun _ => []) r.1.guard.rx p r.2 } }

/-- FSP_PACKET (R446). -/
def execFspPacket (port : Nat) (pkt : List Nat) (s : State) : Host.Outcome State Fault Refusal :=
  unit (decide (port < 4)) (s.when (s.guard.up && s.flag (R.SENSOR_FSP_STATUS_ENABLE port)) fun s => s.fspPacket port pkt)

/-- FSP_CLOCK_LOSS (R446). -/
def execFspClockLoss (port : Nat) (s : State) : Host.Outcome State Fault Refusal :=
  unit (decide (port < 4)) (s.setFlag (R.SENSOR_FSP_STATUS_CLK port) false)

/-! ### Checking and calibration (R471 to R473) -/

/-- Columns of a guard engine that are not marked yet are marked failed, each with a record to instance 0 and the global log (R472). -/
def State.guardFaults (s : State) (l e : Nat) (cols : List Nat) : State :=
  let bad := (s.deck (guardEngine l e) 0).badCols.map Prod.fst
  (cols.filter fun j => !bad.contains (physCol j)).foldl (fun a j =>
    (a.modDeck (guardEngine l e) 0 fun d => d.markCol (physCol j) 1).raiseTo Rc.guardColumnFault deviceClass noOwner
      (l * 4 + e) (physCol j) true [(0, false)]) s

/-- GUARD_CHECK_EVAL: the next engine and vector in turn, once 250 frames have passed, in a frame slack that no other check evaluation has
used (R441, R471). An accepted program ends by 1,830 ns (R453), so a check evaluation of at most 100 ns and one conversion always fit
before 1,980 ns. -/
def State.guardCheck (s : State) (l : Nat) : State :=
  let x := s.lane l
  let e := x.checkNext / 4
  if x.started && !x.slack && decide (250 ≤ x.checkAge) && s.engineFree (guardEngine l e) then
    let s1 := s.setLane l { x with checkAge := 0, checkNext := (x.checkNext + 1) % 16, slack := true }
    let r := s1.runVector (guardEngine l e) 0 (x.checkNext % 4)
    match r.2 with
    | some f =>
      if f.isEmpty then r.1
      else r.1.modLane l fun y => { y with retry := y.retry ++ [(e, x.checkNext % 4, f.map Prod.fst, 500)] }
    | none => r.1
  else s

/-- GUARD_CHECK_EVAL (R471). -/
def execGuardCheckEval (l : Nat) (s : State) : Host.Outcome State Fault Refusal :=
  unit (decide (l < 16)) (s.when s.guard.up fun s => s.guardCheck l)

/-- GUARD_CHECK_RETRY: 500 frames after a failed check it is repeated, and a column that fails again is marked (R472). -/
def State.guardRetry (s : State) (l : Nat) : State :=
  let x := s.lane l
  match x.retry.find? fun r => r.2.2.2 == 0 with
  | none => s
  | some q =>
    if !x.started || x.slack || !s.engineFree (guardEngine l q.1) then s
    else
      let r := (s.setLane l { x with retry := x.retry.erase q, slack := true }).runVector (guardEngine l q.1) 0 q.2.1
      r.1.guardFaults l q.1 (((r.2.getD []).map Prod.fst).filter fun j => q.2.2.1.contains j)

/-- GUARD_CHECK_RETRY (R472). -/
def execGuardCheckRetry (l : Nat) (s : State) : Host.Outcome State Fault Refusal :=
  unit (decide (l < 16)) (s.when s.guard.up fun s => s.guardRetry l)

/-- A calibration's TRIMs wait for the next boundary (R473): the periphery stands as in `s`. -/
def State.holdTrims (t s : State) (l g : Nat) : State :=
  let words := (List.range 256).map fun i => (g, 0x4000 + 4 * i, periGet t.arr.peri g (0x4000 + 4 * i))
  ({ t with arr := { t.arr with peri := s.arr.peri } } : State).modLane l fun x => { x with trims := words ++ x.trims }

/-- GUARD_CALIBRATION: the 32 evaluations of an engine that needs calibration have run, one in each of as many frame slacks, and its TRIMs
take effect at the next boundary (R473). -/
def State.guardCal (s : State) (l e : Nat) : State :=
  let g := guardEngine l e
  if (s.lane l).started && (s.deck g 0).calDue && s.engineFree g && decide (32 ≤ (s.lane l).calRuns) then
    let s1 := s.modLane l fun x => { x with calRuns := 0 }
    let r := s1.calibrate g 0 none
    (r.1.holdTrims s1 l g).guardFaults l e (r.2.map Prod.fst)
  else s

/-- GUARD_CALIBRATION (R473). -/
def execGuardCalibration (l e : Nat) (s : State) : Host.Outcome State Fault Refusal :=
  unit (decide (l < 16 ∧ e < 4)) (s.when s.guard.up fun s => s.guardCal l e)

/-! ### Enabling lanes (R455) -/

/-- A lane is accepted: CODE and VAL are zeroed, it starts at the next boundary, and its engines need calibration (R437,
R455, R473). -/
def State.laneAccepted (s : State) (l : Nat) : State :=
  let s1 := s.modLane l fun x => { x with
    code := [], val := [], on := true, started := false, stopping := false, checkAge := 0, retry := [], slack := false, calRuns := 0 }
  let s2 := (List.range 4).foldl (fun (a : State) e => a.modDeck (guardEngine l e) 0 fun d => if d.retired || !d.pbo then d else { d with calDue := true }) s1
  s2.wr R.GUARD_CTRL_LANE_EN (putBit (s2.rd R.GUARD_CTRL_LANE_EN) l true)

/-- A 1 written to the enable bit of a lane that is off. -/
def State.laneOn (s : State) (l : Nat) : State :=
  match s.laneRefusal l with
  | none => s.laneAccepted l
  | some r => ((s.wr R.GUARD_LANE_ERR_SLOT r.2).wr R.GUARD_LANE_ERR_REASON r.1).wr R.GUARD_LANE_ERR_LANE l

/-- A 0 written to the enable bit of a lane: it stops at the next boundary. -/
def State.laneOff (s : State) (l : Nat) : State :=
  (s.modLane l fun x => { x with stopping := x.on }).wr R.GUARD_CTRL_LANE_EN (putBit (s.rd R.GUARD_CTRL_LANE_EN) l false)

/-- The enable bits of the lanes, as written. -/
def State.laneBits (s : State) (v : Nat) : State :=
  (List.range 16).foldl (fun a l =>
    if bit v l == bit (a.rd R.GUARD_CTRL_LANE_EN) l then a else if bit v l then a.laneOn l else a.laneOff l) s

/-- A register write `g` to the guard domain, by its key and value: it waits while the register port is held, behind those that wait
(R302, R305; log entry 50). -/
def State.overPort (s : State) (k v : Nat) (g : State → State) : State :=
  if s.power.held.contains guardCrossing || !s.guard.port.isEmpty then
    { s with guard := { s.guard with port := s.guard.port ++ [(k, v)] } }
  else g s

/-- A write of GUARD.CTRL; ARM set takes effect with the next re-evaluation, ARM cleared at once (R455, R460, R644). -/
def State.writeGuardCtrl (s : State) (v : Nat) : State :=
  let s1 := (((s.setFlag R.GUARD_CTRL_ARM (bit v 31)).setFlag R.GUARD_CTRL_GUARD_IN_DEEP (bit v 30)).setFlag
    R.GUARD_CTRL_GUARD_HOLD (bit v 29)).setFlag R.GUARD_CTRL_AUTO_LOAD (bit v 28)
  let s2 := if s.guard.up then s1.overPort 0xE0000 v fun s => s.laneBits v else s1
  if bit v 31 then s2 else { s2 with guard := { s2.guard with out := List.replicate 8 2 } }

/-- LANE_EN_WRITE: `value` is the word written to GUARD.CTRL (R455). -/
def execLaneEnWrite (value : Nat) (s : State) : Host.Outcome State Fault Refusal :=
  done (s.when s.hubUp fun s => s.cmdWrite 0 fun s => s.writeGuardCtrl value)

/-! ### Comparators (R461 to R463) -/

/-- A level lies outside the window. -/
def outside (level : Nat) : Bool := level != 0

/-- A comparator trips or releases; a new trip is a wake event. -/
def State.cmpOut (s : State) (c : Nat) (trip : Bool) : State :=
  let x := s.cmp c
  let s1 := s.setCmp c { x with at_ := 0, trip := trip }
  let s2 := (s1.wr R.GUARD_CMP_STATE_TRIP (putBit (s1.rd R.GUARD_CMP_STATE_TRIP) c trip)).orStage
  if trip && !x.trip then s2.wake 6 c else s2

/-- The comparator's present level takes effect as a trip or a release. -/
def State.cmpEffect (s : State) (c : Nat) : State :=
  s.cmpOut c (s.flag (R.GUARD_CMP_CFG_ENABLE c) && (outside (s.cmp c).level != s.flag (R.GUARD_CMP_CFG_POLARITY c)))

/-- Crosstalk from an over-range input of comparator `c`: another comparator without DEGLITCH may read wrong for up to 20 ns, and then
settles; a free value says which do (R462; log entry 30). -/
def State.crosstalk (s : State) (c : Nat) : State :=
  (upTo 8 fun k => k != c && bit s.drawn k && s.flag (R.GUARD_CMP_CFG_ENABLE k) && !s.flag (R.GUARD_CMP_CFG_DEGLITCH k)
    && (s.cmp k).at_ == 0).foldl (fun (a : State) k => (a.cmpOut k (!(a.cmp k).trip)).cmpEffect k) (s.skip 1)

/-- COMPARATOR_TRIP: the input of comparator `c` comes to `vin`; what it reads takes effect 20 ns later with DEGLITCH, and 100 ns
later after an over-range input (R461, R462). -/
def State.cmpInput (s : State) (c vin : Nat) : State :=
  let x := s.cmp c
  let level := s.levelAt c vin
  let wait := (if x.level = 3 ∧ level ≠ 3 then 100 else 0) + (if s.flag (R.GUARD_CMP_CFG_DEGLITCH c) then 20 else 0)
  let s1 := (s.setCmp c { x with vin := vin, level := level, at_ := if wait = 0 then 0 else s.now + wait + 1 }).wr
    R.GUARD_CMP_STATE_CMP_OVR (putBit (s.rd R.GUARD_CMP_STATE_CMP_OVR) c (level == 3))
  let s2 := if wait = 0 then s1.cmpEffect c else s1
  if level = 3 ∧ x.level ≠ 3 then s2.crosstalk c else s2

/-- COMPARATOR_TRIP (R461). -/
def execComparatorTrip (c vin : Nat) (s : State) : Host.Outcome State Fault Refusal :=
  unit (decide (c < 8)) (s.when (s.power.st != .off) fun s => s.cmpInput c vin)

/-- COMPARATOR_DEGLITCH: the condition has held long enough (R461). -/
def State.cmpHeld (s : State) (c : Nat) : State :=
  let x := s.cmp c
  if x.at_ ≠ 0 ∧ x.at_ ≤ s.now + 1 then s.cmpEffect c else s

/-- COMPARATOR_DEGLITCH (R461). -/
def execComparatorDeglitch (c : Nat) (s : State) : Host.Outcome State Fault Refusal :=
  unit (decide (c < 8)) (s.when (s.power.st != .off) fun s => s.cmpHeld c)

/-- The comparator reads its input anew, with the codes in force. -/
def State.cmpReread (s : State) (c : Nat) : State := s.setCmp c { s.cmp c with level := s.levelAt c (s.cmp c).vin }

/-- A write of GUARD.CMP_CFG: a new LO or HI takes effect, and one that changes neither leaves the comparator untouched (R648). -/
def State.writeCmpCfg (s : State) (c v : Nat) : State :=
  let s1 := s.setWord (R.GUARD_CMP_CFG_HI c).key (v &&& 0xFFFFFF07)
  let same := s1.rd (R.GUARD_CMP_CFG_LO c) = s.rd (R.GUARD_CMP_CFG_LO c) ∧ s1.rd (R.GUARD_CMP_CFG_HI c) = s.rd (R.GUARD_CMP_CFG_HI c)
  let s2 := if same then s1 else s1.cmpReread c
  if (s.cmp c).at_ = 0 then s2.cmpEffect c else s2

/-- CMP_CFG_WRITE (R648). -/
def execCmpCfgWrite (c value : Nat) (s : State) : Host.Outcome State Fault Refusal :=
  unit (decide (c < 8)) (s.when s.hubUp fun s => s.cmdWrite 0 fun s => s.writeCmpCfg c value)

/-- A write of GUARD.LATCHED: the bits written 1 clear, and set again where the stop still holds (R458). -/
def State.writeLatched (s : State) (v : Nat) : State :=
  (s.wr R.GUARD_LATCHED_LATCHED (s.rd R.GUARD_LATCHED_LATCHED &&& (0xFF - v % 256))).orStage

/-- LATCHED_CLEAR (R458). -/
def execLatchedClear (value : Nat) (s : State) : Host.Outcome State Fault Refusal :=
  done (s.when s.hubUp fun s => s.cmdWrite 0 fun s => s.writeLatched value)

/-! ### The guard port (R464, R465) -/

/-- GUARD_PORT_LATCH: GP_OE_n is low and GP_A is `a`; while the domain is down GP_D floats. -/
def State.portLatch (s : State) (a : Nat) : State :=
  { s with guard := { s.guard with
    gpA := a % 64, gpOeLow := true, gpD := if s.guard.up then some (s.portWord (a % 64)) else none } }

/-- GUARD_PORT_LATCH (R465). -/
def execGuardPortLatch (a : Nat) (s : State) : Host.Outcome State Fault Refusal := done (s.portLatch a)

/-- GP_OE_N_RISE (R465). -/
def execGpOeNRise (s : State) : Host.Outcome State Fault Refusal :=
  done { s with guard := { s.guard with gpOeLow := false, gpD := none } }

/-! ### Backups (R468, R474) -/

/-- Backup of a lane. -/
def State.backup (s : State) (l : Nat) : Backup := Tab.get (fun _ => Backup.init) s.guard.backups l

/-- Replace it. -/
def State.setBackup (s : State) (l : Nat) (b : Backup) : State :=
  { s with guard := { s.guard with backups := Tab.put (fun _ => Backup.init) s.guard.backups l b } }

/-- A lane's configuration and periphery as its backup holds them: keys within the lane. -/
def State.saveLane (s : State) (l : Nat) (ok : Bool) : State :=
  let lo := (nEngines + l * 4) * 0x10000
  let b := s.backup l
  s.setBackup l { b with
    valid := ok
    config := (s.guard.config.filter fun p => p.1 / 4096 == l).map fun p => (p.1 % 4096, p.2)
    peri := (s.arr.peri.filter fun p => decide (lo ≤ p.1 ∧ p.1 < lo + 0x40000)).map fun p => (p.1 - lo, p.2) }

/-- Restore them. -/
def State.loadLane (s : State) (l : Nat) : State :=
  let lo := (nEngines + l * 4) * 0x10000
  let b := s.backup l
  let rest := Tab.clearKeys (fun k => k / 4096 == l) s.guard.config
  let cfg := b.config.foldl (fun t p => Tab.put (fun _ => 0) t (l * 4096 + p.1) p.2) rest
  let kept := Tab.clearKeys (fun k => decide (lo ≤ k ∧ k < lo + 0x40000)) s.arr.peri
  let peri := b.peri.foldl (fun t p => Tab.put periDflt t (lo + p.1) p.2) kept
  let s1 : State := { s with guard := { s.guard with config := cfg }, arr := { s.arr with peri := peri } }
  s1.modLane l fun x => { x with loaded := true }

/-- Keys of the registers that the backup header holds: CTRL, OUT_CFG, LANE_CFG0 and 1, CMP_CFG (R474). -/
def headerKeys : List Nat :=
  [0xE0000, 0xE0064] ++ ((List.range 16).flatMap fun l => [0xE0080 + 8 * l, 0xE0084 + 8 * l])
    ++ (List.range 8).map fun c => 0xE0200 + 4 * c

/-- A header word, as it was saved. -/
def State.headerWord (s : State) (k : Nat) : Nat := Tab.get (fun _ => 0) s.guard.header k

/-- The global settings are saved. -/
def State.saveHeader (s : State) (ok : Bool) : State :=
  { s with guard := { s.guard with
    headerOk := ok
    header := headerKeys.foldl (fun t k => Tab.put (fun _ => 0) t k (s.word k)) [] } }

/-- The saved global settings are loaded, with the lanes and ARM of GUARD.CTRL last (R468). -/
def State.loadHeader (s : State) : State :=
  let s1 := (headerKeys.drop 1).foldl (fun a k => a.setWord k (s.headerWord k)) s
  let c := s.headerWord 0xE0000
  let s2 := (List.range 8).foldl (fun a c => (a.cmpReread c).cmpEffect c) s1
  let s3 := ((s2.setFlag R.GUARD_CTRL_GUARD_IN_DEEP (bit c 30)).setFlag R.GUARD_CTRL_GUARD_HOLD (bit c 29)).setFlag
    R.GUARD_CTRL_AUTO_LOAD (bit c 28)
  let s4 := (upTo 16 fun l => bit c l).foldl (fun a l => a.laneOn l) s3
  (if bit c 31 then s4.setFlag R.GUARD_CTRL_ARM true else s4).orStage

/-- AUTO_LOAD for a domain that has come up: the backup header's after a cold reset or OFF, else the retained one (R468). -/
def State.autoLoad (s : State) : Bool :=
  if s.guard.cold then s.guard.headerOk && bit (s.headerWord 0xE0000) 28 else s.flag R.GUARD_CTRL_AUTO_LOAD

/-! ### Lane commands (R474, R475) -/

/-- Engines of a lane whose backup section is there: engine and section. -/
def State.laneSections (s : State) (l : Nat) : List (Nat × List Nat) :=
  (List.range 4).filterMap fun e => ((s.backup l).sections.getD e none).map fun c => (e, c)

/-- Failed or pending columns of a guard engine. -/
def State.guardBad (s : State) (l e : Nat) : List (Nat × Nat) := (s.deck (guardEngine l e) 0).badCols

/-- What ends a lane command before it begins; 0 = nothing. -/
def State.laneCmdStatus (s : State) (op l : Nat) : Nat :=
  let has := fun e => ((s.backup l).sections.getD e none).isSome
  if op = 0 ∨ 5 < op then St.descInvalid
  else if 2 ≤ op ∧ op ≤ 4 ∧ (s.lane l).on then St.guardLaneActive
  else if op = 2 ∧ !(s.backup l).valid then St.guardBackupInvalid
  else if op = 3 ∧ (s.laneSections l).isEmpty then St.guardBackupInvalid
  else if op = 4 ∧ (List.range 4).any (fun e => !(s.guardBad l e).isEmpty && !has e) then St.guardBackupInvalid
  else St.ok

/-- RESTORE_DECKS claims a deck (R171, R172). -/
def State.restoreClaim (s : State) (l e : Nat) (sec : List Nat) : State :=
  let s1 := (s.modDeck (guardEngine l e) 0 fun d => d.claim 5 true (sec.take 0x440)).mirrorDeck (guardEngine l e) 0
  { s1 with guard := { s1.guard with claimed := some e } }

/-- RESTORE_DECKS claims the first deck it reprograms once no other guard engine programs and V_PROG is in its range (R151, R154). -/
def State.restoreTry (s : State) (l : Nat) : State :=
  match s.laneSections l with
  | [] => s
  | x :: _ =>
    if s.guard.claimed.isNone && s.arr.vprogOk && !s.progEngines.any isGuard && s.engineFree (guardEngine l x.1) then
      s.restoreClaim l x.1 x.2
    else s

/-- The darns of DARN begin: pending columns go on, failed ones take a spare (R189). -/
def State.darnStart (s : State) (l : Nat) : State :=
  (s.laneSections l).foldl (fun (a : State) x =>
    let g := guardEngine l x.1
    let cols := ((a.deck g 0).badCols.filter fun c => c.2 == 1).map Prod.fst
    (a.resumeDarns g 0 x.2).darnColumns g 0 cols none (some x.2) false) s

/-- The lane command of GUARD.LANE_CMD starts. -/
def State.laneCmdRun (s : State) (op l : Nat) : State :=
  let st := s.laneCmdStatus op l
  if st ≠ St.ok then s.laneCmdEnd st
  else
    let s1 : State := { s with guard := { s.guard with cmd := some (op, l) } }
    if op = 3 then s1.restoreTry l else if op = 4 then s1.darnStart l else s1

/-! ### The load at the domain's rise (R468) -/

/-- GUARD_LOAD: the guard plane is loaded from its backups, and a command cut short by the domain's fall
runs again (R468, R476). -/
def State.guardLoad (s : State) : State :=
  if s.flag R.GUARD_STATUS_LOADED || !s.autoLoad then s
  else
    let s1 := (List.range 16).foldl (fun (a : State) l =>
      if (a.backup l).valid then a.loadLane l else a.raise Rc.guardLoadFail deviceClass noOwner l 0) s
    let s2 := (if s1.guard.headerOk then s1.loadHeader else s1).setFlag R.GUARD_STATUS_LOADED true
    match s2.guard.again with
    | some c => ({ s2 with guard := { s2.guard with again := none } } : State).laneCmdRun c.1 c.2
    | none => s2

/-- GUARD_LOAD (R468). -/
def execGuardLoad (s : State) : Host.Outcome State Fault Refusal := done (s.when (s.guard.up && s.hubUp) State.guardLoad)

/-- GO written to GUARD.LANE_CMD: ignored while one runs; it waits for a control processor that restarts (R474, R609). -/
def State.laneGo (s : State) (op l : Nat) : State :=
  if s.flag R.GUARD_LANE_RESULT_BUSY || !s.guard.up then s
  else
    let s1 := s.setFlag R.GUARD_LANE_RESULT_BUSY true
    if s.fwUp then s1.laneCmdRun op l
    else { s1 with rings := { s1.rings with fwWaiting := s1.rings.fwWaiting ++ [(R.GUARD_LANE_CMD_GO.key, l * 256 + op)] } }

/-- A write of GUARD.LANE_CMD that starts an operation, while the hub serves accesses. -/
def State.laneCmd (s : State) (op l : Nat) : State := s.when s.hubUp fun s => s.cmdWrite 0 fun s =>
  s.overPort 0xE0300 (2 ^ 31 + l * 256 + op) fun s => s.laneGo op l

/-- SAVE (R474). -/
def execSave (l : Nat) (s : State) : Host.Outcome State Fault Refusal := unit (decide (l < 16)) (s.laneCmd 1 l)
/-- LOAD (R474). -/
def execLoad (l : Nat) (s : State) : Host.Outcome State Fault Refusal := unit (decide (l < 16)) (s.laneCmd 2 l)
/-- RESTORE_DECKS (R474). -/
def execRestoreDecks (l : Nat) (s : State) : Host.Outcome State Fault Refusal := unit (decide (l < 16)) (s.laneCmd 3 l)
/-- DARN (R474). -/
def execDarn (l : Nat) (s : State) : Host.Outcome State Fault Refusal := unit (decide (l < 16)) (s.laneCmd 4 l)
/-- SAVE_GLOBAL (R474). -/
def execSaveGlobal (s : State) : Host.Outcome State Fault Refusal := done (s.laneCmd 5 0)

/-- A deck holds the cells of a section, in the columns that deliver (R148). -/
def State.fillDeck (s : State) (g : Nat) (sec : List Nat) : State :=
  (List.range 512).foldl (fun (a : State) i =>
    a.placeRow g 0 i ((List.range 528).map fun c => ((a.deck g 0).home c, cellTarget sec i c))) s

/-- RESTORE_DECKS has programmed the deck it claimed: the deck is calibrated and PBO is set (R166, R474). DESIGN CHOICE (log entry 22): R169
names only COMMIT of a descriptor, and R474 does not say whether a restored deck has its PBO; it has. -/
def State.restoreDeck (s : State) (l e : Nat) (sec : List Nat) : State :=
  let g := guardEngine l e
  let s1 := ((s.fillDeck g sec).modDeck g 0 fun d => { d.clearPending with pbo := true }).mirrorDeck g 0
  let r := s1.calibrate g 0 none
  r.1.localise g 0 r.2 none (some sec)

/-- The deck that RESTORE_DECKS has claimed is done, and the other decks follow one at a time (R154). -/
def State.restoreAll (s : State) (l : Nat) : State :=
  (s.laneSections l).foldl (fun (a : State) x =>
    ((if a.guard.claimed == some x.1 then a else a.restoreClaim l x.1 x.2).restoreDeck l x.1 x.2)) s

/-- Darns run on engines of the lane. -/
def State.laneDarns (s : State) (l : Nat) : Bool := s.arr.darns.any fun x => decide (isGuard x.engine ∧ (x.engine - nEngines) / 4 = l)

/-- What a lane command has done when it ends with `status`, 0 = as it should. -/
def State.laneCmdDone (s : State) (status : Nat) : State :=
  let ok := status = 0
  match s.guard.cmd with
  | none => s
  | some (1, l) => (s.saveLane l ok).laneCmdEnd (if ok then St.ok else St.guardBackupWriteFail)
  | some (2, l) => if ok then (s.loadLane l).laneCmdEnd St.ok else s.laneCmdEnd St.guardBackupInvalid
  | some (3, l) =>
    let s1 := s.restoreTry l
    if s1.guard.claimed.isNone then s1
    else if ok then (if s1.arr.vprogOk then (s1.restoreAll l).laneCmdEnd St.ok else s1)
    else s.laneCmdEnd (if status = St.vprogFault then St.vprogFault else St.programVerifyFail)
  | some (4, l) => if s.laneDarns l then s else s.laneCmdEnd St.ok
  | some (_, _) => (s.saveHeader ok).laneCmdEnd (if ok then St.ok else St.guardBackupWriteFail)

/-- LANE_CMD_END (R474). -/
def execLaneCmdEnd (status : Nat) (s : State) : Host.Outcome State Fault Refusal :=
  done (s.when (s.hubUp && s.guard.up) fun s => s.laneCmdDone status)

end Sys2Proof.Machine
end

