-- ==== Sys2Proof/Machine/Camera.lean ====
section
/-!
DEFINITION. Camera and depth streams: the meanings of STREAM_BIND and of the packets, ends, timeouts and link errors of the
CSI-2 receivers (R399, R477 to R487). The `hdr` of a packet says how its header's ECC came out: 0 = clean, 1 = corrected,
2 = uncorrectable.
-/

namespace Sys2Proof.Machine

/-! ### Contexts -/

/-- Context `c`, when bound. -/
def State.ctx? (s : State) (c : Nat) : Option Ctx := (s.csi.ctxs.find? fun x => x.1 == c).map Prod.snd

/-- Change a context. -/
def State.modCtx (s : State) (c : Nat) (f : Ctx → Ctx) : State :=
  { s with csi := ⟨s.csi.ctxs.map fun x => if x.1 == c then (c, f x.2) else x⟩ }

/-- Contexts that meet a test, by number. -/
def State.ctxsOf (s : State) (p : Ctx → Bool) : List Nat := (s.csi.ctxs.filter fun x => p x.2).map Prod.fst

/-- STATUS bits of a slot header (R484). -/
def fIncomplete : Nat := 1
/-- See `fIncomplete`. -/
def fOverlong : Nat := 2
/-- See `fIncomplete`. -/
def fLongLine : Nat := 3
/-- See `fIncomplete`. -/
def fCrcErr : Nat := 4
/-- See `fIncomplete`. -/
def fHdrLost : Nat := 5
/-- See `fIncomplete`. -/
def fLinkErr : Nat := 6
/-- See `fIncomplete`. -/
def fTimeout : Nat := 7

/-- A frame of the context is open and takes lines. -/
def Ctx.takes (x : Ctx) : Bool := x.open_ && !x.closing

/-- Offset in the buffer of the slot of frame `n` (R482). -/
def Ctx.slotAt (x : Ctx) (n : Nat) : Nat := (n + 2 ^ 32 - 1) % 2 ^ 32 % x.slots * x.slotBytes

/-- The 64 bytes of a slot header (R484). -/
def Ctx.header (c : Nat) (x : Ctx) : List Nat :=
  leBytes 4 x.seq ++ leBytes 2 x.frameNum ++ leBytes 2 x.status ++ leBytes 8 x.tsStart ++ leBytes 8 x.tsEnd ++ leBytes 4 x.bytes
    ++ leBytes 4 x.lines ++ leBytes 2 (min x.crcLines 0xFFFF) ++ leBytes 2 (min x.eccFixed 0xFFFF) ++ [c, x.vc, x.dt, 0]
    ++ leBytes 4 x.stride ++ List.replicate 20 0

/-! ### Closing (R484, R486) -/

/-- An open frame begins to close, with STATUS bits. -/
def Ctx.close (x : Ctx) (now : Nat) (bits : List Nat) : Ctx :=
  { x with closing := true, tsEnd := now, status := bits.foldl (fun m b => putBit m b true) x.status }

/-- The header of a closing frame is written; then the peg, the vector and CTX_FRAMES (R484). -/
def State.closeFrame (s : State) (c : Nat) : State :=
  match s.ctx? c with
  | none => s
  | some x =>
    if !(x.open_ && x.closing) then s
    else
      let y := { x with status := putBit x.status 0 false }
      let s1 := (s.t2Write x.inst x.handle (x.slotAt x.seq) (y.header c)).1
      let s2 := s1.modCtx c fun z => { z with open_ := false, closing := false }
      let s3 := match x.pegAlias with
        | some a => s2.aliasTake x.inst a 0 8 1 false
        | none => s2
      let s4 := if s3.flag (R.INST_STATUS_CTX_CTRL_MSIX_EN x.inst c) then
        s3.msix x.inst (s3.rd (R.INST_STATUS_CTX_CTRL_VECTOR x.inst c)) else s3
      (s4.wr (R.INST_STATUS_CTX_FRAMES_COUNT x.inst c) x.seq).wr (R.SENSOR_CTX_VIEW_FRAMES c) x.seq

/-- An open frame is closed as INCOMPLETE and counted (R486). -/
def State.cutFrame (s : State) (c : Nat) (bits : List Nat) : State :=
  match s.ctx? c with
  | none => s
  | some x =>
    if x.takes then
      (s.modCtx c fun y => y.close s.now (fIncomplete :: bits)).bump (R.INST_STATUS_CTX_ERR_INCOMPLETE x.inst c) 1
    else s

/-- Any open frame of a context is cut and closed now. -/
def State.endFrame (s : State) (c : Nat) : State := (s.cutFrame c []).closeFrame c

/-- Every open frame is closed, INCOMPLETE where no Frame End has come: before an entry below IDLE closes the hem of HBM (R486, log
entry 48). -/
def State.closeFrames (s : State) : State := (s.ctxsOf fun x => x.open_).foldl State.endFrame s

/-- FRAME_CLOSE (R484). -/
def execFrameClose (c : Nat) (s : State) : Host.Outcome State Fault Refusal :=
  unit (decide (c < 16)) (s.when s.hubUp fun s => s.closeFrame c)

/-! ### STREAM_BIND (R399, R479, R480) -/

/-- The context is unbound. -/
def State.unbindCtx (s : State) (c : Nat) : State :=
  let s1 := s.endFrame c
  ({ s1 with csi := ⟨s1.csi.ctxs.filter fun x => x.1 != c⟩ } : State).resetRegs fun k => k / 8 == 0xD1000 / 8 + c

/-- The binding that a descriptor asks for. -/
def newCtx (d : Desc) : Ctx where
  inst := d.inst
  port := u8At d.bytes 0x12
  vc := u8At d.bytes 0x13
  dt := u8At d.bytes 0x14
  slots := u8At d.bytes 0x15
  handle := u32At d.bytes 0x18
  slotBytes := u32At d.bytes 0x1C
  pegAlias := if bit (u8At d.bytes 0x16) 0 then some (u8At d.bytes 0x17) else none
  seq := 0
  open_ := false
  closing := false
  frameNum := 0
  status := 0
  tsStart := 0
  tsEnd := 0
  bytes := 0
  lines := 0
  crcLines := 0
  eccFixed := 0
  stride := 0
  next := 0
  full := false

/-- What ends a STREAM_BIND before it has effect; 0 = nothing (R399, R479). -/
def State.bindStatus (s : State) (d : Desc) : Nat :=
  let c := u8At d.bytes 0x10
  let x := newCtx d
  let other := match s.ctx? c with
    | some y => y.inst != d.inst
    | none => false
  if u8At d.bytes 0x11 = 1 then (if other || (s.ctx? c).isNone then St.streamBusy else St.ok)
  else if other then St.streamBusy
  else if x.dt < 0x10 ∨ s.csi.ctxs.any (fun y => y.1 != c && y.2.port == x.port && y.2.vc == x.vc && y.2.dt == x.dt) then
    St.streamArgInvalid
  else if !s.inBuffer d.inst 2 x.handle 0 (x.slots * x.slotBytes) then St.descRange
  else St.ok

/-- The context's view for the management instance (SENSOR.CTX_VIEW). -/
def State.viewCtx (s : State) (c : Nat) (x : Ctx) : State :=
  (((s.wr (R.SENSOR_CTX_VIEW_INSTANCE c) x.inst).wr (R.SENSOR_CTX_VIEW_PORT c) x.port).wr (R.SENSOR_CTX_VIEW_VC c) x.vc).wr
    (R.SENSOR_CTX_VIEW_DT c) x.dt

/-- STREAM_BIND binds or unbinds a context. -/
def State.streamBind (s : State) (d : Desc) : State :=
  let c := u8At d.bytes 0x10
  let st := s.bindStatus d
  if st ≠ St.ok then s.complete d.uid st 0
  else
    let s1 := s.unbindCtx c
    if u8At d.bytes 0x11 = 1 then s1.complete d.uid St.ok 0
    else
      let s2 : State := { s1 with csi := ⟨s1.csi.ctxs ++ [(c, newCtx d)]⟩ }
      let k := (R.INST_STATUS_CTX_FRAMES_COUNT d.inst c).key
      let s3 := s2.resetRegs fun n => n == k - 4 || n == k || n == k + 4
      (s3.viewCtx c (newCtx d)).complete d.uid St.ok 0

/-- STREAM_BIND (R399). -/
def execStreamBind (f w : Nat) (s : State) : Host.Outcome State Fault Refusal :=
  unit (ringOk f w) (s.onDesc f w 0x0F fun s d => s.streamBind d)

/-! ### Packets (R478, R481 to R486) -/

/-- A receiver runs (R478, CSI_CFG.LANES). -/
def State.receiving (s : State) (p : Nat) : Bool :=
  let n := s.rd (R.SENSOR_CSI_CFG_LANES p)
  s.hubUp && (s.power.st == .run || s.power.st == .idle) && s.flag (R.SENSOR_CSI_CFG_ENABLE p) && (n == 1 || n == 2 || n == 4)

/-- A packet header is corrected: counted for the port, and for the frames of contexts it belongs to. -/
def State.eccFixed (s : State) (p : Nat) (mine : Ctx → Bool) : State :=
  (s.ctxsOf fun x => x.takes && mine x).foldl (fun a c => a.modCtx c fun x => { x with eccFixed := x.eccFixed + 1 })
    (s.bump (R.SENSOR_CSI_ERR_COUNT p 0) 1)

/-- A packet header is lost with its packet: the port counts it, and its open frames are flagged. -/
def State.hdrLost (s : State) (p : Nat) : State :=
  (s.ctxsOf fun x => x.takes && x.port == p).foldl (fun a c => a.modCtx c fun x => { x with status := putBit x.status fHdrLost true })
    (s.bump (R.SENSOR_CSI_ERR_COUNT p 1) 1)

/-- The port's clock runs and its lanes are in step; a clock that begins is measured, at a free rate of R477 (log entry 31). -/
def State.csiAlive (s : State) (p : Nat) : State :=
  let s1 := if s.flag (R.SENSOR_CSI_STATUS_CLK p) then s else (s.skip 1).wr (R.SENSOR_CSI_STATUS_RATE p) (80 + s.drawn % 4421)
  (s1.setFlag (R.SENSOR_CSI_STATUS_CLK p) true).setFlag (R.SENSOR_CSI_STATUS_SYNCED p) true

/-- A frame of a context begins: it takes a slot, or is dropped whole (R482 to R484). During an entry below IDLE none begins
(R486). -/
def State.beginFrame (s : State) (c num : Nat) (fixed : Bool) : State :=
  match s.ctx? c with
  | none => s
  | some x =>
    if s.power.closed.contains 8 then s else
    let n := (x.seq + 1) % 2 ^ 32
    let waiting := (n + 2 ^ 32 - 1 + 2 ^ 32 - s.rd (R.INST_STATUS_CTX_RELEASE_COUNT x.inst c)) % 2 ^ 32
    if !s.flag (R.INST_STATUS_CTX_CTRL_OVERWRITE x.inst c) && decide (x.slots ≤ waiting) then
      s.bump (R.INST_STATUS_CTX_ERR_DROPPED x.inst c) 1
    else
      let y := { x with
        seq := n, open_ := true, closing := false, frameNum := num % 65536, status := 1, tsStart := s.now, tsEnd := 0
        bytes := 0, lines := 0, crcLines := 0, eccFixed := b2n fixed
        stride := 64 * s.rd (R.INST_STATUS_CTX_CTRL_STRIDE x.inst c), next := 0x40, full := false }
      ((s.t2Write x.inst x.handle (y.slotAt n) (leBytes 4 n)).1.t2Write x.inst x.handle (y.slotAt n + 6) [1, 0]).1.modCtx c fun _ => y

/-- FRAME_START: every context of the virtual channel closes the frame it has open and begins a new one (R481, R486). -/
def State.frameStart (s : State) (p vc num hdr : Nat) : State :=
  let s1 := s.csiAlive p
  if 2 ≤ hdr then s1.hdrLost p
  else
    let cs := s1.ctxsOf fun x => x.port == p && x.vc == vc
    let s2 := cs.foldl (fun a c => a.endFrame c) s1
    let s3 := if hdr = 1 then s2.bump (R.SENSOR_CSI_ERR_COUNT p 0) 1 else s2
    cs.foldl (fun a c => a.beginFrame c num (hdr == 1)) s3

/-- FRAME_START (R481). -/
def execFrameStart (p vc num hdr : Nat) (s : State) : Host.Outcome State Fault Refusal :=
  unit (decide (p < 8 ∧ vc < 16)) (s.when (s.receiving p) fun s => s.frameStart p vc num hdr)

/-- Zero bytes from the end of a payload to the next 64-byte boundary (R482). -/
def padLine (bs : List Nat) : List Nat := bs ++ List.replicate ((64 - bs.length % 64) % 64) 0

/-- A line of a context: stored at its place, cut to LINE_STRIDE, or discarded with all later lines (R482, R486). -/
def State.storeLine (s : State) (c : Nat) (bs : List Nat) (crcBad : Bool) : State :=
  match s.ctx? c with
  | none => s
  | some x =>
    if x.full then s
    else
      let kept := if x.stride = 0 then bs else bs.take x.stride
      let o := if x.stride = 0 then x.next else 0x40 + x.lines * x.stride
      if x.slotBytes < o + kept.length then
        (s.modCtx c fun y => { y with full := true, status := putBit y.status fOverlong true }).bump
          (R.INST_STATUS_CTX_ERR_OVERLONG x.inst c) 1
      else
        let s1 := (s.t2Write x.inst x.handle (x.slotAt x.seq + o) (padLine kept)).1
        s1.modCtx c fun y =>
          let st := if kept.length < bs.length then putBit y.status fLongLine true else y.status
          { y with
            status := if crcBad then putBit st fCrcErr true else st
            crcLines := y.crcLines + b2n crcBad
            lines := y.lines + 1
            bytes := y.bytes + kept.length
            next := o + (padLine kept).length }

/-- LONG_PACKET: a line of the context bound to its port, virtual channel and data type. -/
def State.longPacket (s : State) (p vc dt : Nat) (bs : List Nat) (crcBad : Bool) (hdr : Nat) : State :=
  let mine := fun (x : Ctx) => x.port == p && x.vc == vc && x.dt == dt
  if 2 ≤ hdr then s.hdrLost p
  else
    let s1 := if hdr = 1 then s.eccFixed p mine else s
    (s1.ctxsOf fun x => x.takes && mine x).foldl (fun a c => a.storeLine c bs crcBad) s1

/-- LONG_PACKET (R482). -/
def execLongPacket (p vc dt : Nat) (bytes : List Nat) (crcBad : Bool) (hdr : Nat) (s : State) :
    Host.Outcome State Fault Refusal :=
  unit (decide (p < 8 ∧ vc < 16)) (s.when (s.receiving p) fun s => s.longPacket p vc dt bytes crcBad hdr)

/-- FRAME_END: the frames open on the virtual channel begin to close; with none it is ignored and counted (R481, R486). -/
def State.frameEnd (s : State) (p vc hdr : Nat) : State :=
  if 2 ≤ hdr then s.hdrLost p
  else
    let mine := fun (x : Ctx) => x.port == p && x.vc == vc
    let s1 := if hdr = 1 then s.eccFixed p mine else s
    let cs := s1.ctxsOf fun x => x.takes && mine x
    if cs.isEmpty then s1.bump (R.SENSOR_CSI_ERR_COUNT p 2) 1
    else cs.foldl (fun a c => a.modCtx c fun x => x.close s.now []) s1

/-- FRAME_END (R481). The frame number of a Frame End is not used. -/
def execFrameEnd (p vc _num hdr : Nat) (s : State) : Host.Outcome State Fault Refusal :=
  unit (decide (p < 8 ∧ vc < 16)) (s.when (s.receiving p) fun s => s.frameEnd p vc hdr)

/-- FRAME_TIMEOUT of a context in ns (CTX_CTRL). -/
def State.frameLimit (s : State) (i c : Nat) : Nat :=
  let t := s.rd (R.INST_STATUS_CTX_CTRL_FRAME_TIMEOUT i c)
  (if t = 0 then 1000 else t) * 1000000

/-- FRAME_TIMEOUT: no Frame End in time (R486). -/
def State.frameTimeout (s : State) (c : Nat) : State :=
  match s.ctx? c with
  | none => s
  | some x => if x.takes && decide (x.tsStart + s.frameLimit x.inst c ≤ s.now) then s.cutFrame c [fTimeout] else s

/-- FRAME_TIMEOUT (R486). -/
def execFrameTimeout (c : Nat) (s : State) : Host.Outcome State Fault Refusal :=
  unit (decide (c < 16)) (s.when s.hubUp fun s => s.frameTimeout c)

/-- CSI_LINK_ERROR: a start-of-transmission sync error (`kind` 0) or the loss of the clock lane; open frames close at the error
(R486). -/
def State.linkError (s : State) (p kind : Nat) : State :=
  let s1 := s.setFlag (if kind = 0 then R.SENSOR_CSI_STATUS_SYNCED p else R.SENSOR_CSI_STATUS_CLK p) false
  let cs := s1.ctxsOf fun x => x.takes && x.port == p
  if cs.isEmpty then s1
  else cs.foldl (fun a c => a.modCtx c fun x => x.close s.now [fIncomplete, fLinkErr]) (s1.bump (R.SENSOR_CSI_ERR_COUNT p 3) 1)

/-- CSI_LINK_ERROR (R486). -/
def execCsiLinkError (p kind : Nat) (s : State) : Host.Outcome State Fault Refusal :=
  unit (decide (p < 8)) (s.when (s.receiving p) fun s => s.linkError p kind)

end Sys2Proof.Machine
end

