-- ==== Sys2Proof/Machine/VoltOps.lean ====
section
/-!
DEFINITION. Voltage control's own operations: the voltage table, the rails' registers, and the order in which changes are sent
(R508 to R515).
-/

namespace Sys2Proof.Machine

/-! ### The table (R511, R512, R658) -/

/-- Millivolts of V-point `k` of rail `r` in the table in force. -/
def State.mv (s : State) (r k : Nat) : Nat :=
  match s.volt.src with
  | 0 => Tab.get otpTypical s.volt.otp (r * 16 + k)
  | 1 => Tab.get otpTypical s.volt.copy (r * 16 + k)
  | _ => 750

/-- Token rate in M tokens/s at a voltage of a typical part: the curve of R33. -/
def typicalRate (mv : Nat) : Nat := if mv ≤ 750 then 1100 + (mv - 600) * 700 / 150 else 1800 + (mv - 750) * 4

/-- The word of VOLT.VTABLE. -/
def State.vtableWord (s : State) (r k : Nat) : Nat :=
  (if s.volt.src < 2 then typicalRate (s.mv r k) else 0) * 65536 + s.mv r k

/-! ### Rails (R303, R508, R515) -/

/-- V-point acknowledged. -/
def State.acked (s : State) (r : Nat) : Nat := s.rd (R.VOLT_RAIL_ACKED r)
/-- V-point being carried out. -/
def State.target (s : State) (r : Nat) : Nat := s.rd (R.VOLT_RAIL_TARGET r)
/-- VOLT.RAIL.STATE: 0 = settled, 1 = moving, 2 = UNKNOWN, 3 = LOST. -/
def State.railState (s : State) (r : Nat) : Nat := s.rd (R.VOLT_RAIL_STATE r)
/-- Bus of a rail: 0 = AVS_A, 1 = AVS_B. -/
def busOf (r : Nat) : Nat := if r < 8 then 0 else 1
/-- Select of a rail on its bus. -/
def selectOf (r : Nat) : Nat := if r < 8 then r else 0
/-- The LOST bit of a bus. -/
def lostBit (b : Nat) : RField := if b = 0 then R.VOLT_STATUS_LOST_A else R.VOLT_STATUS_LOST_B
/-- A bus is lost. -/
def State.busLost (s : State) (b : Nat) : Bool := s.flag (lostBit b)
/-- A rail supplies something: V_HUB, or the V_CORE of a die the device has (IDENT.CAPS0). -/
def State.railPresent (s : State) (r : Nat) : Bool := r == 8 || bit (s.rd R.IDENT_CAPS0_DIE_MASK) r

/-- Rails that share a crossing with a rail: V_HUB with every die, and neighbouring dies (R302). -/
def State.partners (s : State) (r : Nat) : List Nat :=
  (if r = 8 then List.range 8
  else 8 :: ((if r % 4 = 0 then [] else [r - 1]) ++ if r % 4 = 3 then [] else [r + 1])).filter s.railPresent

/-- At V-point `k` the rail obeys R303 against every acknowledged value of its crossings; V_HUB against V_GUARD and V_SER, fixed at
750 mV, as well. -/
def State.pointOk (s : State) (r k : Nat) : Bool :=
  (r != 8 || decide (590 ≤ s.mv r k ∧ s.mv r k ≤ 910)) && (s.partners r).all fun p => decide (s.mv r k ≤ s.mv p (s.acked p) + 160 ∧ s.mv p (s.acked p) ≤ s.mv r k + 160)

/-- The V-point sent next: the one nearest the target that the crossings allow (R515). -/
def State.nextPoint (s : State) (r : Nat) : Option Nat :=
  let a := s.acked r
  let t := s.target r
  ((List.range (t - a)).map (fun n => t - n) ++ (List.range (a - t)).map fun n => t + n).find? fun k => s.pointOk r k

/-- `n` commands on a bus (VOLT.AVS_COUNT). -/
def State.avsCommands (s : State) (b n : Nat) : State := s.bump (R.VOLT_AVS_COUNT_COUNT (3 * b)) n

/-- One command on a bus (VOLT.AVS_COUNT). -/
def State.avsCommand (s : State) (b : Nat) : State := s.avsCommands b 1

/-- Attempts made of a rail's write under way. -/
def State.attempt (s : State) (r : Nat) : Nat := Tab.get (fun _ => 0) s.volt.attempt r

/-- Set them, with the V-point they send. -/
def State.setAttempt (s : State) (r n k : Nat) : State :=
  { s with volt := { s.volt with
    attempt := Tab.put (fun _ => 0) s.volt.attempt r n
    sent := Tab.put (fun _ => 0) s.volt.sent r (if n = 0 then 0 else k) } }

/-- A rail may move now: settled, its bus up, and no rail of its crossings moving or unknown (R515, R517). -/
def State.mayMove (s : State) (r : Nat) : Bool :=
  s.railState r == 0 && s.acked r != s.target r && !s.busLost (busOf r) && (s.partners r).all fun p => s.railState p == 0

/-- The Voltage write of a rail is sent, when it may move. -/
def State.voltStart (s : State) (r : Nat) : State :=
  if s.mayMove r then
    match s.nextPoint r with
    | some k => ((s.setAttempt r 1 k).wr (R.VOLT_RAIL_STATE r) 1).avsCommand (busOf r)
    | none => s
  else s

/-- The compute dies and V_HUB are at their set points: RUN or IDLE. -/
def State.railsUp (s : State) : Bool := s.hubUp && (s.power.st == .run || s.power.st == .idle)

/-- Every change that may start is sent, V_HUB first. -/
def State.voltGo (s : State) : State :=
  if s.railsUp && !s.legacy then (8 :: List.range 8).foldl (fun a r => a.voltStart r) s else s

/-- A rail is settled at V-point `k`. -/
def State.settle (s : State) (r k : Nat) : State :=
  ((s.setAttempt r 0 0).wr (R.VOLT_RAIL_ACKED r) k).wr (R.VOLT_RAIL_STATE r) 0

/-- Rails of a bus that VOLT.RAIL shows. -/
def busRails (b : Nat) : List Nat := if b = 0 then List.range 8 else [8]

/-- LOST of a bus clears once every rail of it is settled (R518). -/
def State.busCheck (s : State) (b : Nat) : State :=
  if s.busLost b && (busRails b).all (fun r => s.railState r == 0) then
    (s.setFlag (lostBit b) false).raise Rc.vrLinkRestored corrected noOwner b 0
  else s

/-- Every regulator has acknowledged its V-point at an exit: the last one acknowledged, so that R303 holds between all of them; what a
target asks beyond it follows at LOGIC_RDY (R303, R502, log entry 49). -/
def State.settleAll (s : State) : State :=
  let s1 := (List.range 9).foldl (fun (a : State) r => a.settle r (a.acked r)) s
  (s1.busCheck 0).busCheck 1

end Sys2Proof.Machine
end

