-- ==== Sys2Proof/Machine/PressOps.lean ====
section
/-!
DEFINITION. Press: its estimate, its limits, and the choice of V-points (R532 to R546). Currents are in mA, powers in µW or mW.

Rails of the estimate: 0–7 V_CORE, 8–15 V_ANA outputs, 16 V_HUB, 17 V_PROG, 18 and 19 V_SER, 20 to 22 V_HBM_CORE, V_HBM_IO and
V_HBM_PP, 23 V_GUARD, 24 V_IO18, 25 V_FLASH, 26 V_AON. Energies are in pJ at nominal voltage, as R532 weighs them. The model counts the
work whose events it has (`Press.work`): evaluations, Precision Engine work, tiles, cluster DMA, vector tokens, T2 accesses, programming
passes. What it has no event for comes with PRESS_TICK: 27 energies by rail (mesh and bridge tokens, lanes, fixed figures), then for
each die the slots of every 64 for which its gates had a token waiting (log entry 10).
-/

namespace Sys2Proof.Machine

/-! ### Rails of the estimate -/

/-- Gain that serves a rail (PRESS.GAIN); V_AON has none. -/
def gainOf (i : Nat) : Option Nat :=
  if i < 8 then some i else if i < 16 then some 8 else if i < 26 then some (i - 7) else none

/-- Voltage of a rail in mV (R533, R633). -/
def State.railMv (s : State) (i : Nat) : Nat :=
  if i < 8 then s.mv i (s.acked i)
  else if i < 16 then 900
  else if i = 16 then s.mv 8 (s.acked 8)
  else [3300, 750, 1200, 1100, 400, 1800, 750, 1800, 1800].getD (i - 17) 800

/-- Domain whose hottest sensor gives a rail's temperature. -/
def railDomain (i : Nat) : Nat := if i < 16 then i % 8 else if i = 23 then 9 else 8

/-- A rail is switched off. -/
def State.railOff (s : State) (i : Nat) : Bool :=
  match gainOf i with
  | some g => s.volt.off.contains g
  | none => false

/-- Slots of every 64 for which a die's gates had a token waiting. -/
def requests (a : List Nat) (d : Nat) : Nat := a.getD (27 + d) 0

/-- Engines with a programming pass running: an open burst of a target, or a darn (R532). -/
def State.passesRun (s : State) : Nat :=
  s.arr.jobs.foldl (fun n j => n + countIf (fun t => t.stage == 2 && t.burst != 0) j.targets) s.arr.darns.length

/-- The activity of a tick, from the `est` that PRESS_TICK gives and the work counted: the energy that no gate governs, by rail; the
requests, by die; the gated energy of V_CORE and V_ANA, by rail; the levels at which it was spent, by die. 5.5 mA of V_PROG
for 1 µs are 18,150 pJ. -/
def State.activity (s : State) (est : List Nat) : List Nat :=
  ((List.range 27).map fun i =>
    est.getD i 0 + Tab.get (fun _ => 0) s.press.work (32 + i) + if i = 17 then 18150 * s.passesRun else 0)
  ++ ((List.range 8).map fun d => est.getD (27 + d) 0)
  ++ ((List.range 16).map fun i => Tab.get (fun _ => 0) s.press.work i)
  ++ (List.range 8).map fun d => s.rd (R.PRESS_LEVEL_LEVEL d)

/-- Energy of a rail in a tick with its die at level `l`: the gated part in the measure in which the requests would pass (R530, R532,
R539). -/
def railEnergy (a : List Nat) (i l : Nat) : Nat :=
  let d := i % 8
  let n := min (requests a d) (a.getD (51 + d) 0)
  a.getD i 0 + (if i < 16 then (if n = 0 then a.getD (35 + i) 0 else a.getD (35 + i) 0 * min (requests a d) l / n) else 0)

/-- Dynamic current of a rail (R533); V_CORE and V_HUB scale with the square of their voltage (R532). -/
def State.railDyn (s : State) (a : List Nat) (i l : Nat) : Nat :=
  let v := s.railMv i
  let e := railEnergy a i l
  let g := match gainOf i with
    | some n => s.rd (R.PRESS_GAIN_GAIN n)
    | none => 0x4000
  if s.railOff i then 0
  else if i < 8 ∨ i = 16 then g * e * v / (16384 * 750 * 750) else g * e / (16384 * v)

/-- Leakage current of a rail. -/
def State.railLeak (s : State) (i : Nat) : Nat :=
  if s.railOff i then 0 else Config.leak i (s.railMv i) (s.hottest (railDomain i))

/-- Estimated current of a rail with its die at level `l`. -/
def State.railCurrent (s : State) (a : List Nat) (i l : Nat) : Nat := s.railDyn a i l + s.railLeak i

/-- LEVEL of a die. -/
def State.level (s : State) (d : Nat) : Nat := s.rd (R.PRESS_LEVEL_LEVEL d)

/-- Package estimate in µW with the dies at the levels that `l` gives (R533). -/
def State.packagePower (s : State) (a : List Nat) (l : Nat → Nat) : Nat :=
  (List.range 27).foldl (fun n i => n + s.railMv i * s.railCurrent a i (l (i % 8))) 0

/-- Compute dies that are up (R489, R614). -/
def State.diesUp (s : State) : List Nat :=
  if s.railsUp then upTo 8 fun d => bit (s.rd R.IDENT_CAPS0_DIE_MASK) d && !s.volt.off.contains d else []

/-! ### The cap and the windows (R536 to R538) -/

/-- CAP, within its range. -/
def State.capMw (s : State) : Nat := max 35000 (min 180000 (s.rd R.PRESS_CAP_CAP_MW))

/-- A chain budget below CAP is in force (R538, R547). -/
def State.budgeted (s : State) : Bool :=
  let b := s.rd R.PRESS_CHAIN_BUDGET_MW
  b != 0 && decide (b < s.capMw)

/-- CAP_APPLIED. -/
def State.capApplied (s : State) : Nat :=
  let c := if s.budgeted then s.rd R.PRESS_CHAIN_BUDGET_MW else s.capMw
  if s.legacy then (if 180000 ≤ c then 180000 else if 120000 ≤ c then 120000 else if 90000 ≤ c then 90000 else 60000) else c

/-- The register follows. -/
def State.showCap (s : State) : State := s.wr R.PRESS_STATUS_CAP_APPLIED s.capApplied

/-- The burst limit in mW. -/
def State.burstMw (s : State) : Nat := s.capApplied * max 100 (min 125 (s.rd R.PRESS_CAP_BURST_PCT)) / 100

/-- Ticks of the two package windows. -/
def capTicks : Nat := 1000000
/-- See `capTicks`. -/
def burstTicks : Nat := 10000

/-- Both windows restart as if the cap had been drawn throughout them (R537). -/
def State.restartWindows (s : State) : State :=
  let s1 := s.showCap
  { s1 with press := { s1.press with hist := [(s1.capApplied, capTicks)] } }

/-- Sum over the newest `n` ticks. -/
def sumTicks : List (Nat × Nat) → Nat → Nat
  | [], _ => 0
  | (v, c) :: t, n => v * min c n + sumTicks t (n - c)

/-- The newest `n` ticks. -/
def takeTicks : List (Nat × Nat) → Nat → List (Nat × Nat)
  | [], _ => []
  | (v, c) :: t, n => if n ≤ c then (if n = 0 then [] else [(v, n)]) else (v, c) :: takeTicks t (n - c)

/-- A tick enters the windows. -/
def addTick (h : List (Nat × Nat)) (v : Nat) : List (Nat × Nat) :=
  takeTicks (match h with
    | (w, c) :: t => if w = v then (w, c + 1) :: t else (v, 1) :: h
    | [] => [(v, 1)]) capTicks

/-- The package allowance in mW (R537). -/
def State.allowance (s : State) : Int :=
  let one := fun (ticks limit : Nat) => ((ticks * limit : Nat) : Int) - (sumTicks s.press.hist (ticks - 1) : Nat)
  max 0 (min (one capTicks s.capApplied) (min (one burstTicks s.burstMw) ((s.burstMw * 5 / 4 : Nat) : Int)))

/-! ### Rail limits (R536) -/

/-- Peak and sustained limit of a rail of PRESS.RAIL_LIMIT in mA. -/
def State.railLimit (s : State) (i : Nat) : Nat × Nat :=
  if i < 8 then (10 * min 4000 (s.rd (R.PRESS_RAIL_LIMIT_CORE_PEAK i)), 10 * min 3600 (s.rd (R.PRESS_RAIL_LIMIT_CORE_SUST i)))
  else if i < 16 then
    (10 * min 800 (s.rd (R.PRESS_RAIL_LIMIT_ANA_PEAK (i - 8))), 10 * min 720 (s.rd (R.PRESS_RAIL_LIMIT_ANA_SUST (i - 8))))
  else (10 * min 3500 (s.rd R.PRESS_RAIL_LIMIT_HUB_PEAK), 10 * min 3150 (s.rd R.PRESS_RAIL_LIMIT_HUB_SUST))

/-- Current of a rail over the last 49 ticks, summed. -/
def State.railPast (s : State) (i : Nat) : Nat := s.press.rails.foldl (fun n t => n + t.getD i 0) 0

/-- A current keeps a rail's peak limit. -/
def State.peakOk (s : State) (i c : Nat) : Bool := decide (c ≤ (s.railLimit i).1)

/-- A current keeps both limits, at `spare` percent of them. -/
def State.limitsOk (s : State) (i c spare : Nat) : Bool :=
  decide (c * 100 ≤ (s.railLimit i).1 * spare ∧ (s.railPast i + c) * 100 ≤ (s.railLimit i).2 * 50 * spare)

/-! ### V-points (R513, R541 to R543) -/

/-- V-point that R541 wants for a die. -/
def State.wanted (s : State) (d : Nat) : Nat := Tab.get (fun _ => 8) s.press.wanted d

/-- Set it. -/
def State.setWanted (s : State) (d k : Nat) : State :=
  { s with press := { s.press with wanted := Tab.put (fun _ => 8) s.press.wanted d k } }

/-- A V-point within a rail's limits. -/
def State.clipPoint (s : State) (r k : Nat) : Nat := max (s.rd (R.VOLT_RAIL_VP_MIN r)) (min (s.rd (R.VOLT_RAIL_VP_MAX r)) k)

/-- VR_ALERT_n is asserted, or its hold lasts (R543). -/
def State.alerted (s : State) : Bool := s.press.alert.any id || s.press.holdEnd.any fun t => t != 0

/-- A die at or above the junction limit (R656). -/
def State.overJunction (s : State) (d : Nat) : Bool := decide (s.jmax ≤ s.hottest d ∨ s.jmax ≤ s.hottest 8)

/-- V_HUB's V-point for wanted V-points of dies: the nearest to the mean of their values (R541). -/
def State.hubPoint (s : State) (ws : List (Nat × Nat)) : Nat :=
  let sum := ws.foldl (fun n w => n + s.mv w.1 w.2) 0
  let far := fun k => (s.mv 8 k * ws.length - sum) + (sum - s.mv 8 k * ws.length)
  s.clipPoint 8 ((List.range 16).foldl (fun b k => if far k < far b then k else b) 0)

/-- The wanted V-points are brought within 80 mV of V_HUB's, the highest lowered first (R541). -/
def State.band (s : State) : Nat → List (Nat × Nat) → List (Nat × Nat)
  | 0, ws => ws
  | n + 1, ws =>
    let h := s.mv 8 (s.hubPoint ws)
    if ws.all fun w => decide (s.mv w.1 w.2 ≤ h + 80 ∧ h ≤ s.mv w.1 w.2 + 80) then ws
    else
      let free := ws.filter fun w => decide (s.rd (R.VOLT_RAIL_VP_MIN w.1) < w.2)
      match free with
      | [] => ws
      | f :: t =>
        let top := t.foldl (fun b w => if s.mv b.1 b.2 < s.mv w.1 w.2 then w else b) f
        s.band n (ws.map fun w => if w.1 == top.1 then (w.1, w.2 - 1) else w)

/-- V-point forced on a rail at the floor (R546). -/
def State.forcedPoint (s : State) (r k : Nat) : Nat :=
  let f := Tab.get (fun _ => 0) s.press.forced r
  if f = 0 then k else min k (f - 1)

/-- The targets that Press chooses, by rail (R507, R541 to R543, R546, R656). -/
def State.targets (s : State) : List (Nat × Nat) :=
  let dies := s.diesUp
  if s.alerted then ((List.range 9).filter s.railPresent).map fun r => (r, 0)
  else
    let vp := s.rd R.PRESS_CTRL_FIXED_VP
    let ws := s.band 128 (dies.map fun d => (d, s.clipPoint d (s.wanted d)))
    let hub := s.hubPoint ws
    let base := if s.flag R.PRESS_CTRL_FIXED then (dies ++ [8]).map (fun r => (r, s.clipPoint r vp)) else ws ++ [(8, hub)]
    base.map fun t => (t.1, if t.1 < 8 && s.overJunction t.1 then 0 else s.forcedPoint t.1 t.2)

/-- A rail's target changes; the spans of R541 begin again. -/
def State.setTarget (s : State) (r k : Nat) : State :=
  if s.target r = k then s
  else
    let s1 := s.wr (R.VOLT_RAIL_TARGET r) k
    { s1 with press := { s1.press with
      below := Tab.put (fun _ => 0) s1.press.below r 0
      full := Tab.put (fun _ => 0) s1.press.full r 0
      waiting := Tab.put (fun _ => (0, 0)) s1.press.waiting r (0, 0) } }

/-- Press chooses its targets, and voltage control carries them out (R513, R515, R541). Legacy mode has one V-point (R522). During an
exit an alert alone sets them (R507). -/
def State.retarget (s : State) : State :=
  if s.legacy || !(s.railsUp || (s.alerted && s.power.exit != 0)) then s else (s.targets.foldl (fun a t => a.setTarget t.1 t.2) s).voltGo

/-- Every die that is up goes to a level at once (R517, R543). -/
def State.forceLevel (s : State) (ds : List Nat) : State :=
  ds.foldl (fun a d => (a.wr (R.PRESS_LEVEL_LEVEL d) 1).wr (R.PRESS_LEVEL_BINDING d) 4) s

end Sys2Proof.Machine
end

