-- ==== Sys2Proof/Machine/Volt.lean ====
section
/-!
DEFINITION. Voltage control and legacy bias mode: the meanings of the AVSBus answers, attempts and probes, of VOLT.RAIL writes,
and of the legacy entries (R508 to R529).
-/

namespace Sys2Proof.Machine

/-- A rail of VOLT.RAIL. -/
def railOk (r : Nat) : Bool := decide (r < 9)

/-! ### Changes and the loss of a link (R514 to R519) -/

/-- AVS_VDONE: the Status read shows VDone, and the V-point sent is acknowledged (R514). -/
def State.vdone (s : State) (r : Nat) : State :=
  if s.attempt r = 0 then s
  else (((s.settle r (Tab.get (fun _ => 0) s.volt.sent r)).avsCommand (busOf r)).busCheck (busOf r)).voltGo

/-- AVS_VDONE (R514). -/
def execAvsVdone (rail : Nat) (s : State) : Host.Outcome State Fault Refusal :=
  unit (railOk rail) (s.when s.railsUp fun s => s.vdone rail)

/-- AVS_ATTEMPT_TIMEOUT: the rail is UNKNOWN and its die is held; the write is sent again, and after the fourth attempt the bus
is lost (R514, R517). -/
def State.attemptFails (s : State) (r : Nat) : State :=
  let n := s.attempt r
  let b := busOf r
  if n = 0 then s
  else
    let s1 := s.forceLevel (s.diesUp.filter fun d => d == r)
    if n < 4 then
      ((((s1.setAttempt r (n + 1) (Tab.get (fun _ => 0) s.volt.sent r)).wr (R.VOLT_RAIL_STATE r) 2).avsCommand b).bump
        (R.VOLT_AVS_COUNT_COUNT (3 * b + 1)) 1)
    else
      let s2 := (((s1.setAttempt r 0 0).wr (R.VOLT_RAIL_STATE r) 3).setFlag (lostBit b) true).bump
        (R.VOLT_AVS_COUNT_COUNT (3 * b + 2)) 1
      ({ s2 with volt := { s2.volt with probeAt := s2.volt.probeAt.set b s.now } } : State).raise
        Rc.vrLinkLost deviceClass noOwner b (selectOf r)

/-- AVS_ATTEMPT_TIMEOUT (R517). -/
def execAvsAttemptTimeout (rail : Nat) (s : State) : Host.Outcome State Fault Refusal :=
  unit (railOk rail) (s.when s.railsUp fun s => s.attemptFails rail)

/-- Rails of a bus that are UNKNOWN or LOST. -/
def State.unsettled (s : State) (b : Nat) : List Nat := (busRails b).filter fun r => decide (2 ≤ s.railState r)

/-- One rail after the link's return: its Voltage read gives the target, and it is settled; or the target is sent again, where the
crossings do not allow it the V-point nearest it that they allow (R303, R515, R518). -/
def State.rejoin (s : State) (r mv : Nat) : State :=
  let t := s.target r
  let k := if s.pointOk r t then t else (s.nextPoint r).getD (s.acked r)
  let s1 := s.avsCommand (busOf r)
  if mv = s.mv r k then s1.settle r k else ((s1.setAttempt r 1 k).wr (R.VOLT_RAIL_STATE r) 2).avsCommand (busOf r)

/-- AVS_PROBE: a Status read on a lost bus, 10 ms after the last. With a valid response the bus's rails are read, in order, as
`mv` gives them (R518, R519). -/
def State.probe (s : State) (b : Nat) (ok : Bool) (mv : List Nat) : State :=
  if s.busLost b && decide (s.volt.probeAt.getD b 0 + 10000000 ≤ s.now) then
    let s1 : State := { s.avsCommand b with volt := { s.volt with probeAt := s.volt.probeAt.set b s.now } }
    if ok then
      ((((s1.unsettled b).zipIdx).foldl (fun a p => a.rejoin p.1 (mv.getD p.2 0)) s1).busCheck b).voltGo
    else s1
  else s

/-- AVS_PROBE (R518). -/
def execAvsProbe (bus : Nat) (ok : Bool) (mv : List Nat) (s : State) : Host.Outcome State Fault Refusal :=
  unit (decide (bus < 2)) (s.when s.railsUp fun s => s.probe bus ok mv)

/-! ### Limits (R513) -/

/-- A write of VOLT.RAIL: VP_MIN above VP_MAX is ignored; in legacy mode nothing is written. -/
def State.writeRail (s : State) (r v : Nat) : State :=
  if s.legacy || decide (fld v 31 28 < fld v 27 24) then s
  else ((s.wr (R.VOLT_RAIL_VP_MAX r) (fld v 31 28)).wr (R.VOLT_RAIL_VP_MIN r) (fld v 27 24)).retarget

/-- An access to the VOLT block: a wake event, but in legacy mode (R527). -/
def State.voltTouch (s : State) : State := if s.legacy then s else s.pcieTouch 0

/-- VOLT_RAIL_WRITE (R513). -/
def execVoltRailWrite (rail value : Nat) (s : State) : Host.Outcome State Fault Refusal :=
  unit (railOk rail) (s.when s.hubUp fun s => ((s.dropHeld 0).writeRail rail value).voltTouch)

/-! ### Legacy entries (R524 to R526) -/

/-- A field of entry B`k` as staged: 0 = FBB_N, 1 = FBB_P, 2 = WA, 3 = RA. -/
def State.staged4 (s : State) (k n : Nat) : Nat :=
  s.rd ([R.VOLT_LB_ENTRY_FBB_N k, R.VOLT_LB_ENTRY_FBB_P k, R.VOLT_LB_ENTRY_WA k, R.VOLT_LB_ENTRY_RA k].getD n (R.VOLT_LB_ENTRY_RA k))

/-- B3 ≥ B2 ≥ B1 ≥ B0 in every field (R525). -/
def State.ordered (s : State) : Bool :=
  (List.range 3).all fun k => (List.range 4).all fun n => decide (s.staged4 k n ≤ s.staged4 (k + 1) n)

/-- Key of an entry's register. -/
def entryKey (k : Nat) : Nat := (R.VOLT_LB_ENTRY_RA k).key

/-- The staged entries are committed, when they are in order. -/
def State.commit (s : State) : State :=
  if s.ordered then
    let s1 := (s.wr R.VOLT_LB_STATUS_RESULT 1).bump R.VOLT_LB_STATUS_COMMITS 1
    { s1.setFlag R.VOLT_LB_STATUS_TABLE_LOST false with
      volt := { s1.volt with applied := (List.range 4).map fun k => s.word (entryKey k) } }
  else (s.wr R.VOLT_LB_STATUS_RESULT 2).raise Rc.legacyOrder instClass 0 0 0

/-- A write to entry B`k`: only in legacy mode, and only in IDLE; a write to B0 commits. -/
def State.writeEntry (s : State) (k v : Nat) : State :=
  if !s.legacy then s
  else if s.power.st ≠ .idle then s.wr R.VOLT_LB_STATUS_RESULT 3
  else
    let s1 := s.setWord (entryKey k) (v &&& 0xFF77)
    if k = 0 then s1.commit else s1

/-- LB_ENTRY_STAGE (R525). -/
def execLbEntryStage (n value : Nat) (s : State) : Host.Outcome State Fault Refusal :=
  unit (decide (1 ≤ n ∧ n ≤ 3)) (s.when s.hubUp fun s => ((s.dropHeld 0).writeEntry n value).voltTouch)

/-- LB_ENTRY_COMMIT (R525). -/
def execLbEntryCommit (value : Nat) (s : State) : Host.Outcome State Fault Refusal :=
  done (s.when s.hubUp fun s => ((s.dropHeld 0).writeEntry 0 value).voltTouch)

end Sys2Proof.Machine
end

