-- ==== Sys2Proof/Machine/Press.lean ====
section
/-!
DEFINITION. Press: the meanings of its ticks and calibration, of V-point changes, VR_ALERT_n, CAP writes, hints and the floor,
and of the chain's power budgets (R398, R530 to R550).
-/

namespace Sys2Proof.Machine

/-! ### The control law (R539, R540, R656) -/

/-- The largest level from 1 to 64 that meets a test; 1 when none does. -/
def topLevel (p : Nat → Bool) : Nat := (((List.range 64).reverse.map fun n => n + 1).find? p).getD 1

/-- Rails of a die in the estimate: V_CORE and its V_ANA output. -/
def dieRails (d : Nat) : List Nat := [d, d + 8]

/-- Largest level at which a die keeps the limits of its rails, and at which it keeps their peaks (R536, R539). -/
def State.railCut (s : State) (a : List Nat) (d : Nat) : Nat × Nat :=
  (topLevel fun l => (dieRails d).all fun i => s.limitsOk i (s.railCurrent a i l) 100,
   topLevel fun l => (dieRails d).all fun i => s.peakOk i (s.railCurrent a i l))

/-- Hints that hold a reserve now. -/
def State.reserving (s : State) : List Hint := s.press.hints.filter fun h => h.on && decide (s.now < h.start + h.dur)

/-- Power reserved against a die, in µW: that of the hints that do not name it (R544). -/
def State.reserve (s : State) (d : Nat) : Nat :=
  (s.reserving.filter fun h => !h.dies.contains d).foldl (fun n h => n + 1000 * h.mw) 0

/-- `pkg_cut` for a die: floor(level × f) (R539). -/
def State.packageCut (s : State) (a : List Nat) (d : Nat) : Nat :=
  let all := s.packagePower a s.level
  let free := s.packagePower a fun _ => 0
  let room := s.allowance * 1000 - (free : Int) - (s.reserve d : Int)
  if all ≤ free then 64 else min 64 (((s.level d : Int) * max 0 room) / ((all - free : Nat) : Int)).toNat

/-- `alert_cap`: 1 while VR_ALERT_n or a lost link holds the die (R517, R543). -/
def State.alertCap (s : State) (d : Nat) : Nat := if s.alerted || decide (2 ≤ s.railState d) then 1 else 64

/-- What R539 decides for a die: the next level, and the reason that set it with the want of its rule; 7 = none. -/
def State.dieTick (s : State) (a : List Nat) (d : Nat) : Nat × Nat × Nat :=
  let l := s.level d
  let rc := s.railCut a d
  let cuts := [(rc.1, 0), (s.packageCut a d, if s.budgeted then 5 else 1), (s.dieCap d, 2), (s.alertCap d, 4)]
  let low := cuts.foldl (fun b c => if c.1 < b.1 then c else b) (rc.1, 0)
  let next := fun (n : Nat) => s.packagePower a (fun k => if k = d then n else s.level k)
  let up := decide (((next (l + 1) : Nat) : Int) + (s.reserve d : Int) ≤ s.allowance * 1000)
  let want := min (if up then min 64 (l + 1) else l) low.1
  let cur := fun i n => s.railCurrent a i n
  let hard := min rc.2 (min (s.alertCap d) (if s.overJunction d then 1 else 64))
  let slow := if l ≤ want then
      topLevel fun n => n == l || (decide (n ≤ want) && (dieRails d).all fun i => decide (cur i n ≤ cur i l + 4000))
    else (((List.range 64).map fun n => n + 1).find? fun n =>
      decide (want ≤ n) && (n == l || (dieRails d).all fun i => decide (cur i l ≤ cur i n + 4000))).getD l
  let r := max 1 (min slow hard)
  if r = 64 then (64, 7, 64)
  else if l < want ∧ r < want then (r, 3, r)
  else (r, low.2, low.1)

/-! ### One tick (R531 to R548) -/

/-- ENERGY takes the power of one tick (R548). -/
def State.addEnergy (s : State) (mw : Nat) : State :=
  let n := s.press.energyFrac + mw
  ({ s with press := { s.press with energyFrac := n % 1000 } } : State).bump R.PRESS_ENERGY_UJ (n / 1000)

/-- The tick is charged to a reason, with the dies it holds and a rail (R547). -/
def State.charge (s : State) (n : Nat) (dies : List Nat) (rail : Nat) : State :=
  let s1 := s.bump (R.PRESS_REASON_US_US n) 1
  let mask := dies.foldl (fun m d => putBit m d true) 0
  let s2 := if s.rd R.PRESS_STATUS_BINDING = n then
      (s1.bump (R.PRESS_REASON_LAST_DURATION_US n) 1).wr (R.PRESS_REASON_LAST_DIES n)
        (s1.rd (R.PRESS_REASON_LAST_DIES n) ||| mask)
    else ((s1.wr (R.PRESS_REASON_LAST_START n) s.now).wr (R.PRESS_REASON_LAST_DURATION_US n) 1).wr
      (R.PRESS_REASON_LAST_DIES n) mask
  (s2.wr (R.PRESS_REASON_LAST_RAIL n) rail).wr R.PRESS_STATUS_BINDING n

/-- A rail of a die whose limit its current at level 1 passes (R546). -/
def State.overRail (s : State) (a : List Nat) : Option Nat :=
  (s.diesUp.flatMap dieRails).find? fun i => !s.limitsOk i (s.railCurrent a i 1) 100

/-- At the floor a rail that passes its limit goes below VP_MIN by one V-point (R546). -/
def State.forceDown (s : State) (a : List Nat) : State :=
  match s.overRail a with
  | some i =>
    let r := i % 8
    if s.railState r = 0 ∧ s.acked r = s.target r ∧ 0 < s.target r then
      { s with press := { s.press with forced := Tab.put (fun _ => 0) s.press.forced r (s.target r) } }
    else s
  | none => s

/-- The reason charged for a tick, after the dies' decisions: die, and what `dieTick` answers for it. -/
def State.tickReason (s : State) (a : List Nat) (ds : List (Nat × Nat × Nat × Nat)) : Option (Nat × List Nat) :=
  let held := ds.filter fun d => decide (d.2.1 < 64)
  if s.flag R.PRESS_STATUS_FLOOR then
    some (if (s.overRail a).isSome then 0 else 6, held.map Prod.fst)
  else match held with
    | [] => if s.press.capCl.isEmpty then none else some (2, [])
    | h :: t =>
      let b := t.foldl (fun b d => if d.2.2.2 < b.2.2.2 ∨ (d.2.2.2 = b.2.2.2 ∧ d.2.2.1 < b.2.2.1) then d else b) h
      some (b.2.2.1, (held.filter fun d => d.2.2.1 == b.2.2.1).map Prod.fst)

/-- Spans of R541 and R545 at a tick. -/
def State.spans (s : State) : State :=
  let s1 := s.diesUp.foldl (fun (a : State) d =>
    let keep := fun (t : Tab Nat) (c : Bool) =>
      Tab.put (fun _ => 0) t d (if c then (if Tab.get (fun _ => 0) t d = 0 then a.now + 1 else Tab.get (fun _ => 0) t d) else 0)
    let w := Tab.get (fun _ => (0, 0)) a.press.waiting d
    let w1 := if a.level d = 64 then (w.1 + 1, w.2 + requests a.press.last d) else (0, 0)
    { a with press := { a.press with
      below := keep a.press.below (decide (a.level d < 48)), full := keep a.press.full (a.level d == 64)
      waiting := Tab.put (fun _ => (0, 0)) a.press.waiting d w1 } }) s
  let est := s.rd R.PRESS_EST_MW
  let low := fun r => if s.legacy then 8 else if s.flag R.PRESS_CTRL_FIXED then s.rd R.PRESS_CTRL_FIXED_VP else s.rd (R.VOLT_RAIL_VP_MIN r)
  let at_ := (s1.diesUp.all fun d => s1.level d == 1) && ((s1.diesUp ++ [8]).all fun r => decide (s1.target r ≤ low r))
  let run := fun (t : Nat) (c : Bool) => if c then (if t = 0 then s.now + 1 else t) else 0
  { s1 with press := { s1.press with
    floorIn := run s1.press.floorIn (at_ && decide (s.capApplied < est))
    floorOut := run s1.press.floorOut (decide (est ≤ s.capApplied)) } }

/-- Reserves in use: the largest estimate of their dies since START, and hints whose time is over go (R544). -/
def State.ageHints (s : State) (a : List Nat) : State :=
  let dyn := fun (h : Hint) => (h.dies.flatMap dieRails).foldl (fun n i => n + s.railMv i * s.railDyn a i (s.level (i % 8)) / 1000) 0
  let hs := (s.press.hints.filter fun h => decide (s.now < h.start + h.dur)).map fun h =>
    if h.on && decide (h.start ≤ s.now) then { h with most := max h.most (dyn h) } else h
  ({ s with press := { s.press with hints := hs } } : State).setFlag R.PRESS_STATUS_HINT_ACTIVE (hs.any Hint.on)

/-- Currents of a tick enter the sums of the calibration (R534). -/
def State.addSums (s : State) (a : List Nat) : State :=
  let rails := fun g => (List.range 26).filter fun i => gainOf i == some g
  let one := fun g => (rails g).foldl (fun (p : Nat × Nat) i => (p.1 + s.railDyn a i (s.level (i % 8)), p.2 + s.railLeak i)) (0, 0)
  let sums := (List.range 19).map fun g =>
    let o := s.press.sums.getD g (0, 0)
    let n := one g
    (o.1 + n.1, o.2 + n.2)
  { s with press := { s.press with sums := sums, ticks := s.press.ticks + 1 } }

/-- The tick's estimate and currents are stored (R531 to R537). -/
def State.tickStore (s : State) (a : List Nat) (est : Nat) (now : List Nat) : State :=
  let s1 := ((s.addSums a).addEnergy est).wr R.PRESS_EST_MW (min est (2 ^ 18 - 1))
  { s1 with press := { s1.press with
    hist := addTick s1.press.hist est, rails := (now :: s1.press.rails).take 49, last := a, work := [], tickAt := s1.now } }

/-- What the tick decides for every die that is up: die, and what `dieTick` answers for it. -/
def State.tickDies (s : State) (a : List Nat) : List (Nat × Nat × Nat × Nat) := s.diesUp.map fun d => (d, s.dieTick a d)

/-- The decided levels and their reasons are written. -/
def State.tickLevels (s : State) (ds : List (Nat × Nat × Nat × Nat)) : State :=
  ds.foldl (fun (b : State) d => (b.wr (R.PRESS_LEVEL_LEVEL d.1) d.2.1).wr (R.PRESS_LEVEL_BINDING d.1) d.2.2.1) s

/-- The tick is charged to the reason that `tickReason` found, its rail number 31 where no rail is to be named. -/
def State.tickCharge (s : State) (r : Option (Nat × List Nat)) (rail : Option Nat) : State :=
  match r with
  | some r => s.charge r.1 r.2 (if r.1 = 0 then rail.getD (r.2.headD 31) else 31)
  | none => s.wr R.PRESS_STATUS_BINDING 7

/-- At the floor: rails below VP_MIN, and the shortfall (R545, R546). -/
def State.tickFloor (s : State) (a : List Nat) (est : Nat) : State :=
  if s.flag R.PRESS_STATUS_FLOOR then (s.forceDown a).wr R.PRESS_SHORTFALL_MW (est - s.capApplied) else s

/-- The tick's decisions, once its estimate is stored. -/
def State.tickDecide (s : State) (a : List Nat) (est : Nat) : State :=
  let ds := s.tickDies a
  ((((s.tickLevels ds).tickCharge (s.tickReason a ds) (s.overRail a)).tickFloor a est).ageHints a).spans.retarget

/-- A tick in RUN or IDLE. -/
def State.tick (s : State) (a : List Nat) : State :=
  let est := s.packagePower a s.level / 1000
  (s.tickStore a est ((List.range 17).map fun i => s.railCurrent a i (s.level (i % 8)))).tickDecide a est

/-- PRESS_TICK: in SLEEP and DEEP only ENERGY advances (R531, R548). -/
def State.pressTick (s : State) (a : List Nat) : State :=
  if s.now < s.press.tickAt + 1000 then s
  else if s.railsUp then s.tick (s.activity a)
  else if s.power.st == .sleep || s.power.st == .deep then
    ({ s with press := { s.press with tickAt := s.now } } : State).addEnergy (Config.statePower s.power.st.code)
  else s

/-- PRESS_TICK (R539). -/
def execPressTick (est : List Nat) (s : State) : Host.Outcome State Fault Refusal :=
  done (s.when (s.ready && !s.halted) fun s => s.pressTick est)

/-! ### Calibration (R534) -/

/-- A gain after a calibration: measured current, and the mean dynamic and leakage estimates. -/
def newGain (g ma dyn leak : Nat) : Nat :=
  if dyn = 0 ∨ dyn * 5 < dyn + leak then g
  else
    let n := clampInt (9 * (dyn : Int)) (11 * (dyn : Int)) (10 * ((ma : Int) - (leak : Int)))
    max 0x2000 (min 0x8000 ((g : Int) * n / (10 * (dyn : Int))).toNat)

/-- Bus of a gain. -/
def gainBus (g : Nat) : Nat := if g < 9 then 0 else 1

/-- PRESS_CALIBRATION: the regulators' currents in mA, by gain, one Current read each. A lost bus is not read (R518), and in legacy mode
nothing is sent (R522, log entry 10). -/
def State.calibrateGains (s : State) (ma : List Nat) : State :=
  if s.now < s.press.calAt + 10000000 ∨ s.press.ticks = 0 ∨ s.legacy then s
  else
    let s0 := if s.busLost 0 then s else s.avsCommands 0 9
    let s1 := if s.busLost 1 then s0 else s0.avsCommands 1 10
    let s2 := (List.range 19).foldl (fun (a : State) g =>
      if a.busLost (gainBus g) then a
      else
        let p := s.press.sums.getD g (0, 0)
        a.wr (R.PRESS_GAIN_GAIN g) (newGain (s.rd (R.PRESS_GAIN_GAIN g)) (ma.getD g 0) (p.1 / s.press.ticks) (p.2 / s.press.ticks))) s1
    ({ s2 with press := { s2.press with sums := [], ticks := 0, calAt := s.now } } : State).setFlag R.PRESS_STATUS_CAL_HELD
      (s.busLost 0 || s.busLost 1)

/-- PRESS_CALIBRATION (R534). -/
def execPressCalibration (ma : List Nat) (s : State) : Host.Outcome State Fault Refusal :=
  done (s.when s.railsUp fun s => s.calibrateGains ma)

/-! ### V-points (R541) -/

/-- Press may choose V-points: native mode, not fixed, no alert. -/
def State.mayChoose (s : State) : Bool := s.railsUp && !s.legacy && !s.flag R.PRESS_CTRL_FIXED && !s.alerted

/-- A span of R541 has lasted 100 µs. -/
def State.lasted (s : State) (t : Tab Nat) (d : Nat) : Bool :=
  let n := Tab.get (fun _ => 0) t d
  n != 0 && decide (n + 100000 ≤ s.now + 1)

/-- Die `d` begins a new span after a change. -/
def State.newSpan (s : State) (d : Nat) : State :=
  { s with press := { s.press with
    below := Tab.put (fun _ => 0) s.press.below d 0, full := Tab.put (fun _ => 0) s.press.full d 0
    waiting := Tab.put (fun _ => (0, 0)) s.press.waiting d (0, 0) } }

/-- VPOINT_LOWER: the die's level has stayed below 48 for 100 µs. -/
def State.lowerPoint (s : State) (d : Nat) : State :=
  if s.mayChoose && s.diesUp.contains d && s.lasted s.press.below d && decide (s.rd (R.VOLT_RAIL_VP_MIN d) < s.target d) then
    ((s.setWanted d (s.target d - 1)).newSpan d).retarget
  else s

/-- VPOINT_LOWER (R541). -/
def execVpointLower (d : Nat) (s : State) : Host.Outcome State Fault Refusal := unit (decide (d < 8)) (s.lowerPoint d)

/-- The projection at a V-point meets every limit with 10 % to spare, with `mw` more power on the die. -/
def State.roomAt (s : State) (d k mw : Nat) : Bool :=
  let a := s.press.last
  let v := s.mv d k
  let core := s.railDyn a d 64 * v / s.railMv d + Config.leak d v (s.hottest d) + 1000 * mw / v
  let ana := s.railCurrent a (d + 8) 64
  let more := (v * core - s.railMv d * s.railCurrent a d (s.level d)) / 1000
  s.limitsOk d core 90 && s.limitsOk (d + 8) ana 90
    && decide (((10 * (s.rd R.PRESS_EST_MW + more) : Nat) : Int) ≤ 9 * s.allowance)

/-- The die's gates have had a token waiting in at least 75 % of their slots since the span began (R541). -/
def State.pressed (s : State) (d : Nat) : Bool :=
  let w := Tab.get (fun _ => (0, 0)) s.press.waiting d
  decide (48 * w.1 ≤ w.2)

/-- VPOINT_RAISE: the die's level has stayed at 64 for 100 µs with work waiting. -/
def State.raisePoint (s : State) (d : Nat) : State :=
  if s.pressed d && s.mayChoose && s.diesUp.contains d && s.lasted s.press.full d && decide (s.target d < s.rd (R.VOLT_RAIL_VP_MAX d))
      && s.roomAt d (s.target d + 1) 0 then
    ((s.setWanted d (s.target d + 1)).newSpan d).retarget
  else s

/-- VPOINT_RAISE (R541). -/
def execVpointRaise (d : Nat) (s : State) : Host.Outcome State Fault Refusal := unit (decide (d < 8)) (s.raisePoint d)

/-! ### VR_ALERT_n (R543) -/

/-- ALERT_A or ALERT_B. -/
def alertBit (n : Nat) : RField := if n = 0 then R.PRESS_STATUS_ALERT_A else R.PRESS_STATUS_ALERT_B

/-- VR_ALERT_ASSERT: every die that is up goes to level 1, and every target to V-point 0. -/
def State.alert (s : State) (n : Nat) : State :=
  let s1 := ({ s with press := { s.press with alert := s.press.alert.set n true, holdEnd := s.press.holdEnd.set n 0 } } : State).setFlag
    (alertBit n) true
  (s1.forceLevel s1.diesUp).retarget

/-- The Press block works: booted, not halted, not in OFF. -/
def State.pressUp (s : State) : Bool := s.ready && !s.halted && s.power.st != .off

/-- VR_ALERT_ASSERT (R543). -/
def execVrAlertAssert (n : Nat) (s : State) : Host.Outcome State Fault Refusal :=
  unit (decide (n < 2)) (s.when s.pressUp fun s => s.alert n)

/-- VR_ALERT_DEASSERT: the hold of 100 µs begins. -/
def State.alertOff (s : State) (n : Nat) : State :=
  if s.press.alert.getD n false then
    ({ s with press := { s.press with
      alert := s.press.alert.set n false, holdEnd := s.press.holdEnd.set n (s.now + 100000 + 1) } } : State).setFlag (alertBit n) false
  else s

/-- VR_ALERT_DEASSERT (R543). -/
def execVrAlertDeassert (n : Nat) (s : State) : Host.Outcome State Fault Refusal :=
  unit (decide (n < 2)) (s.when s.pressUp fun s => s.alertOff n)

/-- VR_ALERT_HOLD_END: V-points are released. -/
def State.alertEnds (s : State) (n : Nat) : State :=
  let t := s.press.holdEnd.getD n 0
  if t ≠ 0 ∧ t ≤ s.now + 1 then
    ({ s with press := { s.press with holdEnd := s.press.holdEnd.set n 0 } } : State).retarget
  else s

/-- VR_ALERT_HOLD_END (R543). -/
def execVrAlertHoldEnd (n : Nat) (s : State) : Host.Outcome State Fault Refusal :=
  unit (decide (n < 2)) (s.when s.pressUp fun s => s.alertEnds n)

/-! ### CAP (R537, R538) -/

/-- A write of PRESS.CAP. -/
def State.writeCap (s : State) (v : Nat) : State := (s.setWord R.PRESS_CAP_CAP_MW.key (v &&& 0xFF03FFFF)).restartWindows

/-- PRESS_CAP_WRITE (R537). -/
def execPressCapWrite (value : Nat) (s : State) : Host.Outcome State Fault Refusal :=
  done (s.when s.hubUp fun s => s.cmdWrite 0 fun s => s.writeCap value)

/-- A write of PRESS.CTRL: FIXED stays 0 in legacy mode (R542). -/
def State.writePressCtrl (s : State) (v : Nat) : State :=
  (s.setWord R.PRESS_CTRL_FIXED.key (v &&& (if s.legacy then 0x7FF00000 else 0xFFF00000))).retarget

/-! ### Hints (R398, R544) -/

/-- A POWER_HINT is held, or dropped when 16 are; its record is OK either way. -/
def State.powerHint (s : State) (d : Desc) : State :=
  let start := d.time + 1000 * u32At d.bytes 0x10
  let mask := u8At d.bytes 0x1C
  let h : Hint := ⟨start, 1000 * u32At d.bytes 0x14, u32At d.bytes 0x18, upTo 8 fun n => mask == 0 || bit mask n, false, 0⟩
  let s1 := if s.press.hints.length < 16 then { s with press := { s.press with hints := s.press.hints ++ [h] } }
    else s.bump R.PRESS_HINT_COUNT_DROPPED 1
  s1.complete d.uid St.ok 0

/-- POWER_HINT (R398). -/
def execPowerHint (f w : Nat) (s : State) : Host.Outcome State Fault Refusal :=
  unit (ringOk f w) (s.onDesc f w 0x0A fun s d => s.powerHint d)

/-- The V-point that R541 would choose for a die with `mw` more on it: the highest within its limits that leaves room. -/
def State.hintPoint (s : State) (d mw : Nat) : Nat :=
  (((List.range 16).reverse).find? fun k =>
    decide (s.target d < k ∧ k ≤ s.rd (R.VOLT_RAIL_VP_MAX d)) && s.roomAt d k mw).getD (s.target d)

/-- HINT_START: from 100 µs before START the hint's dies are raised and its power reserved. -/
def State.hintStart (s : State) (k : Nat) : State :=
  match s.press.hints[k]? with
  | none => s
  | some h =>
    if h.on || decide (s.now + 100000 < h.start) || decide (h.start + h.dur ≤ s.now) then s
    else
      let s1 := ({ s with press := { s.press with hints := s.press.hints.set k { h with on := true } } } : State).setFlag
        R.PRESS_STATUS_HINT_ACTIVE true
      let ds := h.dies.filter fun d => s.diesUp.contains d
      if s.mayChoose then (ds.foldl (fun a d => a.setWanted d (s.hintPoint d (h.mw / max 1 ds.length))) s1).retarget else s1

/-- HINT_START (R544). -/
def execHintStart (k : Nat) (s : State) : Host.Outcome State Fault Refusal :=
  unit (decide (k < 16)) (s.when s.railsUp fun s => s.hintStart k)

/-- HINT_UNUSED: 50 µs after START the dies' dynamic estimate has stayed below half of POWER_MW. -/
def State.hintUnused (s : State) (k : Nat) : State :=
  match s.press.hints[k]? with
  | none => s
  | some h =>
    if h.on && decide (h.start + 50000 ≤ s.now ∧ 2 * h.most < h.mw) then
      let hs := s.press.hints.eraseIdx k
      (({ s with press := { s.press with hints := hs } } : State).setFlag R.PRESS_STATUS_HINT_ACTIVE (hs.any Hint.on)).bump
        R.PRESS_HINT_COUNT_UNUSED 1
    else s

/-- HINT_UNUSED (R544). -/
def execHintUnused (k : Nat) (s : State) : Host.Outcome State Fault Refusal :=
  unit (decide (k < 16)) (s.when s.railsUp fun s => s.hintUnused k)

/-! ### The floor (R545) -/

/-- FLOOR_ENTRY: the conditions of the floor have held for 100 µs. -/
def State.floorEntry (s : State) : State :=
  let t := s.press.floorIn
  if s.flag R.PRESS_STATUS_FLOOR || t == 0 || decide (s.now + 1 < t + 100000) then s
  else
    let short := s.rd R.PRESS_EST_MW - s.capApplied
    let s1 := ((s.setFlag R.PRESS_STATUS_FLOOR true).wr R.PRESS_SHORTFALL_MW short).raise Rc.capFloor deviceClass noOwner short s.capApplied
    s1.irq (s.flag R.PRESS_CTRL_IRQ_EN) (s.rd R.PRESS_CTRL_VECTOR)

/-- FLOOR_ENTRY (R545). -/
def execFloorEntry (s : State) : Host.Outcome State Fault Refusal := done (s.when s.railsUp fun s => s.floorEntry)

/-- FLOOR_EXIT: the estimate has stayed within CAP_APPLIED for 100 µs. -/
def State.floorExit (s : State) : State :=
  let t := s.press.floorOut
  if !s.flag R.PRESS_STATUS_FLOOR || t == 0 || decide (s.now + 1 < t + 100000) then s
  else
    let s1 := (s.setFlag R.PRESS_STATUS_FLOOR false).wr R.PRESS_SHORTFALL_MW 0
    ({ s1 with press := { s1.press with floorIn := 0, forced := [] } } : State).retarget

/-- FLOOR_EXIT (R545). -/
def execFloorExit (s : State) : Host.Outcome State Fault Refusal := done (s.when s.railsUp fun s => s.floorExit)

/-! ### Chains (R549, R550) -/

/-- Devices of the chain, ascending. -/
def State.members (s : State) : List Nat := upTo 64 fun d => s.inChain d

/-- A device's budget. -/
def State.budget (s : State) (d : Nat) : Nat := Tab.get (fun _ => 0) s.press.budgets d

/-- This device has received a budget; 0 ends it. -/
def State.takeBudget (s : State) (mw : Nat) : State :=
  let s1 := (s.wr R.PRESS_CHAIN_BUDGET_MW mw)
  if s1.capApplied = s.capApplied then s1.showCap else s1.restartWindows

/-- The master sends each device its budget. -/
def State.sendBudgets (s : State) : State :=
  s.members.foldl (fun a d =>
    if d = a.rd R.CHAIN_STATUS_DEVICE_ID then a.takeBudget (a.budget d) else a.sendFlit d 0 (.ctrl (.budget (a.budget d)))) s

/-- Equal shares of a total, the remainder to the lowest device. -/
def shares (total : Nat) (ds : List Nat) : Tab Nat :=
  (ds.zipIdx).foldl (fun t p =>
    Tab.put (fun _ => 0) t p.1 (total / ds.length + if p.2 = 0 then total % ds.length else 0)) []

/-- A write of CHAIN_TOTAL. -/
def State.writeChainTotal (s : State) (v : Nat) : State :=
  let t := fld v 23 0
  let ds := s.members
  if !s.isMaster || (t != 0 && decide (t < 35000 * ds.length)) then s
  else
    let s1 := s.wr R.PRESS_CHAIN_TOTAL_MW t
    ({ s1 with press := { s1.press with budgets := if t = 0 then [] else shares t ds } } : State).sendBudgets

/-- CHAIN_TOTAL_WRITE (R549). -/
def execChainTotalWrite (value : Nat) (s : State) : Host.Outcome State Fault Refusal :=
  done (s.when s.hubUp fun s => s.cmdWrite 0 fun s => s.writeChainTotal value)

/-- CHAIN_POWER_REPORT: the estimate and the wait of the last millisecond go to the master. -/
def State.powerReport (s : State) : State :=
  if s.now < s.press.reportAt + 1000000 ∨ !s.flag R.CHAIN_STATUS_FORMED then s
  else
    let w := min s.press.waitNs (2 ^ 32 - 1)
    let mw := s.rd R.PRESS_EST_MW
    let s1 := ({ s with press := { s.press with waitNs := 0, reportAt := s.now } } : State).wr R.PRESS_CHAIN_WAIT_NS w
    if s.isMaster then
      { s1 with press := { s1.press with reports := s1.press.reports ++ [(s.rd R.CHAIN_STATUS_DEVICE_ID, mw, w)] } }
    else s1.sendFlit 0 0 (.ctrl (.power mw w))

/-- CHAIN_POWER_REPORT (R549). -/
def execChainPowerReport (s : State) : Host.Outcome State Fault Refusal := done (s.when s.railsUp State.powerReport)

/-- The reporting device with the largest, or the smallest, wait among those that meet a test. -/
def pickDevice (rs : List (Nat × Nat × Nat)) (p : Nat → Bool) (better : Nat → Nat → Bool) : Option (Nat × Nat) :=
  match rs.filter fun r => p r.1 with
  | [] => none
  | h :: t =>
    let b := t.foldl (fun b r => if better r.2.2 b.2.2 then r else b) h
    some (b.1, b.2.2)

/-- CAP of a chain device: its own register, or the largest CAP for a device whose register the master does not see. -/
def State.capOf (s : State) (d : Nat) : Nat := if d = s.rd R.CHAIN_STATUS_DEVICE_ID then s.capMw else 180000

/-- CHAIN_BUDGET_SHIFT: budget moves from the device that waits most to the one that waits least. A device that has not reported
takes no part (R550). -/
def State.budgetShift (s : State) : State :=
  let total := s.rd R.PRESS_CHAIN_TOTAL_MW
  if !s.isMaster || total == 0 || decide (s.now < s.press.shiftAt + 1000000) then s
  else
    let rs := s.press.reports
    let hi := pickDevice rs (fun d => decide (35000 < s.budget d)) fun a b => decide (b < a)
    let lo := pickDevice rs (fun d => decide (s.budget d < s.capOf d)) fun a b => decide (a < b)
    let s1 : State := { s with press := { s.press with reports := [], shiftAt := s.now } }
    let s2 := match hi, lo with
      | some h, some l =>
        if l.2 + 100000 < h.2 then
          let n := min (total / 50) (min (s.budget h.1 - 35000) (s.capOf l.1 - s.budget l.1))
          let t := Tab.put (fun _ => 0) s.press.budgets h.1 (s.budget h.1 - n)
          { s1 with press := { s1.press with budgets := Tab.put (fun _ => 0) t l.1 (s.budget l.1 + n) } }
        else s1
      | _, _ => s1
    s2.sendBudgets

/-- CHAIN_BUDGET_SHIFT (R549). -/
def execChainBudgetShift (s : State) : Host.Outcome State Fault Refusal := done (s.when s.railsUp State.budgetShift)

end Sys2Proof.Machine
end

