-- ==== Sys2Proof/Machine/StateLoss.lean ====
section
/-!
DEFINITION. What the compute dies, the guard domain and the hub lose when their supplies go, and what the device takes up again:
shared by DEEP, OFF and the resets (R143, R144, R207, R275, R289, R375, R433, R466, R469, R476, R504, R616).
-/

namespace Sys2Proof.Machine

/-! ### Compute dies and memory -/

/-- A flat engine of the compute dies. -/
def computeEngine (e : Nat) : Bool := decide (e < nEngines)

/-- Granules keep their tags and read as never written (R275). -/
def blankGranules (t : Tab Granule) : Tab Granule :=
  (t.filter fun p => p.2.tag != 31).map fun p => (p.1, { p.2 with written := false, poison := false })

/-- T0 and T1 contents, and poison everywhere, are gone (R289, R606). -/
def State.loseMemory (s : State) : State :=
  { s with mem := { s.mem with
    t0 := [], t1 := [], g0 := blankGranules s.mem.g0, g1 := blankGranules s.mem.g1, t2Poison := [], t2Err := [] } }

/-- Peripheries, codebook stores, check buffers, windows and bind tags of the compute dies are gone (R144, R207, R328). -/
def State.loseEngines (s : State) : State :=
  let engines := s.arr.engines.map fun p =>
    if computeEngine p.1 then (p.1, { p.2 with pool := [], blocks := [], lastDeck := none }) else p
  { s with arr := { s.arr with
    engines := engines
    peri := Tab.clearKeys (fun k => computeEngine (k / 0x10000)) s.arr.peri
    books := [], checkBuf := [], bindTag := [] } }

/-- Decks that meet a test are due for calibration, which their first bind runs (R193, R504). -/
def State.calAll (s : State) (p : Nat → Bool) : State :=
  { s with arr := { s.arr with
    decks := s.arr.decks.map fun d => if p (d.1 / 8) then (d.1, { d.2 with calOk := false, calMissing := false }) else d } }

/-- T0 and T1 pegs read 0, and no wait is registered (R375). -/
def State.losePegs (s : State) : State :=
  { s with pegs := { s.pegs with t0 := [], waits := [], retries := [], last := [], shadows := [], low := [] } }

/-- Everything that lies on the compute dies' supplies. -/
def State.loseDies (s : State) : State := ((s.loseMemory.loseEngines).calAll computeEngine).losePegs

/-! ### The guard domain (R466, R469, R476) -/

/-- Lanes' registers on V_GUARD return to their reset values; MATRIX is the OR stage's. -/
def State.resetLanes (s : State) : State :=
  let s1 := (List.range 16).foldl (fun (a : State) l =>
    let m := a.rd (R.GUARD_LANE_CFG0_MATRIX l)
    (a.setWord (R.GUARD_LANE_CFG0_THRESH l).key (regReset (R.GUARD_LANE_CFG0_THRESH l).key).toNat).wr (R.GUARD_LANE_CFG0_MATRIX l) m) s
  (s1.wr R.GUARD_CTRL_LANE_EN 0).resetRegs fun k => decide ((0xE0004 ≤ k ∧ k < 0xE0064) ∨ (0xE0800 ≤ k ∧ k < 0xE0900))
    || (decide (0xE0080 ≤ k ∧ k < 0xE0100) && k % 8 == 4)

/-- The guard domain goes down; in OFF the OR stage and the comparators go with it. -/
def State.guardDown (s : State) (off : Bool) : State :=
  let cut := match s.guard.cmd with
    | some (1, _) => s.laneCmdEnd St.guardBackupWriteFail
    | some (5, _) => s.laneCmdEnd St.guardBackupWriteFail
    | some c => { s with guard := { s.guard with cmd := none, claimed := none, again := some c } }
    | none => s
  let s1 := cut.resetLanes.calAll isGuard
  let s2 : State := { s1 with
    guard := { s1.guard with lanes := [], config := [], streams := [], rx := [], up := false, port := [], gpD := none, tripMask := 0xFFFF, trimAt := 0 }
    arr := { s1.arr with peri := s1.arr.peri.filter fun p => computeEngine (p.1 / 0x10000) } }
  if off then
    let s3 := s2.resetRegs fun k => k == 0xE0000 || decide (0xE0060 ≤ k ∧ k < 0xE0224)
    { s3 with guard := { s3.guard with
      out := List.replicate 8 2
      cmps := s3.guard.cmps.map fun c => (c.1, c.2.rest c.1) } }
  else s2.orStage

/-- The guard domain comes up. -/
def State.guardUp (s : State) (cold : Bool) : State :=
  if s.guard.up then s
  else
    let s1 := (s.setFlag R.GUARD_STATUS_DOMAIN_UP true).wr R.GUARD_FRAME_COUNT 0
    ({ s1 with guard := { s1.guard with up := true, cold := cold, frameNext := s1.now } } : State).orStage

/-! ### Hub registers -/

/-- Counters that only a cold reset clears, and lists of the device's own that outlast its supplies (R616, R629, R632). -/
def keptCounter (k : Nat) : Bool :=
  decide (0x01000000 ≤ k ∧ k < 0x02000000)                                   -- DIE windows
    || decide (0x100004 ≤ k ∧ k < 0x100018)                                  -- HBM
    || decide (0xC0020 ≤ k ∧ k < 0xC0034)                                    -- FLASH.COUNT
    || decide (0xF0100 ≤ k ∧ k < 0xF0180)                                    -- CHAIN.PORT_COUNT
    || decide (0x50600 ≤ k ∧ k < 0x50618)                                    -- VOLT.AVS_COUNT
    || (decide (0xD0000 ≤ k ∧ k < 0xD0100) && decide (8 ≤ k % 0x20 ∧ k % 0x20 < 0x18))  -- SENSOR.CSI_ERR
    || decide (0xD8000 ≤ k ∧ k < 0xD8040)                                    -- SENSOR.FSP
    || decide (0xB0020 ≤ k ∧ k < 0xB0034)                                    -- ERRLOG.CLASS_COUNT

/-- Registers that OFF leaves: IDENT, BOOT, TIME and PSTATE, GUARD (`guardDown` decides those), FATAL_RECORD, ENERGY, the
counters, and INST_STATUS (R216, R548, R601). -/
def keptInOff (k : Nat) : Bool :=
  decide (k < 0x30000) || decide (0x40000 ≤ k ∧ k < 0x50000) || decide (0xE0000 ≤ k ∧ k < 0xF0000) || keptCounter k
    || decide (0xB0100 ≤ k ∧ k < 0xB0124) || k == 0x60300 || k == 0x60304
    || (decide (fnBase ≤ k) && decide (0x3000 ≤ k % 0x10000 ∧ k % 0x10000 < 0x4000))

/-- The chain's registers, apart from its counters, and its ports return to reset. -/
def State.loseChain (s : State) : State :=
  let s1 := s.resetRegs fun k => decide (0xF0000 ≤ k ∧ k < 0x100000) && !keptCounter k
  { s1 with chain := { Chain.reset with nextTag := s1.chain.nextTag } }

/-- Work of the rings: fetched descriptors, records due and held, copies. -/
def State.loseWork (s : State) : State :=
  { s with
    steps := []
    pe := []
    rings := { s.rings with descs := [], due := [], held := [], dma := [], stopped := [], stopping := [], bells := [] }
    mem := { s.mem with zeroing := [], freeWaits := [] }
    arr := { s.arr with jobs := [], lends := [], checks := [], darns := [], aper := [] }
    errs := { s.errs with toRings := [], lost := [] } }

/-- Legacy entries are lost; TABLE_LOST reads 0 in native mode (R528). -/
def State.loseEntries (s : State) : State :=
  let s1 := (s.resetRegs fun k => decide (0x50800 ≤ k ∧ k < 0x50810)).setFlag R.VOLT_LB_STATUS_TABLE_LOST s.legacy
  { s1 with volt := { s1.volt with applied := [0, 0, 0, 0] } }

/-- The hub's registers and work as OFF leaves them. -/
def State.loseHub (s : State) : State :=
  let s1 := (((s.loseWork).loseChain).resetRegs fun k => !keptInOff k).setFlag R.VOLT_STATUS_LEGACY s.legacy
  { s1 with
    rings := { s1.rings with instBusy := none, fwWaiting := [], stagedRes := [], linkUp := false }
    csi := ⟨[]⟩
    pegs := { s1.pegs with posted := [] }
    press := { Press.reset with energyFrac := s1.press.energyFrac, alert := s1.press.alert }
    volt := { s1.volt with attempt := [], sent := [], probeAt := [0, 0] }
    flash := { s1.flash with op := none, susp := none, fw := none, due := [], resetAfter := false }
    board := { s1.board with parks := [], tout := [], uart := [], i3cIdx := [0, 0], i3cAddr := [0, 0], snap := [], jtagSel := [] }
    holds := ⟨[], [], 0⟩ }

/-! ### Instances (R413, R414, R424, R433, R504) -/

/-- An instance that exists takes a new generation and a new key pair; a workload instance is parked. Without a pair it is
FAILED (R423). An exit from a power state leaves one FAILED that is: only the late end of its reset or a warm or cold reset does not
(R430). -/
def State.renew (s : State) (i : Nat) (ok warm : Bool) : State :=
  if (s.inst i).st = .none then s
  else
    let k := s.drawKey ok
    let stays := !warm && i != 0 && (s.inst i).st == .failed
    k.1.modInst i fun x => { x with
      st := if k.2 = 0 ∨ stays then .failed else if i = 0 then .ready else .parked
      gen := (x.gen + 1) % 65536
      key := k.2
      oldKey := 0
      resetDescs := []
      destroying := false
      byCommand := false
      flr := false
      late := x.late && stays
      rekey := [] }

/-- Every instance is restored; VF state is lost. -/
def State.renewAll (s : State) (ok warm : Bool) : State :=
  let s1 := (List.range 17).foldl (fun a i => a.renew i ok warm) s
  { s1 with rings := { s1.rings with numVfs := 0, descs := s1.rings.descs.map fun d => { d with gen := (s1.inst d.inst).gen } } }

/-! ### Records held in retention (R595) -/

/-- Held records are written to their destinations, in the order of SEQ. -/
def State.deliverHeld (s : State) : State :=
  s.errs.held.foldl (fun (a : State) r => (if r.2.1 then a.logRecord r.1 else a).queueRecord r.1 r.2.2)
    { s with errs := { s.errs with held := [] } }

/-! ### Hems (R310, R311) -/

/-- Every hem reopens, and the held writes are delivered in arrival order. -/
def State.openHems (s : State) : State := ({ s with power := { s.power with closed := [], admitted := [] } } : State).flushPosted

end Sys2Proof.Machine
end

