-- ==== Sys2Proof/Machine/Power.lean ====
section
/-!
DEFINITION. Power states and waking: the meanings of the requests, of the entry handshake, of wake events, and of the ready
signals of the return to RUN (R488 to R505).
-/

namespace Sys2Proof.Machine

/-! ### Requests (R490 to R493) -/

/-- Blocks of R495. -/
def allBlocks : List Nat := List.range 12
/-- The PCIe block. -/
def pcieBlock : Nat := 7

/-- Target DEEP or OFF. -/
def PState.deepOrOff : PState → Bool
  | .deep => true
  | .off => true
  | _ => false

/-- Domains that close their hem for an entry: compute dies 0–7 and HBM below IDLE, the serdes in DEEP and OFF (R308, R489). -/
def PState.closes : PState → List Nat
  | .run => []
  | .idle => []
  | .sleep => List.range 9
  | _ => List.range 10

/-- The transfer `k` sends packets to a domain that closes its hem for `t`: those that have arrived are admitted (R308). -/
def State.admits (s : State) (t : PState) (k : Nat × Nat × Nat) : Bool :=
  match s.transit k.1 k.2.1 k.2.2 with
  | none => false
  | some x => x.ends.2.any fun d => t.closes.contains d && x.ends.1 != d

/-- Names of the transfers of a step: its operations, and its prefetch entries that move data. -/
def Step.transfers (t : Step) : List (Nat × Nat × Nat) :=
  (t.streams.zipIdx.flatMap fun m => m.1.ops.zipIdx.map fun o => (t.uid, m.2, o.2))
    ++ (t.entries.zipIdx.filter fun e => e.1.moving).map fun e => (t.uid, t.streams.length, e.2)

/-- The transfers that are under way as the hems of an entry to `t` close. -/
def State.admitted (s : State) (t : PState) : List (Nat × Nat × Nat) :=
  ((s.rings.dma.map fun (j : DmaJob) => (j.desc, 0, 0)) ++ s.steps.flatMap Step.transfers).filter fun k => s.admits t k

/-- An entry begins: frames are closed, hems close, and the blocks are asked at once, the PCIe block last for DEEP and OFF (R308, R486,
R493). -/
def State.startEntry (s0 : State) (t : PState) : State :=
  let s := if t.closes.isEmpty then s0 else s0.closeFrames
  let ask := allBlocks.foldl (fun (a : Tab Nat) b => Tab.put (fun _ => 0) a b s.now) []
  { s with power := { s.power with
    entry := some t, committed := false, accepted := [], askedPcie := !t.deepOrOff, delays := [], askedAt := ask, latched := none
    closed := t.closes, admitted := s.admitted t } }

/-- A request with a target other than RUN: ignored while an entry is in progress; IDLE asked for in IDLE waits for RUN. -/
def State.request (s : State) (t : PState) : State :=
  if s.power.entry.isSome then s
  else match s.power.st with
    | .run => s.startEntry t
    | .idle => if s.power.reqHeld.isSome then s else { s with power := { s.power with reqHeld := some t } }
    | _ => s

/-- DELAY answers of the entry, as ENTRY_RESULT counts them. -/
def State.entryDelays (s : State) : Nat := min 255 (s.power.delays.foldl (fun n p => n + p.2) 0)

/-- ENTRY_RESULT and ENTRY_TIME record an outcome: 1 = COMPLETED, 2 = REFUSED, 3 = CANCELLED, 4 = ABORTED. -/
def State.entryResult (s : State) (outcome block reason : Nat) : State :=
  let t := match s.power.entry with
    | some p => p.code
    | none => 0
  let s1 := (s.setWord R.PSTATE_ENTRY_RESULT_TARGET.key
    (t * 2 ^ 29 + outcome * 2 ^ 24 + block * 2 ^ 16 + reason * 2 ^ 8 + s.entryDelays)).setWord64 R.PSTATE_ENTRY_TIME_TIME.key s.now
  s1.irq (s1.flag R.PSTATE_CTRL_IRQ_EN) (s1.rd R.PSTATE_CTRL_VECTOR)

/-- The entry ends: nothing of it remains. -/
def State.endEntry' (s : State) : State :=
  { s with power := { s.power with
    entry := none, committed := false, accepted := [], askedPcie := false, delays := [], askedAt := [] } }

/-- The entry aborts: blocks resume, hems reopen, held writes are delivered, a latched wake is discarded (R498, R501). -/
def State.abortEntry (s : State) (outcome block reason : Nat) : State :=
  let s1 := (s.entryResult outcome block reason).endEntry'
  ({ s1 with power := { s1.power with latched := none } } : State).openHems

/-- PSTATE_REQ_RUN: an entry that has not committed is cancelled. -/
def State.cancel (s : State) : State :=
  if s.power.entry.isSome && !s.power.committed then s.abortEntry 3 0 0 else s

/-- A write of PSTATE.REQ. -/
def State.writePstateReq (s : State) (v : Nat) : State :=
  if bit v 31 then
    match fld v 2 0 with
    | 0 => s.cancel
    | 1 => s.request .idle
    | 2 => s.request .sleep
    | 3 => s.request .deep
    | 4 => s.request .off
    | _ => s
  else s

/-- A request with its TARGET, as software writes it. The access reaches the device before the request takes effect, so that it
is no wake event of the entry it starts. -/
def State.req (s : State) (target : Nat) : State := s.when s.hubUp fun s => ((s.dropHeld 0).pcieTouch 0).writePstateReq (2 ^ 31 + target)

/-- PSTATE_REQ_RUN (R490). -/
def execPstateReqRun (s : State) : Host.Outcome State Fault Refusal := done (s.req 0)
/-- PSTATE_REQ_IDLE (R493). -/
def execPstateReqIdle (s : State) : Host.Outcome State Fault Refusal := done (s.req 1)
/-- PSTATE_REQ_SLEEP (R493). -/
def execPstateReqSleep (s : State) : Host.Outcome State Fault Refusal := done (s.req 2)
/-- PSTATE_REQ_DEEP (R493). -/
def execPstateReqDeep (s : State) : Host.Outcome State Fault Refusal := done (s.req 3)
/-- PSTATE_REQ_OFF (R493). -/
def execPstateReqOff (s : State) : Host.Outcome State Fault Refusal := done (s.req 4)

/-- The device is quiet: nothing that R491 names is under way. -/
def State.quiet (s : State) : Bool :=
  !s.rings.descs.any (fun d => d.started) && !s.steps.any (fun t => t.bound) && s.rings.dma.isEmpty && s.inProgress.isEmpty
    && s.rings.held.isEmpty
    && (List.range 17).all fun f => (List.range 16).all fun w => !s.workOn f w || s.announced f w == 0

/-- AUTO_IDLE: IDLE_US have passed in quiet. -/
def State.autoIdle (s : State) : State :=
  let us := s.rd R.PSTATE_CTRL_IDLE_US
  if s.running && s.power.entry.isNone && s.flag R.PSTATE_CTRL_AUTO_IDLE && s.quiet
      && decide (s.power.idleSince + 1000 * (if us = 0 then 100 else us) ≤ s.now) then s.startEntry .idle
  else s

/-- AUTO_IDLE (R491). -/
def execAutoIdle (s : State) : Host.Outcome State Fault Refusal := done s.autoIdle

/-! ### Answers (R494 to R498) -/

/-- What a block answers. -/
inductive Answer where
  | accept
  | delay
  | refuse (reason : Nat)
  /-- It does not answer yet. -/
  | later
  deriving DecidableEq, Repr

/-- A deck of the compute dies, or of the guard plane, is being programmed or darned (R174, R202, R467). -/
def State.programs (s : State) (guard : Bool) : Bool :=
  (s.inProgress.any fun p => match s.target? p.1 p.2 with
    | some (_, t) => t.guard == guard
    | none => false)
  || s.arr.darns.any (fun x => isGuard x.engine == guard)
  || (guard && (match s.guard.cmd with
    | some (3, _) => true
    | _ => false))

/-- An operation that block `b` of R495 has started and not ended: of the engines, array and vector operations and a core's MOVE;
of the Precision Engines, theirs; of the cluster DMA engines, a cluster's MOVE (R97, R241, R497). -/
def State.operating (s : State) (b : Nat) : Bool :=
  s.steps.any fun t => t.streams.any fun m => m.ops.any fun o =>
    (o.stage == 1 || o.stage == 2) && opBlock m o == b && (b == 1 || (decide (o.code < 0x40) && o.code != 0x21))

/-- An engine of the compute dies evaluates, or is under test or calibration (R97, R122, R202). -/
def State.evaluating (s : State) : Bool :=
  (s.arr.engines.any fun p => computeEngine p.1 && (p.2.eval.isSome || p.2.testing)) || !s.arr.pleatEvals.isEmpty
    || (s.arr.checks.any fun c => computeEngine c.engine && c.running) || s.operating 0

/-- A cluster DMA engine carries a prefetch entry or a MOVE, or a tile that has started (R259, R289). -/
def State.transferring (s : State) : Bool := (s.steps.any fun t => t.entries.any Entry.moving) || s.operating 2

/-- The domain a block of R495 answers for: 0 to 3 lie on the compute dies, 6 in HBM, 7 and 8 in the serdes. -/
def blockDomain (b d : Nat) : Bool :=
  (decide (b < 4) && decide (d < 8)) || (b == 6 && d == 8) || ((b == 7 || b == 8) && d == 9)

/-- Packets admitted before the hem of a block's domain closed have not all drained (R308). -/
def State.draining (s : State) (b : Nat) : Bool :=
  s.power.admitted.any fun k => match s.transit k.1 k.2.1 k.2.2 with
    | none => false
    | some x => x.ends.2.any fun d => blockDomain b d && s.meetsHem x d

/-- A flit that carries work of a bound step waits or is not acknowledged (R588). -/
def State.flitsInFlight (s : State) : Bool :=
  let work := fun (f : Flit) => match f.payload with
    | .data .. => true
    | .peg .. => true
    | .xack .. => true
    | _ => false
  !s.chain.transfers.isEmpty || s.chain.ports.any fun p => (p.2.unacked ++ p.2.queue).any work

/-- A program or erase of the flash runs, and is not suspended. -/
def State.flashWrites (s : State) : Bool := s.bankBusy 0 || s.bankBusy 1

/-- The answer of a block to an entry with a target, once its domain has drained (R308, R495). -/
def State.answerOf (s : State) (t : PState) (b : Nat) : Answer :=
  let deep := t.deepOrOff
  if s.draining b then .later else match b with
  | 0 => if s.programs false then .refuse 1
         else if deep && s.steps.any (fun t => t.bound) then .refuse 4
         else if s.evaluating then .later else .accept
  | 1 => if s.pe.isEmpty && !s.operating 1 then .accept else .delay
  | 2 => if s.transferring then .later else .accept
  | 3 => if s.pegs.waits.any fun w => s.flag (R.INST_STATUS_PEG_CTRL_WAIT_DELAY w.inst) then .delay else .accept
  | 4 => if deep && (s.rings.descs.any (fun d => d.started) || !s.rings.held.isEmpty) then .refuse 5
         else if deep && (!s.rings.due.isEmpty || !s.errs.toRings.isEmpty) then .later else .accept
  | 5 => if (List.range 17).any fun i => (s.inst i).st == .resetting then .delay else .accept
  | 7 => if deep then .delay else .accept
  | 8 => if deep && s.flitsInFlight then .refuse 6 else .accept
  | 9 => if s.flashWrites then .delay else .accept
  | 11 => if t != .idle && s.flag R.GUARD_CTRL_GUARD_HOLD then .refuse 2
          else if s.programs true then .refuse 1 else .accept
  | _ => .accept

/-- The entry commits; for DEEP and OFF the device takes leave of its chain (R498, R588). -/
def State.commitEntry (s : State) (t : PState) : State :=
  let s1 : State := { s with power := { s.power with committed := true } }
  if t.deepOrOff then ((List.range 4).filter fun p => s.portIsUp p).foldl (fun a p => a.sendOut p (.ctrl .leave)) s1 else s1

/-- A block has accepted: the last ACCEPT commits the entry, and the last but one of DEEP and OFF asks the PCIe block (R492). -/
def State.accepts (s : State) (t : PState) (b : Nat) : State :=
  let s1 : State := { s with power := { s.power with accepted := s.power.accepted ++ [b] } }
  if allBlocks.all fun c => s1.power.accepted.contains c then s1.commitEntry t
  else if !s1.power.askedPcie && allBlocks.all fun c => c == pcieBlock || s1.power.accepted.contains c then
    let s2 : State := { s1 with power := { s1.power with askedPcie := true } }
    s2.irq (s2.flag R.PSTATE_CTRL_IRQ_EN) (s2.rd R.PSTATE_CTRL_VECTOR)
  else s1

/-- A block answers DELAY: the fourth counts as a REFUSE, but not of the PCIe block in DEEP and OFF (R492, R494). -/
def State.delays (s : State) (t : PState) (b : Nat) : State :=
  let n := Tab.get (fun _ => 0) s.power.delays b
  if 3 ≤ n ∧ !(b == pcieBlock && t.deepOrOff) then s.abortEntry 2 b 3
  else { s with power := { s.power with
    delays := Tab.put (fun _ => 0) s.power.delays b (n + 1), askedAt := Tab.put (fun _ => 0) s.power.askedAt b s.now } }

/-- The block has been asked and has not accepted. -/
def State.asked (s : State) (b : Nat) : Bool :=
  !s.power.committed && !s.power.accepted.contains b && (b != pcieBlock || s.power.askedPcie)

/-- ENTRY_ANSWER: block `b` answers. -/
def State.entryAnswer (s : State) (b : Nat) : State :=
  match s.power.entry with
  | none => s
  | some t =>
    if !s.asked b then s
    else match s.answerOf t b with
      | .accept => s.accepts t b
      | .delay => s.delays t b
      | .refuse r => s.abortEntry 2 b r
      | .later => s

/-- ENTRY_ANSWER (R495). -/
def execEntryAnswer (b : Nat) (s : State) : Host.Outcome State Fault Refusal :=
  unit (decide (b < 12)) (s.when s.running fun s => s.entryAnswer b)

/-- ENTRY_ANSWER_TIMEOUT: no answer within 1 ms counts as REFUSE (R494). -/
def State.answerTimeout (s : State) (b : Nat) : State :=
  match s.power.entry with
  | none => s
  | some t =>
    if s.asked b && !(b == pcieBlock && t.deepOrOff) && decide (Tab.get (fun _ => 0) s.power.askedAt b + 1000000 ≤ s.now) then
      s.abortEntry 2 b 3
    else s

/-- ENTRY_ANSWER_TIMEOUT (R494). -/
def execEntryAnswerTimeout (b : Nat) (s : State) : Host.Outcome State Fault Refusal :=
  unit (decide (b < 12)) (s.when s.running fun s => s.answerTimeout b)

/-- LINK_L2L3_READY: the PCIe block accepts (R492). -/
def State.linkReady (s : State) : State :=
  match s.power.entry with
  | none => s
  | some t => if t.deepOrOff && s.asked pcieBlock then s.accepts t pcieBlock else s

/-- LINK_L2L3_READY (R492). -/
def execLinkL2l3Ready (s : State) : Host.Outcome State Fault Refusal := done (s.when s.running State.linkReady)

/-! ### A lower state is reached (R489, R493, R501) -/

/-- Rails that a state switches off, by the numbers of PRESS.GAIN (R489). Legacy mode switches none (R523). -/
def State.railsOffIn (s : State) (t : PState) : List Nat :=
  if s.legacy then []
  else match t with
    | .run => []
    | .idle => []
    | .sleep => [8, 10]
    | .deep => List.range 9 ++ [10, 11, 12, 13, 14, 15] ++ (if s.flag R.GUARD_CTRL_GUARD_IN_DEEP then [] else [16])
    | .off => List.range 19

/-- Commands on a bus that switch rails, by the numbers of PRESS.GAIN, and move `n` set points to or from retention: a Power Mode write
each, and a Voltage write and its Status read each (R508, R509, R514). None in legacy mode (R505). -/
def State.switchRails (s : State) (t : PState) (rails : List Nat) : State :=
  let keep := fun b => if t = .sleep then (if b = 0 then countIf s.railPresent (List.range 8) else 0)
    else if t = .deep ∧ b = 1 then 1 else 0
  if s.legacy then s
  else [0, 1].foldl (fun (a : State) b => a.avsCommands b ((rails.filter fun g => (if g < 9 then 0 else 1) == b).length + 2 * keep b)) s

/-- Skew monitors are disarmed at isolated crossings (R304). -/
def State.disarm (s : State) : State :=
  (List.range 8).foldl (fun (a : State) d => a.wr (R.DIE_XING_TRIP_HELD d) 0) { s with power := { s.power with held := [] } }

/-- What SLEEP changes: the analog half is down, ports go to electrical idle (R588), and a chain calibration runs again after
the exit (R122). -/
def State.intoSleep (s : State) : State :=
  let engines := s.arr.engines.map fun p => if computeEngine p.1 then (p.1, { p.2 with lastDeck := none }) else p
  let ports := (List.range 4).filter fun p => s.portIsUp p
  let idle := ports.foldl (fun a p => a.setPortState p 7) s.disarm
  let s1 : State := { idle with arr := { idle.arr with engines := engines } }
  { s1 with steps := s1.steps.map fun t => { t with pleats := t.pleats.map fun p => { p with calAgain := true } } }

/-- What DEEP loses. -/
def State.intoDeep (s : State) : State :=
  let s1 := (s.disarm.loseDies).loseChain
  let s2 : State := { s1 with rings := { s1.rings with linkUp := false } }
  if s2.flag R.GUARD_CTRL_GUARD_IN_DEEP then s2 else s2.guardDown false

/-- What OFF loses, once the instance table, the counters and ENERGY are saved. -/
def State.intoOff (s : State) : State := ((s.disarm.loseDies).guardDown true).loseHub

/-- What a state keeps and loses (R489). -/
def State.into (s : State) (t : PState) : State :=
  match t with
  | .run => s
  | .idle => s
  | .sleep => s.intoSleep
  | .deep => s.intoDeep
  | .off => s.intoOff

/-- ENTRY_COMPLETE: every rail has acknowledged. A wake latched during the entry is replayed, and the exit starts at once. -/
def State.entryComplete (s : State) : State :=
  match s.power.entry with
  | none => s
  | some t =>
    if !s.power.committed then s
    else
      let off := (s.railsOffIn t).filter fun r => !s.volt.off.contains r
      let s1 := (((s.entryResult 1 0 0).endEntry').switchRails t off).into t
      let s2 : State := { s1 with
        volt := { s1.volt with off := s1.volt.off ++ off }
        power := { s1.power with st := t, latched := none, recorded := s.power.latched.isSome } }
      match s.power.latched with
      | some w => (s2.recordWake w t true).startExit w.source
      | none => s2

/-- ENTRY_COMPLETE (R493). -/
def execEntryComplete (s : State) : Host.Outcome State Fault Refusal := done (s.when s.running State.entryComplete)

/-! ### Wake events (R499 to R501) -/

/-- DETAIL of a source lies in its range (R499). -/
def detailOk (src detail : Nat) : Bool :=
  match src with
  | 1 => detail == 0
  | 2 => detail == 0
  | 3 => decide (detail ≤ 16)
  | 4 => decide (detail < 4)
  | 5 => decide (detail < 4)
  | 6 => decide (detail < 8)
  | 7 => decide (detail < 16)
  | 8 => decide (detail < 16)
  | _ => false

/-- WAKE_EVENT (R501). -/
def execWakeEvent (src detail : Nat) (s : State) : Host.Outcome State Fault Refusal :=
  unit (detailOk src detail) (s.wake src detail)

/-- DEV_WAKE_N (R499). -/
def execDevWakeN (s : State) : Host.Outcome State Fault Refusal := done (s.wake 1 0)

/-! ### Return to RUN (R502 to R504) -/

/-- The exit awaits step `n`, and the device has not halted. -/
def State.awaiting (s : State) (n : Nat) : Bool := s.power.exit == n && !s.halted && s.aon

/-- Rails come up: each regulator has acknowledged its V-point, and V_GUARD is good. -/
def State.railsOn (s : State) : State :=
  let s0 := s.switchRails s.power.st s.volt.off
  let s1 : State := { s0 with volt := { s0.volt with off := [] } }
  (if s1.power.st = .deep ∨ s1.power.st = .off then s1.guardUp (s1.power.st == .off) else s1).settleAll

/-- The next step of the exit is awaited. -/
def State.nextStep (s : State) (n : Nat) : State := { s with power := { s.power with exit := n, repeated := false } }

/-- VR_PGOOD (R502). -/
def execVrPgood (s : State) : Host.Outcome State Fault Refusal := done (s.when (s.awaiting 1) fun s => s.railsOn.nextStep 2)

/-- OSC_RDY (R502): references are trimmed. In legacy mode no rail was awaited (R505). -/
def execOscRdy (s : State) : Host.Outcome State Fault Refusal :=
  done (s.when (s.awaiting 2) fun s => (if s.legacy then s.railsOn else s).nextStep 3)

/-- MEM_RDY (R502). -/
def execMemRdy (s : State) : Host.Outcome State Fault Refusal := done (s.when (s.awaiting 3) fun s => s.nextStep 4)

/-- What the hub restores after DEEP or OFF (R504, R528, R551). -/
def State.restore (s : State) (from_ : PState) (keyOk : Bool) : State :=
  let s1 := (s.renewAll keyOk false).loseEntries
  let s2 := (List.range 8).foldl (fun (a : State) d => a.wr (R.PRESS_LEVEL_LEVEL d) 1) s1
  if from_ = .off then s2.bump R.TIME_STATUS_OFF_COUNT 1 else s2

/-- LOGIC_RDY: state restored, held records written, hems reopened and held writes delivered (R304, R311, R497, R504, R595). -/
def State.logicRdy (s : State) (keyOk : Bool) : State :=
  let from_ := s.power.st
  let s1 := ({ s with power := { s.power with
    st := .run, exit := 0, repeated := false, recorded := false, reqHeld := none, idleSince := s.now } } : State).deliverHeld
  let s0 := (List.range 8).foldl State.startVisits s1
  let s2 := (if from_.deepOrOff then s0.restore from_ keyOk else s0).openHems
  match s.power.reqHeld with
  | some t => s2.startEntry t
  | none => s2.retarget

/-- READY_TIMEOUT: the step is repeated once; a second miss is FATAL (R503). -/
def State.readyMissed (s : State) : State :=
  if s.power.exit = 0 ∨ s.halted then s
  else if !s.power.repeated then { s with power := { s.power with repeated := true } }
  else s.raise Rc.pstateTimeout fatalClass noOwner s.power.st.code s.power.exit

/-- READY_TIMEOUT (R503). -/
def execReadyTimeout (s : State) : Host.Outcome State Fault Refusal := done s.readyMissed

end Sys2Proof.Machine
end

