-- ==== Sys2Proof/Machine/Flash.lean ====
section
/-!
DEFINITION. The program-store flash: its commands, their ends, window reads and firmware's record writes (R552 to R566).
-/

namespace Sys2Proof.Machine

/-! ### The map (R552, R553) -/

/-- Bytes of the flash. -/
def flashBytes : Nat := 0x20000000

/-- First byte and size of the sector that holds a flash address. -/
def sectorOf (a : Nat) : Nat × Nat :=
  let r := a % bankBytes
  if r < 0x20000 then (a - a % 0x2000, 0x2000)
  else if r < 0x40000 then (a - r + 0x20000, 0x20000)
  else (a - a % 0x40000, 0x40000)

/-- Regions that only hub firmware writes (R553). -/
def firmwareOnly (a n : Nat) : Bool := decide (a + n ≤ 0x20000 ∨ (0x02000000 ≤ a ∧ a + n ≤ flashUser))

/-! ### Commands (R556 to R558) -/

/-- RESULT codes of FLASH.STATUS. -/
def flashLocked : Nat := 1
/-- See `flashLocked`. -/
def flashAddrInvalid : Nat := 2
/-- See `flashLocked`. -/
def flashBankBusy : Nat := 3
/-- See `flashLocked`. -/
def flashZeroToOne : Nat := 4
/-- See `flashLocked`. -/
def flashOverprogram : Nat := 5
/-- See `flashLocked`. -/
def flashTimedOut : Nat := 6
/-- See `flashLocked`. -/
def flashNotBlank : Nat := 7
/-- See `flashLocked`. -/
def flashSigInvalid : Nat := 8
/-- See `flashLocked`. -/
def flashNotSuspended : Nat := 9

/-- FLASH.DATA as bytes. -/
def State.flashData (s : State) (n : Nat) : List Nat :=
  ((List.range 64).flatMap fun i => leBytes 4 (s.rd (R.FLASH_DATA_DATA i))).take n

/-- ADDR and LENGTH of a command meet R557 and R558 row 1. -/
def flashArgs (op a n : Nat) : Bool :=
  match op with
  | 1 => a % 16 == 0 && n % 16 == 0 && decide (16 ≤ n ∧ n ≤ 256 ∧ a + n ≤ flashBytes ∧ a / bankBytes = (a + n - 1) / bankBytes)
  | 2 => (sectorOf a).1 == a
  | 3 => true
  | 4 => true
  | 5 => a % 16 == 0 && n % 16 == 0 && decide (a + n ≤ flashBytes)
  | 6 => a % 16 == 0 && n % 16 == 0 && decide (a + n ≤ flashBytes)
  | 7 => decide (64 ≤ n ∧ n ≤ 0x2000000)
  | _ => false

/-- An operation of the management instance programs or erases. -/
def FlashOp.writes (o : FlashOp) : Bool := o.kind == 1 || o.kind == 2

/-- The management instance has a program or erase, running or suspended, in the bank of an address (R558 row 3). -/
def State.bankTaken (s : State) (a : Nat) : Bool :=
  let here := fun (o : Option FlashOp) => match o with
    | some x => x.writes && x.addr / bankBytes == a / bankBytes
    | none => false
  here s.flash.op || here s.flash.susp

/-- Times a flash word was programmed since its erase. -/
def State.wordCount (s : State) (w : Nat) : Nat := Tab.get (fun _ => 0) s.flash.words w

/-- Some bit is 1 in the data and 0 in the word (R556). -/
def zeroToOne (old new : List Nat) : Bool := (old.zip new).any fun p => p.1 &&& p.2 != p.2

/-- R556's refusal of the first word it refuses; 0 = none. -/
def State.wordRefusal (s : State) (a : Nat) (data : List Nat) : Nat :=
  let one := fun j =>
    if zeroToOne (s.flashRead (a + 16 * j) 16) ((data.drop (16 * j)).take 16) then flashZeroToOne
    else if 2 ≤ s.wordCount (a / 16 + j) then flashOverprogram else 0
  (((List.range (data.length / 16)).map one).find? fun r => r != 0).getD 0

/-- The decision of R558 on a command; 0 = it runs. -/
def State.flashRefusal (s : State) (op a n : Nat) : Nat :=
  if !flashArgs op a n then flashAddrInvalid
  else if (op = 1 ∨ op = 2) ∧ a < flashUser then flashLocked
  else if (op = 1 ∨ op = 2) ∧ s.bankTaken a then flashBankBusy
  else if op = 4 ∧ s.flash.susp.isNone then flashNotSuspended
  else if op = 3 ∧ !(match s.flash.op with
    | some o => o.kind == 2
    | none => false) then flashNotSuspended
  else if op = 1 then s.wordRefusal a (s.flashData n)
  else 0

/-- A result of FLASH.STATUS. -/
def State.flashResult (s : State) (r : Nat) : State := s.wr R.FLASH_STATUS_RESULT r

/-- `n` free bytes from the present one on. -/
def State.freeBytes (s : State) (n : Nat) : List Nat := (List.range n).map fun j => Config.freeNat (s.free + j) % 256

/-- Flash bytes from an address become what they may: nothing states them. -/
def State.flashUnknown (s : State) (a n : Nat) : State :=
  let bs := s.freeBytes n
  ({ s with flash := { s.flash with bytes := cellsWrite erased s.flash.bytes a bs } } : State).skip n

/-- The longest time in ns that a program or erase takes (R561). -/
def FlashOp.longest (o : FlashOp) : Nat :=
  if o.kind = 2 then (if (sectorOf o.addr).2 = 0x2000 then 200000000 else 2000000000) else 120000 * ((o.len + 15) / 16)

/-- A record write of firmware that waited begins to run. -/
def FlashOp.runs (o : FlashOp) (now : Nat) : FlashOp := if o.kind = 15 then o else { o with kind := 15, start := now }

/-- SUSPEND: the erase stops where it is; what its sector holds meanwhile is open. -/
def State.flashSuspend (s : State) : State :=
  match s.flash.op with
  | none => s
  | some o =>
    let s1 := s.flashUnknown (sectorOf o.addr).1 (sectorOf o.addr).2
    { s1 with flash := { s1.flash with op := none, susp := some { o with start := s.now - o.start } } }

/-- RESUME: the erase runs on. -/
def State.flashResume (s : State) : State :=
  { s with flash := { s.flash with op := s.flash.susp.map fun o => { o with start := s.now - o.start }, susp := none } }

/-- A command runs: SUSPEND and RESUME at once, the others until `FLASH_OP_END`. -/
def State.flashBegin (s : State) (op a n : Nat) : State :=
  match op with
  | 3 => s.flashSuspend.flashResult 0
  | 4 => s.flashResume.flashResult 0
  | 1 => { s with flash := { s.flash with op := some ⟨1, a, n, s.flashData n, s.now⟩ } }
  | 7 => { s with flash := { s.flash with op := some ⟨7, s.rd R.FLASH_UPDATE_SRC_ADDR * 64, n, [], s.now⟩ } }
  | _ => { s with flash := { s.flash with op := some ⟨op, a, n, [], s.now⟩ } }

/-- A command of FLASH.CMD is decided (R558). -/
def State.flashRun (s : State) (op : Nat) : State :=
  let a := s.rd R.FLASH_ADDR_ADDR
  let n := s.rd R.FLASH_LENGTH_LENGTH
  let r := s.flashRefusal op a n
  if r = 0 then (s.flashBegin op a n).bump (R.FLASH_COUNT_COUNT 0) 1
  else (s.flashResult r).bump (R.FLASH_COUNT_COUNT 1) 1

/-- A flash command waits for a control processor (R609). -/
def State.flashWaits (s : State) : Bool := s.rings.fwWaiting.any fun p => p.1 == R.FLASH_CMD_GO.key

/-- FLASH.STATUS.BUSY. -/
def State.flashBusy (s : State) : Bool := s.flash.op.isSome || s.flashWaits

/-- An ERASE runs and may be suspended: the one GO that BUSY does not turn away (R557). -/
def State.mayPause (s : State) (op : Nat) : Bool :=
  op == 3 && !s.flashWaits && match s.flash.op with
    | some o => o.kind == 2
    | none => false

/-- GO written to FLASH.CMD: ignored while a command runs; it waits while a control processor restarts (R557, R609). -/
def State.flashGo (s : State) (op : Nat) : State :=
  if s.flashBusy && !s.mayPause op then s
  else if s.fwUp then s.flashRun op
  else { s with rings := { s.rings with fwWaiting := s.rings.fwWaiting ++ [(R.FLASH_CMD_GO.key, op)] } }

/-- A write of FLASH.CMD. -/
def State.writeFlashCmd (s : State) (v : Nat) : State := if bit v 31 then s.flashGo (fld v 3 0) else s

/-- A write of FLASH.CMD that starts a command, while the hub serves accesses. -/
def State.flashCmd (s : State) (op : Nat) : State := s.when s.hubUp fun s => s.cmdWrite 0 fun s => s.flashGo op

/-- PROGRAM (R557). -/
def execProgram (s : State) : Host.Outcome State Fault Refusal := done (s.flashCmd 1)
/-- ERASE (R557). -/
def execErase (s : State) : Host.Outcome State Fault Refusal := done (s.flashCmd 2)
/-- SUSPEND (R557). -/
def execSuspend (s : State) : Host.Outcome State Fault Refusal := done (s.flashCmd 3)
/-- RESUME (R557). -/
def execResume (s : State) : Host.Outcome State Fault Refusal := done (s.flashCmd 4)
/-- BLANK_CHECK (R557). -/
def execBlankCheck (s : State) : Host.Outcome State Fault Refusal := done (s.flashCmd 5)
/-- CRC32C (R557). -/
def execCrc32c (s : State) : Host.Outcome State Fault Refusal := done (s.flashCmd 6)
/-- SIGNED_UPDATE (R565). -/
def execSignedUpdate (s : State) : Host.Outcome State Fault Refusal := done (s.flashCmd 7)

/-! ### Ends (R556, R557, R562, R565) -/

/-- A word has been programmed once more. -/
def State.countWord (s : State) (w : Nat) : State :=
  { s with flash := { s.flash with words := Tab.put (fun _ => 0) s.flash.words w (s.wordCount w + 1) } }

/-- The words of a range have been programmed once more. -/
def State.countWords (s : State) (a n : Nat) : State := (unitsOf 16 a n).foldl State.countWord s

/-- A program clears bits (R556). -/
def State.programBytes (s : State) (a : Nat) (data : List Nat) : State :=
  let new := ((s.flashRead a data.length).zip data).map fun p => p.1 &&& p.2
  ({ s with flash := { s.flash with bytes := cellsWrite erased s.flash.bytes a new } } : State).countWords a data.length

/-- An erase sets every bit of a sector and clears its program flags (R556). -/
def State.eraseSector (s : State) (a : Nat) : State :=
  let q := sectorOf a
  let bytes := Tab.clearKeys (fun k => decide (q.1 ≤ k ∧ k < q.1 + q.2)) s.flash.bytes
  let words := Tab.clearKeys (fun w => decide (q.1 / 16 ≤ w ∧ w < (q.1 + q.2) / 16)) s.flash.words
  { s with flash := { s.flash with bytes := bytes, words := words } }

/-- BLANK_CHECK's RESULT: the first word of a range that is not erased, or all ones. -/
def State.firstDirty (s : State) (a n : Nat) : Nat :=
  match ((s.flash.bytes.map Prod.fst).filter fun k => decide (a ≤ k ∧ k < a + n)).min? with
  | none => 0xFFFFFFFF
  | some k => k - k % 16

/-- A range meets a busy bank, so that BLANK_CHECK and CRC32C wait (R559). -/
def State.rangeBusy (s : State) (a n : Nat) : Bool := (unitsOf bankBytes a n).any fun b => s.bankBusy b

/-- Regions that signed updates write: factory and firmware (R553). -/
def updateRegion (r : Nat) : Nat × Nat := if r = 0 then (0x20000, 0x7E0000) else (0x800000, 0x1800000)

/-- A package that verifies is written to the inactive copy of its region, which then comes into force (R565). -/
def State.applyPackage (s : State) (p : List Nat) : State :=
  let r := Config.packageRegion p % 2
  let copy := 1 - s.flash.inForce.getD r 0
  let reg := updateRegion r
  let img := ((Config.packageImage p).take (reg.2 / 2)).map (· % 256)
  let at_ := reg.1 + Config.copyPlace r copy % (reg.2 / 2)
  let s1 : State := { s with flash := { s.flash with
    bytes := cellsWrite erased s.flash.bytes at_ img
    inForce := s.flash.inForce.set r copy } }
  if r = 0 then
    let tab := (List.range 144).foldl (fun (t : Tab Nat) k => Tab.put otpTypical t k (Config.packageTable p k % 65536)) []
    { s1 with volt := { s1.volt with copy := tab, copyOk := true } }
  else s1

/-- The effect and RESULT of a command that ends. -/
def State.flashEffect (s : State) (o : FlashOp) : State :=
  match o.kind with
  | 1 => (s.programBytes o.addr o.data).flashResult 0
  | 2 => (s.eraseSector o.addr).flashResult 0
  | 5 =>
    let d := s.firstDirty o.addr o.len
    (s.wr R.FLASH_RESULT_VALUE d).flashResult (if d = 0xFFFFFFFF then 0 else flashNotBlank)
  | 6 => (s.wr R.FLASH_RESULT_VALUE (crc32c (s.flashRead o.addr o.len))).flashResult 0
  | 7 =>
    let p := s.hostRead o.addr o.len
    if Config.packageOk p then (s.applyPackage p).flashResult 0 else s.flashResult flashSigInvalid
  | _ => s

/-- FLASH registers other than counters return to reset (R616). -/
def State.resetFlashRegs (s : State) : State :=
  s.resetRegs fun k => decide (0xC0000 ≤ k ∧ k < 0xD0000) && !decide (0xC0020 ≤ k ∧ k < 0xC0034)

/-- The management instance's operation is over; after a reset its registers read their reset values (R566). A record
write that waited for it runs. -/
def State.flashFree (s : State) : State :=
  let fw := s.flash.fw.map fun x => x.runs s.now
  let s1 : State := { s with flash := { s.flash with op := none, fw := fw, resetAfter := false } }
  if s.flash.resetAfter then s1.resetFlashRegs else s1

/-- A record write of firmware runs in bank 0. -/
def State.fwWrites (s : State) : Bool :=
  match s.flash.fw with
  | some o => o.kind == 15
  | none => false

/-- The management instance's operation cannot end yet: firmware writes in its bank, or it waits at a busy bank (R559, R560). -/
def State.flashHeld (s : State) (o : FlashOp) : Bool :=
  s.fwWrites && (o.busies 0 || ((o.kind == 5 || o.kind == 6) && s.rangeBusy o.addr o.len))

/-- V_FLASH and the hub are up, so that the flash works. -/
def State.flashOn (s : State) : Bool := s.aon && !s.hubAsleep && !s.halted

/-- Firmware's write of a record begins, or waits: a running ERASE of bank 0 is suspended for it, and a PROGRAM or an update of bank 0 is
waited for (R560). -/
def State.recordStart (s : State) (a : Nat) (bs : List Nat) : State :=
  let inBank0 := match s.flash.op with
    | some o => if o.busies 0 then o.kind else 0
    | none => 0
  let kind := if inBank0 = 1 ∨ inBank0 = 7 then 16 else 15
  let s1 := if inBank0 = 2 then s.bump (R.FLASH_COUNT_COUNT 4) 1 else s
  { s1 with flash := { s1.flash with fw := some ⟨kind, a, bs.length, bs, s.now⟩ } }

/-- Firmware's record write is over: an ERASE that it suspended runs on, later by as much, and the next record follows (R560). -/
def State.recordOver (s : State) : State :=
  match s.flash.fw with
  | none => s
  | some w =>
    let on := s.flash.op.map fun o => if o.kind = 2 ∧ o.busies 0 then { o with start := o.start + (s.now - w.start) } else o
    let s1 : State := { s with flash := { s.flash with op := on, fw := none, due := s.flash.due.drop 1 } }
    match s.flash.due with
    | [] => s1
    | x :: _ => s1.recordStart x.1 x.2

/-- Firmware's record is in the flash (R560). -/
def State.recordWritten (s : State) : State :=
  match s.flash.fw with
  | none => s
  | some o => { s with flash := { s.flash with bytes := cellsWrite erased s.flash.bytes o.addr o.data, fw := none } }

/-- The record write that runs ends with its record in the flash. -/
def State.recordEnd (s : State) : State :=
  ({ s.recordWritten with flash := { s.recordWritten.flash with fw := s.flash.fw } } : State).recordOver

/-- FLASH_OP_END: the management instance's operation ends, or, with `fw`, firmware's record write. -/
def State.flashEnd (s : State) (fw : Bool) : State :=
  if fw then s.when s.fwWrites State.recordEnd
  else match s.flash.op with
    | none => s
    | some o => if s.flashHeld o then s else ((s.flashEffect o).flashFree).busyNow

/-- FLASH_OP_END (R561). -/
def execFlashOpEnd (fw : Bool) (s : State) : Host.Outcome State Fault Refusal := done (s.when s.flashOn fun s => s.flashEnd fw)

/-- What an operation was writing is open, and its words count as programmed (R562). -/
def State.flashBroken (s : State) (o : FlashOp) : State :=
  if o.kind = 2 then s.flashUnknown (sectorOf o.addr).1 (sectorOf o.addr).2
  else if o.kind = 1 ∨ o.kind = 15 then
    let n := if o.kind = 1 then o.len else o.data.length
    (s.flashUnknown o.addr n).countWords o.addr n
  else s

/-- The record of a program or erase that ran out of time (R562). -/
def State.flashLate (s : State) (o : FlashOp) : State :=
  s.raise Rc.flashTimeout deviceClass noOwner o.addr (if o.kind = 15 then 1 else o.kind)

/-- FLASH_TIMEOUT of the management instance's PROGRAM or ERASE that has passed its longest time, or, with `fw`, of firmware's record
write. -/
def State.flashTimeout (s : State) (fw : Bool) : State :=
  if fw then
    if !s.fwWrites then s
    else match s.flash.fw with
      | none => s
      | some o =>
        if s.now < o.start + o.longest then s else (((s.flashBroken o).recordOver).bump (R.FLASH_COUNT_COUNT 3) 1).flashLate o
  else match s.flash.op with
    | none => s
    | some o =>
      if !o.writes ∨ s.flashHeld o ∨ s.now < o.start + o.longest then s
      else ((((s.flashBroken o).flashResult flashTimedOut).bump (R.FLASH_COUNT_COUNT 3) 1).flashFree).flashLate o

/-- FLASH_TIMEOUT (R562). -/
def execFlashTimeout (fw : Bool) (s : State) : Host.Outcome State Fault Refusal :=
  done (s.when s.flashOn fun s => s.flashTimeout fw)

/-! ### Reads and firmware (R559, R560) -/

/-- Word of FLASH.WINDOW at offset `off` of the window. -/
def State.readWindow (s : State) (off : Nat) : State × Nat :=
  let a := s.rd R.FLASH_WIN_BASE_BASE * 0x8000 + (off - off % 4)
  if s.bankBusy (a / bankBytes) then
    ((s.setFlag R.FLASH_STATUS_FLASH_BUSY true).bump (R.FLASH_COUNT_COUNT 2) 1, 0xFFFFFFFF)
  else (s, leNat (s.flashRead a 4))

/-- FLASH_WINDOW_READ: a read of the window, whose value is in `holds.last`. -/
def State.windowRead (s : State) (off : Nat) : State :=
  let r := s.readWindow off
  ({ r.1 with holds := { r.1.holds with last := r.2 } } : State).pcieTouch 0

/-- FLASH_WINDOW_READ (R559). -/
def execFlashWindowRead (off : Nat) (s : State) : Host.Outcome State Fault Refusal :=
  unit (decide (off < 0x8000)) (s.when s.hubUp fun s => s.windowRead off)

/-- FIRMWARE_RECORD_WRITE: a record becomes due; it is written at once, or behind the one that is being written (R560). -/
def State.recordDue (s : State) (a : Nat) (bs : List Nat) : State :=
  if !firmwareOnly a bs.length then s
  else if s.flash.fw.isSome then { s with flash := { s.flash with due := s.flash.due ++ [(a, bs)] } }
  else s.recordStart a bs

/-- FIRMWARE_RECORD_WRITE (R560). -/
def execFirmwareRecordWrite (addr : Nat) (bytes : List Nat) (s : State) : Host.Outcome State Fault Refusal :=
  unit (decide (addr < flashBytes)) (s.when s.flashOn fun s => s.recordDue addr (bytes.map (· % 256)))

end Sys2Proof.Machine
end

