-- ==== Sys2Proof/Machine/Chain.lean ====
section
/-!
DEFINITION. Chain ports: bring-up, acknowledgement, credits and replay, and ports that go down (R567 to R575, R587).
-/

namespace Sys2Proof.Machine

/-! ### Transfers that fail or end (R309, R583, R584) -/

/-- The transfers of what a transfer serves. -/
def Transfer.same (a b : Transfer) : Bool :=
  a.isDesc == b.isDesc && a.uid == b.uid && (a.isDesc || (a.st == b.st && a.op == b.op))

/-- Nothing of what a transfer serves is awaited any more. -/
def State.dropTransfers (s : State) (t : Transfer) : State :=
  { s with chain := { s.chain with transfers := s.chain.transfers.filter fun u => !t.same u } }

/-- A hub copy is over. -/
def State.dropCopy (s : State) (uid : Nat) : State :=
  { s with rings := { s.rings with dma := s.rings.dma.filter fun k => k.desc != uid } }

/-- Place and location of R594 for a transfer that fails. -/
def Transfer.place (t : Transfer) (status cl : Nat) : Nat × Nat :=
  if status = St.domainDown then (cl, 0) else (t.handle, locOf 2 t.off)

/-- A transfer fails: its copy, or its operation and the step, ends with a status. -/
def State.transferFails (s : State) (t : Transfer) (status : Nat) : State :=
  let s1 := s.dropTransfers t
  if t.isDesc then (s1.dropCopy t.uid).complete t.uid status t.acked
  else match s1.op? t.uid t.st t.op with
    | none => s1
    | some x =>
      let at_ := t.place status x.2.1.clusterNo
      (s1.failStep t.uid status at_.1 at_.2 x.2.2.step).opDone t.uid t.st t.op

/-- Every write of a copy, or of an operation, has been acknowledged. -/
def State.transferEnds (s : State) (t : Transfer) : State :=
  if t.isDesc then
    match s.rings.dma.find? (fun j => j.desc == t.uid), s.desc? t.uid with
    | some j, some d =>
      let s1 := s.dropCopy t.uid
      if j.srcSpace = stoppedCopy then s1.complete t.uid j.pegValue (j.len / 64) else s1.dmaEnd d.inst j
    | _, _ => s
  else s.opDone t.uid t.st t.op

/-- The master has answered the host write `tag` (R362, R579). -/
def State.hostWritten (s : State) (tag : Nat) : State :=
  { s with chain := { s.chain with hostWrites := s.chain.hostWrites.filter fun w => w.1 != tag } }

/-- An acknowledgement of `blocks` blocks of transfer `tag` of instance `i`, or its failure. -/
def State.acknowledge (s : State) (i tag blocks status : Nat) : State :=
  match s.chain.transfers.find? fun t => t.tag == tag && t.inst == i with
  | none => s.hostWritten tag
  | some t =>
    if status = St.domainDown then s.transferFails t St.domainDown
    else if status ≠ St.ok then s.transferFails t St.stepBounds
    else
      let t1 := { t with left := t.left - 1, acked := t.acked + blocks }
      let rest := s.chain.transfers.filter fun u => !(u.tag == tag && u.inst == i)
      if t1.left ≠ 0 then { s with chain := { s.chain with transfers := rest ++ [t1] } }
      else
        let s1 : State := { s with chain := { s.chain with transfers := rest } }
        if rest.any fun u => t.same u then s1 else s1.transferEnds t

/-! ### Flits that cannot be delivered (R587) -/

/-- A completion record that ends a forwarded descriptor on the master's side. -/
def failedDesc (ring slot status : Nat) (b : List Nat) : CRec :=
  ⟨0, 0, ring, slot, 0, dId b, dType b, dIrq b, status, failDetail (dType b), 0, none, none, []⟩

/-- A flit sent back to the origin of another, under its instance and chain generation. -/
def State.sendBack (s : State) (f : Flit) (pl : Payload) : State :=
  match s.route f.src with
  | none => s
  | some p => s.enqueue p { s.newFlit f.src f.inst pl with cgen := f.cgen, cls := s.nextClass 0 none p }

/-- The forwarded descriptor of a slot that runs on device `dev` (R579). -/
def State.forwarded (s : State) (i ring slot dev : Nat) : Option Desc :=
  s.rings.descs.find? fun d =>
    d.inst == i && d.ring == ring && d.slot == slot && d.started && d.fromDev.isNone && dDevice d.bytes == dev

/-- A flit is answered to its origin with DOMAIN_DOWN: a transfer by its tag, a forwarded descriptor by its record. -/
def State.answerDown (s : State) (f : Flit) : State :=
  let mine := f.src == s.rd R.CHAIN_STATUS_DEVICE_ID
  match f.payload with
  | .data _ _ tag _ _ _ => if mine then s.acknowledge f.inst tag 0 St.domainDown else s.sendBack f (.xack tag 0 St.domainDown)
  | .host _ _ _ tag _ => if mine then s.acknowledge f.inst tag 0 St.domainDown else s.sendBack f (.xack tag 0 St.domainDown)
  | .desc ring slot b =>
    if mine then
      match s.forwarded f.inst ring slot f.dst with
      | some d => s.complete d.uid St.domainDown (failDetail (dType b))
      | none => s
    else s.sendBack f (.record 0 ring slot ((failedDesc ring slot St.domainDown b).bytes false (s.now % 2 ^ 32)))
  | _ => s

/-- A flit whose port is down leaves by another, or is answered. Control messages of one link are dropped with it. -/
def State.reroute (s : State) (f : Flit) : State :=
  match f.payload with
  | .ctrl (.enumerate ..) => s
  | .ctrl .leave => s
  | .ctrl .wake => s
  | _ =>
    match s.route f.dst with
    | some q => s.enqueue q { f with cls := if f.cls = 1 then 1 else b2n (s.crosses q) }
    | none => s.answerDown f

/-- A broad instance has parts on more than one device: SPAN says so at the master, a chain generation elsewhere. -/
def State.spansChain (s : State) (i : Nat) : Bool :=
  (s.inst i).broad && (if s.isMaster then !(s.spanned i).isEmpty else s.rd (R.CHAIN_CGEN_CGEN (i - 1)) != 0)

/-- Ring: every step of a broad instance that spans devices fails with DOMAIN_DOWN (R352, R587). -/
def State.failSpanning (s : State) : State :=
  if s.rd R.CHAIN_CTRL_TOPO = 1 then
    (s.steps.filter fun t => decide (1 ≤ t.inst) && s.spansChain t.inst).foldl
      (fun a t => a.failStep t.uid St.domainDown 0xFFFF 0 t.lowest) s
  else s

/-- The flits of a port leave it, and the port starts afresh. -/
def State.emptyPort (s : State) (p : Nat) : State :=
  let a := s.port p
  (a.unacked ++ a.queue).foldl (fun b f => b.reroute f)
    (s.setPort p { Port.init with retryAt := a.retryAt, wasUp := a.wasUp, since := a.since })

/-- A port goes down: it returns to DETECT, its flits are rerouted or answered, and a budget ends with it (R550, R587). -/
def State.portDown (s : State) (p : Nat) : State :=
  let peer := s.rd (R.CHAIN_PORT_STATUS_PEER p)
  let s1 := ((s.setPortState p 1).wr (R.CHAIN_PORT_STATUS_LANES p) 0).bump (R.CHAIN_PORT_COUNT_COUNT p 6) 1
  let s2 := ((s1.raise Rc.chainPortDown deviceClass noOwner p peer).emptyPort p).failSpanning
  if s2.isMaster then s2 else s2.takeBudget 0

/-! ### Replay (R572, R573) -/

/-- A port changes. -/
def State.modPort (s : State) (p : Nat) (f : Port → Port) : State := s.setPort p (f (s.port p))

/-- A replay starts: every unacknowledged flit is sent again, in SEQ order. -/
def State.startReplay (s : State) (p : Nat) : State :=
  match (s.port p).unacked with
  | [] => s
  | f :: _ =>
    (s.modPort p fun a => { a with replay := f.seq + 1, ackAt := s.now }).bump (R.CHAIN_PORT_COUNT_COUNT p 3) 1

/-- A replay fails; at the third within 1 ms the port goes down. -/
def State.replayFails (s : State) (p : Nat) : State :=
  let fails := ((s.port p).fails.filter fun t => decide (s.now < t + 1000000)) ++ [s.now]
  let s1 := (s.modPort p fun a => { a with fails := fails, replay := 0 }).bump (R.CHAIN_PORT_COUNT_COUNT p 5) 1
  if 3 ≤ fails.length then s1.portDown p else s1.startReplay p

/-- A replay succeeds: RETRY_OK, and a record once per 10 ms. -/
def State.replayWorks (s : State) (p : Nat) : State :=
  let s1 := (s.modPort p fun a => { a with replay := 0 }).bump (R.CHAIN_PORT_COUNT_COUNT p 4) 1
  let last := (s1.port p).retryAt
  if last = 0 ∨ last - 1 + 10000000 ≤ s.now then
    (s1.modPort p fun a => { a with retryAt := s.now + 1 }).raise Rc.chainRetry corrected noOwner p
      (s1.rd (R.CHAIN_PORT_COUNT_COUNT p 4))
  else s1

/-- ACK of every flit up to a SEQ. -/
def State.ackTo (s : State) (p ack : Nat) : State :=
  let a := s.port p
  match a.unacked with
  | [] => s
  | f :: _ =>
    let n := (ack + 4097 - f.seq) % 4096
    if n = 0 ∨ a.unacked.length < n then s
    else
      let gone := a.unacked.take n
      let s1 := s.setPort p { a with unacked := a.unacked.drop n, ackAt := s.now }
      (if a.replay ≠ 0 ∧ gone.any (fun g => g.seq + 1 == a.replay) then s1.replayWorks p else s1).pumpPort p

/-- A NAK: its ACK, and a replay; a replay that meets the NAK of its own first flit has failed. -/
def State.nakFrom (s : State) (p ack : Nat) : State :=
  let s1 := s.ackTo p ack
  match (s1.port p).unacked with
  | [] => s1
  | f :: _ => if (s1.port p).replay = f.seq + 1 then s1.replayFails p else s1.startReplay p

/-- Chain port numbers. -/
def portOk (p : Nat) : Bool := decide (p < 4)

/-- A port moves flits: UP, with the hub serving. -/
def State.portLive (s : State) (p : Nat) : Bool := s.hubUp && s.portIsUp p

/-- NAK_RECEIVED (R573). -/
def execNakReceived (p ack : Nat) (s : State) : Host.Outcome State Fault Refusal :=
  unit (portOk p) (s.when (s.portLive p) fun s => s.nakFrom p (ack % 4096))

/-- ACK_TIMEOUT: 2 µs without ACK start a replay; 50 µs without ACK fail one. -/
def State.ackTimeout (s : State) (p : Nat) : State :=
  let a := s.port p
  if a.unacked.isEmpty then s
  else if a.replay = 0 then if a.ackAt + 2000 ≤ s.now then s.startReplay p else s
  else if a.ackAt + 50000 ≤ s.now then s.replayFails p else s

/-- ACK_TIMEOUT (R573). -/
def execAckTimeout (p : Nat) (s : State) : Host.Outcome State Fault Refusal :=
  unit (portOk p) (s.when (s.portLive p) fun s => s.ackTimeout p)

/-! ### Bring-up (R574, R575) -/

/-- Credits that a peer grants at UP: 64 buffers for each class of requests and responses, 8 of control (R570). -/
def fullCredits : List Nat := [64, 64, 64, 64, 8, 8]

/-- State of a port. -/
def State.portState (s : State) (p : Nat) : Nat := s.rd (R.CHAIN_PORT_STATUS_STATE p)

/-- ENABLE of CHAIN.CTRL: 1 starts every port that is off, 0 turns the ports off. -/
def State.setChainEnable (s : State) (on : Bool) : State :=
  let s1 := s.setFlag R.CHAIN_CTRL_ENABLE on
  (List.range 4).foldl (fun a p =>
    if on then if a.portState p = 0 then a.setPortState p 1 else a
    else ((((a.setPortState p 0).wr (R.CHAIN_PORT_STATUS_LANES p) 0).modPort p fun x => { x with wasUp := false }).emptyPort p)) s1

/-- Width that TRAIN finds from the good lanes; 0 = the port stays in DETECT (R575). -/
def laneWidth (lanes : Nat) : Nat :=
  let n := countIf (fun k => bit lanes k) (List.range 8)
  if n = 8 then 8 else if 4 ≤ n ∧ lanes % 16 = 15 then 4 else 0

/-- Number of the devices of the chain by TOPO, X and Y; 0 = the setting is not one of R576. -/
def State.chainSize (s : State) : Nat :=
  let x := s.rd R.CHAIN_CTRL_X
  let y := s.rd R.CHAIN_CTRL_Y
  if s.rd R.CHAIN_CTRL_TOPO = 1 then if 2 ≤ x ∧ x ≤ 16 then x else 0
  else if s.rd R.CHAIN_CTRL_TOPO = 2 then if 3 ≤ x ∧ x ≤ 8 ∧ 3 ≤ y ∧ y ≤ 8 then x * y else 0
  else 0

/-- Formation is complete: every device has reported, and every expected port of the master is UP (R576). -/
def State.formCheck (s : State) : State :=
  let ports := if s.rd R.CHAIN_CTRL_TOPO = 1 then [0, 1] else [0, 1, 2, 3]
  if s.chain.forming ≠ 0 ∧ s.chainSize ≠ 0 ∧ s.chain.found.length = s.chainSize ∧ ports.all (fun p => s.portIsUp p) then
    let s1 := (s.setFlag R.CHAIN_STATUS_FORMED true).wr R.CHAIN_STATUS_DEVICES s.chainSize
    { s1 with chain := { s1.chain with forming := 0 } }
  else s

/-- A port is UP: credits are granted, and flits flow. -/
def State.portUp (s : State) (p peer peerPort : Nat) : State :=
  let s1 := ((s.setPortState p Machine.portUp).wr (R.CHAIN_PORT_STATUS_PEER p) peer).wr (R.CHAIN_PORT_STATUS_PEER_PORT p) peerPort
  ((s1.modPort p fun a => { Port.init with
    queue := a.queue, retryAt := a.retryAt, wasUp := true, credits := fullCredits, ackAt := s.now, since := a.since }).pumpPort p).formCheck

/-- PORT_STATE_ADVANCE: a bring-up state ends. TRAIN finds the good lanes, EXCHANGE the peer; a port in electrical idle is UP
again with the equalisation it holds, and the peer of a PARKED port has returned. -/
def State.portAdvance (s : State) (p lanes peer peerPort : Nat) : State :=
  match s.portState p with
  | 1 => s.setPortState p 2
  | 2 =>
    let w := laneWidth lanes
    if w = 0 then s.setPortState p 1 else (s.wr (R.CHAIN_PORT_STATUS_LANES p) w).setPortState p 3
  | 3 => s.setPortState p 4
  | 4 => s.portUp p peer peerPort
  | 6 => s.setPortState p 1
  | 7 => if s.power.st = .sleep then s else (s.setPortState p Machine.portUp).pumpPort p
  | _ => s

/-- PORT_STATE_ADVANCE (R574, R575). -/
def execPortStateAdvance (p lanes peer peerPort : Nat) (s : State) : Host.Outcome State Fault Refusal :=
  unit (portOk p) (s.when (s.hubUp && s.flag R.CHAIN_CTRL_ENABLE) fun s => s.portAdvance p lanes peer peerPort)

/-- The longest time in ns of a bring-up state (R574). -/
def portLimit (st : Nat) : Nat := if st = 2 then 100000000 else 1000000

/-- PORT_STATE_TIMEOUT: TRAIN, ALIGN or EXCHANGE has missed its maximum and returns to DETECT, which repeats without end. -/
def State.portLate (s : State) (p : Nat) : State :=
  let n := s.portState p
  if 2 ≤ n ∧ n ≤ 4 ∧ (s.port p).since + portLimit n ≤ s.now then
    let s1 := (s.setPortState p 1).wr (R.CHAIN_PORT_STATUS_LANES p) 0
    if (s.port p).wasUp then s1.bump (R.CHAIN_PORT_COUNT_COUNT p 6) 1 else s1
  else s

/-- PORT_STATE_TIMEOUT (R574). -/
def execPortStateTimeout (p : Nat) (s : State) : Host.Outcome State Fault Refusal :=
  unit (portOk p) (s.when s.hubUp fun s => s.portLate p)

/-- A port can go down: UP, or retraining after it was UP (R587). -/
def State.mayFall (s : State) (p : Nat) : Bool :=
  s.portIsUp p || (decide (2 ≤ s.portState p ∧ s.portState p ≤ 4) && (s.port p).wasUp)

/-- PORT_DOWN (R587). -/
def execPortDown (p : Nat) (s : State) : Host.Outcome State Fault Refusal :=
  unit (portOk p) (s.when (s.hubUp && s.mayFall p) fun s => s.portDown p)

/-! ### Formation (R576) -/

/-- Formation fails: FORM_FAIL, the count of the devices that reported, and a record. -/
def State.formFails (s : State) : State :=
  let n := s.chain.found.length
  let s1 := (s.setFlag R.CHAIN_STATUS_FORM_FAIL true).wr R.CHAIN_STATUS_DEVICES n
  ({ s1 with chain := { s1.chain with forming := 0 } } : State).raise Rc.chainFormFail deviceClass noOwner n 0

/-- The enumeration message of a device leaves by port 0, and on a torus by port 2. -/
def State.enumerate (s : State) (x y : Nat) : State :=
  let m := Payload.ctrl (.enumerate (s.rd R.CHAIN_CTRL_TOPO) x y (s.rd R.CHAIN_CTRL_X) (s.rd R.CHAIN_CTRL_Y))
  let s1 := s.sendOut 0 m
  if s.rd R.CHAIN_CTRL_TOPO = 2 then s1.sendOut 2 m else s1

/-- FORM: the master starts formation; a setting that is none of R576's forms nothing. -/
def State.form (s : State) : State :=
  if !s.isMaster ∨ s.chainSize = 0 then s
  else
    let s1 := ((s.setFlag R.CHAIN_STATUS_FORMED false).setFlag R.CHAIN_STATUS_FORM_FAIL false).wr R.CHAIN_STATUS_DEVICE_ID 0
    (({ s1 with chain := { s1.chain with forming := s.now + 1, found := [0] } } : State).wr R.CHAIN_STATUS_DEVICES 1).enumerate 0 0

/-- A write of CHAIN.CTRL. -/
def State.writeChainCtrl (s : State) (v : Nat) : State :=
  let s1 := ((s.wr R.CHAIN_CTRL_TOPO (fld v 29 28)).wr R.CHAIN_CTRL_X (fld v 23 16)).wr R.CHAIN_CTRL_Y (fld v 15 8)
  let s2 := s1.setChainEnable (bit v 30)
  if bit v 31 then s2.form else s2

/-- CHAIN_ENABLE_WRITE (R574). -/
def execChainEnableWrite (value : Nat) (s : State) : Host.Outcome State Fault Refusal :=
  done (s.when s.hubUp fun s => s.cmdWrite 0 fun s => s.writeChainCtrl value)

/-- FORM (R576). -/
def execForm (s : State) : Host.Outcome State Fault Refusal := done (s.when s.hubUp fun s => s.cmdWrite 0 State.form)

/-- FORM_TIMEOUT: 500 ms have passed since FORM. -/
def State.formLate (s : State) : State :=
  if s.chain.forming ≠ 0 ∧ s.chain.forming - 1 + 500000000 ≤ s.now then s.formFails else s

/-- FORM_TIMEOUT (R576). -/
def execFormTimeout (s : State) : Host.Outcome State Fault Refusal := done (s.when s.hubUp State.formLate)

/-! ### Mirrors and spans (R582, R583) -/

/-- R583's check of a mirror that claims to be valid: otherwise VALID reads 0. -/
def State.checkMirror (s : State) (k : Nat) : State :=
  let i := s.rd (R.CHAIN_MIRROR_INST k)
  let ok := decide (1 ≤ i ∧ i ≤ 16) && (s.inst i).broad && s.inBuffer i 2 (s.rd (R.CHAIN_MIRROR_LOCAL_HANDLE k)) 0 0
  if ok then s else s.setFlag (R.CHAIN_MIRROR_VALID k) false

/-- A write of one word of a MIRROR entry; bit 5 and word 3 are reserved. -/
def State.writeMirrorWord (s : State) (k w v : Nat) : State :=
  let key := (R.CHAIN_MIRROR_VALID k).key + 4 * w
  if w = 0 then (s.setWord key (putBit v 5 false)).checkMirror k
  else if w ≤ 2 then (s.setWord key v).checkMirror k
  else s

/-- A write of a MIRROR entry. -/
def State.writeMirror (s : State) (k v : Nat) : State :=
  ((s.writeMirrorWord k 2 (fld v 95 64)).writeMirrorWord k 1 (fld v 63 32)).writeMirrorWord k 0 (fld v 31 0)

/-- MIRROR_WRITE (R583). -/
def execMirrorWrite (k value : Nat) (s : State) : Host.Outcome State Fault Refusal :=
  unit (decide (k < 64)) (s.when s.hubUp fun s => s.cmdWrite 0 fun s => s.writeMirror k value)

/-- A write of SPAN: a new nonzero value gives the instance a new chain generation (R582). -/
def State.writeSpan (s : State) (i v : Nat) : State :=
  if !s.isMaster then s
  else
    let old := s.rd (R.CHAIN_SPAN_SPAN (i - 1))
    let s1 := s.wr (R.CHAIN_SPAN_SPAN (i - 1)) v
    if v % 2 ^ 64 ≠ 0 ∧ v % 2 ^ 64 ≠ old then
      let g := (s1.rd (R.CHAIN_CGEN_CGEN (i - 1)) + 1) % 65536
      (s1.spanned i).foldl (fun a d => a.sendFlit d 0 (.ctrl (.generation i g))) (s1.wr (R.CHAIN_CGEN_CGEN (i - 1)) g)
    else s1

/-- SPAN_WRITE (R582). -/
def execSpanWrite (i value : Nat) (s : State) : Host.Outcome State Fault Refusal :=
  unit (decide (1 ≤ i ∧ i ≤ 16)) (s.when s.hubUp fun s => s.cmdWrite 0 fun s => s.writeSpan i value)

end Sys2Proof.Machine
end

