-- ==== Sys2Proof/Machine/Flits.lean ====
section
/-!
DEFINITION. Flits that arrive: the link's acceptance, forwarding, and what each type does at its destination (R568 to R588).
-/

namespace Sys2Proof.Machine

/-! ### The link (R570 to R572) -/

/-- Credits returned in a link word, never more than the peer has buffers. -/
def State.takeCredits (s : State) (p : Nat) (f : Flit) : State :=
  let c := f.creditVc * 2 + f.creditCls
  let old := (s.port p).credits.getD c 0
  (s.modPort p fun a => { a with credits := a.credits.set c (min (fullCredits.getD c 0) (old + f.credits)) }).pumpPort p

/-- The link word of a flit whose CRC matches. -/
def State.takeLink (s : State) (p : Nat) (f : Flit) : State :=
  (if f.nak then s.nakFrom p (f.ack % 4096) else s.ackTo p (f.ack % 4096)).takeCredits p f

/-- A sequenced flit that is not accepted: NAK goes back. -/
def State.refuseFlit (s : State) (p : Nat) : State := s.modPort p Port.refuse

/-- A flit arrives at a port. `use` is what an accepted flit does. No token passes a held serdes interface: the flit stays outside (R305,
log entry 50). -/
def State.receive (s : State) (p : Nat) (f : Flit) (use : State → State) : State :=
  if !s.portLive p || !s.serdesOpen then s
  else if !f.crcOk then (s.bump (R.CHAIN_PORT_COUNT_COUNT p 2) 1).refuseFlit p
  else
    let s1 := s.takeLink p f
    if unsequenced f.payload then s1
    else if f.seq ≠ (s1.port p).rxSeq then s1.refuseFlit p
    else
      use ((s1.modPort p fun a => a.accept f).bump (R.CHAIN_PORT_COUNT_COUNT p 1) 1)

/-! ### Forwarding (R569, R577, R582) -/

/-- A flit is discarded and counted. -/
def State.discard (s : State) (p : Nat) : State := s.bump (R.CHAIN_PORT_COUNT_COUNT p 7) 1

/-- A flit of instance 0, or of a broad instance in its present chain generation (R582). -/
def State.flitCurrent (s : State) (f : Flit) : Bool :=
  f.inst == 0 || (decide (f.inst ≤ 16) && (s.inst f.inst).broad && (s.inst f.inst).st != .none
    && f.cgen == s.rd (R.CHAIN_CGEN_CGEN (f.inst - 1)))

/-- Forward a flit, or answer its origin when no way is up. -/
def State.forward (s : State) (p : Nat) (f : Flit) : State :=
  match s.route f.dst with
  | some q => s.enqueue q { f with hops := f.hops - 1, cls := s.nextClass f.cls (some p) q }
  | none => s.answerDown f

/-- A flit for a device: taken here, forwarded, or discarded. -/
def State.deliver (s : State) (p : Nat) (f : Flit) (use : State → State) : State :=
  s.receive p f fun s =>
    if f.dst ≠ s.rd R.CHAIN_STATUS_DEVICE_ID then if f.hops = 0 then s.discard p else s.forward p f
    else if s.flitCurrent f then use s
    else s.discard p

/-- The outcome of a flit's arrival. -/
def flit (p : Nat) (s : State) : Host.Outcome State Fault Refusal := unit (portOk p) s

/-- A flit of another type than a command's: a reserved type is discarded and counted (R569); any other is no such event. -/
def State.strange (s : State) (p : Nat) (f : Flit) : State :=
  match f.payload with
  | .reserved _ => s.receive p f fun s => s.discard p
  | _ => s

/-! ### IDLE and TRAIN -/

/-- IDLE_FLIT (R570). -/
def execIdleFlit (p : Nat) (f : Flit) (s : State) : Host.Outcome State Fault Refusal :=
  flit p (match f.payload with
    | .idle => s.receive p f id
    | _ => s.strange p f)

/-- TRAIN_FLIT: lane alignment, which `PORT_STATE_ADVANCE` ends (R574). It carries nothing. -/
def execTrainFlit (p : Nat) (f : Flit) (s : State) : Host.Outcome State Fault Refusal :=
  flit p (match f.payload with
    | .train => s.receive p f id
    | _ => s.strange p f)

/-! ### DATA, XACK and PEG (R584, R585) -/

/-- A DATA flit at its destination: written and acknowledged, or refused with an error. -/
def State.takeData (s : State) (p : Nat) (f : Flit) (h off tag : Nat) (bs : List Nat) : State :=
  let w := s.t2Write f.inst h off bs
  if w.2.status = St.ok then w.1.sendBack f (.xack tag ((bs.length + 63) / 64) St.ok)
  else ((s.discard p).raise Rc.chainBadHandle instClass f.inst f.src h).sendBack f (.xack tag 0 St.stepBounds)

/-- DATA_FLIT (R584). -/
def execDataFlit (p : Nat) (f : Flit) (s : State) : Host.Outcome State Fault Refusal :=
  flit p (match f.payload with
    | .data h off tag _ _ bs => s.deliver p f fun s => s.takeData p f h off tag ((bs.take 224).map (· % 256))
    | _ => s.strange p f)

/-- XACK_FLIT (R584). -/
def execXackFlit (p : Nat) (f : Flit) (s : State) : Host.Outcome State Fault Refusal :=
  flit p (match f.payload with
    | .xack tag blocks status => s.deliver p f fun s => s.acknowledge f.inst tag blocks status
    | _ => s.strange p f)

/-- A PEG flit at its destination: the operation runs at the hub peg unit; a word that is none of the instance's is discarded. -/
def State.takePeg (s : State) (p : Nat) (f : Flit) (h off : Nat) (set : Bool) (v : Nat) : State :=
  let l : PegLoc := ⟨2, h, off⟩
  if s.pegAllowed f.inst l then s.pegOp f.inst l (s.compat f.inst) set v 0 else s.discard p

/-- PEG_FLIT (R585). -/
def execPegFlit (p : Nat) (f : Flit) (s : State) : Host.Outcome State Fault Refusal :=
  flit p (match f.payload with
    | .peg h off set v => s.deliver p f fun s => s.takePeg p f h off set v
    | _ => s.strange p f)

/-! ### DESC and RECORD (R579) -/

/-- A forwarded descriptor joins its ring here. -/
def State.takeDesc (s : State) (f : Flit) (ring slot : Nat) (bs : List Nat) : State :=
  let d : Desc := ⟨s.rings.nextUid, f.inst, ring, slot, (s.inst f.inst).gen, bs, false, some f.src, s.now⟩
  ({ s with rings := { s.rings with nextUid := s.rings.nextUid + 1, descs := s.rings.descs ++ [d] } } : State).busyNow

/-- DESC_FLIT (R579). -/
def execDescFlit (p : Nat) (f : Flit) (s : State) : Host.Outcome State Fault Refusal :=
  flit p (match f.payload with
    | .desc ring slot bs => s.deliver p f fun s =>
      if ring < 16 ∧ bs.length = 64 then s.takeDesc f ring slot (bs.map (· % 256)) else s.discard p
    | _ => s.strange p f)

/-- A record's fields from its bytes (R590). -/
def recordOf (b : List Nat) : Record where
  code := u16At b 0
  cls := u8At b 2 % 8
  inst := u8At b 3
  masked := bit (u8At b 2) 4
  device := u8At b 4
  chain := bit (u8At b 2) 5
  genLo := u8At b 5
  seq := u16At b 6
  time := u64At b 8
  info0 := u64At b 16
  info1 := u64At b 24

/-- Step counters of a completion record's bytes. -/
def countersOf (b : List Nat) : Option (Nat × Nat × Nat × Nat × Nat) :=
  if bit (u8At b 7) 1 then some (u32At b 0x0C, u32At b 0x10, u16At b 0x14, u8At b 0x16, u16At b 0x1A) else none

/-- A record at the master: a completion record ends the forwarded descriptor; an event record goes to its event ring, and one of
class DEVICE also to the global log, as a FATAL one alone does: its device is then no target any more (R601). A port that a ring's
device has lost fails the spanning steps. -/
def State.takeRecord (s : State) (f : Flit) (kind ring slot : Nat) (b : List Nat) : State :=
  if kind = 0 then
    match s.forwarded f.inst ring slot f.src with
    | some d => s.completeC d.uid (u16At b 4) (u32At b 0x1C) (countersOf b)
    | none => s
  else
    let r := recordOf b
    let s1 := if kind = 1 ∧ s.takesRecords ring then s.deliverEvent ring r else s
    let s2 := if kind = 2 then s1.logRecord r else s1
    if kind ≠ 2 then s2
    else if r.cls = fatalClass then { s2 with chain := { s2.chain with found := s2.chain.found.filter fun d => d != f.src } }
    else if r.code = Rc.chainPortDown then s2.failSpanning
    else s2

/-- RECORD_FLIT (R579). -/
def execRecordFlit (p : Nat) (f : Flit) (s : State) : Host.Outcome State Fault Refusal :=
  flit p (match f.payload with
    | .record kind ring slot b => s.deliver p f fun s =>
      if s.isMaster then s.takeRecord f kind ring slot (b.map (· % 256)) else s.discard p
    | _ => s.strange p f)

/-! ### HOST (R579, R588) -/

/-- The master issues a tunnelled access on PCIe, and answers it. -/
def State.serveHost (s : State) (f : Flit) : State :=
  match f.payload with
  | .host true a n tag bs => (s.hostStore a ((bs.take n).map (· % 256))).sendBack f (.xack tag ((n + 63) / 64) St.ok)
  | .host false a n tag _ => s.sendBack f (.hostRsp tag (s.hostRead a n))
  | _ => s

/-- A tunnelled access at the master: served, or held while the PCIe link is down. -/
def State.takeHost (s : State) (f : Flit) : State :=
  if s.linkOpen then s.serveHost f
  else { s with chain := { s.chain with hostHeld := s.chain.hostHeld ++ [f] } }

/-- Host accesses held for the link are served, in order. -/
def State.releaseHosts (s : State) : State :=
  s.chain.hostHeld.foldl (fun a f => a.serveHost f) { s with chain := { s.chain with hostHeld := [] } }

/-- HOST_FLIT (R579). -/
def execHostFlit (p : Nat) (f : Flit) (s : State) : Host.Outcome State Fault Refusal :=
  flit p (match f.payload with
    | .host .. => s.deliver p f fun s => if s.isMaster then s.takeHost f else s.discard p
    | _ => s.strange p f)

/-- Read data for a HOST tag of this device. -/
def State.takeHostRsp (s : State) (tag : Nat) (bs : List Nat) : State :=
  match s.chain.hostReads.find? fun r => r.1 == tag with
  | none => s
  | some r =>
    ({ s with chain := { s.chain with hostReads := s.chain.hostReads.filter fun q => q.1 != tag } } : State).hostStore r.2.1
      ((bs.take r.2.2.1).map (· % 256))

/-- HOST_RSP_FLIT (R579). -/
def execHostRspFlit (p : Nat) (f : Flit) (s : State) : Host.Outcome State Fault Refusal :=
  flit p (match f.payload with
    | .hostRsp tag bs => s.deliver p f fun s => s.takeHostRsp tag bs
    | _ => s.strange p f)

/-! ### CTRL (R431, R549, R569, R576, R582, R588) -/

/-- Device ID of coordinates (R576). -/
def State.idOf (s : State) (x y : Nat) : Nat := if s.rd R.CHAIN_CTRL_TOPO = 2 then y * s.rd R.CHAIN_CTRL_X + x else x

/-- The first enumeration message gives a device its coordinates and the chain's form; it forwards it and reports its ID. -/
def State.enrol (s : State) (p topo x y sx sy : Nat) : State :=
  let s1 := ((s.wr R.CHAIN_CTRL_TOPO topo).wr R.CHAIN_CTRL_X sx).wr R.CHAIN_CTRL_Y sy
  let me := s1.idOf x y
  let s2 := (s1.wr R.CHAIN_STATUS_DEVICE_ID me).setFlag R.CHAIN_STATUS_FORMED true
  let s3 : State := { s2 with chain := { s2.chain with found := List.range s2.chainSize, enumPort := p + 1 } }
  (s3.enumerate x y).sendFlit 0 0 (.ctrl (.report me true))

/-- An enumeration message that arrives by port `p` from a device at (x, y). -/
def State.takeEnum (s : State) (p topo x y sx sy : Nat) : State :=
  let x1 := if p = 1 then (if sx = 0 then 0 else (x + 1) % sx) else x
  let y1 := if p = 3 then (if sy = 0 then 0 else (y + 1) % sy) else y
  let wired := p = 1 ∨ (p = 3 ∧ topo = 2)
  if s.isMaster then
    if s.chain.forming ≠ 0 ∧ (¬wired ∨ x1 ≠ 0 ∨ y1 ≠ 0) then s.formFails else s
  else if !wired then (s.setFlag R.CHAIN_STATUS_FORM_FAIL true).sendOut p (.ctrl (.report (s.rd R.CHAIN_STATUS_DEVICE_ID) false))
  else if s.chain.enumPort = 0 ∨ s.chain.enumPort = p + 1 then s.enrol p topo x1 y1 sx sy
  else if s.idOf x1 y1 = s.rd R.CHAIN_STATUS_DEVICE_ID then s
  else (s.setFlag R.CHAIN_STATUS_FORM_FAIL true).sendFlit 0 0 (.ctrl (.report (s.rd R.CHAIN_STATUS_DEVICE_ID) false))

/-- A device's report at the master. -/
def State.takeReport (s : State) (d : Nat) (ok : Bool) : State :=
  if !s.isMaster ∨ s.chain.forming = 0 then s
  else if !ok then s.formFails
  else
    let found := if s.chain.found.contains d then s.chain.found else s.chain.found ++ [d]
    (({ s with chain := { s.chain with found := found } } : State).wr R.CHAIN_STATUS_DEVICES found.length).formCheck

/-- A peer leaves: the port is PARKED, without a record, and its flits go another way. -/
def State.takeLeave (s : State) (p : Nat) : State :=
  (((s.setPortState p 6).wr (R.CHAIN_PORT_STATUS_LANES p) 0).emptyPort p)

/-- Control messages of one link, which concern the device they reach: enumeration, leave and
wake. -/
def linkMsg : CtrlMsg → Bool
  | .enumerate .. => true
  | .leave => true
  | .wake => true
  | _ => false

/-- A control message at the device it is for. -/
def State.takeCtrl (s : State) (p : Nat) (f : Flit) (keyOk : Bool) (m : CtrlMsg) : State :=
  match m with
  | .enumerate topo x y sx sy => s.takeEnum p topo x y sx sy
  | .report d ok => s.takeReport d ok
  | .budget mw => s.takeBudget mw
  | .power mw ns =>
    if s.isMaster then { s with press := { s.press with reports := s.press.reports ++ [(f.src, mw, ns)] } } else s
  | .wake => s.wake 4 p
  | .leave => s.takeLeave p
  | .reset i => if decide (1 ≤ i ∧ i ≤ 16) && (s.inst i).broad then s.askReset i none false false false keyOk else s
  | .generation i g => if 1 ≤ i ∧ i ≤ 16 then s.wr (R.CHAIN_CGEN_CGEN (i - 1)) g else s

/-- CTRL_FLIT (R569). -/
def execCtrlFlit (p : Nat) (f : Flit) (keyOk : Bool) (s : State) : Host.Outcome State Fault Refusal :=
  flit p (match f.payload with
    | .ctrl m =>
      if linkMsg m then s.receive p f fun s => s.takeCtrl p f keyOk m
      else s.deliver p f fun s => s.takeCtrl p f keyOk m
    | _ => s.strange p f)

end Sys2Proof.Machine
end

