-- ==== Sys2Proof/Machine/Errors.lean ====
section
/-!
DEFINITION. The record engine, the global log's acknowledgement, double faults, the control processors' watchdogs and the
thermal trips (R595 to R601, R609, R657).
-/

namespace Sys2Proof.Machine

/-! ### Writing records to event rings (R579, R595, R596) -/

/-- An event ring whose EVENT_OVERFLOW marker is due: it has lost records and has a free slot. -/
def State.markerDue (s : State) : Option Nat :=
  (List.range 17).find? fun f => s.lostOf f != 0 && s.flag (R.EV_CTRL_ENABLE f) && s.evFree f != 0

/-- A record leaves for the chain master; a DEVICE record goes there for the global log as well. -/
def State.sendRecord (s : State) (j : RingJob) : State :=
  let s1 := s.forwardRecord (if j.ring = masterLog then 2 else 1) j.ring 0 0 (j.record.bytes false)
  if j.ring = 0 ∧ j.record.cls = deviceClass then s1.forwardRecord 2 0 0 0 (j.record.bytes false) else s1

/-- The record engine takes the record first in order to its event ring, or a due marker before it. It waits for PCIe or for a
chain port; a halted device sends the master its FATAL record and nothing else. -/
def State.recordStep (s : State) : State :=
  if s.halted then
    match s.errs.toRings.find? fun j => j.ring == masterLog with
    | some j =>
      if (s.route 0).isSome then
        ({ s with errs := { s.errs with toRings := s.errs.toRings.filter fun k => k.ring != masterLog } } : State).sendRecord j
      else s
    | none => s
  else if s.reportsToMaster then
    match s.errs.toRings with
    | j :: t => if (s.route 0).isSome then ({ s with errs := { s.errs with toRings := t } } : State).sendRecord j else s
    | [] => s
  else if !s.linkOpen then s
  else
    match s.markerDue with
    | some f => s.overflowMarker f
    | none =>
      match s.errs.toRings with
      | j :: t => ({ s with errs := { s.errs with toRings := t } } : State).deliverEvent j.ring j.record
      | [] => s

/-- EVENT_RING_WRITE (R595). -/
def execEventRingWrite (s : State) : Host.Outcome State Fault Refusal :=
  done (s.when (s.ready && !s.hubAsleep) State.recordStep)

/-! ### The global log and FATAL_RECORD (R597, R599, R601) -/

/-- A write of ERRLOG.HEAD: ignored beyond TAIL, and while the log is frozen. -/
def State.writeErrlogHead (s : State) (v : Nat) : State :=
  let t := s.rd R.ERRLOG_TAIL_POSITION
  let h := v % 128
  if s.flag R.ERRLOG_STATUS_FROZEN ∨ posCount t (s.rd R.ERRLOG_HEAD_POSITION) 64 < posCount t h 64 then s
  else s.wr R.ERRLOG_HEAD_POSITION h

/-- ERRLOG_HEAD_WRITE (R597). -/
def execErrlogHeadWrite (value : Nat) (s : State) : Host.Outcome State Fault Refusal :=
  done (s.when s.hubUp fun s => s.cmdWrite 0 fun s => s.writeErrlogHead value)

/-- DOUBLE_FAULT: the record goes to FATAL_RECORD only, and the device halts. -/
def State.doubleFault (s : State) (code seq : Nat) : State :=
  (s.countRecord fatalClass).halt (s.newRecord Rc.doubleFault fatalClass noOwner (code % 65536) (seq % 65536))

/-- DOUBLE_FAULT (R599). -/
def execDoubleFault (code seq : Nat) (s : State) : Host.Outcome State Fault Refusal :=
  done (s.when (s.aon && !s.hubAsleep) fun s => s.doubleFault code seq)

/-- A write of FATAL_VALID: 1 clears it and the record. -/
def State.writeFatalValid (s : State) (v : Nat) : State :=
  if bit v 0 then (s.setWords 0xB0100 (List.replicate 8 0)).setFlag R.ERRLOG_FATAL_VALID_VALID false else s

/-- FATAL_VALID_CLEAR (R601). -/
def execFatalValidClear (value : Nat) (s : State) : Host.Outcome State Fault Refusal :=
  done (s.when s.hubUp fun s => s.cmdWrite 0 fun s => s.writeFatalValid value)

/-! ### Control processors (R609) -/

/-- FW_WATCHDOG: processor `cp` restarts; a second expiry within 1 s is FATAL. -/
def State.fwExpires (s : State) (cp : Nat) : State :=
  if s.errs.restarting.contains cp then s
  else
    let last := Tab.get (fun _ => 0) s.errs.wdLast cp
    let again := last ≠ 0 ∧ s.now < last - 1 + 1000000000
    let n := Tab.get (fun _ => 0) s.errs.restarts cp + 1
    let s1 : State := { s with errs := { s.errs with wdLast := Tab.put (fun _ => 0) s.errs.wdLast cp (s.now + 1) } }
    if again then s1.raise Rc.fwFatal fatalClass noOwner cp 0
    else
      ({ s1 with errs := { s1.errs with
          restarting := s1.errs.restarting ++ [cp]
          restarts := Tab.put (fun _ => 0) s1.errs.restarts cp n } } : State).raise Rc.fwRestart deviceClass noOwner cp n

/-- FW_WATCHDOG (R609). -/
def execFwWatchdog (cp : Nat) (s : State) : Host.Outcome State Fault Refusal :=
  unit (decide (cp < 2)) (s.when s.hubUp fun s => s.fwExpires cp)

/-- A command that waited runs. -/
def State.runWaiting (s : State) (keyOk : Bool) (c : Nat × Nat) : State :=
  if c.1 = R.INST_CMD_GO.key then s.instRun c.2 keyOk
  else if c.1 = R.FLASH_CMD_GO.key then s.flashRun c.2
  else s.laneCmdRun (c.2 % 256) (c.2 / 256)

/-- FW_RESTART_DONE: the processor resumes, and with both up the commands that waited run in order. -/
def State.restartDone (s : State) (cp : Nat) (keyOk : Bool) : State :=
  if !s.errs.restarting.contains cp then s
  else
    let s1 : State := { s with errs := { s.errs with restarting := s.errs.restarting.filter fun c => c != cp } }
    if s1.fwUp then
      s1.rings.fwWaiting.foldl (fun a c => a.runWaiting keyOk c) { s1 with rings := { s1.rings with fwWaiting := [] } }
    else s1

/-- FW_RESTART_DONE (R609). -/
def execFwRestartDone (cp : Nat) (keyOk : Bool) (s : State) : Host.Outcome State Fault Refusal :=
  unit (decide (cp < 2)) (s.when s.hubUp fun s => s.restartDone cp keyOk)

/-! ### Thermal trips (R657) -/

/-- Rails that a trip of domain `d` switches off, by the numbers of PRESS.GAIN. -/
def tripRails (d : Nat) : List Nat :=
  if d < 8 then [d, 8, 10] else if d = 8 then List.range 16 ++ [18] else [16]

/-- The domain has its supply. -/
def State.domainPowered (s : State) (d : Nat) : Bool :=
  if d < 8 then !s.volt.off.contains d else if d = 8 then !s.volt.off.contains 9 else s.guard.up

/-- THERMAL_TRIP: FATAL, and the always-on domain switches rails off. -/
def State.tripped (s : State) (d : Nat) : State :=
  let s1 := s.raise Rc.thermalTrip fatalClass noOwner d 0
  let off := (tripRails d).filter fun r => !s1.volt.off.contains r
  let s2 : State := { s1 with
    volt := { s1.volt with off := s1.volt.off ++ off }
    rings := { s1.rings with linkUp := s1.rings.linkUp && d != 8 } }
  if d = 9 then s2.guardDown false else s2

/-- THERMAL_TRIP (R657). -/
def execThermalTrip (d : Nat) (s : State) : Host.Outcome State Fault Refusal :=
  unit (decide (d < 10)) (s.when (s.aon && s.domainPowered d) fun s => s.tripped d)

end Sys2Proof.Machine
end

