-- ==== Sys2Proof/Machine/Boot.lean ====
section
/-!
DEFINITION. Boot, the resets, the PCIe link and the alarms (R507, R610 to R621, R636, R652).
-/

namespace Sys2Proof.Machine

/-! ### Cold reset (R610, R611, R616) -/

/-- The copy of a deck's metadata that holds at boot: the larger wear (R172), the darn map with the higher SEQ in modulo-2^16
half-range comparison (R191), and RETIRED if either has it (R195). -/
def Deck.merge (d : Deck) (m : DeckMirror) : Deck :=
  let ahead := (m.seq + 65536 - d.seq % 65536) % 65536
  let newer := decide (0 < ahead ∧ ahead < 32768)
  { d with
    wear := max d.wear m.wear, retired := d.retired || m.retired
    spares := if newer then m.spares else d.spares, seq := if newer then m.seq else d.seq }

/-- A deck's metadata is reconciled with its mirror, and a spare found active in progress is pending, with its column (R191). -/
def Deck.reconcile (d0 : Deck) (m : DeckMirror) : Deck :=
  let d := d0.merge m
  let cut := d.spares.filter fun p => p.1 == 4
  let d1 := cut.foldl (fun (x : Deck) p => x.markCol p.2 2) d
  { d1 with spares := d1.spares.map fun p => if p.1 == 4 then (2, p.2) else p }

/-- A deck as it comes up: its cells are kept, its metadata is reconciled, its calibration is due, and SRC_LOST is reset (R180, R191). -/
def Deck.boot (d : Deck) (m : DeckMirror) : Deck :=
  { d.reconcile m with
    srcLost := false
    calOk := false, calDue := false, colDue := [], calMissing := false, nextVec := 0, lastVisit := 0 }

/-- Every deck as a boot leaves it. -/
def State.bootDecks (s : State) (f : Deck → DeckMirror → Deck) : Tab Deck :=
  s.arr.decks.map fun d => (d.1, f d.2 (Tab.get (fun _ => DeckMirror.init) s.arr.mirror d.1))

/-- The mirror after a boot, which writes the copy in force to the other (R191). -/
def deckMirrors (t : Tab Deck) : Tab DeckMirror := t.map fun d => (d.1, ⟨d.2.wear, d.2.spares, d.2.seq, d.2.retired⟩)

/-- Flash work when its supply goes: what was being written is open (R566). -/
def State.flashCut (s : State) : State :=
  let cut := fun (a : State) (o : Option FlashOp) => match o with
    | some x => a.flashBroken x
    | none => a
  let fw := match s.flash.fw with
    | some x => if x.kind = 15 then some x else none
    | none => none
  let s1 := cut (cut (cut s s.flash.op) s.flash.susp) fw
  { s1 with flash := { s1.flash with op := none, susp := none, fw := none, due := [], resetAfter := false } }

/-- Flash programs and erases run to their ends, and a signed update is abandoned (R566, R617, R618). -/
def State.flashDrain (s : State) : State :=
  let s1 := s.recordWritten
  let s2 := match s1.flash.op with
    | some o => if o.writes then s1.flashEffect o else s1
    | none => s1
  let s3 := match s2.flash.fw with
    | some _ => s2.recordWritten
    | none => s2
  let bytes := s2.flash.due.foldl (fun t x => cellsWrite erased t x.1 x.2) s3.flash.bytes
  { s3 with flash := { s3.flash with bytes := bytes, op := none, susp := none, fw := none, due := [], resetAfter := false } }

/-- Engines of the compute dies in service. -/
def State.available (s : State) : Nat :=
  nEngines - countIf (fun p => computeEngine p.1 && p.2.retired) s.arr.engines

/-- What outlasts every supply: decks with their metadata and mirror, their age and trims, flash, OTP, retirements, the guard's backups,
host memory, and what lies outside the device: pin levels, temperatures, and the commands waiting. -/
def State.unpowered (s : State) : State :=
  let engines := (s.arr.engines.filter fun p => p.2.retired).map fun p => (p.1, { Engine.init with retired := true })
  { State.reset with
    mem := { Mem.reset with host := s.mem.host, retired := s.mem.retired, nextKey := s.mem.nextKey }
    arr := { Array_.reset with
      decks := s.bootDecks Deck.boot
      mirror := deckMirrors (s.bootDecks Deck.boot)
      aged := s.arr.aged
      agedHot := s.arr.agedHot
      engTrim := s.arr.engTrim
      engines := engines
      coreTemp := s.arr.coreTemp
      vprogOk := s.arr.vprogOk }
    guard := { Guard.reset with
      backups := s.guard.backups
      header := s.guard.header
      headerOk := s.guard.headerOk
      temp := s.guard.temp
      gpA := s.guard.gpA
      gpOeLow := s.guard.gpOeLow
      cmps := s.guard.cmps.map fun c => (c.1, c.2.rest c.1) }
    volt := { Volt.reset with
      otp := s.volt.otp
      copy := s.volt.copy
      otpOk := s.volt.otpOk
      copyOk := s.volt.copyOk
      off := List.range 19 }
    press := { Press.reset with alert := s.press.alert }
    power := { Power.reset with perst := s.power.perst }
    flash := s.flash
    board := { Board.reset with pins := s.board.pins, gpioIn := s.board.pad, pad := s.board.pad, boot := 0 }
    free := s.free
    pending := s.pending }

/-- Step 1 of a cold boot: the always-on domain is up, the straps are latched, and device time starts at 0. Rows 1 and 2 of R635
are on. FATAL_RECORD stays while V_AON did. -/
def State.coldStart (s : State) (cause : Nat) (keepFatal : Bool) : State :=
  let u := s.unpowered
  let fatal := s.regs.filter fun p => keepFatal && decide (0xB0100 ≤ p.1 ∧ p.1 < 0xB0124)
  let s1 : State := { u with
    regs := fatal
    volt := { u.volt with off := List.range 9 ++ [10, 11, 12, 13, 14, 15, 16] }
    board := { u.board with boot := 1, straps := s.board.pins } }
  let s2 := (s1.wr R.BOOT_STATUS_MODE (s.board.pins % 4)).wr R.BOOT_STATUS_LAST_RESET cause
  let s3 := (s2.setFlag R.IDENT_CAPS0_CHAIN_MASTER (bit s.board.pins 2)).setFlag R.IDENT_CAPS0_LEGACY_PM s2.legacy
  let s4 := (s3.setFlag R.CHAIN_STATUS_MASTER (bit s.board.pins 2)).setFlag R.VOLT_STATUS_LEGACY s2.legacy
  (s4.wr R.IDENT_ENGINES_AVAILABLE s4.available).wr R.HBM_PAGES_RETIRED
    (countIf (fun e => decide (16 ≤ e.1) && e.2) s4.mem.retired)

/-- V_AON_RISE: both always-on supplies lie within their ranges, with the strap pins at `straps` (R610, R636). -/
def State.aonRise (s : State) (straps : Nat) : State :=
  if s.aon then s
  else ({ s with board := { s.board with pins := straps % 16 } } : State).coldStart 0 false

/-- V_AON_RISE (R610). -/
def execVAonRise (straps : Nat) (s : State) : Host.Outcome State Fault Refusal := done (s.aonRise straps)

/-- V_AON_LOSS: the always-on domain falls. Programming stops where it is, and FATAL_RECORD is lost (R174, R507, R601). -/
def State.aonLoss (s : State) : State := if s.aon then s.flashCut.unpowered else s

/-- V_AON_LOSS (R636). -/
def execVAonLoss (s : State) : Host.Outcome State Fault Refusal := done s.aonLoss

/-! ### Firmware (R565, R611 to R613) -/

/-- STRAP_BOOT selects host-load mode. -/
def State.hostMode (s : State) : Bool := s.board.straps % 4 == 1
/-- STRAP_BOOT selects test mode, in which no PCIe function is enabled (R610). -/
def State.testMode (s : State) : Bool := s.board.straps % 4 == 2

/-- Firmware image copy `c`, as the boot ROM verifies it. -/
def State.firmware (s : State) (c : Nat) : List Nat := c :: s.flashCells 0x800000 0x2000000

/-- Step 2: the firmware image in force, else the other copy; none waits for the host. The flag says that firmware runs. -/
def State.loadFirmware (s : State) : State × Bool :=
  let c := s.flash.inForce.getD 1 0
  if s.flag R.BOOT_STATUS_HOST_LOADED then (s, true)
  else if s.hostMode ∨ s.board.hostWait then ({ s with board := { s.board with hostWait := true } }, false)
  else if Config.packageOk (s.firmware c) then (s.wr R.BOOT_STATUS_FW_COPY c, true)
  else if Config.packageOk (s.firmware (1 - c)) then (s.wr R.BOOT_STATUS_FW_COPY (1 - c), true)
  else (({ s with board := { s.board with hostWait := true } } : State).setFlag R.BOOT_STATUS_FLASH_FAIL true, false)

/-! ### Steps 3 to 7 (R512, R521, R522, R611, R614) -/

/-- A table is in force, and VOLT.STATUS shows it. -/
def State.useTable (s : State) (n : Nat) : State := ({ s with volt := { s.volt with src := n } } : State).wr R.VOLT_STATUS_TABLE_SRC n

/-- The voltage table is chosen (R512). -/
def State.chooseTable (s : State) : State :=
  if s.volt.otpOk then
    (s.useTable 0).setFlag R.VOLT_STATUS_COPY_MISMATCH (s.volt.copyOk && decide (s.volt.otp ≠ s.volt.copy))
  else if s.volt.copyOk then (s.useTable 1).raise Rc.vtableFallback deviceClass noOwner 1 0
  else (s.useTable 2).raise Rc.vtableFallback deviceClass noOwner 2 0

/-- LEGACY_VP of shipped parts (R522). -/
def legacyVp : Nat := 8

/-- Limits and targets of every rail read LEGACY_VP in legacy mode (R522). -/
def State.legacyRails (s : State) : State :=
  (List.range 9).foldl (fun (a : State) r =>
    ((((a.wr (R.VOLT_RAIL_VP_MAX r) legacyVp).wr (R.VOLT_RAIL_VP_MIN r) legacyVp).wr (R.VOLT_RAIL_TARGET r) legacyVp).wr
      (R.VOLT_RAIL_ACKED r) legacyVp)) s

/-- Step 3: the table is chosen and every rail is on. -/
def State.railsBoot (s : State) : State :=
  let s0 := s.chooseTable
  let s1 : State := { s0 with volt := { s0.volt with off := [] } }
  (if s1.legacy then s1.legacyRails else s1).guardUp true

/-- Step 4: the hub's key pair and instance 0's. -/
def State.keysBoot (s : State) (keyOk : Bool) : State :=
  let h := s.drawKey true
  let k := h.1.drawKey keyOk
  let s1 : State := { k.1 with mem := { k.1.mem with hubKey := h.2 } }
  s1.modInst 0 fun x => { x with st := if k.2 = 0 then .failed else .ready, key := k.2 }

/-- Step 5: DIE_MASK takes the dies that pass; the others keep their rails at V-point 0 (R614). -/
def State.diesBoot (s : State) (dies : Nat) : State :=
  let s1 := s.wr R.IDENT_CAPS0_DIE_MASK dies
  (upTo 8 fun d => !bit dies d).foldl (fun (a : State) d => (a.wr (R.VOLT_RAIL_TARGET d) 0).wr (R.VOLT_RAIL_ACKED d) 0) s1

/-- The boot has reached a step. -/
def State.bootAt (s : State) (n : Nat) : State := { s with board := { s.board with boot := n, hostWait := false } }

/-- COLD_RESET: steps 2 to 6, up to a wait for the host's image. `fail` is 0, or the step of R502 that misses its timeout twice
(R612), or, in legacy mode, 16 + 16 × bus + select of the command that fails its four attempts (R522). -/
def State.coldSteps (s : State) (keyOk : Bool) (dies fail : Nat) : State :=
  if s.board.boot ≠ 1 ∨ s.halted ∨ s.testMode then s
  else
    let f := s.loadFirmware
    if !f.2 then f.1
    else if 16 ≤ fail ∧ s.legacy then f.1.railsBoot.raise Rc.vrLinkLost fatalClass noOwner ((fail - 16) / 16 % 2) (fail % 16)
    else if fail = 1 then f.1.raise Rc.pstateTimeout fatalClass noOwner PState.off.code 1
    else if fail = 2 ∨ fail = 3 then f.1.railsBoot.raise Rc.pstateTimeout fatalClass noOwner PState.off.code fail
    else ((f.1.railsBoot.keysBoot keyOk).diesBoot dies).bootAt 5

/-- COLD_RESET (R611). -/
def execColdReset (keyOk : Bool) (dies fail : Nat) (s : State) : Host.Outcome State Fault Refusal :=
  done (s.coldSteps keyOk dies fail)

/-- BOOT_READY: step 7. -/
def State.bootReady (s : State) : State :=
  if s.board.boot ≠ 5 ∨ s.halted then s
  else
    let s1 := (s.bootAt 7).setFlag R.BOOT_STATUS_READY true
    ({ s1 with power := { s1.power with idleSince := s1.now } } : State).retarget

/-- BOOT_READY (R611). -/
def execBootReady (s : State) : Host.Outcome State Fault Refusal := done s.bootReady

/-- The BOOT block is served: PF 0 is up, and nothing has halted (R611, R613). -/
def State.bootUp (s : State) : Bool := s.aon && !s.halted && !s.hubAsleep && !s.testMode

/-- GO of LOAD_CMD: the image is read from the host and verified; the boot goes on with it (R613). -/
def State.loadGo (s : State) : State :=
  if s.ready ∨ !s.rings.linkUp ∨ s.board.boot = 5 ∨ !(s.hostMode || s.flag R.BOOT_STATUS_FLASH_FAIL) then s
  else
    let img := s.hostRead (s.rd R.BOOT_LOAD_ADDR_ADDR * 64) (s.rd R.BOOT_LOAD_LEN_BYTES)
    if Config.packageOk img then
      let s1 := (s.wr R.BOOT_STATUS_LOAD_RESULT 1).setFlag R.BOOT_STATUS_HOST_LOADED true
      if s1.board.boot = 3 then s1.bootAt 5 else s1.bootAt s1.board.boot
    else s.wr R.BOOT_STATUS_LOAD_RESULT 2

/-- LOAD_CMD_GO (R613). -/
def execLoadCmdGo (s : State) : Host.Outcome State Fault Refusal := done (s.when s.bootUp fun s => (s.dropHeld 0).loadGo)

/-! ### Warm reset (R507, R616 to R618) -/

/-- DIE.PERI_STATUS, which is no counter (R632). -/
def periStatusKey (k : Nat) : Bool := decide (0x01000000 ≤ k ∧ k < 0x01800000) && localOff k == 0xD0004

/-- Registers that a warm reset leaves: the always-on and guard domains, PRESS, what voltage control acknowledged, readings, the
global log, and counters (R20, R616, R632). -/
def keptWarm (k : Nat) : Bool :=
  decide (k < 0x50000) || decide (0x50100 ≤ k ∧ k < 0x50124) || decide (0x60000 ≤ k ∧ k < 0x70000) || decide (0x70004 ≤ k ∧ k < 0x80000)
    || (decide (0xB0000 ≤ k ∧ k < 0xC0000) && !decide (0xB000C ≤ k ∧ k < 0xB0010))
    || decide (0xE0000 ≤ k ∧ k < 0xF0000)
    || (keptCounter k && !periStatusKey k && match regAt k with
      | some r => r.1.rw == 0 || decide (0xD8000 ≤ k ∧ k < 0xD8040)
      | none => true)

/-- Steps 1 to 7 of R427 for every instance, with no record, result or peg for any of their work (R617). -/
def State.stopAll (s : State) : State :=
  let s1 := (List.range 17).foldl (fun (a : State) i => ((((a.dropWork i).dropSteps i).dropJobs i).dropPegs i).dropFrames i) s
  let engines := s1.arr.engines.map fun p => if computeEngine p.1 then (p.1, { p.2 with eval := none, pleat := 0 }) else p
  (({ s1 with arr := { s1.arr with engines := engines, pleatEvals := [] } } : State).loseWork)

/-- Flash at a warm reset: a program or erase runs on, an update is abandoned, and nothing stays suspended. -/
def State.flashWarm (s : State) : State :=
  let op := match s.flash.op with
    | some o => if o.writes then some o else none
    | none => none
  let s1 : State := { s with flash := { s.flash with op := op, susp := none, resetAfter := op.isSome } }
  match op with
  | some _ => s1
  | none => { s1 with flash := { s1.flash with fw := s1.flash.fw.map fun x => x.runs s.now } }

/-- The hub's registers at a warm reset. Of VOLT, the acknowledged V-points stay, as targets too, and COMMITS, which counts since the cold
reset; the rest returns to reset, so that every rail counts as settled (R525, R528, R616). -/
def State.warmRegs (s : State) : State :=
  let s0 := (List.range 17).foldl (fun a i => a.resetPage i) (s.loseChain.resetRegs fun k => !keptWarm k)
  let s1 := (s0.wr R.VOLT_LB_STATUS_COMMITS (s.rd R.VOLT_LB_STATUS_COMMITS)).setFlag R.VOLT_STATUS_LEGACY s.legacy
  let s2 := if s.legacy then s1 else
    (List.range 9).foldl (fun (a : State) r =>
      (((a.settle r (a.acked r)).wr (R.VOLT_RAIL_TARGET r) (a.acked r)).wr (R.VOLT_RAIL_VP_MAX r) 15).wr (R.VOLT_RAIL_VP_MIN r) 0) s1
  let s3 : State := { s2 with board := { s2.board with jtagSel := Tab.clearKeys (fun k => !keptWarm k) s2.board.jtagSel } }
  (s3.loseEntries.setFlag R.CHAIN_STATUS_MASTER (bit s.board.straps 2)).setFlag R.BOOT_STATUS_READY false

/-- The state of a warm reset outside the registers: T0 and T1 read as never written, instances are parked under new keys, and
every power-state transition is over. -/
def State.warmState (s : State) (keyOk : Bool) (dies : Nat) : State :=
  let s1 : State := { s with
    mem := { s.mem with t0 := [], t1 := [], g0 := blankGranules s.mem.g0, g1 := blankGranules s.mem.g1 }
    arr := { s.arr with
      books := [], checkBuf := [], bindTag := []
      decks := s.bootDecks Deck.reconcile, mirror := deckMirrors (s.bootDecks Deck.reconcile) }
    rings := { s.rings with instBusy := none, fwWaiting := [], stagedRes := [], stopped := [], numVfs := 0 }
    errs := { s.errs with restarting := [] }
    pegs := { s.pegs with t0 := [], posted := [], waits := [], retries := [], shadows := [], low := [] }
    power := { s.power with st := .run, exit := 0, repeated := false, recorded := false, reqHeld := none, closed := [], admitted := [], warmAfter := none }
    volt := { s.volt with off := [] }
    holds := ⟨[], [], 0⟩ }
  (s1.renewAll keyOk true).diesBoot dies

/-- A warm reset: everything stops, the boot reruns steps 2, 4 and 5, and READY follows. In host-load mode, or after FLASH_FAIL,
it waits for LOAD_CMD.GO. -/
def State.warmReset (s : State) (cause dies : Nat) (keyOk : Bool) : State :=
  let s1 := if s.power.entry.isSome then s.abortEntry 4 0 0 else s
  let s2 := (((s1.stopAll).flashWarm).warmRegs).warmState keyOk dies
  let s3 := (s2.wr R.BOOT_STATUS_LAST_RESET cause).bump (R.BOOT_RESET_COUNT_COUNT 0) 1
  let s4 := ((s3.wr R.BOOT_STATUS_LOAD_RESULT 0).setFlag R.BOOT_STATUS_HOST_LOADED false)
  if s4.hostMode || s4.flag R.BOOT_STATUS_FLASH_FAIL then
    { s4 with board := { s4.board with boot := 3, hostWait := true } }
  else
    let f := s4.loadFirmware
    { f.1 with board := { f.1.board with boot := if f.2 then 5 else 3 } }

/-- A warm reset is asked for: during an exit it waits for the exit's end; one in progress takes it in (R507, R618). -/
def State.askWarm (s : State) (cause dies : Nat) (keyOk : Bool) : State :=
  if !s.ready ∨ s.halted then s
  else if s.power.exit ≠ 0 then
    { s with power := { s.power with warmAfter := some (s.power.warmAfter.getD (cause, dies)) } }
  else s.warmReset cause dies keyOk

/-- The key of BOOT.RESET_CTRL. -/
def resetKey : Nat := 0x4852

/-- RESET_CTRL_WARM (R617). -/
def execResetCtrlWarm (key : Nat) (keyOk : Bool) (dies : Nat) (s : State) : Host.Outcome State Fault Refusal :=
  done (s.when (s.bootUp && key == resetKey) fun s => (s.dropHeld 0).askWarm 3 dies keyOk)

/-- A cold reset started by register first stops the work as a warm reset does (R617). -/
def State.coldByRegister (s : State) : State := s.flashDrain.coldStart 1 true

/-- RESET_CTRL_COLD (R615). -/
def execResetCtrlCold (key : Nat) (s : State) : Host.Outcome State Fault Refusal :=
  done (s.when (s.bootUp && key == resetKey) fun s => (s.dropHeld 0).coldByRegister)

/-- LOGIC_RDY, and the warm reset that waited for it (R504, R507). -/
def State.exitEnds (s : State) (keyOk : Bool) : State :=
  let s1 := s.logicRdy keyOk
  match s.power.warmAfter with
  | some c => s1.warmReset c.1 c.2 keyOk
  | none => s1

/-- LOGIC_RDY (R504). -/
def execLogicRdy (keyOk : Bool) (s : State) : Host.Outcome State Fault Refusal :=
  done (s.when (s.awaiting 4) fun s => s.exitEnds keyOk)

/-! ### PERST_n and the link (R410, R499, R500, R506, R615) -/

/-- The PCIe link goes down. -/
def State.linkDown (s : State) : State := { s with rings := { s.rings with linkUp := false } }

/-- PERST_N_ASSERT: a warm reset in RUN, IDLE and SLEEP; a cold reset while FATAL. -/
def State.perstAssert (s : State) (keyOk : Bool) (dies : Nat) : State :=
  let s1 : State := { s.linkDown with power := { s.power with perst := true } }
  if s.flag R.ERRLOG_STATUS_FATAL then s1.flashCut.coldStart 2 true
  else if s.hubAsleep then s1
  else s1.askWarm 4 dies keyOk

/-- PERST_N_ASSERT (R615). -/
def execPerstNAssert (keyOk : Bool) (dies : Nat) (s : State) : Host.Outcome State Fault Refusal :=
  done (s.when s.aon fun s => s.perstAssert keyOk dies)

/-- PERST_N_DEASSERT: WAKE_n is released, and DEEP and OFF are left. -/
def State.perstDeassert (s : State) : State :=
  ({ s with power := { s.power with perst := false, wakePin := false } } : State).wake 2 0

/-- PERST_N_DEASSERT (R499). -/
def execPerstNDeassert (s : State) : Host.Outcome State Fault Refusal := done (s.when s.aon State.perstDeassert)

/-- PCIE_SURPRISE_DOWN: descriptors in execution run on (R410). -/
def execPcieSurpriseDown (s : State) : Host.Outcome State Fault Refusal := done s.linkDown

/-- Records that waited for the link are written, event records before completion records (R215); host traffic of the chain is served
(R410, R588, R598). -/
def State.drainHost (s : State) : State :=
  let s1 := s.releaseHosts
  let s2 := (List.range s1.errs.toRings.length).foldl (fun a _ => a.recordStep) s1
  (List.range s2.rings.due.length).foldl (fun a _ => a.writeRecord) s2

/-- PCIE_LINK_UP: the link trains once PERST_n is deasserted and the hub is up. -/
def State.linkReturns (s : State) : State :=
  if s.power.perst ∨ !s.aon ∨ s.hubAsleep ∨ s.testMode ∨ s.volt.off.contains 9 then s
  else
    let s1 : State := { s with rings := { s.rings with linkUp := true } }
    if s1.hubUp then s1.drainHost else s1

/-- PCIE_LINK_UP (R410). -/
def execPcieLinkUp (s : State) : Host.Outcome State Fault Refusal := done s.linkReturns

/-! ### Alarms (R618, R621, R652) -/

/-- Alarm numbers. -/
def alarmOk (n : Nat) : Bool := decide (n < 4)

/-- Alarm `n` fires: FIRED, its vector in RUN, its wake event, and its pulse on TOUTn. -/
def State.fire (s : State) (n : Nat) : State :=
  let s1 := (s.setFlag (R.TIME_ALARM_CTRL_FIRED n) true).setFlag (R.TIME_ALARM_CTRL_ENABLE n) false
  let pulse := !s.hubAsleep
  let s2 : State := { s1 with board := { s1.board with
    tout := if pulse then (s1.board.tout.filter fun t => t.1 != n) ++ [(n, s1.now + 1000)] else s1.board.tout } }
  let s3 := if s2.running then s2.irq (s2.flag (R.TIME_ALARM_CTRL_IRQ_EN n)) (s2.rd (R.TIME_ALARM_CTRL_VECTOR n)) else s2
  if s3.flag (R.TIME_ALARM_CTRL_WAKE n) then s3.wake 5 n else s3

/-- Alarm `n` is enabled, and its time has come; one due during a reset waits for its end. -/
def State.alarmDue (s : State) (n : Nat) : Bool :=
  s.ready && s.power.st != .off && s.flag (R.TIME_ALARM_CTRL_ENABLE n) && decide (s.rd (R.TIME_ALARM_CMP_COMPARE n) ≤ s.now)

/-- ALARM_FIRE (R621). -/
def execAlarmFire (n : Nat) (s : State) : Host.Outcome State Fault Refusal :=
  unit (alarmOk n) (s.when (s.alarmDue n) fun s => s.fire n)

/-- A write of ALARM_CTRL: an alarm enabled past its time fires at once. -/
def State.writeAlarmCtrl (s : State) (n v : Nat) : State :=
  let k := (R.TIME_ALARM_CTRL_ENABLE n).key
  let fired := s.flag (R.TIME_ALARM_CTRL_FIRED n) && !bit v 28
  let s1 := (s.setWord k (v &&& 0xE03F0000)).setFlag (R.TIME_ALARM_CTRL_FIRED n) fired
  if s1.alarmDue n then s1.fire n else s1

/-- ALARM_CTRL_WRITE (R621). -/
def execAlarmCtrlWrite (n value : Nat) (s : State) : Host.Outcome State Fault Refusal :=
  unit (alarmOk n) (s.when s.hubUp fun s => s.cmdWrite 0 fun s => s.writeAlarmCtrl n value)

/-- TOUT_PULSE_END: 1 µs after the firing, TOUTn is low again. -/
def State.pulseEnds (s : State) (n : Nat) : State :=
  { s with board := { s.board with tout := s.board.tout.filter fun t => !(t.1 == n && decide (t.2 ≤ s.now)) } }

/-- TOUT_PULSE_END (R652). -/
def execToutPulseEnd (n : Nat) (s : State) : Host.Outcome State Fault Refusal := unit (alarmOk n) (s.pulseEnds n)

end Sys2Proof.Machine
end

