-- ==== Sys2Proof/Machine/PinOps.lean ====
section
/-!
DEFINITION. The GPIO pins and their functions, and the word file of the serial ports: what register accesses and pin events
share (R649 to R654).
-/

namespace Sys2Proof.Machine

/-! ### GPIO (R649 to R651) -/

/-- FUNC of pin `n` as it acts: pins without an alternate function are always GPIO (R649). -/
def State.pinFunc (s : State) (n : Nat) : Bool := s.flag (R.PINMUX_PIN_FUNC n) && !([5, 6, 7, 14, 15].contains n)

/-- Pin `n` is parked (R650). -/
def State.parked (s : State) (n : Nat) : Bool := s.board.parks.any fun p => p.1 == n

/-- The G2 drives pin `n` as a GPIO (GPIO.OE). -/
def State.drives (s : State) (n : Nat) : Bool := bit (s.rd R.GPIO_OE_PINS) n && !s.pinFunc n && !s.parked n

/-- Pin `n` is TOUT of an alarm (R649). -/
def State.isTout (s : State) (n : Nat) : Bool := s.pinFunc n && decide (8 ≤ n ∧ n ≤ 11)

/-- GPIO.IN of pin `n`: during a park the level held from its start, else the level the G2 drives or the level read (R649,
R652). -/
def State.pinIn (s : State) (n : Nat) : Bool :=
  if s.parked n then bit s.board.gpioIn n
  else if s.drives n then bit (s.rd R.GPIO_OUT_PINS) n
  else if s.isTout n then s.board.tout.any fun t => t.1 == n - 8
  else bit s.board.gpioIn n

/-- GPIO.IN. -/
def State.gpioWord (s : State) : Nat := (List.range 16).foldl (fun w n => if s.pinIn n then w + 2 ^ n else w) 0

/-- The edge detector of pin `n` sees an edge: EDGE, its vector in RUN when the bit sets, and wake source 8. -/
def State.edge (s : State) (n : Nat) (rise : Bool) : State :=
  let en := if rise then s.rd R.GPIO_RISE_PINS else s.rd R.GPIO_FALL_PINS
  if s.pinFunc n || !bit en n then s
  else
    let old := s.rd R.GPIO_EDGE_PINS
    let s1 := s.wr R.GPIO_EDGE_PINS (putBit old n true)
    let s2 := if s1.running && !bit old n then s1.irq (s1.flag R.GPIO_CTRL_IRQ_EN) (s1.rd R.GPIO_CTRL_VECTOR) else s1
    s2.wake 8 n

/-- An edge on pin `n` if its level is no longer `before`. -/
def State.edgeFrom (s : State) (n : Nat) (before : Bool) : State := if s.pinIn n = before then s else s.edge n (s.pinIn n)

/-- The level at which the outside holds pin `n` changes; a parked pin holds what it read, and a pin that the G2 drives keeps its
level (R649, R651). -/
def State.pinLevel (s : State) (n : Nat) (high : Bool) : State :=
  let s1 : State := { s with board := { s.board with pad := putBit s.board.pad n high } }
  if s.parked n then s1
  else ({ s1 with board := { s1.board with gpioIn := putBit s1.board.gpioIn n high } } : State).edgeFrom n (s.pinIn n)

/-- The park of a pin ends, and the new function takes it; a level other than the held one is one edge (R650, R651). -/
def State.unpark (s : State) (n : Nat) : State :=
  ({ s with board := { s.board with
      parks := s.board.parks.filter fun p => p.1 != n
      gpioIn := putBit s.board.gpioIn n (bit s.board.pad n) } } : State).edgeFrom n (s.pinIn n)

/-- UART_TX has its pin (R649, R653). -/
def State.uartOn (s : State) : Bool := s.pinFunc 4 && !s.parked 4

/-- A write of PINMUX.PIN: a change of FUNC parks the pin at the level it shows, for at most 40 ns, and abandons the line that UART_TX sends
(R650, R651). -/
def State.writePin (s : State) (n v : Nat) : State :=
  let moved := bit v 0 != s.flag (R.PINMUX_PIN_FUNC n)
  let s1 := s.setWord (R.PINMUX_PIN_FUNC n).key (v &&& 0xF1)
  if !moved then s1
  else
    let parks := s1.board.parks.filter (fun p => p.1 != n) ++ [(n, s1.now + 40)]
    let uart := if n = 4 then s1.board.uart.drop 1 else s1.board.uart
    { s1 with board := { s1.board with parks := parks, uart := uart, gpioIn := putBit s1.board.gpioIn n (s.pinIn n) } }

/-! ### The word file (R654) -/

/-- Hottest calibrated sensor of the device, as a signed 16-bit field. -/
def State.hottestWord (s : State) : Nat :=
  let t := (List.range 10).map fun d => tempOf (s.rd (R.THERM_DOMAIN_NOW d))
  ofSigned 16 (t.foldl max (t.headD 0))

/-- GUARD_OUT_n driven low, by output. -/
def State.stopsAsserted (s : State) : Nat :=
  (List.range 8).foldl (fun w j => if s.guard.out.getD j 2 = 0 then w + 2 ^ j else w) 0

/-- The word at an index (R654). -/
def State.fileWord (s : State) (i : Nat) : Nat :=
  match i with
  | 0x00 => 0x0848
  | 0x01 => s.rd R.IDENT_CAPS0_GRADE * 256 + Config.stepping % 256
  | 0x02 => s.power.st.code
  | 0x03 => s.hottestWord
  | 0x0E => s.rd R.PRESS_EST_MW / 10
  | 0x0F => s.rd R.PRESS_STATUS_CAP_APPLIED / 10
  | 0x10 => s.stopsAsserted * 256 + s.rd R.GUARD_CTRL_ARM * 16 + s.rd R.THERM_STATUS_THROTTLE * 8 + s.rd R.PRESS_STATUS_FLOOR * 4
      + s.rd R.ERRLOG_STATUS_FROZEN * 2 + s.rd R.ERRLOG_STATUS_FATAL
  | _ => if 4 ≤ i ∧ i ≤ 13 then s.rd (R.THERM_DOMAIN_NOW (i - 4)) else 0

/-- `n` words from an index; the index has 8 bits. -/
def State.fileWords (s : State) (i n : Nat) : List Nat := (List.range n).map fun j => s.fileWord ((i + j) % 256)

/-- The hub's rail is up (R657). -/
def State.hubPowered (s : State) : Bool := s.aon && !s.hubAsleep && !s.volt.off.contains 9

/-- The serial ports serve: in RUN, IDLE and SLEEP, and in FATAL (R654). -/
def State.portsServe (s : State) : Bool := s.aon && !s.hubAsleep && (s.ready || s.halted)

end Sys2Proof.Machine
end

