-- ==== Sys2Proof/Machine/RegRead.lean ====
section
/-!
DEFINITION. Reading a register: the addresses of each access path (R19, R39, R380, R381), the registers whose value is derived from
the state of their unit, and what is served when (R600, R611).
-/

namespace Sys2Proof.Machine

/-! ### Addresses (R39, R380, R381) -/

/-- Access path of the JTAG register port (R19). -/
def jtagPath : Nat := 17

/-- A key at which no register lies. -/
def noKey : Nat := fnBase + 0x7000

/-- Key of a PF BAR0 offset: the RING block shows the pages of instances 0 to 16. -/
def barKey (o : Nat) : Nat :=
  if 0x90000 ≤ o ∧ o < 0xA0000 then
    let n := (o - 0x90000) / 0x800
    let r := (o - 0x90000) % 0x800
    if n ≤ 16 ∧ r < 0x500 then fnKey n (0x1000 + r) else noKey
  else o

/-- Key of a PF BAR2 offset. -/
def bar2Key (o : Nat) : Nat :=
  if o < 0x1000 ∨ (0x2000 ≤ o ∧ o < 0x4000) then fnKey 0 o
  else if 0x100000 ≤ o ∧ o < 0x100400 then fnKey 0 (0x8000 + (o - 0x100000))
  else if 0x101000 ≤ o ∧ o < 0x101008 then fnKey 0 (0x8800 + (o - 0x101000))
  else noKey

/-- First offset by which a command names PF BAR2 (log entry 2). -/
def bar2Base : Nat := 0x10000000

/-- Key of the aligned word at an offset of an access path. -/
def pathKey (path off : Nat) : Nat :=
  let o := off - off % 4
  if path = 0 ∨ path = jtagPath then
    if o < 0x04000000 then barKey o else if bar2Base ≤ o then bar2Key (o - bar2Base) else noKey
  else if o < 0x7000 ∨ (0x8000 ≤ o ∧ o < 0x8080) ∨ (0x8800 ≤ o ∧ o < 0x8808) then fnKey path o
  else noKey

/-- The key shows a workload instance's ring page through the RING block, where every field is RO (R381). -/
def ringCopy (path off : Nat) : Bool := (path == 0 || path == jtagPath) && decide (0x90800 ≤ off ∧ off < 0xA0000)

/-! ### Derived registers -/

/-- The code of an instance's state (INST.STATE). -/
def InstState.code : InstState → Nat
  | .none => 0
  | .ready => 1
  | .resetting => 2
  | .failed => 3
  | .parked => 4

/-- STATE of an instance as the registers show it: instance 0 always reads READY (R412). -/
def State.stateCode (s : State) (i : Nat) : Nat := if i = 0 then InstState.ready.code else (s.inst i).st.code

/-- INST.STATE of the selected instance. -/
def State.instState (s : State) : Nat :=
  let i := s.rd R.INST_SEL_INSTANCE
  let broad := countIf (fun j => (s.inst j).st != .none && (s.inst j).broad) (List.range 17)
  (if i ≤ 16 then (s.inst i).gen * 65536 + s.stateCode i else 0) + broad * 256

/-- INST_STATUS.STATE. -/
def State.ownState (s : State) (f : Nat) : Nat :=
  (s.inst f).gen * 65536 + b2n (s.inst f).broad * 32768 + s.stateCode f

/-- Limit `n` of an instance's hamper (INST_STATUS.HAMPER.LIMIT): T0, T1, T2, cores, peg units, work rings. -/
def State.limitOf (s : State) (f n : Nat) : Nat :=
  let q := (s.inst f).quota
  if n = 3 then (s.inst f).cores.length else if n < 3 then q.getD n 0 else q.getD (n - 1) 0

/-- PSTATE.STATUS. -/
def State.pstateWord (s : State) : Nat :=
  let linkWait := match s.power.entry with
    | some t => s.power.askedPcie && !s.power.accepted.contains pcieBlock && t.deepOrOff
    | none => false
  b2n s.power.entry.isSome * 2 ^ 31 + b2n linkWait * 2 ^ 30
    + (match s.power.entry with
      | some t => t.code
      | none => 0) * 256 + s.power.st.code

/-- FLASH.STATUS. -/
def State.flashStatus (s : State) : Nat :=
  (s.word 0xC0000 &&& 0x080000FF) + b2n s.flashBusy * 2 ^ 31 + b2n (s.bankBusy 0) * 2 ^ 30 + b2n (s.bankBusy 1) * 2 ^ 29
    + b2n s.flash.susp.isSome * 2 ^ 28

/-- Free spares of a deck. -/
def Deck.freeSpares (d : Deck) : Nat := countIf (fun p => p.1 == 0) d.spares

/-- DIE.DARN_ENTRY of a deck. -/
def Deck.darnWord (d : Deck) (j : Nat) : Nat := (d.spares.getD j (0, 0)).1 * 2 ^ 29 + (d.spares.getD j (0, 0)).2 % 1024

/-- DIE.DECK_HEALTH of a deck. -/
def Deck.healthWord (d : Deck) : Nat :=
  d.seq % 65536 * 65536 + d.freeSpares * 2048 + b2n d.calMissing * 1024 + b2n d.srcLost * 512 + b2n d.calIsDue * 256 + ofSigned 8 d.tcal

/-- The byte of DIE.DECK_STATE for a deck. -/
def Deck.stateByte (d : Deck) : Nat := b2n d.retired * 128 + b2n d.pair * 64 + b2n d.pbo * 32 + d.owner % 32

/-- GUARD.ENGINE_STATE of a guard engine. -/
def State.guardEngineWord (s : State) (g : Nat) : Nat :=
  let d := s.deck (nEngines + g) 0
  b2n d.pbo * 2 ^ 31 + b2n ((s.engine (nEngines + g)).retired || d.retired) * 2 ^ 30 + d.freeSpares * 2 ^ 25 + b2n d.calMissing * 2 ^ 24
    + min d.badCols.length 255 * 65536 + ofSigned 8 d.tcal

/-- Work that was admitted before a die's hem closed still drains (R308). -/
def State.drains (s : State) (d : Nat) : Bool :=
  s.evaluating || !s.pe.isEmpty || s.transferring || s.rings.dma.any fun j => j.domains.contains d

/-- DIE.HEM_STATUS: the hem's state, and its count. -/
def State.hemWord (s : State) (d : Nat) : Nat :=
  s.word (dieKey d 0xC3000) % 2 ^ 30 + (if !s.power.closed.contains d then 0 else if s.drains d then 1 else 2) * 2 ^ 30

/-- The engine that PERI_SEL of die `d` selects. -/
def State.periEngine (s : State) (d : Nat) : Option Nat :=
  let n := s.rd (R.DIE_PERI_SEL_ENGINE d)
  if n < 12288 then some (d * 12288 + n) else none

/-- DIE.PERI_STATUS. -/
def State.periStatus (s : State) (d : Nat) : Nat :=
  match s.periEngine d with
  | none => s.word (dieKey d 0xD0004)
  | some e => s.word (dieKey d 0xD0004) + b2n (s.engine e).retired * 2 + b2n (s.owned e)

/-- A word of the periphery aperture: 0 of a retired engine, or of none. A read that comes while an evaluation runs gives the contents
before it, and follows the writes that wait (R145; log entry 51). -/
def State.readPeri (s : State) (d o : Nat) : Nat :=
  match s.periEngine d with
  | none => 0
  | some e => if (s.engine e).retired then 0 else (s.aperLand e).periRead e o

/-- A word of die `d`'s window. -/
def State.readDie (s : State) (d o : Nat) : Nat :=
  let n := s.rd (R.DIE_HEALTH_SEL_ENGINE d)
  let sel := fun (k : Nat) => s.deck (d * 12288 + n) k
  if 0x1000 ≤ o ∧ o < 0x1200 then (if n < 12288 then (sel ((o - 0x1000) / 0x40)).darnWord ((o - 0x1000) % 0x40 / 4) else 0)
  else if 0x1200 ≤ o ∧ o < 0x1220 then (if n < 12288 then (sel ((o - 0x1200) / 4)).healthWord else 0)
  else if 0x40000 ≤ o ∧ o < 0xA0000 then (s.deck (d * 12288 + (o - 0x40000) / 0x20) ((o - 0x40000) % 0x20 / 4)).wear
  else if 0xA0000 ≤ o ∧ o < 0xB8000 then
    let e := d * 12288 + (o - 0xA0000) / 8
    leNat ((List.range 4).map fun k => (s.deck e ((o - 0xA0000) % 8 + k)).stateByte)
  else if o = 0xB8000 then
    countIf (fun e => dieOfEngine e == d) (s.arr.jobs.flatMap fun j =>
      (j.targets.filter fun t => !t.guard && decide (t.stage = 2 ∨ t.stage = 3)).map Target.engine)
  else if o = 0xC3000 then s.hemWord d
  else if 0xC4014 ≤ o ∧ o < 0xC4024 then
    let c := s.rd (R.DIE_CORE_SEL_CORE d)
    if c < 768 then Tab.get (fun _ => 0) s.arr.coreCount ((d * 768 + c) * 4 + (o - 0xC4014) / 4) else 0
  else if o = 0xD0004 then s.periStatus d
  else if 0xE0000 ≤ o ∧ o < 0xF0000 then s.readPeri d (o - 0xE0000)
  else s.word (dieKey d o)

/-- A word of the GUARD block: what lies on V_GUARD reads 0 while the domain is down. -/
def State.readGuard (s : State) (k : Nat) : Nat :=
  let o := k - 0xE0000
  if !s.guard.up then
    if o = 0 then s.word k &&& 0xF0000000
    else if 0x80 ≤ o ∧ o < 0x100 ∧ o % 8 = 0 then s.word k &&& 0xFF00
    else if (0x60 ≤ o ∧ o < 0x80) ∨ (0x200 ≤ o ∧ o < 0x320) then s.word k
    else 0
  else if 0x400 ≤ o ∧ o < 0x500 then s.guardEngineWord ((o - 0x400) / 4)
  else if 0x500 ≤ o ∧ o < 0x600 then (s.deck (nEngines + (o - 0x500) / 4) 0).wear
  else if 0x8000 ≤ o ∧ o < 0x9000 then s.readGuardAper (o - 0x8000)
  else s.word k

/-- A word of a function page. -/
def State.readFn (s : State) (f o k : Nat) : Nat :=
  if o < 0x1000 then Tab.get (fun _ => 0) s.rings.bells k
  else if 0x2000 ≤ o ∧ o < 0x3000 ∧ o % 0x40 / 8 = 2 then
    let a := (o - 0x2000) / 0x40
    let v := if s.aliasOk f a then s.pegValue f (s.aliasLoc f a) else 0
    if o % 8 = 0 then v % 2 ^ 32 else v / 2 ^ 32
  else if o = 0x3000 then s.ownState f
  else if 0x3200 ≤ o ∧ o < 0x3230 then (if o % 8 = 0 then s.used f ((o - 0x3200) / 8) else s.limitOf f ((o - 0x3200) / 8))
  else if 0x3400 ≤ o ∧ o < 0x3600 then
    (if s.csi.ctxs.any fun c => c.1 == (o - 0x3400) / 0x20 && c.2.inst == f then s.word k else 0)
  else s.word k

/-- The current value of the word at a key, apart from windows that other units serve. -/
def State.readKey (s : State) (k : Nat) : Nat :=
  if fnBase ≤ k then s.readFn ((k - fnBase) / 0x10000) ((k - fnBase) % 0x10000) k
  else if 0x01000000 ≤ k ∧ k < 0x01800000 then s.readDie ((k - 0x01000000) / 0x100000) ((k - 0x01000000) % 0x100000)
  else if 0x02010000 ≤ k ∧ k < 0x02015000 then (Tab.get (fun _ => 0) s.board.snap (k - 0x02010000)).toNat
  else match k >>> 16 with
  | 0x0 => if k = 0x4 then Config.stepping % 65536
      else if k = 0x18 then Config.serial % 2 ^ 32 else if k = 0x1C then Config.serial / 2 ^ 32 % 2 ^ 32 else s.word k
  | 0x2 => if k = 0x20000 then s.now % 2 ^ 32 else if k = 0x20004 then s.now / 2 ^ 32 % 2 ^ 32
      else if k = 0x20008 then s.word k % 2 ^ 31 + b2n s.onCrystal * 2 ^ 31 else s.word k
  | 0x3 => if k < 0x30040 then s.word k + b2n (s.parked ((k - 0x30000) / 4)) * 4096
      else if k = 0x30048 then s.gpioWord else s.word k
  | 0x4 => if k = 0x40008 then s.pstateWord else s.word k
  | 0x5 => if 0x50200 ≤ k ∧ k < 0x50440 then s.vtableWord ((k - 0x50200) / 0x40) ((k - 0x50200) % 0x40 / 4)
      else if k = 0x50810 then (if s.legacy then s.word k else putBit (s.word k) 29 false) else s.word k
  | 0x6 => if k = 0x60004 ∧ s.legacy then putBit (s.word k) 31 false else s.word k
  | 0x7 => if 0x70100 ≤ k ∧ k < 0x70B00 then
        s.word k % 2 ^ 31
          + b2n (decide ((k - 0x70100) % 0x100 / 4 < sensorCount ((k - 0x70100) / 0x100)) && s.sensed ((k - 0x70100) / 0x100)) * 2 ^ 31
      else s.word k
  | 0x8 => if k = 0x80040 then s.instState else s.word k
  | 0xC => if k = 0xC0000 then s.flashStatus else s.word k
  | 0xE => s.readGuard k
  | 0x10 => if k = 0x100010 then s.rd R.HBM_PAGES_RETIRED * 65536 + s.freePages else s.word k
  | _ => s.word k

/-! ### What is served (R600, R611, R627, R657) -/

/-- A read of a key gets the register's value: before READY only of IDENT and BOOT, after a halt only of IDENT, ERRLOG and GUARD, and
by JTAG of DEBUG. -/
def State.readable (s : State) (path k : Nat) : Bool :=
  if s.halted then
    decide (k < 0x10000 ∨ (0xB0000 ≤ k ∧ k < 0xC0000) ∨ (0xE0000 ≤ k ∧ k < 0xF0000))
      || (path == jtagPath && decide (0x02000000 ≤ k ∧ k < 0x03000000))
  else s.ready || decide (k < 0x20000)

/-- A write of a key may act. -/
def State.writable (s : State) (k : Nat) : Bool := !s.halted && (s.ready || decide (k < 0x20000))

/-- The width of the register at a key, 0 where none lies. -/
def regWidth (k : Nat) : Nat :=
  match regAt k with
  | some r => r.1.width
  | none => 0

/-- A read of one word by an access path (R18, R19, R559, R600): the value, with the high word of a 64-bit register latched by
the read of its low word. The value of a word not served is all ones. DESIGN CHOICE (log entry 41): a latched high word is given
to one read, and a high word read with none latched is the current value. -/
def State.readWord (s : State) (path k : Nat) : State × Nat :=
  if !s.readable path k then (s, 0xFFFFFFFF)
  else if 0xC8000 ≤ k ∧ k < 0xD0000 then s.readWindow (k - 0xC8000)
  else
    match s.holds.rd.find? fun h => h.1 == path && h.2.1 == k with
    | some h => ({ s with holds := { s.holds with rd := s.holds.rd.erase h } }, h.2.2)
    | none =>
      if regWidth k = 64 ∧ k % 8 = 0 then
        let rest := s.holds.rd.filter fun h => !(h.1 == path && h.2.1 == k + 4)
        ({ s with holds := { s.holds with rd := rest ++ [(path, k + 4, s.readKey (k + 4))] } }, s.readKey k)
      else (s, s.readKey k)

end Sys2Proof.Machine
end

