-- ==== Sys2Proof/Machine/RegWrite.lean ====
section
/-!
DEFINITION. Writing a register: what each register's write does, the held low words of R19, REGACC's own select registers (R628), and
the remote window (R581).
-/

namespace Sys2Proof.Machine

/-! ### Plain writes (R16, R18) -/

/-- The bits of a register word that a write sets, and those that writing 1 clears. -/
def writeMasks (k : Nat) : Nat × Nat :=
  match regAt k with
  | some r => ((r.1.rw >>> (8 * (r.2 - r.2 % 4))) % 2 ^ 32, (r.1.w1c >>> (8 * (r.2 - r.2 % 4))) % 2 ^ 32)
  | none => (0, 0)

/-- A write by the field types alone: RW fields are set, W1C bits written 1 are cleared, the rest is ignored. -/
def State.writePlain (s : State) (k v : Nat) : State :=
  let m := writeMasks k
  s.setWord k ((s.word k &&& (0xFFFFFFFF - m.1) &&& (0xFFFFFFFF - (v &&& m.2))) + (v &&& m.1))

/-- The same for both words of a 64-bit register. -/
def State.writePlain64 (s : State) (k v : Nat) : State := (s.writePlain k (v % 2 ^ 32)).writePlain (k + 4) (v / 2 ^ 32)

/-- A write of GPIO.OUT or GPIO.OE: the levels of the pins it drives change at once, those of parked pins at the end of the park
(R650, R651). -/
def State.writeGpio (s : State) (k v : Nat) : State :=
  (List.range 16).foldl (fun a n => if s.parked n then a else a.edgeFrom n (s.pinIn n)) (s.writePlain k v)

/-! ### Registers whose write does something -/

/-- BOOT block (R613, R615). -/
def State.writeBoot (s : State) (k v : Nat) : State :=
  if k = 0x10004 then
    if fld v 31 16 ≠ resetKey then s
    else if fld v 1 0 = 1 then s.askWarm 3 255 true else if fld v 1 0 = 2 then s.coldByRegister else s
  else if k = 0x10014 then (if bit v 31 then s.loadGo else s)
  else s.writePlain k v

/-- TIME block (R621). -/
def State.writeTime (s : State) (k v : Nat) : State :=
  if 0x20100 ≤ k ∧ k < 0x20140 ∧ k % 16 = 8 then s.writeAlarmCtrl ((k - 0x20100) / 16) v else s.writePlain k v

/-- VOLT block (R513, R525). -/
def State.writeVolt (s : State) (k v : Nat) : State :=
  if 0x50100 ≤ k ∧ k < 0x50124 then s.writeRail ((k - 0x50100) / 4) v
  else if 0x50800 ≤ k ∧ k < 0x50810 then s.writeEntry ((k - 0x50800) / 4) v
  else s

/-- PRESS block (R537, R542, R549). -/
def State.writePress (s : State) (k v : Nat) : State :=
  if k = 0x60000 then s.writeCap v
  else if k = 0x60004 then s.writePressCtrl v
  else if k = 0x60400 then s.writeChainTotal v
  else s.writePlain k v

/-- INST block (R415). -/
def State.writeInst (s : State) (k v : Nat) : State :=
  if k = 0x80000 then s.writeInstSel v
  else if k = 0x80004 then (if bit v 31 then s.instGo (fld v 30 0) true else s)
  else
    let rest := s.rings.stagedRes.filter fun q => q != k
    let res := if 0x8000C ≤ k ∧ k < 0x80024 ∧ v % 2 ^ 32 &&& (0xFFFFFFFF - (writeMasks k).1) ≠ 0 then rest ++ [k] else rest
    { s.writePlain k v with rings := { s.rings with stagedRes := res } }

/-- ERRLOG block (R597, R601). -/
def State.writeErrlog (s : State) (k v : Nat) : State :=
  if k = 0xB0008 then s.writeErrlogHead v else if k = 0xB0120 then s.writeFatalValid v else s.writePlain k v

/-- GUARD.OUT_CFG: a change of FORCE re-evaluates the outputs at once (R458, R460). -/
def State.writeOutCfg (s : State) (v : Nat) : State :=
  let s1 := s.writePlain 0xE0064 v
  if s1.rd R.GUARD_OUT_CFG_FORCE = s.rd R.GUARD_OUT_CFG_FORCE then s1 else s1.orStage

/-- LANE_CFG0: MATRIX lies in the OR stage, the rest on V_GUARD (R458, R469). -/
def State.writeLaneCfg (s : State) (k v : Nat) : State :=
  let l := (k - 0xE0080) / 8
  if k % 8 = 0 then (if s.guard.up then s.writePlain k v else s.wr (R.GUARD_LANE_CFG0_MATRIX l) (fld v 15 8))
  else if s.guard.up && !bit (s.rd R.GUARD_CTRL_LANE_EN) l then s.writePlain k v
  else s

/-- A write that reaches the guard domain by its register port. -/
def State.portLand (s : State) (k v : Nat) : State :=
  if k = 0xE0000 then (if s.guard.up then s.laneBits v else s)
  else if k = 0xE0004 then (if s.guard.up then s.writePlain k v else s)
  else if 0xE0080 ≤ k ∧ k < 0xE0100 then s.writeLaneCfg k v
  else if k = 0xE0300 then (if bit v 31 then s.laneGo (fld v 2 0) (fld v 11 8) else s)
  else if 0xE8000 ≤ k ∧ k < 0xE9000 then s.writeGuardAper (k - 0xE8000) v
  else s.writePlain k v

/-- What waits at the register port passes once the port is open and no side of it is at retention (R304, R305). -/
def State.portOpen (s : State) : State :=
  if s.power.held.contains guardCrossing || !s.hubUp then s
  else s.guard.port.foldl (fun (a : State) p => a.portLand p.1 p.2) { s with guard := { s.guard with port := [] } }

/-- A write of the lane configuration word `k`: MATRIX lies in the OR stage, and waits for no port (R305, R458). -/
def State.writeMatrix (s : State) (k v : Nat) : State :=
  if k % 8 = 0 then s.wr (R.GUARD_LANE_CFG0_MATRIX ((k - 0xE0080) / 8)) (fld v 15 8) else s

/-- GUARD block: the OR stage and the comparators, on the always-on rail, are written at once; the rest goes by the register port. -/
def State.writeGuard (s : State) (k v : Nat) : State :=
  if k = 0xE0000 then s.writeGuardCtrl v
  else if k = 0xE0064 then s.writeOutCfg v
  else if k = 0xE0068 then s.writeLatched v
  else if 0xE0200 ≤ k ∧ k < 0xE0220 then s.writeCmpCfg ((k - 0xE0200) / 4) v
  else (if 0xE0080 ≤ k ∧ k < 0xE0100 then s.writeMatrix k v else s).overPort k v fun s => s.portLand k v

/-- CHAIN block (R574, R576, R583). -/
def State.writeChain (s : State) (k v : Nat) : State :=
  if k = 0xF0000 then s.writeChainCtrl v
  else if 0xF0300 ≤ k ∧ k < 0xF0700 then s.writeMirrorWord ((k - 0xF0300) / 16) (k % 16 / 4) v
  else s.writePlain k v

/-- The periphery aperture: a write is served between evaluations of the selected engine (R145). -/
def State.writePeri (s : State) (d o v : Nat) : State :=
  match s.periEngine d with
  | none => s
  | some e =>
    ({ s with arr := { s.arr with aper := s.arr.aper ++ [(e, o, v)] } } : State).aperIn e

/-- A die's window. -/
def State.writeDie (s : State) (d o v : Nat) : State :=
  if 0xE0000 ≤ o ∧ o < 0xF0000 then s.writePeri d (o - 0xE0000) v
  else
    let s1 := s.writePlain (dieKey d o) v
    if !s.flag (R.DIE_CHECK_CTRL_ENABLE d) && s1.flag (R.DIE_CHECK_CTRL_ENABLE d) then s1.startVisits d else s1

/-- A word is captured by DEBUG.SNAP: offsets 0xC_0000 to 0xC_4FFF of the die's window, but CORE_COUNT (R630). -/
def snapped (d k : Nat) : Bool :=
  decide (dieKey d 0xC0000 ≤ k ∧ k < dieKey d 0xC5000) && !decide (dieKey d 0xC4014 ≤ k ∧ k < dieKey d 0xC4024)

/-- TAKE: the counter range of a die at one device time (R630). -/
def State.takeSnap (s : State) (d : Nat) : State :=
  let words := (s.regs.filter fun p => snapped d p.1).map fun p => (p.1 - dieKey d 0xC0000, p.2)
  let snap := Tab.put (fun _ => 0) words 0x3000 (BitVec.ofNat 32 (s.hemWord d))
  let s1 : State := { s with board := { s.board with snap := snap } }
  (s1.wr R.DEBUG_SNAP_TIME_TIME s1.now).setFlag R.DEBUG_SNAP_DONE true

/-- A write of DEBUG.SNAP. -/
def State.writeSnap (s : State) (v : Nat) : State :=
  let s1 := s.wr R.DEBUG_SNAP_DIE (fld v 2 0)
  if bit v 31 then s1.takeSnap (fld v 2 0) else s1

/-- A 32-bit write of PF BAR0. -/
def State.writeBar (s : State) (k v : Nat) : State :=
  if 0x01000000 ≤ k ∧ k < 0x01800000 then s.writeDie ((k - 0x01000000) / 0x100000) ((k - 0x01000000) % 0x100000) v
  else if k = 0x02000004 then s.writeSnap v
  else match k >>> 16 with
  | 0x1 => s.writeBoot k v
  | 0x2 => s.writeTime k v
  | 0x3 => if k < 0x30040 then s.writePin ((k - 0x30000) / 4) v else if k < 0x30048 then s.writeGpio k v else s.writePlain k v
  | 0x4 => if k = 0x40000 then s.writePstateReq v else s.writePlain k v
  | 0x5 => s.writeVolt k v
  | 0x6 => s.writePress k v
  | 0x8 => s.writeInst k v
  | 0xA => if k = 0xA0010 then (if bit v 0 then s.pegSnap else s) else s.writePlain k v
  | 0xB => s.writeErrlog k v
  | 0xC => if k = 0xC0004 then s.writeFlashCmd v else s.writePlain k v
  | 0xE => s.writeGuard k v
  | 0xF => s.writeChain k v
  | _ => s.writePlain k v

/-! ### Function pages (R380 to R382) -/

/-- A write of a vector's mask: unmasking one that is pending sends it (R382, R408). -/
def State.writeMask (s : State) (f i v : Nat) : State :=
  let s1 := s.setFlag (R.MSIX_CTRL_MASK f i) (bit v 0)
  if !bit v 0 && bit (s1.rd (R.MSIX_PBA_PENDING f)) i then
    (s1.wr (R.MSIX_PBA_PENDING f) (putBit (s1.rd (R.MSIX_PBA_PENDING f)) i false)).msix f i
  else s1

/-- A function holds context `c` (SENSOR). -/
def State.holdsCtx (s : State) (f c : Nat) : Bool := s.csi.ctxs.any fun x => x.1 == c && x.2.inst == f

/-- A write `g` at offset `o` of a function page: an alias that it aims at a word makes that word a peg (R376). -/
def State.aimAlias (s : State) (f o : Nat) (g : State → State) : State :=
  let a := (o - 0x2000) / 0x40
  if 0x2000 ≤ o ∧ o < 0x3000 ∧ 0x18 ≤ o % 0x40 ∧ o % 0x40 < 0x28 ∧ (g s).aliasOn f a then g (s.becomesPeg ((g s).aliasLoc f a)) else g s

/-- A 32-bit write of a function page. -/
def State.writeFn (s : State) (f o v : Nat) : State :=
  let k := fnKey f o
  if o < 0x1000 then (if bellAt o then s.bellWrite f o v 4 else s)
  else if 0x1000 ≤ o ∧ o < 0x1200 ∧ o % 0x20 = 8 then s.writeWrCtrl f ((o - 0x1000) / 0x20) v
  else if 0x1200 ≤ o ∧ o < 0x1400 ∧ o % 0x20 = 8 then s.writeDrCtrl f ((o - 0x1200) / 0x20) v
  else if o = 0x1408 then s.writeEvCtrl f v
  else if 0x2000 ≤ o ∧ o < 0x3000 ∧ o % 0x40 < 0x10 then
    s.aliasCmd f ((o - 0x2000) / 0x40) (if o % 8 = 0 then 1 else 2) v (8 ≤ o % 0x40)
  else if 0x3400 ≤ o ∧ o < 0x3600 then (if s.holdsCtx f ((o - 0x3400) / 0x20) then s.writePlain k v else s)
  else if 0x8000 ≤ o ∧ o < 0x8400 ∧ o % 16 = 12 then s.writeMask f ((o - 0x8000) / 16) v
  else s.aimAlias f o fun s => s.writePlain k v

/-- The ring of a 64-bit base register is enabled, so that its write is ignored. -/
def State.baseLocked (s : State) (f o : Nat) : Bool :=
  if 0x1000 ≤ o ∧ o < 0x1200 then s.flag (R.WR_CTRL_ENABLE f ((o - 0x1000) / 0x20))
  else if 0x1200 ≤ o ∧ o < 0x1400 then s.flag (R.DR_CTRL_ENABLE f ((o - 0x1200) / 0x20))
  else if o = 0x1400 then s.flag (R.EV_CTRL_ENABLE f)
  else false

/-! ### Held low words (R19) -/

/-- Both words of a 64-bit register at once. -/
def State.write64 (s : State) (k v : Nat) : State :=
  if fnBase ≤ k then
    if s.baseLocked ((k - fnBase) / 0x10000) ((k - fnBase) % 0x10000) then s
    else s.aimAlias ((k - fnBase) / 0x10000) ((k - fnBase) % 0x10000) fun s => s.writePlain64 k v
  else if 0xF0888 ≤ k ∧ k < 0xF0908 then s.writeSpan ((k - 0xF0880) / 8) v
  else s.writePlain64 k v

/-- The low word a path holds for the register at a key, or the one in force. -/
def State.heldLow (s : State) (path k : Nat) : Nat :=
  match s.holds.wr.find? fun h => h.1 == path && h.2.1 == k with
  | some h => h.2.2
  | none => s.word k

/-- A 64-bit RW register of R19; the MSI-X table follows the PCIe rules (R382). Words of the 128-bit registers are accessed one by
one, with no word held: R19 speaks of 64-bit registers only (DESIGN CHOICE, log entry 41). -/
def pairKey (k : Nat) : Bool :=
  match regAt k with
  | some r => r.1.width == 64 && r.1.rw != 0 && !(decide (fnBase ≤ k) && decide (0x8000 ≤ localOff k))
  | none => false

/-- Something lies at a key that takes part in R19: a register, a doorbell, an aperture or a window, but no peg alias word. -/
def takesWrite (k : Nat) : Bool :=
  (regAt k).isSome || (decide (fnBase ≤ k) && bellAt (localOff k))
    || decide (0xE8000 ≤ k ∧ k < 0xE9000 ∨ 0xC8000 ≤ k ∧ k < 0xD0000 ∨ 0x02010000 ≤ k ∧ k < 0x02015000)
    || (decide (0x01000000 ≤ k ∧ k < 0x01800000) && decide (0xE0000 ≤ localOff k ∧ localOff k < 0xF0000))

/-- A peg alias word, ADD or SET (R364). -/
def aliasKey (k : Nat) : Bool :=
  decide (fnBase ≤ k) && decide (0x2000 ≤ localOff k ∧ localOff k < 0x3000) && decide (localOff k % 0x40 < 0x10)

/-- A write of one word at a key by an access path (R18, R19). -/
def State.writeKey (s : State) (path k v : Nat) : State :=
  if aliasKey k then s.writeFn ((k - fnBase) / 0x10000) ((k - fnBase) % 0x10000) v
  else if !takesWrite k then s
  else if pairKey k then
    if k % 8 = 0 then
      let s1 := s.dropHeld path
      { s1 with holds := { s1.holds with wr := s1.holds.wr ++ [(path, k, v)] } }
    else (s.dropHeld path).write64 (k - 4) (s.heldLow path (k - 4) + v * 2 ^ 32)
  else
    let s1 := s.dropHeld path
    if fnBase ≤ k then s1.writeFn ((k - fnBase) / 0x10000) ((k - fnBase) % 0x10000) v else s1.writeBar k v

/-! ### REGACC's select registers (R628) -/

/-- Keys of the select registers. -/
def selectKeys : List Nat :=
  [0xA0000, 0xA0008, 0xA000C, 0xE0310, 0xC0014, 0xF0200]
    ++ (List.range 8).flatMap fun d => [dieKey d 0x4, dieKey d 0xC4010, dieKey d 0xD0000]

/-- The PCIe and the JTAG copy of every select register change places. -/
def State.swapSelects (s : State) : State :=
  selectKeys.foldl (fun a k =>
    let j := Tab.get (fun _ => 0) a.board.jtagSel k
    let p := a.word k
    ({ a with board := { a.board with jtagSel := Tab.put (fun _ => 0) a.board.jtagSel k p } } : State).setWord k j) s

/-! ### The remote window (R581) -/

/-- A remote-window access of a path ends with a value; REGACC shows it as DONE. -/
def State.windowDone (s : State) (path value : Nat) : State :=
  if path = jtagPath then { s with board := { s.board with regacc := 2 ^ 63 + value } }
  else { s with holds := { s.holds with last := value }, chain := { s.chain with rwinData := value } }

/-- A PF BAR0 offset in the remote window. -/
def inWindow (o : Nat) : Bool := decide (0xF8000 ≤ o ∧ o < 0x100000)

/-- The access that a device makes for the master, as its management instance would: its value. A window reached by a window leads
nowhere. -/
def State.served (s : State) (write : Bool) (o v : Nat) : State × Nat :=
  let k := pathKey 0 o
  if inWindow o then (s, 0)
  else if write then (if s.writable k && !ringCopy 0 o then (s.writeKey 0 k v, v) else (s, v))
  else s.readWord 0 k

/-- An access to the remote window: a REG flit to the selected device; at the device itself it is served at once. Only the master has a
window; elsewhere the offsets read 0. -/
def State.remoteAccess (s : State) (path : Nat) (write : Bool) (off v : Nat) : State :=
  let dev := s.rd R.CHAIN_RWIN_SEL_DEVICE
  let o := s.rd R.CHAIN_RWIN_SEL_BASE * 0x8000 + off % 0x8000
  if !s.isMaster then s.windowDone path 0
  else if dev = s.rd R.CHAIN_STATUS_DEVICE_ID then (s.served write o v).1.windowDone path (s.served write o v).2
  else
    ({ s with chain := { s.chain with rwin := s.chain.rwin ++ [⟨s.now, write, o, dev, path⟩] } } : State).sendFlit dev 0
      (.reg false write o v)

/-! ### An access by a path -/

/-- The path reaches the hub: PCIe over its functions, but not in test mode, where only JTAG answers (R610). -/
def State.pathUp (s : State) (path : Nat) : Bool := s.bootUp && decide (path ≤ 16) && (s.ready || decide (path = 0))

/-- A write of one word at an offset, with the wake event of the request (R499, R527). -/
def State.accessWrite (s : State) (path off v : Nat) : State :=
  let o := off - off % 4
  let k := pathKey path off
  if !s.writable k then s
  else if (path == 0) && inWindow o then ((s.dropHeld path).remoteAccess path true (o - 0xF8000) v).pcieTouch path
  else if ringCopy path o then (if takesWrite k then s.dropHeld path else s).pcieTouch path
  else if k = 0x40000 then (s.pcieTouch path).writeKey path k v
  else if 0x50000 ≤ k ∧ k < 0x60000 then (s.writeKey path k v).voltTouch
  else if fnBase ≤ k ∧ (localOff k < 0x1000 ∨ aliasKey k) then s.writeKey path k v
  else (s.writeKey path k v).pcieTouch path

/-- A read of one word at an offset. -/
def State.accessRead (s : State) (path off : Nat) : State × Nat := s.readWord path (pathKey path off)

end Sys2Proof.Machine
end

