-- ==== Sys2Proof/Machine/Registers.lean ====
section
/-!
DEFINITION. Register accesses: the meanings of REGISTER_WRITE, REGACC, REG_FLIT, the remote window, the periphery aperture,
CLIP_CLEAR and DEBUG_SNAP_TAKE (R19, R140, R145, R581, R626 to R630).
-/

namespace Sys2Proof.Machine

/-! ### PCIe (R19) -/

/-- REGISTER_WRITE: a 32-bit write at an offset of function `path`; offsets from `bar2Base` on are PF BAR2 (log entry 2). -/
def execRegisterWrite (path off value : Nat) (s : State) : Host.Outcome State Fault Refusal :=
  unit (decide (path ≤ 16)) (s.when (s.pathUp path) fun s => s.accessWrite path off (value % 2 ^ 32))

/-- SKEW_MONITOR_RELEASE: the crossing passes tokens again (R305). -/
def execSkewMonitorRelease (d x : Nat) (s : State) : Host.Outcome State Fault Refusal :=
  unit (crossingOk d x) (s.skewRelease d x).portOpen

/-- A die index. -/
def dieOk (d : Nat) : Bool := decide (d < 8)

/-- PERI_APERTURE_ACCESS: a read or a write of the aperture of die `d` at a local offset; a read leaves its value in
`holds.last`. -/
def State.aperture (s : State) (d off : Nat) (write : Bool) (v : Nat) : State :=
  let o := 0x01000000 + 0x100000 * d + 0xE0000 + off % 0x10000
  if write then s.accessWrite 0 o (v % 2 ^ 32)
  else
    let r := s.accessRead 0 o
    ({ r.1 with holds := { r.1.holds with last := r.2 } } : State).pcieTouch 0

/-- PERI_APERTURE_ACCESS (R145). -/
def execPeriApertureAccess (d off : Nat) (write : Bool) (value : Nat) (s : State) : Host.Outcome State Fault Refusal :=
  unit (dieOk d) (s.when s.hubUp fun s => s.aperture d off write value)

/-- CLIP_CLEAR: a write of the selected engine's CLIP_CLEAR word through the aperture (R140). -/
def execClipClear (d value : Nat) (s : State) : Host.Outcome State Fault Refusal :=
  unit (dieOk d) (s.when s.hubUp fun s => s.aperture d 0x8F0C true value)

/-- DEBUG_SNAP_TAKE: a write of DEBUG.SNAP (R630). -/
def execDebugSnapTake (value : Nat) (s : State) : Host.Outcome State Fault Refusal :=
  done (s.when s.hubUp fun s => s.accessWrite 0 0x02000004 (value % 2 ^ 32))

/-! ### JTAG (R626 to R628) -/

/-- The JTAG port is powered: RUN, IDLE and SLEEP (R506, R624). -/
def State.jtagUp (s : State) : Bool := s.hubPowered

/-- Put an outcome into REGACC. -/
def State.setRegacc (s : State) (v : Nat) : State := { s with board := { s.board with regacc := v } }

/-- DEBUG.CTRL.JTAG_REG, and a halt, let an access through (R627). -/
def State.regaccOk (s : State) (write : Bool) (k : Nat) : Bool :=
  let mode := s.rd R.DEBUG_CTRL_JTAG_REG
  (s.testMode || (if write then mode == 2 else mode != 0)) && (!s.halted || (!write && s.readable jtagPath k))

/-- An access of REGACC to the word at a PF BAR0 offset, over its own select registers. -/
def State.regaccRun (s : State) (write : Bool) (o v : Nat) : State :=
  let k := pathKey jtagPath o
  if !s.regaccOk write k then s.setRegacc (2 ^ 63 + 2 ^ 62)
  else
    let s1 := s.swapSelects
    let s2 :=
      if inWindow o then ((if write then s1.dropHeld jtagPath else s1).setRegacc 0).remoteAccess jtagPath write (o - 0xF8000) v
      else if write then ((if s1.writable k && !ringCopy jtagPath o then s1.writeKey jtagPath k v else s1)).setRegacc (2 ^ 63)
      else (s1.readWord jtagPath k).1.setRegacc (2 ^ 63 + (s1.readWord jtagPath k).2)
    s2.swapSelects

/-- REGACC: an Update-DR of the 64-bit register. -/
def State.regacc (s : State) (dr : Nat) : State :=
  let s1 : State := { s with board := { s.board with jtag := 6 } }
  let o := fld dr 61 38 * 4
  if fld dr 63 62 = 1 then s1.regaccRun false o 0
  else if fld dr 63 62 = 2 then s1.regaccRun true o (fld dr 31 0)
  else s1

/-- REGACC (R626). -/
def execRegacc (dr : Nat) (s : State) : Host.Outcome State Fault Refusal := done (s.when s.jtagUp fun s => s.regacc dr)

/-! ### The remote window (R581) -/

/-- REMOTE_WINDOW_ACCESS: an access over PCIe at an offset of the window. -/
def execRemoteWindowAccess (off : Nat) (write : Bool) (value : Nat) (s : State) : Host.Outcome State Fault Refusal :=
  unit (decide (off < 0x8000)) (s.when s.hubUp fun s =>
    ((if write then s.dropHeld 0 else s).remoteAccess 0 write (off - off % 4) (value % 2 ^ 32)).pcieTouch 0)

/-- REMOTE_WINDOW_TIMEOUT: the oldest access has had no answer for 100 µs: RWIN_TIMEOUT, and a read gives all ones. -/
def State.windowLate (s : State) : State :=
  match s.chain.rwin with
  | [] => s
  | a :: t =>
    if s.now < a.start + 100000 then s
    else
      let s1 := ({ s with chain := { s.chain with rwin := t } } : State).setFlag R.CHAIN_STATUS_RWIN_TIMEOUT true
      s1.windowDone a.path (if a.write then 0 else 0xFFFFFFFF)

/-- REMOTE_WINDOW_TIMEOUT (R581). -/
def execRemoteWindowTimeout (s : State) : Host.Outcome State Fault Refusal := done (s.when s.hubUp State.windowLate)

/-- A response answers the oldest access that it can belong to; one that comes too late answers none. -/
def State.takeResponse (s : State) (f : Flit) (write : Bool) (o v : Nat) : State :=
  match s.chain.rwin.find? fun a => a.write == write && a.off == o && a.dev == f.src with
  | none => s
  | some a =>
    ({ s with chain := { s.chain with rwin := s.chain.rwin.erase a } } : State).windowDone a.path (if write then 0 else v % 2 ^ 32)

/-- A request is served as an access of the management instance, and answered. -/
def State.takeRequest (s : State) (f : Flit) (write : Bool) (o v : Nat) : State :=
  let r := s.served write (o % 0x04000000) (v % 2 ^ 32)
  r.1.sendBack f (.reg true write o r.2)

/-- REG_FLIT (R581). -/
def execRegFlit (p : Nat) (f : Flit) (s : State) : Host.Outcome State Fault Refusal :=
  flit p (match f.payload with
    | .reg response write o v => s.deliver p f fun s => if response then s.takeResponse f write o v else s.takeRequest f write o v
    | _ => s.strange p f)

end Sys2Proof.Machine
end

