-- ==== Sys2Proof/Machine/Pins.lean ====
section
/-!
DEFINITION. Pins: the meanings of the JTAG instructions, of GPIO and pin multiplexing, and of the serial ports (R624, R625,
R649 to R654).
-/

namespace Sys2Proof.Machine

/-! ### JTAG instructions (R624, R625) -/

/-- A JTAG instruction takes the port, with what its data register captures. -/
def State.jtagTake (s : State) (code dr : Nat) : State := { s with board := { s.board with jtag := code, sample := dr } }

/-- BYPASS (R624). -/
def execBypass (s : State) : Host.Outcome State Fault Refusal := done (s.when s.jtagUp fun s => s.jtagTake 0 0)

/-- The 32-bit device ID code (R624). -/
def idcode : Nat := 0x1 * 2 ^ 28 + 0x0848 * 2 ^ 12 + 0x5C3 * 2 + 1

/-- IDCODE (R624). -/
def execIdcode (s : State) : Host.Outcome State Fault Refusal := done (s.when s.jtagUp fun s => s.jtagTake 1 idcode)

/-- SAMPLE_PRELOAD: `pins` is what the boundary cells observe (R624). -/
def execSamplePreload (pins : Nat) (s : State) : Host.Outcome State Fault Refusal :=
  done (s.when s.jtagUp fun s => s.jtagTake 2 pins)

/-- An instruction of the EXTEST family: with SCAN_EN, or in test mode, work stops as after a FATAL record, with no record, and the
guard plane drives the stop pins no longer; otherwise it acts as BYPASS (R625). -/
def State.extestTake (s : State) (code : Nat) : State :=
  if s.testMode || s.flag R.DEBUG_CTRL_SCAN_EN then
    let s1 := s.jtagTake code s.board.sample
    { s1 with board := { s1.board with extest := true }, guard := { s1.guard with out := List.replicate 8 2 } }
  else s.jtagTake 0 0

/-- EXTEST (R625). -/
def execExtest (s : State) : Host.Outcome State Fault Refusal := done (s.when s.jtagUp fun s => s.extestTake 3)
/-- EXTEST_PULSE (R625). -/
def execExtestPulse (s : State) : Host.Outcome State Fault Refusal := done (s.when s.jtagUp fun s => s.extestTake 4)
/-- EXTEST_TRAIN (R625). -/
def execExtestTrain (s : State) : Host.Outcome State Fault Refusal := done (s.when s.jtagUp fun s => s.extestTake 5)

/-! ### GPIO and pin multiplexing (R650, R651) -/

/-- A GPIO number. -/
def pinOk (n : Nat) : Bool := decide (n < 16)

/-- PINMUX_FUNC_WRITE: a write of PINMUX.PIN (R650). -/
def execPinmuxFuncWrite (n value : Nat) (s : State) : Host.Outcome State Fault Refusal :=
  unit (pinOk n) (s.when s.hubUp fun s => s.accessWrite 0 (0x30000 + 4 * n) (value % 2 ^ 32))

/-- PARK_END (R650). -/
def execParkEnd (n : Nat) (s : State) : Host.Outcome State Fault Refusal :=
  unit (pinOk n) (s.when (s.parked n) fun s => s.unpark n)

/-- The pins' supply, V_IO18, is up: not in OFF (R489). -/
def State.pinsUp (s : State) : Bool := s.aon && s.power.st != .off

/-- GPIO_EDGE: the level of pin `n` goes high, or low (R651). -/
def execGpioEdge (n : Nat) (rise : Bool) (s : State) : Host.Outcome State Fault Refusal :=
  unit (pinOk n) (s.when s.pinsUp fun s => s.pinLevel n rise)

/-! ### I3C (R654): port 0 = management, port 1 = I3C2 on GPIO12 and 13 -/

/-- A port number. -/
def i3cOk (p : Nat) : Bool := decide (p < 2)

/-- The port serves; I3C2 needs its pins, and V_HUB's fall leaves the management port (R657). -/
def State.i3cServes (s : State) (p : Nat) : Bool :=
  s.portsServe && (p == 0 || (s.pinFunc 12 && s.pinFunc 13 && !s.parked 12 && !s.parked 13))

/-- I3C_PRIVATE_WRITE: one byte, the index. -/
def State.i3cIndex (s : State) (p i : Nat) : State := { s with board := { s.board with i3cIdx := s.board.i3cIdx.set p (i % 256) } }

/-- I3C_PRIVATE_WRITE (R654). -/
def execI3cPrivateWrite (port index : Nat) (s : State) : Host.Outcome State Fault Refusal :=
  unit (i3cOk port) (s.when (s.i3cServes port) fun s => s.i3cIndex port index)

/-- I3C_PRIVATE_READ: `n` words from the index, which advances by one per word. -/
def State.i3cRead (s : State) (p n : Nat) : State :=
  let i := s.board.i3cIdx.getD p 0
  let s1 : State := { s with board := { s.board with shifted := s.fileWords i n } }
  s1.i3cIndex p (i + n)

/-- I3C_PRIVATE_READ (R654). -/
def execI3cPrivateRead (port n : Nat) (s : State) : Host.Outcome State Fault Refusal :=
  unit (i3cOk port) (s.when (s.i3cServes port) fun s => s.i3cRead port n)

/-- A target with no dynamic address takes one (7 bits). -/
def State.i3cAssign (s : State) (p addr : Nat) : State :=
  if s.board.i3cAddr.getD p 0 = 0 then { s with board := { s.board with i3cAddr := s.board.i3cAddr.set p (addr % 128) } } else s

/-- ENTDAA (R654). -/
def execEntdaa (port addr : Nat) (s : State) : Host.Outcome State Fault Refusal :=
  unit (i3cOk port) (s.when (s.i3cServes port) fun s => s.i3cAssign port addr)

/-- SETDASA (R654): sent to the static address. -/
def execSetdasa (port addr : Nat) (s : State) : Host.Outcome State Fault Refusal :=
  unit (i3cOk port) (s.when (s.i3cServes port) fun s => s.i3cAssign port addr)

/-! ### SPI and UART (R653, R654) -/

/-- The SPI target has its four pins, and V_HUB is up (R657). -/
def State.spiServes (s : State) : Bool :=
  s.portsServe && s.hubPowered && [0, 1, 2, 3].all fun n => s.pinFunc n && !s.parked n

/-- SPI_TRANSACTION: an index byte, and `n` words shifted out. -/
def State.spi (s : State) (i n : Nat) : State := { s with board := { s.board with shifted := s.fileWords (i % 256) n } }

/-- SPI_TRANSACTION (R654). -/
def execSpiTransaction (index n : Nat) (s : State) : Host.Outcome State Fault Refusal := done (s.when s.spiServes fun s => s.spi index n)

/-- UART_LINE_SENT: the line in transmission is out, and its place in the queue is free. -/
def State.lineSent (s : State) : State := { s with board := { s.board with uart := s.board.uart.drop 1 } }

/-- UART_LINE_SENT (R653). -/
def execUartLineSent (s : State) : Host.Outcome State Fault Refusal :=
  done (s.when (s.hubPowered && s.uartOn) State.lineSent)

end Sys2Proof.Machine
end

