-- ==== Sys2Proof/Machine/Dispatch.lean ====
section
/-!
DEFINITION. The one dispatch: each command to its meaning, one arm per row of the table.
-/

namespace Sys2Proof.Machine

open Sys2Proof

/-- The effect of a command on everything but the queue. -/
def exec (i : Instr) (s : State) : Host.Outcome State Fault Refusal :=
  match i with
  | .workRingDoorbell f w value bytes => Sys2Proof.Machine.execWorkRingDoorbell f w value bytes s
  | .doneRingDoorbell f d value bytes => Sys2Proof.Machine.execDoneRingDoorbell f d value bytes s
  | .eventRingDoorbell f value bytes => Sys2Proof.Machine.execEventRingDoorbell f value bytes s
  | .descriptorFetch f w n => Sys2Proof.Machine.execDescriptorFetch f w n s
  | .nop f w => Sys2Proof.Machine.execNop f w s
  | .runStep f w => Sys2Proof.Machine.execRunStep f w s
  | .stepBind uid cal => Sys2Proof.Machine.execStepBind uid cal s
  | .stepComplete uid => Sys2Proof.Machine.execStepComplete uid s
  | .dmaCopy f w => Sys2Proof.Machine.execDmaCopy f w s
  | .dmaCopyComplete uid => Sys2Proof.Machine.execDmaCopyComplete uid s
  | .bufAlloc f w => Sys2Proof.Machine.execBufAlloc f w s
  | .bufAllocZeroDone uid => Sys2Proof.Machine.execBufAllocZeroDone uid s
  | .bufFree f w => Sys2Proof.Machine.execBufFree f w s
  | .bufFreeResume uid => Sys2Proof.Machine.execBufFreeResume uid s
  | .programDecks f w => Sys2Proof.Machine.execProgramDecks f w s
  | .rinse f w => Sys2Proof.Machine.execRinse f w s
  | .programTargetStart uid pos => Sys2Proof.Machine.execProgramTargetStart uid pos s
  | .claim uid pos => Sys2Proof.Machine.execClaim uid pos s
  | .rowPass uid pos open_ => Sys2Proof.Machine.execRowPass uid pos open_ s
  | .commit uid pos => Sys2Proof.Machine.execCommit uid pos s
  | .vprogFault => Sys2Proof.Machine.execVprogFault s
  | .pegSignal f w => Sys2Proof.Machine.execPegSignal f w s
  | .pegWait f w => Sys2Proof.Machine.execPegWait f w s
  | .fence f w => Sys2Proof.Machine.execFence f w s
  | .powerHint f w => Sys2Proof.Machine.execPowerHint f w s
  | .selfTest f w => Sys2Proof.Machine.execSelfTest f w s
  | .calibrate f w => Sys2Proof.Machine.execCalibrate f w s
  | .testDeadline uid pos => Sys2Proof.Machine.execTestDeadline uid pos s
  | .lend f w => Sys2Proof.Machine.execLend f w s
  | .reclaim f w => Sys2Proof.Machine.execReclaim f w s
  | .lendExpiry e => Sys2Proof.Machine.execLendExpiry e s
  | .streamBind f w => Sys2Proof.Machine.execStreamBind f w s
  | .instReset f w => Sys2Proof.Machine.execInstReset f w s
  | .completionRecordWrite => Sys2Proof.Machine.execCompletionRecordWrite s
  | .heldRecordRelease f d => Sys2Proof.Machine.execHeldRecordRelease f d s
  | .wrCtrlEnable f w value => Sys2Proof.Machine.execWrCtrlEnable f w value s
  | .drCtrlEnable f d value => Sys2Proof.Machine.execDrCtrlEnable f d value s
  | .evCtrlEnable f value => Sys2Proof.Machine.execEvCtrlEnable f value s
  | .operationStart uid st op => Sys2Proof.Machine.execOperationStart uid st op s
  | .eval uid st op oor => Sys2Proof.Machine.execEval uid st op oor s
  | .evalHandoff e => Sys2Proof.Machine.execEvalHandoff e s
  | .evalPleat uid st op cal oor => Sys2Proof.Machine.execEvalPleat uid st op cal oor s
  | .pleatHandoff e => Sys2Proof.Machine.execPleatHandoff e s
  | .act uid st op => Sys2Proof.Machine.execAct uid st op s
  | .pool uid st op => Sys2Proof.Machine.execPool uid st op s
  | .vecAdd uid st op => Sys2Proof.Machine.execVecAdd uid st op s
  | .vecSub uid st op => Sys2Proof.Machine.execVecSub uid st op s
  | .vecMax uid st op => Sys2Proof.Machine.execVecMax uid st op s
  | .vecMul uid st op => Sys2Proof.Machine.execVecMul uid st op s
  | .vecScale uid st op => Sys2Proof.Machine.execVecScale uid st op s
  | .vecCvt uid st op => Sys2Proof.Machine.execVecCvt uid st op s
  | .vecQuant uid st op => Sys2Proof.Machine.execVecQuant uid st op s
  | .vectorOpComplete uid st op => Sys2Proof.Machine.execVectorOpComplete uid st op s
  | .move uid st op => Sys2Proof.Machine.execMove uid st op s
  | .moveComplete uid st op => Sys2Proof.Machine.execMoveComplete uid st op s
  | .prefetch uid st op => Sys2Proof.Machine.execPrefetch uid st op s
  | .matmul uid st op => Sys2Proof.Machine.execMatmul uid st op s
  | .batched uid st op => Sys2Proof.Machine.execBatched uid st op s
  | .gather uid st op => Sys2Proof.Machine.execGather uid st op s
  | .scatter uid st op => Sys2Proof.Machine.execScatter uid st op s
  | .scatterAdd uid st op => Sys2Proof.Machine.execScatterAdd uid st op s
  | .qk uid st op => Sys2Proof.Machine.execQk uid st op s
  | .av uid st op => Sys2Proof.Machine.execAv uid st op s
  | .rope uid st op => Sys2Proof.Machine.execRope uid st op s
  | .rms uid st op => Sys2Proof.Machine.execRms uid st op s
  | .layer uid st op => Sys2Proof.Machine.execLayer uid st op s
  | .softmax uid st op => Sys2Proof.Machine.execSoftmax uid st op s
  | .topk uid st op => Sys2Proof.Machine.execTopk uid st op s
  | .peBlockStep cl => Sys2Proof.Machine.execPeBlockStep cl s
  | .peOperationComplete cl => Sys2Proof.Machine.execPeOperationComplete cl s
  | .pegAdd uid st op => Sys2Proof.Machine.execPegAdd uid st op s
  | .pegSet uid st op => Sys2Proof.Machine.execPegSet uid st op s
  | .pegWaitGe uid st op => Sys2Proof.Machine.execPegWaitGe uid st op s
  | .pegWaitEq uid st op => Sys2Proof.Machine.execPegWaitEq uid st op s
  | .nopOp uid st op => Sys2Proof.Machine.execNopOp uid st op s
  | .waitRegistrationRetry n => Sys2Proof.Machine.execWaitRegistrationRetry n s
  | .pegWatchdog n => Sys2Proof.Machine.execPegWatchdog n s
  | .aliasAdd f a part value => Sys2Proof.Machine.execAliasAdd f a part value s
  | .aliasSet f a part value => Sys2Proof.Machine.execAliasSet f a part value s
  | .pegSnapTake => Sys2Proof.Machine.execPegSnapTake s
  | .prefetchEntryIssue uid k => Sys2Proof.Machine.execPrefetchEntryIssue uid k s
  | .prefetchEntryDone uid k => Sys2Proof.Machine.execPrefetchEntryDone uid k s
  | .tileExpand uid k bad => Sys2Proof.Machine.execTileExpand uid k bad s
  | .tileReread uid k bad => Sys2Proof.Machine.execTileReread uid k bad s
  | .stepLateFetch uid cl => Sys2Proof.Machine.execStepLateFetch uid cl s
  | .backgroundVisit e => Sys2Proof.Machine.execBackgroundVisit e s
  | .checkEvaluationDone e => Sys2Proof.Machine.execCheckEvaluationDone e s
  | .checkRetry e => Sys2Proof.Machine.execCheckRetry e s
  | .darnComplete e ok => Sys2Proof.Machine.execDarnComplete e ok s
  | .columnCalibration e => Sys2Proof.Machine.execColumnCalibration e s
  | .referenceRecalibration r => Sys2Proof.Machine.execReferenceRecalibration r s
  | .sensorSample temps => Sys2Proof.Machine.execSensorSample temps s
  | .scrubBlock find => Sys2Proof.Machine.execScrubBlock find s
  | .pageMoveComplete page => Sys2Proof.Machine.execPageMoveComplete page s
  | .packetAtHem dom uid st op => Sys2Proof.Machine.execPacketAtHem dom uid st op s
  | .domainDown uid st op => Sys2Proof.Machine.execDomainDown uid st op s
  | .skewMonitorTrip d x => Sys2Proof.Machine.execSkewMonitorTrip d x s
  | .skewMonitorRelease d x => Sys2Proof.Machine.execSkewMonitorRelease d x s
  | .instSelWrite value => Sys2Proof.Machine.execInstSelWrite value s
  | .create keyOk => Sys2Proof.Machine.execCreate keyOk s
  | .apply => Sys2Proof.Machine.execApply s
  | .reset keyOk => Sys2Proof.Machine.execReset keyOk s
  | .destroy keyOk => Sys2Proof.Machine.execDestroy keyOk s
  | .inflightZero inst => Sys2Proof.Machine.execInflightZero inst s
  | .instResetTimeout inst => Sys2Proof.Machine.execInstResetTimeout inst s
  | .vfEnableClear n keyOk => Sys2Proof.Machine.execVfEnableClear n keyOk s
  | .vfEnable n => Sys2Proof.Machine.execVfEnable n s
  | .vfFlr inst keyOk => Sys2Proof.Machine.execVfFlr inst keyOk s
  | .pfFlr keyOk => Sys2Proof.Machine.execPfFlr keyOk s
  | .getVersion => Sys2Proof.Machine.execGetVersion s
  | .getCapabilities => Sys2Proof.Machine.execGetCapabilities s
  | .negotiateAlgorithms => Sys2Proof.Machine.execNegotiateAlgorithms s
  | .getDigests => Sys2Proof.Machine.execGetDigests s
  | .getCertificate slot off len => Sys2Proof.Machine.execGetCertificate slot off len s
  | .challenge slot nonce => Sys2Proof.Machine.execChallenge slot nonce s
  | .getMeasurements index sign nonce => Sys2Proof.Machine.execGetMeasurements index sign nonce s
  | .spdmUnsupportedRequest code => Sys2Proof.Machine.execSpdmUnsupportedRequest code s
  | .frameBoundary late => Sys2Proof.Machine.execFrameBoundary late s
  | .fspPacket port pkt => Sys2Proof.Machine.execFspPacket port pkt s
  | .fspClockLoss port => Sys2Proof.Machine.execFspClockLoss port s
  | .guardOscTrim => Sys2Proof.Machine.execGuardOscTrim s
  | .guardCheckEval l => Sys2Proof.Machine.execGuardCheckEval l s
  | .guardCheckRetry l => Sys2Proof.Machine.execGuardCheckRetry l s
  | .guardCalibration l e => Sys2Proof.Machine.execGuardCalibration l e s
  | .laneEnWrite value => Sys2Proof.Machine.execLaneEnWrite value s
  | .comparatorTrip c vin => Sys2Proof.Machine.execComparatorTrip c vin s
  | .comparatorDeglitch c => Sys2Proof.Machine.execComparatorDeglitch c s
  | .cmpCfgWrite c value => Sys2Proof.Machine.execCmpCfgWrite c value s
  | .latchedClear value => Sys2Proof.Machine.execLatchedClear value s
  | .guardPortLatch a => Sys2Proof.Machine.execGuardPortLatch a s
  | .guardLoad => Sys2Proof.Machine.execGuardLoad s
  | .save l => Sys2Proof.Machine.execSave l s
  | .load l => Sys2Proof.Machine.execLoad l s
  | .restoreDecks l => Sys2Proof.Machine.execRestoreDecks l s
  | .darn l => Sys2Proof.Machine.execDarn l s
  | .saveGlobal => Sys2Proof.Machine.execSaveGlobal s
  | .laneCmdEnd status => Sys2Proof.Machine.execLaneCmdEnd status s
  | .frameStart p vc num hdr => Sys2Proof.Machine.execFrameStart p vc num hdr s
  | .longPacket p vc dt bytes crcBad hdr => Sys2Proof.Machine.execLongPacket p vc dt bytes crcBad hdr s
  | .frameEnd p vc num hdr => Sys2Proof.Machine.execFrameEnd p vc num hdr s
  | .frameClose c => Sys2Proof.Machine.execFrameClose c s
  | .frameTimeout c => Sys2Proof.Machine.execFrameTimeout c s
  | .csiLinkError p kind => Sys2Proof.Machine.execCsiLinkError p kind s
  | .pstateReqRun => Sys2Proof.Machine.execPstateReqRun s
  | .pstateReqIdle => Sys2Proof.Machine.execPstateReqIdle s
  | .pstateReqSleep => Sys2Proof.Machine.execPstateReqSleep s
  | .pstateReqDeep => Sys2Proof.Machine.execPstateReqDeep s
  | .pstateReqOff => Sys2Proof.Machine.execPstateReqOff s
  | .autoIdle => Sys2Proof.Machine.execAutoIdle s
  | .entryAnswer b => Sys2Proof.Machine.execEntryAnswer b s
  | .entryAnswerTimeout b => Sys2Proof.Machine.execEntryAnswerTimeout b s
  | .linkL2l3Ready => Sys2Proof.Machine.execLinkL2l3Ready s
  | .entryComplete => Sys2Proof.Machine.execEntryComplete s
  | .wakeEvent src detail => Sys2Proof.Machine.execWakeEvent src detail s
  | .devWakeN => Sys2Proof.Machine.execDevWakeN s
  | .vrPgood => Sys2Proof.Machine.execVrPgood s
  | .oscRdy => Sys2Proof.Machine.execOscRdy s
  | .memRdy => Sys2Proof.Machine.execMemRdy s
  | .logicRdy keyOk => Sys2Proof.Machine.execLogicRdy keyOk s
  | .readyTimeout => Sys2Proof.Machine.execReadyTimeout s
  | .avsVdone rail => Sys2Proof.Machine.execAvsVdone rail s
  | .avsAttemptTimeout rail => Sys2Proof.Machine.execAvsAttemptTimeout rail s
  | .avsProbe bus ok mv => Sys2Proof.Machine.execAvsProbe bus ok mv s
  | .voltRailWrite rail value => Sys2Proof.Machine.execVoltRailWrite rail value s
  | .lbEntryStage n value => Sys2Proof.Machine.execLbEntryStage n value s
  | .lbEntryCommit value => Sys2Proof.Machine.execLbEntryCommit value s
  | .pressTick est => Sys2Proof.Machine.execPressTick est s
  | .pressCalibration ma => Sys2Proof.Machine.execPressCalibration ma s
  | .vpointLower d => Sys2Proof.Machine.execVpointLower d s
  | .vpointRaise d => Sys2Proof.Machine.execVpointRaise d s
  | .vrAlertAssert n => Sys2Proof.Machine.execVrAlertAssert n s
  | .vrAlertHoldEnd n => Sys2Proof.Machine.execVrAlertHoldEnd n s
  | .pressCapWrite value => Sys2Proof.Machine.execPressCapWrite value s
  | .hintStart k => Sys2Proof.Machine.execHintStart k s
  | .hintUnused k => Sys2Proof.Machine.execHintUnused k s
  | .floorEntry => Sys2Proof.Machine.execFloorEntry s
  | .floorExit => Sys2Proof.Machine.execFloorExit s
  | .chainTotalWrite value => Sys2Proof.Machine.execChainTotalWrite value s
  | .chainBudgetShift => Sys2Proof.Machine.execChainBudgetShift s
  | .program => Sys2Proof.Machine.execProgram s
  | .erase => Sys2Proof.Machine.execErase s
  | .suspend => Sys2Proof.Machine.execSuspend s
  | .resume => Sys2Proof.Machine.execResume s
  | .blankCheck => Sys2Proof.Machine.execBlankCheck s
  | .crc32c => Sys2Proof.Machine.execCrc32c s
  | .signedUpdate => Sys2Proof.Machine.execSignedUpdate s
  | .flashOpEnd fw => Sys2Proof.Machine.execFlashOpEnd fw s
  | .flashTimeout fw => Sys2Proof.Machine.execFlashTimeout fw s
  | .flashWindowRead off => Sys2Proof.Machine.execFlashWindowRead off s
  | .firmwareRecordWrite addr bytes => Sys2Proof.Machine.execFirmwareRecordWrite addr bytes s
  | .chainEnableWrite value => Sys2Proof.Machine.execChainEnableWrite value s
  | .portStateAdvance p lanes peer peerPort => Sys2Proof.Machine.execPortStateAdvance p lanes peer peerPort s
  | .portStateTimeout p => Sys2Proof.Machine.execPortStateTimeout p s
  | .form => Sys2Proof.Machine.execForm s
  | .formTimeout => Sys2Proof.Machine.execFormTimeout s
  | .idleFlit p fl => Sys2Proof.Machine.execIdleFlit p fl s
  | .dataFlit p fl => Sys2Proof.Machine.execDataFlit p fl s
  | .pegFlit p fl => Sys2Proof.Machine.execPegFlit p fl s
  | .descFlit p fl => Sys2Proof.Machine.execDescFlit p fl s
  | .recordFlit p fl => Sys2Proof.Machine.execRecordFlit p fl s
  | .hostFlit p fl => Sys2Proof.Machine.execHostFlit p fl s
  | .hostRspFlit p fl => Sys2Proof.Machine.execHostRspFlit p fl s
  | .regFlit p fl => Sys2Proof.Machine.execRegFlit p fl s
  | .ctrlFlit p fl keyOk => Sys2Proof.Machine.execCtrlFlit p fl keyOk s
  | .trainFlit p fl => Sys2Proof.Machine.execTrainFlit p fl s
  | .xackFlit p fl => Sys2Proof.Machine.execXackFlit p fl s
  | .nakReceived p ack => Sys2Proof.Machine.execNakReceived p ack s
  | .ackTimeout p => Sys2Proof.Machine.execAckTimeout p s
  | .portDown p => Sys2Proof.Machine.execPortDown p s
  | .remoteWindowAccess off write value => Sys2Proof.Machine.execRemoteWindowAccess off write value s
  | .remoteWindowTimeout => Sys2Proof.Machine.execRemoteWindowTimeout s
  | .mirrorWrite k value => Sys2Proof.Machine.execMirrorWrite k value s
  | .spanWrite inst value => Sys2Proof.Machine.execSpanWrite inst value s
  | .eventRingWrite => Sys2Proof.Machine.execEventRingWrite s
  | .errlogHeadWrite value => Sys2Proof.Machine.execErrlogHeadWrite value s
  | .doubleFault code seq => Sys2Proof.Machine.execDoubleFault code seq s
  | .fatalValidClear value => Sys2Proof.Machine.execFatalValidClear value s
  | .fwWatchdog cp => Sys2Proof.Machine.execFwWatchdog cp s
  | .fwRestartDone cp keyOk => Sys2Proof.Machine.execFwRestartDone cp keyOk s
  | .thermalTrip d => Sys2Proof.Machine.execThermalTrip d s
  | .vAonRise straps => Sys2Proof.Machine.execVAonRise straps s
  | .vAonLoss => Sys2Proof.Machine.execVAonLoss s
  | .coldReset keyOk dies fail => Sys2Proof.Machine.execColdReset keyOk dies fail s
  | .bootReady => Sys2Proof.Machine.execBootReady s
  | .loadCmdGo => Sys2Proof.Machine.execLoadCmdGo s
  | .resetCtrlWarm key keyOk dies => Sys2Proof.Machine.execResetCtrlWarm key keyOk dies s
  | .resetCtrlCold key => Sys2Proof.Machine.execResetCtrlCold key s
  | .perstNAssert keyOk dies => Sys2Proof.Machine.execPerstNAssert keyOk dies s
  | .perstNDeassert => Sys2Proof.Machine.execPerstNDeassert s
  | .pcieSurpriseDown => Sys2Proof.Machine.execPcieSurpriseDown s
  | .alarmFire n => Sys2Proof.Machine.execAlarmFire n s
  | .alarmCtrlWrite n value => Sys2Proof.Machine.execAlarmCtrlWrite n value s
  | .toutPulseEnd n => Sys2Proof.Machine.execToutPulseEnd n s
  | .bypass => Sys2Proof.Machine.execBypass s
  | .idcode => Sys2Proof.Machine.execIdcode s
  | .samplePreload pins => Sys2Proof.Machine.execSamplePreload pins s
  | .extest => Sys2Proof.Machine.execExtest s
  | .extestPulse => Sys2Proof.Machine.execExtestPulse s
  | .extestTrain => Sys2Proof.Machine.execExtestTrain s
  | .regacc dr => Sys2Proof.Machine.execRegacc dr s
  | .debugSnapTake value => Sys2Proof.Machine.execDebugSnapTake value s
  | .periApertureAccess d off write value => Sys2Proof.Machine.execPeriApertureAccess d off write value s
  | .clipClear d value => Sys2Proof.Machine.execClipClear d value s
  | .pinmuxFuncWrite n value => Sys2Proof.Machine.execPinmuxFuncWrite n value s
  | .parkEnd n => Sys2Proof.Machine.execParkEnd n s
  | .gpioEdge n rise => Sys2Proof.Machine.execGpioEdge n rise s
  | .i3cPrivateWrite port index => Sys2Proof.Machine.execI3cPrivateWrite port index s
  | .i3cPrivateRead port n => Sys2Proof.Machine.execI3cPrivateRead port n s
  | .entdaa port addr => Sys2Proof.Machine.execEntdaa port addr s
  | .setdasa port addr => Sys2Proof.Machine.execSetdasa port addr s
  | .spiTransaction index n => Sys2Proof.Machine.execSpiTransaction index n s
  | .registerWrite path off value => Sys2Proof.Machine.execRegisterWrite path off value s
  | .pcieLinkUp => Sys2Proof.Machine.execPcieLinkUp s
  | .vprogInRange => Sys2Proof.Machine.execVprogInRange s
  | .programFetchTimeout uid pos => Sys2Proof.Machine.execProgramFetchTimeout uid pos s
  | .vrAlertDeassert n => Sys2Proof.Machine.execVrAlertDeassert n s
  | .gpOeNRise => Sys2Proof.Machine.execGpOeNRise s
  | .chainPowerReport => Sys2Proof.Machine.execChainPowerReport s
  | .keyHealthTestFail => Sys2Proof.Machine.execKeyHealthTestFail s
  | .uartLineSent => Sys2Proof.Machine.execUartLineSent s

end Sys2Proof.Machine
end

