-- ==== Sys2Proof/Machine/Tick.lean ====
section
/-!
DEFINITION. Device time: what passes when no command waits (R619). The table has no row for it; log entry 1.
-/

namespace Sys2Proof.Machine

/-- Device time goes on by one step of its source: 10 ns of REFCLK_100 in RUN, IDLE and SLEEP; one tick of XTAL_32K, 30,517 and 37/64
ns, in DEEP and before READY; nothing in OFF (R619). -/
def State.clockStep (s : State) : Clock :=
  if !s.aon || s.power.st == .off then s.clock
  else if s.onCrystal then ⟨s.clock.ns + 30517 + (s.clock.frac + 37) / 64, (s.clock.frac + 37) % 64⟩
  else ⟨s.clock.ns + 10, s.clock.frac⟩

/-- Registered waits grow older in RUN and IDLE (R373), and those of broad instances count for CHAIN_WAIT (R549). -/
def State.ageWaits (s : State) (dt : Nat) : State :=
  if s.hubUp && (s.power.st == .run || s.power.st == .idle) then
    { s with
      pegs := { s.pegs with waits := s.pegs.waits.map fun w => { w with age := w.age + dt } }
      press := { s.press with waitNs := s.press.waitNs + dt * countIf (fun w => (s.inst w.inst).broad) s.pegs.waits } }
  else s

/-- The patrol scrubber's time goes on while it runs (R279). -/
def State.scrubClock (s : State) (dt : Nat) : State :=
  if s.scrubOn then { s with mem := { s.mem with scrubNs := s.mem.scrubNs + dt } } else s

/-- An ECC error of kind `e` comes to stand in granule `g` of T0 or T1. -/
def Mem.upsetSram (m : Mem) (tier g e : Nat) : Mem := m.setGranule tier g { m.granule tier g with err := e }

/-- With time, ECC errors arise: the next free value says whether one does, where, and whether it is correctable (R278, R603;
log entry 47). -/
def State.upset (s : State) : State :=
  let n := s.drawn
  let e := 1 + n / 4 % 2
  let m :=
    if n % 4 = 1 then { s.mem with t2Err := Tab.put (fun _ => 0) s.mem.t2Err (n / 8 % t2Blocks) e }
    else if n % 4 = 2 then s.mem.upsetSram 0 (n / 8 % (nCores * 2048)) e
    else if n % 4 = 3 then s.mem.upsetSram 1 (n / 8 % (nClusters * 65536)) e
    else s.mem
  { s.skip 1 with mem := m }

/-- What the decks age by in one step: the time that passes, or, where device time stands still, a free time (R57; log entry 9). -/
def State.ageStep (s : State) (dt : Nat) : State := if dt = 0 then (s.grow s.drawn).skip 1 else s.grow dt

/-- One step of device time, with the stalls it charges (R286, R288). -/
def State.idle (s : State) : State :=
  let c := s.clockStep
  let dt := c.ns - s.clock.ns
  let s1 := ((((if s.running then s.chargeStalls dt else s).ageWaits dt).scrubClock dt).ageStep dt).upset.aperAll
  let s2 := if s1.hubUp then (List.range 4).foldl State.sendIdle s1 else s1
  { s2.portOpen with clock := c }

end Sys2Proof.Machine
end

