-- ==== Sys2Proof/WellFormed.lean ====
section
/-!
DEFINITION. Which commands are well formed: every operand that names a unit of the device names one that exists. A command that is not
well formed faults with `noSuchUnit` and does nothing else.
-/

namespace Sys2Proof

/-- The DETAIL values of a wake source (R499). -/
def wakeDetail (src detail : Nat) : Bool :=
  match src with
  | 1 => detail == 0
  | 2 => detail == 0
  | 3 => decide (detail ≤ 16)
  | 4 => decide (detail < 4)
  | 5 => decide (detail < 4)
  | 6 => decide (detail < 8)
  | 7 => decide (detail < 16)
  | 8 => decide (detail < 16)
  | _ => false

/-- The command's operands name units that the device has. -/
def Instr.wellFormed : Instr → Bool
  | .workRingDoorbell f w _ _ => decide (f ≤ 16 ∧ w < 16)
  | .doneRingDoorbell f d _ _ => decide (f ≤ 16 ∧ d < 16)
  | .eventRingDoorbell f _ _ => decide (f ≤ 16)
  | .descriptorFetch f w _ => decide (f ≤ 16 ∧ w < 16)
  | .nop f w => decide (f ≤ 16 ∧ w < 16)
  | .runStep f w => decide (f ≤ 16 ∧ w < 16)
  | .stepBind _ _ => true
  | .stepComplete _ => true
  | .dmaCopy f w => decide (f ≤ 16 ∧ w < 16)
  | .dmaCopyComplete _ => true
  | .bufAlloc f w => decide (f ≤ 16 ∧ w < 16)
  | .bufAllocZeroDone _ => true
  | .bufFree f w => decide (f ≤ 16 ∧ w < 16)
  | .bufFreeResume _ => true
  | .programDecks f w => decide (f ≤ 16 ∧ w < 16)
  | .rinse f w => decide (f ≤ 16 ∧ w < 16)
  | .programTargetStart _ _ => true
  | .claim _ _ => true
  | .rowPass _ _ _ => true
  | .commit _ _ => true
  | .vprogFault => true
  | .pegSignal f w => decide (f ≤ 16 ∧ w < 16)
  | .pegWait f w => decide (f ≤ 16 ∧ w < 16)
  | .fence f w => decide (f ≤ 16 ∧ w < 16)
  | .powerHint f w => decide (f ≤ 16 ∧ w < 16)
  | .selfTest f w => decide (f ≤ 16 ∧ w < 16)
  | .calibrate f w => decide (f ≤ 16 ∧ w < 16)
  | .testDeadline _ _ => true
  | .lend f w => decide (f ≤ 16 ∧ w < 16)
  | .reclaim f w => decide (f ≤ 16 ∧ w < 16)
  | .lendExpiry e => decide (e < 98304)
  | .streamBind f w => decide (f ≤ 16 ∧ w < 16)
  | .instReset f w => decide (f ≤ 16 ∧ w < 16)
  | .completionRecordWrite => true
  | .heldRecordRelease f d => decide (f ≤ 16 ∧ d < 16)
  | .wrCtrlEnable f w _ => decide (f ≤ 16 ∧ w < 16)
  | .drCtrlEnable f d _ => decide (f ≤ 16 ∧ d < 16)
  | .evCtrlEnable f _ => decide (f ≤ 16)
  | .operationStart _ _ _ => true
  | .eval _ _ _ _ => true
  | .evalHandoff e => decide (e < 98304)
  | .evalPleat _ _ _ _ _ => true
  | .pleatHandoff e => decide (e < 98304)
  | .act _ _ _ => true
  | .pool _ _ _ => true
  | .vecAdd _ _ _ => true
  | .vecSub _ _ _ => true
  | .vecMax _ _ _ => true
  | .vecMul _ _ _ => true
  | .vecScale _ _ _ => true
  | .vecCvt _ _ _ => true
  | .vecQuant _ _ _ => true
  | .vectorOpComplete _ _ _ => true
  | .move _ _ _ => true
  | .moveComplete _ _ _ => true
  | .prefetch _ _ _ => true
  | .matmul _ _ _ => true
  | .batched _ _ _ => true
  | .gather _ _ _ => true
  | .scatter _ _ _ => true
  | .scatterAdd _ _ _ => true
  | .qk _ _ _ => true
  | .av _ _ _ => true
  | .rope _ _ _ => true
  | .rms _ _ _ => true
  | .layer _ _ _ => true
  | .softmax _ _ _ => true
  | .topk _ _ _ => true
  | .peBlockStep cl => decide (cl < 256)
  | .peOperationComplete cl => decide (cl < 256)
  | .pegAdd _ _ _ => true
  | .pegSet _ _ _ => true
  | .pegWaitGe _ _ _ => true
  | .pegWaitEq _ _ _ => true
  | .nopOp _ _ _ => true
  | .waitRegistrationRetry _ => true
  | .pegWatchdog n => decide (n ≤ 16)
  | .aliasAdd f a part _ => decide (f ≤ 16 ∧ a < 64 ∧ part ≤ 2)
  | .aliasSet f a part _ => decide (f ≤ 16 ∧ a < 64 ∧ part ≤ 2)
  | .pegSnapTake => true
  | .prefetchEntryIssue _ _ => true
  | .prefetchEntryDone _ _ => true
  | .tileExpand _ _ _ => true
  | .tileReread _ _ _ => true
  | .stepLateFetch _ cl => decide (cl < 256)
  | .backgroundVisit e => decide (e < 98304)
  | .checkEvaluationDone e => decide (e < 98304)
  | .checkRetry e => decide (e < 98304)
  | .darnComplete e _ => decide (e < 98368)
  | .columnCalibration e => decide (e < 98304)
  | .referenceRecalibration _ => true
  | .sensorSample _ => true
  | .scrubBlock _ => true
  | .pageMoveComplete page => decide (page < 24576)
  | .packetAtHem dom _ _ _ => decide (dom ≤ 9)
  | .domainDown _ _ _ => true
  | .skewMonitorTrip d x => decide (d < 8) && (x == 0 || (x == 1 && d % 4 != 0) || (x == 2 && d % 4 != 3))
  | .skewMonitorRelease d x => decide (d < 8) && (x == 0 || (x == 1 && d % 4 != 0) || (x == 2 && d % 4 != 3))
  | .instSelWrite _ => true
  | .create _ => true
  | .apply => true
  | .reset _ => true
  | .destroy _ => true
  | .inflightZero i => decide (1 ≤ i ∧ i ≤ 16)
  | .instResetTimeout i => decide (1 ≤ i ∧ i ≤ 16)
  | .vfEnableClear _ _ => true
  | .vfEnable n => decide (n ≤ 16)
  | .vfFlr i _ => decide (1 ≤ i ∧ i ≤ 16)
  | .pfFlr _ => true
  | .getVersion => true
  | .getCapabilities => true
  | .negotiateAlgorithms => true
  | .getDigests => true
  | .getCertificate _ _ _ => true
  | .challenge _ _ => true
  | .getMeasurements _ _ _ => true
  | .spdmUnsupportedRequest _ => true
  | .frameBoundary _ => true
  | .fspPacket port _ => decide (port < 4)
  | .fspClockLoss port => decide (port < 4)
  | .guardOscTrim => true
  | .guardCheckEval l => decide (l < 16)
  | .guardCheckRetry l => decide (l < 16)
  | .guardCalibration l e => decide (l < 16 ∧ e < 4)
  | .laneEnWrite _ => true
  | .comparatorTrip c _ => decide (c < 8)
  | .comparatorDeglitch c => decide (c < 8)
  | .cmpCfgWrite c _ => decide (c < 8)
  | .latchedClear _ => true
  | .guardPortLatch _ => true
  | .guardLoad => true
  | .save l => decide (l < 16)
  | .load l => decide (l < 16)
  | .restoreDecks l => decide (l < 16)
  | .darn l => decide (l < 16)
  | .saveGlobal => true
  | .laneCmdEnd _ => true
  | .frameStart p vc _ _ => decide (p < 8 ∧ vc < 16)
  | .longPacket p vc _ _ _ _ => decide (p < 8 ∧ vc < 16)
  | .frameEnd p vc _ _ => decide (p < 8 ∧ vc < 16)
  | .frameClose c => decide (c < 16)
  | .frameTimeout c => decide (c < 16)
  | .csiLinkError p _ => decide (p < 8)
  | .pstateReqRun => true
  | .pstateReqIdle => true
  | .pstateReqSleep => true
  | .pstateReqDeep => true
  | .pstateReqOff => true
  | .autoIdle => true
  | .entryAnswer b => decide (b < 12)
  | .entryAnswerTimeout b => decide (b < 12)
  | .linkL2l3Ready => true
  | .entryComplete => true
  | .wakeEvent src detail => wakeDetail src detail
  | .devWakeN => true
  | .vrPgood => true
  | .oscRdy => true
  | .memRdy => true
  | .logicRdy _ => true
  | .readyTimeout => true
  | .avsVdone rail => decide (rail < 9)
  | .avsAttemptTimeout rail => decide (rail < 9)
  | .avsProbe bus _ _ => decide (bus < 2)
  | .voltRailWrite rail _ => decide (rail < 9)
  | .lbEntryStage n _ => decide (1 ≤ n ∧ n ≤ 3)
  | .lbEntryCommit _ => true
  | .pressTick _ => true
  | .pressCalibration _ => true
  | .vpointLower d => decide (d < 8)
  | .vpointRaise d => decide (d < 8)
  | .vrAlertAssert n => decide (n < 2)
  | .vrAlertHoldEnd n => decide (n < 2)
  | .pressCapWrite _ => true
  | .hintStart k => decide (k < 16)
  | .hintUnused k => decide (k < 16)
  | .floorEntry => true
  | .floorExit => true
  | .chainTotalWrite _ => true
  | .chainBudgetShift => true
  | .program => true
  | .erase => true
  | .suspend => true
  | .resume => true
  | .blankCheck => true
  | .crc32c => true
  | .signedUpdate => true
  | .flashOpEnd _ => true
  | .flashTimeout _ => true
  | .flashWindowRead off => decide (off < 0x8000)
  | .firmwareRecordWrite addr _ => decide (addr < 0x20000000)
  | .chainEnableWrite _ => true
  | .portStateAdvance p _ _ _ => decide (p < 4)
  | .portStateTimeout p => decide (p < 4)
  | .form => true
  | .formTimeout => true
  | .idleFlit p _ => decide (p < 4)
  | .dataFlit p _ => decide (p < 4)
  | .pegFlit p _ => decide (p < 4)
  | .descFlit p _ => decide (p < 4)
  | .recordFlit p _ => decide (p < 4)
  | .hostFlit p _ => decide (p < 4)
  | .hostRspFlit p _ => decide (p < 4)
  | .regFlit p _ => decide (p < 4)
  | .ctrlFlit p _ _ => decide (p < 4)
  | .trainFlit p _ => decide (p < 4)
  | .xackFlit p _ => decide (p < 4)
  | .nakReceived p _ => decide (p < 4)
  | .ackTimeout p => decide (p < 4)
  | .portDown p => decide (p < 4)
  | .remoteWindowAccess off _ _ => decide (off < 0x8000)
  | .remoteWindowTimeout => true
  | .mirrorWrite k _ => decide (k < 64)
  | .spanWrite i _ => decide (1 ≤ i ∧ i ≤ 16)
  | .eventRingWrite => true
  | .errlogHeadWrite _ => true
  | .doubleFault _ _ => true
  | .fatalValidClear _ => true
  | .fwWatchdog cp => decide (cp < 2)
  | .fwRestartDone cp _ => decide (cp < 2)
  | .thermalTrip d => decide (d < 10)
  | .vAonRise _ => true
  | .vAonLoss => true
  | .coldReset _ _ _ => true
  | .bootReady => true
  | .loadCmdGo => true
  | .resetCtrlWarm _ _ _ => true
  | .resetCtrlCold _ => true
  | .perstNAssert _ _ => true
  | .perstNDeassert => true
  | .pcieSurpriseDown => true
  | .alarmFire n => decide (n < 4)
  | .alarmCtrlWrite n _ => decide (n < 4)
  | .toutPulseEnd n => decide (n < 4)
  | .bypass => true
  | .idcode => true
  | .samplePreload _ => true
  | .extest => true
  | .extestPulse => true
  | .extestTrain => true
  | .regacc _ => true
  | .debugSnapTake _ => true
  | .periApertureAccess d _ _ _ => decide (d < 8)
  | .clipClear d _ => decide (d < 8)
  | .pinmuxFuncWrite n _ => decide (n < 16)
  | .parkEnd n => decide (n < 16)
  | .gpioEdge n _ => decide (n < 16)
  | .i3cPrivateWrite port _ => decide (port < 2)
  | .i3cPrivateRead port _ => decide (port < 2)
  | .entdaa port _ => decide (port < 2)
  | .setdasa port _ => decide (port < 2)
  | .spiTransaction _ _ => true
  | .registerWrite path _ _ => decide (path ≤ 16)
  | .pcieLinkUp => true
  | .vprogInRange => true
  | .programFetchTimeout _ _ => true
  | .vrAlertDeassert n => decide (n < 2)
  | .gpOeNRise => true
  | .chainPowerReport => true
  | .keyHealthTestFail => true
  | .uartLineSent => true

end Sys2Proof
end

