-- ==== Sys2Proof/Safety.lean ====
section
/-!
DEFINITION. What a safe run is: the invariants that every step keeps, in the terms the statements use.
-/

namespace Sys2Proof.Machine

/-- A step goes on: it neither faults nor refuses. -/
def Goes (o : Host.Outcome State Fault Refusal) : Prop := ∃ t, o = .next t

/-- The hub serves accesses in RUN and no power transition is under way: the state in which a PCIe access wakes nothing and ends no
wait. -/
def State.steady (s : State) : Bool := s.running && s.power.entry.isNone

/-- The registers are in canonical form: keys rising, none listed at its reset value. -/
def State.regsOk (s : State) : Prop := Tab.wf regReset s.regs = true

/-- Memory is in canonical form. -/
def State.memOk (s : State) : Prop := s.mem.wf = true

/-- Every command in the queue is well formed. -/
def State.queueOk (s : State) : Prop := ∀ c ∈ s.pending, c.wellFormed = true

end Sys2Proof.Machine
end

