-- ==== Sys2Proof/Certificates/Slice0/Obligations.lean ====
section
/-!
DEFINITION. The statements for the provers.
-/

open Sys2Proof Sys2Proof.Machine

/-- A step takes the command at the front of the queue and runs it on the state with the rest of the queue. Choices of the model it rests on: log entry 1. -/
def Obligations.StepRunsFront : Prop :=
  ∀ (s : State) (c : Instr) (t : List Instr), s.pending = c :: t → step s = exec c { s with pending := t }

/-- With an empty queue device time goes on (log entry 1): the step is one tick of the device's clock, 10 ns in RUN with the supplies up and
none in OFF, and the queue stays empty (R619). -/
def Obligations.EmptyQueueTicks : Prop :=
  ∀ s : State, s.pending = [] →
    step s = .next s.idle ∧ s.idle.clock = s.clockStep ∧ s.idle.pending = [] ∧
    (s.steady = true → s.aon = true → s.onCrystal = false → s.idle.clock.ns = s.clock.ns + 10) ∧
    (s.power.st = .off → s.idle.clock = s.clock)

/-- What reset leaves: every register of the map at the reset value of its table (R20), device time 0 (R619), instance 0 in READY and
no other (R411), every deck rinsed and owned by none (R55, R168), the power state RUN, nothing fetched, no buffer, no command
waiting; registers, memory and queue meet the invariant that every step keeps. Choices of the model it rests on: log entry 15. -/
def Obligations.ResetState : Prop :=
  (∀ k, State.reset.word k = (regReset k).toNat) ∧ State.reset.now = 0 ∧ (State.reset.inst 0).st = .ready ∧
  (∀ i, i ≠ 0 → (State.reset.inst i).st = .none) ∧ (∀ e k, State.reset.deck e k = Deck.init) ∧
  State.reset.power.st = .run ∧ State.reset.rings.descs = [] ∧ (∀ i, State.reset.buf i = Buf.init) ∧ State.reset.pending = [] ∧
  State.reset.regsOk ∧ State.reset.memOk ∧ State.reset.queueOk

/-- WORK_RING_DOORBELL, DONE_RING_DOORBELL and EVENT_RING_DOORBELL, on a device that serves in RUN with no power entry under way, case by case. A write of 4 bytes
by an instance that takes doorbells, to an enabled ring, of a value of R385's form that moves the position over no more slots than may be moved, is accepted: the position moves
and the value is kept for reads (R385, R386); the event ring's overflow marker follows where records were lost. Any other is refused: RING_ERR.DB_INVALID counts it, DOORBELL_INVALID is raised for the
function and no position or kept value changes (R386). One that meets a closed hem is held in order, and one of a parked instance has no effect. Every one of them discards a low word held by its
path (R19). Choices of the model it rests on: log entries 3, 17. -/
def Obligations.Doorbells : Prop :=
  ∀ (s : State) (f w v : Nat), s.steady = true → f ≤ 16 → w < 16 →
    let u := s.dropHeld f
    let bad := fun (off : Nat) => (u.bump (R.RING_ERR_DB_INVALID f) 1).raise Rc.doorbellInvalid instClass f off v
    let heldAt := fun (d off : Nat) => u.post ⟨d, f, off, v, 4, none, false⟩
    let workOk := s.takesBells f = true ∧ s.workOn f w = true ∧ bellForm v (s.wrSize f w) = true ∧
      posCount (posOf v (s.wrSize f w)) (posOf (s.rd (R.WR_TAIL_POSITION f w)) (s.wrSize f w)) (s.wrSize f w) ≤
        s.wrSize f w - posCount (posOf (s.rd (R.WR_TAIL_POSITION f w)) (s.wrSize f w))
          (posOf (s.rd (R.WR_HEAD_POSITION f w)) (s.wrSize f w)) (s.wrSize f w)
    let doneOk := s.takesBells f = true ∧ s.flag (R.DR_CTRL_ENABLE f w) = true ∧ bellForm v (s.drSize f w) = true ∧
      posCount (posOf v (s.drSize f w)) (posOf (s.rd (R.DR_HEAD_POSITION f w)) (s.drSize f w)) (s.drSize f w) ≤
        posCount (posOf (s.rd (R.DR_TAIL_POSITION f w)) (s.drSize f w)) (posOf (s.rd (R.DR_HEAD_POSITION f w)) (s.drSize f w))
          (s.drSize f w)
    let eventOk := s.takesBells f = true ∧ s.flag (R.EV_CTRL_ENABLE f) = true ∧ bellForm v (s.evSize f) = true ∧
      posCount (posOf v (s.evSize f)) (posOf (s.rd (R.EV_HEAD_POSITION f)) (s.evSize f)) (s.evSize f) ≤
        posCount (posOf (s.rd (R.EV_TAIL_POSITION f)) (s.evSize f)) (posOf (s.rd (R.EV_HEAD_POSITION f)) (s.evSize f)) (s.evSize f)
    ((s.inst f).st ≠ .parked → s.closedFor f = none →
      (workOk → exec (.workRingDoorbell f w v 4) s = .next ((u.wr (R.WR_TAIL_POSITION f w) v).setBell f (4 * w) v)) ∧
      (doneOk → exec (.doneRingDoorbell f w v 4) s = .next ((u.wr (R.DR_HEAD_POSITION f w) v).setBell f (0x100 + 4 * w) v)) ∧
      (eventOk → exec (.eventRingDoorbell f v 4) s = .next (((u.wr (R.EV_HEAD_POSITION f) v).setBell f 0x200 v).overflowMarker f)) ∧
      (eventOk → s.lostOf f = 0 → exec (.eventRingDoorbell f v 4) s = .next ((u.wr (R.EV_HEAD_POSITION f) v).setBell f 0x200 v)) ∧
      (¬ workOk → exec (.workRingDoorbell f w v 4) s = .next (bad (4 * w))) ∧
      (¬ doneOk → exec (.doneRingDoorbell f w v 4) s = .next (bad (0x100 + 4 * w))) ∧
      (¬ eventOk → exec (.eventRingDoorbell f v 4) s = .next (bad 0x200))) ∧
    (∀ n, (s.inst f).st ≠ .parked → n ≠ 4 →
      exec (.workRingDoorbell f w v n) s = .next (bad (4 * w)) ∧ exec (.doneRingDoorbell f w v n) s = .next (bad (0x100 + 4 * w)) ∧
      exec (.eventRingDoorbell f v n) s = .next (bad 0x200)) ∧
    (∀ d, (s.inst f).st ≠ .parked → s.closedFor f = some d →
      exec (.workRingDoorbell f w v 4) s = .next (heldAt d (4 * w)) ∧ exec (.doneRingDoorbell f w v 4) s = .next (heldAt d (0x100 + 4 * w)) ∧
      exec (.eventRingDoorbell f v 4) s = .next (heldAt d 0x200)) ∧
    (∀ n, (s.inst f).st = .parked →
      exec (.workRingDoorbell f w v n) s = .next u ∧ exec (.doneRingDoorbell f w v n) s = .next u ∧ exec (.eventRingDoorbell f v n) s = .next u)

/-- DESCRIPTOR_FETCH of one slot, in the ring's turn, whose descriptor passes R390 and is for this device, when no descriptor waits to leave for another: the 64 bytes at WR_HEAD's
slot become a fetched descriptor under a new number, WR_HEAD advances by one position, the turn passes on, and no byte of memory changes (R387, R388). NOP and FENCE complete as they start
with status OK (R391, R397).

A descriptor that completes leaves the table of descriptors and its completion record is due, last of all, with its DESC_ID, TYPE, slot, status
and DETAIL (R403, R405, R406); no byte of memory changes. Choices of the model it rests on: log entries 3, 17. -/
def Obligations.DescriptorsRun : Prop :=
  (
  (∀ (s : State) (f w : Nat), f ≤ 16 → w < 16 → s.mayFetch f w = true → s.myTurn f w = true → 0 < s.announced f w →
    (∀ e ∈ s.rings.descs, e.started = true ∨ dDevice e.bytes = 0) →
    let z := s.wrSize f w
    let p := posOf (s.rd (R.WR_HEAD_POSITION f w)) z
    let b := s.hostRead (s.rd (R.WR_BASE_BASE f w) * 4096 + (p % z) * 64) 64
    s.fetchStatus f b = St.ok → dDevice b = 0 →
    ∃ t, exec (.descriptorFetch f w 1) s = .next t ∧ t.regs = (s.wr (R.WR_HEAD_POSITION f w) (regOf (posNext p z) z)).regs ∧
      t.rings.descs = s.rings.descs ++ [⟨s.rings.nextUid, f, w, p % z, (s.inst f).gen, b, false, none, s.now⟩] ∧
      t.rings.nextUid = s.rings.nextUid + 1 ∧ t.rings.turn = (f * 16 + w + 1) % 272 ∧ t.mem = s.mem ∧ t.arr = s.arr ∧ t.insts = s.insts) ∧
  (∀ (s : State) (f w : Nat) (d : Desc), f ≤ 16 → w < 16 → s.begin f w 0x00 = some d →
    exec (.nop f w) s = .next ((s.started d.uid).complete d.uid St.ok 0)) ∧
  (∀ (s : State) (f w : Nat) (d : Desc), f ≤ 16 → w < 16 → s.begin f w 0x09 = some d → s.fenceMet d = true →
    exec (.fence f w) s = .next ((s.started d.uid).complete d.uid St.ok 0))) ∧
  (
  ∀ (s : State) (uid status detail : Nat) (d : Desc), s.desc? uid = some d → s.rings.stopping = [] →
    ∃ t, s.complete uid status detail = t ∧ t.rings.descs = s.rings.descs.filter (fun e => e.uid != uid) ∧
      t.rings.due = s.rings.due ++ [⟨uid, d.inst, d.ring, d.slot, d.gen, dId d.bytes, dType d.bytes, dIrq d.bytes, status, detail,
        s.doneRing d.inst d.ring, none, d.fromDev, (s.chain.hostWrites.filter fun w => w.2 == d.inst).map Prod.fst⟩] ∧
      t.regs = s.regs ∧ t.mem = s.mem ∧ t.errs = s.errs ∧ t.arr = s.arr ∧ t.steps = s.steps)

/-- COMPLETION_RECORD_WRITE of the first record that may be delivered, one of this device: with its done ring enabled, a free slot and none held before it the 32 bytes go to the tail slot with the phase of
R404, DR_TAIL advances and the record is no longer due; every byte of host memory outside the slot keeps its value. Otherwise the record is held and DR_STATUS.HELD
counts it (R403, R404, R407). HELD_RECORD_RELEASE writes the oldest held record of a done ring once a slot is free (R407). Choices of the model it rests on: log entries 3, 17. -/
def Obligations.CompletionRecords : Prop :=
  (∀ (s : State) (c : CRec), s.hubUp = true → s.rings.due.find? s.mayDeliver = some c → c.fromDev = none →
    let d := c.done
    let z := s.drSize c.inst d
    let p := posOf (s.rd (R.DR_TAIL_POSITION c.inst d)) z
    let a := s.rd (R.DR_BASE_BASE c.inst d) * 4096 + (p % z) * 32
    s.reportsToMaster = false → s.flag (R.DR_CTRL_ENABLE c.inst d) = true → 0 < s.drFree c.inst d →
    (∀ h ∈ s.rings.held, ¬ (h.inst = c.inst ∧ h.done = d)) → s.flag (R.DR_CTRL_MSIX_EN c.inst d) = false → c.inst ≤ 16 → d < 16 →
    ∃ t, exec .completionRecordWrite s = .next t ∧ t.rings.due = s.rings.due.erase c ∧
      t.regs = (s.wr (R.DR_TAIL_POSITION c.inst d) (regOf (posNext p z) z)).regs ∧
      t.mem.host = cellsWrite noByte s.mem.host a (c.bytes (decide (p < z)) (s.now % 2 ^ 32)) ∧
      (∀ x, x < a ∨ a + 32 ≤ x → Tab.get noByte t.mem.host x = Tab.get noByte s.mem.host x) ∧
      t.mem.t0 = s.mem.t0 ∧ t.mem.t1 = s.mem.t1 ∧ t.mem.t2 = s.mem.t2) ∧
  (∀ (s : State) (c : CRec), s.hubUp = true → s.rings.due.find? s.mayDeliver = some c → c.fromDev = none →
    (s.flag (R.DR_CTRL_ENABLE c.inst c.done) = false ∨ s.drFree c.inst c.done = 0 ∨ ∃ h ∈ s.rings.held, h.inst = c.inst ∧ h.done = c.done) →
    exec .completionRecordWrite s = .next (({ s with rings := { s.rings with due := s.rings.due.erase c, held := s.rings.held ++ [c] } } : State).wr
      (R.DR_STATUS_HELD c.inst c.done) (countIf (fun h => h.inst == c.inst && h.done == c.done) s.rings.held + 1))) ∧
  (∀ (s : State) (f d : Nat) (c : CRec), f ≤ 16 → d < 16 → s.hubUp = true → s.linkOpen = true → s.flag (R.DR_CTRL_ENABLE f d) = true →
    0 < s.drFree f d → s.rings.held.find? (fun c => c.inst == f && c.done == d) = some c →
    exec (.heldRecordRelease f d) s = .next ((({ s with rings := { s.rings with held := s.rings.held.erase c } } : State).writeDone f d
      (fun ph => c.bytes ph (s.now % 2 ^ 32)) (c.irq || decide (c.status ≠ St.ok))).wr (R.DR_STATUS_HELD f d)
      (countIf (fun c => c.inst == f && c.done == d) s.rings.held - 1)))

/-- Enabling a ring: WR_CTRL, DR_CTRL and EV_CTRL written with ENABLE 1 to a disabled ring with SIZE_LOG2 in 6 to 16 (and, for a work ring, a ring left in
the quota) take their settings, set both positions to 0 and set ENABLE (R384, R264); the write discards a low word held by its path (R19). Choices of the model it rests on: log entry 17. -/
def Obligations.RingsEnabled : Prop :=
  ∀ (s : State) (f w v : Nat), s.steady = true → f ≤ 16 → w < 16 → bit v 31 = true → 6 ≤ fld v 4 0 → fld v 4 0 ≤ 16 →
    let u := s.dropHeld f
    (s.flag (R.WR_CTRL_ENABLE f w) = false → s.workRings f < (s.inst f).quota.getD 4 0 →
      exec (.wrCtrlEnable f w v) s = .next (((((u.wr (R.WR_CTRL_DONE_RING f w) (fld v 11 8)).wr (R.WR_CTRL_SIZE_LOG2 f w) (fld v 4 0)).wr
        (R.WR_HEAD_POSITION f w) 0).wr (R.WR_TAIL_POSITION f w) 0).setFlag (R.WR_CTRL_ENABLE f w) true)) ∧
    (s.flag (R.DR_CTRL_ENABLE f w) = false →
      exec (.drCtrlEnable f w v) s = .next ((((((u.wr (R.DR_CTRL_MSIX_EN f w) (fld v 30 30)).wr (R.DR_CTRL_VECTOR f w) (fld v 21 16)).wr
        (R.DR_CTRL_SIZE_LOG2 f w) (fld v 4 0)).wr (R.DR_TAIL_POSITION f w) 0).wr (R.DR_HEAD_POSITION f w) 0).setFlag
        (R.DR_CTRL_ENABLE f w) true)) ∧
    (s.flag (R.EV_CTRL_ENABLE f) = false → s.lostOf f = 0 →
      exec (.evCtrlEnable f v) s = .next ((((((u.wr (R.EV_CTRL_MSIX_EN f) (fld v 30 30)).wr (R.EV_CTRL_VECTOR f) (fld v 21 16)).wr
        (R.EV_CTRL_SIZE_LOG2 f) (fld v 4 0)).wr (R.EV_TAIL_POSITION f) 0).wr (R.EV_HEAD_POSITION f) 0).setFlag
        (R.EV_CTRL_ENABLE f) true))

/-- RUN_STEP of a descriptor that may start, in its turn, whose image is readable and breaks no row of the image check: the step waits for its bind, last of all steps, and nothing completes yet
(R318, R319, R392).

A RUN_STEP whose T2 area lies outside one buffer of its instance is rejected as a breach of row 1: the record of R594 is raised, and it completes with
that row's status and DETAIL 0xFFFFFFFF; no step comes about and no byte of memory changes (R319, R405). Choices of the model it rests on: log entry 18. -/
def Obligations.RunStepDecided : Prop :=
  (
  ∀ (s : State) (f w : Nat) (d : Desc), f ≤ 16 → w < 16 → s.begin f w 0x01 = some d → s.stepTurn d = true →
    let s0 := s.started d.uid
    let tier := if bit (u16At d.bytes 0x14) 0 then 4 else 2
    let h := u32At d.bytes 0x10
    let o := u64At d.bytes 0x18
    let area := u64At d.bytes 0x20
    (tier = 2 → s0.inBuffer d.inst 2 h o area = true ∧ s.power.closed.contains 8 = false) →
    let r := s0.readSpace d.inst tier h o 64
    r.2.status = St.ok → headBreach r.2.bytes area = none →
    let q := r.1.readSpace d.inst tier h o (max 64 (u64At r.2.bytes 8))
    q.2.status = St.ok →
    let im : Img := ⟨d.inst, q.2.bytes, q.1.outTable d.bytes⟩
    firstBreach (q.1.breaches im) = none →
    exec (.runStep f w) s = .next { q.1 with steps := q.1.steps ++ [im.toStep d [tier, h, o, u32At q.2.bytes 0x3C, d.inst]] }) ∧
  (
  ∀ (s : State) (f w : Nat) (d : Desc), f ≤ 16 → w < 16 → s.begin f w 0x01 = some d → bit (u16At d.bytes 0x14) 0 = false →
    (s.started d.uid).inBuffer d.inst 2 (u32At d.bytes 0x10) (u64At d.bytes 0x18) (u64At d.bytes 0x20) = false →
    exec (.runStep f w) s = .next (((s.started d.uid).raise (rowStatus 1) instClass d.inst (dId d.bytes) 0).completeC d.uid (rowStatus 1)
      0xFFFFFFFF none))

/-- The life of a step: STEP_BIND of a step that may bind and fails nothing of R324 binds it in the order of R327 (sources, pegs, codebooks and peripheries, chain
calibrations, deck calibrations); OPERATION_START of an operation that is fetched and that R344, the gate of R282 and R346 let start makes it started; STEP_COMPLETE of a step that is over
unbinds it, adds its counters and makes its record due (R351, R288); STEP_LATE_FETCH of a stall longer than STALL_LIMIT fails the step (R287). Choices of the model it rests on: log entries 3, 18, 45. -/
def Obligations.StepLife : Prop :=
  (∀ (s : State) (uid : Nat) (cal : List Bool) (t : Step) (d : Desc), s.step? uid = some t → s.desc? uid = some d → s.mayBind t = true →
    s.bindFault t = none → s.bindShut t = none →
    let b : Step := { t with bound := true, compat := s.compat t.inst }
    let s1 := (b.plan.foldl (fun (a : State) e => a.becomesPeg (b.planLoc e)) s).modStep t.uid fun _ => b
    let s2 := b.sources.foldl (fun a e => a.bindSource e) s1
    let s3 := b.plan.foldl (fun a e => a.bindPeg b e) s2
    let s4 := s3.bindWrites b
    let s5 := b.pleats.zipIdx.foldl (fun a p => a.chainCal b.uid p.1.size p.1.first false (cal.getD p.2 true)) s4
    exec (.stepBind uid cal) s = .next ((b.decks.foldl (fun a p => a.bindCal p) s5).fetchStep t.uid).busyNow) ∧
  (∀ (s : State) (uid : Nat) (cal : List Bool) (t : Step) (d : Desc) (x : Nat × Nat), s.step? uid = some t → s.desc? uid = some d → s.mayBind t = true →
    s.bindFault t = some x →
    exec (.stepBind uid cal) s = .next ((({ s with steps := s.steps.filter fun u => u.uid != uid } : State).raise x.1 instClass d.inst
      (dId d.bytes + x.2 * 2 ^ 32) 0).completeC d.uid x.1 0xFFFFFFFF (some (0, 0, 0, 0xFF, 0)))) ∧
  (∀ (s : State) (uid st op : Nat) (t : Step) (m : Stream) (o : Op),
    let u := s.fetchStep uid
    u.op? uid st op = some (t, m, o) → u.opReady t m op o = true → m.has op = true → t.gateOpen m.clusterNo o.step = true → u.streamReady t m o = true →
    exec (.operationStart uid st op) s = .next ((u.dropStreamWait uid st op).setStage uid st op 1).busyNow) ∧
  (∀ (s : State) (uid : Nat) (t : Step), s.step? uid = some t → s.stepOver t = true → (s.inst t.inst).gen = t.gen → t.status = St.ok →
    exec (.stepComplete uid) s = .next (((s.unbind t).addCounters t).completeC uid St.ok 0
      (some (min t.evals 0xFFFFFFFF, min t.clips 0xFFFFFFFF, t.stallSummary.1, t.stallSummary.2, min t.splits 0xFFFF)))) ∧
  (∀ (s : State) (uid cl : Nat) (t : Step) (c : Nat × Nat), cl < 256 → s.step? uid = some t → s.alive t = true → s.stallCause t cl = some c →
    Tab.get (fun _ => 0) t.stall cl ≠ 0 → s.stallLimit t.inst < s.now + 1 - Tab.get (fun _ => 0) t.stall cl →
    exec (.stepLateFetch uid cl) s = .next (s.failStep uid St.stepLateFetch cl (c.1 + c.2 * 65536) c.1))

/-- EVAL of an operation that has started, whose deck may be evaluated and whose inputs are read without a failure, drives its rows and leaves the engine
with the evaluation it holds until its hand-off (R67, R98, R660); a deck that may not be evaluated fails the step with its status and the operation ends (R98, R594).
EVAL_HANDOFF converts the column charges with the resolution of the row count and hands the raw values to the periphery, the engine being free again, for a new trim and for what waits at its aperture (R80, R87, R93, R145).

EVAL_PLEAT of an operation that has started: with every member's deck fit and every latch good, the members latch and drive together in the mode decided
for this evaluation (R103, R105, R116, R118); in split mode with ON_SPLIT set the step fails with STEP_PLEAT_SPREAD instead (R120). PLEAT_HANDOFF
combines the members at the head and hands the values to the last member's periphery, the members being free again, for new trims and for what waits at their apertures (R107, R110, R126). Choices of the model it rests on: log entries 3, 5, 21, 45. -/
def Obligations.EvaluationsRun : Prop :=
  (
  (∀ (s : State) (uid st op : Nat) (oor : Bool) (t : Step) (m : Stream) (o : Op), s.op? uid st op = some (t, m, o) → s.running = true →
    o.stage = 1 → o.code = 0x01 →
    let a := evalArgs m o
    let r := s.latch t.inst a
    s.deckStatus t.inst a.engine a.deck = St.ok → r.2.status = St.ok →
    exec (.eval uid st op oor) s = .next ((((r.1.spendEval a.engine a.nibble a.posOnly a.count (resolution a.count)).driveRows a.engine a.deck
      (s.dropsAny a r.2.bytes) oor).modEngine a.engine fun g => { g with eval := some (s.newEval uid st op a r.2.bytes oor) }).setStage uid st op 2)) ∧
  (∀ (s : State) (uid st op : Nat) (oor : Bool) (t : Step) (m : Stream) (o : Op), s.op? uid st op = some (t, m, o) → s.running = true →
    o.stage = 1 → o.code = 0x01 →
    let a := evalArgs m o
    let ds := s.deckStatus t.inst a.engine a.deck
    ds ≠ St.ok → exec (.eval uid st op oor) s = .next ((s.failStep uid ds (engineLoc a.engine a.deck) 0 o.step).opDone uid st op)) ∧
  (∀ (s : State) (e : Nat) (v : Eval), e < 98304 → s.running = true → (s.engine e).eval = some v →
    let r := s.rawValues e sarOf v.oor v.nibble (resolution v.rowCount) v.shift (s.evalCharges e v)
    exec (.evalHandoff e) s = .next ((((r.1.modEngine e fun g => { g with eval := none }).trimIn e).periphery e v r.2 false).aperIn e))) ∧
  (
  (∀ (s : State) (uid st op : Nat) (cal oor : Bool) (t : Step) (m : Stream) (o : Op) (p : Pleat), s.op? uid st op = some (t, m, o) → s.running = true →
    o.stage = 1 → o.code = 0x02 →
    let size := u8At o.bytes 8
    let first := u32At o.bytes 0xC
    let shift := fld (u8At o.bytes 0xA) 4 2
    t.pleat? size first = some p → s.pleatDeckFault t.inst ((List.range size).map (memberArgs o.bytes shift)) = none →
    let s1 := s.decideMode uid size first p cal
    let split := s1.isSplit uid size first
    (split = true ∧ bit (u8At o.bytes 0xA) 5 = true →
      exec (.evalPleat uid st op cal oor) s = .next
        ((s1.failStep uid St.stepPleatSpread (headOf size first) (s.spread size first) o.step).opDone uid st op)) ∧
    (bit (u8At o.bytes 0xA) 5 = false ∨ split = false →
      let as := (List.range size).map (memberArgs o.bytes (if split then splitShift size shift else shift))
      let r := s1.latchAll t.inst as
      latchFault r.2 = none →
      exec (.evalPleat uid st op cal oor) s = .next
        (r.1.drivePleat uid st op size first split oor shift (as.zip (r.2.map Access.bytes))))) ∧
  (∀ (s : State) (e : Nat) (p : PleatEval) (v : Eval), e < 98304 → s.running = true →
    s.arr.pleatEvals.find? (fun p => headOf p.size p.first == e) = some p → p.members.getLast? = some v →
    let r := s.pleatRaws p
    exec (.pleatHandoff e) s = .next ((((membersOf p.size p.first).foldl (fun (a : State) n => (a.modEngine n fun g => { g with pleat := 0 }).trimIn n)
      { r.1 with arr := { r.1.arr with pleatEvals := r.1.arr.pleatEvals.filter fun q => headOf q.size q.first != e } }).periphery e v r.2 p.split).aperAll)))

/-- ACT, POOL, VEC_ADD, VEC_SUB, VEC_MAX, VEC_MUL, VEC_SCALE, VEC_CVT and VEC_QUANT that have started, with operands read without a failure: the result of the
operation's own function is held for its destination in T0, its INT16 saturations are counted, and nothing is written yet (R340, R341, R345). An operand
that cannot be read fails the step and the operation ends with nothing written (R352, R594). Choices of the model it rests on: log entries 19, 45. -/
def Obligations.VectorOpsRun : Prop :=
  let runs := fun (c : Nat → Nat → Nat → Instr) (code : Nat) (f : List Nat → List Nat → List Nat → List Nat × Nat) =>
    ∀ (s : State) (uid st op : Nat) (t : Step) (m : Stream) (o : Op), s.op? uid st op = some (t, m, o) → s.running = true →
      o.stage = 1 → o.code = code →
      let n := u32At o.bytes 0x14
      let ra := s.vecSource uid t.inst m.unit (u32At o.bytes 8) (2 * n) (u32At o.bytes 0x1C) (if code = 4 then u8At o.bytes 0x19 + 1 else 1)
      let nb := srcBBytes code n (u8At o.bytes 0x18)
      let rb := if nb = 0 then (ra.1, Access.ok []) else ra.1.vecSource uid t.inst m.unit (u32At o.bytes 0xC) nb 0 1
      (ra.2.status = St.ok → rb.2.status = St.ok →
        exec (c uid st op) s = .next (((rb.1.bumpCore m.unit 1 (f o.bytes ra.2.bytes rb.2.bytes).2).spendFree (dieOf m.clusterNo)
          (20 * ((n + 63) / 64))).modOp uid st op fun o => { o with stage := 2, result := [(0, m.unit, u32At o.bytes 0x10, (f o.bytes ra.2.bytes rb.2.bytes).1)] })) ∧
      (ra.2.status ≠ St.ok → exec (c uid st op) s = .next ((rb.1.failAccess uid ra.2 o.step).opDone uid st op))
  runs .act 0x03 vecAct ∧ runs .pool 0x04 vecPool ∧ runs .vecAdd 0x10 vecAdd ∧ runs .vecSub 0x11 vecSub ∧ runs .vecMax 0x12 vecMax ∧
  runs .vecMul 0x13 vecMul ∧ runs .vecScale 0x14 vecScale ∧ runs .vecCvt 0x15 vecCvt ∧ runs .vecQuant 0x16 vecQuant

/-- What the vector unit computes on INT16 elements: sums, differences and maxima saturate to −32,768 … 32,767, and a product is the exact product × 2^(−15), rounded half up,
saturated (R341). -/
def Obligations.VectorArithmetic : Prop :=
  (∀ x y : Int, -32768 ≤ x ∧ x ≤ 32767 → -32768 ≤ y ∧ y ≤ 32767 →
    let one := fun v : Int => leBytes 2 (ofSigned 16 v)
    let b := List.replicate 32 0
    (vecAdd b (one x) (one y)).1 = one (max (-32768) (min 32767 (x + y))) ∧
    (vecSub b (one x) (one y)).1 = one (max (-32768) (min 32767 (x - y))) ∧
    (vecMax b (one x) (one y)).1 = one (max x y) ∧
    (vecMul b (one x) (one y)).1 = one (max (-32768) (min 32767 ((x * y + 16384) / 32768))) ∧
    (vecAdd b (one x) (one y)).2 = (if x + y < -32768 ∨ 32767 < x + y then 1 else 0))

/-- VECTOR_OP_COMPLETE writes the held result to T0 and completes the operation (R345). MOVE that has started reads its source and holds the bytes for its destination (R342);
MOVE_COMPLETE of a MOVE inside T0, T1 and T2 writes them and completes the operation, once its way is open (R345, R308); PREFETCH issues its in-line entry (R334).

PREFETCH_ENTRY_ISSUE of an entry that R282 lets start makes it a transfer; PREFETCH_ENTRY_DONE of a copy copies its blocks from its source to its destination and the entry is
done (R283); TILE_EXPAND of a tile that passes writes its rows and counts it, and one that does not pass is to be read again (R251, R252, R254); TILE_REREAD of a second copy that passes
counts and reports it and expands it, and one that does not fails the step with STEP_TILE_DAMAGED (R254, R255). Choices of the model it rests on: log entries 3, 19, 24, 45. -/
def Obligations.MovesAndEntries : Prop :=
  (
  (∀ (s : State) (uid st op : Nat) (t : Step) (m : Stream) (o : Op) (r : Nat × Nat × Nat × List Nat), s.op? uid st op = some (t, m, o) → s.running = true →
    o.stage = 2 → isVector o.code = true → s.mayWrite t = true → o.result = [r] → r.1 = 0 →
    let w := s.sramWrite 0 t.inst r.2.1 r.2.2.1 r.2.2.2
    w.2.status = St.ok → exec (.vectorOpComplete uid st op) s = .next (w.1.opDone t.uid st op)) ∧
  (∀ (s : State) (uid st op : Nat) (t : Step) (m : Stream) (o : Op), s.op? uid st op = some (t, m, o) → s.running = true →
    o.stage = 1 → o.code = 0x20 →
    let src := u64At o.bytes 8
    let r := s.readSpace t.inst (locSpace src) (t.locUnit src) (locOff src) (u32At o.bytes 0x18)
    let d := t.moveDest (u64At o.bytes 0x10)
    r.2.status = St.ok → exec (.move uid st op) s =
      .next ((r.1.spendFree (dieOf m.clusterNo) (40 * ((u32At o.bytes 0x18 + 63) / 64))).modOp uid st op fun o =>
        { o with stage := 2, result := [(d.1, d.2.1, d.2.2, r.2.bytes)] })) ∧
  (∀ (s : State) (uid st op : Nat) (t : Step) (m : Stream) (o : Op) (r : Nat × Nat × Nat × List Nat), s.op? uid st op = some (t, m, o) → s.running = true →
    o.stage = 2 → o.code = 0x20 → o.result = [r] → r.1 ≤ 2 → (s.inst t.inst).gen = t.gen → s.moveOpen t m st op o = true →
    (r.1 = 2 → s.mirrorOf t.inst r.2.1 = none) →
    let w := s.writeSpace t.inst r.1 r.2.1 r.2.2.1 r.2.2.2
    w.2.status = St.ok → exec (.moveComplete uid st op) s = .next (w.1.opDone t.uid st op)) ∧
  (∀ (s : State) (uid st op : Nat) (t : Step) (m : Stream) (o : Op) (e : Entry), s.op? uid st op = some (t, m, o) → s.running = true →
    o.stage = 1 → o.code = 0x21 → t.entries[u32At o.bytes 8]? = some e →
    exec (.prefetch uid st op) s = .next ((s.modStep uid fun t => { t with entries := t.entries.modify (u32At o.bytes 8) fun e =>
      { e with st := 1, tile := u32At e.bytes 0x1C, reread := false } }).setStage uid st op 2))) ∧
  (
  (∀ (s : State) (uid k : Nat) (t : Step) (e : Entry), s.entry? uid k = some (t, e) → s.mayIssue t k e = true →
    exec (.prefetchEntryIssue uid k) s =
      .next ((s.modEntry uid k fun e => { e with st := 1, tile := e.firstTile, reread := false }).busyNow)) ∧
  (∀ (s : State) (uid k : Nat) (t : Step) (e : Entry), s.running = true → s.entry? uid k = some (t, e) → e.st = 1 → e.isTile = false →
    s.old t = false → s.entryTokens t k e = true → s.sourceReady t k e (u64At e.bytes 0x10) (u32At e.bytes 0x1C) = true →
    let r := s.copyBlocks t.inst e 0 (u32At e.bytes 0x1C / 64)
    r.2.status = St.ok → exec (.prefetchEntryDone uid k) s = .next (r.1.endEntry t k 2).busyNow) ∧
  (∀ (s : State) (uid k : Nat) (bad : Bool) (t : Step) (e : Entry), s.running = true → s.entry? uid k = some (t, e) → s.tileThere t k e = true →
    s.old t = false →
    let r := s.readSource t.inst e e.tileAt (16 + tilePayload (u8At e.bytes 0x2C) (u8At e.bytes 0x2D))
    let ok := !bad && tileOk (u8At e.bytes 0x2C) (u8At e.bytes 0x2D) e.tile r.2.bytes
    r.2.status = St.ok →
    (e.reread = false → s.mayStart 2 = true → s.gateTokens e.cluster = true → exec (.tileExpand uid k bad) s =
      .next (if ok then r.1.expand t k e r.2.bytes else r.1.modEntry uid k fun e => { e with reread := true })) ∧
    (e.reread = true → exec (.tileReread uid k bad) s = .next (if ok then
        ((r.1.bumpTile e.cluster 1).raiseOwner Rc.tileReread t.inst e.tile (u64At e.bytes 0x10)).expand t k e r.2.bytes
      else ((r.1.bumpTile e.cluster 2).failStep t.uid St.stepTileDamaged e.tile (u64At e.bytes 0x10) (t.entryStep k e)).endEntry t k 3))))

/-- MATMUL, BATCHED, GATHER, SCATTER, SCATTER_ADD, QK, AV, ROPE, RMS, LAYER, SOFTMAX and TOPK that have started run on their cluster's Precision Engine: the streams they name are
taken, the blocks of the function are formed from the operands, and the operation's effect has begun (R224 to R233, R236).

PE_BLOCK_STEP runs one block step and DIE.PE_COUNT counts it; with its last the block is written (R236). PE_OPERATION_COMPLETE of an operation with no block step left writes
what is finished and completes the operation (R662). Choices of the model it rests on: log entries 3, 7, 20, 45. -/
def Obligations.PrecisionEngines : Prop :=
  (
  let runs := fun (c : Nat → Nat → Nat → Instr) (f : Nat) =>
    ∀ (s : State) (uid st op : Nat) (t : Step) (m : Stream) (o : Op) (p : List Nat), s.op? uid st op = some (t, m, o) → s.running = true →
      o.stage = 1 → o.code = 0x30 + f / 8 → o.func = f % 8 → t.params[u32At o.bytes 0xC]? = some p →
      (peFromT2 f p = true → s.heldTo (dieOf m.unit) 8 = false ∧ s.power.closed.contains 8 = false) →
      let ra := s.peStream uid m.unit (u32At p 8) (fld (u32At p 0x3C) 4 0)
      let rb := ra.1.peStream uid m.unit (u32At p 0xC) (fld (u32At p 0x3C) 4 0)
      let r := rb.1.peBlocks ⟨t, m.unit, p, ra.2, rb.2⟩ f
      let s1 := r.1.spendFree (dieOf m.unit) (opEnergy f (pM p) (pN p))
      ∃ run : PeRun, run.step = uid ∧ run.stream = st ∧ run.op = op ∧ run.blocks = r.2.1 ∧ run.ran = 0 ∧
        exec (c uid st op) s = .next (({ s1 with pe := s1.pe ++ [(m.unit, run)] } : State).setStage uid st op 2)
  runs .matmul fMatmul ∧ runs .batched fBatched ∧ runs .gather fGather ∧ runs .scatter fScatter ∧ runs .scatterAdd fScatterAdd ∧
  runs .qk fQk ∧ runs .av fAv ∧ runs .rope fRope ∧ runs .rms fRms ∧ runs .layer fLayer ∧ runs .softmax fSoftmax ∧ runs .topk fTopk) ∧
  (
  (∀ (s : State) (cl : Nat) (r : PeRun) (b : PeBlock) (rest : List PeBlock) (t : Step) (m : Stream) (o : Op), cl < 256 → s.running = true → s.peRun? cl = some r →
    r.blocks = b :: rest → s.op? r.step r.stream r.op = some (t, m, o) → b.steps ≠ 0 → s.peStopped t = false → s.gateTokens cl = true →
    let s1 := (s.bumpPe cl 0 1).spend (dieOf cl) (stepEnergy (t.peFormat o))
    (r.ran + 1 < b.steps → exec (.peBlockStep cl) s = .next (s1.modPe cl fun r => { r with ran := r.ran + 1 })) ∧
    (b.steps ≤ r.ran + 1 → exec (.peBlockStep cl) s =
      .next ((s1.modPe cl fun r => { r with blocks := rest, ran := 0 }).peWrite cl t o.step b))) ∧
  (∀ (s : State) (cl : Nat) (r : PeRun) (t : Step) (m : Stream) (o : Op), cl < 256 → s.running = true → s.peRun? cl = some r →
    s.op? r.step r.stream r.op = some (t, m, o) → s.peStopped t = false → (r.blocks.any fun b => b.steps != 0) = false → r.fail = St.ok →
    exec (.peOperationComplete cl) s =
      .next ((({ s with pe := s.pe.filter fun x => x.1 != cl } : State).peWriteAll cl t o.step r.blocks).opDone r.step r.stream r.op)))

/-- PEG_ADD and PEG_SET of a stream on a peg of the device, of a step whose instance was not reset, with the way to its home open and the word not poisoned: the peg takes its new value, releases
its waits, and the operation completes (R343, R357 to R359). On a host peg the shadow does, and all 8 bytes go to host memory (R367). PEG_WAIT_GE and PEG_WAIT_EQ register their wait (R359). NOP_OP completes
as it starts (R345).

PEG_SIGNAL on a peg that its instance may use, with its home's hem open and its word not poisoned, does the ADD or SET and completes with OK (R357, R396); PEG_WAIT
registers its wait (R359, R396). WAIT_REGISTRATION_RETRY makes a refused registration again once its 250 ns have passed and its way is open (R370, R305). PEG_WATCHDOG of an instance with no wait
older than WD_MS does nothing; with one it raises PEG_WATCHDOG for the oldest, counts it and ends the instance's waits (R373). Choices of the model it rests on: log entries 3, 26. -/
def Obligations.PegCommands : Prop :=
  (
  (∀ (s : State) (uid st op : Nat) (set : Bool) (t : Step) (m : Stream) (o : Op), s.op? uid st op = some (t, m, o) → s.running = true → o.stage = 1 →
    o.code = (if set then 0x41 else 0x40) → (s.inst t.inst).gen = t.gen →
    let l := t.planLoc (t.planEntry o)
    let c : Instr := if set then .pegSet uid st op else .pegAdd uid st op
    (l.tier ≠ 3 → s.blockedFor (uid, st, op) (dieOf m.clusterNo) (pegDomain l) = false → s.pegPoisoned t.inst l = false →
      exec c s = .next (((s.pegOp t.inst l t.compat set o.value (streamId t.inst m)).pegMsix t.inst o.msix).opDone uid st op)) ∧
    (l.tier = 3 →
      exec c s = .next (((s.setShadow uid l.addr (pegResult t.compat set (s.shadow uid l.addr) o.value)).pegMsix t.inst o.msix).opDone uid st op))) ∧
  (∀ (s : State) (uid st op : Nat) (ge : Bool) (t : Step) (m : Stream) (o : Op), s.op? uid st op = some (t, m, o) → s.running = true → o.stage = 1 →
    o.code = (if ge then 0x42 else 0x43) → (s.inst t.inst).gen = t.gen →
    let l := t.planLoc (t.planEntry o)
    let c : Instr := if ge then .pegWaitGe uid st op else .pegWaitEq uid st op
    s.blockedFor (uid, st, op) (dieOf m.clusterNo) (pegDomain l) = false → s.pegPoisoned t.inst l = false →
    exec c s = .next ((s.setStage uid st op 2).register
      ⟨l.tier, l.unit, l.addr, ge, o.value, t.compat, streamId t.inst m, t.inst, uid, st, op, none, o.msix, 0, 0⟩)) ∧
  (∀ (s : State) (uid st op : Nat) (t : Step) (m : Stream) (o : Op), s.op? uid st op = some (t, m, o) → s.running = true → o.stage = 1 → o.code = 0 →
    exec (.nopOp uid st op) s = .next (s.opDone uid st op))) ∧
  (
  (∀ (s : State) (f w : Nat) (d : Desc), f ≤ 16 → w < 16 → s.begin f w 0x07 = some d → s.descPegPasses f w = true →
    let s1 := s.started d.uid
    let l := descPeg d.bytes
    l.tier ≠ 3 → s1.pegAllowed d.inst l = true → s1.power.closed.contains (pegDomain l) = false → s1.pegPoisoned d.inst l = false →
    exec (.pegSignal f w) s = .next (((s1.pegOp d.inst l (s1.compat d.inst) (u8At d.bytes 0x10 == 1) (u64At d.bytes 0x20) (pegId 3 d.inst d.ring)).pegMsix
      d.inst (u8At d.bytes 0x12)).complete d.uid St.ok 0)) ∧
  (∀ (s : State) (f w : Nat) (d : Desc), f ≤ 16 → w < 16 → s.begin f w 0x08 = some d → s.descPegPasses f w = true →
    let s1 := s.started d.uid
    let l := descPeg d.bytes
    l.tier ≠ 3 → (l.tier = 2 → s1.mirrorOf d.inst l.unit = none) → s1.pegAllowed d.inst l = true → s1.power.closed.contains (pegDomain l) = false → s1.pegPoisoned d.inst l = false →
    exec (.pegWait f w) s = .next (s1.register ⟨l.tier, l.unit, l.addr, u8At d.bytes 0x10 == 0, u64At d.bytes 0x20, s1.compat d.inst,
      pegId 3 d.inst d.ring, d.inst, 0, 0, 0, some d.uid, u8At d.bytes 0x12, 0, 0⟩)) ∧
  (∀ (s : State) (n : Nat) (r : Retry), s.hubUp = true → s.pegs.retries[n]? = some r → r.at_ ≤ s.now →
    s.heldTo (s.waitSide r.wait) (pegDomain ⟨r.wait.tier, r.wait.unit, r.wait.addr⟩) = false →
    exec (.waitRegistrationRetry n) s =
      .next (({ s with pegs := { s.pegs with retries := s.pegs.retries.eraseIdx n } } : State).register r.wait)) ∧
  (∀ (s : State) (i : Nat) (w : Wait), i ≤ 16 → s.hubUp = true → s.pegs.waits = [w] → w.inst = i → s.pegs.retries = [] → w.desc = none →
    (s.steps.filter fun t => t.inst == i && t.bound) = [] → s.wdNs i < w.age →
    exec (.pegWatchdog i) s = .next (((s.raise St.pegWatchdog instClass i (s.waitDescId w + w.id * 2 ^ 32) (s.waitPlace w)).bump
      (R.INST_STATUS_PEG_COUNT_WD_FIRES i) 1).dropWaits fun w => w.inst == i)))

/-- The value of a peg: ADD adds modulo 2^64 and SET replaces it; under COMPAT32 an ADD changes the low 32 bits only, modulo 2^32 (R357, R360). A wait for GE holds when the
difference, taken modulo 2^64 (2^32 under COMPAT32), lies in its lower half; a wait for EQ when it is 0 (R357, R360). -/
def Obligations.PegArithmetic : Prop :=
  ∀ old v : Nat, old < 2 ^ 64 → v < 2 ^ 64 →
    pegResult false false old v = (old + v) % 2 ^ 64 ∧ (∀ c, pegResult c true old v = v) ∧
    pegResult true false old v % 2 ^ 32 = (old + v) % 2 ^ 32 ∧ pegResult true false old v / 2 ^ 32 = old / 2 ^ 32 ∧
    (waitHolds false true old v = true ↔ (old + 2 ^ 64 - v) % 2 ^ 64 < 2 ^ 63) ∧ (waitHolds false false old v = true ↔ old = v) ∧
    (waitHolds true false old v = true ↔ old % 2 ^ 32 = v % 2 ^ 32) ∧
    (waitHolds true true old v = true ↔ (old % 2 ^ 32 + 2 ^ 32 - v % 2 ^ 32) % 2 ^ 32 < 2 ^ 31)

/-- An ADD or SET on a T0 peg at which no wait's condition comes to hold: the peg's word holds the new value, every other T0 peg and all memory keep theirs, and the signaller is recorded with
device time (R356, R357, R376). Choices of the model it rests on: log entry 26. -/
def Obligations.PegOpOnT0 : Prop :=
  ∀ (s : State) (i core n v id : Nat) (compat set : Bool), n < 256 → core < nCores → (∀ w ∈ s.pegs.waits, ¬ (w.tier = 0 ∧ w.unit = core ∧ w.addr = n)) →
    let l : PegLoc := ⟨0, core, n⟩
    let t := s.pegOp i l compat set v id
    (∀ j, t.pegValue j l = pegResult compat set (s.pegValue i l) v % 2 ^ 64) ∧
    (∀ j c m, m < 256 → (c ≠ core ∨ m ≠ n) → t.pegValue j ⟨0, c, m⟩ = s.pegValue j ⟨0, c, m⟩) ∧
    t.mem = s.mem ∧ t.regs = s.regs ∧ t.rings = s.rings ∧ (0, core, n, id, s.now) ∈ t.pegs.last

/-- ALIAS_ADD and ALIAS_SET of 64 bits by an instance that may use the alias's target: the operation on the peg is done with a signaller of kind 4 (R364 to R366); on an alias that is not enabled or
whose target the instance may not use, nothing is done but ALIAS_STATUS.DROPPED being set (R366). PEG_SNAP_TAKE with no peg selected, or with a word selected that is no peg, clears the snapshot and sets DONE; it discards a low word the host path holds (R376, R19). Choices of the model it rests on: log entry 26. -/
def Obligations.AliasesAndSnapshot : Prop :=
  (∀ (s : State) (f a v : Nat) (set : Bool), f ≤ 16 → a < 64 → s.steady = true → (s.inst f).st ≠ .parked → v < 2 ^ 64 →
    let c : Instr := if set then .aliasSet f a 0 v else .aliasAdd f a 0 v
    let l := s.aliasLoc f a
    (s.aliasOk f a = true → s.power.closed.contains (pegDomain l) = false → s.heldTo hubSide (pegDomain l) = false →
      exec c s = .next ((s.pegOp f l (s.compat f) set v (pegId 4 f a)).pcieTouch f)) ∧
    (s.aliasOk f a = false → exec c s = .next (s.setFlag (R.ALIAS_STATUS_DROPPED f a) true))) ∧
  (∀ s : State, s.steady = true → (∀ l, s.selPeg = some l → s.isPeg l = false) →
    exec .pegSnapTake s = .next (((s.dropHeld 0).setWords 0xA0014 (List.replicate 15 0)).setFlag R.PEG_STATUS_DONE true))

/-- BUF_ALLOC of T0, T1 or T2 without ZERO whose descriptor breaks no row of R270, with an index to issue: where no place is found it completes with BUF_NO_SPACE, else the index is issued, the buffer table names the instance's new buffer of whole quota
units, every granule of a T0 or T1 buffer is tagged to the instance with its written-bit clear, and the handle and base go to host memory with status OK (R266 to R271). With ZERO the buffer is issued and the result waits for the zeroing (R271).
BUF_ALLOC_ZERO_DONE fills every page with zeros under the owner's key and writes the result (R271, R425).

The rows of R272 for BUF_FREE: a handle that is not allocated is rejected and counted; one of another instance is rejected with a BUF_NOT_OWNER record and the buffer stays; one in use
waits; any other is freed, its index goes to the end of the free list, its generation advances and the descriptor completes with OK. BUF_FREE_RESUME ends the wait once the use has ended (R273). Choices of the model it rests on: log entries 3, 13, 25. -/
def Obligations.Buffers : Prop :=
  (
  (∀ (s : State) (f w : Nat) (d : Desc) (k : Nat), f ≤ 16 → w < 16 → s.begin f w 0x03 = some d →
    let s0 := s.started d.uid
    let b := d.bytes
    let tier := u8At b 0x10
    let size := unitsFor tier (u64At b 0x18) * quotaUnit tier
    let g := (s0.buf k).gen
    let h := k * 256 + g
    let issued := fun (u : Nat) (pages : List Nat) =>
      (s0.takeIndex.setBuf k ⟨true, g, d.inst, tier, (if tier = 2 then 0 else u32At b 0x14), u * quotaUnit tier, size, pages⟩).skip
        (if tier = 2 then pages.length else 1)
    let noSpace := s0.complete d.uid St.bufNoSpace 0
    s0.allocStatus d.inst b = St.ok → s0.nextIndex = some k →
    (tier < 2 → exec (.bufAlloc f w) s = .next (match s0.place b with
      | some (u, ps) => ({ issued u ps with mem := (issued u ps).mem.tagRange tier d.inst (u32At b 0x14) (u * quotaUnit tier) size } : State).allocResult
          d h (u * quotaUnit tier)
      | none => noSpace)) ∧
    (tier = 2 → bit (u8At b 0x11) 0 = false → exec (.bufAlloc f w) s = .next (match s0.place b with
      | some (u, ps) => (issued u ps).allocResult d h 0
      | none => noSpace)) ∧
    (tier = 2 → bit (u8At b 0x11) 0 = true → exec (.bufAlloc f w) s = .next (match s0.place b with
      | some (u, ps) => { issued u ps with mem := { (issued u ps).mem with zeroing := (issued u ps).mem.zeroing ++ [(d.uid, k)] } }
      | none => noSpace))) ∧
  (∀ (s : State) (uid : Nat) (z : Nat × Nat) (d : Desc), s.hubUp = true → s.mem.zeroing.find? (fun z => z.1 == uid) = some z → s.desc? uid = some d →
    let b := s.buf z.2
    let m := b.pages.foldl (fun m p => m.zeroPage (s.key b.owner) p) s.mem
    exec (.bufAllocZeroDone uid) s = .next (({ s with mem := { m with zeroing := m.zeroing.filter (fun y => y.1 != uid) } } : State).allocResult d
      (z.2 * 256 + b.gen) 0))) ∧
  (
  (∀ (s : State) (f w : Nat) (d : Desc), f ≤ 16 → w < 16 → s.begin f w 0x04 = some d →
    let s0 := s.started d.uid
    let h := u32At d.bytes 0x10
    (s0.live h = none → exec (.bufFree f w) s =
      .next ((s0.bump (R.INST_STATUS_BUF_ERRORS_FREE_REJECTED d.inst) 1).complete d.uid St.bufNotAllocated 0)) ∧
    (∀ b, s0.live h = some b → b.owner ≠ d.inst → exec (.bufFree f w) s =
      .next ((s0.raise St.bufNotOwner instClass d.inst h b.owner).complete d.uid St.bufNotOwner 0)) ∧
    (∀ b, s0.live h = some b → b.owner = d.inst → s0.inUse h = true → exec (.bufFree f w) s =
      .next { s0 with mem := { s0.mem with freeWaits := s0.mem.freeWaits ++ [(d.uid, h)] } }) ∧
    (∀ b, s0.live h = some b → b.owner = d.inst → s0.inUse h = false → exec (.bufFree f w) s = .next ((s0.freeBuf (h / 256)).complete d.uid St.ok 0))) ∧
  (∀ (s : State) (k : Nat), (s.buf k).pages = [] →
    ((s.freeBuf k).buf k).live = false ∧ ((s.freeBuf k).buf k).gen = ((s.buf k).gen + 1) % 256 ∧ (s.freeBuf k).mem.freed = s.mem.freed ++ [k] ∧
    (∀ j, j ≠ k → (s.freeBuf k).buf j = s.buf j) ∧ (s.freeBuf k).regs = s.regs) ∧
  (∀ (s : State) (uid h : Nat) (b : Buf) (d : Desc), s.hubUp = true → s.mem.freeWaits.find? (fun w => w.1 == uid) = some (uid, h) → s.inUse h = false →
    s.live h = some b → s.desc? uid = some d →
    exec (.bufFreeResume uid) s = .next ((({ s with mem := { s.mem with freeWaits := s.mem.freeWaits.filter fun w => w.1 != uid } } : State).freeBuf
      (h / 256)).complete uid St.ok 0)))

/-- DMA_COPY whose two ranges are legal waits for its data, and one with an illegal range completes with DESC_RANGE (R395).

DMA_COPY_COMPLETE of a copy that no mirror takes gives the engine's turns, one piece of 64 KiB to each waiting copy in order, until the copy is moved or can go no further (R395): a copy stopped on the way has its completion record
due already, one that is moved completes with OK, its completion peg signalled before (R362, R394), and one that cannot go on waits. A copy of one piece whose turn it is and whose way is open copies its blocks from source to destination and ends with OK; a source block that is
poisoned stops it, with the blocks copied before as DETAIL (R604). Choices of the model it rests on: log entries 25, 45. -/
def Obligations.DmaCopies : Prop :=
  (∀ (s : State) (f w : Nat) (d : Desc), f ≤ 16 → w < 16 → s.begin f w 0x02 = some d →
    let s0 := s.started d.uid
    let j := dmaJob d
    let ok := s0.sideOk d.inst j.srcSpace j.srcUnit j.srcOff j.len && s0.sideOk d.inst j.dstSpace j.dstUnit j.dstOff j.len
    (ok = true → exec (.dmaCopy f w) s = .next { s0 with rings := { s0.rings with dma := s0.rings.dma ++ [j] } }) ∧
    (ok = false → exec (.dmaCopy f w) s = .next (s0.complete d.uid St.descRange 0))) ∧
  (∀ (s : State) (uid : Nat) (j : DmaJob) (d : Desc), s.hubUp = true → s.dmaSent uid = false → s.rings.dma.find? (fun j => j.desc == uid) = some j →
    s.desc? uid = some d → s.dmaMirror d.inst j = none →
    let u := s.dmaServe uid (s.dmaTurns j)
    let off := fun (t : State) => ({ t with rings := { t.rings with dma := t.rings.dma.filter fun k => k.desc != uid } } : State)
    (u.rings.dma.find? (fun k => k.desc == uid) = none → exec (.dmaCopyComplete uid) s = .next u) ∧
    (∀ k, u.rings.dma.find? (fun k => k.desc == uid) = some k → k.moved < k.len ∨ u.dmaPegPasses d.inst k = false ∨ u.hostAcked d.inst = false →
      exec (.dmaCopyComplete uid) s = .next u) ∧
    (∀ k, u.rings.dma.find? (fun k => k.desc == uid) = some k → k.len ≤ k.moved → u.hostAcked d.inst = true → k.pegAlias = none →
      exec (.dmaCopyComplete uid) s = .next ((off u).complete k.desc St.ok 0)) ∧
    (∀ k a, u.rings.dma.find? (fun k => k.desc == uid) = some k → k.len ≤ k.moved → u.hostAcked d.inst = true → k.pegAlias = some a →
      u.aliasOk d.inst a = true → u.power.closed.contains (pegDomain (u.aliasLoc d.inst a)) = false →
      u.heldTo hubSide (pegDomain (u.aliasLoc d.inst a)) = false →
      exec (.dmaCopyComplete uid) s = .next (((off u).pegOp d.inst (u.aliasLoc d.inst a) (u.compat d.inst) false k.pegValue (pegId 5 d.inst 256)).complete
        k.desc St.ok 0))) ∧
  (∀ (s : State) (j : DmaJob) (rest : List DmaJob) (d : Desc), s.hubUp = true → s.dmaSent j.desc = false → s.rings.dma = j :: rest → s.desc? j.desc = some d →
    s.dmaMirror d.inst j = none → j.moved = 0 → 0 < j.len → j.len ≤ 65536 → s.dmaFree j j.len = true →
    let r := s.dmaBlocks d.inst j 0 (j.len / 64)
    let t : State := { r.1 with rings := { r.1.rings with dma := s.rings.dma.filter fun k => k.desc != j.desc } }
    (r.2.2 = St.ok → j.pegAlias = none → r.1.hostAcked d.inst = true → exec (.dmaCopyComplete j.desc) s = .next (t.complete j.desc St.ok 0)) ∧
    (r.2.2 ≠ St.ok → exec (.dmaCopyComplete j.desc) s = .next (t.complete j.desc r.2.2 r.2.1)))

/-- SCRUB_BLOCK with the scrubber on and its next block due in the pass's time, the block not poisoned: a clean block only moves the position; a correctable error, found now or standing in the block, is counted and rewritten, its data staying; an uncorrectable one is counted, and its block is handled by R605 and R607. A poisoned block only moves the position. The position goes on by one block, and at
the end of a page to the next page (R279). PAGE_MOVE_COMPLETE of a page whose buffer is still live remaps the buffer's offsets to the new page and retires the old one (R607). Choices of the model it rests on: log entries 3, 13, 25, 47. -/
def Obligations.Scrubbing : Prop :=
  (∀ (s : State) (find : Nat), s.scrubOn = true → s.scrubDue = true →
    let p := s.rd R.HBM_SCRUB_STATUS_PAGE
    let n := p * 32768 + s.mem.scrubBlock
    let kind := max find (Tab.get (fun _ => 0) s.mem.t2Err n)
    let clean : State := { s with mem := { s.mem with t2Err := Tab.put (fun _ => 0) s.mem.t2Err n 0 } }
    (s.mem.t2Bad n = true ∨ (kind ≠ 1 ∧ kind ≠ 2) → exec (.scrubBlock find) s = .next s.scrubNext) ∧
    (s.mem.t2Bad n = false → kind = 1 → exec (.scrubBlock find) s = .next (clean.bump R.HBM_CE_COUNT_COUNT 1).scrubNext) ∧
    (s.mem.t2Bad n = false → kind = 2 → exec (.scrubBlock find) s = .next (clean.scrubUe p s.mem.scrubBlock).scrubNext)) ∧
  (∀ s : State, s.mem.scrubBlock + 1 < 32768 → s.scrubNext = { s with mem := { s.mem with scrubBlock := s.mem.scrubBlock + 1 } }) ∧
  (∀ s : State, s.mem.scrubBlock + 1 = 32768 → s.rd R.HBM_SCRUB_STATUS_PAGE + 1 < 24576 →
    s.scrubNext = ({ s with mem := { s.mem with scrubBlock := 0 } } : State).wr R.HBM_SCRUB_STATUS_PAGE (s.rd R.HBM_SCRUB_STATUS_PAGE + 1)) ∧
  (∀ (s : State) (p q k : Nat), p < 24576 → s.hubUp = true → s.errs.moves.find? (fun m => m.1 == p) = some (p, q, k) → (s.buf k).live = true →
    (s.buf k).pages.contains p = true →
    let b := s.buf k
    let s1 : State := { s with errs := { s.errs with moves := s.errs.moves.filter fun m => m.1 != p } }
    exec (.pageMoveComplete p) s = .next ((({ s1 with mem := s1.mem.movePage (s1.key b.owner) p q } : State).setBuf k
      { b with pages := b.pages.map fun x => if x == p then q else x }).retirePage p b.owner (k * 256 + b.gen)))

/-- A write of T0 or T1 by an instance into granules that are tagged to it: each byte of the range then reads as written, and every byte outside the range reads, for every reader, as
it read before (R263, R275).

A write of T0 or T1 by an instance into granules that are tagged to another changes nothing but that instance's count of tag violations, and ends with STEP_BOUNDS (R263). Choices of the model it rests on: log entry 11. -/
def Obligations.SramContents : Prop :=
  (
  ∀ (m : Mem) (tier i u a : Nat) (bs : List Nat), tier ≤ 1 → (∀ b ∈ bs, b < 256) →
    (∀ g ∈ unitsOf 64 (sramKey tier u a) bs.length, (m.granule tier g).tag = i) →
    let n := (m.sramWrite tier i u a bs).1
    (∀ k, k < bs.length → n.sramByte tier i (sramKey tier u a + k) = bs.getD k 0) ∧
    (∀ j x, x < sramKey tier u a ∨ sramKey tier u a + bs.length ≤ x → n.sramByte tier j x = m.sramByte tier j x) ∧
    (∀ j x, n.sramByte (1 - tier) j x = m.sramByte (1 - tier) j x) ∧ n.t2 = m.t2 ∧ n.host = m.host) ∧
  (
  ∀ (s : State) (tier i u a : Nat) (bs : List Nat), tier ≤ 1 → bs ≠ [] →
    (∀ g ∈ unitsOf 64 (sramKey tier u a) bs.length, (s.mem.granule tier g).tag ≠ i) →
    (s.sramWrite tier i u a bs).1 = s.bump (R.INST_STATUS_BUF_ERRORS_TAG_VIOLATION i) 1 ∧
    (s.sramWrite tier i u a bs).2.status = St.stepBounds)

/-- A write of T2 under a key pair: each byte written reads back under that pair as written, every other byte of a block last written under that pair reads under it as before, and a
block that the range does not meet reads as before under every pair (R276, R277, R424). Choices of the model it rests on: log entry 6. -/
def Obligations.T2ReadAfterWrite : Prop :=
  ∀ (m : Mem) (key a : Nat) (bs : List Nat), key ≠ 0 → (∀ b ∈ bs, b < 256) →
    let n := m.t2Write key a bs
    (∀ k, k < bs.length → n.t2Byte key (a + k) = bs.getD k 0) ∧
    (∀ x, x < a ∨ a + bs.length ≤ x → n.t2Byte key x = m.t2Byte key x) ∧
    (∀ j x, x / 16 ∉ unitsOf 16 a bs.length → n.t2Byte j x = m.t2Byte j x) ∧
    n.t0 = m.t0 ∧ n.t1 = m.t1 ∧ n.host = m.host

/-- PROGRAM_DECKS and RINSE whose buffers, list and entries are good become a job with all their targets waiting; one whose list fails ends with that status, and no target starts (R160 to R162, R164). PROGRAM_TARGET_START of a target whose turn it is grants its slot:
one that passes CHECK waits for its CLAIM with its section's header kept (R152, R661), and one that fails ends with its status. Choices of the model it rests on: log entries 3, 22. -/
def Obligations.ProgramAccepted : Prop :=
  (∀ (s : State) (f w : Nat) (d : Desc) (rinse : Bool), f ≤ 16 → w < 16 → s.begin f w (if rinse then 0x06 else 0x05) = some d →
    let c : Instr := if rinse then .rinse f w else .programDecks f w
    (∀ (s1 : State) (j : ProgJob), (s.started d.uid).readTargets d = (s1, .inr j) →
      exec c s = .next { s1 with arr := { s1.arr with jobs := s1.arr.jobs ++ [j] } }) ∧
    (∀ (s1 : State) (x : Nat × Nat), (s.started d.uid).readTargets d = (s1, .inl x) → exec c s = .next (s1.complete d.uid x.1 x.2))) ∧
  (∀ (s : State) (uid pos : Nat) (j : ProgJob) (t : Target), s.target? uid pos = some (j, t) → s.mayStart 0 = true → s.startable j pos t = true →
    s.turn = some j.inst →
    let r := ({ s with arr := { s.arr with grant := j.inst + 1 } } : State).checkTarget j pos t
    (r.2.1 = St.ok → exec (.programTargetStart uid pos) s = .next (r.1.modTarget uid pos fun t => { t with
      stage := 1, head := r.2.2.take 0x440, want := u32At r.2.2 0x3C }).busyNow) ∧
    (r.2.1 ≠ St.ok → exec (.programTargetStart uid pos) s = .next ((r.1.endTarget uid pos r.2.1).gapEvent t.engine)))

/-- CLAIM, once the evaluations and other darns of its engine have ended: darns of the deck stop with their spares pending, the deck's PBO is clear and its wear counted, in the flash mirror too, an open window of the deck is discarded, and under
PROGRAM_DECKS it takes the section's codebook, zero codes and PAIR; programming begins at row 0 (R143, R166, R172, R202). A target whose engine was removed or lent, or whose deck was retired, since its CHECK ends with that row's status instead (R165, R174). COMMIT of a RINSE target: the deck has no codebook, no source, TRIM 0x8000, and the target ends with OK (R166, R169, R179). Choices of the model it rests on: log entries 3, 22. -/
def Obligations.ClaimAndCommit : Prop :=
  (∀ (s : State) (uid pos : Nat) (j : ProgJob) (t : Target), s.target? uid pos = some (j, t) → s.mayStart 0 = true → t.stage = 1 → s.engineFree t.engine = true →
    s.gapBusy t.engine = false → (s.arr.darns.any fun x => x.engine == t.engine && x.deck != t.deck) = false →
    (t.guard = true → s.restoreEngine = []) → s.claimRefusal j t = St.ok →
    let s2 := (s.stopDarns fun x => x.engine == t.engine && x.deck == t.deck).dropChecks fun c => c.engine == t.engine && c.deck == t.deck
    let s3 := ((s2.cfgTouched t.engine (0x8E00 + 16 * t.deck)).modDeck t.engine t.deck fun d => d.claim j.kind t.guard t.head).mirrorDeck t.engine t.deck
    exec (.claim uid pos) s = .next (s3.modTarget uid pos fun t => { t with
      stage := 2, row := 0, pass := 0, burst := 0, open_ := (s3.deck t.engine t.deck).progCols j.kind }).busyNow) ∧
  (∀ (s : State) (uid pos : Nat) (j : ProgJob) (t : Target), s.target? uid pos = some (j, t) → s.mayStart 0 = true → t.stage = 1 → s.engineFree t.engine = true →
    s.gapBusy t.engine = false → (s.arr.darns.any fun x => x.engine == t.engine && x.deck != t.deck) = false →
    (t.guard = true → s.restoreEngine = []) → s.claimRefusal j t ≠ St.ok →
    exec (.claim uid pos) s = .next ((s.endTarget uid pos (s.claimRefusal j t)).gapEvent t.engine)) ∧
  (∀ (d : Deck) (kind : Nat) (guard : Bool) (head : List Nat), d.wear < 2 ^ 32 - 1 →
    (d.claim kind guard head).pbo = false ∧ (d.claim kind guard head).wear = d.wear + 1 ∧ (d.claim kind guard head).cells = d.cells ∧
    (kind = 5 → (d.claim kind guard head).codebook = secBook head ∧ (d.claim kind guard head).zero = secZero head ∧
      (d.claim kind guard head).pair = secPair head) ∧
    (kind ≠ 5 → (d.claim kind guard head).codebook = d.codebook ∧ (d.claim kind guard head).pair = d.pair)) ∧
  (∀ (s : State) (uid pos : Nat) (j : ProgJob) (t : Target), s.target? uid pos = some (j, t) → s.running = true → t.stage = 3 → s.engineFree t.engine = true →
    s.checkToken t.engine = true → (s.arr.darns.any fun x => x.target == some (uid, pos)) = false → j.kind = 6 → t.guard = false →
    exec (.commit uid pos) s = .next ((((((s.rinseCal t.engine t.deck).modDeck t.engine t.deck fun d => d.commit j t false s.now).mirrorDeck t.engine
      t.deck).endTarget uid pos St.ok).gapEvent t.engine)))

/-- ROW_PASS of a RINSE target: the open cells whose two readings have a mean within 300 nS of the target are verified and placed there, the others keep what they held and stay open, and the row ends when none is left or after its twelfth pass (R147, R149, R166).

VPROG_FAULT ends every target in progress, and a RESTORE_DECKS that is programming, with VPROG_FAULT, and V_PROG is out of range; VPROG_IN_RANGE says that it is in range again (R151). PROGRAM_FETCH_TIMEOUT ends a PROGRAM_DECKS target whose
image lies in host memory with PROGRAM_FETCH_FAIL, and with a position past the list the descriptor when no target has started (R164). Choices of the model it rests on: log entries 3, 22. -/
def Obligations.PassesAndFailures : Prop :=
  (
  (∀ (s : State) (uid pos : Nat) (j : ProgJob) (t : Target) (reads : List (Nat × Nat × Nat)), s.target? uid pos = some (j, t) → s.mayPass t = true → j.kind = 6 →
    let u := (s.modTarget uid pos fun _ => t).pulse j uid pos t reads
    (∀ v, u.target? uid pos = some v → v.2.row ≠ 512 → exec (.rowPass uid pos reads) s = .next u) ∧
    (∀ v, u.target? uid pos = some v → v.2.row = 512 → exec (.rowPass uid pos reads) s = .next ((u.endPasses uid pos).gapEvent t.engine))) ∧
  (∀ (s : State) (j : ProgJob) (uid pos : Nat) (t : Target) (reads : List (Nat × Nat × Nat)),
    let u := s.pulse j uid pos t reads
    u.deck t.engine t.deck = (s.deck t.engine t.deck).place (deckKey t.engine t.deck) (s.ageOf t.engine) s.free t.row
      ((t.open_.filter fun c => verified reads c (t.aim j.kind (s.deck t.engine t.deck) c)).map fun c =>
        (c, t.aim j.kind (s.deck t.engine t.deck) c)) ∧
    (∀ e k, deckKey e k ≠ deckKey t.engine t.deck → u.deck e k = s.deck e k) ∧ u.mem = s.mem ∧ u.regs = s.regs)) ∧
  (
  (∀ s : State, s.hubUp = true →
    let t := s.inProgress.foldl (fun a p => a.breakTarget p.1 p.2 St.vprogFault) ({ s with arr := { s.arr with vprogOk := false } } : State)
    exec .vprogFault s = .next (if s.restoreEngine = [] then t else t.laneCmdEnd St.vprogFault)) ∧
  (∀ s : State, s.hubUp = true → s.arr.jobs = [] → s.restoreEngine = [] → exec .vprogFault s = .next { s with arr := { s.arr with vprogOk := false } }) ∧
  (∀ s : State, exec .vprogInRange s = .next { s with arr := { s.arr with vprogOk := true } }) ∧
  (∀ (s : State) (uid pos : Nat) (j : ProgJob) (t : Target), s.hubUp = true → s.job? uid = some j → j.targets[pos]? = some t → j.kind = 5 → bit j.flags 0 = true →
    1 ≤ t.stage → t.stage ≤ 3 → exec (.programFetchTimeout uid pos) s = .next (s.breakTarget uid pos St.programFetchFail)) ∧
  (∀ (s : State) (uid pos : Nat) (j : ProgJob), s.hubUp = true → s.job? uid = some j → j.targets.length ≤ pos → bit j.flags 1 = true →
    (j.targets.all fun t => t.stage == 0) = true →
    exec (.programFetchTimeout uid pos) s = .next ((s.dropJob uid).complete uid St.programFetchFail 0xFFFFFFFF)))

/-- SELF_TEST and CALIBRATE whose lists are good become jobs, targets that no test may run on ending at once and the others starting in gaps (R195, R198 to R200); TEST_DEADLINE ends a target that has not
started by its deadline with TEST_DEFERRED, counted for its engine (R199).

LEND and RECLAIM of a core that the instance does not hold complete with ENGINE_NOT_OWNED, and with no engine left to change with OK; else the engines named change hands in their gaps, at once where a gap is open (R201).
LEND_EXPIRY ends a loan whose LEND_MS has run out (R201). Choices of the model it rests on: log entries 3, 23. -/
def Obligations.TestsAndLoans : Prop :=
  (
  (∀ (s : State) (f w : Nat) (d : Desc) (cal : Bool) (s1 : State) (j : ProgJob), f ≤ 16 → w < 16 → s.begin f w (if cal then 0x0C else 0x0B) = some d →
    (s.started d.uid).readTargets d = (s1, .inr j) →
    exec (if cal then .calibrate f w else .selfTest f w) s = .next (({ s1 with arr := { s1.arr with jobs := s1.arr.jobs ++ [j] } } : State).sortTargets d.uid)) ∧
  (∀ (s : State) (uid pos : Nat) (j : ProgJob) (t : Target), s.hubUp = true → s.target? uid pos = some (j, t) → j.programs = false → t.stage = 0 →
    j.deadline ≤ s.now → exec (.testDeadline uid pos) s = .next ((s.health t.engine 8 1).endTarget uid pos St.testDeferred))) ∧
  (
  (∀ (s : State) (f w : Nat) (d : Desc) (lend : Bool), f ≤ 16 → w < 16 → s.begin f w (if lend then 0x0D else 0x0E) = some d →
    let s0 := s.started d.uid
    let core := u32At d.bytes 0x10
    let mask := s0.lendLeft lend core (u16At d.bytes 0x14)
    let c : Instr := if lend then .lend f w else .reclaim f w
    ((s0.inst d.inst).cores.contains core = false → exec c s = .next (s0.complete d.uid St.engineNotOwned 0)) ∧
    ((s0.inst d.inst).cores.contains core = true → mask = 0 → exec c s = .next (s0.complete d.uid St.ok 0)) ∧
    ((s0.inst d.inst).cores.contains core = true → mask ≠ 0 → exec c s = .next ((upTo 16 fun n => bit mask n).foldl (fun a n => a.gapTry (core * 16 + n))
      { s0 with arr := { s0.arr with lends := s0.arr.lends ++ [⟨d.uid, d.inst, lend, core, mask, if lend then u32At d.bytes 0x18 else 0⟩] } }))) ∧
  (∀ (s : State) (e : Nat), e < 98304 → s.hubUp = true → (s.engine e).lent = true → (s.engine e).lendEnd ≠ 0 → (s.engine e).lendEnd ≤ s.now →
    (s.engine e).testing = false →
    exec (.lendExpiry e) s = .next ((s.modEngine e fun g => { g with lent := false, lendEnd := 0 }).gapEvent e)))

/-- BACKGROUND_VISIT of an engine with a deck due takes the deck's next vector and starts its check evaluation when a gap and a token are there, 96 µs have passed since the last one and the deck's image is resident; else only the periods missed are counted (R180, R185, R186). CHECK_EVALUATION_DONE of a check
that no column fails ends it, and one that fails waits 1 ms for its retry (R178, R187); the check is counted, and what waits at the engine's aperture is served (R145). CHECK_RETRY, in a gap that began once the 1 ms had passed, repeats it, and what fails both times is acted on; of a deck retired since it only ends (R187, R195).

DARN_COMPLETE of an engine's first darn, with a programming slot, V_PROG in range and the engine free: with every cell placed the spare serves the column, it is counted and reported, and the column's calibration is due; with a cell not placed
the spare has failed and another is tried (R189, R190). COLUMN_CALIBRATION in a gap, with the tokens it needs, runs the calibration of the first deck that is due (R192, R193). REFERENCE_RECALIBRATION, 1 ms after the last, draws a new trim, in force at once on a free engine and otherwise
after the evaluation that runs (R93). Choices of the model it rests on: log entries 3, 5, 23, 24. -/
def Obligations.ChecksAndDarns : Prop :=
  (
  (∀ (s : State) (e k : Nat), e < 98304 → s.running = true → s.flag (R.DIE_CHECK_CTRL_ENABLE (dieOfEngine e)) = true → s.dueDeck e = some k →
    let s1 := s.carryVisits e k
    let r := s1.vectors e k
    let d := r.1.deck e k
    let s2 := r.1.setDeck e k { d with lastVisit := d.lastVisit + s.checkPeriod e, nextVec := (d.nextVec + 1) % 4 }
    let v := if r.2.length = 1 then 0 else d.nextVec
    (s1.mayVisit e = false → exec (.backgroundVisit e) s = .next s1) ∧
    (s1.mayVisit e = true → r.2[v]? = none → exec (.backgroundVisit e) s = .next s2) ∧
    (∀ x, s1.mayVisit e = true → r.2[v]? = some x → exec (.backgroundVisit e) s = .next (s2.startCheck e k v x))) ∧
  (∀ (s : State) (e : Nat) (c : Check) (x : Vec), e < 98304 → s.running = true → s.arr.checks.find? (fun c => c.engine == e && c.running) = some c →
    c.data = some x →
    let u := ({ s with arr := { s.arr with checks := s.arr.checks.filter fun x => !(x.engine == e && x.running) } } : State).checkConvert e c.deck x c.oor
      false false
    let t := (u.1.modEngine e fun g => { g with lastCheck := u.1.now }).health e 0 1
    let failed := (u.1.failing e c.deck x u.2).map Prod.fst
    exec (.checkEvaluationDone e) s = .next ((if failed = [] then t.gapEvent e else
      ({ t with arr := { t.arr with checks := t.arr.checks ++ [⟨e, c.deck, c.vec, some failed, t.now + 1000000, false, none, false, none⟩] } } : State).gapEvent
        e).aperIn e)) ∧
  (∀ (s : State) (e : Nat) (c : Check), e < 98304 → s.running = true → s.retryFor e = some c → (s.deck e c.deck).retired = false →
    s.checkReady e = true → c.target = none →
    let r := ({ s with arr := { s.arr with checks := s.arr.checks.erase c } } : State).runVector e c.deck c.vec
    exec (.checkRetry e) s = .next ((match r.2 with
      | some f => r.1.judgeRetry e c.deck (c.first.getD []) f none
      | none => r.1).gapEvent e)) ∧
  (∀ (s : State) (e : Nat) (c : Check), e < 98304 → s.running = true → s.retryFor e = some c → (s.deck e c.deck).retired = true →
    exec (.checkRetry e) s = .next (s.dropRetired e))) ∧
  (
  (∀ (s : State) (e : Nat) (x : Darn), e < 98368 → s.running = true → s.arr.darns.find? (fun x => x.engine == e) = some x → s.arr.vprogOk = true →
    s.darnRuns x = true → s.engineFree e = true →
    let s1 := ({ s with arr := { s.arr with darns := s.arr.darns.erase x } } : State).modEngine e fun g => { g with lastDeck := some x.deck }
    exec (.darnComplete e true) s = .next (s1.darned x) ∧ exec (.darnComplete e false) s = .next (s1.redarn x)) ∧
  (∀ (s : State) (e k : Nat), e < 98304 → s.running = true → s.runningTest e = none → s.calNext e = some k → s.mayStart 0 = true →
    s.gapFree e = true → s.checkToken e = true →
    exec (.columnCalibration e) s = .next ((s.dueCal e k).gapEvent e)) ∧
  (∀ (s : State) (e : Nat), e < 98368 → s.running = true → (s.rosc e).at_ + 1000000 ≤ s.now →
    exec (.referenceRecalibration e) s = .next { s.setRosc e (if s.engineFree e = true then ⟨s.now, s.drawn, none⟩ else
      ⟨s.now, (s.rosc e).trim, some s.drawn⟩) with free := s.free + 1 }))

/-- PACKET_AT_HEM of a transfer whose packet meets the closed hem of a compute die: the packet is returned and DIE.HEM_STATUS.RETURNED counts it (R308). DOMAIN_DOWN fails the transfer: the operation ends and the step fails with DOMAIN_DOWN, a MOVE's
bytes that had passed before the hem closed having landed in part (R309, R345). SKEW_MONITOR_TRIP holds a crossing that was not held, counts it on a compute die and, for the first trip in 10 ms, raises VOLT_SKEW; one that is held already stays so. SKEW_MONITOR_RELEASE lets the crossing pass tokens again, with what waited at it (R305); the crossings
of the guard configuration port and the serdes interface are held and released in the same way (R302). SENSOR_SAMPLE takes its readings and what follows from them (R655). Choices of the model it rests on: log entries 3, 27, 48, 50. -/
def Obligations.FabricEvents : Prop :=
  (∀ (s : State) (d uid st op : Nat) (x : Transit), d < 8 → s.hubUp = true → s.transit uid st op = some x → s.meetsHem x d = true →
    exec (.packetAtHem d uid st op) s = .next (s.bump (R.DIE_HEM_STATUS_RETURNED d) 1)) ∧
  (∀ (s : State) (uid st op d : Nat) (t : Step) (m : Stream) (o : Op), s.hubUp = true → s.transit uid st op = some (.oper t m o) →
    d ∈ t.opDomains o → s.meetsHem (.oper t m o) d = true →
    let s1 := if s.landed (t.uid, st, op) = true then s.moveStopped t o else s
    exec (.domainDown uid st op) s = .next ((s1.failStep t.uid St.domainDown m.clusterNo 0 o.step).opDone t.uid st op)) ∧
  (∀ (s : State) (d x : Nat), crossingOk d x = true → s.monitored = true → s.power.held.contains (d * 4 + x) = false →
    let last := Tab.get (fun _ => 0) s.power.skewLast (d * 4 + x)
    let counted := if d < 8 then (s.bump (R.DIE_XING_TRIP_COUNT d) 1).wr (R.DIE_XING_TRIP_HELD d) (putBit (s.rd (R.DIE_XING_TRIP_HELD d)) x true) else s
    (last = 0 ∨ last + 10000000 ≤ s.now + 1 →
      ∃ u : State, exec (.skewMonitorTrip d x) s = .next (u.raise Rc.voltSkew deviceClass noOwner d x) ∧ u.power.held = s.power.held ++ [d * 4 + x] ∧
        u.regs = counted.regs ∧ u.mem = s.mem ∧ u.errs = s.errs ∧ u.arr = s.arr ∧ u.steps = s.steps) ∧
    (last ≠ 0 → s.now + 1 < last + 10000000 → ∃ u : State, exec (.skewMonitorTrip d x) s = .next u ∧ u.power = { s.power with held := s.power.held ++ [d * 4 + x] } ∧
      u.regs = counted.regs ∧ u.mem = s.mem ∧ u.errs = s.errs ∧ u.arr = s.arr ∧ u.steps = s.steps)) ∧
  (∀ (s : State) (d x : Nat), crossingOk d x = true → s.power.held.contains (d * 4 + x) = true → s.monitored = true → exec (.skewMonitorTrip d x) s = .next s) ∧
  (∀ (s : State) (d x : Nat), crossingOk d x = true →
    let s1 : State := { s with power := { s.power with held := s.power.held.filter fun k => k != d * 4 + x } }
    (d < 8 → exec (.skewMonitorRelease d x) s = .next (s1.wr (R.DIE_XING_TRIP_HELD d)
      (putBit (s.rd (R.DIE_XING_TRIP_HELD d)) x false)).flushPosted.portOpen) ∧
    (d = 8 → exec (.skewMonitorRelease d x) s = .next ((List.range 4).foldl State.pumpPort s1).flushPosted.portOpen)) ∧
  (∀ (s : State) (temps : List (Nat × Nat × Nat)), s.hubUp = true →
    exec (.sensorSample temps) s = .next ((List.range 10).foldl State.seeDomain (temps.foldl State.takeReading s)).seeHot.seeSpreads) ∧
  (∀ (s : State) (d i t : Nat), d < 8 → i < 40 → s.power.st = .run → t < 1000 →
    (s.takeReading (d, i, t)).sensor d i = (t : Int) - 256 ∧ (s.takeReading (d, i, t)).mem = s.mem)

/-- INST_SEL_WRITE selects the instance and stages its settings (R415). CREATE of an absent workload instance whose VF is enabled and whose staged hamper passes R416, with a key pair drawn: it enters READY with its generation advanced and its own key, takes the hamper,
and RESULT is OK (R416, R417, R421); one that exists ends with INST_EXISTS. APPLY of a READY instance takes the staged hamper (R418). RESET and DESTROY of a READY workload instance begin its reset (R420, R427, R432); of instance 0 they end with INST_ARG_INVALID. While a command runs GO is ignored (R415). Each of these writes discards a low word the host path holds (R19). Choices of the model it rests on: log entry 28. -/
def Obligations.InstanceCommands : Prop :=
  (∀ (s : State) (v : Nat), s.hubUp = true → exec (.instSelWrite v) s = .next ((((s.dropHeld 0).wr R.INST_SEL_INSTANCE (fld v 4 0)).stage (fld v 4 0)).pcieTouch 0)) ∧
  (∀ (s : State) (keyOk : Bool), s.steady = true → s.flag R.INST_RESULT_BUSY = true →
    exec (.create keyOk) s = .next (s.dropHeld 0) ∧ exec .apply s = .next (s.dropHeld 0) ∧ exec (.reset keyOk) s = .next (s.dropHeld 0) ∧
    exec (.destroy keyOk) s = .next (s.dropHeld 0)) ∧
  (∀ (s : State) (keyOk : Bool), s.hubUp = true → s.flag R.INST_RESULT_BUSY = false → s.fwUp = true →
    let i := s.rd R.INST_SEL_INSTANCE
    let s0 := (s.dropHeld 0).setFlag R.INST_RESULT_BUSY true
    let s1 : State := { s0 with rings := { s0.rings with instBusy := some i } }
    (1 ≤ i → i ≤ 16 → (s.inst i).st = .none → i ≤ s.rings.numVfs → s1.hamperStatus i s1.staged false = St.ok → s.mem.keyFail = false → s.mem.nextKey ≠ 0 →
      exec (.create true) s = .next ((((({ s1 with mem := { s1.mem with nextKey := s1.mem.nextKey + 1 } } : State).setInst i
        { Inst.init with st := .ready, gen := ((s.inst i).gen + 1) % 65536, key := s.mem.nextKey }).applyHamper i s1.staged).resetStatus i).instEnd
        St.ok |>.pcieTouch 0)) ∧
    (i ≤ 16 → (s.inst i).st ≠ .none → exec (.create keyOk) s = .next ((s1.instEnd St.instExists).pcieTouch 0)) ∧
    (i ≤ 16 → (s.inst i).st = .ready → s1.hamperStatus i s1.staged false = St.ok →
      exec .apply s = .next (((s1.applyHamper i s1.staged).instEnd St.ok).pcieTouch 0)) ∧
    (1 ≤ i → i ≤ 16 → (s.inst i).st = .ready →
      exec (.reset keyOk) s = .next (((s1.bump (R.BOOT_RESET_COUNT_COUNT 3) 1).askReset i none true false false keyOk).pcieTouch 0) ∧
      exec (.destroy keyOk) s = .next ((s1.askReset i none true false true keyOk).pcieTouch 0)) ∧
    (i = 0 → exec (.reset keyOk) s = .next ((s1.instEnd St.instArgInvalid).pcieTouch 0) ∧
      exec (.destroy keyOk) s = .next ((s1.instEnd St.instArgInvalid).pcieTouch 0)))

/-- INST_RESET of a READY instance counts and begins its reset, the descriptor waiting for its end, and one of an absent instance completes with INST_NOT_FOUND (R400, R412, R432). INFLIGHT_ZERO with nothing of the old generation
on its way ends the reset (R427); INST_RESET_TIMEOUT after 50 µs with packets in flight makes the instance FAILED, raises its record and answers what waits (R430). VF_ENABLE enables VFs and lets their PARKED instances
enter READY, VF_ENABLE_CLEAR destroys the instances above (R414); VF_FLR of an enabled VF without an instance writes the records of completed descriptors and resets its page (R410, R428, R615); PF_FLR counts, destroys every workload instance, a PARKED one too, drops the work of instance 0 and resets its page (R410, R414, R616). KEY_HEALTH_TEST_FAIL: from now on no key is
generated, with one record to the global log (R423). Choices of the model it rests on: log entries 3, 28. -/
def Obligations.InstanceEvents : Prop :=
  (∀ (s : State) (f w : Nat) (d : Desc), f ≤ 16 → w < 16 → s.begin f w 0x10 = some d →
    let s0 := s.started d.uid
    let i := u8At d.bytes 0x10
    ((s0.inst i).st = .ready → exec (.instReset f w) s =
      .next ((s0.bump (R.BOOT_RESET_COUNT_COUNT 3) 1).askReset i (some d.uid) false false false true)) ∧
    ((s0.inst i).st = .none → exec (.instReset f w) s = .next (s0.complete d.uid St.instNotFound 0))) ∧
  (∀ (s : State) (i : Nat), 1 ≤ i → i ≤ 16 → s.hubUp = true → (s.inst i).st = .resetting →
    (s.drained i = true → exec (.inflightZero i) s = .next (s.resetEnd i)) ∧
    (s.drained i = false → (s.inst i).resetAt + 50000 ≤ s.now →
      exec (.instResetTimeout i) s = .next (((((s.modInst i fun x => { x with st := .failed, late := true, destroying := x.destroying && !x.byCommand }).skip
        1).raiseTo St.instResetTimeout deviceClass noOwner i (1 + s.drawn) true [(0, false)]).resetAnswer i St.instResetTimeout)))) ∧
  (∀ (s : State) (n : Nat), n ≤ 16 → s.steady = true → s.rings.numVfs ≤ n →
    ∃ t, exec (.vfEnable n) s = .next t ∧ t.rings = { s.rings with numVfs := n } ∧ t.regs = s.regs ∧ t.mem = s.mem ∧
      (∀ i, (s.inst i).st = .parked → i ≤ n → (t.inst i).st = .ready) ∧ (∀ i, n < i → t.inst i = s.inst i)) ∧
  (∀ (s : State) (n : Nat) (keyOk : Bool), s.hubUp = true → n < s.rings.numVfs →
    exec (.vfEnableClear n keyOk) s = .next ((((List.range 17).filter fun i => decide (n < i)).foldl (fun (a : State) i => a.destroyVf i keyOk)
      { s with rings := { s.rings with numVfs := n } }).pcieTouch 0)) ∧
  (∀ (s : State) (i : Nat) (keyOk : Bool), 1 ≤ i → i ≤ 16 → s.steady = true → i ≤ s.rings.numVfs →
    ((s.inst i).st = .none → exec (.vfFlr i keyOk) s = .next ((((s.bump (R.BOOT_RESET_COUNT_COUNT 2) 1).writeOut i).resetPage i).pcieTouch i)) ∧
    ((s.inst i).st = .ready → exec (.vfFlr i keyOk) s =
      .next (((s.bump (R.BOOT_RESET_COUNT_COUNT 2) 1).askReset i none false true false keyOk).pcieTouch i))) ∧
  (∀ (s : State) (keyOk : Bool), s.hubUp = true →
    let s0 := s.bump (R.BOOT_RESET_COUNT_COUNT 1) 1
    let v := ((List.range 17).filter fun i => decide (0 < i)).foldl (fun (a : State) i => a.destroyVf i keyOk) { s0 with rings := { s0.rings with numVfs := 0 } }
    let s1 := (((v.dropWork 0).dropSteps 0).dropJobs 0).dropPegs 0
    let s2 := (s1.dropFrames 0).modInst 0 fun x => { x with gen := (x.gen + 1) % 65536 }
    exec (.pfFlr keyOk) s = .next (((({ s2 with flash := { s2.flash with resetAfter := s2.flash.resetAfter || s2.flash.op.isSome } } : State).writeOut
      0).resetPage 0).pcieTouch 0)) ∧
  (∀ s : State, s.mem.keyFail = false →
    exec .keyHealthTestFail s = .next (({ s with mem := { s.mem with keyFail := true } } : State).raiseTo Rc.keyFail deviceClass noOwner 0 0 true []))

/-- SPDM over DOE: each request is answered with its response code of SPDM 1.2; GET_VERSION names 1.2 alone, only slot 0 holds a certificate chain, and a request of any other code is answered with ERROR UnsupportedRequest
(R434, R435; the codes are PRESUMED of DMTF SPDM 1.2, and digests and signatures are uninterpreted functions, log entry 8). Nothing but the answer changes, and for a signature the random value drawn. -/
def Obligations.SpdmAnswers : Prop :=
  ∀ (s : State), s.steady = true →
    let ans := fun (u : State) (l : List Nat) => ({ u with board := { u.board with spdm := l } } : State)
    exec .getVersion s = .next (ans s [0x04, 0x12]) ∧ exec .getCapabilities s = .next (ans s [0x61, 22]) ∧
    exec .negotiateAlgorithms s = .next (ans s [0x63, 0x80, 0x02]) ∧ exec .getDigests s = .next (ans s [0x01, 1, s.certificate]) ∧
    (∀ slot off len, slot ≠ 0 → exec (.getCertificate slot off len) s = .next (ans s [0x7F, 0x07, 0x82])) ∧
    (∀ off len, exec (.getCertificate 0 off len) s = .next (ans s [0x02, 0, off, len, Config.digest 2 ([off, len] ++ s.factory)])) ∧
    (∀ slot nonce, slot ≠ 0 → exec (.challenge slot nonce) s = .next (ans s [0x7F, 0x07, 0x83])) ∧
    (∀ nonce, exec (.challenge 0 nonce) s = .next (ans (s.skip 1) [0x03, 0, s.certificate, s.signature [nonce, s.certificate]])) ∧
    (∀ nonce, exec (.getMeasurements 0 false nonce) s = .next (ans s [0x60, 0, 5])) ∧
    (∀ index nonce, 1 ≤ index → index ≤ 5 → exec (.getMeasurements index false nonce) s = .next (ans s [0x60, index, s.measure index])) ∧
    (∀ index sign nonce, 5 < index → index ≠ 0xFF → exec (.getMeasurements index sign nonce) s = .next (ans s [0x7F, 0x07, 0xE0])) ∧
    (∀ code, exec (.spdmUnsupportedRequest code) s = .next (ans s [0x7F, 0x07, code]))

/-- The OR stage (R458, R460): in every state but OFF and outside a board test, once each lane's trip is that of its verdict word, output `j` floats while ARM is 0 and is otherwise low exactly when its stop condition holds and high when not;
a stop whose LATCH bit is set is latched, and a latched bit stays. In OFF every output floats (R466). Choices of the model it rests on: log entry 30. -/
def Obligations.OrStage : Prop :=
  (∀ s : State, s.power.st ≠ .off → s.board.extest = false →
    (∀ l, l < 16 → (s.lane l).tripped = ((s.lane l).present && s.wordTrips l (s.rd (R.GUARD_VERDICT_WORD l)))) →
    ∀ j, j < 8 →
      s.orStage.guard.out.getD j 3 = (if s.flag R.GUARD_CTRL_ARM = false then 2 else if s.stopOf j then 0 else 1) ∧
      bit (s.orStage.rd R.GUARD_LATCHED_LATCHED) j = (bit (s.rd R.GUARD_LATCHED_LATCHED) j || (s.stopOf j && bit (s.rd R.GUARD_OUT_CFG_LATCH) j))) ∧
  (∀ s : State, s.power.st = .off → s.orStage.guard.out = List.replicate 8 2)

/-- FRAME_BOUNDARY with the guard domain up, one frame period after the last, runs the boundary of R441; with no lane enabled or stopping it counts the frame, stamps its time, marks every lane in the trip mask, re-evaluates the OR stage, ends the slack of the frame and empties the streams' queues (R441, R464).
A lane that stops shows the verdict word FF12 (R457). GUARD_OSC_TRIM, 1 ms after the last: TIMEBASE tells whether the trim had no reference (R440). FSP_PACKET on a port whose receiver holds no bits of an earlier one: a packet cut short is kept until its rest comes, one
whose CRC fails or whose reserved bits are set is counted and discarded whole, and a good one, where its samples fit the queue, appends them to its stream in order and keeps its sequence number (R445 to R447); bits without a SYNC at any position leave only the port's clock seen,
and their last 15 are kept (R446). FSP_CLOCK_LOSS clears CLK (R446). Choices of the model it rests on: log entries 3, 29. -/
def Obligations.GuardFrames : Prop :=
  (∀ (s : State) (late : List Nat), s.guard.up = true → s.frameDue = true → exec (.frameBoundary late) s = .next (s.boundary late)) ∧
  (∀ (s : State) (late : List Nat), (∀ l, l < 16 → (s.lane l).on = false ∧ (s.lane l).started = false ∧ (s.lane l).stopping = false ∧ (s.lane l).present = false) →
    let x := ({ (s.bumpWrap R.GUARD_FRAME_COUNT 1).wr R.GUARD_FRAME_TIME_TIME s.now with guard := { s.guard with tripMask := 0xFFFF } } : State).orStage
    let y := ((List.range 16).foldl State.slackEnds x).ageStreams
    s.boundary late = ({ y with guard := { y.guard with frameNext := max s.guard.frameNext s.now + s.framePeriod } } : State).clearStreams) ∧
  (∀ (s : State) (l : Nat), l < 16 → (s.laneStops l).rd (R.GUARD_VERDICT_WORD l) = 0xFF12) ∧
  (∀ s : State, s.guard.up = true → s.guard.trimAt + 1000000 ≤ s.now →
    exec .guardOscTrim s = .next (({ s with guard := { s.guard with trimAt := s.now } } : State).setFlag R.GUARD_STATUS_TIMEBASE (!s.refclk))) ∧
  (∀ (s : State) (p : Nat) (ws : List Nat), p < 4 → s.guard.up = true → s.flag (R.SENSOR_FSP_STATUS_ENABLE p) = true →
    Tab.get (fun _ => []) s.guard.rx p = [] → (∀ w ∈ ws, w < 65536) → ws.getD 0 0 = 0x0E5B →
    let s1 := s.setFlag (R.SENSOR_FSP_STATUS_CLK p) true
    let kept := fun (u : State) (bs : List Nat) => ({ u with guard := { u.guard with rx := Tab.put (fun _ => []) s.guard.rx p bs } } : State)
    let h := ws.getD 1 0
    let n := fld h 13 10 + 1
    let st := 4 * p + fld h 15 14
    (ws.length < n + 3 → exec (.fspPacket p ws) s = .next (kept s1 (ws.flatMap wordBits))) ∧
    (ws.length = n + 3 → fld h 2 0 ≠ 0 ∨ crc16 ((ws.drop 1).take (n + 1)) ≠ ws.getD (n + 2) 0 →
      exec (.fspPacket p ws) s = .next (kept (s1.bump (R.SENSOR_FSP_STATUS_PKT_ERR p) 1) [])) ∧
    (ws.length = n + 3 → fld h 2 0 = 0 → crc16 ((ws.drop 1).take (n + 1)) = ws.getD (n + 2) 0 → (s.gstream st).queue.length + n ≤ 64 →
      ∃ t, exec (.fspPacket p ws) s = .next t ∧ (t.gstream st).queue = (s.gstream st).queue ++ ((ws.drop 2).take n).map (toSigned 16) ∧
        (t.gstream st).lastSeq = some (fld h 9 4) ∧ (∀ k, k ≠ st → t.gstream k = s.gstream k) ∧ t.mem = s.mem ∧ t.arr = s.arr)) ∧
  (∀ (s : State) (p : Nat) (ws : List Nat), p < 4 → s.guard.up = true → s.flag (R.SENSOR_FSP_STATUS_ENABLE p) = true →
    let bs := Tab.get (fun _ => []) s.guard.rx p ++ ws.flatMap wordBits
    (∀ i, i < bs.length → i + 16 ≤ bs.length → bitsWord (bs.drop i) 0 ≠ 0x0E5B) →
    exec (.fspPacket p ws) s = .next { s.setFlag (R.SENSOR_FSP_STATUS_CLK p) true with
      guard := { s.guard with rx := Tab.put (fun _ => []) s.guard.rx p (bs.drop (bs.length - 15)) } }) ∧
  (∀ (s : State) (p : Nat), p < 4 → exec (.fspClockLoss p) s = .next (s.setFlag (R.SENSOR_FSP_STATUS_CLK p) false))

/-- Guard checks (R471 to R473) and the enabling of lanes (R455). GUARD_CHECK_EVAL 250 frames after the last, in a frame whose slack no other check has taken, takes the next engine and vector in turn: a run that passes leaves no retry, one that fails is repeated 500 frames later; before that it does not occur.
GUARD_CHECK_RETRY repeats the check that is due and marks the columns that fail again. GUARD_CALIBRATION of an engine that needs it, after 32 slack frames, runs its calibration and holds its TRIMs for the frame's end. LANE_EN_WRITE runs the write of GUARD.CTRL; a lane that passes the check
has its CODE and VAL zeroed, is on and shows its LANE_EN bit, and one that fails it stays as it is and LANE_ERR names it, the slot and the reason. Choices of the model it rests on: log entries 3, 5, 29. -/
def Obligations.GuardLanes : Prop :=
  (∀ (s : State) (l : Nat), l < 16 → s.guard.up = true → (s.lane l).started = true →
    let x := s.lane l
    let e := x.checkNext / 4
    let s1 := s.setLane l { x with checkAge := 0, checkNext := (x.checkNext + 1) % 16, slack := true }
    let r := s1.runVector (guardEngine l e) 0 (x.checkNext % 4)
    (x.checkAge < 250 ∨ x.slack = true ∨ s.engineFree (guardEngine l e) = false → exec (.guardCheckEval l) s = .next s) ∧
    let failed := (r.2.getD []).map Prod.fst
    (250 ≤ x.checkAge → x.slack = false → s.engineFree (guardEngine l e) = true → exec (.guardCheckEval l) s = .next (if failed = [] then r.1 else
      r.1.modLane l fun y => { y with retry := y.retry ++ [(e, x.checkNext % 4, failed, 500)] }))) ∧
  (∀ (s : State) (l : Nat) (q : Nat × Nat × List Nat × Nat), l < 16 → s.guard.up = true → (s.lane l).started = true →
    ((s.lane l).retry.find? fun r => r.2.2.2 == 0) = some q → (s.lane l).slack = false → s.engineFree (guardEngine l q.1) = true →
    let r := (s.setLane l { s.lane l with retry := (s.lane l).retry.erase q, slack := true }).runVector (guardEngine l q.1) 0 q.2.1
    exec (.guardCheckRetry l) s = .next (r.1.guardFaults l q.1 (((r.2.getD []).map Prod.fst).filter fun j => q.2.2.1.contains j))) ∧
  (∀ (s : State) (l e : Nat), l < 16 → e < 4 → s.guard.up = true → (s.lane l).started = true → (s.deck (guardEngine l e) 0).calDue = true →
    s.engineFree (guardEngine l e) = true → 32 ≤ (s.lane l).calRuns →
    let s1 := s.modLane l fun x => { x with calRuns := 0 }
    let r := s1.calibrate (guardEngine l e) 0 none
    exec (.guardCalibration l e) s = .next ((r.1.holdTrims s1 l (guardEngine l e)).guardFaults l e (r.2.map Prod.fst))) ∧
  (∀ (s : State) (v : Nat), s.hubUp = true → exec (.laneEnWrite v) s = .next (((s.dropHeld 0).writeGuardCtrl v).pcieTouch 0)) ∧
  (∀ (s : State) (l : Nat), l < 16 → s.laneRefusal l = none →
    ((s.laneOn l).lane l).code = [] ∧ ((s.laneOn l).lane l).val = [] ∧ ((s.laneOn l).lane l).on = true ∧ ((s.laneOn l).lane l).started = false ∧
      bit ((s.laneOn l).rd R.GUARD_CTRL_LANE_EN) l = true ∧ (∀ k, k ≠ l → (s.laneOn l).lane k = s.lane k)) ∧
  (∀ (s : State) (l r n : Nat), l < 16 → s.laneRefusal l = some (r, n) → r < 16 → n < 65536 →
    (s.laneOn l).guard = s.guard ∧ (s.laneOn l).rd R.GUARD_LANE_ERR_LANE = l ∧ (s.laneOn l).rd R.GUARD_LANE_ERR_REASON = r ∧
      (s.laneOn l).rd R.GUARD_LANE_ERR_SLOT = n ∧ (s.laneOn l).rd R.GUARD_CTRL_LANE_EN = s.rd R.GUARD_CTRL_LANE_EN)

/-- COMPARATOR_TRIP outside OFF: the input's voltage is read against the comparator's two thresholds, with its hysteresis. Without DEGLITCH and outside an over-range recovery the reading takes effect at once; otherwise it is held for 20 ns, 100 ns or both, and COMPARATOR_DEGLITCH then lets it take effect (R461, R462). An input that comes over range may disturb
the others for a moment (R462). CMP_CFG_WRITE changes the configuration; new threshold codes read the input again, and the present reading takes effect by it unless one is held (R648). LATCHED_CLEAR clears the bits written 1 and re-evaluates (R458). Both writes discard a low word the host path holds (R19). GUARD_PORT_LATCH puts the word at GP_A's address on GP_D, or lets it float while
the domain is down, and GP_OE_N_RISE lets it float (R465). Choices of the model it rests on: log entries 3, 30, 50. -/
def Obligations.ComparatorsAndPort : Prop :=
  (∀ (s : State) (c vin : Nat), c < 8 → s.power.st ≠ .off →
    let x := s.cmp c
    let level := s.levelAt c vin
    let slow := decide (x.level = 3 ∧ level ≠ 3)
    let deg := s.flag (R.GUARD_CMP_CFG_DEGLITCH c)
    let put := fun (at_ : Nat) => (s.setCmp c { x with vin := vin, level := level, at_ := at_ }).wr R.GUARD_CMP_STATE_CMP_OVR
      (putBit (s.rd R.GUARD_CMP_STATE_CMP_OVR) c (level == 3))
    let told := fun (t : State) => if level = 3 ∧ x.level ≠ 3 then t.crosstalk c else t
    (slow = false → deg = false → exec (.comparatorTrip c vin) s = .next (told ((put 0).cmpEffect c))) ∧
    (slow = false → deg = true → exec (.comparatorTrip c vin) s = .next (told (put (s.now + 21)))) ∧
    (slow = true → deg = false → exec (.comparatorTrip c vin) s = .next (put (s.now + 101))) ∧
    (slow = true → deg = true → exec (.comparatorTrip c vin) s = .next (put (s.now + 121)))) ∧
  (∀ (s : State) (c : Nat), c < 8 → s.power.st ≠ .off → (s.cmp c).at_ ≠ 0 → (s.cmp c).at_ ≤ s.now + 1 →
    exec (.comparatorDeglitch c) s = .next (s.cmpEffect c)) ∧
  (∀ (s : State) (c v : Nat), c < 8 → s.hubUp = true →
    let s1 := (s.dropHeld 0).setWord (R.GUARD_CMP_CFG_HI c).key (v &&& 0xFFFFFF07)
    let same := s1.rd (R.GUARD_CMP_CFG_LO c) = s.rd (R.GUARD_CMP_CFG_LO c) ∧ s1.rd (R.GUARD_CMP_CFG_HI c) = s.rd (R.GUARD_CMP_CFG_HI c)
    let s2 := if same then s1 else s1.setCmp c { s.cmp c with level := s1.levelAt c (s.cmp c).vin }
    exec (.cmpCfgWrite c v) s = .next ((if (s.cmp c).at_ = 0 then s2.cmpEffect c else s2).pcieTouch 0)) ∧
  (∀ (s : State) (v : Nat), s.hubUp = true →
    exec (.latchedClear v) s = .next (((s.dropHeld 0).wr R.GUARD_LATCHED_LATCHED (s.rd R.GUARD_LATCHED_LATCHED &&& (0xFF - v % 256))).orStage.pcieTouch 0)) ∧
  (∀ (s : State) (a : Nat), a < 64 → s.guard.up = true →
    exec (.guardPortLatch a) s = .next { s with guard := { s.guard with gpA := a, gpOeLow := true, gpD := some (s.portWord a) } }) ∧
  (∀ (s : State) (a : Nat), a < 64 → s.guard.up = false →
    exec (.guardPortLatch a) s = .next { s with guard := { s.guard with gpA := a, gpOeLow := true, gpD := none } }) ∧
  (∀ s : State, exec .gpOeNRise s = .next { s with guard := { s.guard with gpOeLow := false, gpD := none } })

/-- Guard backups and lane commands (R468, R474 to R476). GUARD_LOAD loads every lane from its valid backup, then the header's settings, and sets LOADED; a second one does nothing. A lane command is accepted when none runs: it sets BUSY and runs; while one runs
GO is ignored; while the crossing of the guard configuration port is held, or another access waits there, the write waits in its turn (R302, R305). Each of these writes discards a low word the host path holds (R19). LOAD, RESTORE_DECKS and DARN of an enabled lane end at once with GUARD_LANE_ACTIVE. LANE_CMD_END: SAVE stores the lane's configuration, LOAD takes it back, SAVE_GLOBAL stores the header, RESTORE_DECKS
programs its decks one after the other, once it has claimed the first and V_PROG is in range, and the result is OK; a SAVE whose write fails is GUARD_BACKUP_WRITE_FAIL. Choices of the model it rests on: log entries 3, 29. -/
def Obligations.LaneCommands : Prop :=
  (∀ s : State, s.guard.up = true → s.hubUp = true → s.flag R.GUARD_STATUS_LOADED = false → s.autoLoad = true → s.guard.again = none →
    (∀ l, l < 16 → (s.backup l).valid = true) →
    let s1 := (List.range 16).foldl (fun (a : State) l => a.loadLane l) s
    exec .guardLoad s = .next ((if s1.guard.headerOk then s1.loadHeader else s1).setFlag R.GUARD_STATUS_LOADED true)) ∧
  (∀ s : State, s.flag R.GUARD_STATUS_LOADED = true → exec .guardLoad s = .next s) ∧
  (∀ (s : State) (l : Nat), l < 16 → s.hubUp = true → s.guard.up = true → s.fwUp = true → s.flag R.GUARD_LANE_RESULT_BUSY = false →
    s.power.held.contains guardCrossing = false → s.guard.port = [] →
    let s1 := (s.dropHeld 0).setFlag R.GUARD_LANE_RESULT_BUSY true
    let run := fun (op : Nat) => ({ s1 with guard := { s1.guard with cmd := some (op, l) } } : State)
    exec (.save l) s = .next ((run 1).pcieTouch 0) ∧
    exec .saveGlobal s = .next (({ s1 with guard := { s1.guard with cmd := some (5, 0) } } : State).pcieTouch 0) ∧
    ((s.lane l).on = false → (s.backup l).valid = true → exec (.load l) s = .next ((run 2).pcieTouch 0)) ∧
    ((s.lane l).on = false → (s.backup l).valid = false → exec (.load l) s = .next ((s1.laneCmdEnd St.guardBackupInvalid).pcieTouch 0)) ∧
    ((s.lane l).on = false → s.laneSections l ≠ [] → exec (.restoreDecks l) s = .next (((run 3).restoreTry l).pcieTouch 0)) ∧
    ((s.lane l).on = false → (∀ e, e < 4 → s.guardBad l e ≠ [] → ((s.backup l).sections.getD e none).isSome = true) →
      exec (.darn l) s = .next (((run 4).darnStart l).pcieTouch 0)) ∧
    ((s.lane l).on = true → exec (.load l) s = .next ((s1.laneCmdEnd St.guardLaneActive).pcieTouch 0) ∧
      exec (.restoreDecks l) s = .next ((s1.laneCmdEnd St.guardLaneActive).pcieTouch 0) ∧
      exec (.darn l) s = .next ((s1.laneCmdEnd St.guardLaneActive).pcieTouch 0))) ∧
  (∀ (s : State) (l : Nat), l < 16 → s.steady = true →
    (s.flag R.GUARD_LANE_RESULT_BUSY = true → s.power.held.contains guardCrossing = false → s.guard.port = [] →
      exec (.save l) s = .next (s.dropHeld 0) ∧ exec (.load l) s = .next (s.dropHeld 0) ∧ exec (.restoreDecks l) s = .next (s.dropHeld 0) ∧
      exec (.darn l) s = .next (s.dropHeld 0) ∧ exec .saveGlobal s = .next (s.dropHeld 0)) ∧
    (s.power.held.contains guardCrossing = true ∨ s.guard.port ≠ [] →
      let waits := fun (v : Nat) => ({ s.dropHeld 0 with guard := { s.guard with port := s.guard.port ++ [(0xE0300, v)] } } : State)
      exec (.save l) s = .next (waits (2 ^ 31 + l * 256 + 1)) ∧ exec (.load l) s = .next (waits (2 ^ 31 + l * 256 + 2)) ∧
      exec (.restoreDecks l) s = .next (waits (2 ^ 31 + l * 256 + 3)) ∧ exec (.darn l) s = .next (waits (2 ^ 31 + l * 256 + 4)) ∧
      exec .saveGlobal s = .next (waits (2 ^ 31 + 5)))) ∧
  (∀ (s : State) (l : Nat), s.hubUp = true → s.guard.up = true →
    (s.guard.cmd = some (1, l) → exec (.laneCmdEnd 0) s = .next ((s.saveLane l true).laneCmdEnd St.ok) ∧
      exec (.laneCmdEnd St.guardBackupWriteFail) s = .next ((s.saveLane l false).laneCmdEnd St.guardBackupWriteFail)) ∧
    (s.guard.cmd = some (2, l) → exec (.laneCmdEnd 0) s = .next ((s.loadLane l).laneCmdEnd St.ok)) ∧
    (s.guard.cmd = some (3, l) →
      let t := s.restoreTry l
      (t.guard.claimed = none → exec (.laneCmdEnd 0) s = .next t) ∧
      (t.guard.claimed ≠ none → t.arr.vprogOk = true → exec (.laneCmdEnd 0) s = .next ((t.restoreAll l).laneCmdEnd St.ok))) ∧
    (s.guard.cmd = some (4, l) → s.laneDarns l = false → exec (.laneCmdEnd 0) s = .next (s.laneCmdEnd St.ok)) ∧
    (s.guard.cmd = some (5, l) → exec (.laneCmdEnd 0) s = .next ((s.saveHeader true).laneCmdEnd St.ok)))

/-- STREAM_BIND of a context that nobody else holds, with a port, virtual channel and data type no other context has and its slots inside a T2 buffer of the instance: the context is bound afresh and the record is OK; a context bound by another instance is STREAM_BUSY,
and an unbind of the instance's own context unbinds it (R399, R479, R480). The packets take effect on a running receiver: FRAME_START opens or drops frames, LONG_PACKET stores a line, FRAME_END closes the frames open on its virtual channel or is counted, a header lost
takes its packet with it (R481, R482, R486). FRAME_CLOSE of a closing frame ends it: no frame of the context is open then, and CTX_FRAMES counts to its number (R484). FRAME_TIMEOUT cuts an overdue frame, and CSI_LINK_ERROR marks the port (R486). Choices of the model it rests on: log entries 3, 31. -/
def Obligations.CameraStreams : Prop :=
  (∀ (s : State) (f w : Nat) (d : Desc), f ≤ 16 → w < 16 → s.begin f w 0x0F = some d →
    let s0 := s.started d.uid
    let c := u8At d.bytes 0x10
    (s0.bindStatus d ≠ St.ok → exec (.streamBind f w) s = .next (s0.complete d.uid (s0.bindStatus d) 0)) ∧
    (s0.bindStatus d = St.ok → u8At d.bytes 0x11 = 1 → exec (.streamBind f w) s = .next ((s0.unbindCtx c).complete d.uid St.ok 0)) ∧
    (s0.bindStatus d = St.ok → u8At d.bytes 0x11 ≠ 1 →
      let s1 := s0.unbindCtx c
      let k := (R.INST_STATUS_CTX_FRAMES_COUNT d.inst c).key
      let s2 := ({ s1 with csi := ⟨s1.csi.ctxs ++ [(c, newCtx d)]⟩ } : State).resetRegs fun n => n == k - 4 || n == k || n == k + 4
      exec (.streamBind f w) s = .next ((s2.viewCtx c (newCtx d)).complete d.uid St.ok 0))) ∧
  (∀ (s : State) (d : Desc) (x : Ctx), s.ctx? (u8At d.bytes 0x10) = some x → x.inst ≠ d.inst → s.bindStatus d = St.streamBusy) ∧
  (∀ (s : State) (p vc n : Nat), p < 8 → vc < 16 → s.receiving p = true →
    (∀ num hdr, exec (.frameStart p vc num hdr) s = .next (s.frameStart p vc num hdr)) ∧
    (∀ num, 2 ≤ n → exec (.frameStart p vc num n) s = .next ((s.csiAlive p).hdrLost p)) ∧
    (∀ dt bs bad, 2 ≤ n → exec (.longPacket p vc dt bs bad n) s = .next (s.hdrLost p)) ∧
    (∀ dt bs bad, exec (.longPacket p vc dt bs bad 0) s =
      .next ((s.ctxsOf fun x => x.takes && (x.port == p && x.vc == vc && x.dt == dt)).foldl (fun a c => a.storeLine c bs bad) s)) ∧
    (∀ num, 2 ≤ n → exec (.frameEnd p vc num n) s = .next (s.hdrLost p)) ∧
    (∀ num, (s.ctxsOf fun x => x.takes && (x.port == p && x.vc == vc)) = [] →
      exec (.frameEnd p vc num 0) s = .next (s.bump (R.SENSOR_CSI_ERR_COUNT p 2) 1)) ∧
    (∀ num, (s.ctxsOf fun x => x.takes && (x.port == p && x.vc == vc)) ≠ [] →
      exec (.frameEnd p vc num 0) s =
        .next ((s.ctxsOf fun x => x.takes && (x.port == p && x.vc == vc)).foldl (fun a c => a.modCtx c fun x => x.close s.now []) s)) ∧
    ((s.ctxsOf fun x => x.takes && x.port == p) = [] →
      exec (.csiLinkError p 0) s = .next (s.setFlag (R.SENSOR_CSI_STATUS_SYNCED p) false) ∧
      exec (.csiLinkError p 1) s = .next (s.setFlag (R.SENSOR_CSI_STATUS_CLK p) false))) ∧
  (∀ (s : State) (c : Nat) (x : Ctx), c < 16 → s.hubUp = true → s.ctx? c = some x → x.open_ = true → x.closing = true → x.inst ≤ 16 → x.seq < 2 ^ 32 →
    ∃ t, exec (.frameClose c) s = .next t ∧ t.rd (R.INST_STATUS_CTX_FRAMES_COUNT x.inst c) = x.seq ∧ t.rd (R.SENSOR_CTX_VIEW_FRAMES c) = x.seq ∧
      (∀ y, t.ctx? c = some y → y.open_ = false)) ∧
  (∀ (s : State) (c : Nat) (x : Ctx), c < 16 → s.hubUp = true → s.ctx? c = some x → x.takes = true → x.tsStart + s.frameLimit x.inst c ≤ s.now →
    exec (.frameTimeout c) s = .next ((s.modCtx c fun y => y.close s.now [fIncomplete, fTimeout]).bump (R.INST_STATUS_CTX_ERR_INCOMPLETE x.inst c) 1))

/-- The header of a slot (R484): 64 bytes, with the sequence number in bytes 0–3, the frame number in 4–5, the status in 6–7, the start and end times in 8–23, bytes and lines stored in 24–31, the counts of lines with a CRC error and of corrected headers, cut at 65,535, in 32–35,
context, virtual channel and data type in 36–38 and the stride in 40–43. Choices of the model it rests on: log entry 31. -/
def Obligations.SlotHeader : Prop :=
  ∀ (c : Nat) (x : Ctx), c < 256 → x.vc < 256 → x.dt < 256 → x.seq < 2 ^ 32 → x.frameNum < 2 ^ 16 → x.status < 2 ^ 16 → x.tsStart < 2 ^ 64 →
    x.tsEnd < 2 ^ 64 → x.bytes < 2 ^ 32 → x.lines < 2 ^ 32 → x.stride < 2 ^ 32 →
    (x.header c).length = 64 ∧ u32At (x.header c) 0 = x.seq ∧ u16At (x.header c) 4 = x.frameNum ∧ u16At (x.header c) 6 = x.status ∧
    u64At (x.header c) 8 = x.tsStart ∧ u64At (x.header c) 0x10 = x.tsEnd ∧ u32At (x.header c) 0x18 = x.bytes ∧ u32At (x.header c) 0x1C = x.lines ∧
    u16At (x.header c) 0x20 = min x.crcLines 0xFFFF ∧ u16At (x.header c) 0x22 = min x.eccFixed 0xFFFF ∧ u8At (x.header c) 0x24 = c ∧
    u8At (x.header c) 0x25 = x.vc ∧ u8At (x.header c) 0x26 = x.dt ∧ u32At (x.header c) 0x28 = x.stride

/-- Entries into lower power states (R489 to R498). A request of SLEEP, DEEP, OFF or IDLE in RUN with no entry in progress starts one; with one in progress it starts none, and a request for RUN cancels one that has not committed (R490); each of these writes discards a low word the host path holds (R19). AUTO_IDLE starts one for IDLE when the
device has been quiet (R491). ENTRY_ANSWER lets an asked block answer: it accepts, delays, refuses, which ends the entry, or does not answer yet (R492 to R495); an answer that is late counts as a refusal with DELAY_LIMIT (R494);
LINK_L2L3_READY is the PCIe block's accept (R492). Every block's accept commits the entry (R498). ENTRY_COMPLETE reaches the state with the rails it names switched off: SLEEP keeps memory, DEEP and OFF lose T0, T1 and the pegs of T0 (R260, R289, R375). Choices of the model it rests on: log entries 3, 32, 48. -/
def Obligations.PowerEntries : Prop :=
  (∀ s : State, s.steady = true →
    let u := s.dropHeld 0
    exec .pstateReqIdle s = .next (u.startEntry .idle) ∧ exec .pstateReqSleep s = .next (u.startEntry .sleep) ∧
    exec .pstateReqDeep s = .next (u.startEntry .deep) ∧ exec .pstateReqOff s = .next (u.startEntry .off) ∧ exec .pstateReqRun s = .next u) ∧
  (∀ (s : State) (t : PState), s.hubUp = true → s.power.entry = some t →
    let u := (s.dropHeld 0).pcieTouch 0
    exec .pstateReqIdle s = .next u ∧ exec .pstateReqSleep s = .next u ∧ exec .pstateReqDeep s = .next u ∧ exec .pstateReqOff s = .next u ∧
    (s.power.committed = false → exec .pstateReqRun s = .next (u.abortEntry 3 0 0)) ∧
    (s.power.committed = true → exec .pstateReqRun s = .next u)) ∧
  (∀ s : State, s.steady = true → s.flag R.PSTATE_CTRL_AUTO_IDLE = true → s.quiet = true →
    s.power.idleSince + 1000 * (if s.rd R.PSTATE_CTRL_IDLE_US = 0 then 100 else s.rd R.PSTATE_CTRL_IDLE_US) ≤ s.now →
    exec .autoIdle s = .next (s.startEntry .idle)) ∧
  (∀ (s : State) (t : PState) (b : Nat), b < 12 → s.running = true → s.power.entry = some t → s.asked b = true →
    (s.answerOf t b = .accept → exec (.entryAnswer b) s = .next (s.accepts t b)) ∧
    (s.answerOf t b = .delay → exec (.entryAnswer b) s = .next (s.delays t b)) ∧
    (∀ r, s.answerOf t b = .refuse r → exec (.entryAnswer b) s = .next (s.abortEntry 2 b r)) ∧
    (s.answerOf t b = .later → exec (.entryAnswer b) s = .next s) ∧
    ((b ≠ 7 ∨ t = .idle ∨ t = .sleep) → Tab.get (fun _ => 0) s.power.askedAt b + 1000000 ≤ s.now →
      exec (.entryAnswerTimeout b) s = .next (s.abortEntry 2 b 3)) ∧
    (b = 7 → t.deepOrOff = true → exec .linkL2l3Ready s = .next (s.accepts t 7)) ∧
    ((∀ c, c < 12 → c ∈ s.power.accepted ++ [b]) →
      s.accepts t b = ({ s with power := { s.power with accepted := s.power.accepted ++ [b] } } : State).commitEntry t)) ∧
  (∀ (s : State) (t : PState), s.running = true → s.power.entry = some t → s.power.committed = true → s.power.latched = none →
    let off := (s.railsOffIn t).filter fun r => !s.volt.off.contains r
    let s1 := (((s.entryResult 1 0 0).endEntry').switchRails t off).into t
    let u : State := { s1 with
      volt := { s1.volt with off := s1.volt.off ++ off }
      power := { s1.power with st := t, latched := none, recorded := false } }
    exec .entryComplete s = .next u ∧ u.power.st = t ∧ (t = .sleep → u.mem = s.mem) ∧
      (t.deepOrOff = true → u.mem.t0 = [] ∧ u.mem.t1 = [] ∧ u.pegs.t0 = [])) ∧
  (∀ (s : State) (o b r : Nat), s.pegs.posted = [] →
    (s.abortEntry o b r).power.entry = none ∧ (s.abortEntry o b r).power.latched = none ∧ (s.abortEntry o b r).power.closed = [] ∧
      (s.abortEntry o b r).power.st = s.power.st ∧ (s.abortEntry o b r).mem = s.mem ∧ (s.abortEntry o b r).volt = s.volt)

/-- Wake events and the way back to RUN (R499 to R505). In RUN with no entry no wake event has an effect. In a lower state an event of a source that acts there counts, and the first is recorded and starts the exit; DEV_WAKE_N is source 1 (R499, R501). During an entry it is counted
and the first is latched (R501). VR_PGOOD, OSC_RDY, MEM_RDY and LOGIC_RDY each take the exit one step on, in that order, and after LOGIC_RDY the device is in RUN (R502, R504). A ready signal that misses its timeout is awaited once more, and
a second miss is FATAL with PSTATE_TIMEOUT (R503). Choices of the model it rests on: log entries 3, 33, 49. -/
def Obligations.WakingUp : Prop :=
  (∀ (s : State) (src detail : Nat), detailOk src detail = true → s.halted = false → s.aon = true → s.wakeEnabled src = true →
    (s.power.st = .run → s.power.entry = none → exec (.wakeEvent src detail) s = .next s) ∧
    (s.power.entry = none → wakeActs src s.power.st s.guard.up = true → s.power.recorded = false →
      let s2 := (s.bump (R.PSTATE_WAKE_COUNT_COUNT (src - 1)) 1).recordWake ⟨src, detail, s.now⟩ s.power.st false
      exec (.wakeEvent src detail) s = .next (({ s2 with power := { s2.power with recorded := true } } : State).startExit src)) ∧
    (s.power.entry = none → wakeActs src s.power.st s.guard.up = true → s.power.recorded = true →
      exec (.wakeEvent src detail) s = .next (s.bump (R.PSTATE_WAKE_COUNT_COUNT (src - 1)) 1)) ∧
    (∀ t, s.power.entry = some t → wakeActs src t s.guard.up = true → s.power.latched = none →
      exec (.wakeEvent src detail) s = .next { s.bump (R.PSTATE_WAKE_COUNT_COUNT (src - 1)) 1 with
        power := { s.power with latched := some ⟨src, detail, s.now⟩ } })) ∧
  (∀ s : State, exec .devWakeN s = .next (s.wake 1 0)) ∧
  (∀ s : State, s.halted = false → s.aon = true → s.power.exit = 0 → s.power.entry = none → s.power.recorded = false → s.power.st = .sleep → s.legacy = false →
    ∃ t, exec .devWakeN s = .next t ∧ t.power.exit = 1 ∧ t.power.recorded = true ∧ t.power.st = .sleep ∧ t.rd R.PSTATE_LAST_WAKE_SOURCE = 1 ∧
      t.rd R.PSTATE_LAST_WAKE_FROM = 2 ∧ t.rd R.PSTATE_LAST_WAKE_TIME_TIME = s.now % 2 ^ 64 ∧ t.mem = s.mem) ∧
  (∀ s : State, s.halted = false → s.aon = true →
    (s.power.exit = 1 → exec .vrPgood s = .next (s.railsOn.nextStep 2)) ∧
    (s.power.exit = 2 → s.legacy = false → exec .oscRdy s = .next (s.nextStep 3)) ∧
    (s.power.exit = 2 → s.legacy = true → exec .oscRdy s = .next (s.railsOn.nextStep 3)) ∧
    (s.power.exit = 3 → exec .memRdy s = .next (s.nextStep 4)) ∧
    (∀ keyOk, s.power.exit = 4 → s.power.warmAfter = none → exec (.logicRdy keyOk) s = .next (s.logicRdy keyOk)) ∧
    (s.power.exit ≠ 0 → s.power.repeated = false → exec .readyTimeout s = .next { s with power := { s.power with repeated := true } }) ∧
    (s.power.exit ≠ 0 → s.power.repeated = true →
      exec .readyTimeout s = .next (s.raise Rc.pstateTimeout fatalClass noOwner s.power.st.code s.power.exit))) ∧
  (∀ (s : State) (keyOk : Bool), s.power.reqHeld = none → s.errs.held = [] → s.pegs.posted = [] → s.power.st.deepOrOff = false →
    (s.logicRdy keyOk).power.st = .run ∧ (s.logicRdy keyOk).power.exit = 0 ∧ (s.logicRdy keyOk).power.closed = [] ∧ (s.logicRdy keyOk).mem = s.mem)

/-- Voltage control (R508 to R519) and legacy bias entries (R524, R525). AVS_VDONE settles the rail at the V-point sent; AVS_ATTEMPT_TIMEOUT resends the write, forces a lost die to level 1, and after the fourth attempt the rail is LOST, its bus too, with VR_LINK_LOST (R514, R517).
AVS_PROBE of a bus that is lost reads it every 10 ms; one that fails changes only its time and count (R518). VOLT_RAIL_WRITE sets both limits, unless VP_MIN exceeds VP_MAX (R513). LB_ENTRY_STAGE and LB_ENTRY_COMMIT write their entries in legacy mode in IDLE only, and
entries in order are applied together (R525); staged out of order they are refused with LEGACY_ORDER. These three writes discard a low word the host path holds (R19). Choices of the model it rests on: log entries 3, 34, 49. -/
def Obligations.VoltageControl : Prop :=
  (∀ (s : State) (r : Nat), r < 9 → s.railsUp = true → s.attempt r ≠ 0 →
    let sent := Tab.get (fun _ => 0) s.volt.sent r
    exec (.avsVdone r) s = .next ((((s.settle r sent).avsCommand (busOf r)).busCheck (busOf r)).voltGo) ∧
    (s.settle r sent).acked r = sent % 16 ∧ (s.settle r sent).railState r = 0) ∧
  (∀ (s : State) (r : Nat), r < 9 → s.railsUp = true → s.attempt r ≠ 0 →
    let b := busOf r
    let s1 := s.forceLevel (s.diesUp.filter fun d => d == r)
    (s.attempt r < 4 → exec (.avsAttemptTimeout r) s =
      .next ((((s1.setAttempt r (s.attempt r + 1) (Tab.get (fun _ => 0) s.volt.sent r)).wr (R.VOLT_RAIL_STATE r) 2).avsCommand b).bump
        (R.VOLT_AVS_COUNT_COUNT (3 * b + 1)) 1)) ∧
    (4 ≤ s.attempt r →
      let s2 := (((s1.setAttempt r 0 0).wr (R.VOLT_RAIL_STATE r) 3).setFlag (lostBit b) true).bump (R.VOLT_AVS_COUNT_COUNT (3 * b + 2)) 1
      exec (.avsAttemptTimeout r) s = .next (({ s2 with volt := { s2.volt with probeAt := s2.volt.probeAt.set b s.now } } : State).raise
        Rc.vrLinkLost deviceClass noOwner b (selectOf r)))) ∧
  (∀ (s : State) (b : Nat) (mv : List Nat), b < 2 → s.railsUp = true →
    (s.busLost b = false → exec (.avsProbe b true mv) s = .next s ∧ exec (.avsProbe b false mv) s = .next s) ∧
    (s.busLost b = true → s.volt.probeAt.getD b 0 + 10000000 ≤ s.now →
      let s1 : State := { s.avsCommand b with volt := { s.volt with probeAt := s.volt.probeAt.set b s.now } }
      exec (.avsProbe b false mv) s = .next s1 ∧
      exec (.avsProbe b true mv) s =
        .next (((((s1.unsettled b).zipIdx).foldl (fun a p => a.rejoin p.1 (mv.getD p.2 0)) s1).busCheck b).voltGo))) ∧
  (∀ (s : State) (r v : Nat), r < 9 → s.steady = true →
    (s.legacy = false → fld v 27 24 ≤ fld v 31 28 → exec (.voltRailWrite r v) s =
      .next (((((s.dropHeld 0).wr (R.VOLT_RAIL_VP_MAX r) (fld v 31 28)).wr (R.VOLT_RAIL_VP_MIN r) (fld v 27 24)).retarget).pcieTouch 0)) ∧
    (fld v 31 28 < fld v 27 24 ∨ s.legacy = true → exec (.voltRailWrite r v) s = .next (s.dropHeld 0))) ∧
  (∀ (s : State) (n v : Nat), 1 ≤ n → n ≤ 3 → s.hubUp = true →
    let u := s.dropHeld 0
    (s.legacy = false → exec (.lbEntryStage n v) s = .next (u.pcieTouch 0) ∧ exec (.lbEntryCommit v) s = .next (u.pcieTouch 0)) ∧
    (s.legacy = true → s.power.st ≠ .idle → exec (.lbEntryStage n v) s = .next (u.wr R.VOLT_LB_STATUS_RESULT 3) ∧
      exec (.lbEntryCommit v) s = .next (u.wr R.VOLT_LB_STATUS_RESULT 3)) ∧
    (s.legacy = true → s.power.st = .idle → exec (.lbEntryStage n v) s = .next (u.setWord (entryKey n) (v &&& 0xFF77))) ∧
    (s.legacy = true → s.power.st = .idle → exec (.lbEntryCommit v) s = .next (u.setWord (entryKey 0) (v &&& 0xFF77)).commit)) ∧
  (∀ s : State, s.ordered = true → s.commit.volt.applied = (List.range 4).map (fun k => s.word (entryKey k)) ∧ s.commit.rd R.VOLT_LB_STATUS_RESULT = 1) ∧
  (∀ s : State, s.ordered = false → s.commit = (s.wr R.VOLT_LB_STATUS_RESULT 2).raise Rc.legacyOrder instClass 0 0 0)

/-- Press (R530 to R548), event by event; one whose condition does not hold changes nothing. PRESS_TICK: 1 µs after the last it is a tick,
in RUN and IDLE of the control law on the activity since then, in SLEEP and DEEP one in which only ENERGY advances; an earlier one does
not occur (R531). PRESS_CALIBRATION, 10 ms after the last and with ticks since, sets every gain whose bus is up by R534 and begins the
sums again. PRESS_CAP_WRITE sets CAP and restarts both windows (R537) and discards a held low word (R19). VPOINT_LOWER, 100 µs after
the die's level fell below 48, and VPOINT_RAISE, 100 µs after it came to 64 with work waiting and where R541's projection has room,
move the wanted V-point of the die by one. VR_ALERT_ASSERT takes every die that is up to level 1 and, in native mode, every target to
V-point 0; VR_ALERT_DEASSERT of an asserted alert starts its hold of 100 µs; VR_ALERT_HOLD_END then releases the V-points (R543). A
POWER_HINT is held, or dropped when 16 are, and its record is OK; HINT_START from 100 µs before its start to its end raises its dies
where Press may choose and reserves; HINT_UNUSED drops a hint 50 µs after its start whose dies stayed below half of it (R398, R544).
FLOOR_ENTRY, 100 µs after the floor's conditions came to hold, raises CAP_FLOOR with the shortfall, and FLOOR_EXIT, 100 µs after the
estimate came within the cap, ends it (R545).

Chain budgets (R549, R550). CHAIN_TOTAL_WRITE at the master shares 0, or a total of at least 35 W per device, among the devices; any
other only discards a held low word; the shares add up to the total. CHAIN_POWER_REPORT, 1 ms after the last in a formed chain, reports
estimate and wait to the master and clears the wait. CHAIN_BUDGET_SHIFT of a master with a total, 1 ms after the last, moves budget
from the longest to the shortest waiter when they differ by more than 100 µs and sends the budgets. A budget below CAP is the cap
applied (R538). Choices of the model it rests on: log entries 3, 10, 35. -/
def Obligations.PressAndBudgets : Prop :=
  (
  (∀ (s : State) (est : List Nat), s.ready = true → s.halted = false →
    let due := s.press.tickAt + 1000 ≤ s.now
    (¬ due → exec (.pressTick est) s = .next s) ∧
    (due → s.railsUp = true → exec (.pressTick est) s = .next (s.tick (s.activity est))) ∧
    (due → s.power.st = .sleep ∨ s.power.st = .deep → exec (.pressTick est) s =
      .next (({ s with press := { s.press with tickAt := s.now } } : State).addEnergy (Config.statePower s.power.st.code))) ∧
    (due → s.power.st = .off → exec (.pressTick est) s = .next s)) ∧
  (∀ (s : State) (ma : List Nat), s.railsUp = true →
    (s.now < s.press.calAt + 10000000 ∨ s.press.ticks = 0 ∨ s.legacy = true → exec (.pressCalibration ma) s = .next s) ∧
    (s.press.calAt + 10000000 ≤ s.now → s.press.ticks ≠ 0 → s.legacy = false →
      ∃ t, exec (.pressCalibration ma) s = .next t ∧ t.press = { s.press with sums := [], ticks := 0, calAt := s.now } ∧ t.mem = s.mem ∧ t.arr = s.arr ∧
        (∀ g, g < 19 → s.busLost (gainBus g) = true → t.rd (R.PRESS_GAIN_GAIN g) = s.rd (R.PRESS_GAIN_GAIN g)) ∧
        (∀ g, g < 19 → s.busLost (gainBus g) = false → t.rd (R.PRESS_GAIN_GAIN g) =
          newGain (s.rd (R.PRESS_GAIN_GAIN g)) (ma.getD g 0) ((s.press.sums.getD g (0, 0)).1 / s.press.ticks)
            ((s.press.sums.getD g (0, 0)).2 / s.press.ticks) % 65536))) ∧
  (∀ (s : State) (v : Nat), s.hubUp = true →
    let t := (s.dropHeld 0).setWord R.PRESS_CAP_CAP_MW.key (v &&& 0xFF03FFFF)
    let u := t.wr R.PRESS_STATUS_CAP_APPLIED t.capApplied
    exec (.pressCapWrite v) s = .next (({ u with press := { u.press with hist := [(u.capApplied, 1000000)] } } : State).pcieTouch 0)) ∧
  (∀ (s : State) (d : Nat), d < 8 →
    let lower := s.mayChoose = true ∧ d ∈ s.diesUp ∧ s.lasted s.press.below d = true ∧ s.rd (R.VOLT_RAIL_VP_MIN d) < s.target d
    let raise_ := s.mayChoose = true ∧ d ∈ s.diesUp ∧ s.lasted s.press.full d = true ∧ s.pressed d = true ∧ s.target d < s.rd (R.VOLT_RAIL_VP_MAX d)
    (lower → exec (.vpointLower d) s = .next (((s.setWanted d (s.target d - 1)).newSpan d).retarget)) ∧
    (¬ lower → exec (.vpointLower d) s = .next s) ∧
    (raise_ → exec (.vpointRaise d) s = .next (if s.roomAt d (s.target d + 1) 0 = true then ((s.setWanted d (s.target d + 1)).newSpan d).retarget else s)) ∧
    (¬ raise_ → exec (.vpointRaise d) s = .next s)) ∧
  (∀ (s : State) (n : Nat), n < 2 → s.pressUp = true →
    let bitOf := if n = 0 then R.PRESS_STATUS_ALERT_A else R.PRESS_STATUS_ALERT_B
    let s1 := ({ s with press := { s.press with alert := s.press.alert.set n true, holdEnd := s.press.holdEnd.set n 0 } } : State).setFlag bitOf true
    exec (.vrAlertAssert n) s = .next ((s1.forceLevel s1.diesUp).retarget) ∧
    (s.press.alert.length = 2 → s.railsUp = true → s.legacy = false →
      (∀ d, d ∈ s.diesUp → ((s1.forceLevel s1.diesUp).retarget).level d = 1) ∧
      (∀ r, r < 9 → s.railPresent r = true → ((s1.forceLevel s1.diesUp).retarget).target r = 0)) ∧
    (s.press.alert.getD n false = true → exec (.vrAlertDeassert n) s = .next (({ s with press := { s.press with
      alert := s.press.alert.set n false, holdEnd := s.press.holdEnd.set n (s.now + 100001) } } : State).setFlag bitOf false)) ∧
    (s.press.alert.getD n false = false → exec (.vrAlertDeassert n) s = .next s) ∧
    (s.press.holdEnd.getD n 0 ≠ 0 → s.press.holdEnd.getD n 0 ≤ s.now + 1 → exec (.vrAlertHoldEnd n) s =
      .next (({ s with press := { s.press with holdEnd := s.press.holdEnd.set n 0 } } : State).retarget)) ∧
    (s.press.holdEnd.getD n 0 = 0 ∨ s.now + 1 < s.press.holdEnd.getD n 0 → exec (.vrAlertHoldEnd n) s = .next s)) ∧
  (∀ (s : State) (f w : Nat) (d : Desc), f ≤ 16 → w < 16 → s.begin f w 0x0A = some d →
    let s0 := s.started d.uid
    let mask := u8At d.bytes 0x1C
    (s0.press.hints.length < 16 → exec (.powerHint f w) s =
      .next (({ s0 with press := { s0.press with hints := s0.press.hints ++ [⟨d.time + 1000 * u32At d.bytes 0x10, 1000 * u32At d.bytes 0x14,
        u32At d.bytes 0x18, (upTo 8 fun n => mask == 0 || bit mask n), false, 0⟩] } } : State).complete d.uid St.ok 0)) ∧
    (16 ≤ s0.press.hints.length → exec (.powerHint f w) s = .next ((s0.bump R.PRESS_HINT_COUNT_DROPPED 1).complete d.uid St.ok 0))) ∧
  (∀ (s : State) (k : Nat) (h : Hint), k < 16 → s.railsUp = true → s.press.hints[k]? = some h →
    let starts := h.on = false ∧ h.start ≤ s.now + 100000 ∧ s.now < h.start + h.dur
    let unused := h.on = true ∧ h.start + 50000 ≤ s.now ∧ 2 * h.most < h.mw
    let s1 := ({ s with press := { s.press with hints := s.press.hints.set k { h with on := true } } } : State).setFlag R.PRESS_STATUS_HINT_ACTIVE true
    let ds := h.dies.filter fun d => s.diesUp.contains d
    (starts → s.mayChoose = false → exec (.hintStart k) s = .next s1) ∧
    (starts → s.mayChoose = true → exec (.hintStart k) s =
      .next ((ds.foldl (fun a d => a.setWanted d (s.hintPoint d (h.mw / max 1 ds.length))) s1).retarget)) ∧
    (¬ starts → exec (.hintStart k) s = .next s) ∧
    (unused → exec (.hintUnused k) s = .next ((({ s with press := { s.press with hints := s.press.hints.eraseIdx k } } : State).setFlag
      R.PRESS_STATUS_HINT_ACTIVE ((s.press.hints.eraseIdx k).any Hint.on)).bump R.PRESS_HINT_COUNT_UNUSED 1)) ∧
    (¬ unused → exec (.hintUnused k) s = .next s)) ∧
  (∀ (s : State) (k : Nat), k < 16 → s.railsUp = true → s.press.hints[k]? = none →
    exec (.hintStart k) s = .next s ∧ exec (.hintUnused k) s = .next s) ∧
  (∀ s : State, s.railsUp = true →
    let enters := s.flag R.PRESS_STATUS_FLOOR = false ∧ s.press.floorIn ≠ 0 ∧ s.press.floorIn + 100000 ≤ s.now + 1
    let leaves := s.flag R.PRESS_STATUS_FLOOR = true ∧ s.press.floorOut ≠ 0 ∧ s.press.floorOut + 100000 ≤ s.now + 1
    let short := s.rd R.PRESS_EST_MW - s.capApplied
    let s1 := ((s.setFlag R.PRESS_STATUS_FLOOR true).wr R.PRESS_SHORTFALL_MW short).raise Rc.capFloor deviceClass noOwner short s.capApplied
    let s2 := (s.setFlag R.PRESS_STATUS_FLOOR false).wr R.PRESS_SHORTFALL_MW 0
    (enters → exec .floorEntry s = .next (s1.irq (s1.flag R.PRESS_CTRL_IRQ_EN) (s1.rd R.PRESS_CTRL_VECTOR))) ∧
    (¬ enters → exec .floorEntry s = .next s) ∧
    (leaves → exec .floorExit s = .next (({ s2 with press := { s2.press with floorIn := 0, forced := [] } } : State).retarget)) ∧
    (¬ leaves → exec .floorExit s = .next s))) ∧
  (
  (∀ (s : State) (v : Nat), s.steady = true →
    let total := fld v 23 0
    let ok := s.isMaster = true ∧ (total = 0 ∨ 35000 * s.members.length ≤ total)
    let s1 := (s.dropHeld 0).wr R.PRESS_CHAIN_TOTAL_MW total
    (ok → exec (.chainTotalWrite v) s = .next ((({ s1 with press := { s1.press with
      budgets := if total = 0 then [] else shares total s.members } } : State).sendBudgets).pcieTouch 0)) ∧
    (¬ ok → exec (.chainTotalWrite v) s = .next (s.dropHeld 0))) ∧
  (∀ (total : Nat) (ds : List Nat), ds ≠ [] → ds.Nodup →
    (ds.map fun d => Tab.get (fun _ => 0) (shares total ds) d).sum = total) ∧
  (∀ s : State, s.railsUp = true →
    let due := s.press.reportAt + 1000000 ≤ s.now ∧ s.flag R.CHAIN_STATUS_FORMED = true
    let w := min s.press.waitNs (2 ^ 32 - 1)
    let mw := s.rd R.PRESS_EST_MW
    let s1 := ({ s with press := { s.press with waitNs := 0, reportAt := s.now } } : State).wr R.PRESS_CHAIN_WAIT_NS w
    (due → s.isMaster = true → exec .chainPowerReport s =
      .next { s1 with press := { s1.press with reports := s1.press.reports ++ [(s.rd R.CHAIN_STATUS_DEVICE_ID, mw, w)] } }) ∧
    (due → s.isMaster = false → exec .chainPowerReport s = .next (s1.sendFlit 0 0 (.ctrl (.power mw w)))) ∧
    (¬ due → exec .chainPowerReport s = .next s)) ∧
  (∀ s : State, s.railsUp = true →
    let total := s.rd R.PRESS_CHAIN_TOTAL_MW
    let due := s.isMaster = true ∧ total ≠ 0 ∧ s.press.shiftAt + 1000000 ≤ s.now
    let most := pickDevice s.press.reports (fun d => decide (35000 < s.budget d)) fun a b => decide (b < a)
    let least := pickDevice s.press.reports (fun d => decide (s.budget d < s.capOf d)) fun a b => decide (a < b)
    let s1 : State := { s with press := { s.press with reports := [], shiftAt := s.now } }
    (¬ due → exec .chainBudgetShift s = .next s) ∧
    (due → most = none ∨ least = none → exec .chainBudgetShift s = .next s1.sendBudgets) ∧
    (∀ h l, due → most = some h → least = some l → h.2 ≤ l.2 + 100000 → exec .chainBudgetShift s = .next s1.sendBudgets) ∧
    (∀ h l, due → most = some h → least = some l → l.2 + 100000 < h.2 →
      let n := min (total / 50) (min (s.budget h.1 - 35000) (s.capOf l.1 - s.budget l.1))
      let t := Tab.put (fun _ => 0) s.press.budgets h.1 (s.budget h.1 - n)
      exec .chainBudgetShift s =
        .next (({ s1 with press := { s1.press with budgets := Tab.put (fun _ => 0) t l.1 (s.budget l.1 + n) } } : State).sendBudgets))) ∧
  (∀ s : State, s.legacy = false → s.rd R.PRESS_CHAIN_BUDGET_MW ≠ 0 → s.rd R.PRESS_CHAIN_BUDGET_MW < s.capMw →
    s.capApplied = s.rd R.PRESS_CHAIN_BUDGET_MW))

/-- The program-store flash (R552 to R566). With a control processor up and no command running, GO of PROGRAM, ERASE, BLANK_CHECK, CRC32C and SIGNED_UPDATE that R558 does not refuse starts the operation and is counted; a refused one shows its RESULT and is counted as refused; one while BUSY is ignored
(R557, R558). SUSPEND stops a running ERASE and RESUME runs it on (R557); each of these writes discards a low word the host path holds (R19). FLASH_OP_END ends the operation with its effect, unless firmware writes in its bank; FLASH_TIMEOUT of a program or erase that has passed its longest time leaves its words open, shows TIMED_OUT, counts and raises its record (R561, R562). FLASH_WINDOW_READ reads
four bytes of the window, or all ones at a busy bank (R559). FIRMWARE_RECORD_WRITE becomes the firmware's operation, or waits behind the one that is written, and FLASH_OP_END stores its bytes (R560). Choices of the model it rests on: log entries 3, 4, 36. -/
def Obligations.FlashCommands : Prop :=
  (∀ s : State, s.hubUp = true → s.fwUp = true → s.flashBusy = false →
    let a := s.rd R.FLASH_ADDR_ADDR
    let n := s.rd R.FLASH_LENGTH_LENGTH
    let u := s.dropHeld 0
    let run := fun (o : FlashOp) => ((({ u with flash := { s.flash with op := some o } } : State).bump (R.FLASH_COUNT_COUNT 0) 1).pcieTouch 0)
    let no := fun (op : Nat) => (((u.flashResult (s.flashRefusal op a n)).bump (R.FLASH_COUNT_COUNT 1) 1).pcieTouch 0)
    (s.flashRefusal 1 a n = 0 → exec .program s = .next (run ⟨1, a, n, s.flashData n, s.now⟩)) ∧
    (s.flashRefusal 1 a n ≠ 0 → exec .program s = .next (no 1)) ∧
    (s.flashRefusal 2 a n = 0 → exec .erase s = .next (run ⟨2, a, n, [], s.now⟩)) ∧ (s.flashRefusal 2 a n ≠ 0 → exec .erase s = .next (no 2)) ∧
    (s.flashRefusal 5 a n = 0 → exec .blankCheck s = .next (run ⟨5, a, n, [], s.now⟩)) ∧
    (s.flashRefusal 6 a n = 0 → exec .crc32c s = .next (run ⟨6, a, n, [], s.now⟩)) ∧
    (s.flashRefusal 7 a n = 0 → exec .signedUpdate s = .next (run ⟨7, s.rd R.FLASH_UPDATE_SRC_ADDR * 64, n, [], s.now⟩)) ∧
    (∀ o, s.flash.susp = some o → exec .resume s =
      .next (((({ u with flash := { s.flash with op := some { o with start := s.now - o.start }, susp := none } } : State).flashResult 0).bump (R.FLASH_COUNT_COUNT 0) 1).pcieTouch 0)) ∧
    (s.flash.susp = none → exec .resume s = .next (((u.flashResult flashNotSuspended).bump (R.FLASH_COUNT_COUNT 1) 1).pcieTouch 0))) ∧
  (∀ (s : State) (o : FlashOp), s.hubUp = true → s.fwUp = true → s.flashWaits = false → s.flash.op = some o → o.kind = 2 →
    let s1 := (s.dropHeld 0).flashUnknown (sectorOf o.addr).1 (sectorOf o.addr).2
    exec .suspend s = .next (((({ s1 with flash := { s1.flash with op := none, susp := some { o with start := s.now - o.start } } } : State).flashResult 0).bump
      (R.FLASH_COUNT_COUNT 0) 1).pcieTouch 0)) ∧
  (∀ s : State, s.steady = true → s.flashBusy = true →
    let u := s.dropHeld 0
    exec .program s = .next u ∧ exec .erase s = .next u ∧ exec .blankCheck s = .next u ∧ exec .crc32c s = .next u ∧ exec .signedUpdate s = .next u ∧
    exec .resume s = .next u) ∧
  (∀ (s : State) (o : FlashOp), s.flashOn = true → s.flash.op = some o →
    (s.flashHeld o = false → exec (.flashOpEnd false) s = .next (((s.flashEffect o).flashFree).busyNow)) ∧
    (s.flashHeld o = true → exec (.flashOpEnd false) s = .next s) ∧
    (o.writes = true → s.flashHeld o = false → o.start + o.longest ≤ s.now → exec (.flashTimeout false) s =
      .next (((((s.flashBroken o).flashResult flashTimedOut).bump (R.FLASH_COUNT_COUNT 3) 1).flashFree).flashLate o))) ∧
  (∀ (s : State) (off : Nat), off < 0x8000 → s.hubUp = true →
    let a := s.rd R.FLASH_WIN_BASE_BASE * 0x8000 + (off - off % 4)
    (s.bankBusy (a / bankBytes) = false → exec (.flashWindowRead off) s =
      .next (({ s with holds := { s.holds with last := leNat (s.flashRead a 4) } } : State).pcieTouch 0)) ∧
    (s.bankBusy (a / bankBytes) = true →
      let s1 := (s.setFlag R.FLASH_STATUS_FLASH_BUSY true).bump (R.FLASH_COUNT_COUNT 2) 1
      exec (.flashWindowRead off) s = .next (({ s1 with holds := { s1.holds with last := 0xFFFFFFFF } } : State).pcieTouch 0))) ∧
  (∀ (s : State) (a : Nat) (bs : List Nat), a < flashBytes → s.flashOn = true → s.flash.fw = none → s.flash.op = none → firmwareOnly a bs.length = true →
    exec (.firmwareRecordWrite a bs) s = .next { s with flash := { s.flash with fw := some ⟨15, a, bs.length, bs.map (· % 256), s.now⟩ } }) ∧
  (∀ (s : State) (a : Nat) (bs : List Nat), a < flashBytes → s.flashOn = true → s.flash.fw ≠ none → firmwareOnly a bs.length = true →
    exec (.firmwareRecordWrite a bs) s = .next { s with flash := { s.flash with due := s.flash.due ++ [(a, bs.map (· % 256))] } }) ∧
  (∀ (s : State) (o : FlashOp), s.flashOn = true → s.flash.fw = some o → o.kind = 15 → s.flash.op = none → s.flash.due = [] →
    exec (.flashOpEnd true) s = .next { s with flash := { s.flash with bytes := cellsWrite erased s.flash.bytes o.addr o.data, fw := none } })

/-- What the flash holds after a program and an erase (R556): a program that ends leaves each byte of its range the AND of what it held and the data, and every other byte as it was; an erase sets every byte of its sector and no other. -/
def Obligations.FlashContents : Prop :=
  (∀ (s : State) (a : Nat) (data : List Nat), (∀ b ∈ data, b < 256) →
    (∀ j, j < data.length → (s.programBytes a data).flashRead (a + j) 1 = [(s.flashRead (a + j) 1).getD 0 0 &&& data.getD j 0]) ∧
    (∀ b, b < a ∨ a + data.length ≤ b → (s.programBytes a data).flashRead b 1 = s.flashRead b 1)) ∧
  (∀ (s : State) (a : Nat), Tab.wf erased s.flash.bytes = true →
    (∀ b, (sectorOf a).1 ≤ b → b < (sectorOf a).1 + (sectorOf a).2 → (s.eraseSector a).flashRead b 1 = [0xFF]) ∧
    (∀ b, b < (sectorOf a).1 ∨ (sectorOf a).1 + (sectorOf a).2 ≤ b → (s.eraseSector a).flashRead b 1 = s.flashRead b 1))

/-- Chain ports and formation (R567 to R588). CHAIN_ENABLE_WRITE runs the write of CHAIN.CTRL; FORM at the master with a setting of R576 starts formation, and FORM_TIMEOUT 500 ms later fails it (R576). PORT_STATE_ADVANCE takes a port from DETECT to TRAIN, on the lanes TRAIN found to ALIGN, or back to
DETECT when they do not suffice, to EXCHANGE and to UP (R574, R575); PORT_STATE_TIMEOUT of a bring-up state that has passed its longest time returns it to DETECT (R574). NAK_RECEIVED and ACK_TIMEOUT of a live port replay what is unacknowledged (R573). PORT_DOWN takes an UP port down: it is in DETECT with no lane, and
its loss is counted and recorded (R587). MIRROR_WRITE and SPAN_WRITE run their writes; a new SPAN value advances the chain generation (R582, R583). The writes among these discard a low word the host path holds (R19). Choices of the model it rests on: log entries 3, 37. -/
def Obligations.ChainPorts : Prop :=
  (∀ (s : State) (v : Nat), s.hubUp = true → exec (.chainEnableWrite v) s = .next (((s.dropHeld 0).writeChainCtrl v).pcieTouch 0)) ∧
  (∀ s : State, s.steady = true → (s.isMaster = false ∨ s.chainSize = 0) → exec .form s = .next (s.dropHeld 0)) ∧
  (∀ s : State, s.hubUp = true → s.isMaster = true → s.chainSize ≠ 0 →
    let s1 := (((s.dropHeld 0).setFlag R.CHAIN_STATUS_FORMED false).setFlag R.CHAIN_STATUS_FORM_FAIL false).wr R.CHAIN_STATUS_DEVICE_ID 0
    exec .form s = .next (((({ s1 with chain := { s1.chain with forming := s.now + 1, found := [0] } } : State).wr R.CHAIN_STATUS_DEVICES 1).enumerate
      0 0).pcieTouch 0)) ∧
  (∀ s : State, s.hubUp = true → s.chain.forming ≠ 0 →
    (s.chain.forming - 1 + 500000000 ≤ s.now → exec .formTimeout s = .next s.formFails) ∧
    (s.now < s.chain.forming - 1 + 500000000 → exec .formTimeout s = .next s)) ∧
  (∀ (s : State) (p lanes peer pp : Nat), p < 4 → s.hubUp = true → s.flag R.CHAIN_CTRL_ENABLE = true →
    let go := exec (.portStateAdvance p lanes peer pp) s
    (s.portState p = 1 → go = .next (s.setPortState p 2)) ∧
    (s.portState p = 2 → laneWidth lanes = 0 → go = .next (s.setPortState p 1)) ∧
    (s.portState p = 2 → laneWidth lanes ≠ 0 → go = .next ((s.wr (R.CHAIN_PORT_STATUS_LANES p) (laneWidth lanes)).setPortState p 3)) ∧
    (s.portState p = 3 → go = .next (s.setPortState p 4)) ∧ (s.portState p = 4 → go = .next (s.portUp p peer pp)) ∧
    (s.portState p = 6 → go = .next (s.setPortState p 1)) ∧ (s.portState p = 0 → go = .next s)) ∧
  (∀ (s : State) (p st : Nat), p < 4 → st < 8 → (s.setPortState p st).portState p = st ∧
    (∀ q, q < 4 → q ≠ p → (s.setPortState p st).portState q = s.portState q)) ∧
  (∀ (s : State) (p : Nat), p < 4 → s.hubUp = true → 2 ≤ s.portState p → s.portState p ≤ 4 →
    (s.port p).since + portLimit (s.portState p) ≤ s.now →
    exec (.portStateTimeout p) s = .next (if (s.port p).wasUp then
      ((s.setPortState p 1).wr (R.CHAIN_PORT_STATUS_LANES p) 0).bump (R.CHAIN_PORT_COUNT_COUNT p 6) 1 else
      (s.setPortState p 1).wr (R.CHAIN_PORT_STATUS_LANES p) 0)) ∧
  (∀ (s : State) (p ack : Nat), p < 4 → s.portLive p = true → ack < 4096 →
    exec (.nakReceived p ack) s = .next (s.nakFrom p ack) ∧ exec (.ackTimeout p) s = .next (s.ackTimeout p) ∧
    ((s.port p).unacked = [] → exec (.ackTimeout p) s = .next s) ∧
    (∀ f t, (s.port p).unacked = f :: t → (s.port p).replay = 0 → (s.port p).ackAt + 2000 ≤ s.now → exec (.ackTimeout p) s =
      .next ((s.setPort p { s.port p with replay := f.seq + 1, ackAt := s.now }).bump (R.CHAIN_PORT_COUNT_COUNT p 3) 1)) ∧
    exec (.portDown p) s = .next (s.portDown p)) ∧
  (∀ (s : State) (k v : Nat), k < 64 → s.hubUp = true → exec (.mirrorWrite k v) s = .next (((s.dropHeld 0).writeMirror k v).pcieTouch 0)) ∧
  (∀ (s : State) (i v : Nat), 1 ≤ i → i ≤ 16 → s.steady = true →
    (s.isMaster = false → exec (.spanWrite i v) s = .next (s.dropHeld 0)) ∧
    (s.isMaster = true → v < 2 ^ 64 → v ≠ s.rd (R.CHAIN_SPAN_SPAN (i - 1)) → v ≠ 0 →
      ∃ t, exec (.spanWrite i v) s = .next t ∧ t.rd (R.CHAIN_SPAN_SPAN (i - 1)) = v ∧
        t.rd (R.CHAIN_CGEN_CGEN (i - 1)) = (s.rd (R.CHAIN_CGEN_CGEN (i - 1)) + 1) % 65536))

/-- Flits that arrive at a live port (R568 to R588). A flit with a bad CRC is counted and NAKed, and nothing else happens; IDLE and TRAIN flits bring only their link word; a sequenced flit out of order is NAKed. A flit in order for this device, of the present chain generation, does what its type says: DATA is
written and acknowledged, XACK ends what it acknowledges, PEG runs its operation, DESC joins its ring, RECORD ends a forwarded descriptor or is delivered, HOST is served by the master, HOST_RSP is taken, REG is served or answers a window access, CTRL takes effect
(R569, R579 to R585). One for another device is forwarded, or discarded with no hop left; a stale chain generation is discarded (R577, R582); a flit of a reserved type is discarded and counted (R569). While the crossing of the serdes interface is held every flit stays outside (R302, R305). Choices of the model it rests on: log entries 37, 38, 50. -/
def Obligations.FlitsArrive : Prop :=
  (∀ (s : State) (p : Nat) (f : Flit), p < 4 → s.portLive p = true → s.serdesOpen = true → f.crcOk = false →
    let bad := (s.bump (R.CHAIN_PORT_COUNT_COUNT p 2) 1).refuseFlit p
    (f.payload = .idle → exec (.idleFlit p f) s = .next bad) ∧ (f.payload = .train → exec (.trainFlit p f) s = .next bad) ∧
    (∀ h o t l k bs, f.payload = .data h o t l k bs → exec (.dataFlit p f) s = .next bad)) ∧
  (∀ (s : State) (p : Nat) (f : Flit), p < 4 → s.portLive p = true → s.serdesOpen = true → f.crcOk = true →
    (f.payload = .idle → exec (.idleFlit p f) s = .next (s.takeLink p f)) ∧ (f.payload = .train → exec (.trainFlit p f) s = .next (s.takeLink p f))) ∧
  (∀ (s : State) (p : Nat) (f : Flit) (keyOk : Bool), p < 4 → s.portLive p = true → s.serdesOpen = true → f.crcOk = true → unsequenced f.payload = false →
    let s0 := s.takeLink p f
    f.seq = (s0.port p).rxSeq →
    let s1 := (s0.modPort p fun a => a.accept f).bump (R.CHAIN_PORT_COUNT_COUNT p 1) 1
    (f.dst = s1.rd R.CHAIN_STATUS_DEVICE_ID → s1.flitCurrent f = true →
      (∀ h o t l k bs, f.payload = .data h o t l k bs → exec (.dataFlit p f) s = .next (s1.takeData p f h o t ((bs.take 224).map (· % 256)))) ∧
      (∀ t b st, f.payload = .xack t b st → exec (.xackFlit p f) s = .next (s1.acknowledge f.inst t b st)) ∧
      (∀ h o st v, f.payload = .peg h o st v → exec (.pegFlit p f) s = .next (s1.takePeg p f h o st v)) ∧
      (∀ r n bs, f.payload = .desc r n bs → r < 16 → bs.length = 64 → exec (.descFlit p f) s = .next (s1.takeDesc f r n (bs.map (· % 256)))) ∧
      (∀ k r n bs, f.payload = .record k r n bs → s1.isMaster = true →
        exec (.recordFlit p f) s = .next (s1.takeRecord f k r n (bs.map (· % 256)))) ∧
      (∀ w a n t bs, f.payload = .host w a n t bs → s1.isMaster = true → exec (.hostFlit p f) s = .next (s1.takeHost f)) ∧
      (∀ t bs, f.payload = .hostRsp t bs → exec (.hostRspFlit p f) s = .next (s1.takeHostRsp t bs)) ∧
      (∀ w o v, f.payload = .reg false w o v → exec (.regFlit p f) s = .next (s1.takeRequest f w o v)) ∧
      (∀ w o v, f.payload = .reg true w o v → exec (.regFlit p f) s = .next (s1.takeResponse f w o v)) ∧
      (∀ m, f.payload = .ctrl m → exec (.ctrlFlit p f keyOk) s = .next (s1.takeCtrl p f keyOk m))) ∧
    (∀ h o t l k bs, f.payload = .data h o t l k bs →
      (f.dst ≠ s1.rd R.CHAIN_STATUS_DEVICE_ID → f.hops = 0 → exec (.dataFlit p f) s = .next (s1.discard p)) ∧
      (f.dst ≠ s1.rd R.CHAIN_STATUS_DEVICE_ID → f.hops ≠ 0 → exec (.dataFlit p f) s = .next (s1.forward p f)) ∧
      (f.dst = s1.rd R.CHAIN_STATUS_DEVICE_ID → s1.flitCurrent f = false → exec (.dataFlit p f) s = .next (s1.discard p)))) ∧
  (∀ (s : State) (p : Nat) (f : Flit), p < 4 → s.portLive p = true → s.serdesOpen = true → f.crcOk = true → unsequenced f.payload = false →
    f.seq ≠ ((s.takeLink p f).port p).rxSeq →
    ∀ h o t l k bs, f.payload = .data h o t l k bs → exec (.dataFlit p f) s = .next ((s.takeLink p f).refuseFlit p)) ∧
  (∀ (s : State) (p : Nat) (f : Flit) (n : Nat), p < 4 → s.portLive p = true → s.serdesOpen = true → f.crcOk = true → f.payload = .reserved n →
    f.seq = ((s.takeLink p f).port p).rxSeq →
    exec (.dataFlit p f) s = .next ((((s.takeLink p f).modPort p fun a => a.accept f).bump (R.CHAIN_PORT_COUNT_COUNT p 1) 1).discard p)) ∧
  (∀ (s : State) (p : Nat) (f : Flit), p < 4 → s.serdesOpen = false →
    exec (.idleFlit p f) s = .next s ∧ exec (.trainFlit p f) s = .next s ∧ exec (.dataFlit p f) s = .next s ∧ exec (.xackFlit p f) s = .next s ∧
      exec (.pegFlit p f) s = .next s ∧ exec (.descFlit p f) s = .next s ∧ exec (.recordFlit p f) s = .next s ∧ exec (.hostFlit p f) s = .next s ∧
      exec (.hostRspFlit p f) s = .next s ∧ exec (.regFlit p f) s = .next s ∧ ∀ keyOk, exec (.ctrlFlit p f keyOk) s = .next s)

/-- Register accesses (R14 to R20), on a device that serves in RUN with no power entry under way. REGISTER_WRITE: one over a path that is not up, and one to an offset at which nothing lies, changes nothing, and a low word held survives it (R18, R19); one to the low word of a 64-bit RW register is held, in place of what the path held, and changes nothing else; one to its high
word applies both words at once, with the low word in force where none is held, but to a base of a ring that is enabled it is ignored (R19, R384); one to a word of the THERM, SENSOR and HBM blocks does what its field types say and discards a low word its path holds (R16, R19). DEBUG_SNAP_TAKE sets DIE and, with TAKE, shows device time and DONE (R630). PERI_APERTURE_ACCESS and CLIP_CLEAR: a write
joins what waits at the selected engine's aperture and is served between its evaluations, a read gives the selected engine's word, and with no such engine a write does nothing and a read gives 0 (R140, R145). PINMUX_FUNC_WRITE writes its pin, which parks when FUNC changes (R650). Each of these writes discards a low word the host path holds (R19).
A 32-bit write to a plain register changes exactly the bits of its RW fields, clears the W1C bits written 1, and leaves every other bit and every other register word as it was (R16, R18). Choices of the model it rests on: log entries 2, 41, 51. -/
def Obligations.RegisterWrites : Prop :=
  (∀ (s : State) (path off v : Nat), path ≤ 16 → s.pathUp path = false → exec (.registerWrite path off v) s = .next s) ∧
  (∀ (s : State) (path off v : Nat), path ≤ 16 → s.steady = true → v < 2 ^ 32 →
    let k := pathKey path off
    let window := path = 0 ∧ inWindow (off - off % 4) = true
    let copy := ringCopy path (off - off % 4) = true
    let u := s.dropHeld path
    (¬ window → takesWrite k = false → aliasKey k = false → exec (.registerWrite path off v) s = .next s) ∧
    (¬ window → ¬ copy → takesWrite k = true → aliasKey k = false → pairKey k = true → k % 8 = 0 →
      exec (.registerWrite path off v) s = .next { u with holds := { u.holds with wr := u.holds.wr ++ [(path, k, v)] } }) ∧
    (path = 0 → ¬ window → ¬ copy → takesWrite k = true → pairKey k = true → k % 8 = 4 → k < 0xF0000 →
      exec (.registerWrite path off v) s = .next (u.writePlain64 (k - 4) (s.heldLow path (k - 4) + v * 2 ^ 32))) ∧
    (¬ copy → fnBase ≤ k → localOff k < 0x2000 → takesWrite k = true → pairKey k = true → k % 8 = 4 →
      exec (.registerWrite path off v) s = .next (if s.baseLocked ((k - 4 - fnBase) / 0x10000) (localOff (k - 4)) = true then u else
        u.writePlain64 (k - 4) (s.heldLow path (k - 4) + v * 2 ^ 32))) ∧
    (path = 0 → k < 0x01000000 → k >>> 16 = 0x7 ∨ k >>> 16 = 0xD ∨ k >>> 16 = 0x10 → takesWrite k = true → pairKey k = false →
      exec (.registerWrite path off v) s = .next (u.writePlain k v))) ∧
  (∀ (s : State) (v : Nat), s.steady = true → v < 2 ^ 32 →
    let u := (s.dropHeld 0).wr R.DEBUG_SNAP_DIE (fld v 2 0)
    (bit v 31 = false → exec (.debugSnapTake v) s = .next u) ∧
    (bit v 31 = true → exec (.debugSnapTake v) s = .next (u.takeSnap (fld v 2 0)) ∧ (u.takeSnap (fld v 2 0)).rd R.DEBUG_SNAP_TIME_TIME = s.now % 2 ^ 64 ∧
      (u.takeSnap (fld v 2 0)).flag R.DEBUG_SNAP_DONE = true ∧ (u.takeSnap (fld v 2 0)).mem = s.mem ∧ (u.takeSnap (fld v 2 0)).arr = s.arr)) ∧
  (∀ (s : State) (d off v : Nat), d < 8 → off < 0x10000 → s.steady = true → v < 2 ^ 32 →
    let u := s.dropHeld 0
    let o := off - off % 4
    (s.periEngine d = none → exec (.periApertureAccess d off true v) s = .next u ∧ exec (.clipClear d v) s = .next u) ∧
    (∀ e, s.periEngine d = some e →
      let waits := fun (o : Nat) => (({ u with arr := { s.arr with aper := s.arr.aper ++ [(e, o, v)] } } : State).aperIn e)
      exec (.periApertureAccess d off true v) s = .next (waits o) ∧ exec (.clipClear d v) s = .next (waits 0x8F0C)) ∧
    (s.holds.rd = [] → exec (.periApertureAccess d off false v) s =
      .next { s with holds := { s.holds with last := (s.periEngine d).elim 0 fun e =>
        if (s.engine e).retired = true then 0 else (s.aperLand e).periRead e o } })) ∧
  (∀ (s : State) (n v : Nat), n < 16 → s.steady = true → v < 2 ^ 32 →
    let u := (s.dropHeld 0).setWord (R.PINMUX_PIN_FUNC n).key (v &&& 0xF1)
    (bit v 0 = s.flag (R.PINMUX_PIN_FUNC n) → exec (.pinmuxFuncWrite n v) s = .next u) ∧
    (bit v 0 ≠ s.flag (R.PINMUX_PIN_FUNC n) → exec (.pinmuxFuncWrite n v) s = .next { u with board := { s.board with
      parks := s.board.parks.filter (fun p => p.1 != n) ++ [(n, s.now + 40)]
      uart := if n = 4 then s.board.uart.drop 1 else s.board.uart
      gpioIn := putBit s.board.gpioIn n (s.pinIn n) } })) ∧
  (∀ (s : State) (k v b : Nat), v < 2 ^ 32 → b < 32 →
    bit ((s.writePlain k v).word k) b = (if bit (writeMasks k).1 b then bit v b else bit (s.word k) b && !(bit v b && bit (writeMasks k).2 b))) ∧
  (∀ (s : State) (k v j : Nat), j ≠ k → (s.writePlain k v).word j = s.word j)

/-- A field written reads back as the value's low bits, and every field that shares no bit with it keeps its value (R14, R16): for every two fields within a 32-bit or a 64-bit register, over all states and values. -/
def Obligations.FieldReadBack : Prop :=
  (∀ (s : State) (f : RField) (v : Nat), f.lsb ≤ f.msb → f.msb < 64 → (s.wr f v).rd f = v % 2 ^ (f.msb + 1 - f.lsb)) ∧
  (∀ (s : State) (f g : RField) (v : Nat), f.lsb ≤ f.msb → f.msb < 32 → g.lsb ≤ g.msb → g.msb < 32 →
    (f.key ≠ g.key ∨ f.msb < g.lsb ∨ g.msb < f.lsb) → (s.wr f v).rd g = s.rd g)

/-- JTAG and the remote window (R581, R624 to R628). BYPASS, IDCODE and SAMPLE_PRELOAD take the port; IDCODE captures version 1 in bits 31–28, part 0x0848 in 27–12, maker 0x5C3 in 11–1 and a 1 in bit 0. EXTEST, EXTEST_PULSE and EXTEST_TRAIN act as BYPASS without SCAN_EN outside test mode; with it they halt
the work and float the stop outputs (R625). REGACC with no operation only takes the port, and one that CTRL.JTAG_REG does not allow is REFUSED (R626, R627). REMOTE_WINDOW_ACCESS makes the access, and at a device that is not the master reads 0; REMOTE_WINDOW_TIMEOUT after 100 µs ends the oldest with all ones (R581).

Pins and serial ports (R649 to R654). PARK_END of a parked pin ends its park; GPIO_EDGE makes the pin's level (R650, R651). I3C_PRIVATE_WRITE sets the index, I3C_PRIVATE_READ shifts out words of the word file from it and moves it on; ENTDAA and SETDASA give a target without a
dynamic address one (R654). SPI_TRANSACTION shifts out the words from its index (R654); UART_LINE_SENT frees the line's place (R653). Word 0 of the file is 0x0848 and words 4 to 13 are the domains' temperatures (R654). Choices of the model it rests on: log entries 3, 42, 43. -/
def Obligations.PortsAndPins : Prop :=
  (
  (∀ (s : State) (pins : Nat), s.jtagUp = true →
    exec .bypass s = .next { s with board := { s.board with jtag := 0, sample := 0 } } ∧
    exec .idcode s = .next { s with board := { s.board with jtag := 1, sample := idcode } } ∧
    exec (.samplePreload pins) s = .next { s with board := { s.board with jtag := 2, sample := pins } }) ∧
  (fld idcode 31 28 = 1 ∧ fld idcode 27 12 = 0x0848 ∧ fld idcode 11 1 = 0x5C3 ∧ bit idcode 0 = true) ∧
  (∀ s : State, s.jtagUp = true → s.testMode = false → s.flag R.DEBUG_CTRL_SCAN_EN = false →
    let by_ : State := { s with board := { s.board with jtag := 0, sample := 0 } }
    exec .extest s = .next by_ ∧ exec .extestPulse s = .next by_ ∧ exec .extestTrain s = .next by_) ∧
  (∀ s : State, s.jtagUp = true → (s.testMode = true ∨ s.flag R.DEBUG_CTRL_SCAN_EN = true) →
    let on := fun (n : Nat) => ({ s with board := { s.board with jtag := n, extest := true }, guard := { s.guard with out := List.replicate 8 2 } } : State)
    exec .extest s = .next (on 3) ∧ exec .extestPulse s = .next (on 4) ∧ exec .extestTrain s = .next (on 5) ∧ (on 3).halted = true) ∧
  (∀ (s : State) (dr : Nat), s.jtagUp = true →
    let s1 : State := { s with board := { s.board with jtag := 6 } }
    let o := fld dr 61 38 * 4
    (fld dr 63 62 = 0 → exec (.regacc dr) s = .next s1) ∧
    (fld dr 63 62 = 1 → exec (.regacc dr) s = .next (s1.regaccRun false o 0)) ∧
    (fld dr 63 62 = 2 → exec (.regacc dr) s = .next (s1.regaccRun true o (fld dr 31 0))) ∧
    (fld dr 63 62 = 1 → s.testMode = false → s.rd R.DEBUG_CTRL_JTAG_REG = 0 →
      exec (.regacc dr) s = .next { s1 with board := { s1.board with regacc := 2 ^ 63 + 2 ^ 62 } })) ∧
  (∀ (s : State) (off v : Nat) (w : Bool), off < 0x8000 → s.steady = true → v < 2 ^ 32 →
    let s1 := if w then s.dropHeld 0 else s
    exec (.remoteWindowAccess off w v) s = .next (s1.remoteAccess 0 w (off - off % 4) v) ∧
    (s.isMaster = false → exec (.remoteWindowAccess off w v) s =
      .next { s1 with holds := { s1.holds with last := 0 }, chain := { s1.chain with rwinData := 0 } })) ∧
  (∀ s : State, s.hubUp = true →
    (s.chain.rwin = [] → exec .remoteWindowTimeout s = .next s) ∧
    (∀ a t, s.chain.rwin = a :: t → a.start + 100000 ≤ s.now →
      exec .remoteWindowTimeout s = .next ((({ s with chain := { s.chain with rwin := t } } : State).setFlag R.CHAIN_STATUS_RWIN_TIMEOUT true).windowDone
        a.path (if a.write then 0 else 0xFFFFFFFF))))) ∧
  (
  (∀ (s : State) (n : Nat), n < 16 → (s.parked n = true → exec (.parkEnd n) s = .next (s.unpark n) ∧ (s.unpark n).parked n = false ∧
      bit (s.unpark n).board.gpioIn n = bit s.board.pad n) ∧
    (s.parked n = false → exec (.parkEnd n) s = .next s)) ∧
  (∀ (s : State) (n : Nat) (rise : Bool), n < 16 → s.pinsUp = true → exec (.gpioEdge n rise) s = .next (s.pinLevel n rise) ∧
    bit (s.pinLevel n rise).board.pad n = rise) ∧
  (∀ (s : State) (p v : Nat), p < 2 → s.i3cServes p = true →
    exec (.i3cPrivateWrite p v) s = .next { s with board := { s.board with i3cIdx := s.board.i3cIdx.set p (v % 256) } } ∧
    exec (.i3cPrivateRead p v) s = .next { s with board := { s.board with
      shifted := s.fileWords (s.board.i3cIdx.getD p 0) v, i3cIdx := s.board.i3cIdx.set p ((s.board.i3cIdx.getD p 0 + v) % 256) } } ∧
    (s.board.i3cAddr.getD p 0 = 0 →
      exec (.entdaa p v) s = .next { s with board := { s.board with i3cAddr := s.board.i3cAddr.set p (v % 128) } } ∧
      exec (.setdasa p v) s = .next { s with board := { s.board with i3cAddr := s.board.i3cAddr.set p (v % 128) } }) ∧
    (s.board.i3cAddr.getD p 0 ≠ 0 → exec (.entdaa p v) s = .next s ∧ exec (.setdasa p v) s = .next s)) ∧
  (∀ (s : State) (idx n : Nat), s.spiServes = true →
    exec (.spiTransaction idx n) s = .next { s with board := { s.board with shifted := s.fileWords (idx % 256) n } }) ∧
  (∀ s : State, s.hubPowered = true → s.uartOn = true →
    exec .uartLineSent s = .next { s with board := { s.board with uart := s.board.uart.drop 1 } }) ∧
  (∀ (s : State) (n : Nat), (s.fileWords 0 n).length = n ∧ s.fileWord 0 = 0x0848 ∧ (∀ d, d < 10 → s.fileWord (4 + d) = s.rd (R.THERM_DOMAIN_NOW d))))

/-- Error records (R589 to R601). A record of a class below FATAL raised while the hub serves and the log is neither full nor frozen takes the next SEQ, counts in its class, stands in the global log at TAIL, which advances, and is queued for the event rings of R592; a FATAL record asserts FAULT_n, halts the device and
freezes the log, and the first of them stays in FATAL_RECORD (R591, R592, R597, R600, R601). After a halt a record is only counted. The 32 bytes of a record hold its fields where R590 puts them. Choices of the model it rests on: log entry 39. -/
def Obligations.RecordsRaised : Prop :=
  (∀ (s : State) (code cls owner i0 i1 : Nat), cls < fatalClass → owner < 256 → s.halted = false → s.hubAsleep = false → s.flag R.ERRLOG_STATUS_FROZEN = false →
    posCount (s.rd R.ERRLOG_TAIL_POSITION) (s.rd R.ERRLOG_HEAD_POSITION) 64 < 64 →
    let r := s.newRecord code cls owner i0 i1
    let t := s.raise code cls owner i0 i1
    t.errs.seq = (s.errs.seq + 1) % 65536 ∧ t.errs.toRings = s.errs.toRings ++ (s.recordDests r).map (fun d => (⟨d.1, if d.2 then r.mask else r⟩ : RingJob)) ∧
      t.rd R.ERRLOG_TAIL_POSITION = (s.rd R.ERRLOG_TAIL_POSITION + 1) % 128 ∧
      (∀ j, j < 8 → t.word (0xB1000 + 0x20 * (s.rd R.ERRLOG_TAIL_POSITION % 64) + 4 * j) = u32At (r.bytes false) (4 * j)) ∧ t.halted = false ∧ t.mem = s.mem) ∧
  (∀ (s : State) (code owner i0 i1 : Nat), owner < 256 → s.halted = false →
    let t := s.raise code fatalClass owner i0 i1
    t.halted = true ∧ t.errs.faultPin = true ∧ t.flag R.ERRLOG_STATUS_FATAL = true ∧ t.flag R.ERRLOG_STATUS_FROZEN = true ∧
      t.flag R.ERRLOG_FATAL_VALID_VALID = true ∧ t.mem = s.mem ∧
      (s.flag R.ERRLOG_FATAL_VALID_VALID = false → ∀ j, j < 8 → t.word (0xB0100 + 4 * j) = u32At ((s.newRecord code fatalClass owner i0 i1).bytes false) (4 * j))) ∧
  (∀ (s : State) (code cls owner i0 i1 : Nat), s.halted = true → s.raise code cls owner i0 i1 = s.countRecord cls) ∧
  (∀ (r : Record) (phase : Bool), r.code < 65536 → r.cls < 8 → r.inst < 256 → r.device < 256 → r.genLo < 256 → r.seq < 65536 → r.time < 2 ^ 64 → r.info0 < 2 ^ 64 → r.info1 < 2 ^ 64 →
    (r.bytes phase).length = 32 ∧ u16At (r.bytes phase) 0 = r.code ∧ fld (u8At (r.bytes phase) 2) 2 0 = r.cls ∧ bit (u8At (r.bytes phase) 2) 3 = phase ∧
      bit (u8At (r.bytes phase) 2) 4 = r.masked ∧ bit (u8At (r.bytes phase) 2) 5 = r.chain ∧ u8At (r.bytes phase) 3 = r.inst ∧ u8At (r.bytes phase) 4 = r.device ∧
      u8At (r.bytes phase) 5 = r.genLo ∧ u16At (r.bytes phase) 6 = r.seq ∧ u64At (r.bytes phase) 8 = r.time ∧ u64At (r.bytes phase) 16 = r.info0 ∧
      u64At (r.bytes phase) 24 = r.info1)

/-- The record engine and what acknowledges and follows it (R595 to R601, R609, R657). EVENT_RING_WRITE takes one record to its ring, and waits while the link or its crossing is down. ERRLOG_HEAD_WRITE frees records up to the position written, and one beyond TAIL changes nothing. DOUBLE_FAULT halts the device with its record in FATAL_RECORD only.
FATAL_VALID_CLEAR with 1 clears the record. FW_WATCHDOG restarts a control processor with FW_RESTART, and a second expiry within 1 s is FATAL; FW_RESTART_DONE with the other up runs the commands that waited. THERMAL_TRIP is FATAL and switches off the rails of the domain. Choices of the model it rests on: log entries 3, 39. -/
def Obligations.ErrorHandling : Prop :=
  (∀ s : State, s.ready = true → s.hubAsleep = false → s.halted = false → s.reportsToMaster = false →
    (s.linkOpen = false → exec .eventRingWrite s = .next s) ∧
    (s.linkOpen = true → s.markerDue = none → ∀ j t, s.errs.toRings = j :: t →
      exec .eventRingWrite s = .next (({ s with errs := { s.errs with toRings := t } } : State).deliverEvent j.ring j.record)) ∧
    (s.linkOpen = true → ∀ f, s.markerDue = some f → exec .eventRingWrite s = .next (s.overflowMarker f))) ∧
  (∀ (s : State) (v : Nat), s.steady = true → s.flag R.ERRLOG_STATUS_FROZEN = false →
    let t := s.rd R.ERRLOG_TAIL_POSITION
    (posCount t (v % 128) 64 ≤ posCount t (s.rd R.ERRLOG_HEAD_POSITION) 64 →
      exec (.errlogHeadWrite v) s = .next ((s.dropHeld 0).wr R.ERRLOG_HEAD_POSITION (v % 128))) ∧
    (posCount t (s.rd R.ERRLOG_HEAD_POSITION) 64 < posCount t (v % 128) 64 → exec (.errlogHeadWrite v) s = .next (s.dropHeld 0))) ∧
  (∀ (s : State) (code seq : Nat), s.aon = true → s.hubAsleep = false → code < 65536 → seq < 65536 →
    ∃ t, exec (.doubleFault code seq) s = .next t ∧ t.halted = true ∧ t.errs.faultPin = true ∧ t.errs.toRings = s.errs.toRings ∧
      t.rd R.ERRLOG_TAIL_POSITION = s.rd R.ERRLOG_TAIL_POSITION) ∧
  (∀ (s : State) (v : Nat), s.steady = true →
    (bit v 0 = false → exec (.fatalValidClear v) s = .next (s.dropHeld 0)) ∧
    (bit v 0 = true → exec (.fatalValidClear v) s = .next (((s.dropHeld 0).setWords 0xB0100 (List.replicate 8 0)).setFlag R.ERRLOG_FATAL_VALID_VALID false))) ∧
  (∀ (s : State) (cp : Nat), cp < 2 → s.hubUp = true → cp ∉ s.errs.restarting →
    let last := Tab.get (fun _ => 0) s.errs.wdLast cp
    let n := Tab.get (fun _ => 0) s.errs.restarts cp + 1
    let s1 : State := { s with errs := { s.errs with wdLast := Tab.put (fun _ => 0) s.errs.wdLast cp (s.now + 1) } }
    ((last = 0 ∨ last - 1 + 1000000000 ≤ s.now) → exec (.fwWatchdog cp) s =
      .next (({ s1 with errs := { s1.errs with restarting := s1.errs.restarting ++ [cp], restarts := Tab.put (fun _ => 0) s1.errs.restarts cp n } } : State).raise
        Rc.fwRestart deviceClass noOwner cp n)) ∧
    (last ≠ 0 → s.now < last - 1 + 1000000000 → exec (.fwWatchdog cp) s = .next (s1.raise Rc.fwFatal fatalClass noOwner cp 0))) ∧
  (∀ (s : State) (cp : Nat) (keyOk : Bool), cp < 2 → s.hubUp = true →
    (cp ∉ s.errs.restarting → exec (.fwRestartDone cp keyOk) s = .next s) ∧
    (s.errs.restarting = [cp] → exec (.fwRestartDone cp keyOk) s = .next (s.rings.fwWaiting.foldl (fun a c => a.runWaiting keyOk c)
      ({ s with errs := { s.errs with restarting := [] }, rings := { s.rings with fwWaiting := [] } } : State)))) ∧
  (∀ (s : State) (d : Nat), d < 9 → s.aon = true → s.domainPowered d = true → s.halted = false →
    ∃ t, exec (.thermalTrip d) s = .next t ∧ t.halted = true ∧ (∀ r ∈ tripRails d, r ∈ t.volt.off) ∧ t.mem = s.mem) ∧
  (∀ s : State, s.aon = true → s.domainPowered 9 = true →
    let s1 := s.raise Rc.thermalTrip fatalClass noOwner 9 0
    let off := (tripRails 9).filter fun r => !s1.volt.off.contains r
    exec (.thermalTrip 9) s = .next (({ s1 with
      volt := { s1.volt with off := s1.volt.off ++ off }
      rings := { s1.rings with linkUp := s1.rings.linkUp && true } } : State).guardDown false))

/-- Boot and the resets (R507, R610 to R618). V_AON_RISE starts the cold boot with the straps latched, and while the supply is up changes nothing; V_AON_LOSS leaves what outlasts every supply (R610, R636). COLD_RESET with good firmware powers the rails, draws the key pairs and records the dies (R611, R614); BOOT_READY sets READY. LOAD_CMD_GO verifies a host image
(R613). RESET_CTRL_WARM with its key resets warm, unless an exit is in progress, for whose end it waits; RESET_CTRL_COLD with its key resets cold; another key changes nothing (R615 to R618).

The link, PERST_n and the alarms (R410, R499, R615, R619 to R621, R652). PERST_N_ASSERT drops the link and resets warm in RUN, IDLE and SLEEP; in DEEP and OFF it resets nothing. PERST_N_DEASSERT releases WAKE_n and is wake source 2. PCIE_SURPRISE_DOWN drops the link and nothing else; PCIE_LINK_UP brings it up and writes what waited. ALARM_FIRE of a due alarm fires it: FIRED
is set, ENABLE cleared; one that is not due does not occur. ALARM_CTRL_WRITE writes the control, and an alarm whose time has passed fires at once; TOUT_PULSE_END ends a pulse that is over. Choices of the model it rests on: log entries 3, 8, 12, 40. -/
def Obligations.BootAndLink : Prop :=
  (
  (∀ (s : State) (straps : Nat), s.aon = false → straps < 16 →
    exec (.vAonRise straps) s = .next (({ s with board := { s.board with pins := straps } } : State).coldStart 0 false)) ∧
  (∀ (s : State) (straps : Nat), s.aon = true → exec (.vAonRise straps) s = .next s) ∧
  (∀ s : State, s.aon = true → exec .vAonLoss s = .next s.flashCut.unpowered) ∧
  (∀ s : State, s.unpowered.mem.t0 = [] ∧ s.unpowered.mem.t1 = [] ∧ s.unpowered.mem.t2 = [] ∧ s.unpowered.flash = s.flash ∧ s.unpowered.regs = [] ∧
    s.unpowered.ready = false ∧ s.unpowered.aon = false) ∧
  (∀ (s : State) (keyOk : Bool) (dies : Nat), s.board.boot = 1 → s.halted = false → s.testMode = false → s.loadFirmware.2 = true →
    exec (.coldReset keyOk dies 0) s = .next (((s.loadFirmware.1.railsBoot.keysBoot keyOk).diesBoot dies).bootAt 5) ∧
    exec (.coldReset keyOk dies 1) s = .next (s.loadFirmware.1.raise Rc.pstateTimeout fatalClass noOwner PState.off.code 1)) ∧
  (∀ (s : State) (keyOk : Bool) (dies fail : Nat), s.board.boot ≠ 1 → exec (.coldReset keyOk dies fail) s = .next s) ∧
  (∀ s : State, s.board.boot = 5 → s.halted = false →
    ∃ t, exec .bootReady s = .next t ∧ t.ready = true ∧ t.board.boot = 7 ∧ t.mem = s.mem) ∧
  (∀ s : State, s.bootUp = true → s.ready = false → s.rings.linkUp = true → s.board.boot ≠ 5 → s.hostMode = true →
    let img := s.hostRead (s.rd R.BOOT_LOAD_ADDR_ADDR * 64) (s.rd R.BOOT_LOAD_LEN_BYTES)
    ∃ t, exec .loadCmdGo s = .next t ∧ t.rd R.BOOT_STATUS_LOAD_RESULT = (if Config.packageOk img then 1 else 2) ∧
      t.flag R.BOOT_STATUS_HOST_LOADED = (Config.packageOk img || s.flag R.BOOT_STATUS_HOST_LOADED) ∧
      (Config.packageOk img = false → t = (s.dropHeld 0).wr R.BOOT_STATUS_LOAD_RESULT 2)) ∧
  (∀ (s : State) (key dies : Nat) (keyOk : Bool), s.bootUp = true → s.ready = true →
    (key ≠ 0x4852 → exec (.resetCtrlWarm key keyOk dies) s = .next s ∧ exec (.resetCtrlCold key) s = .next s) ∧
    (s.power.exit = 0 → exec (.resetCtrlWarm 0x4852 keyOk dies) s = .next ((s.dropHeld 0).warmReset 3 dies keyOk)) ∧
    (s.power.exit ≠ 0 → exec (.resetCtrlWarm 0x4852 keyOk dies) s =
      .next { s.dropHeld 0 with power := { s.power with warmAfter := some (s.power.warmAfter.getD (3, dies)) } }) ∧
    exec (.resetCtrlCold 0x4852) s = .next ((s.dropHeld 0).flashDrain.coldStart 1 true)) ∧
  (∀ (s : State) (cause : Nat) (keep : Bool), cause < 8 → (s.coldStart cause keep).rd R.BOOT_STATUS_LAST_RESET = cause ∧ (s.coldStart cause keep).ready = false ∧
    (s.coldStart cause keep).now = 0 ∧ (s.coldStart cause keep).board.straps = s.board.pins ∧ (s.coldStart cause keep).mem.t2 = [])) ∧
  (
  (∀ (s : State) (keyOk : Bool) (dies : Nat), s.aon = true → s.flag R.ERRLOG_STATUS_FATAL = false →
    let s1 : State := { s with rings := { s.rings with linkUp := false }, power := { s.power with perst := true } }
    (s.hubAsleep = true → exec (.perstNAssert keyOk dies) s = .next s1) ∧
    (s.hubAsleep = false → s.ready = true → s.board.extest = false → s.power.exit = 0 → exec (.perstNAssert keyOk dies) s = .next (s1.warmReset 4 dies keyOk))) ∧
  (∀ s : State, s.aon = true → exec .perstNDeassert s =
    .next (({ s with power := { s.power with perst := false, wakePin := false } } : State).wake 2 0)) ∧
  (∀ s : State, exec .pcieSurpriseDown s = .next { s with rings := { s.rings with linkUp := false } }) ∧
  (∀ s : State, s.hubUp = true → s.power.perst = false → s.aon = true → s.testMode = false → 9 ∉ s.volt.off →
    exec .pcieLinkUp s = .next ({ s with rings := { s.rings with linkUp := true } } : State).drainHost) ∧
  (∀ (s : State) (n : Nat), n < 4 →
    (s.alarmDue n = true → exec (.alarmFire n) s = .next (s.fire n)) ∧ (s.alarmDue n = false → exec (.alarmFire n) s = .next s) ∧
    (s.fire n).flag (R.TIME_ALARM_CTRL_FIRED n) = true ∧ (s.fire n).flag (R.TIME_ALARM_CTRL_ENABLE n) = false ∧ (s.fire n).mem = s.mem) ∧
  (∀ (s : State) (n v : Nat), n < 4 → s.hubUp = true →
    let s1 := ((s.dropHeld 0).setWord (R.TIME_ALARM_CTRL_ENABLE n).key (v &&& 0xE03F0000)).setFlag (R.TIME_ALARM_CTRL_FIRED n)
      (s.flag (R.TIME_ALARM_CTRL_FIRED n) && !bit v 28)
    exec (.alarmCtrlWrite n v) s = .next ((if s1.alarmDue n then s1.fire n else s1).pcieTouch 0)) ∧
  (∀ (s : State) (n : Nat), n < 4 → exec (.toutPulseEnd n) s =
    .next { s with board := { s.board with tout := s.board.tout.filter fun t => !(t.1 == n && decide (t.2 ≤ s.now)) } }))

/-- Every command whose operands name units the device has answers a next state, in every state; one whose operands do not faults with noSuchUnit, and no command is refused (log entries 2 and 3). -/
def Obligations.EveryCommandRuns : Prop :=
  ∀ (i : Instr) (s : State),
    (i.wellFormed = true → ∃ t, exec i s = .next t) ∧ (i.wellFormed = false → exec i s = .fault .noSuchUnit)

/-- The invariant that every step keeps: registers and memory stay in canonical form, so that equal contents are equal data, and every command that waits is well formed; a step takes the front command from the queue and changes nothing else of it. It holds of every state, reached or not. Choices of the model it rests on: log entries 11, 15. -/
def Obligations.StepKeepsForm : Prop :=
  ∀ s t : State, s.regsOk → s.memOk → s.queueOk → step s = .next t → t.regsOk ∧ t.memOk ∧ t.queueOk ∧ t.pending = s.pending.tail

/-- The activation codes of an evaluation's rows (R71, R73): in byte mode code `i` is byte `i` of the input, in nibble mode the low half of byte `i / 2` for an even `i` and the
high half for an odd one; nothing beyond those bytes matters. -/
def Obligations.RowCodes : Prop :=
  ∀ (bs : List Nat) (n : Nat), (∀ b ∈ bs, b < 256) →
    (∀ i, i < n → (rowCodes false bs n).getD i 0 = bs.getD i 0) ∧
    (∀ i, i < n → (rowCodes true bs n).getD i 0 = if i % 2 = 0 then bs.getD (i / 2) 0 % 16 else bs.getD (i / 2) 0 / 16) ∧
    (∀ nib, (rowCodes nib bs n).length = n ∧ rowCodes nib (bs.take (codeBytes nib n)) n = rowCodes nib bs n)

/-- The converter (R89): with step 2^(−s), the code is the column charge over the step, rounded half up and clamped to the `b`-bit range, the saturation bit says that it was clamped,
and the raw value is the code × 2^(8 − s). A converter with its nonlinearity (of R92) saturates where that one does, stays within one code of it and is monotonic. -/
def Obligations.ConverterCodes : Prop :=
  (∀ (n : Int) (d b s : Nat), 0 < d → 0 < b → s ≤ 7 →
    let q : Int := ⌊((n : ℚ) / d) / (1 / 2 ^ s) + 1 / 2⌋
    let lo : Int := -2 ^ (b - 1)
    let hi : Int := 2 ^ (b - 1) - 1
    (convert n d b s).q = max lo (min hi q) ∧ ((convert n d b s).sat = true ↔ q < lo ∨ hi < q) ∧
    rawOf (convert n d b s).q s * 2 ^ s = (convert n d b s).q * 2 ^ 8) ∧
  (∀ (draw : Nat → Int) (n m : Int) (d b s : Nat), 0 < d → 0 < b → n ≤ m →
    (convertBy draw n d b s).sat = (convert n d b s).sat ∧
    (convertBy draw n d b s).q ≤ (convert n d b s).q + 1 ∧ (convert n d b s).q ≤ (convertBy draw n d b s).q + 1 ∧
    (convertBy draw n d b s).q ≤ (convertBy draw m d b s).q)

/-- Scaling and tables of the engine periphery (R128, R131, R132): the pre-activation is v × SCALE shifted right by 12 + PSHIFT with half added, plus the offset, saturated to INT16, and it
clips exactly when it saturates; a fine table of 256 entries and a coarse one of 16 interpolate between the entry at the input's place and the next, the last segment extrapolating, and the
result lies between the two. -/
def Obligations.PeripheryScaling : Prop :=
  (∀ (v offset : Int) (scale pshift : Nat),
    let z := (v * scale + 1 <<< (11 + pshift)) >>> (12 + pshift) + offset
    preAct v scale offset pshift = (max (-32768) (min 32767 z), decide (32767 < z ∨ z < -32768))) ∧
  (∀ (t : Nat → Int) (p : Int), (∀ i, -32768 ≤ t i ∧ t i ≤ 32767) → -32768 ≤ p → p ≤ 32767 →
    let seg := fun (i : Nat) (last : Nat) => if i < last then t (i + 1) else max (-32768) (min 32767 (2 * t last - t (last - 1)))
    let fi := ((p + 32768) / 256).toNat
    let ci := ((p + 32768) / 4096).toNat
    interp 8 t p = t fi + ((seg fi 255 - t fi) * ((p + 32768) % 256) + 128) >>> 8 ∧
    interp 4 t p = t ci + ((seg ci 15 - t ci) * ((p + 32768) % 4096) + 2048) >>> 12 ∧
    min (t fi) (seg fi 255) ≤ interp 8 t p ∧ interp 8 t p ≤ max (t fi) (seg fi 255) ∧
    min (t ci) (seg ci 15) ≤ interp 4 t p ∧ interp 4 t p ≤ max (t ci) (seg ci 15))

/-- Output codes (R137): the 8-bit code of a value is the number of the slot's 255 thresholds at or below it, the 4-bit code the number among the first 15, whatever their order. The codes stand
one in a byte, or two in a byte with the even one low (R138). -/
def Obligations.OutputCodes : Prop :=
  ∀ (ts vs : List Int), ts.length = 255 →
    let among := fun (m : Nat) (x : Int) => ((Finset.range m).filter fun k => ts.getD k 0 ≤ x).card
    (∀ o, o < vs.length → (outBytes 1 ts vs).getD o 0 = among 255 (vs.getD o 0)) ∧
    (∀ o, o < vs.length → (if o % 2 = 0 then (outBytes 2 ts vs).getD (o / 2) 0 % 16 else (outBytes 2 ts vs).getD (o / 2) 0 / 16) = among 15 (vs.getD o 0)) ∧
    (outBytes 1 ts vs).length = vs.length ∧ (outBytes 2 ts vs).length = (vs.length + 1) / 2 ∧ (∀ x, among 255 x ≤ 255 ∧ among 15 x ≤ 15)

/-- The cap in force (R538): CAP, or the smaller of CAP and the chain budget where one is set; in legacy bias mode the largest of 60, 90, 120 and 180 W that does not exceed that value, and 60 W below 60 W. -/
def Obligations.CapInForce : Prop :=
  ∀ s : State,
    let b := s.rd R.PRESS_CHAIN_BUDGET_MW
    let c := if b = 0 then s.capMw else min s.capMw b
    (s.legacy = false → s.capApplied = c) ∧
    (s.legacy = true → c < 60000 → s.capApplied = 60000) ∧
    (s.legacy = true → 60000 ≤ c → s.capApplied ∈ [60000, 90000, 120000, 180000] ∧ s.capApplied ≤ c ∧
      ∀ x ∈ [60000, 90000, 120000, 180000], x ≤ c → x ≤ s.capApplied)
end

