-- ==== Sys2Proof/Laws/Exec.lean ====
section
/-!
SUPPORT. What `exec` calls, one lemma for each command: rewriting with these costs nothing, where unfolding `exec` compares 260 arms.
-/

namespace Sys2Proof.Machine

@[simp] theorem exec_workRingDoorbell (s : State) (f : Nat) (w : Nat) (value : Nat) (bytes : Nat) : exec (.workRingDoorbell f w value bytes) s = execWorkRingDoorbell f w value bytes s := rfl
@[simp] theorem exec_doneRingDoorbell (s : State) (f : Nat) (d : Nat) (value : Nat) (bytes : Nat) : exec (.doneRingDoorbell f d value bytes) s = execDoneRingDoorbell f d value bytes s := rfl
@[simp] theorem exec_eventRingDoorbell (s : State) (f : Nat) (value : Nat) (bytes : Nat) : exec (.eventRingDoorbell f value bytes) s = execEventRingDoorbell f value bytes s := rfl
@[simp] theorem exec_descriptorFetch (s : State) (f : Nat) (w : Nat) (n : Nat) : exec (.descriptorFetch f w n) s = execDescriptorFetch f w n s := rfl
@[simp] theorem exec_nop (s : State) (f : Nat) (w : Nat) : exec (.nop f w) s = execNop f w s := rfl
@[simp] theorem exec_runStep (s : State) (f : Nat) (w : Nat) : exec (.runStep f w) s = execRunStep f w s := rfl
@[simp] theorem exec_stepBind (s : State) (uid : Nat) (cal : List Bool) : exec (.stepBind uid cal) s = execStepBind uid cal s := rfl
@[simp] theorem exec_stepComplete (s : State) (uid : Nat) : exec (.stepComplete uid) s = execStepComplete uid s := rfl
@[simp] theorem exec_dmaCopy (s : State) (f : Nat) (w : Nat) : exec (.dmaCopy f w) s = execDmaCopy f w s := rfl
@[simp] theorem exec_dmaCopyComplete (s : State) (uid : Nat) : exec (.dmaCopyComplete uid) s = execDmaCopyComplete uid s := rfl
@[simp] theorem exec_bufAlloc (s : State) (f : Nat) (w : Nat) : exec (.bufAlloc f w) s = execBufAlloc f w s := rfl
@[simp] theorem exec_bufAllocZeroDone (s : State) (uid : Nat) : exec (.bufAllocZeroDone uid) s = execBufAllocZeroDone uid s := rfl
@[simp] theorem exec_bufFree (s : State) (f : Nat) (w : Nat) : exec (.bufFree f w) s = execBufFree f w s := rfl
@[simp] theorem exec_bufFreeResume (s : State) (uid : Nat) : exec (.bufFreeResume uid) s = execBufFreeResume uid s := rfl
@[simp] theorem exec_programDecks (s : State) (f : Nat) (w : Nat) : exec (.programDecks f w) s = execProgramDecks f w s := rfl
@[simp] theorem exec_rinse (s : State) (f : Nat) (w : Nat) : exec (.rinse f w) s = execRinse f w s := rfl
@[simp] theorem exec_programTargetStart (s : State) (uid : Nat) (pos : Nat) : exec (.programTargetStart uid pos) s = execProgramTargetStart uid pos s := rfl
@[simp] theorem exec_claim (s : State) (uid : Nat) (pos : Nat) : exec (.claim uid pos) s = execClaim uid pos s := rfl
@[simp] theorem exec_rowPass (s : State) (uid : Nat) (pos : Nat) (reads : List (Nat × Nat × Nat)) : exec (.rowPass uid pos reads) s = execRowPass uid pos reads s := rfl
@[simp] theorem exec_commit (s : State) (uid : Nat) (pos : Nat) : exec (.commit uid pos) s = execCommit uid pos s := rfl
@[simp] theorem exec_vprogFault (s : State) : exec (.vprogFault) s = execVprogFault s := rfl
@[simp] theorem exec_pegSignal (s : State) (f : Nat) (w : Nat) : exec (.pegSignal f w) s = execPegSignal f w s := rfl
@[simp] theorem exec_pegWait (s : State) (f : Nat) (w : Nat) : exec (.pegWait f w) s = execPegWait f w s := rfl
@[simp] theorem exec_fence (s : State) (f : Nat) (w : Nat) : exec (.fence f w) s = execFence f w s := rfl
@[simp] theorem exec_powerHint (s : State) (f : Nat) (w : Nat) : exec (.powerHint f w) s = execPowerHint f w s := rfl
@[simp] theorem exec_selfTest (s : State) (f : Nat) (w : Nat) : exec (.selfTest f w) s = execSelfTest f w s := rfl
@[simp] theorem exec_calibrate (s : State) (f : Nat) (w : Nat) : exec (.calibrate f w) s = execCalibrate f w s := rfl
@[simp] theorem exec_testDeadline (s : State) (uid : Nat) (pos : Nat) : exec (.testDeadline uid pos) s = execTestDeadline uid pos s := rfl
@[simp] theorem exec_lend (s : State) (f : Nat) (w : Nat) : exec (.lend f w) s = execLend f w s := rfl
@[simp] theorem exec_reclaim (s : State) (f : Nat) (w : Nat) : exec (.reclaim f w) s = execReclaim f w s := rfl
@[simp] theorem exec_lendExpiry (s : State) (e : Nat) : exec (.lendExpiry e) s = execLendExpiry e s := rfl
@[simp] theorem exec_streamBind (s : State) (f : Nat) (w : Nat) : exec (.streamBind f w) s = execStreamBind f w s := rfl
@[simp] theorem exec_instReset (s : State) (f : Nat) (w : Nat) : exec (.instReset f w) s = execInstReset f w s := rfl
@[simp] theorem exec_completionRecordWrite (s : State) : exec (.completionRecordWrite) s = execCompletionRecordWrite s := rfl
@[simp] theorem exec_heldRecordRelease (s : State) (f : Nat) (d : Nat) : exec (.heldRecordRelease f d) s = execHeldRecordRelease f d s := rfl
@[simp] theorem exec_wrCtrlEnable (s : State) (f : Nat) (w : Nat) (value : Nat) : exec (.wrCtrlEnable f w value) s = execWrCtrlEnable f w value s := rfl
@[simp] theorem exec_drCtrlEnable (s : State) (f : Nat) (d : Nat) (value : Nat) : exec (.drCtrlEnable f d value) s = execDrCtrlEnable f d value s := rfl
@[simp] theorem exec_evCtrlEnable (s : State) (f : Nat) (value : Nat) : exec (.evCtrlEnable f value) s = execEvCtrlEnable f value s := rfl
@[simp] theorem exec_operationStart (s : State) (uid : Nat) (st : Nat) (op : Nat) : exec (.operationStart uid st op) s = execOperationStart uid st op s := rfl
@[simp] theorem exec_eval (s : State) (uid : Nat) (st : Nat) (op : Nat) (oor : Bool) : exec (.eval uid st op oor) s = execEval uid st op oor s := rfl
@[simp] theorem exec_evalHandoff (s : State) (e : Nat) : exec (.evalHandoff e) s = execEvalHandoff e s := rfl
@[simp] theorem exec_evalPleat (s : State) (uid : Nat) (st : Nat) (op : Nat) (cal : Bool) (oor : Bool) : exec (.evalPleat uid st op cal oor) s = execEvalPleat uid st op cal oor s := rfl
@[simp] theorem exec_pleatHandoff (s : State) (e : Nat) : exec (.pleatHandoff e) s = execPleatHandoff e s := rfl
@[simp] theorem exec_act (s : State) (uid : Nat) (st : Nat) (op : Nat) : exec (.act uid st op) s = execAct uid st op s := rfl
@[simp] theorem exec_pool (s : State) (uid : Nat) (st : Nat) (op : Nat) : exec (.pool uid st op) s = execPool uid st op s := rfl
@[simp] theorem exec_vecAdd (s : State) (uid : Nat) (st : Nat) (op : Nat) : exec (.vecAdd uid st op) s = execVecAdd uid st op s := rfl
@[simp] theorem exec_vecSub (s : State) (uid : Nat) (st : Nat) (op : Nat) : exec (.vecSub uid st op) s = execVecSub uid st op s := rfl
@[simp] theorem exec_vecMax (s : State) (uid : Nat) (st : Nat) (op : Nat) : exec (.vecMax uid st op) s = execVecMax uid st op s := rfl
@[simp] theorem exec_vecMul (s : State) (uid : Nat) (st : Nat) (op : Nat) : exec (.vecMul uid st op) s = execVecMul uid st op s := rfl
@[simp] theorem exec_vecScale (s : State) (uid : Nat) (st : Nat) (op : Nat) : exec (.vecScale uid st op) s = execVecScale uid st op s := rfl
@[simp] theorem exec_vecCvt (s : State) (uid : Nat) (st : Nat) (op : Nat) : exec (.vecCvt uid st op) s = execVecCvt uid st op s := rfl
@[simp] theorem exec_vecQuant (s : State) (uid : Nat) (st : Nat) (op : Nat) : exec (.vecQuant uid st op) s = execVecQuant uid st op s := rfl
@[simp] theorem exec_vectorOpComplete (s : State) (uid : Nat) (st : Nat) (op : Nat) : exec (.vectorOpComplete uid st op) s = execVectorOpComplete uid st op s := rfl
@[simp] theorem exec_move (s : State) (uid : Nat) (st : Nat) (op : Nat) : exec (.move uid st op) s = execMove uid st op s := rfl
@[simp] theorem exec_moveComplete (s : State) (uid : Nat) (st : Nat) (op : Nat) : exec (.moveComplete uid st op) s = execMoveComplete uid st op s := rfl
@[simp] theorem exec_prefetch (s : State) (uid : Nat) (st : Nat) (op : Nat) : exec (.prefetch uid st op) s = execPrefetch uid st op s := rfl
@[simp] theorem exec_matmul (s : State) (uid : Nat) (st : Nat) (op : Nat) : exec (.matmul uid st op) s = execMatmul uid st op s := rfl
@[simp] theorem exec_batched (s : State) (uid : Nat) (st : Nat) (op : Nat) : exec (.batched uid st op) s = execBatched uid st op s := rfl
@[simp] theorem exec_gather (s : State) (uid : Nat) (st : Nat) (op : Nat) : exec (.gather uid st op) s = execGather uid st op s := rfl
@[simp] theorem exec_scatter (s : State) (uid : Nat) (st : Nat) (op : Nat) : exec (.scatter uid st op) s = execScatter uid st op s := rfl
@[simp] theorem exec_scatterAdd (s : State) (uid : Nat) (st : Nat) (op : Nat) : exec (.scatterAdd uid st op) s = execScatterAdd uid st op s := rfl
@[simp] theorem exec_qk (s : State) (uid : Nat) (st : Nat) (op : Nat) : exec (.qk uid st op) s = execQk uid st op s := rfl
@[simp] theorem exec_av (s : State) (uid : Nat) (st : Nat) (op : Nat) : exec (.av uid st op) s = execAv uid st op s := rfl
@[simp] theorem exec_rope (s : State) (uid : Nat) (st : Nat) (op : Nat) : exec (.rope uid st op) s = execRope uid st op s := rfl
@[simp] theorem exec_rms (s : State) (uid : Nat) (st : Nat) (op : Nat) : exec (.rms uid st op) s = execRms uid st op s := rfl
@[simp] theorem exec_layer (s : State) (uid : Nat) (st : Nat) (op : Nat) : exec (.layer uid st op) s = execLayer uid st op s := rfl
@[simp] theorem exec_softmax (s : State) (uid : Nat) (st : Nat) (op : Nat) : exec (.softmax uid st op) s = execSoftmax uid st op s := rfl
@[simp] theorem exec_topk (s : State) (uid : Nat) (st : Nat) (op : Nat) : exec (.topk uid st op) s = execTopk uid st op s := rfl
@[simp] theorem exec_peBlockStep (s : State) (cl : Nat) : exec (.peBlockStep cl) s = execPeBlockStep cl s := rfl
@[simp] theorem exec_peOperationComplete (s : State) (cl : Nat) : exec (.peOperationComplete cl) s = execPeOperationComplete cl s := rfl
@[simp] theorem exec_pegAdd (s : State) (uid : Nat) (st : Nat) (op : Nat) : exec (.pegAdd uid st op) s = execPegAdd uid st op s := rfl
@[simp] theorem exec_pegSet (s : State) (uid : Nat) (st : Nat) (op : Nat) : exec (.pegSet uid st op) s = execPegSet uid st op s := rfl
@[simp] theorem exec_pegWaitGe (s : State) (uid : Nat) (st : Nat) (op : Nat) : exec (.pegWaitGe uid st op) s = execPegWaitGe uid st op s := rfl
@[simp] theorem exec_pegWaitEq (s : State) (uid : Nat) (st : Nat) (op : Nat) : exec (.pegWaitEq uid st op) s = execPegWaitEq uid st op s := rfl
@[simp] theorem exec_nopOp (s : State) (uid : Nat) (st : Nat) (op : Nat) : exec (.nopOp uid st op) s = execNopOp uid st op s := rfl
@[simp] theorem exec_waitRegistrationRetry (s : State) (n : Nat) : exec (.waitRegistrationRetry n) s = execWaitRegistrationRetry n s := rfl
@[simp] theorem exec_pegWatchdog (s : State) (n : Nat) : exec (.pegWatchdog n) s = execPegWatchdog n s := rfl
@[simp] theorem exec_aliasAdd (s : State) (f : Nat) (a : Nat) (part : Nat) (value : Nat) : exec (.aliasAdd f a part value) s = execAliasAdd f a part value s := rfl
@[simp] theorem exec_aliasSet (s : State) (f : Nat) (a : Nat) (part : Nat) (value : Nat) : exec (.aliasSet f a part value) s = execAliasSet f a part value s := rfl
@[simp] theorem exec_pegSnapTake (s : State) : exec (.pegSnapTake) s = execPegSnapTake s := rfl
@[simp] theorem exec_prefetchEntryIssue (s : State) (uid : Nat) (k : Nat) : exec (.prefetchEntryIssue uid k) s = execPrefetchEntryIssue uid k s := rfl
@[simp] theorem exec_prefetchEntryDone (s : State) (uid : Nat) (k : Nat) : exec (.prefetchEntryDone uid k) s = execPrefetchEntryDone uid k s := rfl
@[simp] theorem exec_tileExpand (s : State) (uid : Nat) (k : Nat) (bad : Bool) : exec (.tileExpand uid k bad) s = execTileExpand uid k bad s := rfl
@[simp] theorem exec_tileReread (s : State) (uid : Nat) (k : Nat) (bad : Bool) : exec (.tileReread uid k bad) s = execTileReread uid k bad s := rfl
@[simp] theorem exec_stepLateFetch (s : State) (uid : Nat) (cl : Nat) : exec (.stepLateFetch uid cl) s = execStepLateFetch uid cl s := rfl
@[simp] theorem exec_backgroundVisit (s : State) (e : Nat) : exec (.backgroundVisit e) s = execBackgroundVisit e s := rfl
@[simp] theorem exec_checkEvaluationDone (s : State) (e : Nat) : exec (.checkEvaluationDone e) s = execCheckEvaluationDone e s := rfl
@[simp] theorem exec_checkRetry (s : State) (e : Nat) : exec (.checkRetry e) s = execCheckRetry e s := rfl
@[simp] theorem exec_darnComplete (s : State) (e : Nat) (ok : Bool) : exec (.darnComplete e ok) s = execDarnComplete e ok s := rfl
@[simp] theorem exec_columnCalibration (s : State) (e : Nat) : exec (.columnCalibration e) s = execColumnCalibration e s := rfl
@[simp] theorem exec_referenceRecalibration (s : State) (r : Nat) : exec (.referenceRecalibration r) s = execReferenceRecalibration r s := rfl
@[simp] theorem exec_sensorSample (s : State) (temps : List (Nat × Nat × Nat)) : exec (.sensorSample temps) s = execSensorSample temps s := rfl
@[simp] theorem exec_scrubBlock (s : State) (find : Nat) : exec (.scrubBlock find) s = execScrubBlock find s := rfl
@[simp] theorem exec_pageMoveComplete (s : State) (page : Nat) : exec (.pageMoveComplete page) s = execPageMoveComplete page s := rfl
@[simp] theorem exec_packetAtHem (s : State) (dom : Nat) (uid : Nat) (st : Nat) (op : Nat) : exec (.packetAtHem dom uid st op) s = execPacketAtHem dom uid st op s := rfl
@[simp] theorem exec_domainDown (s : State) (uid : Nat) (st : Nat) (op : Nat) : exec (.domainDown uid st op) s = execDomainDown uid st op s := rfl
@[simp] theorem exec_skewMonitorTrip (s : State) (d : Nat) (x : Nat) : exec (.skewMonitorTrip d x) s = execSkewMonitorTrip d x s := rfl
@[simp] theorem exec_skewMonitorRelease (s : State) (d : Nat) (x : Nat) : exec (.skewMonitorRelease d x) s = execSkewMonitorRelease d x s := rfl
@[simp] theorem exec_instSelWrite (s : State) (value : Nat) : exec (.instSelWrite value) s = execInstSelWrite value s := rfl
@[simp] theorem exec_create (s : State) (keyOk : Bool) : exec (.create keyOk) s = execCreate keyOk s := rfl
@[simp] theorem exec_apply (s : State) : exec (.apply) s = execApply s := rfl
@[simp] theorem exec_reset (s : State) (keyOk : Bool) : exec (.reset keyOk) s = execReset keyOk s := rfl
@[simp] theorem exec_destroy (s : State) (keyOk : Bool) : exec (.destroy keyOk) s = execDestroy keyOk s := rfl
@[simp] theorem exec_inflightZero (s : State) (inst : Nat) : exec (.inflightZero inst) s = execInflightZero inst s := rfl
@[simp] theorem exec_instResetTimeout (s : State) (inst : Nat) : exec (.instResetTimeout inst) s = execInstResetTimeout inst s := rfl
@[simp] theorem exec_vfEnableClear (s : State) (n : Nat) (keyOk : Bool) : exec (.vfEnableClear n keyOk) s = execVfEnableClear n keyOk s := rfl
@[simp] theorem exec_vfEnable (s : State) (n : Nat) : exec (.vfEnable n) s = execVfEnable n s := rfl
@[simp] theorem exec_vfFlr (s : State) (inst : Nat) (keyOk : Bool) : exec (.vfFlr inst keyOk) s = execVfFlr inst keyOk s := rfl
@[simp] theorem exec_pfFlr (s : State) (keyOk : Bool) : exec (.pfFlr keyOk) s = execPfFlr keyOk s := rfl
@[simp] theorem exec_getVersion (s : State) : exec (.getVersion) s = execGetVersion s := rfl
@[simp] theorem exec_getCapabilities (s : State) : exec (.getCapabilities) s = execGetCapabilities s := rfl
@[simp] theorem exec_negotiateAlgorithms (s : State) : exec (.negotiateAlgorithms) s = execNegotiateAlgorithms s := rfl
@[simp] theorem exec_getDigests (s : State) : exec (.getDigests) s = execGetDigests s := rfl
@[simp] theorem exec_getCertificate (s : State) (slot : Nat) (off : Nat) (len : Nat) : exec (.getCertificate slot off len) s = execGetCertificate slot off len s := rfl
@[simp] theorem exec_challenge (s : State) (slot : Nat) (nonce : Nat) : exec (.challenge slot nonce) s = execChallenge slot nonce s := rfl
@[simp] theorem exec_getMeasurements (s : State) (index : Nat) (sign : Bool) (nonce : Nat) : exec (.getMeasurements index sign nonce) s = execGetMeasurements index sign nonce s := rfl
@[simp] theorem exec_spdmUnsupportedRequest (s : State) (code : Nat) : exec (.spdmUnsupportedRequest code) s = execSpdmUnsupportedRequest code s := rfl
@[simp] theorem exec_frameBoundary (s : State) (late : List Nat) : exec (.frameBoundary late) s = execFrameBoundary late s := rfl
@[simp] theorem exec_fspPacket (s : State) (port : Nat) (pkt : List Nat) : exec (.fspPacket port pkt) s = execFspPacket port pkt s := rfl
@[simp] theorem exec_fspClockLoss (s : State) (port : Nat) : exec (.fspClockLoss port) s = execFspClockLoss port s := rfl
@[simp] theorem exec_guardOscTrim (s : State) : exec (.guardOscTrim) s = execGuardOscTrim s := rfl
@[simp] theorem exec_guardCheckEval (s : State) (l : Nat) : exec (.guardCheckEval l) s = execGuardCheckEval l s := rfl
@[simp] theorem exec_guardCheckRetry (s : State) (l : Nat) : exec (.guardCheckRetry l) s = execGuardCheckRetry l s := rfl
@[simp] theorem exec_guardCalibration (s : State) (l : Nat) (e : Nat) : exec (.guardCalibration l e) s = execGuardCalibration l e s := rfl
@[simp] theorem exec_laneEnWrite (s : State) (value : Nat) : exec (.laneEnWrite value) s = execLaneEnWrite value s := rfl
@[simp] theorem exec_comparatorTrip (s : State) (c : Nat) (vin : Nat) : exec (.comparatorTrip c vin) s = execComparatorTrip c vin s := rfl
@[simp] theorem exec_comparatorDeglitch (s : State) (c : Nat) : exec (.comparatorDeglitch c) s = execComparatorDeglitch c s := rfl
@[simp] theorem exec_cmpCfgWrite (s : State) (c : Nat) (value : Nat) : exec (.cmpCfgWrite c value) s = execCmpCfgWrite c value s := rfl
@[simp] theorem exec_latchedClear (s : State) (value : Nat) : exec (.latchedClear value) s = execLatchedClear value s := rfl
@[simp] theorem exec_guardPortLatch (s : State) (a : Nat) : exec (.guardPortLatch a) s = execGuardPortLatch a s := rfl
@[simp] theorem exec_guardLoad (s : State) : exec (.guardLoad) s = execGuardLoad s := rfl
@[simp] theorem exec_save (s : State) (l : Nat) : exec (.save l) s = execSave l s := rfl
@[simp] theorem exec_load (s : State) (l : Nat) : exec (.load l) s = execLoad l s := rfl
@[simp] theorem exec_restoreDecks (s : State) (l : Nat) : exec (.restoreDecks l) s = execRestoreDecks l s := rfl
@[simp] theorem exec_darn (s : State) (l : Nat) : exec (.darn l) s = execDarn l s := rfl
@[simp] theorem exec_saveGlobal (s : State) : exec (.saveGlobal) s = execSaveGlobal s := rfl
@[simp] theorem exec_laneCmdEnd (s : State) (status : Nat) : exec (.laneCmdEnd status) s = execLaneCmdEnd status s := rfl
@[simp] theorem exec_frameStart (s : State) (p : Nat) (vc : Nat) (num : Nat) (hdr : Nat) : exec (.frameStart p vc num hdr) s = execFrameStart p vc num hdr s := rfl
@[simp] theorem exec_longPacket (s : State) (p : Nat) (vc : Nat) (dt : Nat) (bytes : List Nat) (crcBad : Bool) (hdr : Nat) : exec (.longPacket p vc dt bytes crcBad hdr) s = execLongPacket p vc dt bytes crcBad hdr s := rfl
@[simp] theorem exec_frameEnd (s : State) (p : Nat) (vc : Nat) (num : Nat) (hdr : Nat) : exec (.frameEnd p vc num hdr) s = execFrameEnd p vc num hdr s := rfl
@[simp] theorem exec_frameClose (s : State) (c : Nat) : exec (.frameClose c) s = execFrameClose c s := rfl
@[simp] theorem exec_frameTimeout (s : State) (c : Nat) : exec (.frameTimeout c) s = execFrameTimeout c s := rfl
@[simp] theorem exec_csiLinkError (s : State) (p : Nat) (kind : Nat) : exec (.csiLinkError p kind) s = execCsiLinkError p kind s := rfl
@[simp] theorem exec_pstateReqRun (s : State) : exec (.pstateReqRun) s = execPstateReqRun s := rfl
@[simp] theorem exec_pstateReqIdle (s : State) : exec (.pstateReqIdle) s = execPstateReqIdle s := rfl
@[simp] theorem exec_pstateReqSleep (s : State) : exec (.pstateReqSleep) s = execPstateReqSleep s := rfl
@[simp] theorem exec_pstateReqDeep (s : State) : exec (.pstateReqDeep) s = execPstateReqDeep s := rfl
@[simp] theorem exec_pstateReqOff (s : State) : exec (.pstateReqOff) s = execPstateReqOff s := rfl
@[simp] theorem exec_autoIdle (s : State) : exec (.autoIdle) s = execAutoIdle s := rfl
@[simp] theorem exec_entryAnswer (s : State) (b : Nat) : exec (.entryAnswer b) s = execEntryAnswer b s := rfl
@[simp] theorem exec_entryAnswerTimeout (s : State) (b : Nat) : exec (.entryAnswerTimeout b) s = execEntryAnswerTimeout b s := rfl
@[simp] theorem exec_linkL2l3Ready (s : State) : exec (.linkL2l3Ready) s = execLinkL2l3Ready s := rfl
@[simp] theorem exec_entryComplete (s : State) : exec (.entryComplete) s = execEntryComplete s := rfl
@[simp] theorem exec_wakeEvent (s : State) (src : Nat) (detail : Nat) : exec (.wakeEvent src detail) s = execWakeEvent src detail s := rfl
@[simp] theorem exec_devWakeN (s : State) : exec (.devWakeN) s = execDevWakeN s := rfl
@[simp] theorem exec_vrPgood (s : State) : exec (.vrPgood) s = execVrPgood s := rfl
@[simp] theorem exec_oscRdy (s : State) : exec (.oscRdy) s = execOscRdy s := rfl
@[simp] theorem exec_memRdy (s : State) : exec (.memRdy) s = execMemRdy s := rfl
@[simp] theorem exec_logicRdy (s : State) (keyOk : Bool) : exec (.logicRdy keyOk) s = execLogicRdy keyOk s := rfl
@[simp] theorem exec_readyTimeout (s : State) : exec (.readyTimeout) s = execReadyTimeout s := rfl
@[simp] theorem exec_avsVdone (s : State) (rail : Nat) : exec (.avsVdone rail) s = execAvsVdone rail s := rfl
@[simp] theorem exec_avsAttemptTimeout (s : State) (rail : Nat) : exec (.avsAttemptTimeout rail) s = execAvsAttemptTimeout rail s := rfl
@[simp] theorem exec_avsProbe (s : State) (bus : Nat) (ok : Bool) (mv : List Nat) : exec (.avsProbe bus ok mv) s = execAvsProbe bus ok mv s := rfl
@[simp] theorem exec_voltRailWrite (s : State) (rail : Nat) (value : Nat) : exec (.voltRailWrite rail value) s = execVoltRailWrite rail value s := rfl
@[simp] theorem exec_lbEntryStage (s : State) (n : Nat) (value : Nat) : exec (.lbEntryStage n value) s = execLbEntryStage n value s := rfl
@[simp] theorem exec_lbEntryCommit (s : State) (value : Nat) : exec (.lbEntryCommit value) s = execLbEntryCommit value s := rfl
@[simp] theorem exec_pressTick (s : State) (est : List Nat) : exec (.pressTick est) s = execPressTick est s := rfl
@[simp] theorem exec_pressCalibration (s : State) (ma : List Nat) : exec (.pressCalibration ma) s = execPressCalibration ma s := rfl
@[simp] theorem exec_vpointLower (s : State) (d : Nat) : exec (.vpointLower d) s = execVpointLower d s := rfl
@[simp] theorem exec_vpointRaise (s : State) (d : Nat) : exec (.vpointRaise d) s = execVpointRaise d s := rfl
@[simp] theorem exec_vrAlertAssert (s : State) (n : Nat) : exec (.vrAlertAssert n) s = execVrAlertAssert n s := rfl
@[simp] theorem exec_vrAlertHoldEnd (s : State) (n : Nat) : exec (.vrAlertHoldEnd n) s = execVrAlertHoldEnd n s := rfl
@[simp] theorem exec_pressCapWrite (s : State) (value : Nat) : exec (.pressCapWrite value) s = execPressCapWrite value s := rfl
@[simp] theorem exec_hintStart (s : State) (k : Nat) : exec (.hintStart k) s = execHintStart k s := rfl
@[simp] theorem exec_hintUnused (s : State) (k : Nat) : exec (.hintUnused k) s = execHintUnused k s := rfl
@[simp] theorem exec_floorEntry (s : State) : exec (.floorEntry) s = execFloorEntry s := rfl
@[simp] theorem exec_floorExit (s : State) : exec (.floorExit) s = execFloorExit s := rfl
@[simp] theorem exec_chainTotalWrite (s : State) (value : Nat) : exec (.chainTotalWrite value) s = execChainTotalWrite value s := rfl
@[simp] theorem exec_chainBudgetShift (s : State) : exec (.chainBudgetShift) s = execChainBudgetShift s := rfl
@[simp] theorem exec_program (s : State) : exec (.program) s = execProgram s := rfl
@[simp] theorem exec_erase (s : State) : exec (.erase) s = execErase s := rfl
@[simp] theorem exec_suspend (s : State) : exec (.suspend) s = execSuspend s := rfl
@[simp] theorem exec_resume (s : State) : exec (.resume) s = execResume s := rfl
@[simp] theorem exec_blankCheck (s : State) : exec (.blankCheck) s = execBlankCheck s := rfl
@[simp] theorem exec_crc32c (s : State) : exec (.crc32c) s = execCrc32c s := rfl
@[simp] theorem exec_signedUpdate (s : State) : exec (.signedUpdate) s = execSignedUpdate s := rfl
@[simp] theorem exec_flashOpEnd (s : State) (fw : Bool) : exec (.flashOpEnd fw) s = execFlashOpEnd fw s := rfl
@[simp] theorem exec_flashTimeout (s : State) (fw : Bool) : exec (.flashTimeout fw) s = execFlashTimeout fw s := rfl
@[simp] theorem exec_flashWindowRead (s : State) (off : Nat) : exec (.flashWindowRead off) s = execFlashWindowRead off s := rfl
@[simp] theorem exec_firmwareRecordWrite (s : State) (addr : Nat) (bytes : List Nat) : exec (.firmwareRecordWrite addr bytes) s = execFirmwareRecordWrite addr bytes s := rfl
@[simp] theorem exec_chainEnableWrite (s : State) (value : Nat) : exec (.chainEnableWrite value) s = execChainEnableWrite value s := rfl
@[simp] theorem exec_portStateAdvance (s : State) (p : Nat) (lanes : Nat) (peer : Nat) (peerPort : Nat) : exec (.portStateAdvance p lanes peer peerPort) s = execPortStateAdvance p lanes peer peerPort s := rfl
@[simp] theorem exec_portStateTimeout (s : State) (p : Nat) : exec (.portStateTimeout p) s = execPortStateTimeout p s := rfl
@[simp] theorem exec_form (s : State) : exec (.form) s = execForm s := rfl
@[simp] theorem exec_formTimeout (s : State) : exec (.formTimeout) s = execFormTimeout s := rfl
@[simp] theorem exec_idleFlit (s : State) (p : Nat) (fl : Flit) : exec (.idleFlit p fl) s = execIdleFlit p fl s := rfl
@[simp] theorem exec_dataFlit (s : State) (p : Nat) (fl : Flit) : exec (.dataFlit p fl) s = execDataFlit p fl s := rfl
@[simp] theorem exec_pegFlit (s : State) (p : Nat) (fl : Flit) : exec (.pegFlit p fl) s = execPegFlit p fl s := rfl
@[simp] theorem exec_descFlit (s : State) (p : Nat) (fl : Flit) : exec (.descFlit p fl) s = execDescFlit p fl s := rfl
@[simp] theorem exec_recordFlit (s : State) (p : Nat) (fl : Flit) : exec (.recordFlit p fl) s = execRecordFlit p fl s := rfl
@[simp] theorem exec_hostFlit (s : State) (p : Nat) (fl : Flit) : exec (.hostFlit p fl) s = execHostFlit p fl s := rfl
@[simp] theorem exec_hostRspFlit (s : State) (p : Nat) (fl : Flit) : exec (.hostRspFlit p fl) s = execHostRspFlit p fl s := rfl
@[simp] theorem exec_regFlit (s : State) (p : Nat) (fl : Flit) : exec (.regFlit p fl) s = execRegFlit p fl s := rfl
@[simp] theorem exec_ctrlFlit (s : State) (p : Nat) (fl : Flit) (keyOk : Bool) : exec (.ctrlFlit p fl keyOk) s = execCtrlFlit p fl keyOk s := rfl
@[simp] theorem exec_trainFlit (s : State) (p : Nat) (fl : Flit) : exec (.trainFlit p fl) s = execTrainFlit p fl s := rfl
@[simp] theorem exec_xackFlit (s : State) (p : Nat) (fl : Flit) : exec (.xackFlit p fl) s = execXackFlit p fl s := rfl
@[simp] theorem exec_nakReceived (s : State) (p : Nat) (ack : Nat) : exec (.nakReceived p ack) s = execNakReceived p ack s := rfl
@[simp] theorem exec_ackTimeout (s : State) (p : Nat) : exec (.ackTimeout p) s = execAckTimeout p s := rfl
@[simp] theorem exec_portDown (s : State) (p : Nat) : exec (.portDown p) s = execPortDown p s := rfl
@[simp] theorem exec_remoteWindowAccess (s : State) (off : Nat) (write : Bool) (value : Nat) : exec (.remoteWindowAccess off write value) s = execRemoteWindowAccess off write value s := rfl
@[simp] theorem exec_remoteWindowTimeout (s : State) : exec (.remoteWindowTimeout) s = execRemoteWindowTimeout s := rfl
@[simp] theorem exec_mirrorWrite (s : State) (k : Nat) (value : Nat) : exec (.mirrorWrite k value) s = execMirrorWrite k value s := rfl
@[simp] theorem exec_spanWrite (s : State) (inst : Nat) (value : Nat) : exec (.spanWrite inst value) s = execSpanWrite inst value s := rfl
@[simp] theorem exec_eventRingWrite (s : State) : exec (.eventRingWrite) s = execEventRingWrite s := rfl
@[simp] theorem exec_errlogHeadWrite (s : State) (value : Nat) : exec (.errlogHeadWrite value) s = execErrlogHeadWrite value s := rfl
@[simp] theorem exec_doubleFault (s : State) (code : Nat) (seq : Nat) : exec (.doubleFault code seq) s = execDoubleFault code seq s := rfl
@[simp] theorem exec_fatalValidClear (s : State) (value : Nat) : exec (.fatalValidClear value) s = execFatalValidClear value s := rfl
@[simp] theorem exec_fwWatchdog (s : State) (cp : Nat) : exec (.fwWatchdog cp) s = execFwWatchdog cp s := rfl
@[simp] theorem exec_fwRestartDone (s : State) (cp : Nat) (keyOk : Bool) : exec (.fwRestartDone cp keyOk) s = execFwRestartDone cp keyOk s := rfl
@[simp] theorem exec_thermalTrip (s : State) (d : Nat) : exec (.thermalTrip d) s = execThermalTrip d s := rfl
@[simp] theorem exec_vAonRise (s : State) (straps : Nat) : exec (.vAonRise straps) s = execVAonRise straps s := rfl
@[simp] theorem exec_vAonLoss (s : State) : exec (.vAonLoss) s = execVAonLoss s := rfl
@[simp] theorem exec_coldReset (s : State) (keyOk : Bool) (dies : Nat) (fail : Nat) : exec (.coldReset keyOk dies fail) s = execColdReset keyOk dies fail s := rfl
@[simp] theorem exec_bootReady (s : State) : exec (.bootReady) s = execBootReady s := rfl
@[simp] theorem exec_loadCmdGo (s : State) : exec (.loadCmdGo) s = execLoadCmdGo s := rfl
@[simp] theorem exec_resetCtrlWarm (s : State) (key : Nat) (keyOk : Bool) (dies : Nat) : exec (.resetCtrlWarm key keyOk dies) s = execResetCtrlWarm key keyOk dies s := rfl
@[simp] theorem exec_resetCtrlCold (s : State) (key : Nat) : exec (.resetCtrlCold key) s = execResetCtrlCold key s := rfl
@[simp] theorem exec_perstNAssert (s : State) (keyOk : Bool) (dies : Nat) : exec (.perstNAssert keyOk dies) s = execPerstNAssert keyOk dies s := rfl
@[simp] theorem exec_perstNDeassert (s : State) : exec (.perstNDeassert) s = execPerstNDeassert s := rfl
@[simp] theorem exec_pcieSurpriseDown (s : State) : exec (.pcieSurpriseDown) s = execPcieSurpriseDown s := rfl
@[simp] theorem exec_alarmFire (s : State) (n : Nat) : exec (.alarmFire n) s = execAlarmFire n s := rfl
@[simp] theorem exec_alarmCtrlWrite (s : State) (n : Nat) (value : Nat) : exec (.alarmCtrlWrite n value) s = execAlarmCtrlWrite n value s := rfl
@[simp] theorem exec_toutPulseEnd (s : State) (n : Nat) : exec (.toutPulseEnd n) s = execToutPulseEnd n s := rfl
@[simp] theorem exec_bypass (s : State) : exec (.bypass) s = execBypass s := rfl
@[simp] theorem exec_idcode (s : State) : exec (.idcode) s = execIdcode s := rfl
@[simp] theorem exec_samplePreload (s : State) (pins : Nat) : exec (.samplePreload pins) s = execSamplePreload pins s := rfl
@[simp] theorem exec_extest (s : State) : exec (.extest) s = execExtest s := rfl
@[simp] theorem exec_extestPulse (s : State) : exec (.extestPulse) s = execExtestPulse s := rfl
@[simp] theorem exec_extestTrain (s : State) : exec (.extestTrain) s = execExtestTrain s := rfl
@[simp] theorem exec_regacc (s : State) (dr : Nat) : exec (.regacc dr) s = execRegacc dr s := rfl
@[simp] theorem exec_debugSnapTake (s : State) (value : Nat) : exec (.debugSnapTake value) s = execDebugSnapTake value s := rfl
@[simp] theorem exec_periApertureAccess (s : State) (d : Nat) (off : Nat) (write : Bool) (value : Nat) : exec (.periApertureAccess d off write value) s = execPeriApertureAccess d off write value s := rfl
@[simp] theorem exec_clipClear (s : State) (d : Nat) (value : Nat) : exec (.clipClear d value) s = execClipClear d value s := rfl
@[simp] theorem exec_pinmuxFuncWrite (s : State) (n : Nat) (value : Nat) : exec (.pinmuxFuncWrite n value) s = execPinmuxFuncWrite n value s := rfl
@[simp] theorem exec_parkEnd (s : State) (n : Nat) : exec (.parkEnd n) s = execParkEnd n s := rfl
@[simp] theorem exec_gpioEdge (s : State) (n : Nat) (rise : Bool) : exec (.gpioEdge n rise) s = execGpioEdge n rise s := rfl
@[simp] theorem exec_i3cPrivateWrite (s : State) (port : Nat) (index : Nat) : exec (.i3cPrivateWrite port index) s = execI3cPrivateWrite port index s := rfl
@[simp] theorem exec_i3cPrivateRead (s : State) (port : Nat) (n : Nat) : exec (.i3cPrivateRead port n) s = execI3cPrivateRead port n s := rfl
@[simp] theorem exec_entdaa (s : State) (port : Nat) (addr : Nat) : exec (.entdaa port addr) s = execEntdaa port addr s := rfl
@[simp] theorem exec_setdasa (s : State) (port : Nat) (addr : Nat) : exec (.setdasa port addr) s = execSetdasa port addr s := rfl
@[simp] theorem exec_spiTransaction (s : State) (index : Nat) (n : Nat) : exec (.spiTransaction index n) s = execSpiTransaction index n s := rfl
@[simp] theorem exec_registerWrite (s : State) (path : Nat) (off : Nat) (value : Nat) : exec (.registerWrite path off value) s = execRegisterWrite path off value s := rfl
@[simp] theorem exec_pcieLinkUp (s : State) : exec (.pcieLinkUp) s = execPcieLinkUp s := rfl
@[simp] theorem exec_vprogInRange (s : State) : exec (.vprogInRange) s = execVprogInRange s := rfl
@[simp] theorem exec_programFetchTimeout (s : State) (uid : Nat) (pos : Nat) : exec (.programFetchTimeout uid pos) s = execProgramFetchTimeout uid pos s := rfl
@[simp] theorem exec_vrAlertDeassert (s : State) (n : Nat) : exec (.vrAlertDeassert n) s = execVrAlertDeassert n s := rfl
@[simp] theorem exec_gpOeNRise (s : State) : exec (.gpOeNRise) s = execGpOeNRise s := rfl
@[simp] theorem exec_chainPowerReport (s : State) : exec (.chainPowerReport) s = execChainPowerReport s := rfl
@[simp] theorem exec_keyHealthTestFail (s : State) : exec (.keyHealthTestFail) s = execKeyHealthTestFail s := rfl
@[simp] theorem exec_uartLineSent (s : State) : exec (.uartLineSent) s = execUartLineSent s := rfl

end Sys2Proof.Machine
end

