-- ==== Sys2Proof/Laws/Tab.lean ====
section
/-!
SUPPORT. The sparse table: reading after writing, and the canonical form.
-/

namespace Sys2Proof

variable {α : Type}

@[simp] theorem Tab.get_nil (d : Nat → α) (k : Nat) : Tab.get d ([] : Tab α) k = d k := by simp [Tab.get]

theorem Tab.get_erase_same (d : Nat → α) (t : Tab α) (k : Nat) : Tab.get d (Tab.erase t k) k = d k := by
  induction t with
  | nil => simp [Tab.erase]
  | cons e t ih =>
    obtain ⟨a, v⟩ := e
    by_cases h : k = a
    · simp [Tab.erase, h] at ih ⊢; exact ih
    · simp [Tab.erase, Tab.get, h, ih]

theorem Tab.get_erase_other (d : Nat → α) (t : Tab α) {j k : Nat} (h : j ≠ k) :
    Tab.get d (Tab.erase t k) j = Tab.get d t j := by
  induction t with
  | nil => rfl
  | cons e t ih =>
    obtain ⟨a, v⟩ := e
    by_cases ha : k = a
    · subst ha; simp [Tab.erase, Tab.get, h, ih]
    · simp [Tab.erase, Tab.get, ha, ih]

theorem Tab.mem_erase {t : Tab α} {k : Nat} {e : Nat × α} : e ∈ Tab.erase t k ↔ e ∈ t ∧ e.1 ≠ k := by
  induction t with
  | nil => simp [Tab.erase]
  | cons x t ih =>
    obtain ⟨a, v⟩ := x
    by_cases ha : k = a
    · subst ha
      simp only [Tab.erase, if_true, ih, List.mem_cons]
      constructor
      · rintro ⟨h, hk⟩; exact ⟨.inr h, hk⟩
      · rintro ⟨rfl | h, hk⟩
        · exact absurd rfl hk
        · exact ⟨h, hk⟩
    · simp only [Tab.erase, ha, if_false, List.mem_cons, ih]
      constructor
      · rintro (rfl | ⟨h, hk⟩)
        · exact ⟨.inl rfl, fun h => ha h.symm⟩
        · exact ⟨.inr h, hk⟩
      · rintro ⟨rfl | h, hk⟩
        · exact .inl rfl
        · exact .inr ⟨h, hk⟩

theorem Tab.get_insert_same (d : Nat → α) (t : Tab α) (k : Nat) (v : α) (h : ∀ e ∈ t, e.1 ≠ k) :
    Tab.get d (Tab.insert t k v) k = v := by
  induction t with
  | nil => simp [Tab.insert, Tab.get]
  | cons e t ih =>
    obtain ⟨a, w⟩ := e
    have ha : k ≠ a := fun hk => h (a, w) (by simp) hk.symm
    by_cases hl : k < a
    · simp [Tab.insert, hl, Tab.get]
    · simp [Tab.insert, hl, Tab.get, ha, ih fun e he => h e (by simp [he])]

theorem Tab.get_insert_other (d : Nat → α) (t : Tab α) {j k : Nat} (v : α) (h : j ≠ k) :
    Tab.get d (Tab.insert t k v) j = Tab.get d t j := by
  induction t with
  | nil => simp [Tab.insert, Tab.get, h]
  | cons e t ih =>
    obtain ⟨a, w⟩ := e
    by_cases hl : k < a
    · simp [Tab.insert, hl, Tab.get, h]
    · simp [Tab.insert, hl, Tab.get, ih]

/-- What a table holds at a key after it was written there. -/
@[simp] theorem Tab.get_put_same [DecidableEq α] (d : Nat → α) (t : Tab α) (k : Nat) (v : α) :
    Tab.get d (Tab.put d t k v) k = v := by
  unfold Tab.put
  split
  · next h => rw [Tab.get_erase_same, h]
  · exact Tab.get_insert_same d _ k v fun e he => (Tab.mem_erase.1 he).2

/-- Every other key keeps what it held. -/
theorem Tab.get_put_other [DecidableEq α] (d : Nat → α) (t : Tab α) {j k : Nat} (v : α) (h : j ≠ k) :
    Tab.get d (Tab.put d t k v) j = Tab.get d t j := by
  unfold Tab.put
  split
  · exact Tab.get_erase_other d t h
  · rw [Tab.get_insert_other d _ v h, Tab.get_erase_other d t h]

theorem Tab.get_put [DecidableEq α] (d : Nat → α) (t : Tab α) (j k : Nat) (v : α) :
    Tab.get d (Tab.put d t k v) j = if j = k then v else Tab.get d t j := by
  split
  · next h => subst h; simp
  · next h => exact Tab.get_put_other d t v h

theorem Tab.erase_sublist (t : Tab α) (k : Nat) : (Tab.erase t k).Sublist t := by
  induction t with
  | nil => exact List.Sublist.refl _
  | cons e t ih =>
    obtain ⟨a, v⟩ := e
    by_cases h : k = a
    · simp only [Tab.erase, h, if_true]; exact (h ▸ ih).cons _
    · simp only [Tab.erase, h, if_false]; exact ih.cons_cons _

theorem Tab.mem_insert {t : Tab α} {k : Nat} {v : α} {e : Nat × α} : e ∈ Tab.insert t k v ↔ e = (k, v) ∨ e ∈ t := by
  induction t with
  | nil => simp [Tab.insert]
  | cons x t ih =>
    obtain ⟨a, w⟩ := x
    by_cases hl : k < a
    · simp [Tab.insert, hl]
    · simp only [Tab.insert, hl, if_false, List.mem_cons, ih]
      constructor
      · rintro (h | h | h)
        · exact .inr (.inl h)
        · exact .inl h
        · exact .inr (.inr h)
      · rintro (h | h | h)
        · exact .inr (.inl h)
        · exact .inl h
        · exact .inr (.inr h)

/-- The keys of a canonical table rise. -/
def Tab.Rising (t : Tab α) : Prop := t.Pairwise fun x y => x.1 < y.1

theorem Tab.rising_insert {t : Tab α} {k : Nat} (v : α) (h : Tab.Rising t) (hk : ∀ e ∈ t, e.1 ≠ k) :
    Tab.Rising (Tab.insert t k v) := by
  unfold Tab.Rising at *
  induction t with
  | nil => simp [Tab.insert]
  | cons e t ih =>
    obtain ⟨a, w⟩ := e
    rw [List.pairwise_cons] at h
    have ha : a ≠ k := hk (a, w) (by simp)
    by_cases hl : k < a
    · simp only [Tab.insert, hl, if_true, List.pairwise_cons, List.mem_cons]
      refine ⟨?_, h.1, h.2⟩
      rintro x (rfl | hx)
      · exact hl
      · exact lt_trans hl (h.1 x hx)
    · simp only [Tab.insert, hl, if_false, List.pairwise_cons]
      refine ⟨?_, ih h.2 fun e he => hk e (by simp [he])⟩
      intro x hx
      rcases Tab.mem_insert.1 hx with rfl | hx
      · exact lt_of_le_of_ne (not_lt.1 hl) ha
      · exact h.1 x hx

theorem Tab.wf_iff [DecidableEq α] (d : Nat → α) (t : Tab α) :
    Tab.wf d t = true ↔ Tab.Rising t ∧ ∀ e ∈ t, e.2 ≠ d e.1 := by
  simp [Tab.wf, Tab.Rising, List.pairwise_map, List.all_eq_true]

/-- Writing keeps the canonical form. -/
theorem Tab.wf_put [DecidableEq α] (d : Nat → α) {t : Tab α} (k : Nat) (v : α) (h : Tab.wf d t = true) :
    Tab.wf d (Tab.put d t k v) = true := by
  rw [Tab.wf_iff] at *
  obtain ⟨hr, hd⟩ := h
  have hre : Tab.Rising (Tab.erase t k) := List.Pairwise.sublist (Tab.erase_sublist t k) hr
  unfold Tab.put
  split
  · exact ⟨hre, fun e he => hd e (Tab.mem_erase.1 he).1⟩
  · next hv =>
    refine ⟨Tab.rising_insert v hre fun e he => (Tab.mem_erase.1 he).2, fun e he => ?_⟩
    rcases Tab.mem_insert.1 he with rfl | he
    · exact hv
    · exact hd e (Tab.mem_erase.1 he).1

/-- Dropping keys keeps the canonical form. -/
theorem Tab.wf_clearKeys [DecidableEq α] (d : Nat → α) {t : Tab α} (p : Nat → Bool) (h : Tab.wf d t = true) :
    Tab.wf d (Tab.clearKeys p t) = true := by
  rw [Tab.wf_iff] at *
  exact ⟨List.Pairwise.sublist (List.filter_sublist) h.1, fun e he => h.2 e (List.mem_filter.1 he).1⟩

/-- Two canonical tables that read alike are equal data. -/
theorem Tab.ext_of_wf [DecidableEq α] (d : Nat → α) {t u : Tab α} (ht : Tab.wf d t = true) (hu : Tab.wf d u = true)
    (h : ∀ k, Tab.get d t k = Tab.get d u k) : t = u := by
  rw [Tab.wf_iff] at ht hu
  have key : ∀ (t : Tab α), Tab.Rising t → ∀ e, (e ∈ t ∧ e.2 ≠ d e.1) → Tab.get d t e.1 = e.2 := by
    intro t ht
    induction t with
    | nil => simp
    | cons x t ih =>
      obtain ⟨a, v⟩ := x
      rw [Tab.Rising, List.pairwise_cons] at ht
      rintro ⟨b, w⟩ ⟨hm, hw⟩
      rcases List.mem_cons.1 hm with he | hm
      · cases he; simp [Tab.get]
      · have hlt := ht.1 _ hm
        have hne : b ≠ a := Nat.ne_of_gt hlt
        simp only [Tab.get, hne, if_false]
        exact ih ht.2 _ ⟨hm, hw⟩
  have back : ∀ (t : Tab α) (k : Nat), Tab.get d t k ≠ d k → (k, Tab.get d t k) ∈ t := by
    intro t
    induction t with
    | nil => intro k hk; exact absurd (Tab.get_nil d k) hk
    | cons x t ih =>
      obtain ⟨a, v⟩ := x
      intro k hk
      by_cases hka : k = a
      · simp [Tab.get, hka]
      · simp only [Tab.get, hka, if_false] at hk ⊢
        exact List.mem_cons_of_mem _ (ih k hk)
  have mem : ∀ e, e ∈ t ↔ e ∈ u := by
    intro e
    constructor
    · intro he
      have hg := key t ht.1 e ⟨he, ht.2 e he⟩
      have := back u e.1 (by rw [← h, hg]; exact ht.2 e he)
      rwa [← h, hg] at this
    · intro he
      have hg := key u hu.1 e ⟨he, hu.2 e he⟩
      have := back t e.1 (by rw [h, hg]; exact hu.2 e he)
      rwa [h, hg] at this
  have nd : ∀ (t : Tab α), Tab.Rising t → t.Nodup := fun t ht =>
    List.Pairwise.imp (fun hxy he => by rw [he] at hxy; exact Nat.lt_irrefl _ hxy) ht
  have anti : ∀ a b : Nat × α, a ∈ t → b ∈ u → a.1 < b.1 → b.1 < a.1 → a = b := fun _ _ _ _ h1 h2 =>
    absurd h1 (Nat.lt_asymm h2)
  exact List.Perm.eq_of_pairwise anti ht.1 hu.1 ((List.perm_ext_iff_of_nodup (nd t ht.1) (nd u hu.1)).2 mem)

end Sys2Proof
end

