-- ==== Sys2Proof/Laws/Regs.lean ====
section
/-!
SUPPORT. Fields of registers: what a field reads after a write of it, of another field of its word, and of another word; the
registers' canonical form.
-/

namespace Sys2Proof.Machine

/-! ### Bits -/

theorem fld_testBit (w m l i : Nat) : (fld w m l).testBit i = (decide (i < m + 1 - l) && w.testBit (l + i)) := by
  simp [fld, Nat.testBit_mod_two_pow, Nat.testBit_shiftRight]

theorem fld_lt (w m l : Nat) : fld w m l < 2 ^ (m + 1 - l) := Nat.mod_lt _ (Nat.two_pow_pos _)

theorem setFld_split (w m l v : Nat) (h : l ≤ m) :
    setFld w m l v = (w / 2 ^ (m + 1) * 2 ^ (m + 1 - l) + v % 2 ^ (m + 1 - l)) * 2 ^ l + w % 2 ^ l := by
  have e : 2 ^ (m + 1) = 2 ^ l * 2 ^ (m + 1 - l) := by rw [← Nat.pow_add]; congr 1; omega
  unfold setFld fld
  rw [Nat.shiftLeft_eq, Nat.shiftLeft_eq, Nat.shiftRight_eq_div_pow, e, ← Nat.div_div_eq_div_mul]
  generalize 2 ^ (m + 1 - l) = b
  have h1 := Nat.div_add_mod w (2 ^ l)
  have h2 := Nat.div_add_mod (w / 2 ^ l) b
  generalize 2 ^ l = a at *
  generalize w % a = lo at *
  generalize w / a = q at *
  generalize v % b = x at *
  generalize q % b = f at *
  generalize q / b = hi at *
  subst h2
  have h3 : w = hi * b * a + f * a + lo := by rw [← h1]; ring
  rw [h3, show hi * b * a + f * a + lo - f * a = hi * b * a + lo by omega]
  ring

theorem setFld_testBit (w m l v i : Nat) (h : l ≤ m) :
    (setFld w m l v).testBit i = if l ≤ i ∧ i ≤ m then v.testBit (i - l) else w.testBit i := by
  rw [setFld_split w m l v h, Nat.mul_comm _ (2 ^ l), Nat.testBit_two_pow_mul_add _ (Nat.mod_lt _ (Nat.two_pow_pos _)),
    Nat.mul_comm _ (2 ^ (m + 1 - l)), Nat.testBit_two_pow_mul_add _ (Nat.mod_lt _ (Nat.two_pow_pos _))]
  simp only [Nat.testBit_mod_two_pow, Nat.testBit_div_two_pow]
  by_cases h1 : i < l
  · have : ¬ (l ≤ i ∧ i ≤ m) := by omega
    simp [h1, this]
  · by_cases h2 : i ≤ m
    · have : i - l < m + 1 - l := by omega
      have h3 : l ≤ i ∧ i ≤ m := by omega
      simp [h1, this, h3]
    · have : ¬ (i - l < m + 1 - l) := by omega
      have h3 : ¬ (l ≤ i ∧ i ≤ m) := by omega
      have h4 : i - l - (m + 1 - l) + (m + 1) = i := by omega
      simp [h1, this, h3, h4]

theorem setFld_lt {w m l v n : Nat} (hl : l ≤ m) (hw : w < 2 ^ n) (hm : m < n) : setFld w m l v < 2 ^ n := by
  apply Nat.lt_pow_two_of_testBit
  intro i hi
  rw [setFld_testBit _ _ _ _ _ hl, if_neg (by omega)]
  exact Nat.testBit_lt_two_pow (lt_of_lt_of_le hw (Nat.pow_le_pow_right (by omega) hi))

/-- A field reads what it was set to. -/
theorem fld_setFld_same (w m l v : Nat) (h : l ≤ m) : fld (setFld w m l v) m l = v % 2 ^ (m + 1 - l) := by
  apply Nat.eq_of_testBit_eq
  intro i
  rw [fld_testBit, setFld_testBit _ _ _ _ _ h, Nat.testBit_mod_two_pow]
  by_cases hi : i < m + 1 - l
  · have : l ≤ l + i ∧ l + i ≤ m := by omega
    simp [hi, this]
  · simp [hi]

/-- A disjoint field keeps its bits. -/
theorem fld_setFld_other (w m l v a b : Nat) (h : l ≤ m) (hd : a < l ∨ m < b) : fld (setFld w m l v) a b = fld w a b := by
  apply Nat.eq_of_testBit_eq
  intro i
  rw [fld_testBit, fld_testBit, setFld_testBit _ _ _ _ _ h]
  by_cases hi : i < a + 1 - b
  · have : ¬ (l ≤ b + i ∧ b + i ≤ m) := by omega
    simp [hi, this]
  · simp [hi]

/-! ### Words -/

theorem State.word_lt (s : State) (k : Nat) : s.word k < 2 ^ 32 := BitVec.isLt _

@[simp] theorem State.word_setWord_same (s : State) (k v : Nat) : (s.setWord k v).word k = v % 2 ^ 32 := by
  simp [State.word, State.setWord]

theorem State.word_setWord_other (s : State) {j k : Nat} (v : Nat) (h : j ≠ k) : (s.setWord k v).word j = s.word j := by
  simp [State.word, State.setWord, Tab.get_put_other _ _ _ h]

theorem State.word_setWord (s : State) (j k v : Nat) :
    (s.setWord k v).word j = if j = k then v % 2 ^ 32 else s.word j := by
  split
  · next h => subst h; simp
  · next h => exact State.word_setWord_other s v h

theorem State.word64_setWord64 (s : State) (k v : Nat) (h : v < 2 ^ 64) : (s.setWord64 k v).word64 k = v := by
  unfold State.word64 State.setWord64
  rw [State.word_setWord_same, State.word_setWord_other _ _ (by omega : k ≠ k + 4), State.word_setWord_same]
  rw [Nat.mod_eq_of_lt (show v / 2 ^ 32 < 2 ^ 32 by rw [Nat.div_lt_iff_lt_mul (by norm_num)]; omega)]
  have := Nat.div_add_mod v (2 ^ 32)
  omega

theorem State.word64_setWord64_other (s : State) {j k : Nat} (v : Nat) (h1 : j ≠ k) (h2 : j ≠ k + 4) (h3 : j + 4 ≠ k) :
    (s.setWord64 k v).word64 j = s.word64 j := by
  unfold State.word64 State.setWord64
  rw [State.word_setWord_other _ _ h2, State.word_setWord_other _ _ h1, State.word_setWord_other _ _ (by omega),
    State.word_setWord_other _ _ h3]

/-! ### Fields -/

/-- A field lies in its register: bits in order, within its word, or within the two words of a 64-bit register. -/
def RField.ok (f : RField) : Bool := decide (f.lsb ≤ f.msb ∧ f.msb < 64)

/-- A field is of one word. -/
def RField.narrow (f : RField) : Bool := decide (f.msb < 32)

/-- Two fields share no bit and, when one of them is of two words, no word. -/
def RField.apart (f g : RField) : Bool :=
  if f.narrow && g.narrow then decide (f.key ≠ g.key ∨ f.msb < g.lsb ∨ g.msb < f.lsb)
  else decide (f.key ≠ g.key ∧ f.key ≠ g.key + 4 ∧ g.key ≠ f.key + 4)

/-- A field reads what was last written to it. -/
theorem State.rd_wr_same (s : State) (f : RField) (v : Nat) (h : f.ok = true) :
    (s.wr f v).rd f = v % 2 ^ (f.msb + 1 - f.lsb) := by
  simp only [RField.ok, decide_eq_true_eq] at h
  unfold State.wr State.rd
  by_cases hm : f.msb < 32
  · rw [if_pos hm, if_pos hm, State.word_setWord_same,
      Nat.mod_eq_of_lt (setFld_lt h.1 (State.word_lt s f.key) hm), fld_setFld_same _ _ _ _ h.1]
  · rw [if_neg hm, if_neg hm, State.word64_setWord64, fld_setFld_same _ _ _ _ h.1]
    apply setFld_lt h.1 _ h.2
    have h1 := State.word_lt s f.key
    have h2 := State.word_lt s (f.key + 4)
    unfold State.word64
    omega

/-- A field keeps its value when a field apart from it is written. -/
theorem State.rd_wr_other (s : State) (f g : RField) (v : Nat) (hf : f.ok = true) (h : f.apart g = true) :
    (s.wr f v).rd g = s.rd g := by
  simp only [RField.ok, decide_eq_true_eq] at hf
  unfold RField.apart RField.narrow at h
  unfold State.wr State.rd
  by_cases hm : f.msb < 32 <;> by_cases hn : g.msb < 32
  · simp only [hm, hn, decide_true, Bool.and_self, if_true, decide_eq_true_eq] at h
    rw [if_pos hm, if_pos hn, if_pos hn, State.word_setWord]
    by_cases hk : g.key = f.key
    · rw [if_pos hk, Nat.mod_eq_of_lt (setFld_lt hf.1 (State.word_lt s f.key) hm), fld_setFld_other _ _ _ _ _ _ hf.1 (by omega), hk]
    · rw [if_neg hk]
  · simp only [hm, hn, decide_true, decide_false, Bool.true_and, Bool.false_eq_true, if_false, decide_eq_true_eq] at h
    rw [if_pos hm, if_neg hn, if_neg hn]
    unfold State.word64
    rw [State.word_setWord_other _ _ (by omega), State.word_setWord_other _ _ (by omega)]
  · simp only [hm, hn, decide_true, decide_false, Bool.false_and, Bool.false_eq_true, if_false, decide_eq_true_eq] at h
    rw [if_neg hm, if_pos hn, if_pos hn]
    unfold State.setWord64
    rw [State.word_setWord_other _ _ (by omega), State.word_setWord_other _ _ (by omega)]
  · simp only [hm, hn, decide_false, Bool.false_and, Bool.false_eq_true, if_false, decide_eq_true_eq] at h
    rw [if_neg hm, if_neg hn, if_neg hn, State.word64_setWord64_other _ _ (by omega) (by omega) (by omega)]

/-- A flag reads what it was set to. -/
theorem State.flag_setFlag_same (s : State) (f : RField) (b : Bool) (h : f.lsb = f.msb ∧ f.msb < 64) :
    (s.setFlag f b).flag f = b := by
  unfold State.flag State.setFlag
  rw [State.rd_wr_same _ _ _ (by simp [RField.ok, h.1, h.2]), h.1]
  cases b <;> simp [b2n]

theorem State.rd_setFlag_other (s : State) (f g : RField) (b : Bool) (hf : f.ok = true) (h : f.apart g = true) :
    (s.setFlag f b).rd g = s.rd g := State.rd_wr_other s f g _ hf h

theorem State.flag_wr_other (s : State) (f g : RField) (v : Nat) (hf : f.ok = true) (h : f.apart g = true) :
    (s.wr f v).flag g = s.flag g := by unfold State.flag; rw [State.rd_wr_other s f g v hf h]

theorem State.flag_setFlag_other (s : State) (f g : RField) (b : Bool) (hf : f.ok = true) (h : f.apart g = true) :
    (s.setFlag f b).flag g = s.flag g := State.flag_wr_other s f g _ hf h

/-- Every word that a field does not lie in keeps its value. -/
theorem State.word_wr_other (s : State) (f : RField) (v k : Nat) (h1 : k ≠ f.key) (h2 : k ≠ f.key + 4) :
    (s.wr f v).word k = s.word k := by
  unfold State.wr
  split
  · exact State.word_setWord_other _ _ h1
  · unfold State.setWord64
    rw [State.word_setWord_other _ _ h2, State.word_setWord_other _ _ h1]

/-! ### Canonical form -/

/-- The registers are in canonical form. -/
abbrev RegsWf (r : Tab Word) : Prop := Tab.wf regReset r = true

theorem State.setWord_wf {s : State} (k v : Nat) (h : RegsWf s.regs) : RegsWf (s.setWord k v).regs :=
  Tab.wf_put regReset k _ h

theorem State.wr_wf {s : State} (f : RField) (v : Nat) (h : RegsWf s.regs) : RegsWf (s.wr f v).regs := by
  unfold State.wr
  split
  · exact State.setWord_wf _ _ h
  · exact State.setWord_wf _ _ (State.setWord_wf _ _ h)

end Sys2Proof.Machine
end

