-- ==== Sys2Proof/Laws/Mem.lean ====
section
/-!
SUPPORT. Memory: reading after writing, and every memory operation keeps the canonical form.
-/

namespace Sys2Proof.Machine

/-- The canonical form of memory, table by table. -/
structure MemWf (m : Mem) : Prop where
  t0 : Tab.wf noByte m.t0 = true
  t1 : Tab.wf noByte m.t1 = true
  t2 : Tab.wf noByte m.t2 = true
  host : Tab.wf noByte m.host = true
  g0 : Tab.wf (fun _ => Granule.init) m.g0 = true
  g1 : Tab.wf (fun _ => Granule.init) m.g1 = true
  t2Key : Tab.wf (fun _ => 0) m.t2Key = true

theorem Mem.wf_iff (m : Mem) : m.wf = true ↔ MemWf m := by
  constructor
  · intro h
    simp only [Mem.wf, Bool.and_eq_true] at h
    obtain ⟨⟨⟨⟨⟨⟨h0, h1⟩, h2⟩, h3⟩, h4⟩, h5⟩, h6⟩ := h
    exact ⟨h0, h1, h2, h3, h4, h5, h6⟩
  · intro h
    simp only [Mem.wf, Bool.and_eq_true]
    exact ⟨⟨⟨⟨⟨⟨h.t0, h.t1⟩, h.t2⟩, h.host⟩, h.g0⟩, h.g1⟩, h.t2Key⟩

theorem Tab.wf_nil {α : Type} [DecidableEq α] (d : Nat → α) : Tab.wf d [] = true := by simp [Tab.wf]

/-- Reset lists no byte and no granule. -/
theorem memReset_wf : MemWf Mem.reset := by
  constructor <;> exact Tab.wf_nil _

/-! ### Byte stores -/

theorem cellsWrite_wf (d : Nat → Byte) (bs : List Nat) : ∀ {m : List Host.Cell} (a : Nat), Tab.wf d m = true →
    Tab.wf d (cellsWrite d m a bs) = true := by
  induction bs with
  | nil => intro m a h; exact h
  | cons b t ih => intro m a h; exact ih (a + 1) (Tab.wf_put d a _ h)

/-- A byte outside those written reads as before. -/
theorem cellsWrite_other (d : Nat → Byte) (bs : List Nat) : ∀ (m : List Host.Cell) (a k : Nat), (k < a ∨ a + bs.length ≤ k) →
    Tab.get d (cellsWrite d m a bs) k = Tab.get d m k := by
  induction bs with
  | nil => intro m a k _; rfl
  | cons b t ih =>
    intro m a k h
    simp only [List.length_cons] at h
    rw [cellsWrite, ih _ _ _ (by omega), Tab.get_put_other]
    omega

/-- A byte written reads as its value. -/
theorem cellsWrite_same (d : Nat → Byte) (bs : List Nat) : ∀ (m : List Host.Cell) (a j : Nat), j < bs.length →
    Tab.get d (cellsWrite d m a bs) (a + j) = BitVec.ofNat 8 (bs.getD j 0) := by
  induction bs with
  | nil => intro m a j h; simp at h
  | cons b t ih =>
    intro m a j h
    rw [cellsWrite]
    cases j with
    | zero => rw [cellsWrite_other _ _ _ _ _ (by omega)]; simp
    | succ j =>
      have := ih (Tab.put d m a (BitVec.ofNat 8 b)) (a + 1) j (by simpa using h)
      rw [show a + (j + 1) = a + 1 + j by omega, this]; simp

/-! ### T0 and T1 -/

theorem Mem.sram_wf {m : Mem} (h : MemWf m) (tier : Nat) : Tab.wf noByte (m.sram tier) = true := by
  unfold Mem.sram; split
  · exact h.t0
  · exact h.t1

theorem Mem.granules_wf {m : Mem} (h : MemWf m) (tier : Nat) : Tab.wf (fun _ => Granule.init) (m.granules tier) = true := by
  unfold Mem.granules; split
  · exact h.g0
  · exact h.g1

theorem Mem.setSram_wf {m : Mem} (h : MemWf m) (tier : Nat) {b : List Host.Cell} (hb : Tab.wf noByte b = true) :
    MemWf (m.setSram tier b) := by
  unfold Mem.setSram; split
  · exact { h with t0 := hb }
  · exact { h with t1 := hb }

theorem Mem.setGranule_wf {m : Mem} (h : MemWf m) (tier g : Nat) (v : Granule) : MemWf (m.setGranule tier g v) := by
  have hg := Tab.wf_put (fun _ => Granule.init) g v (Mem.granules_wf h tier)
  unfold Mem.setGranule Mem.setGranules; split
  · exact { h with g0 := hg }
  · exact { h with g1 := hg }

theorem Mem.writeGranule_wf {m : Mem} (h : MemWf m) (tier i k : Nat) (bs : List Nat) (g : Nat) :
    MemWf (m.writeGranule tier i k bs g) := by
  unfold Mem.writeGranule
  extract_lets
  split
  · exact h
  · refine Mem.setGranule_wf (Mem.setSram_wf h _ (cellsWrite_wf _ _ _ ?_)) _ _ _
    change Tab.wf noByte (if _ then _ else _) = true
    split
    · exact Mem.sram_wf h tier
    · exact cellsWrite_wf _ _ _ (Mem.sram_wf h tier)

theorem foldl_wf {β : Type} {f : Mem → β → Mem} (hf : ∀ m x, MemWf m → MemWf (f m x)) (l : List β) :
    ∀ {m : Mem}, MemWf m → MemWf (l.foldl f m) := by
  induction l with
  | nil => intro m h; exact h
  | cons x t ih => intro m h; exact ih (hf m x h)

theorem Mem.sramWrite_wf {m : Mem} (h : MemWf m) (tier i u a : Nat) (bs : List Nat) : MemWf (m.sramWrite tier i u a bs).1 :=
  foldl_wf (fun _ g hm => Mem.writeGranule_wf hm tier i _ bs g) _ h

theorem Mem.tagGranule_wf {m : Mem} (h : MemWf m) (tier i g : Nat) : MemWf (m.tagGranule tier i g) := by
  unfold Mem.tagGranule
  extract_lets
  split
  · exact Mem.setGranule_wf h _ _ _
  · exact Mem.setGranule_wf (Mem.setSram_wf h _ (cellsWrite_wf _ _ _ (Mem.sram_wf h tier))) _ _ _

theorem Mem.tagRange_wf {m : Mem} (h : MemWf m) (tier i loc base size : Nat) : MemWf (m.tagRange tier i loc base size) :=
  foldl_wf (fun _ g hm => Mem.tagGranule_wf hm tier i g) _ h

/-! ### T2 -/

theorem Mem.t2WriteBlock_wf {m : Mem} (h : MemWf m) (key a : Nat) (bs : List Nat) (blk : Nat) :
    MemWf (m.t2WriteBlock key a bs blk) :=
  { h with t2 := cellsWrite_wf _ _ _ h.t2, t2Key := Tab.wf_put _ _ _ h.t2Key }

theorem Mem.t2Write_wf {m : Mem} (h : MemWf m) (key a : Nat) (bs : List Nat) : MemWf (m.t2Write key a bs) := by
  have h1 := foldl_wf (fun (n : Mem) b hn => Mem.t2WriteBlock_wf (m := n) hn key a bs b) (unitsOf 16 a bs.length) h
  exact ⟨h1.t0, h1.t1, h1.t2, h1.host, h1.g0, h1.g1, h1.t2Key⟩

theorem Mem.zeroPage_wf {m : Mem} (h : MemWf m) (key p : Nat) : MemWf (m.zeroPage key p) := Mem.t2Write_wf h _ _ _

theorem Mem.movePage_wf {m : Mem} (h : MemWf m) (key p q : Nat) : MemWf (m.movePage key p q) := by
  unfold Mem.movePage
  apply foldl_wf
  · intro n e hn
    exact ⟨hn.t0, hn.t1, hn.t2, hn.host, hn.g0, hn.g1, hn.t2Key⟩
  apply foldl_wf
  · intro n e hn
    exact Mem.t2Write_wf hn _ _ _
  refine ⟨h.t0, h.t1, h.t2, h.host, h.g0, h.g1, ?_⟩
  dsimp only
  exact Tab.wf_clearKeys _ _ h.t2Key

/-! ### Loss of contents -/

/-- Granules that lose their contents keep the canonical form. -/
theorem blankGranules_wf {t : Tab Granule} (h : Tab.wf (fun _ => Granule.init) t = true) :
    Tab.wf (fun _ => Granule.init) (blankGranules t) = true := by
  rw [Tab.wf_iff] at *
  obtain ⟨hr, -⟩ := h
  unfold blankGranules
  constructor
  · have : List.Pairwise (fun a b => a.1 < b.1) (t.filter fun p => p.2.tag != 31) := List.Pairwise.sublist List.filter_sublist hr
    exact List.pairwise_map.2 (by simpa using this)
  · intro e he
    obtain ⟨p, hp, rfl⟩ := List.mem_map.1 he
    have := (List.mem_filter.1 hp).2
    intro hc
    have h2 : p.2.tag = 31 := congrArg Granule.tag hc
    simp [h2] at this

end Sys2Proof.Machine
end

