-- ==== Sys2Proof/Laws/Keeps.lean ====
section
/-!
SUPPORT. What every operation keeps: the queue, and the canonical form of registers and memory. `Keeps q s` reads backward through a
meaning: a state made from `s` by operations keeps them when `s` does.
-/

namespace Sys2Proof.Machine

/-- The queue is `q`, and registers and memory are in canonical form. -/
structure Keeps (q : List Instr) (s : State) : Prop where
  pending : s.pending = q
  regs : RegsWf s.regs
  mem : MemWf s.mem

theorem MemWf.upd {m : Mem} (h : MemWf m) (m1 m2 m3 m4 m5 m6 m7 m8 m9 m10 m11 m12 m13 m14) :
    MemWf ⟨m.t0, m.t1, m.t2, m.host, m.g0, m.g1, m.t2Key, m1, m2, m3, m4, m5, m6, m7, m8, m9, m10, m11, m12, m13, m14⟩ :=
  ⟨h.t0, h.t1, h.t2, h.host, h.g0, h.g1, h.t2Key⟩

theorem MemWf.ite {c : Prop} [Decidable c] {a b : Mem} (ha : MemWf a) (hb : MemWf b) : MemWf (if c then a else b) := by
  split
  · exact ha
  · exact hb

theorem Mem.upsetSram_wf {m : Mem} (h : MemWf m) (tier g e : Nat) : MemWf (m.upsetSram tier g e) := Mem.setGranule_wf h _ _ _

namespace Keeps

theorem ite {q : List Instr} {c : Prop} [Decidable c] {a b : State} (ha : Keeps q a) (hb : Keeps q b) :
    Keeps q (if c then a else b) := by
  split
  · exact ha
  · exact hb

theorem ite1 {q : List Instr} {α : Type} {c : Prop} [Decidable c] {a b : State × α} (ha : Keeps q a.1) (hb : Keeps q b.1) :
    Keeps q (if c then a else b).1 := by
  split
  · exact ha
  · exact hb

theorem foldl {q : List Instr} {β : Type} {f : State → β → State} {l : List β} {s : State}
    (hf : ∀ a x, Keeps q a → Keeps q (f a x)) (h : Keeps q s) : Keeps q (l.foldl f s) := by
  induction l generalizing s with
  | nil => exact h
  | cons x t ih => exact ih (hf s x h)

theorem foldl1 {q : List Instr} {α β : Type} {f : State × α → β → State × α} {l : List β} {s : State × α}
    (hf : ∀ a x, Keeps q a.1 → Keeps q (f a x).1) (h : Keeps q s.1) : Keeps q (l.foldl f s).1 := by
  induction l generalizing s with
  | nil => exact h
  | cons x t ih => exact ih (hf s x h)

theorem pair {q : List Instr} {α : Type} {a : State} {b : α} (h : Keeps q a) : Keeps q (a, b).1 := h

/-- A change of anything but registers, memory and queue. -/
theorem upd {q : List Instr} {s : State} (h : Keeps q s) (a b c d f g i j k l m n o p r t u v) :
    Keeps q ⟨s.regs, a, b, c, d, s.mem, f, g, i, j, k, l, m, n, o, p, r, t, u, v, s.pending⟩ :=
  ⟨h.pending, h.regs, h.mem⟩

/-- A change of memory's tables but for the contents. -/
theorem updMem {q : List Instr} {s : State} (h : Keeps q s) (a b c d f g i j k l m n o p r t u v)
    (m1 m2 m3 m4 m5 m6 m7 m8 m9 m10 m11 m12 m13 m14) :
    Keeps q ⟨s.regs, a, b, c, d, ⟨s.mem.t0, s.mem.t1, s.mem.t2, s.mem.host, s.mem.g0, s.mem.g1, s.mem.t2Key, m1, m2, m3, m4, m5, m6, m7, m8, m9,
      m10, m11, m12, m13, m14⟩, f, g, i, j, k, l, m, n, o, p, r, t, u, v, s.pending⟩ :=
  ⟨h.pending, h.regs, h.mem.t0, h.mem.t1, h.mem.t2, h.mem.host, h.mem.g0, h.mem.g1, h.mem.t2Key⟩

/-- A change of memory as a whole. -/
theorem updMemory {q : List Instr} {s : State} (h : Keeps q s) {e : Mem} (he : MemWf e) (a b c d f g i j k l m n o p r t u v) :
    Keeps q ⟨s.regs, a, b, c, d, e, f, g, i, j, k, l, m, n, o, p, r, t, u, v, s.pending⟩ :=
  ⟨h.pending, h.regs, he⟩

theorem memOf {q : List Instr} {s : State} (h : Keeps q s) : MemWf s.mem := h.mem

theorem setWord {q : List Instr} {s : State} (h : Keeps q s) (k v : Nat) : Keeps q (s.setWord k v) :=
  ⟨h.pending, State.setWord_wf k v h.regs, h.mem⟩

theorem resetRegs {q : List Instr} {s : State} (h : Keeps q s) (p : Nat → Bool) : Keeps q (s.resetRegs p) :=
  ⟨h.pending, Tab.wf_clearKeys regReset p h.regs, h.mem⟩

end Keeps

/-- A meaning's next state keeps them. -/
def KeepsO (q : List Instr) (o : Host.Outcome State Fault Refusal) : Prop := ∀ t, o = .next t → Keeps q t

theorem KeepsO.done {q : List Instr} {s : State} (h : Keeps q s) : KeepsO q (done s) := by
  intro t ht
  cases ht
  exact h

theorem KeepsO.unit {q : List Instr} {s : State} {c : Bool} (h : Keeps q s) : KeepsO q (unit c s) := by
  intro t ht
  cases c
  · cases ht
  · cases ht
    exact h

end Sys2Proof.Machine
end

