-- ==== Sys2Proof/Laws/KeepsOps.lean ====
section
/-!
SUPPORT. What the operations of Machine/Ops.lean keep.
-/

namespace Sys2Proof.Machine

theorem Keeps.when {q : List Instr} {s : State} (h : Keeps q s) (c : Bool) (f : State → State) (hf_f : ∀ a0, Keeps q a0 → Keeps q (f a0)) :
    Keeps q (State.when s c f) := by
  unfold State.when
  exact Keeps.ite (hf_f _ (h)) h

theorem Keeps.setWord64 {q : List Instr} {s : State} (h : Keeps q s) (k : ℕ) (v : ℕ) :
    Keeps q (State.setWord64 s k v) := by
  unfold State.setWord64
  exact Keeps.setWord (Keeps.setWord h _ _) _ _

theorem Keeps.wr {q : List Instr} {s : State} (h : Keeps q s) (f : RField) (v : ℕ) :
    Keeps q (State.wr s f v) := by
  unfold State.wr
  exact Keeps.ite (Keeps.setWord h _ _) (Keeps.setWord64 h _ _)

theorem Keeps.setFlag {q : List Instr} {s : State} (h : Keeps q s) (f : RField) (b : Bool) :
    Keeps q (State.setFlag s f b) := by
  unfold State.setFlag
  exact Keeps.wr h _ _

theorem Keeps.bump {q : List Instr} {s : State} (h : Keeps q s) (f : RField) (n : ℕ) :
    Keeps q (State.bump s f n) := by
  unfold State.bump
  exact Keeps.wr h _ _

theorem Keeps.bumpWrap {q : List Instr} {s : State} (h : Keeps q s) (f : RField) (n : ℕ) :
    Keeps q (State.bumpWrap s f n) := by
  unfold State.bumpWrap
  exact Keeps.wr h _ _

theorem Keeps.skip {q : List Instr} {s : State} (h : Keeps q s) (n : ℕ) :
    Keeps q (State.skip s n) := by
  unfold State.skip
  exact Keeps.upd h _ _ _ _ _ _ _ _ _ _ _ _ _ _ _ _ _ _

theorem Keeps.setInst {q : List Instr} {s : State} (h : Keeps q s) (i : ℕ) (v : Inst) :
    Keeps q (State.setInst s i v) := by
  unfold State.setInst
  exact Keeps.upd h _ _ _ _ _ _ _ _ _ _ _ _ _ _ _ _ _ _

theorem Keeps.modInst {q : List Instr} {s : State} (h : Keeps q s) (i : ℕ) (f : Inst → Inst) :
    Keeps q (State.modInst s i f) := by
  unfold State.modInst
  exact Keeps.setInst h _ _

theorem Keeps.setDeck {q : List Instr} {s : State} (h : Keeps q s) (e : ℕ) (k : ℕ) (v : Deck) :
    Keeps q (State.setDeck s e k v) := by
  unfold State.setDeck
  exact Keeps.upd h _ _ _ _ _ _ _ _ _ _ _ _ _ _ _ _ _ _

theorem Keeps.modDeck {q : List Instr} {s : State} (h : Keeps q s) (e : ℕ) (k : ℕ) (f : Deck → Deck) :
    Keeps q (State.modDeck s e k f) := by
  unfold State.modDeck
  exact Keeps.setDeck h _ _ _

theorem Keeps.setEngine {q : List Instr} {s : State} (h : Keeps q s) (e : ℕ) (v : Engine) :
    Keeps q (State.setEngine s e v) := by
  unfold State.setEngine
  exact Keeps.upd h _ _ _ _ _ _ _ _ _ _ _ _ _ _ _ _ _ _

theorem Keeps.modEngine {q : List Instr} {s : State} (h : Keeps q s) (e : ℕ) (f : Engine → Engine) :
    Keeps q (State.modEngine s e f) := by
  unfold State.modEngine
  exact Keeps.setEngine h _ _

theorem Keeps.setBuf {q : List Instr} {s : State} (h : Keeps q s) (i : ℕ) (v : Buf) :
    Keeps q (State.setBuf s i v) := by
  unfold State.setBuf
  exact Keeps.updMemory h (MemWf.upd (Keeps.memOf h) _ _ _ _ _ _ _ _ _ _ _ _ _ _) _ _ _ _ _ _ _ _ _ _ _ _ _ _ _ _ _ _

theorem Keeps.setLane {q : List Instr} {s : State} (h : Keeps q s) (l : ℕ) (v : Lane) :
    Keeps q (State.setLane s l v) := by
  unfold State.setLane
  exact Keeps.upd h _ _ _ _ _ _ _ _ _ _ _ _ _ _ _ _ _ _

theorem Keeps.modLane {q : List Instr} {s : State} (h : Keeps q s) (l : ℕ) (f : Lane → Lane) :
    Keeps q (State.modLane s l f) := by
  unfold State.modLane
  exact Keeps.setLane h _ _

theorem Keeps.setPort {q : List Instr} {s : State} (h : Keeps q s) (p : ℕ) (v : Port) :
    Keeps q (State.setPort s p v) := by
  unfold State.setPort
  exact Keeps.upd h _ _ _ _ _ _ _ _ _ _ _ _ _ _ _ _ _ _

theorem Keeps.spend {q : List Instr} {s : State} (h : Keeps q s) (k : ℕ) (pj : ℕ) :
    Keeps q (State.spend s k pj) := by
  unfold State.spend
  exact Keeps.upd h _ _ _ _ _ _ _ _ _ _ _ _ _ _ _ _ _ _

theorem Keeps.spendFree {q : List Instr} {s : State} (h : Keeps q s) (i : ℕ) (pj : ℕ) :
    Keeps q (State.spendFree s i pj) := by
  unfold State.spendFree
  exact Keeps.spend h _ _

theorem Keeps.spendT2 {q : List Instr} {s : State} (h : Keeps q s) (n : ℕ) :
    Keeps q (State.spendT2 s n) := by
  unfold State.spendT2
  exact Keeps.spendFree (Keeps.spendFree h _ _) _ _

theorem Keeps.msix {q : List Instr} {s : State} (h : Keeps q s) (f : ℕ) (v : ℕ) :
    Keeps q (State.msix s f v) := by
  unfold State.msix
  exact Keeps.ite (Keeps.ite (Keeps.wr h _ _) (Keeps.upd h _ _ _ _ _ _ _ _ _ _ _ _ _ _ _ _ _ _)) h

theorem Keeps.irq {q : List Instr} {s : State} (h : Keeps q s) (en : Bool) (v : ℕ) :
    Keeps q (State.irq s en v) := by
  unfold State.irq
  exact Keeps.ite (Keeps.msix h _ _) h

theorem Keeps.setWords {q : List Instr} {s : State} (h : Keeps q s) (k : ℕ) (y_2 : List ℕ) :
    Keeps q (State.setWords s k y_2) := by
  induction y_2 generalizing s k with
  | nil =>
    unfold State.setWords
    exact h
  | cons w_ t_ ih =>
    unfold State.setWords
    exact ih (Keeps.setWord h _ _) _

theorem Keeps.uartLine {q : List Instr} {s : State} (h : Keeps q s) (bs : List ℕ) :
    Keeps q (State.uartLine s bs) := by
  unfold State.uartLine
  exact Keeps.ite (Keeps.upd h _ _ _ _ _ _ _ _ _ _ _ _ _ _ _ _ _ _) h

theorem Keeps.logRecord {q : List Instr} {s : State} (h : Keeps q s) (r : Record) :
    Keeps q (State.logRecord s r) := by
  unfold State.logRecord
  exact Keeps.ite h (Keeps.ite (Keeps.irq (Keeps.uartLine (Keeps.wr (Keeps.setWords h _ _) _ _) _) _ _) (Keeps.bump h _ _))

theorem Keeps.queueRecord {q : List Instr} {s : State} (h : Keeps q s) (r : Record) (dests : List (ℕ × Bool)) :
    Keeps q (State.queueRecord s r dests) := by
  unfold State.queueRecord
  exact Keeps.upd h _ _ _ _ _ _ _ _ _ _ _ _ _ _ _ _ _ _

theorem Keeps.halt {q : List Instr} {s : State} (h : Keeps q s) (r : Record) :
    Keeps q (State.halt s r) := by
  unfold State.halt
  exact Keeps.setFlag (Keeps.setFlag (Keeps.ite (Keeps.upd h _ _ _ _ _ _ _ _ _ _ _ _ _ _ _ _ _ _) (Keeps.setFlag (Keeps.setWords (Keeps.upd h _ _ _ _ _ _ _ _ _ _ _ _ _ _ _ _ _ _) _ _) _ _)) _ _) _ _

theorem Keeps.countRecord {q : List Instr} {s : State} (h : Keeps q s) (cls : ℕ) :
    Keeps q (State.countRecord s cls) := by
  unfold State.countRecord
  exact Keeps.bump (Keeps.upd h _ _ _ _ _ _ _ _ _ _ _ _ _ _ _ _ _ _) _ _

theorem Keeps.raiseTo {q : List Instr} {s : State} (h : Keeps q s) (code : ℕ) (cls : ℕ) (owner : ℕ) (info0 : ℕ) (info1 : ℕ) (log : Bool) (dests : List (ℕ × Bool)) :
    Keeps q (State.raiseTo s code cls owner info0 info1 log dests) := by
  unfold State.raiseTo
  exact Keeps.ite (Keeps.countRecord h _) (Keeps.ite (Keeps.ite (Keeps.upd (Keeps.countRecord h _) _ _ _ _ _ _ _ _ _ _ _ _ _ _ _ _ _ _) (Keeps.bump (Keeps.countRecord h _) _ _)) (Keeps.queueRecord (Keeps.ite (Keeps.logRecord (Keeps.countRecord h _) _) (Keeps.countRecord h _)) _ _))

theorem Keeps.tellMaster {q : List Instr} {s : State} (h : Keeps q s) (r : Record) :
    Keeps q (State.tellMaster s r) := by
  unfold State.tellMaster
  exact Keeps.ite (Keeps.queueRecord h _ _) h

theorem Keeps.raise {q : List Instr} {s : State} (h : Keeps q s) (code : ℕ) (cls : ℕ) (owner : ℕ) (info0 : ℕ) (info1 : ℕ) :
    Keeps q (State.raise s code cls owner info0 info1) := by
  unfold State.raise
  exact Keeps.ite (Keeps.ite (Keeps.countRecord h _) (Keeps.tellMaster (Keeps.halt (Keeps.ite (Keeps.countRecord h _) (Keeps.logRecord (Keeps.countRecord h _) _)) _) _)) (Keeps.raiseTo h _ _ _ _ _ _ _)

theorem Keeps.raiseOwner {q : List Instr} {s : State} (h : Keeps q s) (code : ℕ) (owner : ℕ) (info0 : ℕ) (info1 : ℕ) :
    Keeps q (State.raiseOwner s code owner info0 info1) := by
  unfold State.raiseOwner
  exact Keeps.raiseTo h _ _ _ _ _ _ _

theorem Keeps.recordWake {q : List Instr} {s : State} (h : Keeps q s) (w : Wake) (from_ : PState) (replayed : Bool) :
    Keeps q (State.recordWake s w from_ replayed) := by
  unfold State.recordWake
  exact Keeps.setWord64 (Keeps.setWord h _ _) _ _

theorem Keeps.startExit {q : List Instr} {s : State} (h : Keeps q s) (src : ℕ) :
    Keeps q (State.startExit s src) := by
  unfold State.startExit
  exact Keeps.ite h (Keeps.upd h _ _ _ _ _ _ _ _ _ _ _ _ _ _ _ _ _ _)

theorem Keeps.wake {q : List Instr} {s : State} (h : Keeps q s) (src : ℕ) (detail : ℕ) :
    Keeps q (State.wake s src detail) := by
  unfold State.wake
  exact Keeps.ite h (by
    try dsimp only
    split
    · exact Keeps.ite (Keeps.ite (Keeps.upd (Keeps.bump h _ _) _ _ _ _ _ _ _ _ _ _ _ _ _ _ _ _ _ _) (Keeps.bump h _ _)) h
    · exact Keeps.ite (Keeps.ite (Keeps.bump h _ _) (Keeps.startExit (Keeps.upd (Keeps.recordWake (Keeps.bump h _ _) _ _ _) _ _ _ _ _ _ _ _ _ _ _ _ _ _ _ _ _ _) _)) h)

theorem Keeps.pcieTouch {q : List Instr} {s : State} (h : Keeps q s) (f : ℕ) :
    Keeps q (State.pcieTouch s f) := by
  unfold State.pcieTouch
  exact Keeps.wake h _ _

theorem Keeps.dropHeld {q : List Instr} {s : State} (h : Keeps q s) (path : ℕ) :
    Keeps q (State.dropHeld s path) := by
  unfold State.dropHeld
  exact Keeps.upd h _ _ _ _ _ _ _ _ _ _ _ _ _ _ _ _ _ _

theorem Keeps.cmdWrite {q : List Instr} {s : State} (h : Keeps q s) (f : ℕ) (g : State → State) (hf_g : ∀ a0, Keeps q a0 → Keeps q (g a0)) :
    Keeps q (State.cmdWrite s f g) := by
  unfold State.cmdWrite
  exact Keeps.pcieTouch (hf_g _ (Keeps.dropHeld h _)) _

theorem Keeps.busyNow {q : List Instr} {s : State} (h : Keeps q s) :
    Keeps q (State.busyNow s) := by
  unfold State.busyNow
  exact Keeps.upd h _ _ _ _ _ _ _ _ _ _ _ _ _ _ _ _ _ _

end Sys2Proof.Machine
end

