-- ==== Sys2Proof/Laws/KeepsChainOps.lean ====
section
/-!
SUPPORT. What the operations of Machine/ChainOps.lean keep.
-/

namespace Sys2Proof.Machine

theorem Keeps.setPortState {q : List Instr} {s : State} (h : Keeps q s) (p : ℕ) (st : ℕ) :
    Keeps q (State.setPortState s p st) := by
  unfold State.setPortState
  exact Keeps.wr (Keeps.wr (Keeps.setPort h _ _) _ _) _ _

theorem Keeps.pumpPort {q : List Instr} {s : State} (h : Keeps q s) (p : ℕ) :
    Keeps q (State.pumpPort s p) := by
  unfold State.pumpPort
  exact Keeps.ite (Keeps.bump (Keeps.setPort h _ _) _ _) h

theorem Keeps.sendIdle {q : List Instr} {s : State} (h : Keeps q s) (p : ℕ) :
    Keeps q (State.sendIdle s p) := by
  unfold State.sendIdle
  exact Keeps.ite (Keeps.bump (Keeps.setPort h _ _) _ _) h

theorem Keeps.enqueue {q : List Instr} {s : State} (h : Keeps q s) (p : ℕ) (f : Flit) :
    Keeps q (State.enqueue s p f) := by
  unfold State.enqueue
  exact Keeps.pumpPort (Keeps.setPort h _ _) _

theorem Keeps.sendFlit {q : List Instr} {s : State} (h : Keeps q s) (dst : ℕ) (i : ℕ) (pl : Payload) :
    Keeps q (State.sendFlit s dst i pl) := by
  unfold State.sendFlit
  try dsimp only
  split
  · exact h
  · exact Keeps.enqueue h _ _

theorem Keeps.sendOut {q : List Instr} {s : State} (h : Keeps q s) (p : ℕ) (pl : Payload) :
    Keeps q (State.sendOut s p pl) := by
  unfold State.sendOut
  exact Keeps.enqueue h _ _

end Sys2Proof.Machine
end

