-- ==== Sys2Proof/Laws/KeepsMemOps.lean ====
section
/-!
SUPPORT. What the operations of Machine/MemOps.lean keep.
-/

namespace Sys2Proof.Machine

theorem Keeps.hostStore {q : List Instr} {s : State} (h : Keeps q s) (a : ℕ) (bs : List ℕ) :
    Keeps q (State.hostStore s a bs) := by
  unfold State.hostStore
  exact ⟨h.pending, h.regs, h.mem.t0, h.mem.t1, h.mem.t2, cellsWrite_wf _ _ _ h.mem.host, h.mem.g0, h.mem.g1, h.mem.t2Key⟩

theorem Keeps.hostWrite {q : List Instr} {s : State} (h : Keeps q s) (i : ℕ) (a : ℕ) (bs : List ℕ) :
    Keeps q (State.hostWrite s i a bs) := by
  unfold State.hostWrite
  exact Keeps.ite (Keeps.foldl (fun _ _ h3 => Keeps.sendFlit (Keeps.upd h3 _ _ _ _ _ _ _ _ _ _ _ _ _ _ _ _ _ _) _ _ _) (Keeps.hostStore h _ _)) (Keeps.hostStore h _ _)

theorem Keeps.hostAsk {q : List Instr} {s : State} (h : Keeps q s) (i : ℕ) (a : ℕ) (n : ℕ) :
    Keeps q (State.hostAsk s i a n) := by
  unfold State.hostAsk
  exact Keeps.ite (Keeps.foldl (fun _ _ h3 => Keeps.sendFlit (Keeps.upd h3 _ _ _ _ _ _ _ _ _ _ _ _ _ _ _ _ _ _) _ _ _) h) h

theorem Keeps.sramEcc {q : List Instr} {s : State} (h : Keeps q s) (tier : ℕ) (u : ℕ) (a : ℕ) (n : ℕ) :
    Keeps q (State.sramEcc s tier u a n) := by
  unfold State.sramEcc
  exact Keeps.ite h (Keeps.bump (Keeps.bump (Keeps.updMemory h (foldl_wf (fun _ _ h3 => Mem.setGranule_wf (h3) _ _ _) _ (Keeps.memOf h)) _ _ _ _ _ _ _ _ _ _ _ _ _ _ _ _ _ _) _ _) _ _)

theorem Keeps.sramRead {q : List Instr} {s : State} (h : Keeps q s) (tier : ℕ) (i : ℕ) (u : ℕ) (a : ℕ) (n : ℕ) :
    Keeps q (State.sramRead s tier i u a n).1 := by
  unfold State.sramRead
  exact Keeps.pair (Keeps.ite (Keeps.bump (Keeps.ite (Keeps.bump (Keeps.sramEcc h _ _ _ _) _ _) (Keeps.sramEcc h _ _ _ _)) _ _) (Keeps.ite (Keeps.bump (Keeps.sramEcc h _ _ _ _) _ _) (Keeps.sramEcc h _ _ _ _)))

theorem Keeps.sramWrite {q : List Instr} {s : State} (h : Keeps q s) (tier : ℕ) (i : ℕ) (u : ℕ) (a : ℕ) (bs : List ℕ) :
    Keeps q (State.sramWrite s tier i u a bs).1 := by
  unfold State.sramWrite
  exact Keeps.pair (Keeps.ite (Keeps.updMemory h (Mem.sramWrite_wf (Keeps.memOf h) _ _ _ _ _) _ _ _ _ _ _ _ _ _ _ _ _ _ _ _ _ _ _) (Keeps.bump (Keeps.updMemory h (Mem.sramWrite_wf (Keeps.memOf h) _ _ _ _ _) _ _ _ _ _ _ _ _ _ _ _ _ _ _ _ _ _ _) _ _))

theorem Keeps.retirePage {q : List Instr} {s : State} (h : Keeps q s) (p : ℕ) (owner : ℕ) (y_3 : ℕ) :
    Keeps q (State.retirePage s p owner y_3) := by
  unfold State.retirePage
  exact Keeps.raise (Keeps.bump (Keeps.updMemory h (MemWf.upd (Keeps.memOf h) _ _ _ _ _ _ _ _ _ _ _ _ _ _) _ _ _ _ _ _ _ _ _ _ _ _ _ _ _ _ _ _) _ _) _ _ _ _ _

theorem Keeps.pageFind {q : List Instr} {s : State} (h : Keeps q s) (p : ℕ) (blk : ℕ) :
    Keeps q (State.pageFind s p blk) := by
  unfold State.pageFind
  exact Keeps.ite h (Keeps.ite (Keeps.upd h _ _ _ _ _ _ _ _ _ _ _ _ _ _ _ _ _ _) (by
    try dsimp only
    split
    · exact Keeps.retirePage (Keeps.upd h _ _ _ _ _ _ _ _ _ _ _ _ _ _ _ _ _ _) _ _ _
    · exact by
        try dsimp only
        split
        · exact Keeps.upd (Keeps.skip (Keeps.upd h _ _ _ _ _ _ _ _ _ _ _ _ _ _ _ _ _ _) _) _ _ _ _ _ _ _ _ _ _ _ _ _ _ _ _ _ _
        · exact Keeps.bump (Keeps.upd (Keeps.upd h _ _ _ _ _ _ _ _ _ _ _ _ _ _ _ _ _ _) _ _ _ _ _ _ _ _ _ _ _ _ _ _ _ _ _ _) _ _))

theorem Keeps.poisonT2 {q : List Instr} {s : State} (h : Keeps q s) (blk : ℕ) :
    Keeps q (State.poisonT2 s blk) := by
  unfold State.poisonT2
  exact Keeps.updMemory h (MemWf.upd (Keeps.memOf h) _ _ _ _ _ _ _ _ _ _ _ _ _ _) _ _ _ _ _ _ _ _ _ _ _ _ _ _ _ _ _ _

theorem Keeps.t2Ecc {q : List Instr} {s : State} (h : Keeps q s) (blks : List ℕ) :
    Keeps q (State.t2Ecc s blks) := by
  unfold State.t2Ecc
  exact Keeps.ite h (Keeps.foldl (fun _ _ h3 => Keeps.pageFind (Keeps.poisonT2 (Keeps.bump h3 _ _) _) _ _) (Keeps.bump h _ _))

theorem Keeps.t2Read {q : List Instr} {s : State} (h : Keeps q s) (i : ℕ) (y_2 : ℕ) (o : ℕ) (n : ℕ) :
    Keeps q (State.t2Read s i y_2 o n).1 := by
  unfold State.t2Read
  try dsimp only
  split
  · exact Keeps.pair h
  · exact Keeps.ite1 (Keeps.pair h) (by
      try dsimp only
      split
      · exact Keeps.pair (Keeps.spendT2 (Keeps.t2Ecc h _) _)
      · exact Keeps.pair (Keeps.ite (Keeps.bump (Keeps.spendT2 (Keeps.t2Ecc h _) _) _ _) (Keeps.spendT2 (Keeps.t2Ecc h _) _)))

theorem Keeps.t2Write {q : List Instr} {s : State} (h : Keeps q s) (i : ℕ) (y_2 : ℕ) (o : ℕ) (bs : List ℕ) :
    Keeps q (State.t2Write s i y_2 o bs).1 := by
  unfold State.t2Write
  try dsimp only
  split
  · exact Keeps.pair h
  · exact Keeps.ite1 (Keeps.pair h) (Keeps.pair (Keeps.spendT2 (Keeps.updMemory h (foldl_wf (fun _ _ h3 => Mem.t2Write_wf (h3) _ _ _) _ (Keeps.memOf h)) _ _ _ _ _ _ _ _ _ _ _ _ _ _ _ _ _ _) _))

theorem Keeps.readSpace {q : List Instr} {s : State} (h : Keeps q s) (i : ℕ) (space : ℕ) (u : ℕ) (o : ℕ) (n : ℕ) :
    Keeps q (State.readSpace s i space u o n).1 := by
  unfold State.readSpace
  exact Keeps.ite1 (Keeps.sramRead h _ _ _ _ _) (Keeps.ite1 (Keeps.t2Read h _ _ _ _) (Keeps.ite1 (Keeps.pair h) (Keeps.pair (Keeps.hostAsk h _ _ _))))

theorem Keeps.writeSpace {q : List Instr} {s : State} (h : Keeps q s) (i : ℕ) (space : ℕ) (u : ℕ) (o : ℕ) (bs : List ℕ) :
    Keeps q (State.writeSpace s i space u o bs).1 := by
  unfold State.writeSpace
  exact Keeps.ite1 (Keeps.sramWrite h _ _ _ _ _) (Keeps.ite1 (Keeps.t2Write h _ _ _ _) (Keeps.ite1 (Keeps.pair (Keeps.hostWrite h _ _ _)) (Keeps.pair h)))

end Sys2Proof.Machine
end

