-- ==== Sys2Proof/Laws/KeepsRingOps.lean ====
section
/-!
SUPPORT. What the operations of Machine/RingOps.lean keep.
-/

namespace Sys2Proof.Machine

theorem Keeps.dropDesc {q : List Instr} {s : State} (h : Keeps q s) (uid : ℕ) :
    Keeps q (State.dropDesc s uid) := by
  unfold State.dropDesc
  exact Keeps.foldl (fun _ _ h3 => Keeps.setFlag h3 _ _) (Keeps.upd h _ _ _ _ _ _ _ _ _ _ _ _ _ _ _ _ _ _)

theorem Keeps.completeC {q : List Instr} {s : State} (h : Keeps q s) (uid : ℕ) (status : ℕ) (detail : ℕ) (counters : Option (ℕ × ℕ × ℕ × ℕ × ℕ)) :
    Keeps q (State.completeC s uid status detail counters) := by
  unfold State.completeC
  try dsimp only
  split
  · exact h
  · exact Keeps.busyNow (Keeps.upd (Keeps.dropDesc h _) _ _ _ _ _ _ _ _ _ _ _ _ _ _ _ _ _ _)

theorem Keeps.complete {q : List Instr} {s : State} (h : Keeps q s) (uid : ℕ) (status : ℕ) (detail : ℕ) :
    Keeps q (State.complete s uid status detail) := by
  unfold State.complete
  exact Keeps.completeC h _ _ _ _

theorem Keeps.started {q : List Instr} {s : State} (h : Keeps q s) (uid : ℕ) :
    Keeps q (State.started s uid) := by
  unfold State.started
  exact Keeps.busyNow (Keeps.upd h _ _ _ _ _ _ _ _ _ _ _ _ _ _ _ _ _ _)

theorem Keeps.onDesc {q : List Instr} {s : State} (h : Keeps q s) (f : ℕ) (w : ℕ) (t : ℕ) (g : State → Desc → State) (hf_g : ∀ a0 a1, Keeps q a0 → Keeps q (g a0 a1)) :
    Keeps q (State.onDesc s f w t g) := by
  unfold State.onDesc
  try dsimp only
  split
  · exact h
  · exact hf_g _ _ (Keeps.started h _)

theorem Keeps.writeDone {q : List Instr} {s : State} (h : Keeps q s) (f : ℕ) (d : ℕ) (bytes : Bool → List ℕ) (vector : Bool) :
    Keeps q (State.writeDone s f d bytes vector) := by
  unfold State.writeDone
  exact Keeps.ite (Keeps.msix (Keeps.wr (Keeps.hostWrite h _ _ _) _ _) _ _) (Keeps.wr (Keeps.hostWrite h _ _ _) _ _)

theorem Keeps.deliverDone {q : List Instr} {s : State} (h : Keeps q s) (c : CRec) :
    Keeps q (State.deliverDone s c) := by
  unfold State.deliverDone
  exact Keeps.ite (Keeps.writeDone h _ _ _ _) (Keeps.wr (Keeps.upd h _ _ _ _ _ _ _ _ _ _ _ _ _ _ _ _ _ _) _ _)

theorem Keeps.writeEvent {q : List Instr} {s : State} (h : Keeps q s) (f : ℕ) (r : Record) :
    Keeps q (State.writeEvent s f r) := by
  unfold State.writeEvent
  exact Keeps.ite (Keeps.msix (Keeps.wr (Keeps.hostWrite h _ _ _) _ _) _ _) (Keeps.wr (Keeps.hostWrite h _ _ _) _ _)

theorem Keeps.setLost {q : List Instr} {s : State} (h : Keeps q s) (f : ℕ) (n : ℕ) :
    Keeps q (State.setLost s f n) := by
  unfold State.setLost
  exact Keeps.upd h _ _ _ _ _ _ _ _ _ _ _ _ _ _ _ _ _ _

theorem Keeps.deliverEvent {q : List Instr} {s : State} (h : Keeps q s) (f : ℕ) (r : Record) :
    Keeps q (State.deliverEvent s f r) := by
  unfold State.deliverEvent
  exact Keeps.ite (Keeps.bump h _ _) (Keeps.ite (Keeps.setLost (Keeps.bump h _ _) _ _) (Keeps.writeEvent h _ _))

theorem Keeps.overflowMarker {q : List Instr} {s : State} (h : Keeps q s) (f : ℕ) :
    Keeps q (State.overflowMarker s f) := by
  unfold State.overflowMarker
  exact Keeps.ite (Keeps.writeEvent (Keeps.setLost (Keeps.countRecord h _) _ _) _ _) h

theorem Keeps.forwardRecord {q : List Instr} {s : State} (h : Keeps q s) (kind : ℕ) (ring : ℕ) (slot : ℕ) (i : ℕ) (bytes : List ℕ) :
    Keeps q (State.forwardRecord s kind ring slot i bytes) := by
  unfold State.forwardRecord
  exact Keeps.sendFlit h _ _ _

end Sys2Proof.Machine
end

