-- ==== Sys2Proof/Laws/KeepsStepOps.lean ====
section
/-!
SUPPORT. What the operations of Machine/StepOps.lean keep.
-/

namespace Sys2Proof.Machine

theorem Keeps.modStep {q : List Instr} {s : State} (h : Keeps q s) (uid : ℕ) (f : Step → Step) :
    Keeps q (State.modStep s uid f) := by
  unfold State.modStep
  exact Keeps.upd h _ _ _ _ _ _ _ _ _ _ _ _ _ _ _ _ _ _

theorem Keeps.modOp {q : List Instr} {s : State} (h : Keeps q s) (uid : ℕ) (st : ℕ) (op : ℕ) (f : Op → Op) :
    Keeps q (State.modOp s uid st op f) := by
  unfold State.modOp
  exact Keeps.modStep h _ _

theorem Keeps.setStage {q : List Instr} {s : State} (h : Keeps q s) (uid : ℕ) (st : ℕ) (op : ℕ) (n : ℕ) :
    Keeps q (State.setStage s uid st op n) := by
  unfold State.setStage
  exact Keeps.modOp h _ _ _ _

theorem Keeps.opDone {q : List Instr} {s : State} (h : Keeps q s) (uid : ℕ) (st : ℕ) (op : ℕ) :
    Keeps q (State.opDone s uid st op) := by
  unfold State.opDone
  exact Keeps.busyNow (Keeps.setStage h _ _ _ _)

theorem Keeps.onOp {q : List Instr} {s : State} (h : Keeps q s) (uid : ℕ) (st : ℕ) (op : ℕ) (code : ℕ) (f : Step → Stream → Op → State) (hf_f : ∀ a0 a1 a2, Keeps q (f a0 a1 a2)) :
    Keeps q (State.onOp s uid st op code f) := by
  unfold State.onOp
  try dsimp only
  split
  · exact Keeps.ite (hf_f _ _ _) h
  · exact h

theorem Keeps.dropWaits {q : List Instr} {s : State} (h : Keeps q s) (p : Wait → Bool) :
    Keeps q (State.dropWaits s p) := by
  unfold State.dropWaits
  exact Keeps.foldl (fun _ _ h3 => Keeps.ite (Keeps.opDone h3 _ _ _) h3) (Keeps.upd h _ _ _ _ _ _ _ _ _ _ _ _ _ _ _ _ _ _)

theorem Keeps.failWith {q : List Instr} {s : State} (h : Keeps q s) (uid : ℕ) (status : ℕ) (hi : ℕ) (info1 : ℕ) (sched : ℕ) (noisy : Bool) :
    Keeps q (State.failWith s uid status hi info1 sched noisy) := by
  unfold State.failWith
  try dsimp only
  split
  · exact h
  · exact Keeps.ite h (Keeps.dropWaits (Keeps.ite (Keeps.raise (Keeps.modStep h _ _) _ _ _ _ _) (Keeps.modStep h _ _)) _)

theorem Keeps.failStep {q : List Instr} {s : State} (h : Keeps q s) (uid : ℕ) (status : ℕ) (hi : ℕ) (info1 : ℕ) (sched : ℕ) :
    Keeps q (State.failStep s uid status hi info1 sched) := by
  unfold State.failStep
  exact Keeps.failWith h _ _ _ _ _ _

theorem Keeps.failAccess {q : List Instr} {s : State} (h : Keeps q s) (uid : ℕ) (a : Access) (sched : ℕ) :
    Keeps q (State.failAccess s uid a sched) := by
  unfold State.failAccess
  exact Keeps.ite h (Keeps.failStep h _ _ _ _ _)

theorem Keeps.fetchStep {q : List Instr} {s : State} (h : Keeps q s) (uid : ℕ) :
    Keeps q (State.fetchStep s uid) := by
  unfold State.fetchStep
  exact Keeps.modStep h _ _

end Sys2Proof.Machine
end

