-- ==== Sys2Proof/Laws/KeepsMirrorOps.lean ====
section
/-!
SUPPORT. What the operations of Machine/MirrorOps.lean keep.
-/

namespace Sys2Proof.Machine

theorem Keeps.mirrorWrite {q : List Instr} {s : State} (h : Keeps q s) (i : ℕ) (k : ℕ) (off : ℕ) (bs : List ℕ) (uid : ℕ) (st : ℕ) (op : ℕ) (isDesc : Bool) :
    Keeps q (State.mirrorWrite s i k off bs uid st op isDesc).1 := by
  unfold State.mirrorWrite
  exact Keeps.ite1 (Keeps.pair h) (Keeps.pair (Keeps.foldl (fun _ _ h3 => Keeps.sendFlit h3 _ _ _) (Keeps.upd h _ _ _ _ _ _ _ _ _ _ _ _ _ _ _ _ _ _)))

end Sys2Proof.Machine
end

