-- ==== Sys2Proof/Laws/KeepsPegOps.lean ====
section
/-!
SUPPORT. What the operations of Machine/PegOps.lean keep.
-/

namespace Sys2Proof.Machine

theorem Keeps.returned {q : List Instr} {s : State} (h : Keeps q s) (d : ℕ) :
    Keeps q (State.returned s d) := by
  unfold State.returned
  exact Keeps.ite (Keeps.bump h _ _) h

theorem Keeps.pegTouch {q : List Instr} {s : State} (h : Keeps q s) (i : ℕ) (l : PegLoc) :
    Keeps q (State.pegTouch s i l) := by
  unfold State.pegTouch
  exact Keeps.ite (Keeps.sramWrite h _ _ _ _ _) h

theorem Keeps.pegStore {q : List Instr} {s : State} (h : Keeps q s) (i : ℕ) (l : PegLoc) (v : ℕ) :
    Keeps q (State.pegStore s i l v) := by
  unfold State.pegStore
  exact Keeps.ite (Keeps.upd h _ _ _ _ _ _ _ _ _ _ _ _ _ _ _ _ _ _) (Keeps.ite (Keeps.sramWrite h _ _ _ _ _) (Keeps.upd (Keeps.t2Write h _ _ _ _) _ _ _ _ _ _ _ _ _ _ _ _ _ _ _ _ _ _))

theorem Keeps.pegMsix {q : List Instr} {s : State} (h : Keeps q s) (i : ℕ) (m : ℕ) :
    Keeps q (State.pegMsix s i m) := by
  unfold State.pegMsix
  exact Keeps.ite h (Keeps.msix h _ _)

theorem Keeps.finishWait {q : List Instr} {s : State} (h : Keeps q s) (w : Wait) (v : ℕ) :
    Keeps q (State.finishWait s w v) := by
  unfold State.finishWait
  exact Keeps.pegMsix (by
    try dsimp only
    split
    · exact Keeps.complete h _ _ _
    · exact Keeps.opDone h _ _ _) _ _

theorem Keeps.releaseWaits {q : List Instr} {s : State} (h : Keeps q s) (l : PegLoc) (v : ℕ) :
    Keeps q (State.releaseWaits s l v) := by
  unfold State.releaseWaits
  exact Keeps.foldl (fun _ _ h3 => Keeps.finishWait h3 _ _) (Keeps.upd h _ _ _ _ _ _ _ _ _ _ _ _ _ _ _ _ _ _)

theorem Keeps.setSignaller {q : List Instr} {s : State} (h : Keeps q s) (l : PegLoc) (id : ℕ) :
    Keeps q (State.setSignaller s l id) := by
  unfold State.setSignaller
  exact Keeps.ite (Keeps.upd h _ _ _ _ _ _ _ _ _ _ _ _ _ _ _ _ _ _) h

theorem Keeps.becomesPeg {q : List Instr} {s : State} (h : Keeps q s) (l : PegLoc) :
    Keeps q (State.becomesPeg s l) := by
  unfold State.becomesPeg
  exact Keeps.ite h (Keeps.upd h _ _ _ _ _ _ _ _ _ _ _ _ _ _ _ _ _ _)

theorem Keeps.pegOp {q : List Instr} {s : State} (h : Keeps q s) (i : ℕ) (l : PegLoc) (compat : Bool) (set : Bool) (v : ℕ) (id : ℕ) :
    Keeps q (State.pegOp s i l compat set v id) := by
  unfold State.pegOp
  try dsimp only
  split
  · exact Keeps.sendFlit h _ _ _
  · exact Keeps.releaseWaits (Keeps.setSignaller (Keeps.pegStore h _ _ _) _ _) _ _

theorem Keeps.setShadow {q : List Instr} {s : State} (h : Keeps q s) (uid : ℕ) (a : ℕ) (v : ℕ) :
    Keeps q (State.setShadow s uid a v) := by
  unfold State.setShadow
  exact Keeps.hostWrite (Keeps.upd h _ _ _ _ _ _ _ _ _ _ _ _ _ _ _ _ _ _) _ _ _

theorem Keeps.register {q : List Instr} {s : State} (h : Keeps q s) (w : Wait) :
    Keeps q (State.register s w) := by
  unfold State.register
  exact Keeps.ite (Keeps.bump (Keeps.upd h _ _ _ _ _ _ _ _ _ _ _ _ _ _ _ _ _ _) _ _) (Keeps.ite (Keeps.finishWait (Keeps.pegTouch (Keeps.becomesPeg h _) _ _) _ _) (Keeps.upd (Keeps.pegTouch (Keeps.becomesPeg h _) _ _) _ _ _ _ _ _ _ _ _ _ _ _ _ _ _ _ _ _))

theorem Keeps.post {q : List Instr} {s : State} (h : Keeps q s) (p : Posted) :
    Keeps q (State.post s p) := by
  unfold State.post
  exact Keeps.ite (Keeps.upd h _ _ _ _ _ _ _ _ _ _ _ _ _ _ _ _ _ _) (Keeps.raise (Keeps.ite (Keeps.bump h _ _) h) _ _ _ _ _)

theorem Keeps.aliasAct {q : List Instr} {s : State} (h : Keeps q s) (f : ℕ) (a : ℕ) (part : ℕ) (width : ℕ) (v : ℕ) (set : Bool) (l : PegLoc) (compat : Bool) :
    Keeps q (State.aliasAct s f a part width v set l compat) := by
  unfold State.aliasAct
  exact Keeps.ite (Keeps.ite (Keeps.pegOp h _ _ _ _ _ _) h) (Keeps.ite (Keeps.ite (Keeps.ite (Keeps.pegOp h _ _ _ _ _ _) h) h) (Keeps.ite (Keeps.upd h _ _ _ _ _ _ _ _ _ _ _ _ _ _ _ _ _ _) (Keeps.ite h (Keeps.ite (Keeps.pegOp (Keeps.upd h _ _ _ _ _ _ _ _ _ _ _ _ _ _ _ _ _ _) _ _ _ _ _ _) (Keeps.upd h _ _ _ _ _ _ _ _ _ _ _ _ _ _ _ _ _ _)))))

theorem Keeps.aliasTake {q : List Instr} {s : State} (h : Keeps q s) (f : ℕ) (a : ℕ) (part : ℕ) (width : ℕ) (v : ℕ) (set : Bool) :
    Keeps q (State.aliasTake s f a part width v set) := by
  unfold State.aliasTake
  exact Keeps.ite (Keeps.setFlag h _ _) (Keeps.ite (Keeps.post h _) (Keeps.aliasAct h _ _ _ _ _ _ _ _))

end Sys2Proof.Machine
end

