-- ==== Sys2Proof/Laws/KeepsRings.lean ====
section
/-!
SUPPORT. What the operations of Machine/Rings.lean keep.
-/

namespace Sys2Proof.Machine

theorem Keeps.badBell {q : List Instr} {s : State} (h : Keeps q s) (f : ℕ) (off : ℕ) (v : ℕ) :
    Keeps q (State.badBell s f off v) := by
  unfold State.badBell
  exact Keeps.raise (Keeps.bump h _ _) _ _ _ _ _

theorem Keeps.setBell {q : List Instr} {s : State} (h : Keeps q s) (f : ℕ) (off : ℕ) (v : ℕ) :
    Keeps q (State.setBell s f off v) := by
  unfold State.setBell
  exact Keeps.upd h _ _ _ _ _ _ _ _ _ _ _ _ _ _ _ _ _ _

theorem Keeps.workBell {q : List Instr} {s : State} (h : Keeps q s) (f : ℕ) (w : ℕ) (v : ℕ) :
    Keeps q (State.workBell s f w v) := by
  unfold State.workBell
  exact Keeps.ite (Keeps.setBell (Keeps.wr h _ _) _ _ _) (Keeps.badBell h _ _ _)

theorem Keeps.doneBell {q : List Instr} {s : State} (h : Keeps q s) (f : ℕ) (d : ℕ) (v : ℕ) :
    Keeps q (State.doneBell s f d v) := by
  unfold State.doneBell
  exact Keeps.ite (Keeps.setBell (Keeps.wr h _ _) _ _ _) (Keeps.badBell h _ _ _)

theorem Keeps.eventBell {q : List Instr} {s : State} (h : Keeps q s) (f : ℕ) (v : ℕ) :
    Keeps q (State.eventBell s f v) := by
  unfold State.eventBell
  exact Keeps.ite (Keeps.overflowMarker (Keeps.setBell (Keeps.wr h _ _) _ _ _) _) (Keeps.badBell h _ _ _)

theorem Keeps.bell {q : List Instr} {s : State} (h : Keeps q s) (f : ℕ) (off : ℕ) (v : ℕ) :
    Keeps q (State.bell s f off v) := by
  unfold State.bell
  exact Keeps.ite (Keeps.workBell h _ _ _) (Keeps.ite (Keeps.doneBell h _ _ _) (Keeps.ite (Keeps.eventBell h _ _) h))

theorem Keeps.bellWrite {q : List Instr} {s : State} (h : Keeps q s) (f : ℕ) (off : ℕ) (v : ℕ) (width : ℕ) :
    Keeps q (State.bellWrite s f off v width) := by
  unfold State.bellWrite
  exact Keeps.ite h (Keeps.ite (Keeps.pcieTouch (Keeps.badBell h _ _ _) _) (by
    try dsimp only
    split
    · exact Keeps.pcieTouch (Keeps.post h _) _
    · exact Keeps.pcieTouch (Keeps.bell h _ _ _) _))

theorem Keeps.execWorkRingDoorbell {q : List Instr} {s : State} (h : Keeps q s) (f : ℕ) (w : ℕ) (value : ℕ) (bytes : ℕ) :
    KeepsO q (Sys2Proof.Machine.execWorkRingDoorbell f w value bytes s) := by
  unfold Sys2Proof.Machine.execWorkRingDoorbell
  exact KeepsO.unit (Keeps.bellWrite (Keeps.dropHeld h _) _ _ _ _)

theorem Keeps.execDoneRingDoorbell {q : List Instr} {s : State} (h : Keeps q s) (f : ℕ) (d : ℕ) (value : ℕ) (bytes : ℕ) :
    KeepsO q (Sys2Proof.Machine.execDoneRingDoorbell f d value bytes s) := by
  unfold Sys2Proof.Machine.execDoneRingDoorbell
  exact KeepsO.unit (Keeps.bellWrite (Keeps.dropHeld h _) _ _ _ _)

theorem Keeps.execEventRingDoorbell {q : List Instr} {s : State} (h : Keeps q s) (f : ℕ) (value : ℕ) (bytes : ℕ) :
    KeepsO q (Sys2Proof.Machine.execEventRingDoorbell f value bytes s) := by
  unfold Sys2Proof.Machine.execEventRingDoorbell
  exact KeepsO.unit (Keeps.bellWrite (Keeps.dropHeld h _) _ _ _ _)

theorem Keeps.fetchOne {q : List Instr} {s : State} (h : Keeps q s) (f : ℕ) (w : ℕ) :
    Keeps q (State.fetchOne s f w) := by
  unfold State.fetchOne
  exact Keeps.ite (Keeps.complete (Keeps.upd (Keeps.wr h _ _) _ _ _ _ _ _ _ _ _ _ _ _ _ _ _ _ _ _) _ _ _) (Keeps.busyNow (Keeps.upd (Keeps.wr h _ _) _ _ _ _ _ _ _ _ _ _ _ _ _ _ _ _ _ _))

theorem Keeps.fetch {q : List Instr} {s : State} (h : Keeps q s) (f : ℕ) (w : ℕ) (n : ℕ) :
    Keeps q (State.fetch s f w n) := by
  unfold State.fetch
  exact Keeps.when h _ _ (fun _ h3 => Keeps.foldl (fun _ _ h5 => Keeps.fetchOne h5 _ _) (Keeps.upd h3 _ _ _ _ _ _ _ _ _ _ _ _ _ _ _ _ _ _))

theorem Keeps.forwardReady {q : List Instr} {s : State} (h : Keeps q s) (f : ℕ) (w : ℕ) (y_3 : ℕ) :
    Keeps q (State.forwardReady s f w y_3) := by
  induction y_3 generalizing s f w with
  | zero =>
    unfold State.forwardReady
    exact h
  | succ n_ ih =>
    unfold State.forwardReady
    exact by
      try dsimp only
      split
      · exact h
      · exact Keeps.ite (ih (Keeps.sendFlit (Keeps.started h _) _ _ _) _ _) h

theorem Keeps.forwardAll {q : List Instr} {s : State} (h : Keeps q s) (f : ℕ) (w : ℕ) :
    Keeps q (State.forwardAll s f w) := by
  unfold State.forwardAll
  exact Keeps.forwardReady h _ _ _

theorem Keeps.execDescriptorFetch {q : List Instr} {s : State} (h : Keeps q s) (f : ℕ) (w : ℕ) (n : ℕ) :
    KeepsO q (Sys2Proof.Machine.execDescriptorFetch f w n s) := by
  unfold Sys2Proof.Machine.execDescriptorFetch
  exact KeepsO.unit (Keeps.forwardAll (Keeps.fetch h _ _ _) _ _)

theorem Keeps.nopDesc {q : List Instr} {s : State} (h : Keeps q s) (f : ℕ) (w : ℕ) :
    Keeps q (State.nopDesc s f w) := by
  unfold State.nopDesc
  exact Keeps.onDesc h _ _ _ _ (fun _ _ h4 => Keeps.complete h4 _ _ _)

theorem Keeps.execNop {q : List Instr} {s : State} (h : Keeps q s) (f : ℕ) (w : ℕ) :
    KeepsO q (Sys2Proof.Machine.execNop f w s) := by
  unfold Sys2Proof.Machine.execNop
  exact KeepsO.unit (Keeps.nopDesc h _ _)

theorem Keeps.fence {q : List Instr} {s : State} (h : Keeps q s) (f : ℕ) (w : ℕ) :
    Keeps q (State.fence s f w) := by
  unfold State.fence
  try dsimp only
  split
  · exact h
  · exact Keeps.ite (Keeps.complete (Keeps.started h _) _ _ _) h

theorem Keeps.execFence {q : List Instr} {s : State} (h : Keeps q s) (f : ℕ) (w : ℕ) :
    KeepsO q (Sys2Proof.Machine.execFence f w s) := by
  unfold Sys2Proof.Machine.execFence
  exact KeepsO.unit (Keeps.fence h _ _)

theorem Keeps.writeOne {q : List Instr} {s : State} (h : Keeps q s) (c : CRec) :
    Keeps q (State.writeOne s c) := by
  unfold State.writeOne
  try dsimp only
  split
  · exact Keeps.sendFlit (Keeps.upd h _ _ _ _ _ _ _ _ _ _ _ _ _ _ _ _ _ _) _ _ _
  · exact Keeps.deliverDone (Keeps.upd h _ _ _ _ _ _ _ _ _ _ _ _ _ _ _ _ _ _) _

theorem Keeps.writeRecord {q : List Instr} {s : State} (h : Keeps q s) :
    Keeps q (State.writeRecord s) := by
  unfold State.writeRecord
  try dsimp only
  split
  · exact h
  · exact Keeps.ite (Keeps.writeOne h _) h

theorem Keeps.execCompletionRecordWrite {q : List Instr} {s : State} (h : Keeps q s) :
    KeepsO q (Sys2Proof.Machine.execCompletionRecordWrite s) := by
  unfold Sys2Proof.Machine.execCompletionRecordWrite
  exact KeepsO.done (Keeps.writeRecord h)

theorem Keeps.releaseHeld {q : List Instr} {s : State} (h : Keeps q s) (f : ℕ) (d : ℕ) :
    Keeps q (State.releaseHeld s f d) := by
  unfold State.releaseHeld
  try dsimp only
  split
  · exact h
  · exact Keeps.ite (Keeps.wr (Keeps.writeDone (Keeps.upd h _ _ _ _ _ _ _ _ _ _ _ _ _ _ _ _ _ _) _ _ _ _) _ _) h

theorem Keeps.writeOut {q : List Instr} {s : State} (h : Keeps q s) (i : ℕ) :
    Keeps q (State.writeOut s i) := by
  unfold State.writeOut
  exact Keeps.foldl (fun _ _ h3 => Keeps.ite (Keeps.writeOne h3 _) h3) (Keeps.foldl (fun _ _ h3 => Keeps.releaseHeld h3 _ _) h)

theorem Keeps.execHeldRecordRelease {q : List Instr} {s : State} (h : Keeps q s) (f : ℕ) (d : ℕ) :
    KeepsO q (Sys2Proof.Machine.execHeldRecordRelease f d s) := by
  unfold Sys2Proof.Machine.execHeldRecordRelease
  exact KeepsO.unit (Keeps.releaseHeld h _ _)

theorem Keeps.writeWrCtrl {q : List Instr} {s : State} (h : Keeps q s) (f : ℕ) (w : ℕ) (v : ℕ) :
    Keeps q (State.writeWrCtrl s f w v) := by
  unfold State.writeWrCtrl
  exact Keeps.ite (Keeps.ite h (Keeps.ite (Keeps.upd h _ _ _ _ _ _ _ _ _ _ _ _ _ _ _ _ _ _) (Keeps.setFlag h _ _))) (Keeps.ite (Keeps.setFlag (Keeps.wr (Keeps.wr (Keeps.wr (Keeps.wr h _ _) _ _) _ _) _ _) _ _) (Keeps.wr (Keeps.wr h _ _) _ _))

theorem Keeps.writeDrCtrl {q : List Instr} {s : State} (h : Keeps q s) (f : ℕ) (d : ℕ) (v : ℕ) :
    Keeps q (State.writeDrCtrl s f d v) := by
  unfold State.writeDrCtrl
  exact Keeps.ite (Keeps.ite (Keeps.wr (Keeps.wr h _ _) _ _) (Keeps.ite (Keeps.bump (Keeps.wr (Keeps.wr h _ _) _ _) _ _) (Keeps.setFlag (Keeps.wr (Keeps.wr h _ _) _ _) _ _))) (Keeps.ite (Keeps.setFlag (Keeps.wr (Keeps.wr (Keeps.wr (Keeps.wr (Keeps.wr h _ _) _ _) _ _) _ _) _ _) _ _) (Keeps.wr (Keeps.wr (Keeps.wr h _ _) _ _) _ _))

theorem Keeps.writeEvCtrl {q : List Instr} {s : State} (h : Keeps q s) (f : ℕ) (v : ℕ) :
    Keeps q (State.writeEvCtrl s f v) := by
  unfold State.writeEvCtrl
  exact Keeps.ite (Keeps.ite (Keeps.wr (Keeps.wr h _ _) _ _) (Keeps.setFlag (Keeps.wr (Keeps.wr h _ _) _ _) _ _)) (Keeps.ite (Keeps.overflowMarker (Keeps.setFlag (Keeps.wr (Keeps.wr (Keeps.wr (Keeps.wr (Keeps.wr h _ _) _ _) _ _) _ _) _ _) _ _) _) (Keeps.wr (Keeps.wr (Keeps.wr h _ _) _ _) _ _))

theorem Keeps.execWrCtrlEnable {q : List Instr} {s : State} (h : Keeps q s) (f : ℕ) (w : ℕ) (value : ℕ) :
    KeepsO q (Sys2Proof.Machine.execWrCtrlEnable f w value s) := by
  unfold Sys2Proof.Machine.execWrCtrlEnable
  exact KeepsO.unit (Keeps.when h _ _ (fun _ h3 => Keeps.cmdWrite h3 _ _ (fun _ h5 => Keeps.writeWrCtrl h5 _ _ _)))

theorem Keeps.execDrCtrlEnable {q : List Instr} {s : State} (h : Keeps q s) (f : ℕ) (d : ℕ) (value : ℕ) :
    KeepsO q (Sys2Proof.Machine.execDrCtrlEnable f d value s) := by
  unfold Sys2Proof.Machine.execDrCtrlEnable
  exact KeepsO.unit (Keeps.when h _ _ (fun _ h3 => Keeps.cmdWrite h3 _ _ (fun _ h5 => Keeps.writeDrCtrl h5 _ _ _)))

theorem Keeps.execEvCtrlEnable {q : List Instr} {s : State} (h : Keeps q s) (f : ℕ) (value : ℕ) :
    KeepsO q (Sys2Proof.Machine.execEvCtrlEnable f value s) := by
  unfold Sys2Proof.Machine.execEvCtrlEnable
  exact KeepsO.unit (Keeps.when h _ _ (fun _ h3 => Keeps.cmdWrite h3 _ _ (fun _ h5 => Keeps.writeEvCtrl h5 _ _)))

end Sys2Proof.Machine
end

