-- ==== Sys2Proof/Laws/KeepsMemory.lean ====
section
/-!
SUPPORT. What the operations of Machine/Memory.lean keep.
-/

namespace Sys2Proof.Machine

theorem Keeps.takeIndex {q : List Instr} {s : State} (h : Keeps q s) :
    Keeps q (State.takeIndex s) := by
  unfold State.takeIndex
  exact Keeps.ite (Keeps.updMemory h (MemWf.upd (Keeps.memOf h) _ _ _ _ _ _ _ _ _ _ _ _ _ _) _ _ _ _ _ _ _ _ _ _ _ _ _ _ _ _ _ _) (Keeps.updMemory h (MemWf.upd (Keeps.memOf h) _ _ _ _ _ _ _ _ _ _ _ _ _ _) _ _ _ _ _ _ _ _ _ _ _ _ _ _ _ _ _ _)

theorem Keeps.allocResult {q : List Instr} {s : State} (h : Keeps q s) (d : Desc) (y_2 : ℕ) (base : ℕ) :
    Keeps q (State.allocResult s d y_2 base) := by
  unfold State.allocResult
  exact Keeps.complete (Keeps.hostWrite h _ _ _) _ _ _

theorem Keeps.allocDesc {q : List Instr} {s : State} (h : Keeps q s) (d : Desc) :
    Keeps q (State.allocDesc s d) := by
  unfold State.allocDesc
  exact Keeps.ite (Keeps.complete h _ _ _) (by
    try dsimp only
    split
    · exact Keeps.complete h _ _ _
    · exact by
        try dsimp only
        split
        · exact Keeps.complete h _ _ _
        · exact Keeps.ite (Keeps.ite (Keeps.updMemory (Keeps.skip (Keeps.setBuf (Keeps.takeIndex h) _ _) _) (MemWf.upd (Keeps.memOf (Keeps.skip (Keeps.setBuf (Keeps.takeIndex h) _ _) _)) _ _ _ _ _ _ _ _ _ _ _ _ _ _) _ _ _ _ _ _ _ _ _ _ _ _ _ _ _ _ _ _) (Keeps.allocResult (Keeps.skip (Keeps.setBuf (Keeps.takeIndex h) _ _) _) _ _ _)) (Keeps.allocResult (Keeps.updMemory (Keeps.skip (Keeps.setBuf (Keeps.takeIndex h) _ _) _) (Mem.tagRange_wf (Keeps.memOf (Keeps.skip (Keeps.setBuf (Keeps.takeIndex h) _ _) _)) _ _ _ _ _) _ _ _ _ _ _ _ _ _ _ _ _ _ _ _ _ _ _) _ _ _))

theorem Keeps.execBufAlloc {q : List Instr} {s : State} (h : Keeps q s) (f : ℕ) (w : ℕ) :
    KeepsO q (Sys2Proof.Machine.execBufAlloc f w s) := by
  unfold Sys2Proof.Machine.execBufAlloc
  exact KeepsO.unit (Keeps.onDesc h _ _ _ _ (fun _ _ h4 => Keeps.allocDesc h4 _))

theorem Keeps.allocZeroDone {q : List Instr} {s : State} (h : Keeps q s) (uid : ℕ) :
    Keeps q (State.allocZeroDone s uid) := by
  unfold State.allocZeroDone
  try dsimp only
  split
  · exact Keeps.allocResult (Keeps.updMemory h (MemWf.upd (foldl_wf (fun _ _ h3 => Mem.zeroPage_wf (h3) _ _) _ (Keeps.memOf h)) _ _ _ _ _ _ _ _ _ _ _ _ _ _) _ _ _ _ _ _ _ _ _ _ _ _ _ _ _ _ _ _) _ _ _
  · exact h

theorem Keeps.execBufAllocZeroDone {q : List Instr} {s : State} (h : Keeps q s) (uid : ℕ) :
    KeepsO q (Sys2Proof.Machine.execBufAllocZeroDone uid s) := by
  unfold Sys2Proof.Machine.execBufAllocZeroDone
  exact KeepsO.done (Keeps.when h _ _ (fun _ h3 => Keeps.allocZeroDone h3 _))

theorem Keeps.pageMoved {q : List Instr} {s : State} (h : Keeps q s) (p : ℕ) :
    Keeps q (State.pageMoved s p) := by
  unfold State.pageMoved
  try dsimp only
  split
  · exact h
  · exact Keeps.ite (Keeps.retirePage (Keeps.setBuf (Keeps.updMemory (Keeps.upd h _ _ _ _ _ _ _ _ _ _ _ _ _ _ _ _ _ _) (Mem.movePage_wf (Keeps.memOf (Keeps.upd h _ _ _ _ _ _ _ _ _ _ _ _ _ _ _ _ _ _)) _ _ _) _ _ _ _ _ _ _ _ _ _ _ _ _ _ _ _ _ _) _ _) _ _ _) (Keeps.retirePage (Keeps.upd h _ _ _ _ _ _ _ _ _ _ _ _ _ _ _ _ _ _) _ _ _)

theorem Keeps.execPageMoveComplete {q : List Instr} {s : State} (h : Keeps q s) (page : ℕ) :
    KeepsO q (Sys2Proof.Machine.execPageMoveComplete page s) := by
  unfold Sys2Proof.Machine.execPageMoveComplete
  exact KeepsO.unit (Keeps.when h _ _ (fun _ h3 => Keeps.pageMoved h3 _))

theorem Keeps.freeBuf {q : List Instr} {s : State} (h : Keeps q s) (k : ℕ) :
    Keeps q (State.freeBuf s k) := by
  unfold State.freeBuf
  exact Keeps.foldl (fun _ _ h3 => Keeps.retirePage (Keeps.wr h3 _ _) _ _ _) (Keeps.upd (Keeps.updMemory (Keeps.setBuf h _ _) (MemWf.upd (Keeps.memOf (Keeps.setBuf h _ _)) _ _ _ _ _ _ _ _ _ _ _ _ _ _) _ _ _ _ _ _ _ _ _ _ _ _ _ _ _ _ _ _) _ _ _ _ _ _ _ _ _ _ _ _ _ _ _ _ _ _)

theorem Keeps.freeDesc {q : List Instr} {s : State} (h : Keeps q s) (d : Desc) :
    Keeps q (State.freeDesc s d) := by
  unfold State.freeDesc
  try dsimp only
  split
  · exact Keeps.complete (Keeps.bump h _ _) _ _ _
  · exact Keeps.ite (Keeps.complete (Keeps.raise h _ _ _ _ _) _ _ _) (Keeps.ite (Keeps.updMemory h (MemWf.upd (Keeps.memOf h) _ _ _ _ _ _ _ _ _ _ _ _ _ _) _ _ _ _ _ _ _ _ _ _ _ _ _ _ _ _ _ _) (Keeps.complete (Keeps.freeBuf h _) _ _ _))

theorem Keeps.execBufFree {q : List Instr} {s : State} (h : Keeps q s) (f : ℕ) (w : ℕ) :
    KeepsO q (Sys2Proof.Machine.execBufFree f w s) := by
  unfold Sys2Proof.Machine.execBufFree
  exact KeepsO.unit (Keeps.onDesc h _ _ _ _ (fun _ _ h4 => Keeps.freeDesc h4 _))

theorem Keeps.freeResume {q : List Instr} {s : State} (h : Keeps q s) (uid : ℕ) :
    Keeps q (State.freeResume s uid) := by
  unfold State.freeResume
  try dsimp only
  split
  · exact h
  · exact Keeps.ite h (by
      try dsimp only
      split
      · exact Keeps.complete (Keeps.freeBuf (Keeps.updMemory h (MemWf.upd (Keeps.memOf h) _ _ _ _ _ _ _ _ _ _ _ _ _ _) _ _ _ _ _ _ _ _ _ _ _ _ _ _ _ _ _ _) _) _ _ _
      · exact Keeps.complete (Keeps.bump (Keeps.updMemory h (MemWf.upd (Keeps.memOf h) _ _ _ _ _ _ _ _ _ _ _ _ _ _) _ _ _ _ _ _ _ _ _ _ _ _ _ _ _ _ _ _) _ _) _ _ _
      · exact Keeps.updMemory h (MemWf.upd (Keeps.memOf h) _ _ _ _ _ _ _ _ _ _ _ _ _ _) _ _ _ _ _ _ _ _ _ _ _ _ _ _ _ _ _ _)

theorem Keeps.execBufFreeResume {q : List Instr} {s : State} (h : Keeps q s) (uid : ℕ) :
    KeepsO q (Sys2Proof.Machine.execBufFreeResume uid s) := by
  unfold Sys2Proof.Machine.execBufFreeResume
  exact KeepsO.done (Keeps.when h _ _ (fun _ h3 => Keeps.freeResume h3 _))

theorem Keeps.dmaStart {q : List Instr} {s : State} (h : Keeps q s) (d : Desc) :
    Keeps q (State.dmaStart s d) := by
  unfold State.dmaStart
  exact Keeps.ite (Keeps.upd h _ _ _ _ _ _ _ _ _ _ _ _ _ _ _ _ _ _) (Keeps.complete h _ _ _)

theorem Keeps.execDmaCopy {q : List Instr} {s : State} (h : Keeps q s) (f : ℕ) (w : ℕ) :
    KeepsO q (Sys2Proof.Machine.execDmaCopy f w s) := by
  unfold Sys2Proof.Machine.execDmaCopy
  exact KeepsO.unit (Keeps.onDesc h _ _ _ _ (fun _ _ h4 => Keeps.dmaStart h4 _))

theorem Keeps.dmaBlocks {q : List Instr} {s : State} (h : Keeps q s) (i : ℕ) (j : DmaJob) (k : ℕ) (y_4 : ℕ) :
    Keeps q (State.dmaBlocks s i j k y_4).1 := by
  induction y_4 generalizing s i j k with
  | zero =>
    unfold State.dmaBlocks
    exact Keeps.pair h
  | succ n_ ih =>
    unfold State.dmaBlocks
    exact Keeps.ite1 (Keeps.pair (Keeps.readSpace h _ _ _ _ _)) (Keeps.ite1 (Keeps.pair (Keeps.writeSpace (Keeps.readSpace h _ _ _ _ _) _ _ _ _ _)) (ih (Keeps.writeSpace (Keeps.readSpace h _ _ _ _ _) _ _ _ _ _) _ _ _))

theorem Keeps.dmaSource {q : List Instr} {s : State} (h : Keeps q s) (i : ℕ) (j : DmaJob) (k : ℕ) (y_4 : ℕ) :
    Keeps q (State.dmaSource s i j k y_4).1 := by
  induction y_4 generalizing s i j k with
  | zero =>
    unfold State.dmaSource
    exact Keeps.pair h
  | succ n_ ih =>
    unfold State.dmaSource
    exact Keeps.ite1 (Keeps.pair (Keeps.readSpace h _ _ _ _ _)) (Keeps.pair (ih (Keeps.readSpace h _ _ _ _ _) _ _ _))

theorem Keeps.dmaEnd {q : List Instr} {s : State} (h : Keeps q s) (i : ℕ) (j : DmaJob) :
    Keeps q (State.dmaEnd s i j) := by
  unfold State.dmaEnd
  try dsimp only
  split
  · exact Keeps.complete h _ _ _
  · exact Keeps.ite (Keeps.complete (Keeps.setFlag h _ _) _ _ _) (Keeps.ite (Keeps.complete (Keeps.returned h _) _ _ _) (Keeps.complete (Keeps.pegOp h _ _ _ _ _ _) _ _ _))

theorem Keeps.dmaPiece {q : List Instr} {s : State} (h : Keeps q s) (i : ℕ) (j : DmaJob) :
    Keeps q (State.dmaPiece s i j) := by
  unfold State.dmaPiece
  exact Keeps.ite (Keeps.upd h _ _ _ _ _ _ _ _ _ _ _ _ _ _ _ _ _ _) (Keeps.ite (Keeps.upd (Keeps.dmaBlocks h _ _ _ _) _ _ _ _ _ _ _ _ _ _ _ _ _ _ _ _ _ _) (Keeps.complete (Keeps.upd (Keeps.dmaBlocks h _ _ _ _) _ _ _ _ _ _ _ _ _ _ _ _ _ _ _ _ _ _) _ _ _))

theorem Keeps.dmaServe {q : List Instr} {s : State} (h : Keeps q s) (uid : ℕ) (y_2 : ℕ) :
    Keeps q (State.dmaServe s uid y_2) := by
  induction y_2 generalizing s uid with
  | zero =>
    unfold State.dmaServe
    exact h
  | succ n_ ih =>
    unfold State.dmaServe
    exact Keeps.ite h (by
      try dsimp only
      split
      · exact h
      · exact by
          try dsimp only
          split
          · exact ih (Keeps.dmaPiece h _ _) _
          · exact h)

theorem Keeps.dmaToMirror {q : List Instr} {s : State} (h : Keeps q s) (d : Desc) (j : DmaJob) (k : ℕ) :
    Keeps q (State.dmaToMirror s d j k) := by
  unfold State.dmaToMirror
  exact Keeps.ite (Keeps.complete (Keeps.dmaSource (Keeps.upd h _ _ _ _ _ _ _ _ _ _ _ _ _ _ _ _ _ _) _ _ _ _) _ _ _) (Keeps.ite (Keeps.upd (Keeps.mirrorWrite (Keeps.dmaSource (Keeps.upd h _ _ _ _ _ _ _ _ _ _ _ _ _ _ _ _ _ _) _ _ _ _) _ _ _ _ _ _ _ _) _ _ _ _ _ _ _ _ _ _ _ _ _ _ _ _ _ _) (Keeps.complete (Keeps.upd h _ _ _ _ _ _ _ _ _ _ _ _ _ _ _ _ _ _) _ _ _))

theorem Keeps.dmaDone {q : List Instr} {s : State} (h : Keeps q s) (uid : ℕ) :
    Keeps q (State.dmaDone s uid) := by
  unfold State.dmaDone
  try dsimp only
  split
  · exact by
      try dsimp only
      split
      · exact Keeps.ite (Keeps.dmaToMirror h _ _ _) h
      · exact by
          try dsimp only
          split
          · exact Keeps.dmaServe h _ _
          · exact Keeps.ite (Keeps.dmaServe h _ _) (Keeps.dmaEnd (Keeps.upd (Keeps.dmaServe h _ _) _ _ _ _ _ _ _ _ _ _ _ _ _ _ _ _ _ _) _ _)
  · exact h

theorem Keeps.execDmaCopyComplete {q : List Instr} {s : State} (h : Keeps q s) (uid : ℕ) :
    KeepsO q (Sys2Proof.Machine.execDmaCopyComplete uid s) := by
  unfold Sys2Proof.Machine.execDmaCopyComplete
  exact KeepsO.done (Keeps.when h _ _ (fun _ h3 => Keeps.dmaDone h3 _))

theorem Keeps.scrubUe {q : List Instr} {s : State} (h : Keeps q s) (p : ℕ) (blk : ℕ) :
    Keeps q (State.scrubUe s p blk) := by
  unfold State.scrubUe
  exact Keeps.ite (Keeps.raise (Keeps.bump h _ _) _ _ _ _ _) (Keeps.pageFind (by
    try dsimp only
    split
    · exact Keeps.raise (Keeps.poisonT2 (Keeps.bump h _ _) _) _ _ _ _ _
    · exact Keeps.raise (Keeps.poisonT2 (Keeps.bump h _ _) _) _ _ _ _ _) _ _)

theorem Keeps.scrubNext {q : List Instr} {s : State} (h : Keeps q s) :
    Keeps q (State.scrubNext s) := by
  unfold State.scrubNext
  exact Keeps.ite (Keeps.updMemory h (MemWf.upd (Keeps.memOf h) _ _ _ _ _ _ _ _ _ _ _ _ _ _) _ _ _ _ _ _ _ _ _ _ _ _ _ _ _ _ _ _) (Keeps.ite (Keeps.wr (Keeps.updMemory h (MemWf.upd (Keeps.memOf h) _ _ _ _ _ _ _ _ _ _ _ _ _ _) _ _ _ _ _ _ _ _ _ _ _ _ _ _ _ _ _ _) _ _) (Keeps.bump (Keeps.wr (Keeps.updMemory h (MemWf.upd (Keeps.memOf h) _ _ _ _ _ _ _ _ _ _ _ _ _ _) _ _ _ _ _ _ _ _ _ _ _ _ _ _ _ _ _ _) _ _) _ _))

theorem Keeps.clearErr {q : List Instr} {s : State} (h : Keeps q s) (b : ℕ) :
    Keeps q (State.clearErr s b) := by
  unfold State.clearErr
  exact Keeps.updMemory h (MemWf.upd (Keeps.memOf h) _ _ _ _ _ _ _ _ _ _ _ _ _ _) _ _ _ _ _ _ _ _ _ _ _ _ _ _ _ _ _ _

theorem Keeps.scrub {q : List Instr} {s : State} (h : Keeps q s) (find : ℕ) :
    Keeps q (State.scrub s find) := by
  unfold State.scrub
  exact Keeps.scrubNext (Keeps.ite h (Keeps.ite (Keeps.clearErr (Keeps.bump h _ _) _) (Keeps.ite (Keeps.scrubUe (Keeps.clearErr h _) _ _) h)))

theorem Keeps.execScrubBlock {q : List Instr} {s : State} (h : Keeps q s) (find : ℕ) :
    KeepsO q (Sys2Proof.Machine.execScrubBlock find s) := by
  unfold Sys2Proof.Machine.execScrubBlock
  exact KeepsO.done (Keeps.when h _ _ (fun _ h3 => Keeps.scrub h3 _))

end Sys2Proof.Machine
end

