-- ==== Sys2Proof/Laws/KeepsPegs.lean ====
section
/-!
SUPPORT. What the operations of Machine/Pegs.lean keep.
-/

namespace Sys2Proof.Machine

theorem Keeps.pegStream {q : List Instr} {s : State} (h : Keeps q s) (uid : ℕ) (st : ℕ) (op : ℕ) (set : Bool) :
    Keeps q (State.pegStream s uid st op set) := by
  unfold State.pegStream
  exact Keeps.onOp h _ _ _ _ _ (fun _ _ _ => Keeps.ite (Keeps.opDone h _ _ _) (Keeps.ite (Keeps.opDone (Keeps.pegMsix (Keeps.setShadow h _ _ _) _ _) _ _ _) (Keeps.ite h (Keeps.ite (Keeps.opDone (Keeps.failAccess h _ _ _) _ _ _) (Keeps.opDone (Keeps.pegMsix (Keeps.pegOp h _ _ _ _ _ _) _ _) _ _ _)))))

theorem Keeps.execPegAdd {q : List Instr} {s : State} (h : Keeps q s) (uid : ℕ) (st : ℕ) (op : ℕ) :
    KeepsO q (Sys2Proof.Machine.execPegAdd uid st op s) := by
  unfold Sys2Proof.Machine.execPegAdd
  exact KeepsO.done (Keeps.pegStream h _ _ _ _)

theorem Keeps.execPegSet {q : List Instr} {s : State} (h : Keeps q s) (uid : ℕ) (st : ℕ) (op : ℕ) :
    KeepsO q (Sys2Proof.Machine.execPegSet uid st op s) := by
  unfold Sys2Proof.Machine.execPegSet
  exact KeepsO.done (Keeps.pegStream h _ _ _ _)

theorem Keeps.pegWaitStream {q : List Instr} {s : State} (h : Keeps q s) (uid : ℕ) (st : ℕ) (op : ℕ) (ge : Bool) :
    Keeps q (State.pegWaitStream s uid st op ge) := by
  unfold State.pegWaitStream
  exact Keeps.onOp h _ _ _ _ _ (fun _ _ _ => Keeps.ite (Keeps.opDone h _ _ _) (Keeps.ite h (Keeps.ite (Keeps.opDone (Keeps.failAccess h _ _ _) _ _ _) (Keeps.register (Keeps.setStage h _ _ _ _) _))))

theorem Keeps.execPegWaitGe {q : List Instr} {s : State} (h : Keeps q s) (uid : ℕ) (st : ℕ) (op : ℕ) :
    KeepsO q (Sys2Proof.Machine.execPegWaitGe uid st op s) := by
  unfold Sys2Proof.Machine.execPegWaitGe
  exact KeepsO.done (Keeps.pegWaitStream h _ _ _ _)

theorem Keeps.execPegWaitEq {q : List Instr} {s : State} (h : Keeps q s) (uid : ℕ) (st : ℕ) (op : ℕ) :
    KeepsO q (Sys2Proof.Machine.execPegWaitEq uid st op s) := by
  unfold Sys2Proof.Machine.execPegWaitEq
  exact KeepsO.done (Keeps.pegWaitStream h _ _ _ _)

theorem Keeps.nopStream {q : List Instr} {s : State} (h : Keeps q s) (uid : ℕ) (st : ℕ) (op : ℕ) :
    Keeps q (State.nopStream s uid st op) := by
  unfold State.nopStream
  exact Keeps.onOp h _ _ _ _ _ (fun _ _ _ => Keeps.opDone h _ _ _)

theorem Keeps.execNopOp {q : List Instr} {s : State} (h : Keeps q s) (uid : ℕ) (st : ℕ) (op : ℕ) :
    KeepsO q (Sys2Proof.Machine.execNopOp uid st op s) := by
  unfold Sys2Proof.Machine.execNopOp
  exact KeepsO.done (Keeps.nopStream h _ _ _)

theorem Keeps.signalDesc {q : List Instr} {s : State} (h : Keeps q s) (d : Desc) :
    Keeps q (State.signalDesc s d) := by
  unfold State.signalDesc
  exact Keeps.ite (Keeps.complete h _ _ _) (Keeps.ite (Keeps.complete (Keeps.returned h _) _ _ _) (Keeps.ite (Keeps.complete h _ _ _) (Keeps.complete (Keeps.pegMsix (Keeps.pegOp h _ _ _ _ _ _) _ _) _ _ _)))

theorem Keeps.execPegSignal {q : List Instr} {s : State} (h : Keeps q s) (f : ℕ) (w : ℕ) :
    KeepsO q (Sys2Proof.Machine.execPegSignal f w s) := by
  unfold Sys2Proof.Machine.execPegSignal
  exact KeepsO.unit (Keeps.when h _ _ (fun _ h3 => Keeps.onDesc h3 _ _ _ _ (fun _ _ h6 => Keeps.signalDesc h6 _)))

theorem Keeps.waitDesc {q : List Instr} {s : State} (h : Keeps q s) (d : Desc) :
    Keeps q (State.waitDesc s d) := by
  unfold State.waitDesc
  exact Keeps.ite (Keeps.complete h _ _ _) (Keeps.ite (Keeps.complete (Keeps.returned h _) _ _ _) (Keeps.ite (Keeps.complete h _ _ _) (Keeps.register h _)))

theorem Keeps.execPegWait {q : List Instr} {s : State} (h : Keeps q s) (f : ℕ) (w : ℕ) :
    KeepsO q (Sys2Proof.Machine.execPegWait f w s) := by
  unfold Sys2Proof.Machine.execPegWait
  exact KeepsO.unit (Keeps.when h _ _ (fun _ h3 => Keeps.onDesc h3 _ _ _ _ (fun _ _ h6 => Keeps.waitDesc h6 _)))

theorem Keeps.retryWait {q : List Instr} {s : State} (h : Keeps q s) (n : ℕ) :
    Keeps q (State.retryWait s n) := by
  unfold State.retryWait
  try dsimp only
  split
  · exact h
  · exact Keeps.ite (Keeps.register (Keeps.upd h _ _ _ _ _ _ _ _ _ _ _ _ _ _ _ _ _ _) _) h

theorem Keeps.execWaitRegistrationRetry {q : List Instr} {s : State} (h : Keeps q s) (n : ℕ) :
    KeepsO q (Sys2Proof.Machine.execWaitRegistrationRetry n s) := by
  unfold Sys2Proof.Machine.execWaitRegistrationRetry
  exact KeepsO.done (Keeps.when h _ _ (fun _ h3 => Keeps.retryWait h3 _))

theorem Keeps.watchdog {q : List Instr} {s : State} (h : Keeps q s) (i : ℕ) :
    Keeps q (State.watchdog s i) := by
  unfold State.watchdog
  try dsimp only
  split
  · exact h
  · exact Keeps.foldl (fun _ _ h3 => Keeps.complete h3 _ _ _) (Keeps.dropWaits (Keeps.foldl (fun _ _ h3 => Keeps.failWith h3 _ _ _ _ _ _) (Keeps.bump (Keeps.raise h _ _ _ _ _) _ _)) _)

theorem Keeps.execPegWatchdog {q : List Instr} {s : State} (h : Keeps q s) (n : ℕ) :
    KeepsO q (Sys2Proof.Machine.execPegWatchdog n s) := by
  unfold Sys2Proof.Machine.execPegWatchdog
  exact KeepsO.unit (Keeps.when h _ _ (fun _ h3 => Keeps.watchdog h3 _))

theorem Keeps.aliasWrite {q : List Instr} {s : State} (h : Keeps q s) (f : ℕ) (a : ℕ) (part : ℕ) (v : ℕ) (set : Bool) :
    Keeps q (State.aliasWrite s f a part v set) := by
  unfold State.aliasWrite
  exact Keeps.ite (Keeps.aliasTake h _ _ _ _ _ _) (Keeps.aliasTake h _ _ _ _ _ _)

theorem Keeps.aliasCmd {q : List Instr} {s : State} (h : Keeps q s) (f : ℕ) (a : ℕ) (part : ℕ) (v : ℕ) (set : Bool) :
    Keeps q (State.aliasCmd s f a part v set) := by
  unfold State.aliasCmd
  exact Keeps.when h _ _ (fun _ h3 => Keeps.pcieTouch (Keeps.aliasWrite h3 _ _ _ _ _) _)

theorem Keeps.execAliasAdd {q : List Instr} {s : State} (h : Keeps q s) (f : ℕ) (a : ℕ) (part : ℕ) (value : ℕ) :
    KeepsO q (Sys2Proof.Machine.execAliasAdd f a part value s) := by
  unfold Sys2Proof.Machine.execAliasAdd
  exact KeepsO.unit (Keeps.aliasCmd h _ _ _ _ _)

theorem Keeps.execAliasSet {q : List Instr} {s : State} (h : Keeps q s) (f : ℕ) (a : ℕ) (part : ℕ) (value : ℕ) :
    KeepsO q (Sys2Proof.Machine.execAliasSet f a part value s) := by
  unfold Sys2Proof.Machine.execAliasSet
  exact KeepsO.unit (Keeps.aliasCmd h _ _ _ _ _)

theorem Keeps.pegSnap {q : List Instr} {s : State} (h : Keeps q s) :
    Keeps q (State.pegSnap s) := by
  unfold State.pegSnap
  try dsimp only
  split
  · exact Keeps.setFlag (Keeps.setWords h _ _) _ _
  · exact Keeps.ite (Keeps.setFlag (Keeps.setWords h _ _) _ _) (by
      try dsimp only
      split
      · exact Keeps.setWords (Keeps.wr (Keeps.wr (Keeps.wr (Keeps.setFlag (Keeps.setFlag (Keeps.setWords h _ _) _ _) _ _) _ _) _ _) _ _) _ _
      · exact Keeps.wr (Keeps.wr (Keeps.setWords (Keeps.wr (Keeps.wr (Keeps.wr (Keeps.setFlag (Keeps.setFlag (Keeps.setWords h _ _) _ _) _ _) _ _) _ _) _ _) _ _) _ _) _ _)

theorem Keeps.execPegSnapTake {q : List Instr} {s : State} (h : Keeps q s) :
    KeepsO q (Sys2Proof.Machine.execPegSnapTake s) := by
  unfold Sys2Proof.Machine.execPegSnapTake
  exact KeepsO.done (Keeps.when h _ _ (fun _ h3 => Keeps.cmdWrite h3 _ _ (fun _ h5 => Keeps.pegSnap h5)))

end Sys2Proof.Machine
end

