-- ==== Sys2Proof/Laws/KeepsArrayOps.lean ====
section
/-!
SUPPORT. What the operations of Machine/ArrayOps.lean keep.
-/

namespace Sys2Proof.Machine

theorem Keeps.setPeri {q : List Instr} {s : State} (h : Keeps q s) (e : ℕ) (o : ℕ) (v : ℕ) :
    Keeps q (State.setPeri s e o v) := by
  unfold State.setPeri
  exact Keeps.upd h _ _ _ _ _ _ _ _ _ _ _ _ _ _ _ _ _ _

theorem Keeps.bumpPeri {q : List Instr} {s : State} (h : Keeps q s) (e : ℕ) (o : ℕ) (n : ℕ) :
    Keeps q (State.bumpPeri s e o n) := by
  unfold State.bumpPeri
  exact Keeps.setPeri h _ _ _

theorem Keeps.dropWindow {q : List Instr} {s : State} (h : Keeps q s) (e : ℕ) :
    Keeps q (State.dropWindow s e) := by
  unfold State.dropWindow
  exact Keeps.ite h (Keeps.bumpPeri (Keeps.setEngine (Keeps.upd h _ _ _ _ _ _ _ _ _ _ _ _ _ _ _ _ _ _) _ _) _ _ _)

theorem Keeps.cfgTouched {q : List Instr} {s : State} (h : Keeps q s) (e : ℕ) (o : ℕ) :
    Keeps q (State.cfgTouched s e o) := by
  unfold State.cfgTouched
  exact Keeps.ite (Keeps.dropWindow h _) h

theorem Keeps.clipClear {q : List Instr} {s : State} (h : Keeps q s) (e : ℕ) :
    Keeps q (State.clipClear s e) := by
  unfold State.clipClear
  exact Keeps.upd h _ _ _ _ _ _ _ _ _ _ _ _ _ _ _ _ _ _

theorem Keeps.periWrite {q : List Instr} {s : State} (h : Keeps q s) (e : ℕ) (o : ℕ) (v : ℕ) :
    Keeps q (State.periWrite s e o v) := by
  unfold State.periWrite
  exact Keeps.ite (Keeps.ite (Keeps.clipClear h _) h) (Keeps.setPeri (Keeps.cfgTouched h _ _) _ _ _)

theorem Keeps.periWords {q : List Instr} {s : State} (h : Keeps q s) (e : ℕ) (o : ℕ) (y_3 : List ℕ) :
    Keeps q (State.periWords s e o y_3) := by
  induction y_3 generalizing s e o with
  | nil =>
    unfold State.periWords
    exact h
  | cons w_ t_ ih =>
    unfold State.periWords
    exact ih (Keeps.periWrite h _ _ _) _ _

theorem Keeps.periClear {q : List Instr} {s : State} (h : Keeps q s) (e : ℕ) :
    Keeps q (State.periClear s e) := by
  unfold State.periClear
  exact Keeps.setEngine (Keeps.upd h _ _ _ _ _ _ _ _ _ _ _ _ _ _ _ _ _ _) _ _

theorem Keeps.bookWrite {q : List Instr} {s : State} (h : Keeps q s) (core : ℕ) (o : ℕ) (y_3 : List ℕ) :
    Keeps q (State.bookWrite s core o y_3) := by
  induction y_3 generalizing s core o with
  | nil =>
    unfold State.bookWrite
    exact h
  | cons w_ t_ ih =>
    unfold State.bookWrite
    exact ih (Keeps.upd h _ _ _ _ _ _ _ _ _ _ _ _ _ _ _ _ _ _) _ _

theorem Keeps.setTag {q : List Instr} {s : State} (h : Keeps q s) (core : ℕ) (t : List ℕ) :
    Keeps q (State.setTag s core t) := by
  unfold State.setTag
  exact Keeps.upd h _ _ _ _ _ _ _ _ _ _ _ _ _ _ _ _ _ _

theorem Keeps.bumpCore {q : List Instr} {s : State} (h : Keeps q s) (core : ℕ) (n : ℕ) (k : ℕ) :
    Keeps q (State.bumpCore s core n k) := by
  unfold State.bumpCore
  exact Keeps.upd h _ _ _ _ _ _ _ _ _ _ _ _ _ _ _ _ _ _

theorem Keeps.driveRows {q : List Instr} {s : State} (h : Keeps q s) (e : ℕ) (k : ℕ) (drop : Bool) (oor : Bool) :
    Keeps q (State.driveRows s e k drop oor) := by
  unfold State.driveRows
  exact Keeps.ite (Keeps.modEngine (Keeps.ite (Keeps.dropWindow h _) h) _ _) (Keeps.ite (Keeps.bump (Keeps.ite (Keeps.bumpCore (Keeps.bumpCore (Keeps.modEngine (Keeps.ite (Keeps.dropWindow h _) h) _ _) _ _ _) _ _ _) (Keeps.bumpCore (Keeps.modEngine (Keeps.ite (Keeps.dropWindow h _) h) _ _) _ _ _)) _ _) (Keeps.ite (Keeps.bumpCore (Keeps.bumpCore (Keeps.modEngine (Keeps.ite (Keeps.dropWindow h _) h) _ _) _ _ _) _ _ _) (Keeps.bumpCore (Keeps.modEngine (Keeps.ite (Keeps.dropWindow h _) h) _ _) _ _ _)))

theorem Keeps.spendEval {q : List Instr} {s : State} (h : Keeps q s) (e : ℕ) (nibble : Bool) (posOnly : Bool) (rows : ℕ) (b : ℕ) :
    Keeps q (State.spendEval s e nibble posOnly rows b) := by
  unfold State.spendEval
  exact Keeps.ite h (Keeps.spend (Keeps.spend h _ _) _ _)

theorem Keeps.startVisits {q : List Instr} {s : State} (h : Keeps q s) (d : ℕ) :
    Keeps q (State.startVisits s d) := by
  unfold State.startVisits
  exact Keeps.upd h _ _ _ _ _ _ _ _ _ _ _ _ _ _ _ _ _ _

theorem Keeps.setRosc {q : List Instr} {s : State} (h : Keeps q s) (e : ℕ) (v : Rosc) :
    Keeps q (State.setRosc s e v) := by
  unfold State.setRosc
  exact Keeps.upd h _ _ _ _ _ _ _ _ _ _ _ _ _ _ _ _ _ _

theorem Keeps.trimIn {q : List Instr} {s : State} (h : Keeps q s) (e : ℕ) :
    Keeps q (State.trimIn s e) := by
  unfold State.trimIn
  try dsimp only
  split
  · exact h
  · exact Keeps.setRosc h _ _

theorem Keeps.aperServe {q : List Instr} {s : State} (h : Keeps q s) (e : ℕ) (o : ℕ) (v : ℕ) :
    Keeps q (State.aperServe s e o v) := by
  unfold State.aperServe
  exact Keeps.ite (Keeps.setFlag h _ _) (Keeps.periWrite h _ _ _)

theorem Keeps.aperLand {q : List Instr} {s : State} (h : Keeps q s) (e : ℕ) :
    Keeps q (State.aperLand s e) := by
  unfold State.aperLand
  exact Keeps.foldl (fun _ _ h3 => Keeps.aperServe h3 _ _ _) (Keeps.upd h _ _ _ _ _ _ _ _ _ _ _ _ _ _ _ _ _ _)

theorem Keeps.aperIn {q : List Instr} {s : State} (h : Keeps q s) (e : ℕ) :
    Keeps q (State.aperIn s e) := by
  unfold State.aperIn
  exact Keeps.ite h (Keeps.aperLand h _)

theorem Keeps.aperAll {q : List Instr} {s : State} (h : Keeps q s) :
    Keeps q (State.aperAll s) := by
  unfold State.aperAll
  exact Keeps.foldl (fun _ _ h3 => Keeps.aperIn h3 _) h

theorem Keeps.grow {q : List Instr} {s : State} (h : Keeps q s) (dt : ℕ) :
    Keeps q (State.grow s dt) := by
  unfold State.grow
  exact Keeps.upd h _ _ _ _ _ _ _ _ _ _ _ _ _ _ _ _ _ _

end Sys2Proof.Machine
end

