-- ==== Sys2Proof/Laws/KeepsCheckOps.lean ====
section
/-!
SUPPORT. What the operations of Machine/CheckOps.lean keep.
-/

namespace Sys2Proof.Machine

theorem Keeps.placeRow {q : List Instr} {s : State} (h : Keeps q s) (e : ℕ) (k : ℕ) (row : ℕ) (cells : List (ℕ × ℕ)) :
    Keeps q (State.placeRow s e k row cells) := by
  unfold State.placeRow
  exact Keeps.skip (Keeps.modDeck h _ _ _) _

theorem Keeps.placeSpare {q : List Instr} {s : State} (h : Keeps q s) (e : ℕ) (k : ℕ) (sec : Option (List ℕ)) (n : ℕ) (c : ℕ) :
    Keeps q (State.placeSpare s e k sec n c) := by
  unfold State.placeSpare
  exact Keeps.foldl (fun _ _ h3 => Keeps.placeRow h3 _ _ _ _) h

theorem Keeps.residentSection {q : List Instr} {s : State} (h : Keeps q s) (e : ℕ) (k : ℕ) :
    Keeps q (State.residentSection s e k).1 := by
  unfold State.residentSection
  exact Keeps.ite1 (Keeps.pair h) (by
    try dsimp only
    split
    · exact Keeps.pair h
    · exact Keeps.ite1 (Keeps.pair (Keeps.readSpace h _ _ _ _ _)) (Keeps.ite1 (Keeps.pair (Keeps.readSpace (Keeps.readSpace h _ _ _ _ _) _ _ _ _ _)) (Keeps.pair (Keeps.readSpace (Keeps.readSpace h _ _ _ _ _) _ _ _ _ _))))

theorem Keeps.sourceLost {q : List Instr} {s : State} (h : Keeps q s) (e : ℕ) (k : ℕ) :
    Keeps q (State.sourceLost s e k) := by
  unfold State.sourceLost
  exact Keeps.ite h (Keeps.raiseOwner (Keeps.setDeck h _ _ _) _ _ _ _)

theorem Keeps.vectors {q : List Instr} {s : State} (h : Keeps q s) (e : ℕ) (k : ℕ) :
    Keeps q (State.vectors s e k).1 := by
  unfold State.vectors
  exact Keeps.ite1 (Keeps.pair h) (by
    try dsimp only
    split
    · exact Keeps.pair (Keeps.residentSection h _ _)
    · exact Keeps.pair (Keeps.sourceLost (Keeps.residentSection h _ _) _ _))

theorem Keeps.checkStart {q : List Instr} {s : State} (h : Keeps q s) (e : ℕ) (k : ℕ) (v : Vec) (oor : Bool) :
    Keeps q (State.checkStart s e k v oor) := by
  unfold State.checkStart
  exact Keeps.driveRows (Keeps.spendEval (Keeps.upd h _ _ _ _ _ _ _ _ _ _ _ _ _ _ _ _ _ _) _ _ _ _ _) _ _ _ _

theorem Keeps.checkConvert {q : List Instr} {s : State} (h : Keeps q s) (e : ℕ) (k : ℕ) (v : Vec) (oor : Bool) (whole : Bool) (target : Bool) :
    Keeps q (State.checkConvert s e k v oor whole target).1 := by
  unfold State.checkConvert
  exact Keeps.pair (Keeps.trimIn (Keeps.skip h _) _)

theorem Keeps.checkRun {q : List Instr} {s : State} (h : Keeps q s) (e : ℕ) (k : ℕ) (v : Vec) (whole : Bool) (target : Bool) :
    Keeps q (State.checkRun s e k v whole target).1 := by
  unfold State.checkRun
  exact Keeps.checkConvert (Keeps.checkStart (Keeps.skip h _) _ _ _ _) _ _ _ _ _ _

theorem Keeps.setTrim {q : List Instr} {s : State} (h : Keeps q s) (e : ℕ) (k : ℕ) (j : ℕ) (v : ℕ) :
    Keeps q (State.setTrim s e k j v) := by
  unfold State.setTrim
  exact Keeps.setPeri h _ _ _

theorem Keeps.health {q : List Instr} {s : State} (h : Keeps q s) (e : ℕ) (n : ℕ) (k : ℕ) :
    Keeps q (State.health s e n k) := by
  unfold State.health
  exact Keeps.ite h (Keeps.bump h _ _)

theorem Keeps.calRuns {q : List Instr} {s : State} (h : Keeps q s) (e : ℕ) (k : ℕ) (whole : Bool) (target : Bool) (y_5 : List Vec) :
    Keeps q (State.calRuns s e k whole target y_5).1 := by
  induction y_5 generalizing s e k whole target with
  | nil =>
    unfold State.calRuns
    exact Keeps.pair h
  | cons w_ t_ ih =>
    unfold State.calRuns
    exact Keeps.pair (ih (Keeps.foldl1 (fun _ _ h3 => Keeps.pair (Keeps.checkRun h3 _ _ _ _ _)) (Keeps.pair h)) _ _ _ _)

theorem Keeps.calNone {q : List Instr} {s : State} (h : Keeps q s) (e : ℕ) (k : ℕ) :
    Keeps q (State.calNone s e k) := by
  unfold State.calNone
  exact Keeps.modDeck h _ _ _

theorem Keeps.calibrateBy {q : List Instr} {s : State} (h : Keeps q s) (e : ℕ) (k : ℕ) (vs : List Vec) (only : Option (List ℕ)) (target : Bool) :
    Keeps q (State.calibrateBy s e k vs only target).1 := by
  unfold State.calibrateBy
  exact Keeps.pair (Keeps.health (by
    try dsimp only
    split
    · exact Keeps.modDeck (Keeps.foldl1 (fun _ _ h3 => by
        try dsimp only
        split
        · exact Keeps.pair h3
        · exact by
            try dsimp only
            split
            · exact Keeps.pair (Keeps.setTrim h3 _ _ _ _)
            · exact Keeps.pair (Keeps.setTrim h3 _ _ _ _)) (Keeps.pair (Keeps.calRuns h _ _ _ _ _))) _ _ _
    · exact Keeps.modDeck (Keeps.foldl1 (fun _ _ h3 => by
        try dsimp only
        split
        · exact Keeps.pair h3
        · exact by
            try dsimp only
            split
            · exact Keeps.pair (Keeps.setTrim h3 _ _ _ _)
            · exact Keeps.pair (Keeps.setTrim h3 _ _ _ _)) (Keeps.pair (Keeps.calRuns h _ _ _ _ _))) _ _ _) _ _ _)

theorem Keeps.calibrate {q : List Instr} {s : State} (h : Keeps q s) (e : ℕ) (k : ℕ) (only : Option (List ℕ)) :
    Keeps q (State.calibrate s e k only).1 := by
  unfold State.calibrate
  exact Keeps.ite1 (Keeps.pair (Keeps.calNone (Keeps.vectors h _ _) _ _)) (Keeps.calibrateBy (Keeps.vectors h _ _) _ _ _ _ _)

theorem Keeps.mirrorDeck {q : List Instr} {s : State} (h : Keeps q s) (e : ℕ) (k : ℕ) :
    Keeps q (State.mirrorDeck s e k) := by
  unfold State.mirrorDeck
  exact Keeps.upd h _ _ _ _ _ _ _ _ _ _ _ _ _ _ _ _ _ _

theorem Keeps.stopDarns {q : List Instr} {s : State} (h : Keeps q s) (p : Darn → Bool) :
    Keeps q (State.stopDarns s p) := by
  unfold State.stopDarns
  exact Keeps.foldl (fun _ _ h3 => Keeps.mirrorDeck (Keeps.modDeck h3 _ _ _) _ _) (Keeps.upd h _ _ _ _ _ _ _ _ _ _ _ _ _ _ _ _ _ _)

theorem Keeps.setRetired {q : List Instr} {s : State} (h : Keeps q s) (e : ℕ) (k : ℕ) :
    Keeps q (State.setRetired s e k) := by
  unfold State.setRetired
  exact Keeps.mirrorDeck (Keeps.modDeck (Keeps.stopDarns h _) _ _ _) _ _

theorem Keeps.retireEngineNow {q : List Instr} {s : State} (h : Keeps q s) (e : ℕ) :
    Keeps q (State.retireEngineNow s e) := by
  unfold State.retireEngineNow
  exact Keeps.ite h (Keeps.raise (Keeps.health (Keeps.ite (Keeps.modEngine (Keeps.foldl (fun _ _ h3 => Keeps.setRetired h3 _ _) h) _ _) (Keeps.wr (Keeps.modEngine (Keeps.foldl (fun _ _ h3 => Keeps.setRetired h3 _ _) h) _ _) _ _)) _ _ _) _ _ _ _ _)

theorem Keeps.retireDeckNow {q : List Instr} {s : State} (h : Keeps q s) (e : ℕ) (k : ℕ) :
    Keeps q (State.retireDeckNow s e k) := by
  unfold State.retireDeckNow
  exact Keeps.ite h (Keeps.ite (Keeps.retireEngineNow (Keeps.raise (Keeps.health (Keeps.setRetired h _ _) _ _ _) _ _ _ _ _) _) (Keeps.raise (Keeps.health (Keeps.setRetired h _ _) _ _ _) _ _ _ _ _))

theorem Keeps.retire {q : List Instr} {s : State} (h : Keeps q s) (e : ℕ) (k : ℕ) :
    Keeps q (State.retire s e k) := by
  unfold State.retire
  exact Keeps.ite (Keeps.upd h _ _ _ _ _ _ _ _ _ _ _ _ _ _ _ _ _ _) (Keeps.ite (Keeps.retireEngineNow h _) (Keeps.retireDeckNow h _ _))

theorem Keeps.retireWaiting {q : List Instr} {s : State} (h : Keeps q s) (e : ℕ) :
    Keeps q (State.retireWaiting s e) := by
  unfold State.retireWaiting
  exact Keeps.ite h (Keeps.foldl (fun _ _ h3 => Keeps.retire h3 _ _) (Keeps.upd h _ _ _ _ _ _ _ _ _ _ _ _ _ _ _ _ _ _))

theorem Keeps.darnColumn {q : List Instr} {s : State} (h : Keeps q s) (e : ℕ) (k : ℕ) (c : ℕ) (target : Option (ℕ × ℕ)) (sec : Option (List ℕ)) (rinse : Bool) :
    Keeps q (State.darnColumn s e k c target sec rinse) := by
  unfold State.darnColumn
  exact Keeps.ite h (by
    try dsimp only
    split
    · exact Keeps.retire (Keeps.setDeck h _ _ _) _ _
    · exact Keeps.ite (Keeps.upd (Keeps.placeSpare (Keeps.ite1 (Keeps.pair (Keeps.mirrorDeck (Keeps.setDeck h _ _ _) _ _)) (Keeps.residentSection (Keeps.mirrorDeck (Keeps.setDeck h _ _ _) _ _) _ _)) _ _ _ _ _) _ _ _ _ _ _ _ _ _ _ _ _ _ _ _ _ _ _) (Keeps.raiseOwner (Keeps.health (Keeps.mirrorDeck (Keeps.modDeck (Keeps.sourceLost (Keeps.ite1 (Keeps.pair (Keeps.mirrorDeck (Keeps.setDeck h _ _ _) _ _)) (Keeps.residentSection (Keeps.mirrorDeck (Keeps.setDeck h _ _ _) _ _) _ _)) _ _) _ _ _) _ _) _ _ _) _ _ _ _))

theorem Keeps.darnColumns {q : List Instr} {s : State} (h : Keeps q s) (e : ℕ) (k : ℕ) (cs : List ℕ) (target : Option (ℕ × ℕ)) (sec : Option (List ℕ)) (rinse : Bool) :
    Keeps q (State.darnColumns s e k cs target sec rinse) := by
  unfold State.darnColumns
  exact Keeps.foldl (fun _ _ h3 => Keeps.ite h3 (Keeps.darnColumn h3 _ _ _ _ _ _)) h

theorem Keeps.noteConverters {q : List Instr} {s : State} (h : Keeps q s) (e : ℕ) (k : ℕ) (convs : List ℕ) :
    Keeps q (State.noteConverters s e k convs).1 := by
  unfold State.noteConverters
  exact Keeps.pair (Keeps.setEngine h _ _)

theorem Keeps.localise {q : List Instr} {s : State} (h : Keeps q s) (e : ℕ) (k : ℕ) (f0 : List (ℕ × Bool)) (target : Option (ℕ × ℕ)) (sec : Option (List ℕ)) :
    Keeps q (State.localise s e k f0 target sec) := by
  unfold State.localise
  exact Keeps.ite h (Keeps.ite (Keeps.retire (Keeps.health (Keeps.noteConverters h _ _ _) _ _ _) _ _) (Keeps.ite (Keeps.retire (Keeps.health (Keeps.noteConverters h _ _ _) _ _ _) _ _) (Keeps.darnColumns (Keeps.health (Keeps.noteConverters h _ _ _) _ _ _) _ _ _ _ _ _)))

end Sys2Proof.Machine
end

