-- ==== Sys2Proof/Laws/KeepsGapOps.lean ====
section
/-!
SUPPORT. What the operations of Machine/GapOps.lean keep.
-/

namespace Sys2Proof.Machine

theorem Keeps.modJob {q : List Instr} {s : State} (h : Keeps q s) (uid : ℕ) (f : ProgJob → ProgJob) :
    Keeps q (State.modJob s uid f) := by
  unfold State.modJob
  exact Keeps.upd h _ _ _ _ _ _ _ _ _ _ _ _ _ _ _ _ _ _

theorem Keeps.modTarget {q : List Instr} {s : State} (h : Keeps q s) (uid : ℕ) (pos : ℕ) (f : Target → Target) :
    Keeps q (State.modTarget s uid pos f) := by
  unfold State.modTarget
  exact Keeps.modJob h _ _

theorem Keeps.dropJob {q : List Instr} {s : State} (h : Keeps q s) (uid : ℕ) :
    Keeps q (State.dropJob s uid) := by
  unfold State.dropJob
  exact Keeps.upd h _ _ _ _ _ _ _ _ _ _ _ _ _ _ _ _ _ _

theorem Keeps.writeResult8 {q : List Instr} {s : State} (h : Keeps q s) (j : ProgJob) (pos : ℕ) (status : ℕ) (res1 : ℕ) (res2 : ℕ) :
    Keeps q (State.writeResult8 s j pos status res1 res2) := by
  unfold State.writeResult8
  exact Keeps.ite h (Keeps.hostWrite h _ _ _)

theorem Keeps.closeTarget {q : List Instr} {s : State} (h : Keeps q s) (uid : ℕ) (pos : ℕ) (status : ℕ) :
    Keeps q (State.closeTarget s uid pos status) := by
  unfold State.closeTarget
  try dsimp only
  split
  · exact h
  · exact Keeps.writeResult8 (Keeps.modTarget h _ _ _) _ _ _ _ _

theorem Keeps.closeJob {q : List Instr} {s : State} (h : Keeps q s) (uid : ℕ) :
    Keeps q (State.closeJob s uid) := by
  unfold State.closeJob
  try dsimp only
  split
  · exact h
  · exact Keeps.ite (by
      try dsimp only
      split
      · exact Keeps.complete (Keeps.dropJob h _) _ _ _
      · exact Keeps.complete (Keeps.dropJob h _) _ _ _) h

theorem Keeps.endTarget {q : List Instr} {s : State} (h : Keeps q s) (uid : ℕ) (pos : ℕ) (status : ℕ) :
    Keeps q (State.endTarget s uid pos status) := by
  unfold State.endTarget
  try dsimp only
  split
  · exact h
  · exact Keeps.closeJob (Keeps.ite (Keeps.foldl (fun _ _ h3 => Keeps.closeTarget h3 _ _ _) (Keeps.closeTarget h _ _ _)) (Keeps.closeTarget h _ _ _)) _

theorem Keeps.lendOne {q : List Instr} {s : State} (h : Keeps q s) (j : LendJob) (e : ℕ) :
    Keeps q (State.lendOne s j e) := by
  unfold State.lendOne
  exact Keeps.ite (Keeps.complete (Keeps.upd (Keeps.modEngine h _ _) _ _ _ _ _ _ _ _ _ _ _ _ _ _ _ _ _ _) _ _ _) (Keeps.upd (Keeps.modEngine h _ _) _ _ _ _ _ _ _ _ _ _ _ _ _ _ _ _ _ _)

theorem Keeps.lendTry {q : List Instr} {s : State} (h : Keeps q s) (e : ℕ) :
    Keeps q (State.lendTry s e) := by
  unfold State.lendTry
  try dsimp only
  split
  · exact h
  · exact Keeps.ite (Keeps.ite (Keeps.lendOne h _ _) h) (Keeps.ite h (Keeps.lendOne h _ _))

theorem Keeps.startTest {q : List Instr} {s : State} (h : Keeps q s) (e : ℕ) :
    Keeps q (State.startTest s e) := by
  unfold State.startTest
  try dsimp only
  split
  · exact h
  · exact by
      try dsimp only
      split
      · exact h
      · exact Keeps.ite (Keeps.ite (Keeps.endTarget h _ _ _) (Keeps.modEngine (Keeps.modTarget h _ _ _) _ _)) h

theorem Keeps.gapTry {q : List Instr} {s : State} (h : Keeps q s) (e : ℕ) :
    Keeps q (State.gapTry s e) := by
  unfold State.gapTry
  exact Keeps.startTest (Keeps.lendTry (Keeps.retireWaiting h _) _) _

theorem Keeps.gapEvent {q : List Instr} {s : State} (h : Keeps q s) (e : ℕ) :
    Keeps q (State.gapEvent s e) := by
  unfold State.gapEvent
  exact Keeps.gapTry (Keeps.modEngine h _ _) _

theorem Keeps.settleTest {q : List Instr} {s : State} (h : Keeps q s) (uid : ℕ) (pos : ℕ) :
    Keeps q (State.settleTest s uid pos) := by
  unfold State.settleTest
  try dsimp only
  split
  · exact h
  · exact Keeps.ite (Keeps.modTarget h _ _ _) (Keeps.endTarget h _ _ _)

theorem Keeps.dropChecks {q : List Instr} {s : State} (h : Keeps q s) (p : Check → Bool) :
    Keeps q (State.dropChecks s p) := by
  unfold State.dropChecks
  exact Keeps.foldl (fun _ _ h3 => by
    try dsimp only
    split
    · exact Keeps.ite (Keeps.settleTest h3 _ _) h3
    · exact h3) (Keeps.upd h _ _ _ _ _ _ _ _ _ _ _ _ _ _ _ _ _ _)

theorem Keeps.dropRetired {q : List Instr} {s : State} (h : Keeps q s) (e : ℕ) :
    Keeps q (State.dropRetired s e) := by
  unfold State.dropRetired
  exact Keeps.dropChecks h _

end Sys2Proof.Machine
end

