-- ==== Sys2Proof/Laws/KeepsPleatOps.lean ====
section
/-!
SUPPORT. What the operations of Machine/PleatOps.lean keep.
-/

namespace Sys2Proof.Machine

theorem Keeps.splitNow {q : List Instr} {s : State} (h : Keeps q s) (e : ℕ) :
    Keeps q (State.splitNow s e) := by
  unfold State.splitNow
  exact Keeps.wr h _ _

theorem Keeps.seeSpread {q : List Instr} {s : State} (h : Keeps q s) (e : ℕ) (sp : ℕ) :
    Keeps q (State.seeSpread s e sp) := by
  unfold State.seeSpread
  exact Keeps.wr h _ _

theorem Keeps.modPleat {q : List Instr} {s : State} (h : Keeps q s) (uid : ℕ) (size : ℕ) (first : ℕ) (f : Pleat → Pleat) :
    Keeps q (State.modPleat s uid size first f) := by
  unfold State.modPleat
  exact Keeps.modStep h _ _

theorem Keeps.chainCal {q : List Instr} {s : State} (h : Keeps q s) (uid : ℕ) (size : ℕ) (first : ℕ) (recal : Bool) (pass : Bool) :
    Keeps q (State.chainCal s uid size first recal pass) := by
  unfold State.chainCal
  try dsimp only
  split
  · exact h
  · exact Keeps.splitNow (Keeps.seeSpread (Keeps.ite (Keeps.raiseOwner (Keeps.ite (Keeps.ite (Keeps.bump (Keeps.modPleat h _ _ _ _) _ _) (Keeps.modPleat h _ _ _ _)) (Keeps.bump (Keeps.ite (Keeps.bump (Keeps.modPleat h _ _ _ _) _ _) (Keeps.modPleat h _ _ _ _)) _ _)) _ _ _ _) (Keeps.ite (Keeps.ite (Keeps.bump (Keeps.modPleat h _ _ _ _) _ _) (Keeps.modPleat h _ _ _ _)) (Keeps.bump (Keeps.ite (Keeps.bump (Keeps.modPleat h _ _ _ _) _ _) (Keeps.modPleat h _ _ _ _)) _ _))) _ _) _

end Sys2Proof.Machine
end

