-- ==== Sys2Proof/Laws/KeepsSteps.lean ====
section
/-!
SUPPORT. What the operations of Machine/Steps.lean keep.
-/

namespace Sys2Proof.Machine

theorem Keeps.refuseStep {q : List Instr} {s : State} (h : Keeps q s) (d : Desc) (status : ℕ) (hi : ℕ) (info1 : ℕ) (passed : Bool) :
    Keeps q (State.refuseStep s d status hi info1 passed) := by
  unfold State.refuseStep
  exact Keeps.completeC (Keeps.raise h _ _ _ _ _) _ _ _ _

theorem Keeps.rejectImage {q : List Instr} {s : State} (h : Keeps q s) (d : Desc) (b : Breach) :
    Keeps q (State.rejectImage s d b) := by
  unfold State.rejectImage
  exact Keeps.refuseStep h _ _ _ _ _

theorem Keeps.checkedImage {q : List Instr} {s : State} (h : Keeps q s) (d : Desc) :
    Keeps q (State.checkedImage s d).1 := by
  unfold State.checkedImage
  exact Keeps.ite1 (Keeps.pair h) (Keeps.ite1 (Keeps.pair h) (Keeps.ite1 (Keeps.pair (Keeps.readSpace h _ _ _ _ _)) (by
    try dsimp only
    split
    · exact Keeps.pair (Keeps.readSpace h _ _ _ _ _)
    · exact Keeps.ite1 (Keeps.pair (Keeps.readSpace (Keeps.readSpace h _ _ _ _ _) _ _ _ _ _)) (by
        try dsimp only
        split
        · exact Keeps.pair (Keeps.readSpace (Keeps.readSpace h _ _ _ _ _) _ _ _ _ _)
        · exact Keeps.pair (Keeps.readSpace (Keeps.readSpace h _ _ _ _ _) _ _ _ _ _)))))

theorem Keeps.runStep {q : List Instr} {s : State} (h : Keeps q s) (d : Desc) :
    Keeps q (State.runStep s d) := by
  unfold State.runStep
  try dsimp only
  split
  · exact Keeps.rejectImage (Keeps.checkedImage h _) _ _
  · exact Keeps.refuseStep (Keeps.checkedImage h _) _ _ _ _ _
  · exact Keeps.upd (Keeps.checkedImage h _) _ _ _ _ _ _ _ _ _ _ _ _ _ _ _ _ _ _

theorem Keeps.runStepNext {q : List Instr} {s : State} (h : Keeps q s) (f : ℕ) (w : ℕ) :
    Keeps q (State.runStepNext s f w) := by
  unfold State.runStepNext
  try dsimp only
  split
  · exact h
  · exact Keeps.ite (Keeps.runStep (Keeps.started h _) _) h

theorem Keeps.execRunStep {q : List Instr} {s : State} (h : Keeps q s) (f : ℕ) (w : ℕ) :
    KeepsO q (Sys2Proof.Machine.execRunStep f w s) := by
  unfold Sys2Proof.Machine.execRunStep
  exact KeepsO.unit (Keeps.runStepNext h _ _)

theorem Keeps.dropBind {q : List Instr} {s : State} (h : Keeps q s) (uid : ℕ) (d : Desc) (status : ℕ) (hi : ℕ) :
    Keeps q (State.dropBind s uid d status hi) := by
  unfold State.dropBind
  exact Keeps.refuseStep (Keeps.upd h _ _ _ _ _ _ _ _ _ _ _ _ _ _ _ _ _ _) _ _ _ _ _

theorem Keeps.bindSource {q : List Instr} {s : State} (h : Keeps q s) (e : List ℕ) :
    Keeps q (State.bindSource s e) := by
  unfold State.bindSource
  exact Keeps.ite h (Keeps.ite (Keeps.ite (Keeps.modDeck (Keeps.residentSection (Keeps.setDeck h _ _ _) _ _) _ _ _) (Keeps.residentSection (Keeps.setDeck h _ _ _) _ _)) (Keeps.setDeck h _ _ _))

theorem Keeps.bindPeg {q : List Instr} {s : State} (h : Keeps q s) (t : Step) (e : List ℕ) :
    Keeps q (State.bindPeg s t e) := by
  unfold State.bindPeg
  exact Keeps.ite (Keeps.ite (Keeps.setShadow h _ _ _) (Keeps.upd h _ _ _ _ _ _ _ _ _ _ _ _ _ _ _ _ _ _)) (Keeps.ite (Keeps.pegOp h _ _ _ _ _ _) h)

theorem Keeps.bindWrites {q : List Instr} {s : State} (h : Keeps q s) (t : Step) :
    Keeps q (State.bindWrites s t) := by
  unfold State.bindWrites
  exact Keeps.foldl (fun _ _ h3 => Keeps.setTag h3 _ _) (Keeps.foldl (fun _ _ h3 => Keeps.ite h3 (Keeps.periWords h3 _ _ _)) (Keeps.foldl (fun _ _ h3 => Keeps.ite h3 (Keeps.bookWrite h3 _ _ _)) h))

theorem Keeps.bindCal {q : List Instr} {s : State} (h : Keeps q s) (p : ℕ × ℕ) :
    Keeps q (State.bindCal s p) := by
  unfold State.bindCal
  exact Keeps.ite h (Keeps.localise (Keeps.calibrate h _ _ _) _ _ _ _ _)

theorem Keeps.bind {q : List Instr} {s : State} (h : Keeps q s) (t0 : Step) (cal : List Bool) :
    Keeps q (State.bind s t0 cal) := by
  unfold State.bind
  exact Keeps.busyNow (Keeps.fetchStep (Keeps.foldl (fun _ _ h3 => Keeps.bindCal h3 _) (Keeps.foldl (fun _ _ h3 => Keeps.chainCal h3 _ _ _ _ _) (Keeps.bindWrites (Keeps.foldl (fun _ _ h3 => Keeps.bindPeg h3 _ _) (Keeps.foldl (fun _ _ h3 => Keeps.bindSource h3 _) (Keeps.modStep (Keeps.foldl (fun _ _ h3 => Keeps.becomesPeg h3 _) h) _ _))) _))) _)

theorem Keeps.stepBind {q : List Instr} {s : State} (h : Keeps q s) (uid : ℕ) (cal : List Bool) :
    Keeps q (State.stepBind s uid cal) := by
  unfold State.stepBind
  try dsimp only
  split
  · exact Keeps.ite h (by
      try dsimp only
      split
      · exact Keeps.dropBind h _ _ _ _
      · exact by
          try dsimp only
          split
          · exact Keeps.dropBind (Keeps.returned h _) _ _ _ _
          · exact Keeps.bind h _ _)
  · exact h

theorem Keeps.execStepBind {q : List Instr} {s : State} (h : Keeps q s) (uid : ℕ) (cal : List Bool) :
    KeepsO q (Sys2Proof.Machine.execStepBind uid cal s) := by
  unfold Sys2Proof.Machine.execStepBind
  exact KeepsO.done (Keeps.stepBind h _ _)

theorem Keeps.chargeStalls {q : List Instr} {s : State} (h : Keeps q s) (dt : ℕ) :
    Keeps q (State.chargeStalls s dt) := by
  unfold State.chargeStalls
  exact Keeps.upd h _ _ _ _ _ _ _ _ _ _ _ _ _ _ _ _ _ _

theorem Keeps.lateFetch {q : List Instr} {s : State} (h : Keeps q s) (uid : ℕ) (cl : ℕ) :
    Keeps q (State.lateFetch s uid cl) := by
  unfold State.lateFetch
  try dsimp only
  split
  · exact h
  · exact by
      try dsimp only
      split
      · exact h
      · exact Keeps.ite (Keeps.failStep h _ _ _ _ _) h

theorem Keeps.execStepLateFetch {q : List Instr} {s : State} (h : Keeps q s) (uid : ℕ) (cl : ℕ) :
    KeepsO q (Sys2Proof.Machine.execStepLateFetch uid cl s) := by
  unfold Sys2Proof.Machine.execStepLateFetch
  exact KeepsO.unit (Keeps.lateFetch h _ _)

theorem Keeps.dropStreamWait {q : List Instr} {s : State} (h : Keeps q s) (uid : ℕ) (st : ℕ) (op : ℕ) :
    Keeps q (State.dropStreamWait s uid st op) := by
  unfold State.dropStreamWait
  exact Keeps.upd h _ _ _ _ _ _ _ _ _ _ _ _ _ _ _ _ _ _

theorem Keeps.startFetched {q : List Instr} {s : State} (h : Keeps q s) (uid : ℕ) (st : ℕ) (op : ℕ) :
    Keeps q (State.startFetched s uid st op) := by
  unfold State.startFetched
  try dsimp only
  split
  · exact h
  · exact Keeps.ite h (Keeps.ite (Keeps.busyNow (Keeps.setStage (Keeps.dropStreamWait h _ _ _) _ _ _ _)) (Keeps.upd (Keeps.dropStreamWait h _ _ _) _ _ _ _ _ _ _ _ _ _ _ _ _ _ _ _ _ _))

theorem Keeps.startOp {q : List Instr} {s : State} (h : Keeps q s) (uid : ℕ) (st : ℕ) (op : ℕ) :
    Keeps q (State.startOp s uid st op) := by
  unfold State.startOp
  exact Keeps.startFetched (Keeps.fetchStep h _) _ _ _

theorem Keeps.execOperationStart {q : List Instr} {s : State} (h : Keeps q s) (uid : ℕ) (st : ℕ) (op : ℕ) :
    KeepsO q (Sys2Proof.Machine.execOperationStart uid st op s) := by
  unfold Sys2Proof.Machine.execOperationStart
  exact KeepsO.done (Keeps.startOp h _ _ _)

theorem Keeps.dropBlocks {q : List Instr} {s : State} (h : Keeps q s) (uid : ℕ) (e : ℕ) :
    Keeps q (State.dropBlocks s uid e) := by
  unfold State.dropBlocks
  exact Keeps.ite h (Keeps.bumpCore (Keeps.setEngine h _ _) _ _ _)

theorem Keeps.unbind {q : List Instr} {s : State} (h : Keeps q s) (t : Step) :
    Keeps q (State.unbind s t) := by
  unfold State.unbind
  exact Keeps.foldl (fun _ _ h3 => Keeps.gapEvent h3 _) (Keeps.foldl (fun _ _ h3 => Keeps.splitNow h3 _) (Keeps.upd (Keeps.foldl (fun _ _ h3 => Keeps.dropBlocks (Keeps.dropWindow h3 _) _ _) h) _ _ _ _ _ _ _ _ _ _ _ _ _ _ _ _ _ _))

theorem Keeps.addCounters {q : List Instr} {s : State} (h : Keeps q s) (t : Step) :
    Keeps q (State.addCounters s t) := by
  unfold State.addCounters
  exact Keeps.ite (Keeps.bump (Keeps.raiseOwner (Keeps.foldl (fun _ _ h3 => Keeps.bump h3 _ _) (Keeps.bump (Keeps.bump h _ _) _ _)) _ _ _ _) _ _) (Keeps.foldl (fun _ _ h3 => Keeps.bump h3 _ _) (Keeps.bump (Keeps.bump h _ _) _ _))

theorem Keeps.completeStep {q : List Instr} {s : State} (h : Keeps q s) (uid : ℕ) :
    Keeps q (State.completeStep s uid) := by
  unfold State.completeStep
  try dsimp only
  split
  · exact h
  · exact Keeps.ite h (Keeps.ite (Keeps.unbind h _) (Keeps.completeC (Keeps.addCounters (Keeps.unbind h _) _) _ _ _ _))

theorem Keeps.execStepComplete {q : List Instr} {s : State} (h : Keeps q s) (uid : ℕ) :
    KeepsO q (Sys2Proof.Machine.execStepComplete uid s) := by
  unfold Sys2Proof.Machine.execStepComplete
  exact KeepsO.done (Keeps.completeStep h _)

end Sys2Proof.Machine
end

