-- ==== Sys2Proof/Laws/KeepsEvals.lean ====
section
/-!
SUPPORT. What the operations of Machine/Evals.lean keep.
-/

namespace Sys2Proof.Machine

theorem Keeps.underOld {q : List Instr} {s : State} (h : Keeps q s) (i : ℕ) (f : State → State) (hf_f : ∀ a0, Keeps q a0 → Keeps q (f a0)) :
    Keeps q (State.underOld s i f) := by
  unfold State.underOld
  exact Keeps.modInst (hf_f _ (Keeps.modInst h _ _)) _ _

theorem Keeps.under {q : List Instr} {s : State} (h : Keeps q s) (t : Step) (f : State → State) (hf_f : ∀ a0, Keeps q a0 → Keeps q (f a0)) :
    Keeps q (State.under s t f) := by
  unfold State.under
  exact Keeps.ite (hf_f _ (h)) (Keeps.underOld h _ _ (fun _ h3 => hf_f _ (h3)))

theorem Keeps.latch {q : List Instr} {s : State} (h : Keeps q s) (i : ℕ) (a : EvalArgs) :
    Keeps q (State.latch s i a).1 := by
  unfold State.latch
  exact Keeps.sramRead h _ _ _ _ _

theorem Keeps.evalStart {q : List Instr} {s : State} (h : Keeps q s) (uid : ℕ) (st : ℕ) (op : ℕ) (oor : Bool) :
    Keeps q (State.evalStart s uid st op oor) := by
  unfold State.evalStart
  exact Keeps.onOp h _ _ _ _ _ (fun _ _ _ => Keeps.ite (Keeps.opDone (Keeps.failStep h _ _ _ _ _) _ _ _) (Keeps.ite (Keeps.opDone (Keeps.failAccess (Keeps.latch h _ _) _ _ _) _ _ _) (Keeps.setStage (Keeps.modEngine (Keeps.driveRows (Keeps.spendEval (Keeps.latch h _ _) _ _ _ _ _) _ _ _ _) _ _) _ _ _ _)))

theorem Keeps.execEval {q : List Instr} {s : State} (h : Keeps q s) (uid : ℕ) (st : ℕ) (op : ℕ) (oor : Bool) :
    KeepsO q (Sys2Proof.Machine.execEval uid st op oor s) := by
  unfold Sys2Proof.Machine.execEval
  exact KeepsO.done (Keeps.evalStart h _ _ _ _)

theorem Keeps.rawValues {q : List Instr} {s : State} (h : Keeps q s) (e : ℕ) (conv : ℕ → ℕ) (oor : Bool) (nibble : Bool) (b : ℕ) (sh : ℕ) (charges : List ℤ) :
    Keeps q (State.rawValues s e conv oor nibble b sh charges).1 := by
  unfold State.rawValues
  exact Keeps.pair (Keeps.skip h _)

theorem Keeps.countClips {q : List Instr} {s : State} (h : Keeps q s) (e : ℕ) (v : Eval) (pre : List (ℤ × Bool)) :
    Keeps q (State.countClips s e v pre) := by
  unfold State.countClips
  exact Keeps.ite (Keeps.foldl (fun _ _ h3 => Keeps.ite (Keeps.bumpPeri h3 _ _ _) h3) (Keeps.bumpPeri h _ _ _)) h

theorem Keeps.countEval {q : List Instr} {s : State} (h : Keeps q s) (uid : ℕ) (clipped : Bool) (split : Bool) :
    Keeps q (State.countEval s uid clipped split) := by
  unfold State.countEval
  exact Keeps.modStep h _ _

theorem Keeps.issue {q : List Instr} {s : State} (h : Keeps q s) (e : ℕ) (v : Eval) (t : Step) (m : Stream) (o : Op) (outs : List (ℤ × Bool)) :
    Keeps q (State.issue s e v t m o outs) := by
  unfold State.issue
  exact Keeps.ite (Keeps.ite (Keeps.failAccess (Keeps.sramWrite h _ _ _ _ _) _ _ _) h) (Keeps.ite (Keeps.modEngine h _ _) h)

theorem Keeps.periphery {q : List Instr} {s : State} (h : Keeps q s) (e : ℕ) (v : Eval) (vals : List (ℤ × Bool)) (split : Bool) :
    Keeps q (State.periphery s e v vals split) := by
  unfold State.periphery
  try dsimp only
  split
  · exact h
  · exact Keeps.opDone (Keeps.ite (Keeps.countEval (Keeps.countClips h _ _ _) _ _ _) (by
      try dsimp only
      split
      · exact Keeps.issue (Keeps.countEval (Keeps.countClips h _ _ _) _ _ _) _ _ _ _ _ _
      · exact Keeps.ite (Keeps.setEngine (Keeps.countEval (Keeps.countClips h _ _ _) _ _ _) _ _) (Keeps.issue (Keeps.setEngine (Keeps.countEval (Keeps.countClips h _ _ _) _ _ _) _ _) _ _ _ _ _ _))) _ _ _

theorem Keeps.evalHandoff {q : List Instr} {s : State} (h : Keeps q s) (e : ℕ) :
    Keeps q (State.evalHandoff s e) := by
  unfold State.evalHandoff
  try dsimp only
  split
  · exact h
  · exact Keeps.aperIn (Keeps.periphery (Keeps.trimIn (Keeps.modEngine (Keeps.rawValues h _ _ _ _ _ _ _) _ _) _) _ _ _ _) _

theorem Keeps.execEvalHandoff {q : List Instr} {s : State} (h : Keeps q s) (e : ℕ) :
    KeepsO q (Sys2Proof.Machine.execEvalHandoff e s) := by
  unfold Sys2Proof.Machine.execEvalHandoff
  exact KeepsO.unit (Keeps.when h _ _ (fun _ h3 => Keeps.evalHandoff h3 _))

theorem Keeps.latchAll {q : List Instr} {s : State} (h : Keeps q s) (i : ℕ) (y_2 : List EvalArgs) :
    Keeps q (State.latchAll s i y_2).1 := by
  induction y_2 generalizing s i with
  | nil =>
    unfold State.latchAll
    exact Keeps.pair h
  | cons w_ t_ ih =>
    unfold State.latchAll
    exact Keeps.pair (ih (Keeps.latch h _ _) _)

theorem Keeps.decideMode {q : List Instr} {s : State} (h : Keeps q s) (uid : ℕ) (size : ℕ) (first : ℕ) (p : Pleat) (cal : Bool) :
    Keeps q (State.decideMode s uid size first p cal) := by
  unfold State.decideMode
  exact Keeps.ite (Keeps.chainCal h _ _ _ _ _) (Keeps.seeSpread h _ _)

theorem Keeps.drivePleat {q : List Instr} {s : State} (h : Keeps q s) (uid : ℕ) (st : ℕ) (op : ℕ) (size : ℕ) (first : ℕ) (split : Bool) (oor : Bool) (shift : ℕ) (ms : List (EvalArgs × List ℕ)) :
    Keeps q (State.drivePleat s uid st op size first split oor shift ms) := by
  unfold State.drivePleat
  exact Keeps.setStage (Keeps.upd (Keeps.ite (Keeps.bump (Keeps.ite (Keeps.bump (Keeps.foldl (fun _ _ h3 => Keeps.bumpCore h3 _ _ _) (Keeps.foldl (fun _ _ h3 => Keeps.modEngine (Keeps.driveRows (Keeps.spendEval h3 _ _ _ _ _) _ _ _ _) _ _) h)) _ _) (Keeps.foldl (fun _ _ h3 => Keeps.bumpCore h3 _ _ _) (Keeps.foldl (fun _ _ h3 => Keeps.modEngine (Keeps.driveRows (Keeps.spendEval h3 _ _ _ _ _) _ _ _ _) _ _) h))) _ _) (Keeps.ite (Keeps.bump (Keeps.foldl (fun _ _ h3 => Keeps.bumpCore h3 _ _ _) (Keeps.foldl (fun _ _ h3 => Keeps.modEngine (Keeps.driveRows (Keeps.spendEval h3 _ _ _ _ _) _ _ _ _) _ _) h)) _ _) (Keeps.foldl (fun _ _ h3 => Keeps.bumpCore h3 _ _ _) (Keeps.foldl (fun _ _ h3 => Keeps.modEngine (Keeps.driveRows (Keeps.spendEval h3 _ _ _ _ _) _ _ _ _) _ _) h)))) _ _ _ _ _ _ _ _ _ _ _ _ _ _ _ _ _ _) _ _ _ _

theorem Keeps.pleatStart {q : List Instr} {s : State} (h : Keeps q s) (uid : ℕ) (st : ℕ) (op : ℕ) (cal : Bool) (oor : Bool) :
    Keeps q (State.pleatStart s uid st op cal oor) := by
  unfold State.pleatStart
  exact Keeps.onOp h _ _ _ _ _ (fun _ _ _ => by
    try dsimp only
    split
    · exact h
    · exact by
        try dsimp only
        split
        · exact Keeps.opDone (Keeps.failStep h _ _ _ _ _) _ _ _
        · exact Keeps.ite (Keeps.opDone (Keeps.failStep (Keeps.decideMode h _ _ _ _ _) _ _ _ _ _) _ _ _) (by
            try dsimp only
            split
            · exact Keeps.opDone (Keeps.failAccess (Keeps.latchAll (Keeps.decideMode h _ _ _ _ _) _ _) _ _ _) _ _ _
            · exact Keeps.drivePleat (Keeps.latchAll (Keeps.decideMode h _ _ _ _ _) _ _) _ _ _ _ _ _ _ _ _))

theorem Keeps.execEvalPleat {q : List Instr} {s : State} (h : Keeps q s) (uid : ℕ) (st : ℕ) (op : ℕ) (cal : Bool) (oor : Bool) :
    KeepsO q (Sys2Proof.Machine.execEvalPleat uid st op cal oor s) := by
  unfold Sys2Proof.Machine.execEvalPleat
  exact KeepsO.done (Keeps.pleatStart h _ _ _ _ _)

theorem Keeps.splitRaws {q : List Instr} {s : State} (h : Keeps q s) (y_1 : List (ℕ × Eval)) :
    Keeps q (State.splitRaws s y_1).1 := by
  induction y_1 generalizing s with
  | nil =>
    unfold State.splitRaws
    exact Keeps.pair h
  | cons w_ t_ ih =>
    unfold State.splitRaws
    exact Keeps.pair (ih (Keeps.rawValues h _ _ _ _ _ _ _))

theorem Keeps.memberCharges {q : List Instr} {s : State} (h : Keeps q s) (y_1 : List (ℕ × Eval)) :
    Keeps q (State.memberCharges s y_1).1 := by
  induction y_1 generalizing s with
  | nil =>
    unfold State.memberCharges
    exact Keeps.pair h
  | cons w_ t_ ih =>
    unfold State.memberCharges
    exact Keeps.pair (ih (Keeps.skip h _))

theorem Keeps.pleatRaws {q : List Instr} {s : State} (h : Keeps q s) (p : PleatEval) :
    Keeps q (State.pleatRaws s p).1 := by
  unfold State.pleatRaws
  exact Keeps.ite1 (Keeps.pair (Keeps.splitRaws h _)) (Keeps.rawValues (Keeps.memberCharges h _) _ _ _ _ _ _ _)

theorem Keeps.pleatHandoff {q : List Instr} {s : State} (h : Keeps q s) (e : ℕ) :
    Keeps q (State.pleatHandoff s e) := by
  unfold State.pleatHandoff
  try dsimp only
  split
  · exact h
  · exact by
      try dsimp only
      split
      · exact Keeps.aperAll (Keeps.periphery (Keeps.foldl (fun _ _ h3 => Keeps.trimIn (Keeps.modEngine h3 _ _) _) (Keeps.upd (Keeps.pleatRaws h _) _ _ _ _ _ _ _ _ _ _ _ _ _ _ _ _ _ _)) _ _ _ _)
      · exact Keeps.foldl (fun _ _ h3 => Keeps.trimIn (Keeps.modEngine h3 _ _) _) (Keeps.upd (Keeps.pleatRaws h _) _ _ _ _ _ _ _ _ _ _ _ _ _ _ _ _ _ _)

theorem Keeps.execPleatHandoff {q : List Instr} {s : State} (h : Keeps q s) (e : ℕ) :
    KeepsO q (Sys2Proof.Machine.execPleatHandoff e s) := by
  unfold Sys2Proof.Machine.execPleatHandoff
  exact KeepsO.unit (Keeps.when h _ _ (fun _ h3 => Keeps.pleatHandoff h3 _))

end Sys2Proof.Machine
end

