-- ==== Sys2Proof/Laws/KeepsVector.lean ====
section
/-!
SUPPORT. What the operations of Machine/Vector.lean keep.
-/

namespace Sys2Proof.Machine

theorem Keeps.takeBlock {q : List Instr} {s : State} (h : Keeps q s) (uid : ℕ) (e : ℕ) (kind : ℕ) :
    Keeps q (State.takeBlock s uid e kind).1 := by
  unfold State.takeBlock
  try dsimp only
  split
  · exact Keeps.pair h
  · exact Keeps.pair (Keeps.setEngine h _ _)

theorem Keeps.readRows {q : List Instr} {s : State} (h : Keeps q s) (i : ℕ) (tier : ℕ) (u : ℕ) (a : ℕ) (n : ℕ) (stride : ℕ) (y_7 : ℕ) :
    Keeps q (State.readRows s i tier u a n stride y_7).1 := by
  induction y_7 generalizing s i tier u a n stride with
  | zero =>
    unfold State.readRows
    exact Keeps.pair h
  | succ n_ ih =>
    unfold State.readRows
    exact Keeps.pair (ih (Keeps.sramRead h _ _ _ _ _) _ _ _ _ _ _)

theorem Keeps.vecSource {q : List Instr} {s : State} (h : Keeps q s) (uid : ℕ) (i : ℕ) (core : ℕ) (v : ℕ) (n : ℕ) (stride : ℕ) (rows : ℕ) :
    Keeps q (State.vecSource s uid i core v n stride rows).1 := by
  unfold State.vecSource
  exact Keeps.ite1 (Keeps.pair (Keeps.takeBlock h _ _ _)) (Keeps.readRows h _ _ _ _ _ _ _)

theorem Keeps.vecOp {q : List Instr} {s : State} (h : Keeps q s) (uid : ℕ) (st : ℕ) (op : ℕ) (code : ℕ) (f : List ℕ → List ℕ → List ℕ → List ℕ × ℕ) :
    Keeps q (State.vecOp s uid st op code f) := by
  unfold State.vecOp
  exact Keeps.onOp h _ _ _ _ _ (fun _ _ _ => Keeps.ite (Keeps.opDone (Keeps.failAccess (Keeps.ite1 (Keeps.pair (Keeps.vecSource h _ _ _ _ _ _ _)) (Keeps.vecSource (Keeps.vecSource h _ _ _ _ _ _ _) _ _ _ _ _ _ _)) _ _ _) _ _ _) (Keeps.modOp (Keeps.spendFree (Keeps.bumpCore (Keeps.ite1 (Keeps.pair (Keeps.vecSource h _ _ _ _ _ _ _)) (Keeps.vecSource (Keeps.vecSource h _ _ _ _ _ _ _) _ _ _ _ _ _ _)) _ _ _) _ _) _ _ _ _))

theorem Keeps.execAct {q : List Instr} {s : State} (h : Keeps q s) (uid : ℕ) (st : ℕ) (op : ℕ) :
    KeepsO q (Sys2Proof.Machine.execAct uid st op s) := by
  unfold Sys2Proof.Machine.execAct
  exact KeepsO.done (Keeps.vecOp h _ _ _ _ _)

theorem Keeps.execPool {q : List Instr} {s : State} (h : Keeps q s) (uid : ℕ) (st : ℕ) (op : ℕ) :
    KeepsO q (Sys2Proof.Machine.execPool uid st op s) := by
  unfold Sys2Proof.Machine.execPool
  exact KeepsO.done (Keeps.vecOp h _ _ _ _ _)

theorem Keeps.execVecAdd {q : List Instr} {s : State} (h : Keeps q s) (uid : ℕ) (st : ℕ) (op : ℕ) :
    KeepsO q (Sys2Proof.Machine.execVecAdd uid st op s) := by
  unfold Sys2Proof.Machine.execVecAdd
  exact KeepsO.done (Keeps.vecOp h _ _ _ _ _)

theorem Keeps.execVecSub {q : List Instr} {s : State} (h : Keeps q s) (uid : ℕ) (st : ℕ) (op : ℕ) :
    KeepsO q (Sys2Proof.Machine.execVecSub uid st op s) := by
  unfold Sys2Proof.Machine.execVecSub
  exact KeepsO.done (Keeps.vecOp h _ _ _ _ _)

theorem Keeps.execVecMax {q : List Instr} {s : State} (h : Keeps q s) (uid : ℕ) (st : ℕ) (op : ℕ) :
    KeepsO q (Sys2Proof.Machine.execVecMax uid st op s) := by
  unfold Sys2Proof.Machine.execVecMax
  exact KeepsO.done (Keeps.vecOp h _ _ _ _ _)

theorem Keeps.execVecMul {q : List Instr} {s : State} (h : Keeps q s) (uid : ℕ) (st : ℕ) (op : ℕ) :
    KeepsO q (Sys2Proof.Machine.execVecMul uid st op s) := by
  unfold Sys2Proof.Machine.execVecMul
  exact KeepsO.done (Keeps.vecOp h _ _ _ _ _)

theorem Keeps.execVecScale {q : List Instr} {s : State} (h : Keeps q s) (uid : ℕ) (st : ℕ) (op : ℕ) :
    KeepsO q (Sys2Proof.Machine.execVecScale uid st op s) := by
  unfold Sys2Proof.Machine.execVecScale
  exact KeepsO.done (Keeps.vecOp h _ _ _ _ _)

theorem Keeps.execVecCvt {q : List Instr} {s : State} (h : Keeps q s) (uid : ℕ) (st : ℕ) (op : ℕ) :
    KeepsO q (Sys2Proof.Machine.execVecCvt uid st op s) := by
  unfold Sys2Proof.Machine.execVecCvt
  exact KeepsO.done (Keeps.vecOp h _ _ _ _ _)

theorem Keeps.execVecQuant {q : List Instr} {s : State} (h : Keeps q s) (uid : ℕ) (st : ℕ) (op : ℕ) :
    KeepsO q (Sys2Proof.Machine.execVecQuant uid st op s) := by
  unfold Sys2Proof.Machine.execVecQuant
  exact KeepsO.done (Keeps.vecOp h _ _ _ _ _)

theorem Keeps.writeResult {q : List Instr} {s : State} (h : Keeps q s) (i : ℕ) (r : ℕ × ℕ × ℕ × List ℕ) :
    Keeps q (State.writeResult s i r).1 := by
  unfold State.writeResult
  exact Keeps.ite1 (Keeps.pair (Keeps.setTag (Keeps.bookWrite h _ _ _) _ _)) (Keeps.ite1 (Keeps.pair (Keeps.setTag (Keeps.periWords h _ _ _) _ _)) (Keeps.writeSpace h _ _ _ _ _))

theorem Keeps.writeResults {q : List Instr} {s : State} (h : Keeps q s) (i : ℕ) (y_2 : List (ℕ × ℕ × ℕ × List ℕ)) :
    Keeps q (State.writeResults s i y_2).1 := by
  induction y_2 generalizing s i with
  | nil =>
    unfold State.writeResults
    exact Keeps.pair h
  | cons w_ t_ ih =>
    unfold State.writeResults
    exact Keeps.pair (ih (Keeps.writeResult h _ _) _)

theorem Keeps.finishOp {q : List Instr} {s : State} (h : Keeps q s) (t : Step) (st : ℕ) (op : ℕ) (o : Op) :
    Keeps q (State.finishOp s t st op o) := by
  unfold State.finishOp
  exact Keeps.ite (Keeps.opDone (Keeps.failAccess (Keeps.writeResults h _ _) _ _ _) _ _ _) (Keeps.opDone h _ _ _)

theorem Keeps.onBegun {q : List Instr} {s : State} (h : Keeps q s) (uid : ℕ) (st : ℕ) (op : ℕ) (p : ℕ → Bool) (f : Step → Stream → Op → State) (hf_f : ∀ a0 a1 a2, Keeps q (f a0 a1 a2)) :
    Keeps q (State.onBegun s uid st op p f) := by
  unfold State.onBegun
  try dsimp only
  split
  · exact Keeps.ite (hf_f _ _ _) h
  · exact h

theorem Keeps.vecDone {q : List Instr} {s : State} (h : Keeps q s) (uid : ℕ) (st : ℕ) (op : ℕ) :
    Keeps q (State.vecDone s uid st op) := by
  unfold State.vecDone
  exact Keeps.onBegun h _ _ _ _ _ (fun _ _ _ => Keeps.finishOp h _ _ _ _)

theorem Keeps.execVectorOpComplete {q : List Instr} {s : State} (h : Keeps q s) (uid : ℕ) (st : ℕ) (op : ℕ) :
    KeepsO q (Sys2Proof.Machine.execVectorOpComplete uid st op s) := by
  unfold Sys2Proof.Machine.execVectorOpComplete
  exact KeepsO.done (Keeps.vecDone h _ _ _)

theorem Keeps.moveStart {q : List Instr} {s : State} (h : Keeps q s) (uid : ℕ) (st : ℕ) (op : ℕ) :
    Keeps q (State.moveStart s uid st op) := by
  unfold State.moveStart
  exact Keeps.onOp h _ _ _ _ _ (fun _ _ _ => Keeps.ite (Keeps.opDone (Keeps.failAccess (Keeps.readSpace h _ _ _ _ _) _ _ _) _ _ _) (Keeps.modOp (Keeps.spendFree (Keeps.readSpace h _ _ _ _ _) _ _) _ _ _ _))

theorem Keeps.execMove {q : List Instr} {s : State} (h : Keeps q s) (uid : ℕ) (st : ℕ) (op : ℕ) :
    KeepsO q (Sys2Proof.Machine.execMove uid st op s) := by
  unfold Sys2Proof.Machine.execMove
  exact KeepsO.done (Keeps.moveStart h _ _ _)

theorem Keeps.moveMirror {q : List Instr} {s : State} (h : Keeps q s) (t : Step) (m : Stream) (st : ℕ) (op : ℕ) (k : ℕ) (o : Op) (r : ℕ × ℕ × ℕ × List ℕ) :
    Keeps q (State.moveMirror s t m st op k o r) := by
  unfold State.moveMirror
  exact Keeps.ite (Keeps.modOp (Keeps.mirrorWrite h _ _ _ _ _ _ _ _) _ _ _ _) (Keeps.opDone (Keeps.failStep h _ _ _ _ _) _ _ _)

theorem Keeps.moveHost {q : List Instr} {s : State} (h : Keeps q s) (t : Step) (st : ℕ) (op : ℕ) (r : ℕ × ℕ × ℕ × List ℕ) :
    Keeps q (State.moveHost s t st op r) := by
  unfold State.moveHost
  exact Keeps.modOp (Keeps.foldl (fun _ _ h3 => Keeps.sendFlit h3 _ _ _) (Keeps.upd (Keeps.hostStore h _ _) _ _ _ _ _ _ _ _ _ _ _ _ _ _ _ _ _ _)) _ _ _ _

theorem Keeps.moveStopped {q : List Instr} {s : State} (h : Keeps q s) (t : Step) (o : Op) :
    Keeps q (State.moveStopped s t o) := by
  unfold State.moveStopped
  try dsimp only
  split
  · exact h
  · exact Keeps.ite (Keeps.under (Keeps.skip h _) _ _ (fun _ h3 => Keeps.writeResult h3 _ _)) h

theorem Keeps.moveDone {q : List Instr} {s : State} (h : Keeps q s) (uid : ℕ) (st : ℕ) (op : ℕ) :
    Keeps q (State.moveDone s uid st op) := by
  unfold State.moveDone
  exact Keeps.onBegun h _ _ _ _ _ (fun _ _ _ => by
    try dsimp only
    split
    · exact h
    · exact Keeps.ite (Keeps.ite h (Keeps.opDone (Keeps.ite (Keeps.moveStopped h _ _) h) _ _ _)) (Keeps.ite (Keeps.moveHost h _ _ _ _) (Keeps.ite h (by
        try dsimp only
        split
        · exact Keeps.moveMirror h _ _ _ _ _ _ _
        · exact Keeps.finishOp h _ _ _ _))))

theorem Keeps.execMoveComplete {q : List Instr} {s : State} (h : Keeps q s) (uid : ℕ) (st : ℕ) (op : ℕ) :
    KeepsO q (Sys2Proof.Machine.execMoveComplete uid st op s) := by
  unfold Sys2Proof.Machine.execMoveComplete
  exact KeepsO.done (Keeps.moveDone h _ _ _)

theorem Keeps.prefetchOp {q : List Instr} {s : State} (h : Keeps q s) (uid : ℕ) (st : ℕ) (op : ℕ) :
    Keeps q (State.prefetchOp s uid st op) := by
  unfold State.prefetchOp
  exact Keeps.onOp h _ _ _ _ _ (fun _ _ _ => by
    try dsimp only
    split
    · exact h
    · exact Keeps.setStage (Keeps.modStep h _ _) _ _ _ _)

theorem Keeps.execPrefetch {q : List Instr} {s : State} (h : Keeps q s) (uid : ℕ) (st : ℕ) (op : ℕ) :
    KeepsO q (Sys2Proof.Machine.execPrefetch uid st op s) := by
  unfold Sys2Proof.Machine.execPrefetch
  exact KeepsO.done (Keeps.prefetchOp h _ _ _)

end Sys2Proof.Machine
end

