-- ==== Sys2Proof/Laws/KeepsPeOps.lean ====
section
/-!
SUPPORT. What the operations of Machine/PeOps.lean keep.
-/

namespace Sys2Proof.Machine

theorem Keeps.peRead {q : List Instr} {s : State} (h : Keeps q s) (x : PeCtx) (c : ℕ) (off : ℤ) (n : ℕ) :
    Keeps q (State.peRead s x c off n).1 := by
  unfold State.peRead
  exact Keeps.ite1 (Keeps.pair (Keeps.bump h _ _)) (Keeps.readSpace h _ _ _ _ _)

theorem Keeps.peBytes {q : List Instr} {s : State} (h : Keeps q s) (x : PeCtx) (o : ℕ) (off : ℕ) (n : ℕ) :
    Keeps q (State.peBytes s x o off n).1 := by
  unfold State.peBytes
  exact Keeps.ite1 (Keeps.pair h) (Keeps.peRead h _ _ _ _)

theorem Keeps.peRuns {q : List Instr} {s : State} (h : Keeps q s) (x : PeCtx) (o : ℕ) (y_3 : List (ℕ × ℕ)) :
    Keeps q (State.peRuns s x o y_3).1 := by
  induction y_3 generalizing s x o with
  | nil =>
    unfold State.peRuns
    exact Keeps.pair h
  | cons w_ t_ ih =>
    unfold State.peRuns
    exact Keeps.pair (ih (Keeps.peBytes h _ _ _ _) _ _)

theorem Keeps.peVector {q : List Instr} {s : State} (h : Keeps q s) (x : PeCtx) (f : ℕ) (o : ℕ) (n0 : ℕ) (n : ℕ) (w : ℕ) :
    Keeps q (State.peVector s x f o n0 n w).1 := by
  unfold State.peVector
  exact Keeps.ite1 (Keeps.pair h) (Keeps.pair (Keeps.peRead h _ _ _ _))

theorem Keeps.peColumns {q : List Instr} {s : State} (h : Keeps q s) (x : PeCtx) (f : ℕ) (t : PeTile) (n : ℕ) :
    Keeps q (State.peColumns s x f t n).1 := by
  unfold State.peColumns
  exact Keeps.ite1 (Keeps.pair (Keeps.peRuns h _ _ _)) (Keeps.pair (Keeps.peRuns h _ _ _))

theorem Keeps.peTile {q : List Instr} {s : State} (h : Keeps q s) (x : PeCtx) (f : ℕ) (t : PeTile) :
    Keeps q (State.peTile s x f t).1 := by
  unfold State.peTile
  try dsimp only
  split
  · exact Keeps.pair (Keeps.peVector (Keeps.peVector (Keeps.peColumns (Keeps.peRuns h _ _ _) _ _ _ _) _ _ _ _ _ _) _ _ _ _ _ _)
  · exact Keeps.pair (Keeps.peVector (Keeps.peVector (Keeps.peColumns (Keeps.peRuns h _ _ _) _ _ _ _) _ _ _ _ _ _) _ _ _ _ _ _)

theorem Keeps.peGain {q : List Instr} {s : State} (h : Keeps q s) (x : PeCtx) (o : ℕ) (n : ℕ) (d : FV) :
    Keeps q (State.peGain s x o n d).1 := by
  unfold State.peGain
  exact Keeps.ite1 (Keeps.pair h) (Keeps.pair (Keeps.peRead h _ _ _ _))

theorem Keeps.pePos {q : List Instr} {s : State} (h : Keeps q s) (x : PeCtx) (r : ℕ) :
    Keeps q (State.pePos s x r).1 := by
  unfold State.pePos
  exact Keeps.ite1 (Keeps.pair (Keeps.skip h _)) (Keeps.pair (Keeps.peRead h _ _ _ _))

theorem Keeps.peRope {q : List Instr} {s : State} (h : Keeps q s) (x : PeCtx) (r : ℕ) :
    Keeps q (State.peRope s x r).1 := by
  unfold State.peRope
  try dsimp only
  split
  · exact Keeps.pair (Keeps.peRead (Keeps.pePos (Keeps.peBytes h _ _ _ _) _ _) _ _ _ _)
  · exact Keeps.pair (Keeps.peRead (Keeps.pePos (Keeps.peBytes h _ _ _ _) _ _) _ _ _ _)

theorem Keeps.peNorm {q : List Instr} {s : State} (h : Keeps q s) (x : PeCtx) (layer : Bool) (r : ℕ) :
    Keeps q (State.peNorm s x layer r).1 := by
  unfold State.peNorm
  try dsimp only
  split
  · exact Keeps.pair (Keeps.peGain (Keeps.peGain (Keeps.peBytes h _ _ _ _) _ _ _ _) _ _ _ _)
  · exact Keeps.pair (Keeps.peGain (Keeps.peGain (Keeps.peBytes h _ _ _ _) _ _ _ _) _ _ _ _)

theorem Keeps.peSoftmax {q : List Instr} {s : State} (h : Keeps q s) (x : PeCtx) (r : ℕ) :
    Keeps q (State.peSoftmax s x r).1 := by
  unfold State.peSoftmax
  exact Keeps.ite1 (Keeps.pair (Keeps.peBytes h _ _ _ _)) (Keeps.pair (Keeps.peBytes h _ _ _ _))

theorem Keeps.peTopk {q : List Instr} {s : State} (h : Keeps q s) (x : PeCtx) (r : ℕ) :
    Keeps q (State.peTopk s x r).1 := by
  unfold State.peTopk
  exact Keeps.ite1 (Keeps.pair (Keeps.peBytes h _ _ _ _)) (Keeps.pair (Keeps.peBytes h _ _ _ _))

theorem Keeps.peIndex {q : List Instr} {s : State} (h : Keeps q s) (x : PeCtx) (r : ℕ) :
    Keeps q (State.peIndex s x r).1 := by
  unfold State.peIndex
  exact Keeps.pair (Keeps.peBytes h _ _ _ _)

theorem Keeps.peGather {q : List Instr} {s : State} (h : Keeps q s) (x : PeCtx) (r : ℕ) :
    Keeps q (State.peGather s x r).1 := by
  unfold State.peGather
  exact Keeps.ite1 (Keeps.pair (Keeps.peIndex h _ _)) (Keeps.ite1 (Keeps.pair (Keeps.peIndex h _ _)) (Keeps.ite1 (Keeps.pair (Keeps.peBytes (Keeps.peIndex h _ _) _ _ _ _)) (Keeps.pair (Keeps.peBytes (Keeps.peIndex h _ _) _ _ _ _))))

theorem Keeps.peScatter {q : List Instr} {s : State} (h : Keeps q s) (x : PeCtx) (r : ℕ) :
    Keeps q (State.peScatter s x r).1 := by
  unfold State.peScatter
  exact Keeps.ite1 (Keeps.pair (Keeps.peIndex h _ _)) (Keeps.ite1 (Keeps.pair (Keeps.peIndex h _ _)) (Keeps.ite1 (Keeps.pair (Keeps.peBytes (Keeps.peIndex h _ _) _ _ _ _)) (Keeps.pair (Keeps.peBytes (Keeps.peIndex h _ _) _ _ _ _))))

theorem Keeps.peTableRow {q : List Instr} {s : State} (h : Keeps q s) (x : PeCtx) (done : List PeRes) (row : ℕ) (w : ℕ) :
    Keeps q (State.peTableRow s x done row w).1 := by
  unfold State.peTableRow
  try dsimp only
  split
  · exact Keeps.pair h
  · exact Keeps.peRead h _ _ _ _

theorem Keeps.peScatterAdd {q : List Instr} {s : State} (h : Keeps q s) (x : PeCtx) (done : List PeRes) (r : ℕ) :
    Keeps q (State.peScatterAdd s x done r).1 := by
  unfold State.peScatterAdd
  exact Keeps.ite1 (Keeps.pair (Keeps.peIndex h _ _)) (Keeps.ite1 (Keeps.pair (Keeps.peIndex h _ _)) (by
    try dsimp only
    split
    · exact Keeps.pair (Keeps.peTableRow (Keeps.peBytes (Keeps.peIndex h _ _) _ _ _ _) _ _ _ _)
    · exact Keeps.pair (Keeps.peTableRow (Keeps.peBytes (Keeps.peIndex h _ _) _ _ _ _) _ _ _ _)))

theorem Keeps.peAll {q : List Instr} {s : State} (h : Keeps q s) (f : State → List PeRes → ℕ → State × PeRes) (done : List PeRes) (k : ℕ) (y_4 : ℕ) (hf_f : ∀ a0 a1 a2, Keeps q a0 → Keeps q (f a0 a1 a2).1) :
    Keeps q (State.peAll s f done k y_4).1 := by
  induction y_4 generalizing s f done k with
  | zero =>
    unfold State.peAll
    exact Keeps.pair h
  | succ n_ ih =>
    unfold State.peAll
    exact ih (hf_f _ _ _ (h)) _ _ _ (fun _ _ _ h5 => hf_f _ _ _ (h5))

theorem Keeps.peOne {q : List Instr} {s : State} (h : Keeps q s) (x : PeCtx) (f : ℕ) (tiles : List PeTile) (done : List PeRes) (r : ℕ) :
    Keeps q (State.peOne s x f tiles done r).1 := by
  unfold State.peOne
  exact Keeps.ite1 (Keeps.peTile h _ _ _) (Keeps.ite1 (Keeps.peGather h _ _) (Keeps.ite1 (Keeps.peScatter h _ _) (Keeps.ite1 (Keeps.peScatterAdd h _ _ _) (Keeps.ite1 (Keeps.peRope h _ _) (Keeps.ite1 (Keeps.peNorm h _ _ _) (Keeps.ite1 (Keeps.peNorm h _ _ _) (Keeps.ite1 (Keeps.peSoftmax h _ _) (Keeps.peTopk h _ _))))))))

theorem Keeps.peBlocks {q : List Instr} {s : State} (h : Keeps q s) (x : PeCtx) (f : ℕ) :
    Keeps q (State.peBlocks s x f).1 := by
  unfold State.peBlocks
  try dsimp only
  split
  · exact Keeps.pair (Keeps.peAll h _ _ _ _ (fun _ _ _ h5 => Keeps.peOne h5 _ _ _ _ _))
  · exact Keeps.pair (Keeps.skip (Keeps.peAll h _ _ _ _ (fun _ _ _ h5 => Keeps.peOne h5 _ _ _ _ _)) _)

end Sys2Proof.Machine
end

