-- ==== Sys2Proof/Laws/KeepsPe.lean ====
section
/-!
SUPPORT. What the operations of Machine/Pe.lean keep.
-/

namespace Sys2Proof.Machine

theorem Keeps.peStream {q : List Instr} {s : State} (h : Keeps q s) (uid : ℕ) (cl : ℕ) (c : ℕ) (inExp : ℕ) :
    Keeps q (State.peStream s uid cl c inExp).1 := by
  unfold State.peStream
  exact Keeps.ite1 (Keeps.pair (Keeps.takeBlock h _ _ _)) (Keeps.pair h)

theorem Keeps.peStart {q : List Instr} {s : State} (h : Keeps q s) (uid : ℕ) (st : ℕ) (op : ℕ) (f : ℕ) :
    Keeps q (State.peStart s uid st op f) := by
  unfold State.peStart
  exact Keeps.onOp h _ _ _ _ _ (fun _ _ _ => Keeps.ite h (by
    try dsimp only
    split
    · exact h
    · exact Keeps.ite h (Keeps.ite (Keeps.opDone (Keeps.failStep h _ _ _ _ _) _ _ _) (Keeps.setStage (Keeps.upd (Keeps.spendFree (Keeps.peBlocks (Keeps.peStream (Keeps.peStream h _ _ _ _) _ _ _ _) _ _) _ _) _ _ _ _ _ _ _ _ _ _ _ _ _ _ _ _ _ _) _ _ _ _))))

theorem Keeps.execMatmul {q : List Instr} {s : State} (h : Keeps q s) (uid : ℕ) (st : ℕ) (op : ℕ) :
    KeepsO q (Sys2Proof.Machine.execMatmul uid st op s) := by
  unfold Sys2Proof.Machine.execMatmul
  exact KeepsO.done (Keeps.peStart h _ _ _ _)

theorem Keeps.execBatched {q : List Instr} {s : State} (h : Keeps q s) (uid : ℕ) (st : ℕ) (op : ℕ) :
    KeepsO q (Sys2Proof.Machine.execBatched uid st op s) := by
  unfold Sys2Proof.Machine.execBatched
  exact KeepsO.done (Keeps.peStart h _ _ _ _)

theorem Keeps.execGather {q : List Instr} {s : State} (h : Keeps q s) (uid : ℕ) (st : ℕ) (op : ℕ) :
    KeepsO q (Sys2Proof.Machine.execGather uid st op s) := by
  unfold Sys2Proof.Machine.execGather
  exact KeepsO.done (Keeps.peStart h _ _ _ _)

theorem Keeps.execScatter {q : List Instr} {s : State} (h : Keeps q s) (uid : ℕ) (st : ℕ) (op : ℕ) :
    KeepsO q (Sys2Proof.Machine.execScatter uid st op s) := by
  unfold Sys2Proof.Machine.execScatter
  exact KeepsO.done (Keeps.peStart h _ _ _ _)

theorem Keeps.execScatterAdd {q : List Instr} {s : State} (h : Keeps q s) (uid : ℕ) (st : ℕ) (op : ℕ) :
    KeepsO q (Sys2Proof.Machine.execScatterAdd uid st op s) := by
  unfold Sys2Proof.Machine.execScatterAdd
  exact KeepsO.done (Keeps.peStart h _ _ _ _)

theorem Keeps.execQk {q : List Instr} {s : State} (h : Keeps q s) (uid : ℕ) (st : ℕ) (op : ℕ) :
    KeepsO q (Sys2Proof.Machine.execQk uid st op s) := by
  unfold Sys2Proof.Machine.execQk
  exact KeepsO.done (Keeps.peStart h _ _ _ _)

theorem Keeps.execAv {q : List Instr} {s : State} (h : Keeps q s) (uid : ℕ) (st : ℕ) (op : ℕ) :
    KeepsO q (Sys2Proof.Machine.execAv uid st op s) := by
  unfold Sys2Proof.Machine.execAv
  exact KeepsO.done (Keeps.peStart h _ _ _ _)

theorem Keeps.execRope {q : List Instr} {s : State} (h : Keeps q s) (uid : ℕ) (st : ℕ) (op : ℕ) :
    KeepsO q (Sys2Proof.Machine.execRope uid st op s) := by
  unfold Sys2Proof.Machine.execRope
  exact KeepsO.done (Keeps.peStart h _ _ _ _)

theorem Keeps.execRms {q : List Instr} {s : State} (h : Keeps q s) (uid : ℕ) (st : ℕ) (op : ℕ) :
    KeepsO q (Sys2Proof.Machine.execRms uid st op s) := by
  unfold Sys2Proof.Machine.execRms
  exact KeepsO.done (Keeps.peStart h _ _ _ _)

theorem Keeps.execLayer {q : List Instr} {s : State} (h : Keeps q s) (uid : ℕ) (st : ℕ) (op : ℕ) :
    KeepsO q (Sys2Proof.Machine.execLayer uid st op s) := by
  unfold Sys2Proof.Machine.execLayer
  exact KeepsO.done (Keeps.peStart h _ _ _ _)

theorem Keeps.execSoftmax {q : List Instr} {s : State} (h : Keeps q s) (uid : ℕ) (st : ℕ) (op : ℕ) :
    KeepsO q (Sys2Proof.Machine.execSoftmax uid st op s) := by
  unfold Sys2Proof.Machine.execSoftmax
  exact KeepsO.done (Keeps.peStart h _ _ _ _)

theorem Keeps.execTopk {q : List Instr} {s : State} (h : Keeps q s) (uid : ℕ) (st : ℕ) (op : ℕ) :
    KeepsO q (Sys2Proof.Machine.execTopk uid st op s) := by
  unfold Sys2Proof.Machine.execTopk
  exact KeepsO.done (Keeps.peStart h _ _ _ _)

theorem Keeps.modPe {q : List Instr} {s : State} (h : Keeps q s) (cl : ℕ) (f : PeRun → PeRun) :
    Keeps q (State.modPe s cl f) := by
  unfold State.modPe
  exact Keeps.upd h _ _ _ _ _ _ _ _ _ _ _ _ _ _ _ _ _ _

theorem Keeps.bumpPe {q : List Instr} {s : State} (h : Keeps q s) (cl : ℕ) (n : ℕ) (k : ℕ) :
    Keeps q (State.bumpPe s cl n k) := by
  unfold State.bumpPe
  exact Keeps.bump h _ _

theorem Keeps.peWrite {q : List Instr} {s : State} (h : Keeps q s) (cl : ℕ) (t : Step) (sched : ℕ) (b : PeBlock) :
    Keeps q (State.peWrite s cl t sched b) := by
  unfold State.peWrite
  exact Keeps.ite (Keeps.bumpPe (Keeps.bumpPe (Keeps.bumpPe (Keeps.failAccess (Keeps.writeResults h _ _) _ _ _) _ _ _) _ _ _) _ _ _) h

theorem Keeps.peBlockStep {q : List Instr} {s : State} (h : Keeps q s) (cl : ℕ) :
    Keeps q (State.peBlockStep s cl) := by
  unfold State.peBlockStep
  try dsimp only
  split
  · exact h
  · exact by
      try dsimp only
      split
      · exact Keeps.ite h (Keeps.ite (Keeps.modPe (Keeps.spend (Keeps.bumpPe h _ _ _) _ _) _ _) (Keeps.peWrite (Keeps.modPe (Keeps.spend (Keeps.bumpPe h _ _ _) _ _) _ _) _ _ _ _))
      · exact h

theorem Keeps.execPeBlockStep {q : List Instr} {s : State} (h : Keeps q s) (cl : ℕ) :
    KeepsO q (Sys2Proof.Machine.execPeBlockStep cl s) := by
  unfold Sys2Proof.Machine.execPeBlockStep
  exact KeepsO.unit (Keeps.when h _ _ (fun _ h3 => Keeps.peBlockStep h3 _))

theorem Keeps.peWriteAll {q : List Instr} {s : State} (h : Keeps q s) (cl : ℕ) (t : Step) (sched : ℕ) (bs : List PeBlock) :
    Keeps q (State.peWriteAll s cl t sched bs) := by
  unfold State.peWriteAll
  exact Keeps.foldl (fun _ _ h3 => Keeps.peWrite h3 _ _ _ _) h

theorem Keeps.peDone {q : List Instr} {s : State} (h : Keeps q s) (cl : ℕ) :
    Keeps q (State.peDone s cl) := by
  unfold State.peDone
  try dsimp only
  split
  · exact h
  · exact by
      try dsimp only
      split
      · exact h
      · exact Keeps.ite (Keeps.opDone (Keeps.peWriteAll (Keeps.skip (Keeps.upd h _ _ _ _ _ _ _ _ _ _ _ _ _ _ _ _ _ _) _) _ _ _ _) _ _ _) (Keeps.ite h (Keeps.opDone (Keeps.ite (Keeps.peWriteAll (Keeps.upd h _ _ _ _ _ _ _ _ _ _ _ _ _ _ _ _ _ _) _ _ _ _) (Keeps.failStep (Keeps.peWriteAll (Keeps.upd h _ _ _ _ _ _ _ _ _ _ _ _ _ _ _ _ _ _) _ _ _ _) _ _ _ _ _)) _ _ _))

theorem Keeps.execPeOperationComplete {q : List Instr} {s : State} (h : Keeps q s) (cl : ℕ) :
    KeepsO q (Sys2Proof.Machine.execPeOperationComplete cl s) := by
  unfold Sys2Proof.Machine.execPeOperationComplete
  exact KeepsO.unit (Keeps.when h _ _ (fun _ h3 => Keeps.peDone h3 _))

end Sys2Proof.Machine
end

