-- ==== Sys2Proof/Laws/KeepsPrefetch.lean ====
section
/-!
SUPPORT. What the operations of Machine/Prefetch.lean keep.
-/

namespace Sys2Proof.Machine

theorem Keeps.modEntry {q : List Instr} {s : State} (h : Keeps q s) (uid : ℕ) (k : ℕ) (f : Entry → Entry) :
    Keeps q (State.modEntry s uid k f) := by
  unfold State.modEntry
  exact Keeps.modStep h _ _

theorem Keeps.issueEntry {q : List Instr} {s : State} (h : Keeps q s) (uid : ℕ) (k : ℕ) :
    Keeps q (State.issueEntry s uid k) := by
  unfold State.issueEntry
  try dsimp only
  split
  · exact h
  · exact Keeps.ite (Keeps.busyNow (Keeps.modEntry h _ _ _)) h

theorem Keeps.execPrefetchEntryIssue {q : List Instr} {s : State} (h : Keeps q s) (uid : ℕ) (k : ℕ) :
    KeepsO q (Sys2Proof.Machine.execPrefetchEntryIssue uid k s) := by
  unfold Sys2Proof.Machine.execPrefetchEntryIssue
  exact KeepsO.done (Keeps.issueEntry h _ _)

theorem Keeps.inlineDone {q : List Instr} {s : State} (h : Keeps q s) (t : Step) (k : ℕ) :
    Keeps q (State.inlineDone s t k) := by
  unfold State.inlineDone
  exact Keeps.foldl (fun _ _ h3 => Keeps.foldl (fun _ _ h5 => Keeps.ite (Keeps.opDone h5 _ _ _) h5) h3) h

theorem Keeps.endEntry {q : List Instr} {s : State} (h : Keeps q s) (t : Step) (k : ℕ) (n : ℕ) :
    Keeps q (State.endEntry s t k n) := by
  unfold State.endEntry
  exact Keeps.inlineDone (Keeps.modEntry h _ _ _) _ _

theorem Keeps.readSource {q : List Instr} {s : State} (h : Keeps q s) (i : ℕ) (e : Entry) (off : ℕ) (n : ℕ) :
    Keeps q (State.readSource s i e off n).1 := by
  unfold State.readSource
  exact Keeps.readSpace h _ _ _ _ _

theorem Keeps.copyBlocks {q : List Instr} {s : State} (h : Keeps q s) (i : ℕ) (e : Entry) (k : ℕ) (y_4 : ℕ) :
    Keeps q (State.copyBlocks s i e k y_4).1 := by
  induction y_4 generalizing s i e k with
  | zero =>
    unfold State.copyBlocks
    exact Keeps.pair h
  | succ n_ ih =>
    unfold State.copyBlocks
    exact Keeps.ite1 (Keeps.readSource (Keeps.spend h _ _) _ _ _ _) (Keeps.ite1 (Keeps.sramWrite (Keeps.readSource (Keeps.spend h _ _) _ _ _ _) _ _ _ _ _) (ih (Keeps.sramWrite (Keeps.readSource (Keeps.spend h _ _) _ _ _ _) _ _ _ _ _) _ _ _))

theorem Keeps.copyStopped {q : List Instr} {s : State} (h : Keeps q s) (t : Step) (e : Entry) :
    Keeps q (State.copyStopped s t e) := by
  unfold State.copyStopped
  exact Keeps.ite (Keeps.under (Keeps.skip h _) _ _ (fun _ h3 => Keeps.copyBlocks h3 _ _ _ _)) h

theorem Keeps.entryDone {q : List Instr} {s : State} (h : Keeps q s) (uid : ℕ) (k : ℕ) :
    Keeps q (State.entryDone s uid k) := by
  unfold State.entryDone
  try dsimp only
  split
  · exact h
  · exact Keeps.ite h (Keeps.ite (Keeps.ite h (Keeps.ite (Keeps.endEntry h _ _ _) (Keeps.ite (Keeps.endEntry h _ _ _) h))) (Keeps.ite (Keeps.ite h (Keeps.endEntry (Keeps.ite h (Keeps.copyStopped h _ _)) _ _ _)) (Keeps.ite h (Keeps.ite (Keeps.busyNow (Keeps.endEntry (Keeps.copyBlocks h _ _ _ _) _ _ _)) (Keeps.endEntry (Keeps.failAccess (Keeps.copyBlocks h _ _ _ _) _ _ _) _ _ _)))))

theorem Keeps.execPrefetchEntryDone {q : List Instr} {s : State} (h : Keeps q s) (uid : ℕ) (k : ℕ) :
    KeepsO q (Sys2Proof.Machine.execPrefetchEntryDone uid k s) := by
  unfold Sys2Proof.Machine.execPrefetchEntryDone
  exact KeepsO.done (Keeps.when h _ _ (fun _ h3 => Keeps.entryDone h3 _ _))

theorem Keeps.bumpTile {q : List Instr} {s : State} (h : Keeps q s) (cl : ℕ) (n : ℕ) :
    Keeps q (State.bumpTile s cl n) := by
  unfold State.bumpTile
  exact Keeps.bump h _ _

theorem Keeps.writeRows {q : List Instr} {s : State} (h : Keeps q s) (i : ℕ) (cl : ℕ) (y_3 : List (ℕ × List ℕ × Bool)) :
    Keeps q (State.writeRows s i cl y_3).1 := by
  induction y_3 generalizing s i cl with
  | nil =>
    unfold State.writeRows
    exact Keeps.pair h
  | cons w_ t_ ih =>
    unfold State.writeRows
    exact Keeps.pair (ih (Keeps.sramWrite h _ _ _ _ _) _ _)

theorem Keeps.expand {q : List Instr} {s : State} (h : Keeps q s) (t : Step) (k : ℕ) (e : Entry) (bs : List ℕ) :
    Keeps q (State.expand s t k e bs) := by
  unfold State.expand
  exact Keeps.ite (Keeps.endEntry (Keeps.failAccess (Keeps.ite (Keeps.bumpTile (Keeps.bumpTile (Keeps.writeRows (Keeps.spend h _ _) _ _ _) _ _) _ _) (Keeps.bumpTile (Keeps.writeRows (Keeps.spend h _ _) _ _ _) _ _)) _ _ _) _ _ _) (Keeps.modEntry (Keeps.ite (Keeps.bumpTile (Keeps.bumpTile (Keeps.writeRows (Keeps.spend h _ _) _ _ _) _ _) _ _) (Keeps.bumpTile (Keeps.writeRows (Keeps.spend h _ _) _ _ _) _ _)) _ _ _)

theorem Keeps.readTile {q : List Instr} {s : State} (h : Keeps q s) (t : Step) (k : ℕ) (e : Entry) (bad : Bool) (f : State → List ℕ → Bool → State) (hf_f : ∀ a0 a1 a2, Keeps q a0 → Keeps q (f a0 a1 a2)) :
    Keeps q (State.readTile s t k e bad f) := by
  unfold State.readTile
  exact Keeps.ite (Keeps.endEntry (Keeps.failAccess (Keeps.readSource h _ _ _ _) _ _ _) _ _ _) (hf_f _ _ _ (Keeps.readSource h _ _ _ _))

theorem Keeps.tileExpand {q : List Instr} {s : State} (h : Keeps q s) (uid : ℕ) (k : ℕ) (bad : Bool) :
    Keeps q (State.tileExpand s uid k bad) := by
  unfold State.tileExpand
  try dsimp only
  split
  · exact h
  · exact Keeps.ite h (Keeps.readTile h _ _ _ _ _ (fun _ _ _ h5 => Keeps.ite (Keeps.expand h5 _ _ _ _) (Keeps.modEntry h5 _ _ _)))

theorem Keeps.execTileExpand {q : List Instr} {s : State} (h : Keeps q s) (uid : ℕ) (k : ℕ) (bad : Bool) :
    KeepsO q (Sys2Proof.Machine.execTileExpand uid k bad s) := by
  unfold Sys2Proof.Machine.execTileExpand
  exact KeepsO.done (Keeps.when h _ _ (fun _ h3 => Keeps.tileExpand h3 _ _ _))

theorem Keeps.secondTile {q : List Instr} {s : State} (h : Keeps q s) (t : Step) (k : ℕ) (e : Entry) (bad : Bool) :
    Keeps q (State.secondTile s t k e bad) := by
  unfold State.secondTile
  exact Keeps.readTile h _ _ _ _ _ (fun _ _ _ h5 => Keeps.ite (Keeps.expand (Keeps.raiseOwner (Keeps.bumpTile h5 _ _) _ _ _ _) _ _ _ _) (Keeps.endEntry (Keeps.failStep (Keeps.bumpTile h5 _ _) _ _ _ _ _) _ _ _))

theorem Keeps.tileReread {q : List Instr} {s : State} (h : Keeps q s) (uid : ℕ) (k : ℕ) (bad : Bool) :
    Keeps q (State.tileReread s uid k bad) := by
  unfold State.tileReread
  try dsimp only
  split
  · exact h
  · exact Keeps.ite h (Keeps.ite (Keeps.endEntry (Keeps.ite (Keeps.under h _ _ (fun _ h3 => Keeps.secondTile h3 _ _ _ _)) h) _ _ _) (Keeps.secondTile h _ _ _ _))

theorem Keeps.execTileReread {q : List Instr} {s : State} (h : Keeps q s) (uid : ℕ) (k : ℕ) (bad : Bool) :
    KeepsO q (Sys2Proof.Machine.execTileReread uid k bad s) := by
  unfold Sys2Proof.Machine.execTileReread
  exact KeepsO.done (Keeps.when h _ _ (fun _ h3 => Keeps.tileReread h3 _ _ _))

end Sys2Proof.Machine
end

