-- ==== Sys2Proof/Laws/KeepsProgramming.lean ====
section
/-!
SUPPORT. What the operations of Machine/Programming.lean keep.
-/

namespace Sys2Proof.Machine

theorem Keeps.readTargets {q : List Instr} {s : State} (h : Keeps q s) (d : Desc) :
    Keeps q (State.readTargets s d).1 := by
  unfold State.readTargets
  exact Keeps.ite1 (Keeps.pair h) (Keeps.ite1 (Keeps.pair (Keeps.readSpace h _ _ _ _ _)) (by
    try dsimp only
    split
    · exact Keeps.pair (Keeps.readSpace h _ _ _ _ _)
    · exact Keeps.pair (Keeps.readSpace h _ _ _ _ _)))

theorem Keeps.acceptJob {q : List Instr} {s : State} (h : Keeps q s) (d : Desc) :
    Keeps q (State.acceptJob s d) := by
  unfold State.acceptJob
  have h1 := Keeps.readTargets h d
  split
  · next hx => rw [hx] at h1; exact Keeps.complete h1 _ _ _
  · next hx => rw [hx] at h1; exact ⟨h1.pending, h1.regs, h1.mem⟩

theorem Keeps.execProgramDecks {q : List Instr} {s : State} (h : Keeps q s) (f : ℕ) (w : ℕ) :
    KeepsO q (Sys2Proof.Machine.execProgramDecks f w s) := by
  unfold Sys2Proof.Machine.execProgramDecks
  exact KeepsO.unit (Keeps.onDesc h _ _ _ _ (fun _ _ h4 => Keeps.acceptJob h4 _))

theorem Keeps.execRinse {q : List Instr} {s : State} (h : Keeps q s) (f : ℕ) (w : ℕ) :
    KeepsO q (Sys2Proof.Machine.execRinse f w s) := by
  unfold Sys2Proof.Machine.execRinse
  exact KeepsO.unit (Keeps.onDesc h _ _ _ _ (fun _ _ h4 => Keeps.acceptJob h4 _))

theorem Keeps.readSection {q : List Instr} {s : State} (h : Keeps q s) (j : ProgJob) (sec : ℕ) :
    Keeps q (State.readSection s j sec).1 := by
  unfold State.readSection
  exact Keeps.ite1 (Keeps.pair (Keeps.readSpace h _ _ _ _ _)) (Keeps.ite1 (Keeps.pair (Keeps.readSpace h _ _ _ _ _)) (Keeps.ite1 (Keeps.pair (Keeps.readSpace h _ _ _ _ _)) (Keeps.pair (Keeps.readSpace (Keeps.readSpace h _ _ _ _ _) _ _ _ _ _))))

theorem Keeps.checkTarget {q : List Instr} {s : State} (h : Keeps q s) (j : ProgJob) (pos : ℕ) (t : Target) :
    Keeps q (State.checkTarget s j pos t).1 := by
  unfold State.checkTarget
  exact Keeps.ite1 (Keeps.pair h) (Keeps.ite1 (Keeps.readSection h _ _) (Keeps.pair (Keeps.readSection h _ _)))

theorem Keeps.targetStart {q : List Instr} {s : State} (h : Keeps q s) (uid : ℕ) (pos : ℕ) :
    Keeps q (State.targetStart s uid pos) := by
  unfold State.targetStart
  try dsimp only
  split
  · exact h
  · exact Keeps.ite h (Keeps.ite (Keeps.gapEvent (Keeps.endTarget (Keeps.checkTarget (Keeps.upd h _ _ _ _ _ _ _ _ _ _ _ _ _ _ _ _ _ _) _ _ _) _ _ _) _) (Keeps.busyNow (Keeps.modTarget (Keeps.checkTarget (Keeps.upd h _ _ _ _ _ _ _ _ _ _ _ _ _ _ _ _ _ _) _ _ _) _ _ _)))

theorem Keeps.execProgramTargetStart {q : List Instr} {s : State} (h : Keeps q s) (uid : ℕ) (pos : ℕ) :
    KeepsO q (Sys2Proof.Machine.execProgramTargetStart uid pos s) := by
  unfold Sys2Proof.Machine.execProgramTargetStart
  exact KeepsO.done (Keeps.targetStart h _ _)

theorem Keeps.claimTarget {q : List Instr} {s : State} (h : Keeps q s) (uid : ℕ) (pos : ℕ) :
    Keeps q (State.claimTarget s uid pos) := by
  unfold State.claimTarget
  try dsimp only
  split
  · exact h
  · exact Keeps.ite h (Keeps.ite (Keeps.gapEvent (Keeps.endTarget h _ _ _) _) (Keeps.busyNow (Keeps.modTarget (Keeps.mirrorDeck (Keeps.modDeck (Keeps.cfgTouched (Keeps.dropChecks (Keeps.stopDarns h _) _) _ _) _ _ _) _ _) _ _ _)))

theorem Keeps.execClaim {q : List Instr} {s : State} (h : Keeps q s) (uid : ℕ) (pos : ℕ) :
    KeepsO q (Sys2Proof.Machine.execClaim uid pos s) := by
  unfold Sys2Proof.Machine.execClaim
  exact KeepsO.done (Keeps.claimTarget h _ _)

theorem Keeps.streamRow {q : List Instr} {s : State} (h : Keeps q s) (j : ProgJob) (t : Target) :
    Keeps q (State.streamRow s j t).1 := by
  unfold State.streamRow
  exact Keeps.pair (Keeps.readSpace (Keeps.readSpace h _ _ _ _ _) _ _ _ _ _)

theorem Keeps.pulse {q : List Instr} {s : State} (h : Keeps q s) (j : ProgJob) (uid : ℕ) (pos : ℕ) (t : Target) (reads : List (ℕ × ℕ × ℕ)) :
    Keeps q (State.pulse s j uid pos t reads) := by
  unfold State.pulse
  exact Keeps.modTarget (Keeps.modEngine (Keeps.placeRow h _ _ _ _) _ _) _ _ _

theorem Keeps.jobSection {q : List Instr} {s : State} (h : Keeps q s) (j : ProgJob) (t : Target) :
    Keeps q (State.jobSection s j t).1 := by
  unfold State.jobSection
  exact Keeps.ite1 (Keeps.pair h) (Keeps.pair (Keeps.readSection h _ _))

theorem Keeps.endPasses {q : List Instr} {s : State} (h : Keeps q s) (uid : ℕ) (pos : ℕ) :
    Keeps q (State.endPasses s uid pos) := by
  unfold State.endPasses
  try dsimp only
  split
  · exact h
  · exact Keeps.ite (Keeps.endTarget h _ _ _) (Keeps.ite (Keeps.modDeck (Keeps.modTarget h _ _ _) _ _ _) (Keeps.ite (Keeps.endTarget (Keeps.jobSection (Keeps.modDeck (Keeps.modTarget h _ _ _) _ _ _) _ _) _ _ _) (Keeps.ite (Keeps.endTarget (Keeps.darnColumns (Keeps.jobSection (Keeps.modDeck (Keeps.modTarget h _ _ _) _ _ _) _ _) _ _ _ _ _ _) _ _ _) (Keeps.darnColumns (Keeps.jobSection (Keeps.modDeck (Keeps.modTarget h _ _ _) _ _ _) _ _) _ _ _ _ _ _))))

theorem Keeps.rowPass {q : List Instr} {s : State} (h : Keeps q s) (uid : ℕ) (pos : ℕ) (reads : List (ℕ × ℕ × ℕ)) :
    Keeps q (State.rowPass s uid pos reads) := by
  unfold State.rowPass
  try dsimp only
  split
  · exact h
  · exact Keeps.ite h (Keeps.ite (Keeps.gapEvent (Keeps.endTarget (Keeps.ite1 (Keeps.streamRow h _ _) (Keeps.pair h)) _ _ _) _) (by
      try dsimp only
      split
      · exact Keeps.ite (Keeps.gapEvent (Keeps.endPasses (Keeps.pulse (Keeps.modTarget (Keeps.ite1 (Keeps.streamRow h _ _) (Keeps.pair h)) _ _ _) _ _ _ _ _) _ _) _) (Keeps.pulse (Keeps.modTarget (Keeps.ite1 (Keeps.streamRow h _ _) (Keeps.pair h)) _ _ _) _ _ _ _ _)
      · exact Keeps.pulse (Keeps.modTarget (Keeps.ite1 (Keeps.streamRow h _ _) (Keeps.pair h)) _ _ _) _ _ _ _ _))

theorem Keeps.execRowPass {q : List Instr} {s : State} (h : Keeps q s) (uid : ℕ) (pos : ℕ) (reads : List (ℕ × ℕ × ℕ)) :
    KeepsO q (Sys2Proof.Machine.execRowPass uid pos reads s) := by
  unfold Sys2Proof.Machine.execRowPass
  exact KeepsO.done (Keeps.rowPass h _ _ _)

theorem Keeps.trimReset {q : List Instr} {s : State} (h : Keeps q s) (e : ℕ) (k : ℕ) :
    Keeps q (State.trimReset s e k) := by
  unfold State.trimReset
  exact Keeps.upd h _ _ _ _ _ _ _ _ _ _ _ _ _ _ _ _ _ _

theorem Keeps.rinseCal {q : List Instr} {s : State} (h : Keeps q s) (e : ℕ) (k : ℕ) :
    Keeps q (State.rinseCal s e k) := by
  unfold State.rinseCal
  exact Keeps.modDeck (Keeps.trimReset h _ _) _ _ _

theorem Keeps.targetCal {q : List Instr} {s : State} (h : Keeps q s) (e : ℕ) (k : ℕ) (vs : List Vec) :
    Keeps q (State.targetCal s e k vs).1 := by
  unfold State.targetCal
  exact Keeps.ite1 (Keeps.pair (Keeps.calNone h _ _)) (Keeps.ite1 (Keeps.ite1 (Keeps.pair h) (Keeps.calibrateBy h _ _ _ _ _)) (Keeps.calibrateBy h _ _ _ _ _))

theorem Keeps.saveSection {q : List Instr} {s : State} (h : Keeps q s) (e : ℕ) (sec : List ℕ) :
    Keeps q (State.saveSection s e sec) := by
  unfold State.saveSection
  exact Keeps.upd h _ _ _ _ _ _ _ _ _ _ _ _ _ _ _ _ _ _

theorem Keeps.commitNow {q : List Instr} {s : State} (h : Keeps q s) (uid : ℕ) (pos : ℕ) (j : ProgJob) (t : Target) (sec : Option (List ℕ)) :
    Keeps q (State.commitNow s uid pos j t sec) := by
  unfold State.commitNow
  exact Keeps.gapEvent (Keeps.endTarget (by
    try dsimp only
    split
    · exact Keeps.ite (Keeps.saveSection (Keeps.mirrorDeck (Keeps.modDeck h _ _ _) _ _) _ _) (Keeps.mirrorDeck (Keeps.modDeck h _ _ _) _ _)
    · exact Keeps.mirrorDeck (Keeps.modDeck h _ _ _) _ _) _ _ _) _

theorem Keeps.commitTarget {q : List Instr} {s : State} (h : Keeps q s) (uid : ℕ) (pos : ℕ) :
    Keeps q (State.commitTarget s uid pos) := by
  unfold State.commitTarget
  try dsimp only
  split
  · exact h
  · exact Keeps.ite h (Keeps.ite (Keeps.commitNow (Keeps.rinseCal h _ _) _ _ _ _ _) (by
      try dsimp only
      split
      · exact Keeps.gapEvent (Keeps.endTarget (Keeps.jobSection h _ _) _ _ _) _
      · exact Keeps.ite (Keeps.commitNow (Keeps.targetCal (Keeps.jobSection h _ _) _ _ _) _ _ _ _ _) (Keeps.ite (Keeps.gapEvent (Keeps.endTarget (Keeps.localise (Keeps.modDeck (Keeps.targetCal (Keeps.jobSection h _ _) _ _ _) _ _ _) _ _ _ _ _) _ _ _) _) (Keeps.localise (Keeps.modDeck (Keeps.targetCal (Keeps.jobSection h _ _) _ _ _) _ _ _) _ _ _ _ _))))

theorem Keeps.execCommit {q : List Instr} {s : State} (h : Keeps q s) (uid : ℕ) (pos : ℕ) :
    KeepsO q (Sys2Proof.Machine.execCommit uid pos s) := by
  unfold Sys2Proof.Machine.execCommit
  exact KeepsO.done (Keeps.commitTarget h _ _)

theorem Keeps.breakTarget {q : List Instr} {s : State} (h : Keeps q s) (uid : ℕ) (pos : ℕ) (status : ℕ) :
    Keeps q (State.breakTarget s uid pos status) := by
  unfold State.breakTarget
  try dsimp only
  split
  · exact h
  · exact Keeps.gapEvent (Keeps.endTarget (Keeps.stopDarns h _) _ _ _) _

theorem Keeps.laneCmdEnd {q : List Instr} {s : State} (h : Keeps q s) (status : ℕ) :
    Keeps q (State.laneCmdEnd s status) := by
  unfold State.laneCmdEnd
  exact Keeps.upd (Keeps.setFlag (Keeps.wr h _ _) _ _) _ _ _ _ _ _ _ _ _ _ _ _ _ _ _ _ _ _

theorem Keeps.vprogLost {q : List Instr} {s : State} (h : Keeps q s) :
    Keeps q (State.vprogLost s) := by
  unfold State.vprogLost
  exact Keeps.ite (Keeps.foldl (fun _ _ h3 => Keeps.breakTarget h3 _ _ _) (Keeps.upd h _ _ _ _ _ _ _ _ _ _ _ _ _ _ _ _ _ _)) (Keeps.laneCmdEnd (Keeps.foldl (fun _ _ h3 => Keeps.breakTarget h3 _ _ _) (Keeps.upd h _ _ _ _ _ _ _ _ _ _ _ _ _ _ _ _ _ _)) _)

theorem Keeps.execVprogFault {q : List Instr} {s : State} (h : Keeps q s) :
    KeepsO q (Sys2Proof.Machine.execVprogFault s) := by
  unfold Sys2Proof.Machine.execVprogFault
  exact KeepsO.done (Keeps.when h _ _ (fun _ h3 => Keeps.vprogLost h3))

theorem Keeps.execVprogInRange {q : List Instr} {s : State} (h : Keeps q s) :
    KeepsO q (Sys2Proof.Machine.execVprogInRange s) := by
  unfold Sys2Proof.Machine.execVprogInRange
  exact KeepsO.done (Keeps.upd h _ _ _ _ _ _ _ _ _ _ _ _ _ _ _ _ _ _)

theorem Keeps.fetchTimeout {q : List Instr} {s : State} (h : Keeps q s) (uid : ℕ) (pos : ℕ) :
    Keeps q (State.fetchTimeout s uid pos) := by
  unfold State.fetchTimeout
  try dsimp only
  split
  · exact h
  · exact Keeps.ite (Keeps.ite (Keeps.complete (Keeps.dropJob h _) _ _ _) h) (by
      try dsimp only
      split
      · exact h
      · exact Keeps.ite (Keeps.breakTarget h _ _ _) h)

theorem Keeps.execProgramFetchTimeout {q : List Instr} {s : State} (h : Keeps q s) (uid : ℕ) (pos : ℕ) :
    KeepsO q (Sys2Proof.Machine.execProgramFetchTimeout uid pos s) := by
  unfold Sys2Proof.Machine.execProgramFetchTimeout
  exact KeepsO.done (Keeps.when h _ _ (fun _ h3 => Keeps.fetchTimeout h3 _ _))

end Sys2Proof.Machine
end

