-- ==== Sys2Proof/Laws/KeepsChecking.lean ====
section
/-!
SUPPORT. What the operations of Machine/Checking.lean keep.
-/

namespace Sys2Proof.Machine

theorem Keeps.sortTargets {q : List Instr} {s : State} (h : Keeps q s) (uid : ℕ) :
    Keeps q (State.sortTargets s uid) := by
  unfold State.sortTargets
  try dsimp only
  split
  · exact h
  · exact Keeps.foldl (fun _ _ h3 => Keeps.startTest h3 _) (Keeps.foldl (fun _ _ h3 => by
      try dsimp only
      split
      · exact h3
      · exact Keeps.ite (Keeps.endTarget h3 _ _ _) h3) h)

theorem Keeps.acceptTests {q : List Instr} {s : State} (h : Keeps q s) (d : Desc) :
    Keeps q (State.acceptTests s d) := by
  unfold State.acceptTests
  exact Keeps.sortTargets (Keeps.acceptJob h _) _

theorem Keeps.execSelfTest {q : List Instr} {s : State} (h : Keeps q s) (f : ℕ) (w : ℕ) :
    KeepsO q (Sys2Proof.Machine.execSelfTest f w s) := by
  unfold Sys2Proof.Machine.execSelfTest
  exact KeepsO.unit (Keeps.onDesc h _ _ _ _ (fun _ _ h4 => Keeps.acceptTests h4 _))

theorem Keeps.execCalibrate {q : List Instr} {s : State} (h : Keeps q s) (f : ℕ) (w : ℕ) :
    KeepsO q (Sys2Proof.Machine.execCalibrate f w s) := by
  unfold Sys2Proof.Machine.execCalibrate
  exact KeepsO.unit (Keeps.onDesc h _ _ _ _ (fun _ _ h4 => Keeps.acceptTests h4 _))

theorem Keeps.testDeadline {q : List Instr} {s : State} (h : Keeps q s) (uid : ℕ) (pos : ℕ) :
    Keeps q (State.testDeadline s uid pos) := by
  unfold State.testDeadline
  try dsimp only
  split
  · exact h
  · exact Keeps.ite (Keeps.endTarget (Keeps.health h _ _ _) _ _ _) h

theorem Keeps.execTestDeadline {q : List Instr} {s : State} (h : Keeps q s) (uid : ℕ) (pos : ℕ) :
    KeepsO q (Sys2Proof.Machine.execTestDeadline uid pos s) := by
  unfold Sys2Proof.Machine.execTestDeadline
  exact KeepsO.done (Keeps.when h _ _ (fun _ h3 => Keeps.testDeadline h3 _ _))

theorem Keeps.lendDesc {q : List Instr} {s : State} (h : Keeps q s) (d : Desc) (lend : Bool) :
    Keeps q (State.lendDesc s d lend) := by
  unfold State.lendDesc
  exact Keeps.ite (Keeps.complete h _ _ _) (Keeps.ite (Keeps.complete h _ _ _) (Keeps.foldl (fun _ _ h3 => Keeps.gapTry h3 _) (Keeps.upd h _ _ _ _ _ _ _ _ _ _ _ _ _ _ _ _ _ _)))

theorem Keeps.execLend {q : List Instr} {s : State} (h : Keeps q s) (f : ℕ) (w : ℕ) :
    KeepsO q (Sys2Proof.Machine.execLend f w s) := by
  unfold Sys2Proof.Machine.execLend
  exact KeepsO.unit (Keeps.onDesc h _ _ _ _ (fun _ _ h4 => Keeps.lendDesc h4 _ _))

theorem Keeps.execReclaim {q : List Instr} {s : State} (h : Keeps q s) (f : ℕ) (w : ℕ) :
    KeepsO q (Sys2Proof.Machine.execReclaim f w s) := by
  unfold Sys2Proof.Machine.execReclaim
  exact KeepsO.unit (Keeps.onDesc h _ _ _ _ (fun _ _ h4 => Keeps.lendDesc h4 _ _))

theorem Keeps.unlend {q : List Instr} {s : State} (h : Keeps q s) (e : ℕ) :
    Keeps q (State.unlend s e) := by
  unfold State.unlend
  exact Keeps.gapEvent (Keeps.modEngine h _ _) _

theorem Keeps.lendExpiry {q : List Instr} {s : State} (h : Keeps q s) (e : ℕ) :
    Keeps q (State.lendExpiry s e) := by
  unfold State.lendExpiry
  exact Keeps.ite (Keeps.unlend h _) h

theorem Keeps.execLendExpiry {q : List Instr} {s : State} (h : Keeps q s) (e : ℕ) :
    KeepsO q (Sys2Proof.Machine.execLendExpiry e s) := by
  unfold Sys2Proof.Machine.execLendExpiry
  exact KeepsO.unit (Keeps.when h _ _ (fun _ h3 => Keeps.lendExpiry h3 _))

theorem Keeps.carryVisits {q : List Instr} {s : State} (h : Keeps q s) (e : ℕ) (k : ℕ) :
    Keeps q (State.carryVisits s e k) := by
  unfold State.carryVisits
  exact Keeps.health (Keeps.modDeck h _ _ _) _ _ _

theorem Keeps.startCheck {q : List Instr} {s : State} (h : Keeps q s) (e : ℕ) (k : ℕ) (v : ℕ) (x : Vec) :
    Keeps q (State.startCheck s e k v x) := by
  unfold State.startCheck
  exact Keeps.upd (Keeps.checkStart (Keeps.skip h _) _ _ _ _) _ _ _ _ _ _ _ _ _ _ _ _ _ _ _ _ _ _

theorem Keeps.visit {q : List Instr} {s : State} (h : Keeps q s) (e : ℕ) :
    Keeps q (State.visit s e) := by
  unfold State.visit
  try dsimp only
  split
  · exact h
  · exact Keeps.ite (Keeps.carryVisits h _ _) (by
      try dsimp only
      split
      · exact Keeps.setDeck (Keeps.vectors (Keeps.carryVisits h _ _) _ _) _ _ _
      · exact Keeps.startCheck (Keeps.setDeck (Keeps.vectors (Keeps.carryVisits h _ _) _ _) _ _ _) _ _ _ _)

theorem Keeps.execBackgroundVisit {q : List Instr} {s : State} (h : Keeps q s) (e : ℕ) :
    KeepsO q (Sys2Proof.Machine.execBackgroundVisit e s) := by
  unfold Sys2Proof.Machine.execBackgroundVisit
  exact KeepsO.unit (Keeps.when h _ _ (fun _ h3 => Keeps.visit h3 _))

theorem Keeps.checkOver {q : List Instr} {s : State} (h : Keeps q s) (e : ℕ) (k : ℕ) (x : Vec) (cs : List Conv) :
    Keeps q (State.checkOver s e k x cs).1 := by
  unfold State.checkOver
  exact Keeps.pair (Keeps.health (Keeps.modEngine h _ _) _ _ _)

theorem Keeps.runVector {q : List Instr} {s : State} (h : Keeps q s) (e : ℕ) (k : ℕ) (v : ℕ) :
    Keeps q (State.runVector s e k v).1 := by
  unfold State.runVector
  try dsimp only
  split
  · exact Keeps.pair (Keeps.vectors h _ _)
  · exact Keeps.pair (Keeps.checkOver (Keeps.checkRun (Keeps.vectors h _ _) _ _ _ _ _) _ _ _ _)

theorem Keeps.awaitRetry {q : List Instr} {s : State} (h : Keeps q s) (e : ℕ) (k : ℕ) (v : ℕ) (cols : List ℕ) (target : Option (ℕ × ℕ)) :
    Keeps q (State.awaitRetry s e k v cols target) := by
  unfold State.awaitRetry
  exact Keeps.upd h _ _ _ _ _ _ _ _ _ _ _ _ _ _ _ _ _ _

theorem Keeps.stopTesting {q : List Instr} {s : State} (h : Keeps q s) (e : ℕ) :
    Keeps q (State.stopTesting s e) := by
  unfold State.stopTesting
  exact Keeps.gapEvent (Keeps.modEngine h _ _) _

theorem Keeps.testVector {q : List Instr} {s : State} (h : Keeps q s) (j : ProgJob) (pos : ℕ) (t : Target) :
    Keeps q (State.testVector s j pos t) := by
  unfold State.testVector
  try dsimp only
  split
  · exact Keeps.stopTesting (Keeps.settleTest (Keeps.runVector h _ _ _) _ _) _
  · exact Keeps.ite (Keeps.stopTesting (Keeps.settleTest (Keeps.modTarget (Keeps.ite (Keeps.runVector h _ _ _) (Keeps.awaitRetry (Keeps.runVector h _ _ _) _ _ _ _ _)) _ _ _) _ _) _) (Keeps.modTarget (Keeps.ite (Keeps.runVector h _ _ _) (Keeps.awaitRetry (Keeps.runVector h _ _ _) _ _ _ _ _)) _ _ _)

theorem Keeps.converterTest {q : List Instr} {s : State} (h : Keeps q s) (j : ProgJob) (pos : ℕ) (t : Target) :
    Keeps q (State.converterTest s j pos t) := by
  unfold State.converterTest
  exact Keeps.stopTesting (Keeps.settleTest (Keeps.ite (Keeps.retire (Keeps.health (Keeps.noteConverters (Keeps.modTarget (Keeps.skip h _) _ _ _) _ _ _) _ _ _) _ _) (Keeps.health (Keeps.noteConverters (Keeps.modTarget (Keeps.skip h _) _ _ _) _ _ _) _ _ _)) _ _) _

theorem Keeps.checkDone {q : List Instr} {s : State} (h : Keeps q s) (e : ℕ) :
    Keeps q (State.checkDone s e) := by
  unfold State.checkDone
  try dsimp only
  split
  · exact by
      try dsimp only
      split
      · exact Keeps.gapEvent (Keeps.upd h _ _ _ _ _ _ _ _ _ _ _ _ _ _ _ _ _ _) _
      · exact Keeps.gapEvent (Keeps.ite (Keeps.checkOver (Keeps.checkConvert (Keeps.upd h _ _ _ _ _ _ _ _ _ _ _ _ _ _ _ _ _ _) _ _ _ _ _ _) _ _ _ _) (Keeps.awaitRetry (Keeps.checkOver (Keeps.checkConvert (Keeps.upd h _ _ _ _ _ _ _ _ _ _ _ _ _ _ _ _ _ _) _ _ _ _ _ _) _ _ _ _) _ _ _ _ _)) _
  · exact by
      try dsimp only
      split
      · exact Keeps.ite h (Keeps.ite (Keeps.testVector h _ _ _) (Keeps.ite (Keeps.converterTest h _ _ _) h))
      · exact h

theorem Keeps.execCheckEvaluationDone {q : List Instr} {s : State} (h : Keeps q s) (e : ℕ) :
    KeepsO q (Sys2Proof.Machine.execCheckEvaluationDone e s) := by
  unfold Sys2Proof.Machine.execCheckEvaluationDone
  exact KeepsO.unit (Keeps.when h _ _ (fun _ h3 => Keeps.aperIn (Keeps.checkDone h3 _) _))

theorem Keeps.addFindings {q : List Instr} {s : State} (h : Keeps q s) (target : Option (ℕ × ℕ)) (faults : List ℕ) (darned : List ℕ) :
    Keeps q (State.addFindings s target faults darned) := by
  unfold State.addFindings
  try dsimp only
  split
  · exact h
  · exact Keeps.modTarget h _ _ _

theorem Keeps.actOn {q : List Instr} {s : State} (h : Keeps q s) (e : ℕ) (k : ℕ) (f : List (ℕ × Bool)) (target : Option (ℕ × ℕ)) :
    Keeps q (State.actOn s e k f target) := by
  unfold State.actOn
  exact Keeps.addFindings (Keeps.localise h _ _ _ _ _) _ _ _

theorem Keeps.judgeRetry {q : List Instr} {s : State} (h : Keeps q s) (e : ℕ) (k : ℕ) (first : List ℕ) (f : List (ℕ × Bool)) (target : Option (ℕ × ℕ)) :
    Keeps q (State.judgeRetry s e k first f target) := by
  unfold State.judgeRetry
  exact Keeps.ite (Keeps.health h _ _ _) (Keeps.actOn (Keeps.health h _ _ _) _ _ _ _)

theorem Keeps.checkRetry {q : List Instr} {s : State} (h : Keeps q s) (e : ℕ) :
    Keeps q (State.checkRetry s e) := by
  unfold State.checkRetry
  try dsimp only
  split
  · exact h
  · exact Keeps.ite (Keeps.dropRetired h _) (Keeps.ite h (Keeps.gapEvent (by
      try dsimp only
      split
      · exact by
          try dsimp only
          split
          · exact Keeps.ite (Keeps.settleTest (by
              try dsimp only
              split
              · exact Keeps.runVector (Keeps.upd h _ _ _ _ _ _ _ _ _ _ _ _ _ _ _ _ _ _) _ _ _
              · exact Keeps.judgeRetry (Keeps.runVector (Keeps.upd h _ _ _ _ _ _ _ _ _ _ _ _ _ _ _ _ _ _) _ _ _) _ _ _ _ _) _ _) (by
              try dsimp only
              split
              · exact Keeps.runVector (Keeps.upd h _ _ _ _ _ _ _ _ _ _ _ _ _ _ _ _ _ _) _ _ _
              · exact Keeps.judgeRetry (Keeps.runVector (Keeps.upd h _ _ _ _ _ _ _ _ _ _ _ _ _ _ _ _ _ _) _ _ _) _ _ _ _ _)
          · exact by
              try dsimp only
              split
              · exact Keeps.runVector (Keeps.upd h _ _ _ _ _ _ _ _ _ _ _ _ _ _ _ _ _ _) _ _ _
              · exact Keeps.judgeRetry (Keeps.runVector (Keeps.upd h _ _ _ _ _ _ _ _ _ _ _ _ _ _ _ _ _ _) _ _ _) _ _ _ _ _
      · exact by
          try dsimp only
          split
          · exact Keeps.runVector (Keeps.upd h _ _ _ _ _ _ _ _ _ _ _ _ _ _ _ _ _ _) _ _ _
          · exact Keeps.judgeRetry (Keeps.runVector (Keeps.upd h _ _ _ _ _ _ _ _ _ _ _ _ _ _ _ _ _ _) _ _ _) _ _ _ _ _) _))

theorem Keeps.execCheckRetry {q : List Instr} {s : State} (h : Keeps q s) (e : ℕ) :
    KeepsO q (Sys2Proof.Machine.execCheckRetry e s) := by
  unfold Sys2Proof.Machine.execCheckRetry
  exact KeepsO.unit (Keeps.when h _ _ (fun _ h3 => Keeps.checkRetry h3 _))

theorem Keeps.darnSection {q : List Instr} {s : State} (h : Keeps q s) (x : Darn) :
    Keeps q (State.darnSection s x).1 := by
  unfold State.darnSection
  try dsimp only
  split
  · exact Keeps.pair h
  · exact by
      try dsimp only
      split
      · exact Keeps.pair h
      · exact Keeps.pair (Keeps.jobSection h _ _)

theorem Keeps.darned {q : List Instr} {s : State} (h : Keeps q s) (x : Darn) :
    Keeps q (State.darned s x) := by
  unfold State.darned
  exact Keeps.raise (Keeps.health (Keeps.mirrorDeck (Keeps.modDeck h _ _ _) _ _) _ _ _) _ _ _ _ _

theorem Keeps.redarn {q : List Instr} {s : State} (h : Keeps q s) (x : Darn) :
    Keeps q (State.redarn s x) := by
  unfold State.redarn
  try dsimp only
  split
  · exact Keeps.ite (Keeps.breakTarget (Keeps.darnColumn (Keeps.modDeck (Keeps.darnSection h _) _ _ _) _ _ _ _ _ _) _ _ _) (Keeps.darnColumn (Keeps.modDeck (Keeps.darnSection h _) _ _ _) _ _ _ _ _ _)
  · exact Keeps.darnColumn (Keeps.modDeck (Keeps.darnSection h _) _ _ _) _ _ _ _ _ _

theorem Keeps.darnComplete {q : List Instr} {s : State} (h : Keeps q s) (e : ℕ) (ok : Bool) :
    Keeps q (State.darnComplete s e ok) := by
  unfold State.darnComplete
  try dsimp only
  split
  · exact h
  · exact Keeps.ite h (Keeps.ite (Keeps.darned (Keeps.modEngine (Keeps.upd h _ _ _ _ _ _ _ _ _ _ _ _ _ _ _ _ _ _) _ _) _) (Keeps.redarn (Keeps.modEngine (Keeps.upd h _ _ _ _ _ _ _ _ _ _ _ _ _ _ _ _ _ _) _ _) _))

theorem Keeps.execDarnComplete {q : List Instr} {s : State} (h : Keeps q s) (e : ℕ) (ok : Bool) :
    KeepsO q (Sys2Proof.Machine.execDarnComplete e ok s) := by
  unfold Sys2Proof.Machine.execDarnComplete
  exact KeepsO.unit (Keeps.when h _ _ (fun _ h3 => Keeps.darnComplete h3 _ _))

theorem Keeps.dueCal {q : List Instr} {s : State} (h : Keeps q s) (e : ℕ) (k : ℕ) :
    Keeps q (State.dueCal s e k) := by
  unfold State.dueCal
  exact Keeps.actOn (Keeps.calibrate h _ _ _) _ _ _ _

theorem Keeps.resumeDarns {q : List Instr} {s : State} (h : Keeps q s) (e : ℕ) (k : ℕ) (sec : List ℕ) :
    Keeps q (State.resumeDarns s e k sec) := by
  unfold State.resumeDarns
  exact Keeps.foldl (fun _ _ h3 => Keeps.ite (Keeps.upd (Keeps.placeSpare (Keeps.mirrorDeck (Keeps.modDeck h3 _ _ _) _ _) _ _ _ _ _) _ _ _ _ _ _ _ _ _ _ _ _ _ _ _ _ _ _) h3) h

theorem Keeps.setSource {q : List Instr} {s : State} (h : Keeps q s) (j : ProgJob) (t : Target) :
    Keeps q (State.setSource s j t) := by
  unfold State.setSource
  try dsimp only
  split
  · exact Keeps.residentSection (Keeps.modDeck h _ _ _) _ _
  · exact Keeps.resumeDarns (Keeps.modDeck (Keeps.residentSection (Keeps.modDeck h _ _ _) _ _) _ _ _) _ _ _

theorem Keeps.calTarget {q : List Instr} {s : State} (h : Keeps q s) (j : ProgJob) (pos : ℕ) (t : Target) :
    Keeps q (State.calTarget s j pos t) := by
  unfold State.calTarget
  exact Keeps.stopTesting (Keeps.settleTest (Keeps.actOn (Keeps.calibrate (Keeps.ite (Keeps.setSource h _ _) h) _ _ _) _ _ _ _) _ _) _

theorem Keeps.fullTrim {q : List Instr} {s : State} (h : Keeps q s) (e : ℕ) :
    Keeps q (State.fullTrim s e) := by
  unfold State.fullTrim
  exact Keeps.skip (Keeps.setRosc (Keeps.upd h _ _ _ _ _ _ _ _ _ _ _ _ _ _ _ _ _ _) _ _) _

theorem Keeps.fullCal {q : List Instr} {s : State} (h : Keeps q s) (j : ProgJob) (pos : ℕ) (t : Target) :
    Keeps q (State.fullCal s j pos t) := by
  unfold State.fullCal
  exact Keeps.stopTesting (Keeps.settleTest (Keeps.foldl (fun _ _ h3 => Keeps.ite (Keeps.vectors h3 _ _) (Keeps.actOn (Keeps.calibrateBy (Keeps.vectors h3 _ _) _ _ _ _ _) _ _ _ _)) (Keeps.fullTrim h _)) _ _) _

theorem Keeps.columnCal {q : List Instr} {s : State} (h : Keeps q s) (e : ℕ) :
    Keeps q (State.columnCal s e) := by
  unfold State.columnCal
  try dsimp only
  split
  · exact Keeps.ite h (Keeps.ite (Keeps.calTarget h _ _ _) (Keeps.ite (Keeps.fullCal h _ _ _) h))
  · exact by
      try dsimp only
      split
      · exact h
      · exact Keeps.ite (Keeps.gapEvent (Keeps.dueCal h _ _) _) h

theorem Keeps.execColumnCalibration {q : List Instr} {s : State} (h : Keeps q s) (e : ℕ) :
    KeepsO q (Sys2Proof.Machine.execColumnCalibration e s) := by
  unfold Sys2Proof.Machine.execColumnCalibration
  exact KeepsO.unit (Keeps.when h _ _ (fun _ h3 => Keeps.columnCal h3 _))

theorem Keeps.refTrim {q : List Instr} {s : State} (h : Keeps q s) (e : ℕ) :
    Keeps q (State.refTrim s e) := by
  unfold State.refTrim
  exact Keeps.ite h (Keeps.skip (Keeps.setRosc h _ _) _)

theorem Keeps.execReferenceRecalibration {q : List Instr} {s : State} (h : Keeps q s) (e : ℕ) :
    KeepsO q (Sys2Proof.Machine.execReferenceRecalibration e s) := by
  unfold Sys2Proof.Machine.execReferenceRecalibration
  exact KeepsO.unit (Keeps.when h _ _ (fun _ h3 => Keeps.refTrim h3 _))

end Sys2Proof.Machine
end

