-- ==== Sys2Proof/Laws/KeepsFabric.lean ====
section
/-!
SUPPORT. What the operations of Machine/Fabric.lean keep.
-/

namespace Sys2Proof.Machine

theorem Keeps.deliverPosted {q : List Instr} {s : State} (h : Keeps q s) (p : Posted) :
    Keeps q (State.deliverPosted s p) := by
  unfold State.deliverPosted
  exact Keeps.ite h (by
    try dsimp only
    split
    · exact Keeps.bell h _ _ _
    · exact Keeps.aliasAct h _ _ _ _ _ _ _ _)

theorem Keeps.flushPosted {q : List Instr} {s : State} (h : Keeps q s) :
    Keeps q (State.flushPosted s) := by
  unfold State.flushPosted
  exact Keeps.foldl (fun _ _ h3 => Keeps.deliverPosted h3 _) (Keeps.upd h _ _ _ _ _ _ _ _ _ _ _ _ _ _ _ _ _ _)

theorem Keeps.atHem {q : List Instr} {s : State} (h : Keeps q s) (d : ℕ) (uid : ℕ) (st : ℕ) (op : ℕ) :
    Keeps q (State.atHem s d uid st op) := by
  unfold State.atHem
  try dsimp only
  split
  · exact h
  · exact Keeps.ite (Keeps.bump h _ _) h

theorem Keeps.execPacketAtHem {q : List Instr} {s : State} (h : Keeps q s) (dom : ℕ) (uid : ℕ) (st : ℕ) (op : ℕ) :
    KeepsO q (Sys2Proof.Machine.execPacketAtHem dom uid st op s) := by
  unfold Sys2Proof.Machine.execPacketAtHem
  exact KeepsO.unit (Keeps.when h _ _ (fun _ h3 => Keeps.atHem h3 _ _ _ _))

theorem Keeps.copyDown {q : List Instr} {s : State} (h : Keeps q s) (j : DmaJob) :
    Keeps q (State.copyDown s j) := by
  unfold State.copyDown
  try dsimp only
  split
  · exact h
  · exact Keeps.complete (Keeps.dmaBlocks (Keeps.upd (Keeps.skip h _) _ _ _ _ _ _ _ _ _ _ _ _ _ _ _ _ _ _) _ _ _ _) _ _ _

theorem Keeps.operDown {q : List Instr} {s : State} (h : Keeps q s) (t : Step) (m : Stream) (o : Op) (st : ℕ) (op : ℕ) :
    Keeps q (State.operDown s t m o st op) := by
  unfold State.operDown
  exact Keeps.opDone (Keeps.failStep (Keeps.ite (Keeps.moveStopped h _ _) h) _ _ _ _ _) _ _ _

theorem Keeps.entryDown {q : List Instr} {s : State} (h : Keeps q s) (t : Step) (k : ℕ) (e : Entry) :
    Keeps q (State.entryDown s t k e) := by
  unfold State.entryDown
  exact Keeps.endEntry (Keeps.failStep (Keeps.ite h (Keeps.copyStopped h _ _)) _ _ _ _ _) _ _ _

theorem Keeps.domainDown {q : List Instr} {s : State} (h : Keeps q s) (uid : ℕ) (st : ℕ) (op : ℕ) :
    Keeps q (State.domainDown s uid st op) := by
  unfold State.domainDown
  try dsimp only
  split
  · exact h
  · exact Keeps.ite h (by
      try dsimp only
      split
      · exact Keeps.copyDown h _
      · exact Keeps.operDown h _ _ _ _ _
      · exact Keeps.entryDown h _ _ _)

theorem Keeps.execDomainDown {q : List Instr} {s : State} (h : Keeps q s) (uid : ℕ) (st : ℕ) (op : ℕ) :
    KeepsO q (Sys2Proof.Machine.execDomainDown uid st op s) := by
  unfold Sys2Proof.Machine.execDomainDown
  exact KeepsO.done (Keeps.when h _ _ (fun _ h3 => Keeps.domainDown h3 _ _ _))

theorem Keeps.skewTrip {q : List Instr} {s : State} (h : Keeps q s) (d : ℕ) (x : ℕ) :
    Keeps q (State.skewTrip s d x) := by
  unfold State.skewTrip
  exact Keeps.ite h (Keeps.ite (Keeps.raise (Keeps.upd (Keeps.ite (Keeps.wr (Keeps.bump (Keeps.upd h _ _ _ _ _ _ _ _ _ _ _ _ _ _ _ _ _ _) _ _) _ _) (Keeps.upd h _ _ _ _ _ _ _ _ _ _ _ _ _ _ _ _ _ _)) _ _ _ _ _ _ _ _ _ _ _ _ _ _ _ _ _ _) _ _ _ _ _) (Keeps.ite (Keeps.wr (Keeps.bump (Keeps.upd h _ _ _ _ _ _ _ _ _ _ _ _ _ _ _ _ _ _) _ _) _ _) (Keeps.upd h _ _ _ _ _ _ _ _ _ _ _ _ _ _ _ _ _ _)))

theorem Keeps.execSkewMonitorTrip {q : List Instr} {s : State} (h : Keeps q s) (d : ℕ) (x : ℕ) :
    KeepsO q (Sys2Proof.Machine.execSkewMonitorTrip d x s) := by
  unfold Sys2Proof.Machine.execSkewMonitorTrip
  exact KeepsO.unit (Keeps.when h _ _ (fun _ h3 => Keeps.skewTrip h3 _ _))

theorem Keeps.skewRelease {q : List Instr} {s : State} (h : Keeps q s) (d : ℕ) (x : ℕ) :
    Keeps q (State.skewRelease s d x) := by
  unfold State.skewRelease
  exact Keeps.flushPosted (Keeps.ite (Keeps.wr (Keeps.upd h _ _ _ _ _ _ _ _ _ _ _ _ _ _ _ _ _ _) _ _) (Keeps.foldl (fun _ _ h3 => Keeps.pumpPort h3 _) (Keeps.upd h _ _ _ _ _ _ _ _ _ _ _ _ _ _ _ _ _ _)))

theorem Keeps.calDues {q : List Instr} {s : State} (h : Keeps q s) (core : ℕ) (t : ℕ) :
    Keeps q (State.calDues s core t) := by
  unfold State.calDues
  exact Keeps.upd h _ _ _ _ _ _ _ _ _ _ _ _ _ _ _ _ _ _

theorem Keeps.guardDues {q : List Instr} {s : State} (h : Keeps q s) :
    Keeps q (State.guardDues s) := by
  unfold State.guardDues
  exact Keeps.upd h _ _ _ _ _ _ _ _ _ _ _ _ _ _ _ _ _ _

theorem Keeps.takeReading {q : List Instr} {s : State} (h : Keeps q s) (r : ℕ × ℕ × ℕ) :
    Keeps q (State.takeReading s r) := by
  unfold State.takeReading
  exact Keeps.ite (Keeps.ite (Keeps.calDues (Keeps.upd h _ _ _ _ _ _ _ _ _ _ _ _ _ _ _ _ _ _) _ _) h) (Keeps.ite (Keeps.ite (Keeps.guardDues (Keeps.upd (Keeps.wr h _ _) _ _ _ _ _ _ _ _ _ _ _ _ _ _ _ _ _ _)) (Keeps.wr h _ _)) h)

theorem Keeps.seeDomain {q : List Instr} {s : State} (h : Keeps q s) (d : ℕ) :
    Keeps q (State.seeDomain s d) := by
  unfold State.seeDomain
  exact Keeps.ite (Keeps.wr (Keeps.wr h _ _) _ _) (Keeps.wr h _ _)

theorem Keeps.seeHot {q : List Instr} {s : State} (h : Keeps q s) :
    Keeps q (State.seeHot s) := by
  unfold State.seeHot
  exact Keeps.irq (Keeps.setFlag (Keeps.wr h _ _) _ _) _ _

theorem Keeps.seeSpreads {q : List Instr} {s : State} (h : Keeps q s) :
    Keeps q (State.seeSpreads s) := by
  unfold State.seeSpreads
  exact Keeps.foldl (fun _ _ h3 => Keeps.ite (Keeps.raise h3 _ _ _ _ _) (Keeps.raise h3 _ _ _ _ _)) (Keeps.upd (Keeps.foldl (fun _ _ h3 => Keeps.ite (Keeps.bump (Keeps.wr (Keeps.wr h3 _ _) _ _) _ _) (Keeps.wr (Keeps.wr h3 _ _) _ _)) h) _ _ _ _ _ _ _ _ _ _ _ _ _ _ _ _ _ _)

theorem Keeps.sample {q : List Instr} {s : State} (h : Keeps q s) (temps : List (ℕ × ℕ × ℕ)) :
    Keeps q (State.sample s temps) := by
  unfold State.sample
  exact Keeps.seeSpreads (Keeps.seeHot (Keeps.foldl (fun _ _ h3 => Keeps.seeDomain h3 _) (Keeps.foldl (fun _ _ h3 => Keeps.takeReading h3 _) h)))

theorem Keeps.execSensorSample {q : List Instr} {s : State} (h : Keeps q s) (temps : List (ℕ × ℕ × ℕ)) :
    KeepsO q (Sys2Proof.Machine.execSensorSample temps s) := by
  unfold Sys2Proof.Machine.execSensorSample
  exact KeepsO.done (Keeps.when h _ _ (fun _ h3 => Keeps.sample h3 _))

end Sys2Proof.Machine
end

