-- ==== Sys2Proof/Laws/KeepsHamper.lean ====
section
/-!
SUPPORT. What the operations of Machine/Hamper.lean keep.
-/

namespace Sys2Proof.Machine

theorem Keeps.keyFailed {q : List Instr} {s : State} (h : Keeps q s) :
    Keeps q (State.keyFailed s) := by
  unfold State.keyFailed
  exact Keeps.raiseTo h _ _ _ _ _ _ _

theorem Keeps.drawKey {q : List Instr} {s : State} (h : Keeps q s) (ok : Bool) :
    Keeps q (State.drawKey s ok).1 := by
  unfold State.drawKey
  exact Keeps.ite1 (Keeps.pair h) (Keeps.ite1 (Keeps.pair (Keeps.updMemory h (MemWf.upd (Keeps.memOf h) _ _ _ _ _ _ _ _ _ _ _ _ _ _) _ _ _ _ _ _ _ _ _ _ _ _ _ _ _ _ _ _)) (Keeps.pair (Keeps.keyFailed h)))

theorem Keeps.handDecks {q : List Instr} {s : State} (h : Keeps q s) (c : ℕ) (owner : ℕ) :
    Keeps q (State.handDecks s c owner) := by
  unfold State.handDecks
  exact Keeps.dropChecks (Keeps.foldl (fun _ _ h3 => Keeps.foldl (fun _ _ h5 => Keeps.modDeck h5 _ _ _) h3) h) _

theorem Keeps.allocCore {q : List Instr} {s : State} (h : Keeps q s) (i : ℕ) (c : ℕ) :
    Keeps q (State.allocCore s i c) := by
  unfold State.allocCore
  exact Keeps.setTag (Keeps.upd (Keeps.foldl (fun _ _ h3 => Keeps.periClear h3 _) (Keeps.handDecks h _ _)) _ _ _ _ _ _ _ _ _ _ _ _ _ _ _ _ _ _) _ _

theorem Keeps.dropLends {q : List Instr} {s : State} (h : Keeps q s) (p : LendJob → Bool) :
    Keeps q (State.dropLends s p) := by
  unfold State.dropLends
  exact Keeps.foldl (fun _ _ h3 => Keeps.complete h3 _ _ _) (Keeps.upd h _ _ _ _ _ _ _ _ _ _ _ _ _ _ _ _ _ _)

theorem Keeps.freeCore {q : List Instr} {s : State} (h : Keeps q s) (c : ℕ) :
    Keeps q (State.freeCore s c) := by
  unfold State.freeCore
  exact Keeps.upd (Keeps.foldl (fun _ _ h3 => Keeps.modEngine h3 _ _) (Keeps.handDecks (Keeps.dropLends (Keeps.foldl (fun _ _ h3 => Keeps.breakTarget h3 _ _ _) h) _) _ _)) _ _ _ _ _ _ _ _ _ _ _ _ _ _ _ _ _ _

theorem Keeps.assignUnit {q : List Instr} {s : State} (h : Keeps q s) (i : ℕ) (k : ℕ) :
    Keeps q (State.assignUnit s i k) := by
  unfold State.assignUnit
  exact Keeps.upd h _ _ _ _ _ _ _ _ _ _ _ _ _ _ _ _ _ _

theorem Keeps.applyHamper {q : List Instr} {s : State} (h : Keeps q s) (i : ℕ) (y_2 : Hamper) :
    Keeps q (State.applyHamper s i y_2) := by
  unfold State.applyHamper
  exact Keeps.foldl (fun _ _ h3 => Keeps.assignUnit h3 _ _) (Keeps.modInst (Keeps.foldl (fun _ _ h3 => Keeps.allocCore h3 _ _) (Keeps.upd (Keeps.foldl (fun _ _ h3 => Keeps.freeCore h3 _) h) _ _ _ _ _ _ _ _ _ _ _ _ _ _ _ _ _ _)) _ _)

theorem Keeps.resetStatus {q : List Instr} {s : State} (h : Keeps q s) (i : ℕ) :
    Keeps q (State.resetStatus s i) := by
  unfold State.resetStatus
  exact Keeps.resetRegs h _

theorem Keeps.resetPage {q : List Instr} {s : State} (h : Keeps q s) (i : ℕ) :
    Keeps q (State.resetPage s i) := by
  unfold State.resetPage
  exact Keeps.upd (Keeps.resetRegs h _) _ _ _ _ _ _ _ _ _ _ _ _ _ _ _ _ _ _

theorem Keeps.ringsOff {q : List Instr} {s : State} (h : Keeps q s) (i : ℕ) :
    Keeps q (State.ringsOff s i) := by
  unfold State.ringsOff
  exact Keeps.setFlag (Keeps.foldl (fun _ _ h3 => Keeps.setFlag (Keeps.setFlag h3 _ _) _ _) h) _ _

theorem Keeps.destroyNow {q : List Instr} {s : State} (h : Keeps q s) (i : ℕ) :
    Keeps q (State.destroyNow s i) := by
  unfold State.destroyNow
  exact Keeps.setInst (Keeps.resetStatus (Keeps.ringsOff (Keeps.upd (Keeps.writeOut (Keeps.foldl (fun _ _ h3 => Keeps.freeCore h3 _) (Keeps.foldl (fun _ _ h3 => Keeps.freeBuf h3 _) h)) _) _ _ _ _ _ _ _ _ _ _ _ _ _ _ _ _ _ _) _) _) _ _

theorem Keeps.instEnd {q : List Instr} {s : State} (h : Keeps q s) (status : ℕ) :
    Keeps q (State.instEnd s status) := by
  unfold State.instEnd
  exact Keeps.upd (Keeps.setFlag (Keeps.wr h _ _) _ _) _ _ _ _ _ _ _ _ _ _ _ _ _ _ _ _ _ _

theorem Keeps.resetAnswer {q : List Instr} {s : State} (h : Keeps q s) (i : ℕ) (status : ℕ) :
    Keeps q (State.resetAnswer s i status) := by
  unfold State.resetAnswer
  exact Keeps.ite (Keeps.instEnd (Keeps.foldl (fun _ _ h3 => Keeps.complete h3 _ _ _) (Keeps.modInst h _ _)) _) (Keeps.foldl (fun _ _ h3 => Keeps.complete h3 _ _ _) (Keeps.modInst h _ _))

theorem Keeps.copyStop {q : List Instr} {s : State} (h : Keeps q s) (i : ℕ) (j : DmaJob) :
    Keeps q (State.copyStop s i j) := by
  unfold State.copyStop
  exact Keeps.ite (Keeps.upd (Keeps.skip h _) _ _ _ _ _ _ _ _ _ _ _ _ _ _ _ _ _ _) (Keeps.ite (Keeps.upd (Keeps.upd (Keeps.skip h _) _ _ _ _ _ _ _ _ _ _ _ _ _ _ _ _ _ _) _ _ _ _ _ _ _ _ _ _ _ _ _ _ _ _ _ _) (Keeps.ite (Keeps.upd (Keeps.skip h _) _ _ _ _ _ _ _ _ _ _ _ _ _ _ _ _ _ _) (Keeps.dmaBlocks (Keeps.upd (Keeps.skip h _) _ _ _ _ _ _ _ _ _ _ _ _ _ _ _ _ _ _) _ _ _ _)))

theorem Keeps.dropWork {q : List Instr} {s : State} (h : Keeps q s) (i : ℕ) :
    Keeps q (State.dropWork s i) := by
  unfold State.dropWork
  exact Keeps.updMemory (Keeps.foldl (fun _ _ h3 => Keeps.wr h3 _ _) (Keeps.foldl (fun _ _ h3 => Keeps.dropDesc h3 _) (Keeps.foldl (fun _ _ h3 => Keeps.copyStop h3 _ _) h))) (MemWf.upd (Keeps.memOf (Keeps.foldl (fun _ _ h3 => Keeps.wr h3 _ _) (Keeps.foldl (fun _ _ h3 => Keeps.dropDesc h3 _) (Keeps.foldl (fun _ _ h3 => Keeps.copyStop h3 _ _) h)))) _ _ _ _ _ _ _ _ _ _ _ _ _ _) _ _ _ _ _ _ _ _ _ _ _ _ _ _ _ _ _ _

theorem Keeps.dropJobs {q : List Instr} {s : State} (h : Keeps q s) (i : ℕ) :
    Keeps q (State.dropJobs s i) := by
  unfold State.dropJobs
  exact Keeps.foldl (fun _ _ h3 => Keeps.gapEvent h3 _) (Keeps.foldl (fun _ _ h3 => Keeps.ite (Keeps.modEngine h3 _ _) (Keeps.unlend h3 _)) (Keeps.foldl (fun _ _ h3 => Keeps.modEngine h3 _ _) (Keeps.upd (Keeps.stopDarns h _) _ _ _ _ _ _ _ _ _ _ _ _ _ _ _ _ _ _)))

theorem Keeps.dropPegs {q : List Instr} {s : State} (h : Keeps q s) (i : ℕ) :
    Keeps q (State.dropPegs s i) := by
  unfold State.dropPegs
  exact Keeps.upd (Keeps.dropWaits h _) _ _ _ _ _ _ _ _ _ _ _ _ _ _ _ _ _ _

theorem Keeps.dropSteps {q : List Instr} {s : State} (h : Keeps q s) (i : ℕ) :
    Keeps q (State.dropSteps s i) := by
  unfold State.dropSteps
  exact Keeps.foldl (fun _ _ h3 => Keeps.setTag h3 _ _) (Keeps.foldl (fun _ _ h3 => Keeps.foldl (fun _ _ h5 => Keeps.dropBlocks (Keeps.dropWindow h5 _) _ _) h3) (Keeps.upd h _ _ _ _ _ _ _ _ _ _ _ _ _ _ _ _ _ _))

theorem Keeps.dropFrames {q : List Instr} {s : State} (h : Keeps q s) (i : ℕ) :
    Keeps q (State.dropFrames s i) := by
  unfold State.dropFrames
  exact Keeps.upd h _ _ _ _ _ _ _ _ _ _ _ _ _ _ _ _ _ _

theorem Keeps.resetStart {q : List Instr} {s : State} (h : Keeps q s) (i : ℕ) (keyOk : Bool) :
    Keeps q (State.resetStart s i keyOk) := by
  unfold State.resetStart
  exact Keeps.ite (Keeps.resetAnswer (Keeps.foldl (fun _ _ h3 => Keeps.sendFlit h3 _ _ _) (Keeps.modInst (Keeps.drawKey (Keeps.dropFrames (Keeps.dropPegs (Keeps.dropJobs (Keeps.dropSteps (Keeps.dropWork h _) _) _) _) _) _) _ _)) _ _) (Keeps.foldl (fun _ _ h3 => Keeps.sendFlit h3 _ _ _) (Keeps.modInst (Keeps.drawKey (Keeps.dropFrames (Keeps.dropPegs (Keeps.dropJobs (Keeps.dropSteps (Keeps.dropWork h _) _) _) _) _) _) _ _))

theorem Keeps.askReset {q : List Instr} {s : State} (h : Keeps q s) (i : ℕ) (desc : Option ℕ) (cmd : Bool) (flr : Bool) (destroy : Bool) (keyOk : Bool) :
    Keeps q (State.askReset s i desc cmd flr destroy keyOk) := by
  unfold State.askReset
  exact Keeps.ite (Keeps.resetStart (Keeps.modInst h _ _) _ _) (Keeps.modInst h _ _)

theorem Keeps.landStopped {q : List Instr} {s : State} (h : Keeps q s) (i : ℕ) :
    Keeps q (State.landStopped s i) := by
  unfold State.landStopped
  exact Keeps.foldl (fun _ _ h3 => Keeps.underOld (Keeps.skip h3 _) _ _ (fun _ h5 => Keeps.dmaBlocks h5 _ _ _ _)) (Keeps.upd h _ _ _ _ _ _ _ _ _ _ _ _ _ _ _ _ _ _)

theorem Keeps.rekeyWord {q : List Instr} {s : State} (h : Keeps q s) (i : ℕ) (w : ℕ × ℕ) :
    Keeps q (State.rekeyWord s i w) := by
  unfold State.rekeyWord
  try dsimp only
  split
  · exact h
  · exact Keeps.ite (Keeps.updMemory h (Mem.t2Write_wf (Keeps.memOf h) _ _ _) _ _ _ _ _ _ _ _ _ _ _ _ _ _ _ _ _ _) h

theorem Keeps.chainGen {q : List Instr} {s : State} (h : Keeps q s) (i : ℕ) :
    Keeps q (State.chainGen s i) := by
  unfold State.chainGen
  exact Keeps.ite h (Keeps.foldl (fun _ _ h3 => Keeps.sendFlit h3 _ _ _) (Keeps.wr h _ _))

theorem Keeps.resetEnd {q : List Instr} {s : State} (h : Keeps q s) (i : ℕ) :
    Keeps q (State.resetEnd s i) := by
  unfold State.resetEnd
  exact Keeps.ite (Keeps.instEnd (Keeps.foldl (fun _ _ h3 => Keeps.complete h3 _ _ _) (Keeps.ite (Keeps.destroyNow (Keeps.modInst (Keeps.ite (Keeps.raiseTo (Keeps.ite (Keeps.resetPage (Keeps.writeOut (Keeps.modInst (Keeps.chainGen (Keeps.foldl (fun _ _ h3 => Keeps.rekeyWord h3 _ _) (Keeps.landStopped h _)) _) _ _) _) _) (Keeps.resetStatus (Keeps.modInst (Keeps.chainGen (Keeps.foldl (fun _ _ h3 => Keeps.rekeyWord h3 _ _) (Keeps.landStopped h _)) _) _ _) _)) _ _ _ _ _ _ _) (Keeps.ite (Keeps.resetPage (Keeps.writeOut (Keeps.modInst (Keeps.chainGen (Keeps.foldl (fun _ _ h3 => Keeps.rekeyWord h3 _ _) (Keeps.landStopped h _)) _) _ _) _) _) (Keeps.resetStatus (Keeps.modInst (Keeps.chainGen (Keeps.foldl (fun _ _ h3 => Keeps.rekeyWord h3 _ _) (Keeps.landStopped h _)) _) _ _) _))) _ _) _) (Keeps.modInst (Keeps.ite (Keeps.raiseTo (Keeps.ite (Keeps.resetPage (Keeps.writeOut (Keeps.modInst (Keeps.chainGen (Keeps.foldl (fun _ _ h3 => Keeps.rekeyWord h3 _ _) (Keeps.landStopped h _)) _) _ _) _) _) (Keeps.resetStatus (Keeps.modInst (Keeps.chainGen (Keeps.foldl (fun _ _ h3 => Keeps.rekeyWord h3 _ _) (Keeps.landStopped h _)) _) _ _) _)) _ _ _ _ _ _ _) (Keeps.ite (Keeps.resetPage (Keeps.writeOut (Keeps.modInst (Keeps.chainGen (Keeps.foldl (fun _ _ h3 => Keeps.rekeyWord h3 _ _) (Keeps.landStopped h _)) _) _ _) _) _) (Keeps.resetStatus (Keeps.modInst (Keeps.chainGen (Keeps.foldl (fun _ _ h3 => Keeps.rekeyWord h3 _ _) (Keeps.landStopped h _)) _) _ _) _))) _ _))) _) (Keeps.foldl (fun _ _ h3 => Keeps.complete h3 _ _ _) (Keeps.ite (Keeps.destroyNow (Keeps.modInst (Keeps.ite (Keeps.raiseTo (Keeps.ite (Keeps.resetPage (Keeps.writeOut (Keeps.modInst (Keeps.chainGen (Keeps.foldl (fun _ _ h3 => Keeps.rekeyWord h3 _ _) (Keeps.landStopped h _)) _) _ _) _) _) (Keeps.resetStatus (Keeps.modInst (Keeps.chainGen (Keeps.foldl (fun _ _ h3 => Keeps.rekeyWord h3 _ _) (Keeps.landStopped h _)) _) _ _) _)) _ _ _ _ _ _ _) (Keeps.ite (Keeps.resetPage (Keeps.writeOut (Keeps.modInst (Keeps.chainGen (Keeps.foldl (fun _ _ h3 => Keeps.rekeyWord h3 _ _) (Keeps.landStopped h _)) _) _ _) _) _) (Keeps.resetStatus (Keeps.modInst (Keeps.chainGen (Keeps.foldl (fun _ _ h3 => Keeps.rekeyWord h3 _ _) (Keeps.landStopped h _)) _) _ _) _))) _ _) _) (Keeps.modInst (Keeps.ite (Keeps.raiseTo (Keeps.ite (Keeps.resetPage (Keeps.writeOut (Keeps.modInst (Keeps.chainGen (Keeps.foldl (fun _ _ h3 => Keeps.rekeyWord h3 _ _) (Keeps.landStopped h _)) _) _ _) _) _) (Keeps.resetStatus (Keeps.modInst (Keeps.chainGen (Keeps.foldl (fun _ _ h3 => Keeps.rekeyWord h3 _ _) (Keeps.landStopped h _)) _) _ _) _)) _ _ _ _ _ _ _) (Keeps.ite (Keeps.resetPage (Keeps.writeOut (Keeps.modInst (Keeps.chainGen (Keeps.foldl (fun _ _ h3 => Keeps.rekeyWord h3 _ _) (Keeps.landStopped h _)) _) _ _) _) _) (Keeps.resetStatus (Keeps.modInst (Keeps.chainGen (Keeps.foldl (fun _ _ h3 => Keeps.rekeyWord h3 _ _) (Keeps.landStopped h _)) _) _ _) _))) _ _)))

theorem Keeps.destroyVf {q : List Instr} {s : State} (h : Keeps q s) (i : ℕ) (keyOk : Bool) :
    Keeps q (State.destroyVf s i keyOk) := by
  unfold State.destroyVf
  try dsimp only
  split
  · exact h
  · exact Keeps.destroyNow h _
  · exact Keeps.askReset h _ _ _ _ _ _

end Sys2Proof.Machine
end

