-- ==== Sys2Proof/Laws/KeepsInstances.lean ====
section
/-!
SUPPORT. What the operations of Machine/Instances.lean keep.
-/

namespace Sys2Proof.Machine

theorem Keeps.resetDesc {q : List Instr} {s : State} (h : Keeps q s) (d : Desc) :
    Keeps q (State.resetDesc s d) := by
  unfold State.resetDesc
  exact Keeps.ite (Keeps.askReset (Keeps.bump h _ _) _ _ _ _ _ _) (Keeps.complete h _ _ _)

theorem Keeps.execInstReset {q : List Instr} {s : State} (h : Keeps q s) (f : ℕ) (w : ℕ) :
    KeepsO q (Sys2Proof.Machine.execInstReset f w s) := by
  unfold Sys2Proof.Machine.execInstReset
  exact KeepsO.unit (Keeps.onDesc h _ _ _ _ (fun _ _ h4 => Keeps.resetDesc h4 _))

theorem Keeps.stage {q : List Instr} {s : State} (h : Keeps q s) (i : ℕ) :
    Keeps q (State.stage s i) := by
  unfold State.stage
  exact Keeps.foldl (fun _ _ h3 => Keeps.wr h3 _ _) (Keeps.upd (Keeps.foldl (fun _ _ h3 => Keeps.wr h3 _ _) (Keeps.foldl (fun _ _ h3 => Keeps.wr h3 _ _) (Keeps.wr (Keeps.wr (Keeps.setFlag h _ _) _ _) _ _))) _ _ _ _ _ _ _ _ _ _ _ _ _ _ _ _ _ _)

theorem Keeps.writeInstSel {q : List Instr} {s : State} (h : Keeps q s) (v : ℕ) :
    Keeps q (State.writeInstSel s v) := by
  unfold State.writeInstSel
  exact Keeps.stage (Keeps.wr h _ _) _

theorem Keeps.execInstSelWrite {q : List Instr} {s : State} (h : Keeps q s) (value : ℕ) :
    KeepsO q (Sys2Proof.Machine.execInstSelWrite value s) := by
  unfold Sys2Proof.Machine.execInstSelWrite
  exact KeepsO.done (Keeps.when h _ _ (fun _ h3 => Keeps.cmdWrite h3 _ _ (fun _ h5 => Keeps.writeInstSel h5 _)))

theorem Keeps.instCreate {q : List Instr} {s : State} (h : Keeps q s) (i : ℕ) (keyOk : Bool) (res : Bool) :
    Keeps q (State.instCreate s i keyOk res) := by
  unfold State.instCreate
  exact Keeps.ite (Keeps.instEnd h _) (Keeps.ite (Keeps.instEnd h _) (Keeps.ite (Keeps.instEnd h _) (Keeps.ite (Keeps.instEnd (Keeps.drawKey h _) _) (Keeps.instEnd (Keeps.resetStatus (Keeps.applyHamper (Keeps.setInst (Keeps.drawKey h _) _ _) _ _) _) _))))

theorem Keeps.instApply {q : List Instr} {s : State} (h : Keeps q s) (i : ℕ) (res : Bool) :
    Keeps q (State.instApply s i res) := by
  unfold State.instApply
  exact Keeps.ite (Keeps.instEnd h _) (Keeps.ite (Keeps.instEnd h _) (Keeps.instEnd (Keeps.applyHamper h _ _) _))

theorem Keeps.instResetCmd {q : List Instr} {s : State} (h : Keeps q s) (i : ℕ) (keyOk : Bool) :
    Keeps q (State.instResetCmd s i keyOk) := by
  unfold State.instResetCmd
  exact Keeps.ite (Keeps.instEnd h _) (Keeps.ite (Keeps.askReset (Keeps.bump h _ _) _ _ _ _ _ _) (Keeps.instEnd h _))

theorem Keeps.instDestroy {q : List Instr} {s : State} (h : Keeps q s) (i : ℕ) (keyOk : Bool) :
    Keeps q (State.instDestroy s i keyOk) := by
  unfold State.instDestroy
  exact Keeps.ite (Keeps.instEnd h _) (by
    try dsimp only
    split
    · exact Keeps.instEnd h _
    · exact Keeps.instEnd (Keeps.destroyNow h _) _
    · exact Keeps.askReset h _ _ _ _ _ _)

theorem Keeps.instRun {q : List Instr} {s : State} (h : Keeps q s) (v : ℕ) (keyOk : Bool) :
    Keeps q (State.instRun s v keyOk) := by
  unfold State.instRun
  exact Keeps.ite (Keeps.instEnd h _) (Keeps.ite (Keeps.instCreate h _ _ _) (Keeps.ite (Keeps.instApply h _ _) (Keeps.ite (Keeps.instResetCmd h _ _) (Keeps.ite (Keeps.instDestroy h _ _) (Keeps.instEnd h _)))))

theorem Keeps.instGo {q : List Instr} {s : State} (h : Keeps q s) (op : ℕ) (keyOk : Bool) :
    Keeps q (State.instGo s op keyOk) := by
  unfold State.instGo
  exact Keeps.ite h (Keeps.ite (Keeps.instRun (Keeps.upd (Keeps.setFlag h _ _) _ _ _ _ _ _ _ _ _ _ _ _ _ _ _ _ _ _) _ _) (Keeps.upd (Keeps.upd (Keeps.setFlag h _ _) _ _ _ _ _ _ _ _ _ _ _ _ _ _ _ _ _ _) _ _ _ _ _ _ _ _ _ _ _ _ _ _ _ _ _ _))

theorem Keeps.instCmd {q : List Instr} {s : State} (h : Keeps q s) (op : ℕ) (keyOk : Bool) :
    Keeps q (State.instCmd s op keyOk) := by
  unfold State.instCmd
  exact Keeps.when h _ _ (fun _ h3 => Keeps.cmdWrite h3 _ _ (fun _ h5 => Keeps.instGo h5 _ _))

theorem Keeps.execCreate {q : List Instr} {s : State} (h : Keeps q s) (keyOk : Bool) :
    KeepsO q (Sys2Proof.Machine.execCreate keyOk s) := by
  unfold Sys2Proof.Machine.execCreate
  exact KeepsO.done (Keeps.instCmd h _ _)

theorem Keeps.execApply {q : List Instr} {s : State} (h : Keeps q s) :
    KeepsO q (Sys2Proof.Machine.execApply s) := by
  unfold Sys2Proof.Machine.execApply
  exact KeepsO.done (Keeps.instCmd h _ _)

theorem Keeps.execReset {q : List Instr} {s : State} (h : Keeps q s) (keyOk : Bool) :
    KeepsO q (Sys2Proof.Machine.execReset keyOk s) := by
  unfold Sys2Proof.Machine.execReset
  exact KeepsO.done (Keeps.instCmd h _ _)

theorem Keeps.execDestroy {q : List Instr} {s : State} (h : Keeps q s) (keyOk : Bool) :
    KeepsO q (Sys2Proof.Machine.execDestroy keyOk s) := by
  unfold Sys2Proof.Machine.execDestroy
  exact KeepsO.done (Keeps.instCmd h _ _)

theorem Keeps.inflightZero {q : List Instr} {s : State} (h : Keeps q s) (i : ℕ) :
    Keeps q (State.inflightZero s i) := by
  unfold State.inflightZero
  exact Keeps.when h _ _ (fun _ h3 => Keeps.resetEnd h3 _)

theorem Keeps.execInflightZero {q : List Instr} {s : State} (h : Keeps q s) (i : ℕ) :
    KeepsO q (Sys2Proof.Machine.execInflightZero i s) := by
  unfold Sys2Proof.Machine.execInflightZero
  exact KeepsO.unit (Keeps.inflightZero h _)

theorem Keeps.resetTimeout {q : List Instr} {s : State} (h : Keeps q s) (i : ℕ) :
    Keeps q (State.resetTimeout s i) := by
  unfold State.resetTimeout
  exact Keeps.ite (Keeps.resetAnswer (Keeps.raiseTo (Keeps.skip (Keeps.modInst h _ _) _) _ _ _ _ _ _ _) _ _) h

theorem Keeps.execInstResetTimeout {q : List Instr} {s : State} (h : Keeps q s) (i : ℕ) :
    KeepsO q (Sys2Proof.Machine.execInstResetTimeout i s) := by
  unfold Sys2Proof.Machine.execInstResetTimeout
  exact KeepsO.unit (Keeps.when h _ _ (fun _ h3 => Keeps.resetTimeout h3 _))

theorem Keeps.vfClear {q : List Instr} {s : State} (h : Keeps q s) (n : ℕ) (keyOk : Bool) :
    Keeps q (State.vfClear s n keyOk) := by
  unfold State.vfClear
  exact Keeps.ite (Keeps.foldl (fun _ _ h3 => Keeps.destroyVf h3 _ _) (Keeps.upd h _ _ _ _ _ _ _ _ _ _ _ _ _ _ _ _ _ _)) h

theorem Keeps.execVfEnableClear {q : List Instr} {s : State} (h : Keeps q s) (n : ℕ) (keyOk : Bool) :
    KeepsO q (Sys2Proof.Machine.execVfEnableClear n keyOk s) := by
  unfold Sys2Proof.Machine.execVfEnableClear
  exact KeepsO.done (Keeps.when h _ _ (fun _ h3 => Keeps.pcieTouch (Keeps.vfClear h3 _ _) _))

theorem Keeps.vfEnable {q : List Instr} {s : State} (h : Keeps q s) (n : ℕ) :
    Keeps q (State.vfEnable s n) := by
  unfold State.vfEnable
  exact Keeps.ite (Keeps.foldl (fun _ _ h3 => Keeps.ite (Keeps.modInst h3 _ _) h3) (Keeps.upd h _ _ _ _ _ _ _ _ _ _ _ _ _ _ _ _ _ _)) h

theorem Keeps.execVfEnable {q : List Instr} {s : State} (h : Keeps q s) (n : ℕ) :
    KeepsO q (Sys2Proof.Machine.execVfEnable n s) := by
  unfold Sys2Proof.Machine.execVfEnable
  exact KeepsO.unit (Keeps.when h _ _ (fun _ h3 => Keeps.pcieTouch (Keeps.vfEnable h3 _) _))

theorem Keeps.vfFlr {q : List Instr} {s : State} (h : Keeps q s) (i : ℕ) (keyOk : Bool) :
    Keeps q (State.vfFlr s i keyOk) := by
  unfold State.vfFlr
  exact Keeps.ite h (Keeps.ite (Keeps.askReset (Keeps.bump h _ _) _ _ _ _ _ _) (Keeps.resetPage (Keeps.writeOut (Keeps.bump h _ _) _) _))

theorem Keeps.execVfFlr {q : List Instr} {s : State} (h : Keeps q s) (i : ℕ) (keyOk : Bool) :
    KeepsO q (Sys2Proof.Machine.execVfFlr i keyOk s) := by
  unfold Sys2Proof.Machine.execVfFlr
  exact KeepsO.unit (Keeps.when h _ _ (fun _ h3 => Keeps.pcieTouch (Keeps.vfFlr h3 _ _) _))

theorem Keeps.pfFlr {q : List Instr} {s : State} (h : Keeps q s) (keyOk : Bool) :
    Keeps q (State.pfFlr s keyOk) := by
  unfold State.pfFlr
  exact Keeps.resetPage (Keeps.writeOut (Keeps.upd (Keeps.modInst (Keeps.dropFrames (Keeps.dropPegs (Keeps.dropJobs (Keeps.dropSteps (Keeps.dropWork (Keeps.foldl (fun _ _ h3 => Keeps.destroyVf h3 _ _) (Keeps.upd (Keeps.bump h _ _) _ _ _ _ _ _ _ _ _ _ _ _ _ _ _ _ _ _)) _) _) _) _) _) _ _) _ _ _ _ _ _ _ _ _ _ _ _ _ _ _ _ _ _) _) _

theorem Keeps.execPfFlr {q : List Instr} {s : State} (h : Keeps q s) (keyOk : Bool) :
    KeepsO q (Sys2Proof.Machine.execPfFlr keyOk s) := by
  unfold Sys2Proof.Machine.execPfFlr
  exact KeepsO.done (Keeps.when h _ _ (fun _ h3 => Keeps.pcieTouch (Keeps.pfFlr h3 _) _))

theorem Keeps.keyHealth {q : List Instr} {s : State} (h : Keeps q s) :
    Keeps q (State.keyHealth s) := by
  unfold State.keyHealth
  exact Keeps.ite h (Keeps.keyFailed (Keeps.updMemory h (MemWf.upd (Keeps.memOf h) _ _ _ _ _ _ _ _ _ _ _ _ _ _) _ _ _ _ _ _ _ _ _ _ _ _ _ _ _ _ _ _))

theorem Keeps.execKeyHealthTestFail {q : List Instr} {s : State} (h : Keeps q s) :
    KeepsO q (Sys2Proof.Machine.execKeyHealthTestFail s) := by
  unfold Sys2Proof.Machine.execKeyHealthTestFail
  exact KeepsO.done (Keeps.keyHealth h)

theorem Keeps.answer {q : List Instr} {s : State} (h : Keeps q s) (l : List ℕ) :
    Keeps q (State.answer s l) := by
  unfold State.answer
  exact Keeps.when h _ _ (fun _ h3 => Keeps.pcieTouch (Keeps.upd h3 _ _ _ _ _ _ _ _ _ _ _ _ _ _ _ _ _ _) _)

theorem Keeps.execGetVersion {q : List Instr} {s : State} (h : Keeps q s) :
    KeepsO q (Sys2Proof.Machine.execGetVersion s) := by
  unfold Sys2Proof.Machine.execGetVersion
  exact KeepsO.done (Keeps.answer h _)

theorem Keeps.execGetCapabilities {q : List Instr} {s : State} (h : Keeps q s) :
    KeepsO q (Sys2Proof.Machine.execGetCapabilities s) := by
  unfold Sys2Proof.Machine.execGetCapabilities
  exact KeepsO.done (Keeps.answer h _)

theorem Keeps.execNegotiateAlgorithms {q : List Instr} {s : State} (h : Keeps q s) :
    KeepsO q (Sys2Proof.Machine.execNegotiateAlgorithms s) := by
  unfold Sys2Proof.Machine.execNegotiateAlgorithms
  exact KeepsO.done (Keeps.answer h _)

theorem Keeps.execGetDigests {q : List Instr} {s : State} (h : Keeps q s) :
    KeepsO q (Sys2Proof.Machine.execGetDigests s) := by
  unfold Sys2Proof.Machine.execGetDigests
  exact KeepsO.done (Keeps.answer h _)

theorem Keeps.execGetCertificate {q : List Instr} {s : State} (h : Keeps q s) (slot : ℕ) (off : ℕ) (len : ℕ) :
    KeepsO q (Sys2Proof.Machine.execGetCertificate slot off len s) := by
  unfold Sys2Proof.Machine.execGetCertificate
  exact KeepsO.done (Keeps.answer h _)

theorem Keeps.execChallenge {q : List Instr} {s : State} (h : Keeps q s) (slot : ℕ) (nonce : ℕ) :
    KeepsO q (Sys2Proof.Machine.execChallenge slot nonce s) := by
  unfold Sys2Proof.Machine.execChallenge
  exact KeepsO.done (Keeps.ite (Keeps.answer (Keeps.skip h _) _) (Keeps.answer h _))

theorem Keeps.measurements {q : List Instr} {s : State} (h : Keeps q s) (index : ℕ) (sign : Bool) (nonce : ℕ) :
    Keeps q (State.measurements s index sign nonce) := by
  unfold State.measurements
  exact Keeps.ite (Keeps.ite (Keeps.answer (Keeps.skip h _) _) (Keeps.answer h _)) (Keeps.answer h _)

theorem Keeps.execGetMeasurements {q : List Instr} {s : State} (h : Keeps q s) (index : ℕ) (sign : Bool) (nonce : ℕ) :
    KeepsO q (Sys2Proof.Machine.execGetMeasurements index sign nonce s) := by
  unfold Sys2Proof.Machine.execGetMeasurements
  exact KeepsO.done (Keeps.measurements h _ _ _)

theorem Keeps.execSpdmUnsupportedRequest {q : List Instr} {s : State} (h : Keeps q s) (code : ℕ) :
    KeepsO q (Sys2Proof.Machine.execSpdmUnsupportedRequest code s) := by
  unfold Sys2Proof.Machine.execSpdmUnsupportedRequest
  exact KeepsO.done (Keeps.answer h _)

end Sys2Proof.Machine
end

