-- ==== Sys2Proof/Laws/KeepsGuardOps.lean ====
section
/-!
SUPPORT. What the operations of Machine/GuardOps.lean keep.
-/

namespace Sys2Proof.Machine

theorem Keeps.setGstream {q : List Instr} {s : State} (h : Keeps q s) (n : ℕ) (v : GStream) :
    Keeps q (State.setGstream s n v) := by
  unfold State.setGstream
  exact Keeps.upd h _ _ _ _ _ _ _ _ _ _ _ _ _ _ _ _ _ _

theorem Keeps.setCmp {q : List Instr} {s : State} (h : Keeps q s) (c : ℕ) (v : Comparator) :
    Keeps q (State.setCmp s c v) := by
  unfold State.setCmp
  exact Keeps.upd h _ _ _ _ _ _ _ _ _ _ _ _ _ _ _ _ _ _

theorem Keeps.gEval {q : List Instr} {s : State} (h : Keeps q s) (l : ℕ) (w : ℕ) :
    Keeps q (State.gEval s l w).1 := by
  unfold State.gEval
  exact Keeps.pair (Keeps.skip h _)

theorem Keeps.gStep {q : List Instr} {s : State} (h : Keeps q s) (l : ℕ) (w : ℕ) :
    Keeps q (State.gStep s l w) := by
  unfold State.gStep
  exact Keeps.ite (Keeps.setLane (Keeps.gEval h _ _) _ _) (Keeps.ite (Keeps.setLane h _ _) (Keeps.ite (Keeps.setLane h _ _) (Keeps.ite (Keeps.setLane h _ _) (Keeps.ite (by
    try dsimp only
    split
    · exact Keeps.setLane h _ _
    · exact h) (Keeps.ite (Keeps.setLane h _ _) (Keeps.ite (Keeps.ite (Keeps.setLane h _ _) h) h))))))

theorem Keeps.gRun {q : List Instr} {s : State} (h : Keeps q s) (l : ℕ) (p : List ℕ) :
    Keeps q (State.gRun s l p) := by
  unfold State.gRun
  exact Keeps.foldl (fun _ _ h3 => Keeps.gStep h3 _ _) h

theorem Keeps.orStage {q : List Instr} {s : State} (h : Keeps q s) :
    Keeps q (State.orStage s) := by
  unfold State.orStage
  exact Keeps.ite (Keeps.upd h _ _ _ _ _ _ _ _ _ _ _ _ _ _ _ _ _ _) (Keeps.upd (Keeps.wr (Keeps.foldl (fun _ _ h3 => Keeps.ite (Keeps.modLane h3 _ _) (Keeps.ite (Keeps.modLane h3 _ _) h3)) h) _ _) _ _ _ _ _ _ _ _ _ _ _ _ _ _ _ _ _ _)

theorem Keeps.laneStops {q : List Instr} {s : State} (h : Keeps q s) (l : ℕ) :
    Keeps q (State.laneStops s l) := by
  unfold State.laneStops
  exact Keeps.wr (Keeps.modLane h _ _) _ _

theorem Keeps.writeGuardAper {q : List Instr} {s : State} (h : Keeps q s) (o : ℕ) (v : ℕ) :
    Keeps q (State.writeGuardAper s o v) := by
  unfold State.writeGuardAper
  exact Keeps.ite h (Keeps.ite (Keeps.setFlag h _ _) (Keeps.ite (Keeps.ite (Keeps.setPeri h _ _ _) h) (Keeps.upd (Keeps.modLane h _ _) _ _ _ _ _ _ _ _ _ _ _ _ _ _ _ _ _ _)))

end Sys2Proof.Machine
end

