-- ==== Sys2Proof/Laws/KeepsGuard.lean ====
section
/-!
SUPPORT. What the operations of Machine/Guard.lean keep.
-/

namespace Sys2Proof.Machine

theorem Keeps.frameProgram {q : List Instr} {s : State} (h : Keeps q s) (l : ℕ) (late : Bool) :
    Keeps q (State.frameProgram s l late) := by
  unfold State.frameProgram
  exact Keeps.ite (Keeps.gRun (Keeps.skip h _) _ _) (Keeps.gRun h _ _)

theorem Keeps.commitLane {q : List Instr} {s : State} (h : Keeps q s) (l : ℕ) (late : Bool) :
    Keeps q (State.commitLane s l late) := by
  unfold State.commitLane
  exact Keeps.ite (Keeps.raise (Keeps.bump (Keeps.bump (Keeps.bump (Keeps.bump (Keeps.wr (Keeps.setLane (Keeps.wr (Keeps.frameProgram h _ _) _ _) _ _) _ _) _ _) _ _) _ _) _ _) _ _ _ _ _) (Keeps.bump (Keeps.bump (Keeps.bump (Keeps.bump (Keeps.wr (Keeps.setLane (Keeps.wr (Keeps.frameProgram h _ _) _ _) _ _) _ _) _ _) _ _) _ _) _ _)

theorem Keeps.snapshot {q : List Instr} {s : State} (h : Keeps q s) (l : ℕ) :
    Keeps q (State.snapshot s l) := by
  unfold State.snapshot
  exact Keeps.modLane h _ _

theorem Keeps.ageStreams {q : List Instr} {s : State} (h : Keeps q s) :
    Keeps q (State.ageStreams s) := by
  unfold State.ageStreams
  exact Keeps.foldl (fun _ _ h3 => Keeps.setGstream h3 _ _) h

theorem Keeps.clearStreams {q : List Instr} {s : State} (h : Keeps q s) :
    Keeps q (State.clearStreams s) := by
  unfold State.clearStreams
  exact Keeps.foldl (fun _ _ h3 => Keeps.setGstream h3 _ _) h

theorem Keeps.slackEnds {q : List Instr} {s : State} (h : Keeps q s) (l : ℕ) :
    Keeps q (State.slackEnds s l) := by
  unfold State.slackEnds
  exact Keeps.foldl (fun _ _ h3 => Keeps.setPeri h3 _ _ _) (Keeps.setLane h _ _)

theorem Keeps.boundary {q : List Instr} {s : State} (h : Keeps q s) (late : List ℕ) :
    Keeps q (State.boundary s late) := by
  unfold State.boundary
  exact Keeps.clearStreams (Keeps.upd (Keeps.foldl (fun _ _ h3 => Keeps.snapshot h3 _) (Keeps.ageStreams (Keeps.foldl (fun _ _ h3 => Keeps.slackEnds h3 _) (Keeps.foldl (fun _ _ h3 => Keeps.wake h3 _ _) (Keeps.orStage (Keeps.upd (Keeps.foldl (fun _ _ h3 => Keeps.commitLane h3 _ _) (Keeps.wr (Keeps.bumpWrap (Keeps.foldl (fun _ _ h3 => Keeps.laneStops h3 _) h) _ _) _ _)) _ _ _ _ _ _ _ _ _ _ _ _ _ _ _ _ _ _)))))) _ _ _ _ _ _ _ _ _ _ _ _ _ _ _ _ _ _)

theorem Keeps.execFrameBoundary {q : List Instr} {s : State} (h : Keeps q s) (late : List ℕ) :
    KeepsO q (Sys2Proof.Machine.execFrameBoundary late s) := by
  unfold Sys2Proof.Machine.execFrameBoundary
  exact KeepsO.done (Keeps.when h _ _ (fun _ h3 => Keeps.boundary h3 _))

theorem Keeps.oscTrim {q : List Instr} {s : State} (h : Keeps q s) :
    Keeps q (State.oscTrim s) := by
  unfold State.oscTrim
  exact Keeps.ite (Keeps.setFlag (Keeps.upd h _ _ _ _ _ _ _ _ _ _ _ _ _ _ _ _ _ _) _ _) h

theorem Keeps.execGuardOscTrim {q : List Instr} {s : State} (h : Keeps q s) :
    KeepsO q (Sys2Proof.Machine.execGuardOscTrim s) := by
  unfold Sys2Proof.Machine.execGuardOscTrim
  exact KeepsO.done (Keeps.when h _ _ (fun _ h3 => Keeps.oscTrim h3))

theorem Keeps.gSample {q : List Instr} {s : State} (h : Keeps q s) (p : ℕ) (n : ℕ) (v : ℤ) :
    Keeps q (State.gSample s p n v) := by
  unfold State.gSample
  exact Keeps.ite (Keeps.setGstream h _ _) (Keeps.bump (Keeps.setGstream h _ _) _ _)

theorem Keeps.fspWhole {q : List Instr} {s : State} (h : Keeps q s) (p : ℕ) (ws : List ℕ) :
    Keeps q (State.fspWhole s p ws) := by
  unfold State.fspWhole
  exact Keeps.ite (Keeps.bump h _ _) (Keeps.foldl (fun _ _ h3 => Keeps.gSample h3 _ _ _) (Keeps.setGstream (Keeps.bump h _ _) _ _))

theorem Keeps.fspScan {q : List Instr} {s : State} (h : Keeps q s) (y_0 : ℕ) (y_2 : ℕ) (y_3 : List ℕ) :
    Keeps q (State.fspScan y_0 s y_2 y_3).1 := by
  induction y_0 generalizing s y_2 y_3 with
  | zero =>
    unfold State.fspScan
    exact Keeps.pair h
  | succ n_ ih =>
    unfold State.fspScan
    exact Keeps.ite1 (Keeps.pair h) (Keeps.ite1 (ih h _ _) (Keeps.ite1 (Keeps.pair h) (ih (Keeps.fspWhole h _ _) _ _)))

theorem Keeps.fspPacket {q : List Instr} {s : State} (h : Keeps q s) (p : ℕ) (ws : List ℕ) :
    Keeps q (State.fspPacket s p ws) := by
  unfold State.fspPacket
  exact Keeps.upd (Keeps.fspScan (Keeps.setFlag h _ _) _ _ _) _ _ _ _ _ _ _ _ _ _ _ _ _ _ _ _ _ _

theorem Keeps.execFspPacket {q : List Instr} {s : State} (h : Keeps q s) (port : ℕ) (pkt : List ℕ) :
    KeepsO q (Sys2Proof.Machine.execFspPacket port pkt s) := by
  unfold Sys2Proof.Machine.execFspPacket
  exact KeepsO.unit (Keeps.when h _ _ (fun _ h3 => Keeps.fspPacket h3 _ _))

theorem Keeps.execFspClockLoss {q : List Instr} {s : State} (h : Keeps q s) (port : ℕ) :
    KeepsO q (Sys2Proof.Machine.execFspClockLoss port s) := by
  unfold Sys2Proof.Machine.execFspClockLoss
  exact KeepsO.unit (Keeps.setFlag h _ _)

theorem Keeps.guardFaults {q : List Instr} {s : State} (h : Keeps q s) (l : ℕ) (e : ℕ) (cols : List ℕ) :
    Keeps q (State.guardFaults s l e cols) := by
  unfold State.guardFaults
  exact Keeps.foldl (fun _ _ h3 => Keeps.raiseTo (Keeps.modDeck h3 _ _ _) _ _ _ _ _ _ _) h

theorem Keeps.guardCheck {q : List Instr} {s : State} (h : Keeps q s) (l : ℕ) :
    Keeps q (State.guardCheck s l) := by
  unfold State.guardCheck
  exact Keeps.ite (by
    try dsimp only
    split
    · exact Keeps.ite (Keeps.runVector (Keeps.setLane h _ _) _ _ _) (Keeps.modLane (Keeps.runVector (Keeps.setLane h _ _) _ _ _) _ _)
    · exact Keeps.runVector (Keeps.setLane h _ _) _ _ _) h

theorem Keeps.execGuardCheckEval {q : List Instr} {s : State} (h : Keeps q s) (l : ℕ) :
    KeepsO q (Sys2Proof.Machine.execGuardCheckEval l s) := by
  unfold Sys2Proof.Machine.execGuardCheckEval
  exact KeepsO.unit (Keeps.when h _ _ (fun _ h3 => Keeps.guardCheck h3 _))

theorem Keeps.guardRetry {q : List Instr} {s : State} (h : Keeps q s) (l : ℕ) :
    Keeps q (State.guardRetry s l) := by
  unfold State.guardRetry
  try dsimp only
  split
  · exact h
  · exact Keeps.ite h (Keeps.guardFaults (Keeps.runVector (Keeps.setLane h _ _) _ _ _) _ _ _)

theorem Keeps.execGuardCheckRetry {q : List Instr} {s : State} (h : Keeps q s) (l : ℕ) :
    KeepsO q (Sys2Proof.Machine.execGuardCheckRetry l s) := by
  unfold Sys2Proof.Machine.execGuardCheckRetry
  exact KeepsO.unit (Keeps.when h _ _ (fun _ h3 => Keeps.guardRetry h3 _))

theorem Keeps.holdTrims {q : List Instr} {s : State} (h : Keeps q s) (s2 : State) (l : ℕ) (g : ℕ) :
    Keeps q (State.holdTrims s s2 l g) := by
  unfold State.holdTrims
  exact Keeps.modLane (Keeps.upd h _ _ _ _ _ _ _ _ _ _ _ _ _ _ _ _ _ _) _ _

theorem Keeps.guardCal {q : List Instr} {s : State} (h : Keeps q s) (l : ℕ) (e : ℕ) :
    Keeps q (State.guardCal s l e) := by
  unfold State.guardCal
  exact Keeps.ite (Keeps.guardFaults (Keeps.holdTrims (Keeps.calibrate (Keeps.modLane h _ _) _ _ _) _ _ _) _ _ _) h

theorem Keeps.execGuardCalibration {q : List Instr} {s : State} (h : Keeps q s) (l : ℕ) (e : ℕ) :
    KeepsO q (Sys2Proof.Machine.execGuardCalibration l e s) := by
  unfold Sys2Proof.Machine.execGuardCalibration
  exact KeepsO.unit (Keeps.when h _ _ (fun _ h3 => Keeps.guardCal h3 _ _))

theorem Keeps.laneAccepted {q : List Instr} {s : State} (h : Keeps q s) (l : ℕ) :
    Keeps q (State.laneAccepted s l) := by
  unfold State.laneAccepted
  exact Keeps.wr (Keeps.foldl (fun _ _ h3 => Keeps.modDeck h3 _ _ _) (Keeps.modLane h _ _)) _ _

theorem Keeps.laneOn {q : List Instr} {s : State} (h : Keeps q s) (l : ℕ) :
    Keeps q (State.laneOn s l) := by
  unfold State.laneOn
  try dsimp only
  split
  · exact Keeps.laneAccepted h _
  · exact Keeps.wr (Keeps.wr (Keeps.wr h _ _) _ _) _ _

theorem Keeps.laneOff {q : List Instr} {s : State} (h : Keeps q s) (l : ℕ) :
    Keeps q (State.laneOff s l) := by
  unfold State.laneOff
  exact Keeps.wr (Keeps.modLane h _ _) _ _

theorem Keeps.laneBits {q : List Instr} {s : State} (h : Keeps q s) (v : ℕ) :
    Keeps q (State.laneBits s v) := by
  unfold State.laneBits
  exact Keeps.foldl (fun _ _ h3 => Keeps.ite h3 (Keeps.ite (Keeps.laneOn h3 _) (Keeps.laneOff h3 _))) h

theorem Keeps.overPort {q : List Instr} {s : State} (h : Keeps q s) (k : ℕ) (v : ℕ) (g : State → State) (hf_g : ∀ a0, Keeps q a0 → Keeps q (g a0)) :
    Keeps q (State.overPort s k v g) := by
  unfold State.overPort
  exact Keeps.ite (Keeps.upd h _ _ _ _ _ _ _ _ _ _ _ _ _ _ _ _ _ _) (hf_g _ (h))

theorem Keeps.writeGuardCtrl {q : List Instr} {s : State} (h : Keeps q s) (v : ℕ) :
    Keeps q (State.writeGuardCtrl s v) := by
  unfold State.writeGuardCtrl
  exact Keeps.ite (Keeps.ite (Keeps.overPort (Keeps.setFlag (Keeps.setFlag (Keeps.setFlag (Keeps.setFlag h _ _) _ _) _ _) _ _) _ _ _ (fun _ h3 => Keeps.laneBits h3 _)) (Keeps.setFlag (Keeps.setFlag (Keeps.setFlag (Keeps.setFlag h _ _) _ _) _ _) _ _)) (Keeps.upd (Keeps.ite (Keeps.overPort (Keeps.setFlag (Keeps.setFlag (Keeps.setFlag (Keeps.setFlag h _ _) _ _) _ _) _ _) _ _ _ (fun _ h3 => Keeps.laneBits h3 _)) (Keeps.setFlag (Keeps.setFlag (Keeps.setFlag (Keeps.setFlag h _ _) _ _) _ _) _ _)) _ _ _ _ _ _ _ _ _ _ _ _ _ _ _ _ _ _)

theorem Keeps.execLaneEnWrite {q : List Instr} {s : State} (h : Keeps q s) (value : ℕ) :
    KeepsO q (Sys2Proof.Machine.execLaneEnWrite value s) := by
  unfold Sys2Proof.Machine.execLaneEnWrite
  exact KeepsO.done (Keeps.when h _ _ (fun _ h3 => Keeps.cmdWrite h3 _ _ (fun _ h5 => Keeps.writeGuardCtrl h5 _)))

theorem Keeps.cmpOut {q : List Instr} {s : State} (h : Keeps q s) (c : ℕ) (trip : Bool) :
    Keeps q (State.cmpOut s c trip) := by
  unfold State.cmpOut
  exact Keeps.ite (Keeps.wake (Keeps.orStage (Keeps.wr (Keeps.setCmp h _ _) _ _)) _ _) (Keeps.orStage (Keeps.wr (Keeps.setCmp h _ _) _ _))

theorem Keeps.cmpEffect {q : List Instr} {s : State} (h : Keeps q s) (c : ℕ) :
    Keeps q (State.cmpEffect s c) := by
  unfold State.cmpEffect
  exact Keeps.cmpOut h _ _

theorem Keeps.crosstalk {q : List Instr} {s : State} (h : Keeps q s) (c : ℕ) :
    Keeps q (State.crosstalk s c) := by
  unfold State.crosstalk
  exact Keeps.foldl (fun _ _ h3 => Keeps.cmpEffect (Keeps.cmpOut h3 _ _) _) (Keeps.skip h _)

theorem Keeps.cmpInput {q : List Instr} {s : State} (h : Keeps q s) (c : ℕ) (vin : ℕ) :
    Keeps q (State.cmpInput s c vin) := by
  unfold State.cmpInput
  exact Keeps.ite (Keeps.crosstalk (Keeps.ite (Keeps.cmpEffect (Keeps.wr (Keeps.setCmp h _ _) _ _) _) (Keeps.wr (Keeps.setCmp h _ _) _ _)) _) (Keeps.ite (Keeps.cmpEffect (Keeps.wr (Keeps.setCmp h _ _) _ _) _) (Keeps.wr (Keeps.setCmp h _ _) _ _))

theorem Keeps.execComparatorTrip {q : List Instr} {s : State} (h : Keeps q s) (c : ℕ) (vin : ℕ) :
    KeepsO q (Sys2Proof.Machine.execComparatorTrip c vin s) := by
  unfold Sys2Proof.Machine.execComparatorTrip
  exact KeepsO.unit (Keeps.when h _ _ (fun _ h3 => Keeps.cmpInput h3 _ _))

theorem Keeps.cmpHeld {q : List Instr} {s : State} (h : Keeps q s) (c : ℕ) :
    Keeps q (State.cmpHeld s c) := by
  unfold State.cmpHeld
  exact Keeps.ite (Keeps.cmpEffect h _) h

theorem Keeps.execComparatorDeglitch {q : List Instr} {s : State} (h : Keeps q s) (c : ℕ) :
    KeepsO q (Sys2Proof.Machine.execComparatorDeglitch c s) := by
  unfold Sys2Proof.Machine.execComparatorDeglitch
  exact KeepsO.unit (Keeps.when h _ _ (fun _ h3 => Keeps.cmpHeld h3 _))

theorem Keeps.cmpReread {q : List Instr} {s : State} (h : Keeps q s) (c : ℕ) :
    Keeps q (State.cmpReread s c) := by
  unfold State.cmpReread
  exact Keeps.setCmp h _ _

theorem Keeps.writeCmpCfg {q : List Instr} {s : State} (h : Keeps q s) (c : ℕ) (v : ℕ) :
    Keeps q (State.writeCmpCfg s c v) := by
  unfold State.writeCmpCfg
  exact Keeps.ite (Keeps.cmpEffect (Keeps.ite (Keeps.setWord h _ _) (Keeps.cmpReread (Keeps.setWord h _ _) _)) _) (Keeps.ite (Keeps.setWord h _ _) (Keeps.cmpReread (Keeps.setWord h _ _) _))

theorem Keeps.execCmpCfgWrite {q : List Instr} {s : State} (h : Keeps q s) (c : ℕ) (value : ℕ) :
    KeepsO q (Sys2Proof.Machine.execCmpCfgWrite c value s) := by
  unfold Sys2Proof.Machine.execCmpCfgWrite
  exact KeepsO.unit (Keeps.when h _ _ (fun _ h3 => Keeps.cmdWrite h3 _ _ (fun _ h5 => Keeps.writeCmpCfg h5 _ _)))

theorem Keeps.writeLatched {q : List Instr} {s : State} (h : Keeps q s) (v : ℕ) :
    Keeps q (State.writeLatched s v) := by
  unfold State.writeLatched
  exact Keeps.orStage (Keeps.wr h _ _)

theorem Keeps.execLatchedClear {q : List Instr} {s : State} (h : Keeps q s) (value : ℕ) :
    KeepsO q (Sys2Proof.Machine.execLatchedClear value s) := by
  unfold Sys2Proof.Machine.execLatchedClear
  exact KeepsO.done (Keeps.when h _ _ (fun _ h3 => Keeps.cmdWrite h3 _ _ (fun _ h5 => Keeps.writeLatched h5 _)))

theorem Keeps.portLatch {q : List Instr} {s : State} (h : Keeps q s) (a : ℕ) :
    Keeps q (State.portLatch s a) := by
  unfold State.portLatch
  exact Keeps.upd h _ _ _ _ _ _ _ _ _ _ _ _ _ _ _ _ _ _

theorem Keeps.execGuardPortLatch {q : List Instr} {s : State} (h : Keeps q s) (a : ℕ) :
    KeepsO q (Sys2Proof.Machine.execGuardPortLatch a s) := by
  unfold Sys2Proof.Machine.execGuardPortLatch
  exact KeepsO.done (Keeps.portLatch h _)

theorem Keeps.execGpOeNRise {q : List Instr} {s : State} (h : Keeps q s) :
    KeepsO q (Sys2Proof.Machine.execGpOeNRise s) := by
  unfold Sys2Proof.Machine.execGpOeNRise
  exact KeepsO.done (Keeps.upd h _ _ _ _ _ _ _ _ _ _ _ _ _ _ _ _ _ _)

theorem Keeps.setBackup {q : List Instr} {s : State} (h : Keeps q s) (l : ℕ) (b : Backup) :
    Keeps q (State.setBackup s l b) := by
  unfold State.setBackup
  exact Keeps.upd h _ _ _ _ _ _ _ _ _ _ _ _ _ _ _ _ _ _

theorem Keeps.saveLane {q : List Instr} {s : State} (h : Keeps q s) (l : ℕ) (ok : Bool) :
    Keeps q (State.saveLane s l ok) := by
  unfold State.saveLane
  exact Keeps.setBackup h _ _

theorem Keeps.loadLane {q : List Instr} {s : State} (h : Keeps q s) (l : ℕ) :
    Keeps q (State.loadLane s l) := by
  unfold State.loadLane
  exact Keeps.modLane (Keeps.upd h _ _ _ _ _ _ _ _ _ _ _ _ _ _ _ _ _ _) _ _

theorem Keeps.saveHeader {q : List Instr} {s : State} (h : Keeps q s) (ok : Bool) :
    Keeps q (State.saveHeader s ok) := by
  unfold State.saveHeader
  exact Keeps.upd h _ _ _ _ _ _ _ _ _ _ _ _ _ _ _ _ _ _

theorem Keeps.loadHeader {q : List Instr} {s : State} (h : Keeps q s) :
    Keeps q (State.loadHeader s) := by
  unfold State.loadHeader
  exact Keeps.orStage (Keeps.ite (Keeps.setFlag (Keeps.foldl (fun _ _ h3 => Keeps.laneOn h3 _) (Keeps.setFlag (Keeps.setFlag (Keeps.setFlag (Keeps.foldl (fun _ _ h3 => Keeps.cmpEffect (Keeps.cmpReread h3 _) _) (Keeps.foldl (fun _ _ h3 => Keeps.setWord h3 _ _) h)) _ _) _ _) _ _)) _ _) (Keeps.foldl (fun _ _ h3 => Keeps.laneOn h3 _) (Keeps.setFlag (Keeps.setFlag (Keeps.setFlag (Keeps.foldl (fun _ _ h3 => Keeps.cmpEffect (Keeps.cmpReread h3 _) _) (Keeps.foldl (fun _ _ h3 => Keeps.setWord h3 _ _) h)) _ _) _ _) _ _)))

theorem Keeps.restoreClaim {q : List Instr} {s : State} (h : Keeps q s) (l : ℕ) (e : ℕ) (sec : List ℕ) :
    Keeps q (State.restoreClaim s l e sec) := by
  unfold State.restoreClaim
  exact Keeps.upd (Keeps.mirrorDeck (Keeps.modDeck h _ _ _) _ _) _ _ _ _ _ _ _ _ _ _ _ _ _ _ _ _ _ _

theorem Keeps.restoreTry {q : List Instr} {s : State} (h : Keeps q s) (l : ℕ) :
    Keeps q (State.restoreTry s l) := by
  unfold State.restoreTry
  try dsimp only
  split
  · exact h
  · exact Keeps.ite (Keeps.restoreClaim h _ _ _) h

theorem Keeps.darnStart {q : List Instr} {s : State} (h : Keeps q s) (l : ℕ) :
    Keeps q (State.darnStart s l) := by
  unfold State.darnStart
  exact Keeps.foldl (fun _ _ h3 => Keeps.darnColumns (Keeps.resumeDarns h3 _ _ _) _ _ _ _ _ _) h

theorem Keeps.laneCmdRun {q : List Instr} {s : State} (h : Keeps q s) (op : ℕ) (l : ℕ) :
    Keeps q (State.laneCmdRun s op l) := by
  unfold State.laneCmdRun
  exact Keeps.ite (Keeps.laneCmdEnd h _) (Keeps.ite (Keeps.restoreTry (Keeps.upd h _ _ _ _ _ _ _ _ _ _ _ _ _ _ _ _ _ _) _) (Keeps.ite (Keeps.darnStart (Keeps.upd h _ _ _ _ _ _ _ _ _ _ _ _ _ _ _ _ _ _) _) (Keeps.upd h _ _ _ _ _ _ _ _ _ _ _ _ _ _ _ _ _ _)))

theorem Keeps.guardLoad {q : List Instr} {s : State} (h : Keeps q s) :
    Keeps q (State.guardLoad s) := by
  unfold State.guardLoad
  exact Keeps.ite h (by
    try dsimp only
    split
    · exact Keeps.laneCmdRun (Keeps.upd (Keeps.setFlag (Keeps.ite (Keeps.loadHeader (Keeps.foldl (fun _ _ h3 => Keeps.ite (Keeps.loadLane h3 _) (Keeps.raise h3 _ _ _ _ _)) h)) (Keeps.foldl (fun _ _ h3 => Keeps.ite (Keeps.loadLane h3 _) (Keeps.raise h3 _ _ _ _ _)) h)) _ _) _ _ _ _ _ _ _ _ _ _ _ _ _ _ _ _ _ _) _ _
    · exact Keeps.setFlag (Keeps.ite (Keeps.loadHeader (Keeps.foldl (fun _ _ h3 => Keeps.ite (Keeps.loadLane h3 _) (Keeps.raise h3 _ _ _ _ _)) h)) (Keeps.foldl (fun _ _ h3 => Keeps.ite (Keeps.loadLane h3 _) (Keeps.raise h3 _ _ _ _ _)) h)) _ _)

theorem Keeps.execGuardLoad {q : List Instr} {s : State} (h : Keeps q s) :
    KeepsO q (Sys2Proof.Machine.execGuardLoad s) := by
  unfold Sys2Proof.Machine.execGuardLoad
  exact KeepsO.done (Keeps.when h _ _ (fun _ h3 => Keeps.guardLoad h3))

theorem Keeps.laneGo {q : List Instr} {s : State} (h : Keeps q s) (op : ℕ) (l : ℕ) :
    Keeps q (State.laneGo s op l) := by
  unfold State.laneGo
  exact Keeps.ite h (Keeps.ite (Keeps.laneCmdRun (Keeps.setFlag h _ _) _ _) (Keeps.upd (Keeps.setFlag h _ _) _ _ _ _ _ _ _ _ _ _ _ _ _ _ _ _ _ _))

theorem Keeps.laneCmd {q : List Instr} {s : State} (h : Keeps q s) (op : ℕ) (l : ℕ) :
    Keeps q (State.laneCmd s op l) := by
  unfold State.laneCmd
  exact Keeps.when h _ _ (fun _ h3 => Keeps.cmdWrite h3 _ _ (fun _ h5 => Keeps.overPort h5 _ _ _ (fun _ h7 => Keeps.laneGo h7 _ _)))

theorem Keeps.execSave {q : List Instr} {s : State} (h : Keeps q s) (l : ℕ) :
    KeepsO q (Sys2Proof.Machine.execSave l s) := by
  unfold Sys2Proof.Machine.execSave
  exact KeepsO.unit (Keeps.laneCmd h _ _)

theorem Keeps.execLoad {q : List Instr} {s : State} (h : Keeps q s) (l : ℕ) :
    KeepsO q (Sys2Proof.Machine.execLoad l s) := by
  unfold Sys2Proof.Machine.execLoad
  exact KeepsO.unit (Keeps.laneCmd h _ _)

theorem Keeps.execRestoreDecks {q : List Instr} {s : State} (h : Keeps q s) (l : ℕ) :
    KeepsO q (Sys2Proof.Machine.execRestoreDecks l s) := by
  unfold Sys2Proof.Machine.execRestoreDecks
  exact KeepsO.unit (Keeps.laneCmd h _ _)

theorem Keeps.execDarn {q : List Instr} {s : State} (h : Keeps q s) (l : ℕ) :
    KeepsO q (Sys2Proof.Machine.execDarn l s) := by
  unfold Sys2Proof.Machine.execDarn
  exact KeepsO.unit (Keeps.laneCmd h _ _)

theorem Keeps.execSaveGlobal {q : List Instr} {s : State} (h : Keeps q s) :
    KeepsO q (Sys2Proof.Machine.execSaveGlobal s) := by
  unfold Sys2Proof.Machine.execSaveGlobal
  exact KeepsO.done (Keeps.laneCmd h _ _)

theorem Keeps.fillDeck {q : List Instr} {s : State} (h : Keeps q s) (g : ℕ) (sec : List ℕ) :
    Keeps q (State.fillDeck s g sec) := by
  unfold State.fillDeck
  exact Keeps.foldl (fun _ _ h3 => Keeps.placeRow h3 _ _ _ _) h

theorem Keeps.restoreDeck {q : List Instr} {s : State} (h : Keeps q s) (l : ℕ) (e : ℕ) (sec : List ℕ) :
    Keeps q (State.restoreDeck s l e sec) := by
  unfold State.restoreDeck
  exact Keeps.localise (Keeps.calibrate (Keeps.mirrorDeck (Keeps.modDeck (Keeps.fillDeck h _ _) _ _ _) _ _) _ _ _) _ _ _ _ _

theorem Keeps.restoreAll {q : List Instr} {s : State} (h : Keeps q s) (l : ℕ) :
    Keeps q (State.restoreAll s l) := by
  unfold State.restoreAll
  exact Keeps.foldl (fun _ _ h3 => Keeps.restoreDeck (Keeps.ite h3 (Keeps.restoreClaim h3 _ _ _)) _ _ _) h

theorem Keeps.laneCmdDone {q : List Instr} {s : State} (h : Keeps q s) (status : ℕ) :
    Keeps q (State.laneCmdDone s status) := by
  unfold State.laneCmdDone
  try dsimp only
  split
  · exact h
  · exact Keeps.laneCmdEnd (Keeps.saveLane h _ _) _
  · exact Keeps.ite (Keeps.laneCmdEnd (Keeps.loadLane h _) _) (Keeps.laneCmdEnd h _)
  · exact Keeps.ite (Keeps.restoreTry h _) (Keeps.ite (Keeps.ite (Keeps.laneCmdEnd (Keeps.restoreAll (Keeps.restoreTry h _) _) _) (Keeps.restoreTry h _)) (Keeps.laneCmdEnd h _))
  · exact Keeps.ite h (Keeps.laneCmdEnd h _)
  · exact Keeps.laneCmdEnd (Keeps.saveHeader h _) _

theorem Keeps.execLaneCmdEnd {q : List Instr} {s : State} (h : Keeps q s) (status : ℕ) :
    KeepsO q (Sys2Proof.Machine.execLaneCmdEnd status s) := by
  unfold Sys2Proof.Machine.execLaneCmdEnd
  exact KeepsO.done (Keeps.when h _ _ (fun _ h3 => Keeps.laneCmdDone h3 _))

end Sys2Proof.Machine
end

