-- ==== Sys2Proof/Laws/KeepsCamera.lean ====
section
/-!
SUPPORT. What the operations of Machine/Camera.lean keep.
-/

namespace Sys2Proof.Machine

theorem Keeps.modCtx {q : List Instr} {s : State} (h : Keeps q s) (c : ℕ) (f : Ctx → Ctx) :
    Keeps q (State.modCtx s c f) := by
  unfold State.modCtx
  exact Keeps.upd h _ _ _ _ _ _ _ _ _ _ _ _ _ _ _ _ _ _

theorem Keeps.closeFrame {q : List Instr} {s : State} (h : Keeps q s) (c : ℕ) :
    Keeps q (State.closeFrame s c) := by
  unfold State.closeFrame
  try dsimp only
  split
  · exact h
  · exact Keeps.ite h (Keeps.wr (Keeps.wr (Keeps.ite (Keeps.msix (by
      try dsimp only
      split
      · exact Keeps.aliasTake (Keeps.modCtx (Keeps.t2Write h _ _ _ _) _ _) _ _ _ _ _ _
      · exact Keeps.modCtx (Keeps.t2Write h _ _ _ _) _ _) _ _) (by
      try dsimp only
      split
      · exact Keeps.aliasTake (Keeps.modCtx (Keeps.t2Write h _ _ _ _) _ _) _ _ _ _ _ _
      · exact Keeps.modCtx (Keeps.t2Write h _ _ _ _) _ _)) _ _) _ _)

theorem Keeps.cutFrame {q : List Instr} {s : State} (h : Keeps q s) (c : ℕ) (bits : List ℕ) :
    Keeps q (State.cutFrame s c bits) := by
  unfold State.cutFrame
  try dsimp only
  split
  · exact h
  · exact Keeps.ite (Keeps.bump (Keeps.modCtx h _ _) _ _) h

theorem Keeps.endFrame {q : List Instr} {s : State} (h : Keeps q s) (c : ℕ) :
    Keeps q (State.endFrame s c) := by
  unfold State.endFrame
  exact Keeps.closeFrame (Keeps.cutFrame h _ _) _

theorem Keeps.closeFrames {q : List Instr} {s : State} (h : Keeps q s) :
    Keeps q (State.closeFrames s) := by
  unfold State.closeFrames
  exact Keeps.foldl (fun _ _ h3 => Keeps.endFrame h3 _) h

theorem Keeps.execFrameClose {q : List Instr} {s : State} (h : Keeps q s) (c : ℕ) :
    KeepsO q (Sys2Proof.Machine.execFrameClose c s) := by
  unfold Sys2Proof.Machine.execFrameClose
  exact KeepsO.unit (Keeps.when h _ _ (fun _ h3 => Keeps.closeFrame h3 _))

theorem Keeps.unbindCtx {q : List Instr} {s : State} (h : Keeps q s) (c : ℕ) :
    Keeps q (State.unbindCtx s c) := by
  unfold State.unbindCtx
  exact Keeps.resetRegs (Keeps.upd (Keeps.endFrame h _) _ _ _ _ _ _ _ _ _ _ _ _ _ _ _ _ _ _) _

theorem Keeps.viewCtx {q : List Instr} {s : State} (h : Keeps q s) (c : ℕ) (x : Ctx) :
    Keeps q (State.viewCtx s c x) := by
  unfold State.viewCtx
  exact Keeps.wr (Keeps.wr (Keeps.wr (Keeps.wr h _ _) _ _) _ _) _ _

theorem Keeps.streamBind {q : List Instr} {s : State} (h : Keeps q s) (d : Desc) :
    Keeps q (State.streamBind s d) := by
  unfold State.streamBind
  exact Keeps.ite (Keeps.complete h _ _ _) (Keeps.ite (Keeps.complete (Keeps.unbindCtx h _) _ _ _) (Keeps.complete (Keeps.viewCtx (Keeps.resetRegs (Keeps.upd (Keeps.unbindCtx h _) _ _ _ _ _ _ _ _ _ _ _ _ _ _ _ _ _ _) _) _ _) _ _ _))

theorem Keeps.execStreamBind {q : List Instr} {s : State} (h : Keeps q s) (f : ℕ) (w : ℕ) :
    KeepsO q (Sys2Proof.Machine.execStreamBind f w s) := by
  unfold Sys2Proof.Machine.execStreamBind
  exact KeepsO.unit (Keeps.onDesc h _ _ _ _ (fun _ _ h4 => Keeps.streamBind h4 _))

theorem Keeps.eccFixed {q : List Instr} {s : State} (h : Keeps q s) (p : ℕ) (mine : Ctx → Bool) :
    Keeps q (State.eccFixed s p mine) := by
  unfold State.eccFixed
  exact Keeps.foldl (fun _ _ h3 => Keeps.modCtx h3 _ _) (Keeps.bump h _ _)

theorem Keeps.hdrLost {q : List Instr} {s : State} (h : Keeps q s) (p : ℕ) :
    Keeps q (State.hdrLost s p) := by
  unfold State.hdrLost
  exact Keeps.foldl (fun _ _ h3 => Keeps.modCtx h3 _ _) (Keeps.bump h _ _)

theorem Keeps.csiAlive {q : List Instr} {s : State} (h : Keeps q s) (p : ℕ) :
    Keeps q (State.csiAlive s p) := by
  unfold State.csiAlive
  exact Keeps.setFlag (Keeps.setFlag (Keeps.ite h (Keeps.wr (Keeps.skip h _) _ _)) _ _) _ _

theorem Keeps.beginFrame {q : List Instr} {s : State} (h : Keeps q s) (c : ℕ) (num : ℕ) (fixed : Bool) :
    Keeps q (State.beginFrame s c num fixed) := by
  unfold State.beginFrame
  try dsimp only
  split
  · exact h
  · exact Keeps.ite h (Keeps.ite (Keeps.bump h _ _) (Keeps.modCtx (Keeps.t2Write (Keeps.t2Write h _ _ _ _) _ _ _ _) _ _))

theorem Keeps.frameStart {q : List Instr} {s : State} (h : Keeps q s) (p : ℕ) (vc : ℕ) (num : ℕ) (hdr : ℕ) :
    Keeps q (State.frameStart s p vc num hdr) := by
  unfold State.frameStart
  exact Keeps.ite (Keeps.hdrLost (Keeps.csiAlive h _) _) (Keeps.foldl (fun _ _ h3 => Keeps.beginFrame h3 _ _ _) (Keeps.ite (Keeps.bump (Keeps.foldl (fun _ _ h3 => Keeps.endFrame h3 _) (Keeps.csiAlive h _)) _ _) (Keeps.foldl (fun _ _ h3 => Keeps.endFrame h3 _) (Keeps.csiAlive h _))))

theorem Keeps.execFrameStart {q : List Instr} {s : State} (h : Keeps q s) (p : ℕ) (vc : ℕ) (num : ℕ) (hdr : ℕ) :
    KeepsO q (Sys2Proof.Machine.execFrameStart p vc num hdr s) := by
  unfold Sys2Proof.Machine.execFrameStart
  exact KeepsO.unit (Keeps.when h _ _ (fun _ h3 => Keeps.frameStart h3 _ _ _ _))

theorem Keeps.storeLine {q : List Instr} {s : State} (h : Keeps q s) (c : ℕ) (bs : List ℕ) (crcBad : Bool) :
    Keeps q (State.storeLine s c bs crcBad) := by
  unfold State.storeLine
  try dsimp only
  split
  · exact h
  · exact Keeps.ite h (Keeps.ite (Keeps.bump (Keeps.modCtx h _ _) _ _) (Keeps.modCtx (Keeps.t2Write h _ _ _ _) _ _))

theorem Keeps.longPacket {q : List Instr} {s : State} (h : Keeps q s) (p : ℕ) (vc : ℕ) (dt : ℕ) (bs : List ℕ) (crcBad : Bool) (hdr : ℕ) :
    Keeps q (State.longPacket s p vc dt bs crcBad hdr) := by
  unfold State.longPacket
  exact Keeps.ite (Keeps.hdrLost h _) (Keeps.foldl (fun _ _ h3 => Keeps.storeLine h3 _ _ _) (Keeps.ite (Keeps.eccFixed h _ _) h))

theorem Keeps.execLongPacket {q : List Instr} {s : State} (h : Keeps q s) (p : ℕ) (vc : ℕ) (dt : ℕ) (bytes : List ℕ) (crcBad : Bool) (hdr : ℕ) :
    KeepsO q (Sys2Proof.Machine.execLongPacket p vc dt bytes crcBad hdr s) := by
  unfold Sys2Proof.Machine.execLongPacket
  exact KeepsO.unit (Keeps.when h _ _ (fun _ h3 => Keeps.longPacket h3 _ _ _ _ _ _))

theorem Keeps.frameEnd {q : List Instr} {s : State} (h : Keeps q s) (p : ℕ) (vc : ℕ) (hdr : ℕ) :
    Keeps q (State.frameEnd s p vc hdr) := by
  unfold State.frameEnd
  exact Keeps.ite (Keeps.hdrLost h _) (Keeps.ite (Keeps.bump (Keeps.ite (Keeps.eccFixed h _ _) h) _ _) (Keeps.foldl (fun _ _ h3 => Keeps.modCtx h3 _ _) (Keeps.ite (Keeps.eccFixed h _ _) h)))

theorem Keeps.execFrameEnd {q : List Instr} {s : State} (h : Keeps q s) (p : ℕ) (vc : ℕ) (_num : ℕ) (hdr : ℕ) :
    KeepsO q (Sys2Proof.Machine.execFrameEnd p vc _num hdr s) := by
  unfold Sys2Proof.Machine.execFrameEnd
  exact KeepsO.unit (Keeps.when h _ _ (fun _ h3 => Keeps.frameEnd h3 _ _ _))

theorem Keeps.frameTimeout {q : List Instr} {s : State} (h : Keeps q s) (c : ℕ) :
    Keeps q (State.frameTimeout s c) := by
  unfold State.frameTimeout
  try dsimp only
  split
  · exact h
  · exact Keeps.ite (Keeps.cutFrame h _ _) h

theorem Keeps.execFrameTimeout {q : List Instr} {s : State} (h : Keeps q s) (c : ℕ) :
    KeepsO q (Sys2Proof.Machine.execFrameTimeout c s) := by
  unfold Sys2Proof.Machine.execFrameTimeout
  exact KeepsO.unit (Keeps.when h _ _ (fun _ h3 => Keeps.frameTimeout h3 _))

theorem Keeps.linkError {q : List Instr} {s : State} (h : Keeps q s) (p : ℕ) (kind : ℕ) :
    Keeps q (State.linkError s p kind) := by
  unfold State.linkError
  exact Keeps.ite (Keeps.setFlag h _ _) (Keeps.foldl (fun _ _ h3 => Keeps.modCtx h3 _ _) (Keeps.bump (Keeps.setFlag h _ _) _ _))

theorem Keeps.execCsiLinkError {q : List Instr} {s : State} (h : Keeps q s) (p : ℕ) (kind : ℕ) :
    KeepsO q (Sys2Proof.Machine.execCsiLinkError p kind s) := by
  unfold Sys2Proof.Machine.execCsiLinkError
  exact KeepsO.unit (Keeps.when h _ _ (fun _ h3 => Keeps.linkError h3 _ _))

end Sys2Proof.Machine
end

