-- ==== Sys2Proof/Laws/KeepsVoltOps.lean ====
section
/-!
SUPPORT. What the operations of Machine/VoltOps.lean keep.
-/

namespace Sys2Proof.Machine

theorem Keeps.avsCommands {q : List Instr} {s : State} (h : Keeps q s) (b : ℕ) (n : ℕ) :
    Keeps q (State.avsCommands s b n) := by
  unfold State.avsCommands
  exact Keeps.bump h _ _

theorem Keeps.avsCommand {q : List Instr} {s : State} (h : Keeps q s) (b : ℕ) :
    Keeps q (State.avsCommand s b) := by
  unfold State.avsCommand
  exact Keeps.avsCommands h _ _

theorem Keeps.setAttempt {q : List Instr} {s : State} (h : Keeps q s) (r : ℕ) (n : ℕ) (k : ℕ) :
    Keeps q (State.setAttempt s r n k) := by
  unfold State.setAttempt
  exact Keeps.upd h _ _ _ _ _ _ _ _ _ _ _ _ _ _ _ _ _ _

theorem Keeps.voltStart {q : List Instr} {s : State} (h : Keeps q s) (r : ℕ) :
    Keeps q (State.voltStart s r) := by
  unfold State.voltStart
  exact Keeps.ite (by
    try dsimp only
    split
    · exact Keeps.avsCommand (Keeps.wr (Keeps.setAttempt h _ _ _) _ _) _
    · exact h) h

theorem Keeps.voltGo {q : List Instr} {s : State} (h : Keeps q s) :
    Keeps q (State.voltGo s) := by
  unfold State.voltGo
  exact Keeps.ite (Keeps.foldl (fun _ _ h3 => Keeps.voltStart h3 _) h) h

theorem Keeps.settle {q : List Instr} {s : State} (h : Keeps q s) (r : ℕ) (k : ℕ) :
    Keeps q (State.settle s r k) := by
  unfold State.settle
  exact Keeps.wr (Keeps.wr (Keeps.setAttempt h _ _ _) _ _) _ _

theorem Keeps.busCheck {q : List Instr} {s : State} (h : Keeps q s) (b : ℕ) :
    Keeps q (State.busCheck s b) := by
  unfold State.busCheck
  exact Keeps.ite (Keeps.raise (Keeps.setFlag h _ _) _ _ _ _ _) h

theorem Keeps.settleAll {q : List Instr} {s : State} (h : Keeps q s) :
    Keeps q (State.settleAll s) := by
  unfold State.settleAll
  exact Keeps.busCheck (Keeps.busCheck (Keeps.foldl (fun _ _ h3 => Keeps.settle h3 _ _) h) _) _

end Sys2Proof.Machine
end

