-- ==== Sys2Proof/Laws/KeepsPressOps.lean ====
section
/-!
SUPPORT. What the operations of Machine/PressOps.lean keep.
-/

namespace Sys2Proof.Machine

theorem Keeps.showCap {q : List Instr} {s : State} (h : Keeps q s) :
    Keeps q (State.showCap s) := by
  unfold State.showCap
  exact Keeps.wr h _ _

theorem Keeps.restartWindows {q : List Instr} {s : State} (h : Keeps q s) :
    Keeps q (State.restartWindows s) := by
  unfold State.restartWindows
  exact Keeps.upd (Keeps.showCap h) _ _ _ _ _ _ _ _ _ _ _ _ _ _ _ _ _ _

theorem Keeps.setWanted {q : List Instr} {s : State} (h : Keeps q s) (d : ℕ) (k : ℕ) :
    Keeps q (State.setWanted s d k) := by
  unfold State.setWanted
  exact Keeps.upd h _ _ _ _ _ _ _ _ _ _ _ _ _ _ _ _ _ _

theorem Keeps.setTarget {q : List Instr} {s : State} (h : Keeps q s) (r : ℕ) (k : ℕ) :
    Keeps q (State.setTarget s r k) := by
  unfold State.setTarget
  exact Keeps.ite h (Keeps.upd (Keeps.wr h _ _) _ _ _ _ _ _ _ _ _ _ _ _ _ _ _ _ _ _)

theorem Keeps.retarget {q : List Instr} {s : State} (h : Keeps q s) :
    Keeps q (State.retarget s) := by
  unfold State.retarget
  exact Keeps.ite h (Keeps.voltGo (Keeps.foldl (fun _ _ h3 => Keeps.setTarget h3 _ _) h))

theorem Keeps.forceLevel {q : List Instr} {s : State} (h : Keeps q s) (ds : List ℕ) :
    Keeps q (State.forceLevel s ds) := by
  unfold State.forceLevel
  exact Keeps.foldl (fun _ _ h3 => Keeps.wr (Keeps.wr h3 _ _) _ _) h

end Sys2Proof.Machine
end

