-- ==== Sys2Proof/Laws/KeepsVolt.lean ====
section
/-!
SUPPORT. What the operations of Machine/Volt.lean keep.
-/

namespace Sys2Proof.Machine

theorem Keeps.vdone {q : List Instr} {s : State} (h : Keeps q s) (r : ℕ) :
    Keeps q (State.vdone s r) := by
  unfold State.vdone
  exact Keeps.ite h (Keeps.voltGo (Keeps.busCheck (Keeps.avsCommand (Keeps.settle h _ _) _) _))

theorem Keeps.execAvsVdone {q : List Instr} {s : State} (h : Keeps q s) (rail : ℕ) :
    KeepsO q (Sys2Proof.Machine.execAvsVdone rail s) := by
  unfold Sys2Proof.Machine.execAvsVdone
  exact KeepsO.unit (Keeps.when h _ _ (fun _ h3 => Keeps.vdone h3 _))

theorem Keeps.attemptFails {q : List Instr} {s : State} (h : Keeps q s) (r : ℕ) :
    Keeps q (State.attemptFails s r) := by
  unfold State.attemptFails
  exact Keeps.ite h (Keeps.ite (Keeps.bump (Keeps.avsCommand (Keeps.wr (Keeps.setAttempt (Keeps.forceLevel h _) _ _ _) _ _) _) _ _) (Keeps.raise (Keeps.upd (Keeps.bump (Keeps.setFlag (Keeps.wr (Keeps.setAttempt (Keeps.forceLevel h _) _ _ _) _ _) _ _) _ _) _ _ _ _ _ _ _ _ _ _ _ _ _ _ _ _ _ _) _ _ _ _ _))

theorem Keeps.execAvsAttemptTimeout {q : List Instr} {s : State} (h : Keeps q s) (rail : ℕ) :
    KeepsO q (Sys2Proof.Machine.execAvsAttemptTimeout rail s) := by
  unfold Sys2Proof.Machine.execAvsAttemptTimeout
  exact KeepsO.unit (Keeps.when h _ _ (fun _ h3 => Keeps.attemptFails h3 _))

theorem Keeps.rejoin {q : List Instr} {s : State} (h : Keeps q s) (r : ℕ) (mv : ℕ) :
    Keeps q (State.rejoin s r mv) := by
  unfold State.rejoin
  exact Keeps.ite (Keeps.settle (Keeps.avsCommand h _) _ _) (Keeps.avsCommand (Keeps.wr (Keeps.setAttempt (Keeps.avsCommand h _) _ _ _) _ _) _)

theorem Keeps.probe {q : List Instr} {s : State} (h : Keeps q s) (b : ℕ) (ok : Bool) (mv : List ℕ) :
    Keeps q (State.probe s b ok mv) := by
  unfold State.probe
  exact Keeps.ite (Keeps.ite (Keeps.voltGo (Keeps.busCheck (Keeps.foldl (fun _ _ h3 => Keeps.rejoin h3 _ _) (Keeps.upd (Keeps.avsCommand h _) _ _ _ _ _ _ _ _ _ _ _ _ _ _ _ _ _ _)) _)) (Keeps.upd (Keeps.avsCommand h _) _ _ _ _ _ _ _ _ _ _ _ _ _ _ _ _ _ _)) h

theorem Keeps.execAvsProbe {q : List Instr} {s : State} (h : Keeps q s) (bus : ℕ) (ok : Bool) (mv : List ℕ) :
    KeepsO q (Sys2Proof.Machine.execAvsProbe bus ok mv s) := by
  unfold Sys2Proof.Machine.execAvsProbe
  exact KeepsO.unit (Keeps.when h _ _ (fun _ h3 => Keeps.probe h3 _ _ _))

theorem Keeps.writeRail {q : List Instr} {s : State} (h : Keeps q s) (r : ℕ) (v : ℕ) :
    Keeps q (State.writeRail s r v) := by
  unfold State.writeRail
  exact Keeps.ite h (Keeps.retarget (Keeps.wr (Keeps.wr h _ _) _ _))

theorem Keeps.voltTouch {q : List Instr} {s : State} (h : Keeps q s) :
    Keeps q (State.voltTouch s) := by
  unfold State.voltTouch
  exact Keeps.ite h (Keeps.pcieTouch h _)

theorem Keeps.execVoltRailWrite {q : List Instr} {s : State} (h : Keeps q s) (rail : ℕ) (value : ℕ) :
    KeepsO q (Sys2Proof.Machine.execVoltRailWrite rail value s) := by
  unfold Sys2Proof.Machine.execVoltRailWrite
  exact KeepsO.unit (Keeps.when h _ _ (fun _ h3 => Keeps.voltTouch (Keeps.writeRail (Keeps.dropHeld h3 _) _ _)))

theorem Keeps.commit {q : List Instr} {s : State} (h : Keeps q s) :
    Keeps q (State.commit s) := by
  unfold State.commit
  exact Keeps.ite (Keeps.upd (Keeps.setFlag (Keeps.bump (Keeps.wr h _ _) _ _) _ _) _ _ _ _ _ _ _ _ _ _ _ _ _ _ _ _ _ _) (Keeps.raise (Keeps.wr h _ _) _ _ _ _ _)

theorem Keeps.writeEntry {q : List Instr} {s : State} (h : Keeps q s) (k : ℕ) (v : ℕ) :
    Keeps q (State.writeEntry s k v) := by
  unfold State.writeEntry
  exact Keeps.ite h (Keeps.ite (Keeps.wr h _ _) (Keeps.ite (Keeps.commit (Keeps.setWord h _ _)) (Keeps.setWord h _ _)))

theorem Keeps.execLbEntryStage {q : List Instr} {s : State} (h : Keeps q s) (n : ℕ) (value : ℕ) :
    KeepsO q (Sys2Proof.Machine.execLbEntryStage n value s) := by
  unfold Sys2Proof.Machine.execLbEntryStage
  exact KeepsO.unit (Keeps.when h _ _ (fun _ h3 => Keeps.voltTouch (Keeps.writeEntry (Keeps.dropHeld h3 _) _ _)))

theorem Keeps.execLbEntryCommit {q : List Instr} {s : State} (h : Keeps q s) (value : ℕ) :
    KeepsO q (Sys2Proof.Machine.execLbEntryCommit value s) := by
  unfold Sys2Proof.Machine.execLbEntryCommit
  exact KeepsO.done (Keeps.when h _ _ (fun _ h3 => Keeps.voltTouch (Keeps.writeEntry (Keeps.dropHeld h3 _) _ _)))

end Sys2Proof.Machine
end

