-- ==== Sys2Proof/Laws/KeepsPress.lean ====
section
/-!
SUPPORT. What the operations of Machine/Press.lean keep.
-/

namespace Sys2Proof.Machine

theorem Keeps.addEnergy {q : List Instr} {s : State} (h : Keeps q s) (mw : ℕ) :
    Keeps q (State.addEnergy s mw) := by
  unfold State.addEnergy
  exact Keeps.bump (Keeps.upd h _ _ _ _ _ _ _ _ _ _ _ _ _ _ _ _ _ _) _ _

theorem Keeps.charge {q : List Instr} {s : State} (h : Keeps q s) (n : ℕ) (dies : List ℕ) (rail : ℕ) :
    Keeps q (State.charge s n dies rail) := by
  unfold State.charge
  exact Keeps.wr (Keeps.wr (Keeps.ite (Keeps.wr (Keeps.bump (Keeps.bump h _ _) _ _) _ _) (Keeps.wr (Keeps.wr (Keeps.wr (Keeps.bump h _ _) _ _) _ _) _ _)) _ _) _ _

theorem Keeps.forceDown {q : List Instr} {s : State} (h : Keeps q s) (a : List ℕ) :
    Keeps q (State.forceDown s a) := by
  unfold State.forceDown
  try dsimp only
  split
  · exact Keeps.ite (Keeps.upd h _ _ _ _ _ _ _ _ _ _ _ _ _ _ _ _ _ _) h
  · exact h

theorem Keeps.spans {q : List Instr} {s : State} (h : Keeps q s) :
    Keeps q (State.spans s) := by
  unfold State.spans
  exact Keeps.upd (Keeps.foldl (fun _ _ h3 => Keeps.upd h3 _ _ _ _ _ _ _ _ _ _ _ _ _ _ _ _ _ _) h) _ _ _ _ _ _ _ _ _ _ _ _ _ _ _ _ _ _

theorem Keeps.ageHints {q : List Instr} {s : State} (h : Keeps q s) (a : List ℕ) :
    Keeps q (State.ageHints s a) := by
  unfold State.ageHints
  exact Keeps.setFlag (Keeps.upd h _ _ _ _ _ _ _ _ _ _ _ _ _ _ _ _ _ _) _ _

theorem Keeps.addSums {q : List Instr} {s : State} (h : Keeps q s) (a : List ℕ) :
    Keeps q (State.addSums s a) := by
  unfold State.addSums
  exact Keeps.upd h _ _ _ _ _ _ _ _ _ _ _ _ _ _ _ _ _ _

theorem Keeps.tickStore {q : List Instr} {s : State} (h : Keeps q s) (a : List ℕ) (est : ℕ) (now : List ℕ) :
    Keeps q (State.tickStore s a est now) := by
  unfold State.tickStore
  exact Keeps.upd (Keeps.wr (Keeps.addEnergy (Keeps.addSums h _) _) _ _) _ _ _ _ _ _ _ _ _ _ _ _ _ _ _ _ _ _

theorem Keeps.tickLevels {q : List Instr} {s : State} (h : Keeps q s) (ds : List (ℕ × ℕ × ℕ × ℕ)) :
    Keeps q (State.tickLevels s ds) := by
  unfold State.tickLevels
  exact Keeps.foldl (fun _ _ h3 => Keeps.wr (Keeps.wr h3 _ _) _ _) h

theorem Keeps.tickCharge {q : List Instr} {s : State} (h : Keeps q s) (r : Option (ℕ × List ℕ)) (rail : Option ℕ) :
    Keeps q (State.tickCharge s r rail) := by
  unfold State.tickCharge
  try dsimp only
  split
  · exact Keeps.charge h _ _ _
  · exact Keeps.wr h _ _

theorem Keeps.tickFloor {q : List Instr} {s : State} (h : Keeps q s) (a : List ℕ) (est : ℕ) :
    Keeps q (State.tickFloor s a est) := by
  unfold State.tickFloor
  exact Keeps.ite (Keeps.wr (Keeps.forceDown h _) _ _) h

theorem Keeps.tickDecide {q : List Instr} {s : State} (h : Keeps q s) (a : List ℕ) (est : ℕ) :
    Keeps q (State.tickDecide s a est) := by
  unfold State.tickDecide
  exact Keeps.retarget (Keeps.spans (Keeps.ageHints (Keeps.tickFloor (Keeps.tickCharge (Keeps.tickLevels h _) _ _) _ _) _))

theorem Keeps.tick {q : List Instr} {s : State} (h : Keeps q s) (a : List ℕ) :
    Keeps q (State.tick s a) := by
  unfold State.tick
  exact Keeps.tickDecide (Keeps.tickStore h _ _ _) _ _

theorem Keeps.pressTick {q : List Instr} {s : State} (h : Keeps q s) (a : List ℕ) :
    Keeps q (State.pressTick s a) := by
  unfold State.pressTick
  exact Keeps.ite h (Keeps.ite (Keeps.tick h _) (Keeps.ite (Keeps.addEnergy (Keeps.upd h _ _ _ _ _ _ _ _ _ _ _ _ _ _ _ _ _ _) _) h))

theorem Keeps.execPressTick {q : List Instr} {s : State} (h : Keeps q s) (est : List ℕ) :
    KeepsO q (Sys2Proof.Machine.execPressTick est s) := by
  unfold Sys2Proof.Machine.execPressTick
  exact KeepsO.done (Keeps.when h _ _ (fun _ h3 => Keeps.pressTick h3 _))

theorem Keeps.calibrateGains {q : List Instr} {s : State} (h : Keeps q s) (ma : List ℕ) :
    Keeps q (State.calibrateGains s ma) := by
  unfold State.calibrateGains
  exact Keeps.ite h (Keeps.setFlag (Keeps.upd (Keeps.foldl (fun _ _ h3 => Keeps.ite h3 (Keeps.wr h3 _ _)) (Keeps.ite (Keeps.ite h (Keeps.avsCommands h _ _)) (Keeps.avsCommands (Keeps.ite h (Keeps.avsCommands h _ _)) _ _))) _ _ _ _ _ _ _ _ _ _ _ _ _ _ _ _ _ _) _ _)

theorem Keeps.execPressCalibration {q : List Instr} {s : State} (h : Keeps q s) (ma : List ℕ) :
    KeepsO q (Sys2Proof.Machine.execPressCalibration ma s) := by
  unfold Sys2Proof.Machine.execPressCalibration
  exact KeepsO.done (Keeps.when h _ _ (fun _ h3 => Keeps.calibrateGains h3 _))

theorem Keeps.newSpan {q : List Instr} {s : State} (h : Keeps q s) (d : ℕ) :
    Keeps q (State.newSpan s d) := by
  unfold State.newSpan
  exact Keeps.upd h _ _ _ _ _ _ _ _ _ _ _ _ _ _ _ _ _ _

theorem Keeps.lowerPoint {q : List Instr} {s : State} (h : Keeps q s) (d : ℕ) :
    Keeps q (State.lowerPoint s d) := by
  unfold State.lowerPoint
  exact Keeps.ite (Keeps.retarget (Keeps.newSpan (Keeps.setWanted h _ _) _)) h

theorem Keeps.execVpointLower {q : List Instr} {s : State} (h : Keeps q s) (d : ℕ) :
    KeepsO q (Sys2Proof.Machine.execVpointLower d s) := by
  unfold Sys2Proof.Machine.execVpointLower
  exact KeepsO.unit (Keeps.lowerPoint h _)

theorem Keeps.raisePoint {q : List Instr} {s : State} (h : Keeps q s) (d : ℕ) :
    Keeps q (State.raisePoint s d) := by
  unfold State.raisePoint
  exact Keeps.ite (Keeps.retarget (Keeps.newSpan (Keeps.setWanted h _ _) _)) h

theorem Keeps.execVpointRaise {q : List Instr} {s : State} (h : Keeps q s) (d : ℕ) :
    KeepsO q (Sys2Proof.Machine.execVpointRaise d s) := by
  unfold Sys2Proof.Machine.execVpointRaise
  exact KeepsO.unit (Keeps.raisePoint h _)

theorem Keeps.alert {q : List Instr} {s : State} (h : Keeps q s) (n : ℕ) :
    Keeps q (State.alert s n) := by
  unfold State.alert
  exact Keeps.retarget (Keeps.forceLevel (Keeps.setFlag (Keeps.upd h _ _ _ _ _ _ _ _ _ _ _ _ _ _ _ _ _ _) _ _) _)

theorem Keeps.execVrAlertAssert {q : List Instr} {s : State} (h : Keeps q s) (n : ℕ) :
    KeepsO q (Sys2Proof.Machine.execVrAlertAssert n s) := by
  unfold Sys2Proof.Machine.execVrAlertAssert
  exact KeepsO.unit (Keeps.when h _ _ (fun _ h3 => Keeps.alert h3 _))

theorem Keeps.alertOff {q : List Instr} {s : State} (h : Keeps q s) (n : ℕ) :
    Keeps q (State.alertOff s n) := by
  unfold State.alertOff
  exact Keeps.ite (Keeps.setFlag (Keeps.upd h _ _ _ _ _ _ _ _ _ _ _ _ _ _ _ _ _ _) _ _) h

theorem Keeps.execVrAlertDeassert {q : List Instr} {s : State} (h : Keeps q s) (n : ℕ) :
    KeepsO q (Sys2Proof.Machine.execVrAlertDeassert n s) := by
  unfold Sys2Proof.Machine.execVrAlertDeassert
  exact KeepsO.unit (Keeps.when h _ _ (fun _ h3 => Keeps.alertOff h3 _))

theorem Keeps.alertEnds {q : List Instr} {s : State} (h : Keeps q s) (n : ℕ) :
    Keeps q (State.alertEnds s n) := by
  unfold State.alertEnds
  exact Keeps.ite (Keeps.retarget (Keeps.upd h _ _ _ _ _ _ _ _ _ _ _ _ _ _ _ _ _ _)) h

theorem Keeps.execVrAlertHoldEnd {q : List Instr} {s : State} (h : Keeps q s) (n : ℕ) :
    KeepsO q (Sys2Proof.Machine.execVrAlertHoldEnd n s) := by
  unfold Sys2Proof.Machine.execVrAlertHoldEnd
  exact KeepsO.unit (Keeps.when h _ _ (fun _ h3 => Keeps.alertEnds h3 _))

theorem Keeps.writeCap {q : List Instr} {s : State} (h : Keeps q s) (v : ℕ) :
    Keeps q (State.writeCap s v) := by
  unfold State.writeCap
  exact Keeps.restartWindows (Keeps.setWord h _ _)

theorem Keeps.execPressCapWrite {q : List Instr} {s : State} (h : Keeps q s) (value : ℕ) :
    KeepsO q (Sys2Proof.Machine.execPressCapWrite value s) := by
  unfold Sys2Proof.Machine.execPressCapWrite
  exact KeepsO.done (Keeps.when h _ _ (fun _ h3 => Keeps.cmdWrite h3 _ _ (fun _ h5 => Keeps.writeCap h5 _)))

theorem Keeps.writePressCtrl {q : List Instr} {s : State} (h : Keeps q s) (v : ℕ) :
    Keeps q (State.writePressCtrl s v) := by
  unfold State.writePressCtrl
  exact Keeps.retarget (Keeps.setWord h _ _)

theorem Keeps.powerHint {q : List Instr} {s : State} (h : Keeps q s) (d : Desc) :
    Keeps q (State.powerHint s d) := by
  unfold State.powerHint
  exact Keeps.complete (Keeps.ite (Keeps.upd h _ _ _ _ _ _ _ _ _ _ _ _ _ _ _ _ _ _) (Keeps.bump h _ _)) _ _ _

theorem Keeps.execPowerHint {q : List Instr} {s : State} (h : Keeps q s) (f : ℕ) (w : ℕ) :
    KeepsO q (Sys2Proof.Machine.execPowerHint f w s) := by
  unfold Sys2Proof.Machine.execPowerHint
  exact KeepsO.unit (Keeps.onDesc h _ _ _ _ (fun _ _ h4 => Keeps.powerHint h4 _))

theorem Keeps.hintStart {q : List Instr} {s : State} (h : Keeps q s) (k : ℕ) :
    Keeps q (State.hintStart s k) := by
  unfold State.hintStart
  try dsimp only
  split
  · exact h
  · exact Keeps.ite h (Keeps.ite (Keeps.retarget (Keeps.foldl (fun _ _ h3 => Keeps.setWanted h3 _ _) (Keeps.setFlag (Keeps.upd h _ _ _ _ _ _ _ _ _ _ _ _ _ _ _ _ _ _) _ _))) (Keeps.setFlag (Keeps.upd h _ _ _ _ _ _ _ _ _ _ _ _ _ _ _ _ _ _) _ _))

theorem Keeps.execHintStart {q : List Instr} {s : State} (h : Keeps q s) (k : ℕ) :
    KeepsO q (Sys2Proof.Machine.execHintStart k s) := by
  unfold Sys2Proof.Machine.execHintStart
  exact KeepsO.unit (Keeps.when h _ _ (fun _ h3 => Keeps.hintStart h3 _))

theorem Keeps.hintUnused {q : List Instr} {s : State} (h : Keeps q s) (k : ℕ) :
    Keeps q (State.hintUnused s k) := by
  unfold State.hintUnused
  try dsimp only
  split
  · exact h
  · exact Keeps.ite (Keeps.bump (Keeps.setFlag (Keeps.upd h _ _ _ _ _ _ _ _ _ _ _ _ _ _ _ _ _ _) _ _) _ _) h

theorem Keeps.execHintUnused {q : List Instr} {s : State} (h : Keeps q s) (k : ℕ) :
    KeepsO q (Sys2Proof.Machine.execHintUnused k s) := by
  unfold Sys2Proof.Machine.execHintUnused
  exact KeepsO.unit (Keeps.when h _ _ (fun _ h3 => Keeps.hintUnused h3 _))

theorem Keeps.floorEntry {q : List Instr} {s : State} (h : Keeps q s) :
    Keeps q (State.floorEntry s) := by
  unfold State.floorEntry
  exact Keeps.ite h (Keeps.irq (Keeps.raise (Keeps.wr (Keeps.setFlag h _ _) _ _) _ _ _ _ _) _ _)

theorem Keeps.execFloorEntry {q : List Instr} {s : State} (h : Keeps q s) :
    KeepsO q (Sys2Proof.Machine.execFloorEntry s) := by
  unfold Sys2Proof.Machine.execFloorEntry
  exact KeepsO.done (Keeps.when h _ _ (fun _ h3 => Keeps.floorEntry h3))

theorem Keeps.floorExit {q : List Instr} {s : State} (h : Keeps q s) :
    Keeps q (State.floorExit s) := by
  unfold State.floorExit
  exact Keeps.ite h (Keeps.retarget (Keeps.upd (Keeps.wr (Keeps.setFlag h _ _) _ _) _ _ _ _ _ _ _ _ _ _ _ _ _ _ _ _ _ _))

theorem Keeps.execFloorExit {q : List Instr} {s : State} (h : Keeps q s) :
    KeepsO q (Sys2Proof.Machine.execFloorExit s) := by
  unfold Sys2Proof.Machine.execFloorExit
  exact KeepsO.done (Keeps.when h _ _ (fun _ h3 => Keeps.floorExit h3))

theorem Keeps.takeBudget {q : List Instr} {s : State} (h : Keeps q s) (mw : ℕ) :
    Keeps q (State.takeBudget s mw) := by
  unfold State.takeBudget
  exact Keeps.ite (Keeps.showCap (Keeps.wr h _ _)) (Keeps.restartWindows (Keeps.wr h _ _))

theorem Keeps.sendBudgets {q : List Instr} {s : State} (h : Keeps q s) :
    Keeps q (State.sendBudgets s) := by
  unfold State.sendBudgets
  exact Keeps.foldl (fun _ _ h3 => Keeps.ite (Keeps.takeBudget h3 _) (Keeps.sendFlit h3 _ _ _)) h

theorem Keeps.writeChainTotal {q : List Instr} {s : State} (h : Keeps q s) (v : ℕ) :
    Keeps q (State.writeChainTotal s v) := by
  unfold State.writeChainTotal
  exact Keeps.ite h (Keeps.sendBudgets (Keeps.upd (Keeps.wr h _ _) _ _ _ _ _ _ _ _ _ _ _ _ _ _ _ _ _ _))

theorem Keeps.execChainTotalWrite {q : List Instr} {s : State} (h : Keeps q s) (value : ℕ) :
    KeepsO q (Sys2Proof.Machine.execChainTotalWrite value s) := by
  unfold Sys2Proof.Machine.execChainTotalWrite
  exact KeepsO.done (Keeps.when h _ _ (fun _ h3 => Keeps.cmdWrite h3 _ _ (fun _ h5 => Keeps.writeChainTotal h5 _)))

theorem Keeps.powerReport {q : List Instr} {s : State} (h : Keeps q s) :
    Keeps q (State.powerReport s) := by
  unfold State.powerReport
  exact Keeps.ite h (Keeps.ite (Keeps.upd (Keeps.wr (Keeps.upd h _ _ _ _ _ _ _ _ _ _ _ _ _ _ _ _ _ _) _ _) _ _ _ _ _ _ _ _ _ _ _ _ _ _ _ _ _ _) (Keeps.sendFlit (Keeps.wr (Keeps.upd h _ _ _ _ _ _ _ _ _ _ _ _ _ _ _ _ _ _) _ _) _ _ _))

theorem Keeps.execChainPowerReport {q : List Instr} {s : State} (h : Keeps q s) :
    KeepsO q (Sys2Proof.Machine.execChainPowerReport s) := by
  unfold Sys2Proof.Machine.execChainPowerReport
  exact KeepsO.done (Keeps.when h _ _ (fun _ h3 => Keeps.powerReport h3))

theorem Keeps.budgetShift {q : List Instr} {s : State} (h : Keeps q s) :
    Keeps q (State.budgetShift s) := by
  unfold State.budgetShift
  exact Keeps.ite h (Keeps.sendBudgets (by
    try dsimp only
    split
    · exact Keeps.ite (Keeps.upd (Keeps.upd h _ _ _ _ _ _ _ _ _ _ _ _ _ _ _ _ _ _) _ _ _ _ _ _ _ _ _ _ _ _ _ _ _ _ _ _) (Keeps.upd h _ _ _ _ _ _ _ _ _ _ _ _ _ _ _ _ _ _)
    · exact Keeps.upd h _ _ _ _ _ _ _ _ _ _ _ _ _ _ _ _ _ _))

theorem Keeps.execChainBudgetShift {q : List Instr} {s : State} (h : Keeps q s) :
    KeepsO q (Sys2Proof.Machine.execChainBudgetShift s) := by
  unfold Sys2Proof.Machine.execChainBudgetShift
  exact KeepsO.done (Keeps.when h _ _ (fun _ h3 => Keeps.budgetShift h3))

end Sys2Proof.Machine
end

