-- ==== Sys2Proof/Laws/KeepsStateLoss.lean ====
section
/-!
SUPPORT. What the operations of Machine/StateLoss.lean keep.
-/

namespace Sys2Proof.Machine

theorem Keeps.loseMemory {q : List Instr} {s : State} (h : Keeps q s) :
    Keeps q (State.loseMemory s) := by
  unfold State.loseMemory
  exact ⟨h.pending, h.regs, Tab.wf_nil _, Tab.wf_nil _, h.mem.t2, h.mem.host, blankGranules_wf h.mem.g0, blankGranules_wf h.mem.g1,
    h.mem.t2Key⟩

theorem Keeps.loseEngines {q : List Instr} {s : State} (h : Keeps q s) :
    Keeps q (State.loseEngines s) := by
  unfold State.loseEngines
  exact Keeps.upd h _ _ _ _ _ _ _ _ _ _ _ _ _ _ _ _ _ _

theorem Keeps.calAll {q : List Instr} {s : State} (h : Keeps q s) (p : ℕ → Bool) :
    Keeps q (State.calAll s p) := by
  unfold State.calAll
  exact Keeps.upd h _ _ _ _ _ _ _ _ _ _ _ _ _ _ _ _ _ _

theorem Keeps.losePegs {q : List Instr} {s : State} (h : Keeps q s) :
    Keeps q (State.losePegs s) := by
  unfold State.losePegs
  exact Keeps.upd h _ _ _ _ _ _ _ _ _ _ _ _ _ _ _ _ _ _

theorem Keeps.loseDies {q : List Instr} {s : State} (h : Keeps q s) :
    Keeps q (State.loseDies s) := by
  unfold State.loseDies
  exact Keeps.losePegs (Keeps.calAll (Keeps.loseEngines (Keeps.loseMemory h)) _)

theorem Keeps.resetLanes {q : List Instr} {s : State} (h : Keeps q s) :
    Keeps q (State.resetLanes s) := by
  unfold State.resetLanes
  exact Keeps.resetRegs (Keeps.wr (Keeps.foldl (fun _ _ h3 => Keeps.wr (Keeps.setWord h3 _ _) _ _) h) _ _) _

theorem Keeps.guardDown {q : List Instr} {s : State} (h : Keeps q s) (off : Bool) :
    Keeps q (State.guardDown s off) := by
  unfold State.guardDown
  exact Keeps.ite (Keeps.upd (Keeps.resetRegs (Keeps.upd (Keeps.calAll (Keeps.resetLanes (by
    try dsimp only
    split
    · exact Keeps.laneCmdEnd h _
    · exact Keeps.laneCmdEnd h _
    · exact Keeps.upd h _ _ _ _ _ _ _ _ _ _ _ _ _ _ _ _ _ _
    · exact h)) _) _ _ _ _ _ _ _ _ _ _ _ _ _ _ _ _ _ _) _) _ _ _ _ _ _ _ _ _ _ _ _ _ _ _ _ _ _) (Keeps.orStage (Keeps.upd (Keeps.calAll (Keeps.resetLanes (by
    try dsimp only
    split
    · exact Keeps.laneCmdEnd h _
    · exact Keeps.laneCmdEnd h _
    · exact Keeps.upd h _ _ _ _ _ _ _ _ _ _ _ _ _ _ _ _ _ _
    · exact h)) _) _ _ _ _ _ _ _ _ _ _ _ _ _ _ _ _ _ _))

theorem Keeps.guardUp {q : List Instr} {s : State} (h : Keeps q s) (cold : Bool) :
    Keeps q (State.guardUp s cold) := by
  unfold State.guardUp
  exact Keeps.ite h (Keeps.orStage (Keeps.upd (Keeps.wr (Keeps.setFlag h _ _) _ _) _ _ _ _ _ _ _ _ _ _ _ _ _ _ _ _ _ _))

theorem Keeps.loseChain {q : List Instr} {s : State} (h : Keeps q s) :
    Keeps q (State.loseChain s) := by
  unfold State.loseChain
  exact Keeps.upd (Keeps.resetRegs h _) _ _ _ _ _ _ _ _ _ _ _ _ _ _ _ _ _ _

theorem Keeps.loseWork {q : List Instr} {s : State} (h : Keeps q s) :
    Keeps q (State.loseWork s) := by
  unfold State.loseWork
  exact Keeps.updMemory h (MemWf.upd (Keeps.memOf h) _ _ _ _ _ _ _ _ _ _ _ _ _ _) _ _ _ _ _ _ _ _ _ _ _ _ _ _ _ _ _ _

theorem Keeps.loseEntries {q : List Instr} {s : State} (h : Keeps q s) :
    Keeps q (State.loseEntries s) := by
  unfold State.loseEntries
  exact Keeps.upd (Keeps.setFlag (Keeps.resetRegs h _) _ _) _ _ _ _ _ _ _ _ _ _ _ _ _ _ _ _ _ _

theorem Keeps.loseHub {q : List Instr} {s : State} (h : Keeps q s) :
    Keeps q (State.loseHub s) := by
  unfold State.loseHub
  exact Keeps.upd (Keeps.setFlag (Keeps.resetRegs (Keeps.loseChain (Keeps.loseWork h)) _) _ _) _ _ _ _ _ _ _ _ _ _ _ _ _ _ _ _ _ _

theorem Keeps.renew {q : List Instr} {s : State} (h : Keeps q s) (i : ℕ) (ok : Bool) (warm : Bool) :
    Keeps q (State.renew s i ok warm) := by
  unfold State.renew
  exact Keeps.ite h (Keeps.modInst (Keeps.drawKey h _) _ _)

theorem Keeps.renewAll {q : List Instr} {s : State} (h : Keeps q s) (ok : Bool) (warm : Bool) :
    Keeps q (State.renewAll s ok warm) := by
  unfold State.renewAll
  exact Keeps.upd (Keeps.foldl (fun _ _ h3 => Keeps.renew h3 _ _ _) h) _ _ _ _ _ _ _ _ _ _ _ _ _ _ _ _ _ _

theorem Keeps.deliverHeld {q : List Instr} {s : State} (h : Keeps q s) :
    Keeps q (State.deliverHeld s) := by
  unfold State.deliverHeld
  exact Keeps.foldl (fun _ _ h3 => Keeps.queueRecord (Keeps.ite (Keeps.logRecord h3 _) h3) _ _) (Keeps.upd h _ _ _ _ _ _ _ _ _ _ _ _ _ _ _ _ _ _)

theorem Keeps.openHems {q : List Instr} {s : State} (h : Keeps q s) :
    Keeps q (State.openHems s) := by
  unfold State.openHems
  exact Keeps.flushPosted (Keeps.upd h _ _ _ _ _ _ _ _ _ _ _ _ _ _ _ _ _ _)

end Sys2Proof.Machine
end

