-- ==== Sys2Proof/Laws/KeepsPower.lean ====
section
/-!
SUPPORT. What the operations of Machine/Power.lean keep.
-/

namespace Sys2Proof.Machine

theorem Keeps.startEntry {q : List Instr} {s : State} (h : Keeps q s) (t : PState) :
    Keeps q (State.startEntry s t) := by
  unfold State.startEntry
  exact Keeps.upd (Keeps.ite h (Keeps.closeFrames h)) _ _ _ _ _ _ _ _ _ _ _ _ _ _ _ _ _ _

theorem Keeps.request {q : List Instr} {s : State} (h : Keeps q s) (t : PState) :
    Keeps q (State.request s t) := by
  unfold State.request
  exact Keeps.ite h (by
    try dsimp only
    split
    · exact Keeps.startEntry h _
    · exact Keeps.ite h (Keeps.upd h _ _ _ _ _ _ _ _ _ _ _ _ _ _ _ _ _ _)
    · exact h)

theorem Keeps.entryResult {q : List Instr} {s : State} (h : Keeps q s) (outcome : ℕ) (block : ℕ) (reason : ℕ) :
    Keeps q (State.entryResult s outcome block reason) := by
  unfold State.entryResult
  exact Keeps.irq (Keeps.setWord64 (Keeps.setWord h _ _) _ _) _ _

theorem Keeps.endEntry' {q : List Instr} {s : State} (h : Keeps q s) :
    Keeps q (State.endEntry' s) := by
  unfold State.endEntry'
  exact Keeps.upd h _ _ _ _ _ _ _ _ _ _ _ _ _ _ _ _ _ _

theorem Keeps.abortEntry {q : List Instr} {s : State} (h : Keeps q s) (outcome : ℕ) (block : ℕ) (reason : ℕ) :
    Keeps q (State.abortEntry s outcome block reason) := by
  unfold State.abortEntry
  exact Keeps.openHems (Keeps.upd (Keeps.endEntry' (Keeps.entryResult h _ _ _)) _ _ _ _ _ _ _ _ _ _ _ _ _ _ _ _ _ _)

theorem Keeps.cancel {q : List Instr} {s : State} (h : Keeps q s) :
    Keeps q (State.cancel s) := by
  unfold State.cancel
  exact Keeps.ite (Keeps.abortEntry h _ _ _) h

theorem Keeps.writePstateReq {q : List Instr} {s : State} (h : Keeps q s) (v : ℕ) :
    Keeps q (State.writePstateReq s v) := by
  unfold State.writePstateReq
  exact Keeps.ite (by
    try dsimp only
    split
    · exact Keeps.cancel h
    · exact Keeps.request h _
    · exact Keeps.request h _
    · exact Keeps.request h _
    · exact Keeps.request h _
    · exact h) h

theorem Keeps.req {q : List Instr} {s : State} (h : Keeps q s) (target : ℕ) :
    Keeps q (State.req s target) := by
  unfold State.req
  exact Keeps.when h _ _ (fun _ h3 => Keeps.writePstateReq (Keeps.pcieTouch (Keeps.dropHeld h3 _) _) _)

theorem Keeps.execPstateReqRun {q : List Instr} {s : State} (h : Keeps q s) :
    KeepsO q (Sys2Proof.Machine.execPstateReqRun s) := by
  unfold Sys2Proof.Machine.execPstateReqRun
  exact KeepsO.done (Keeps.req h _)

theorem Keeps.execPstateReqIdle {q : List Instr} {s : State} (h : Keeps q s) :
    KeepsO q (Sys2Proof.Machine.execPstateReqIdle s) := by
  unfold Sys2Proof.Machine.execPstateReqIdle
  exact KeepsO.done (Keeps.req h _)

theorem Keeps.execPstateReqSleep {q : List Instr} {s : State} (h : Keeps q s) :
    KeepsO q (Sys2Proof.Machine.execPstateReqSleep s) := by
  unfold Sys2Proof.Machine.execPstateReqSleep
  exact KeepsO.done (Keeps.req h _)

theorem Keeps.execPstateReqDeep {q : List Instr} {s : State} (h : Keeps q s) :
    KeepsO q (Sys2Proof.Machine.execPstateReqDeep s) := by
  unfold Sys2Proof.Machine.execPstateReqDeep
  exact KeepsO.done (Keeps.req h _)

theorem Keeps.execPstateReqOff {q : List Instr} {s : State} (h : Keeps q s) :
    KeepsO q (Sys2Proof.Machine.execPstateReqOff s) := by
  unfold Sys2Proof.Machine.execPstateReqOff
  exact KeepsO.done (Keeps.req h _)

theorem Keeps.autoIdle {q : List Instr} {s : State} (h : Keeps q s) :
    Keeps q (State.autoIdle s) := by
  unfold State.autoIdle
  exact Keeps.ite (Keeps.startEntry h _) h

theorem Keeps.execAutoIdle {q : List Instr} {s : State} (h : Keeps q s) :
    KeepsO q (Sys2Proof.Machine.execAutoIdle s) := by
  unfold Sys2Proof.Machine.execAutoIdle
  exact KeepsO.done (Keeps.autoIdle h)

theorem Keeps.commitEntry {q : List Instr} {s : State} (h : Keeps q s) (t : PState) :
    Keeps q (State.commitEntry s t) := by
  unfold State.commitEntry
  exact Keeps.ite (Keeps.foldl (fun _ _ h3 => Keeps.sendOut h3 _ _) (Keeps.upd h _ _ _ _ _ _ _ _ _ _ _ _ _ _ _ _ _ _)) (Keeps.upd h _ _ _ _ _ _ _ _ _ _ _ _ _ _ _ _ _ _)

theorem Keeps.accepts {q : List Instr} {s : State} (h : Keeps q s) (t : PState) (b : ℕ) :
    Keeps q (State.accepts s t b) := by
  unfold State.accepts
  exact Keeps.ite (Keeps.commitEntry (Keeps.upd h _ _ _ _ _ _ _ _ _ _ _ _ _ _ _ _ _ _) _) (Keeps.ite (Keeps.irq (Keeps.upd (Keeps.upd h _ _ _ _ _ _ _ _ _ _ _ _ _ _ _ _ _ _) _ _ _ _ _ _ _ _ _ _ _ _ _ _ _ _ _ _) _ _) (Keeps.upd h _ _ _ _ _ _ _ _ _ _ _ _ _ _ _ _ _ _))

theorem Keeps.delays {q : List Instr} {s : State} (h : Keeps q s) (t : PState) (b : ℕ) :
    Keeps q (State.delays s t b) := by
  unfold State.delays
  exact Keeps.ite (Keeps.abortEntry h _ _ _) (Keeps.upd h _ _ _ _ _ _ _ _ _ _ _ _ _ _ _ _ _ _)

theorem Keeps.entryAnswer {q : List Instr} {s : State} (h : Keeps q s) (b : ℕ) :
    Keeps q (State.entryAnswer s b) := by
  unfold State.entryAnswer
  try dsimp only
  split
  · exact h
  · exact Keeps.ite h (by
      try dsimp only
      split
      · exact Keeps.accepts h _ _
      · exact Keeps.delays h _ _
      · exact Keeps.abortEntry h _ _ _
      · exact h)

theorem Keeps.execEntryAnswer {q : List Instr} {s : State} (h : Keeps q s) (b : ℕ) :
    KeepsO q (Sys2Proof.Machine.execEntryAnswer b s) := by
  unfold Sys2Proof.Machine.execEntryAnswer
  exact KeepsO.unit (Keeps.when h _ _ (fun _ h3 => Keeps.entryAnswer h3 _))

theorem Keeps.answerTimeout {q : List Instr} {s : State} (h : Keeps q s) (b : ℕ) :
    Keeps q (State.answerTimeout s b) := by
  unfold State.answerTimeout
  try dsimp only
  split
  · exact h
  · exact Keeps.ite (Keeps.abortEntry h _ _ _) h

theorem Keeps.execEntryAnswerTimeout {q : List Instr} {s : State} (h : Keeps q s) (b : ℕ) :
    KeepsO q (Sys2Proof.Machine.execEntryAnswerTimeout b s) := by
  unfold Sys2Proof.Machine.execEntryAnswerTimeout
  exact KeepsO.unit (Keeps.when h _ _ (fun _ h3 => Keeps.answerTimeout h3 _))

theorem Keeps.linkReady {q : List Instr} {s : State} (h : Keeps q s) :
    Keeps q (State.linkReady s) := by
  unfold State.linkReady
  try dsimp only
  split
  · exact h
  · exact Keeps.ite (Keeps.accepts h _ _) h

theorem Keeps.execLinkL2l3Ready {q : List Instr} {s : State} (h : Keeps q s) :
    KeepsO q (Sys2Proof.Machine.execLinkL2l3Ready s) := by
  unfold Sys2Proof.Machine.execLinkL2l3Ready
  exact KeepsO.done (Keeps.when h _ _ (fun _ h3 => Keeps.linkReady h3))

theorem Keeps.switchRails {q : List Instr} {s : State} (h : Keeps q s) (t : PState) (rails : List ℕ) :
    Keeps q (State.switchRails s t rails) := by
  unfold State.switchRails
  exact Keeps.ite h (Keeps.foldl (fun _ _ h3 => Keeps.avsCommands h3 _ _) h)

theorem Keeps.disarm {q : List Instr} {s : State} (h : Keeps q s) :
    Keeps q (State.disarm s) := by
  unfold State.disarm
  exact Keeps.foldl (fun _ _ h3 => Keeps.wr h3 _ _) (Keeps.upd h _ _ _ _ _ _ _ _ _ _ _ _ _ _ _ _ _ _)

theorem Keeps.intoSleep {q : List Instr} {s : State} (h : Keeps q s) :
    Keeps q (State.intoSleep s) := by
  unfold State.intoSleep
  exact Keeps.upd (Keeps.upd (Keeps.foldl (fun _ _ h3 => Keeps.setPortState h3 _ _) (Keeps.disarm h)) _ _ _ _ _ _ _ _ _ _ _ _ _ _ _ _ _ _) _ _ _ _ _ _ _ _ _ _ _ _ _ _ _ _ _ _

theorem Keeps.intoDeep {q : List Instr} {s : State} (h : Keeps q s) :
    Keeps q (State.intoDeep s) := by
  unfold State.intoDeep
  exact Keeps.ite (Keeps.upd (Keeps.loseChain (Keeps.loseDies (Keeps.disarm h))) _ _ _ _ _ _ _ _ _ _ _ _ _ _ _ _ _ _) (Keeps.guardDown (Keeps.upd (Keeps.loseChain (Keeps.loseDies (Keeps.disarm h))) _ _ _ _ _ _ _ _ _ _ _ _ _ _ _ _ _ _) _)

theorem Keeps.intoOff {q : List Instr} {s : State} (h : Keeps q s) :
    Keeps q (State.intoOff s) := by
  unfold State.intoOff
  exact Keeps.loseHub (Keeps.guardDown (Keeps.loseDies (Keeps.disarm h)) _)

theorem Keeps.into {q : List Instr} {s : State} (h : Keeps q s) (t : PState) :
    Keeps q (State.into s t) := by
  unfold State.into
  try dsimp only
  split
  · exact h
  · exact h
  · exact Keeps.intoSleep h
  · exact Keeps.intoDeep h
  · exact Keeps.intoOff h

theorem Keeps.entryComplete {q : List Instr} {s : State} (h : Keeps q s) :
    Keeps q (State.entryComplete s) := by
  unfold State.entryComplete
  try dsimp only
  split
  · exact h
  · exact Keeps.ite h (by
      try dsimp only
      split
      · exact Keeps.startExit (Keeps.recordWake (Keeps.upd (Keeps.into (Keeps.switchRails (Keeps.endEntry' (Keeps.entryResult h _ _ _)) _ _) _) _ _ _ _ _ _ _ _ _ _ _ _ _ _ _ _ _ _) _ _ _) _
      · exact Keeps.upd (Keeps.into (Keeps.switchRails (Keeps.endEntry' (Keeps.entryResult h _ _ _)) _ _) _) _ _ _ _ _ _ _ _ _ _ _ _ _ _ _ _ _ _)

theorem Keeps.execEntryComplete {q : List Instr} {s : State} (h : Keeps q s) :
    KeepsO q (Sys2Proof.Machine.execEntryComplete s) := by
  unfold Sys2Proof.Machine.execEntryComplete
  exact KeepsO.done (Keeps.when h _ _ (fun _ h3 => Keeps.entryComplete h3))

theorem Keeps.execWakeEvent {q : List Instr} {s : State} (h : Keeps q s) (src : ℕ) (detail : ℕ) :
    KeepsO q (Sys2Proof.Machine.execWakeEvent src detail s) := by
  unfold Sys2Proof.Machine.execWakeEvent
  exact KeepsO.unit (Keeps.wake h _ _)

theorem Keeps.execDevWakeN {q : List Instr} {s : State} (h : Keeps q s) :
    KeepsO q (Sys2Proof.Machine.execDevWakeN s) := by
  unfold Sys2Proof.Machine.execDevWakeN
  exact KeepsO.done (Keeps.wake h _ _)

theorem Keeps.railsOn {q : List Instr} {s : State} (h : Keeps q s) :
    Keeps q (State.railsOn s) := by
  unfold State.railsOn
  exact Keeps.settleAll (Keeps.ite (Keeps.guardUp (Keeps.upd (Keeps.switchRails h _ _) _ _ _ _ _ _ _ _ _ _ _ _ _ _ _ _ _ _) _) (Keeps.upd (Keeps.switchRails h _ _) _ _ _ _ _ _ _ _ _ _ _ _ _ _ _ _ _ _))

theorem Keeps.nextStep {q : List Instr} {s : State} (h : Keeps q s) (n : ℕ) :
    Keeps q (State.nextStep s n) := by
  unfold State.nextStep
  exact Keeps.upd h _ _ _ _ _ _ _ _ _ _ _ _ _ _ _ _ _ _

theorem Keeps.execVrPgood {q : List Instr} {s : State} (h : Keeps q s) :
    KeepsO q (Sys2Proof.Machine.execVrPgood s) := by
  unfold Sys2Proof.Machine.execVrPgood
  exact KeepsO.done (Keeps.when h _ _ (fun _ h3 => Keeps.nextStep (Keeps.railsOn h3) _))

theorem Keeps.execOscRdy {q : List Instr} {s : State} (h : Keeps q s) :
    KeepsO q (Sys2Proof.Machine.execOscRdy s) := by
  unfold Sys2Proof.Machine.execOscRdy
  exact KeepsO.done (Keeps.when h _ _ (fun _ h3 => Keeps.nextStep (Keeps.ite (Keeps.railsOn h3) h3) _))

theorem Keeps.execMemRdy {q : List Instr} {s : State} (h : Keeps q s) :
    KeepsO q (Sys2Proof.Machine.execMemRdy s) := by
  unfold Sys2Proof.Machine.execMemRdy
  exact KeepsO.done (Keeps.when h _ _ (fun _ h3 => Keeps.nextStep h3 _))

theorem Keeps.restore {q : List Instr} {s : State} (h : Keeps q s) (from_ : PState) (keyOk : Bool) :
    Keeps q (State.restore s from_ keyOk) := by
  unfold State.restore
  exact Keeps.ite (Keeps.bump (Keeps.foldl (fun _ _ h3 => Keeps.wr h3 _ _) (Keeps.loseEntries (Keeps.renewAll h _ _))) _ _) (Keeps.foldl (fun _ _ h3 => Keeps.wr h3 _ _) (Keeps.loseEntries (Keeps.renewAll h _ _)))

theorem Keeps.logicRdy {q : List Instr} {s : State} (h : Keeps q s) (keyOk : Bool) :
    Keeps q (State.logicRdy s keyOk) := by
  unfold State.logicRdy
  try dsimp only
  split
  · exact Keeps.startEntry (Keeps.openHems (Keeps.ite (Keeps.restore (Keeps.foldl (fun _ _ h3 => Keeps.startVisits h3 _) (Keeps.deliverHeld (Keeps.upd h _ _ _ _ _ _ _ _ _ _ _ _ _ _ _ _ _ _))) _ _) (Keeps.foldl (fun _ _ h3 => Keeps.startVisits h3 _) (Keeps.deliverHeld (Keeps.upd h _ _ _ _ _ _ _ _ _ _ _ _ _ _ _ _ _ _))))) _
  · exact Keeps.retarget (Keeps.openHems (Keeps.ite (Keeps.restore (Keeps.foldl (fun _ _ h3 => Keeps.startVisits h3 _) (Keeps.deliverHeld (Keeps.upd h _ _ _ _ _ _ _ _ _ _ _ _ _ _ _ _ _ _))) _ _) (Keeps.foldl (fun _ _ h3 => Keeps.startVisits h3 _) (Keeps.deliverHeld (Keeps.upd h _ _ _ _ _ _ _ _ _ _ _ _ _ _ _ _ _ _)))))

theorem Keeps.readyMissed {q : List Instr} {s : State} (h : Keeps q s) :
    Keeps q (State.readyMissed s) := by
  unfold State.readyMissed
  exact Keeps.ite h (Keeps.ite (Keeps.upd h _ _ _ _ _ _ _ _ _ _ _ _ _ _ _ _ _ _) (Keeps.raise h _ _ _ _ _))

theorem Keeps.execReadyTimeout {q : List Instr} {s : State} (h : Keeps q s) :
    KeepsO q (Sys2Proof.Machine.execReadyTimeout s) := by
  unfold Sys2Proof.Machine.execReadyTimeout
  exact KeepsO.done (Keeps.readyMissed h)

end Sys2Proof.Machine
end

