-- ==== Sys2Proof/Laws/KeepsFlash.lean ====
section
/-!
SUPPORT. What the operations of Machine/Flash.lean keep.
-/

namespace Sys2Proof.Machine

theorem Keeps.flashResult {q : List Instr} {s : State} (h : Keeps q s) (r : ℕ) :
    Keeps q (State.flashResult s r) := by
  unfold State.flashResult
  exact Keeps.wr h _ _

theorem Keeps.flashUnknown {q : List Instr} {s : State} (h : Keeps q s) (a : ℕ) (n : ℕ) :
    Keeps q (State.flashUnknown s a n) := by
  unfold State.flashUnknown
  exact Keeps.skip (Keeps.upd h _ _ _ _ _ _ _ _ _ _ _ _ _ _ _ _ _ _) _

theorem Keeps.flashSuspend {q : List Instr} {s : State} (h : Keeps q s) :
    Keeps q (State.flashSuspend s) := by
  unfold State.flashSuspend
  try dsimp only
  split
  · exact h
  · exact Keeps.upd (Keeps.flashUnknown h _ _) _ _ _ _ _ _ _ _ _ _ _ _ _ _ _ _ _ _

theorem Keeps.flashResume {q : List Instr} {s : State} (h : Keeps q s) :
    Keeps q (State.flashResume s) := by
  unfold State.flashResume
  exact Keeps.upd h _ _ _ _ _ _ _ _ _ _ _ _ _ _ _ _ _ _

theorem Keeps.flashBegin {q : List Instr} {s : State} (h : Keeps q s) (op : ℕ) (a : ℕ) (n : ℕ) :
    Keeps q (State.flashBegin s op a n) := by
  unfold State.flashBegin
  try dsimp only
  split
  · exact Keeps.flashResult (Keeps.flashSuspend h) _
  · exact Keeps.flashResult (Keeps.flashResume h) _
  · exact Keeps.upd h _ _ _ _ _ _ _ _ _ _ _ _ _ _ _ _ _ _
  · exact Keeps.upd h _ _ _ _ _ _ _ _ _ _ _ _ _ _ _ _ _ _
  · exact Keeps.upd h _ _ _ _ _ _ _ _ _ _ _ _ _ _ _ _ _ _

theorem Keeps.flashRun {q : List Instr} {s : State} (h : Keeps q s) (op : ℕ) :
    Keeps q (State.flashRun s op) := by
  unfold State.flashRun
  exact Keeps.ite (Keeps.bump (Keeps.flashBegin h _ _ _) _ _) (Keeps.bump (Keeps.flashResult h _) _ _)

theorem Keeps.flashGo {q : List Instr} {s : State} (h : Keeps q s) (op : ℕ) :
    Keeps q (State.flashGo s op) := by
  unfold State.flashGo
  exact Keeps.ite h (Keeps.ite (Keeps.flashRun h _) (Keeps.upd h _ _ _ _ _ _ _ _ _ _ _ _ _ _ _ _ _ _))

theorem Keeps.writeFlashCmd {q : List Instr} {s : State} (h : Keeps q s) (v : ℕ) :
    Keeps q (State.writeFlashCmd s v) := by
  unfold State.writeFlashCmd
  exact Keeps.ite (Keeps.flashGo h _) h

theorem Keeps.flashCmd {q : List Instr} {s : State} (h : Keeps q s) (op : ℕ) :
    Keeps q (State.flashCmd s op) := by
  unfold State.flashCmd
  exact Keeps.when h _ _ (fun _ h3 => Keeps.cmdWrite h3 _ _ (fun _ h5 => Keeps.flashGo h5 _))

theorem Keeps.execProgram {q : List Instr} {s : State} (h : Keeps q s) :
    KeepsO q (Sys2Proof.Machine.execProgram s) := by
  unfold Sys2Proof.Machine.execProgram
  exact KeepsO.done (Keeps.flashCmd h _)

theorem Keeps.execErase {q : List Instr} {s : State} (h : Keeps q s) :
    KeepsO q (Sys2Proof.Machine.execErase s) := by
  unfold Sys2Proof.Machine.execErase
  exact KeepsO.done (Keeps.flashCmd h _)

theorem Keeps.execSuspend {q : List Instr} {s : State} (h : Keeps q s) :
    KeepsO q (Sys2Proof.Machine.execSuspend s) := by
  unfold Sys2Proof.Machine.execSuspend
  exact KeepsO.done (Keeps.flashCmd h _)

theorem Keeps.execResume {q : List Instr} {s : State} (h : Keeps q s) :
    KeepsO q (Sys2Proof.Machine.execResume s) := by
  unfold Sys2Proof.Machine.execResume
  exact KeepsO.done (Keeps.flashCmd h _)

theorem Keeps.execBlankCheck {q : List Instr} {s : State} (h : Keeps q s) :
    KeepsO q (Sys2Proof.Machine.execBlankCheck s) := by
  unfold Sys2Proof.Machine.execBlankCheck
  exact KeepsO.done (Keeps.flashCmd h _)

theorem Keeps.execCrc32c {q : List Instr} {s : State} (h : Keeps q s) :
    KeepsO q (Sys2Proof.Machine.execCrc32c s) := by
  unfold Sys2Proof.Machine.execCrc32c
  exact KeepsO.done (Keeps.flashCmd h _)

theorem Keeps.execSignedUpdate {q : List Instr} {s : State} (h : Keeps q s) :
    KeepsO q (Sys2Proof.Machine.execSignedUpdate s) := by
  unfold Sys2Proof.Machine.execSignedUpdate
  exact KeepsO.done (Keeps.flashCmd h _)

theorem Keeps.countWord {q : List Instr} {s : State} (h : Keeps q s) (w : ℕ) :
    Keeps q (State.countWord s w) := by
  unfold State.countWord
  exact Keeps.upd h _ _ _ _ _ _ _ _ _ _ _ _ _ _ _ _ _ _

theorem Keeps.countWords {q : List Instr} {s : State} (h : Keeps q s) (a : ℕ) (n : ℕ) :
    Keeps q (State.countWords s a n) := by
  unfold State.countWords
  exact Keeps.foldl (fun _ _ h3 => Keeps.countWord h3 _) h

theorem Keeps.programBytes {q : List Instr} {s : State} (h : Keeps q s) (a : ℕ) (data : List ℕ) :
    Keeps q (State.programBytes s a data) := by
  unfold State.programBytes
  exact Keeps.countWords (Keeps.upd h _ _ _ _ _ _ _ _ _ _ _ _ _ _ _ _ _ _) _ _

theorem Keeps.eraseSector {q : List Instr} {s : State} (h : Keeps q s) (a : ℕ) :
    Keeps q (State.eraseSector s a) := by
  unfold State.eraseSector
  exact Keeps.upd h _ _ _ _ _ _ _ _ _ _ _ _ _ _ _ _ _ _

theorem Keeps.applyPackage {q : List Instr} {s : State} (h : Keeps q s) (p : List ℕ) :
    Keeps q (State.applyPackage s p) := by
  unfold State.applyPackage
  exact Keeps.ite (Keeps.upd (Keeps.upd h _ _ _ _ _ _ _ _ _ _ _ _ _ _ _ _ _ _) _ _ _ _ _ _ _ _ _ _ _ _ _ _ _ _ _ _) (Keeps.upd h _ _ _ _ _ _ _ _ _ _ _ _ _ _ _ _ _ _)

theorem Keeps.flashEffect {q : List Instr} {s : State} (h : Keeps q s) (o : FlashOp) :
    Keeps q (State.flashEffect s o) := by
  unfold State.flashEffect
  try dsimp only
  split
  · exact Keeps.flashResult (Keeps.programBytes h _ _) _
  · exact Keeps.flashResult (Keeps.eraseSector h _) _
  · exact Keeps.flashResult (Keeps.wr h _ _) _
  · exact Keeps.flashResult (Keeps.wr h _ _) _
  · exact Keeps.ite (Keeps.flashResult (Keeps.applyPackage h _) _) (Keeps.flashResult h _)
  · exact h

theorem Keeps.resetFlashRegs {q : List Instr} {s : State} (h : Keeps q s) :
    Keeps q (State.resetFlashRegs s) := by
  unfold State.resetFlashRegs
  exact Keeps.resetRegs h _

theorem Keeps.flashFree {q : List Instr} {s : State} (h : Keeps q s) :
    Keeps q (State.flashFree s) := by
  unfold State.flashFree
  exact Keeps.ite (Keeps.resetFlashRegs (Keeps.upd h _ _ _ _ _ _ _ _ _ _ _ _ _ _ _ _ _ _)) (Keeps.upd h _ _ _ _ _ _ _ _ _ _ _ _ _ _ _ _ _ _)

theorem Keeps.recordStart {q : List Instr} {s : State} (h : Keeps q s) (a : ℕ) (bs : List ℕ) :
    Keeps q (State.recordStart s a bs) := by
  unfold State.recordStart
  exact Keeps.upd (Keeps.ite (Keeps.bump h _ _) h) _ _ _ _ _ _ _ _ _ _ _ _ _ _ _ _ _ _

theorem Keeps.recordOver {q : List Instr} {s : State} (h : Keeps q s) :
    Keeps q (State.recordOver s) := by
  unfold State.recordOver
  try dsimp only
  split
  · exact h
  · exact by
      try dsimp only
      split
      · exact Keeps.upd h _ _ _ _ _ _ _ _ _ _ _ _ _ _ _ _ _ _
      · exact Keeps.recordStart (Keeps.upd h _ _ _ _ _ _ _ _ _ _ _ _ _ _ _ _ _ _) _ _

theorem Keeps.recordWritten {q : List Instr} {s : State} (h : Keeps q s) :
    Keeps q (State.recordWritten s) := by
  unfold State.recordWritten
  try dsimp only
  split
  · exact h
  · exact Keeps.upd h _ _ _ _ _ _ _ _ _ _ _ _ _ _ _ _ _ _

theorem Keeps.recordEnd {q : List Instr} {s : State} (h : Keeps q s) :
    Keeps q (State.recordEnd s) := by
  unfold State.recordEnd
  exact Keeps.recordOver (Keeps.upd (Keeps.recordWritten h) _ _ _ _ _ _ _ _ _ _ _ _ _ _ _ _ _ _)

theorem Keeps.flashEnd {q : List Instr} {s : State} (h : Keeps q s) (fw : Bool) :
    Keeps q (State.flashEnd s fw) := by
  unfold State.flashEnd
  exact Keeps.ite (Keeps.when h _ _ (fun _ h3 => Keeps.recordEnd h3)) (by
    try dsimp only
    split
    · exact h
    · exact Keeps.ite h (Keeps.busyNow (Keeps.flashFree (Keeps.flashEffect h _))))

theorem Keeps.execFlashOpEnd {q : List Instr} {s : State} (h : Keeps q s) (fw : Bool) :
    KeepsO q (Sys2Proof.Machine.execFlashOpEnd fw s) := by
  unfold Sys2Proof.Machine.execFlashOpEnd
  exact KeepsO.done (Keeps.when h _ _ (fun _ h3 => Keeps.flashEnd h3 _))

theorem Keeps.flashBroken {q : List Instr} {s : State} (h : Keeps q s) (o : FlashOp) :
    Keeps q (State.flashBroken s o) := by
  unfold State.flashBroken
  exact Keeps.ite (Keeps.flashUnknown h _ _) (Keeps.ite (Keeps.countWords (Keeps.flashUnknown h _ _) _ _) h)

theorem Keeps.flashLate {q : List Instr} {s : State} (h : Keeps q s) (o : FlashOp) :
    Keeps q (State.flashLate s o) := by
  unfold State.flashLate
  exact Keeps.raise h _ _ _ _ _

theorem Keeps.flashTimeout {q : List Instr} {s : State} (h : Keeps q s) (fw : Bool) :
    Keeps q (State.flashTimeout s fw) := by
  unfold State.flashTimeout
  exact Keeps.ite (Keeps.ite h (by
    try dsimp only
    split
    · exact h
    · exact Keeps.ite h (Keeps.flashLate (Keeps.bump (Keeps.recordOver (Keeps.flashBroken h _)) _ _) _))) (by
    try dsimp only
    split
    · exact h
    · exact Keeps.ite h (Keeps.flashLate (Keeps.flashFree (Keeps.bump (Keeps.flashResult (Keeps.flashBroken h _) _) _ _)) _))

theorem Keeps.execFlashTimeout {q : List Instr} {s : State} (h : Keeps q s) (fw : Bool) :
    KeepsO q (Sys2Proof.Machine.execFlashTimeout fw s) := by
  unfold Sys2Proof.Machine.execFlashTimeout
  exact KeepsO.done (Keeps.when h _ _ (fun _ h3 => Keeps.flashTimeout h3 _))

theorem Keeps.readWindow {q : List Instr} {s : State} (h : Keeps q s) (off : ℕ) :
    Keeps q (State.readWindow s off).1 := by
  unfold State.readWindow
  exact Keeps.ite1 (Keeps.pair (Keeps.bump (Keeps.setFlag h _ _) _ _)) (Keeps.pair h)

theorem Keeps.windowRead {q : List Instr} {s : State} (h : Keeps q s) (off : ℕ) :
    Keeps q (State.windowRead s off) := by
  unfold State.windowRead
  exact Keeps.pcieTouch (Keeps.upd (Keeps.readWindow h _) _ _ _ _ _ _ _ _ _ _ _ _ _ _ _ _ _ _) _

theorem Keeps.execFlashWindowRead {q : List Instr} {s : State} (h : Keeps q s) (off : ℕ) :
    KeepsO q (Sys2Proof.Machine.execFlashWindowRead off s) := by
  unfold Sys2Proof.Machine.execFlashWindowRead
  exact KeepsO.unit (Keeps.when h _ _ (fun _ h3 => Keeps.windowRead h3 _))

theorem Keeps.recordDue {q : List Instr} {s : State} (h : Keeps q s) (a : ℕ) (bs : List ℕ) :
    Keeps q (State.recordDue s a bs) := by
  unfold State.recordDue
  exact Keeps.ite h (Keeps.ite (Keeps.upd h _ _ _ _ _ _ _ _ _ _ _ _ _ _ _ _ _ _) (Keeps.recordStart h _ _))

theorem Keeps.execFirmwareRecordWrite {q : List Instr} {s : State} (h : Keeps q s) (addr : ℕ) (bytes : List ℕ) :
    KeepsO q (Sys2Proof.Machine.execFirmwareRecordWrite addr bytes s) := by
  unfold Sys2Proof.Machine.execFirmwareRecordWrite
  exact KeepsO.unit (Keeps.when h _ _ (fun _ h3 => Keeps.recordDue h3 _ _))

end Sys2Proof.Machine
end

