-- ==== Sys2Proof/Laws/KeepsChain.lean ====
section
/-!
SUPPORT. What the operations of Machine/Chain.lean keep.
-/

namespace Sys2Proof.Machine

theorem Keeps.dropTransfers {q : List Instr} {s : State} (h : Keeps q s) (t : Transfer) :
    Keeps q (State.dropTransfers s t) := by
  unfold State.dropTransfers
  exact Keeps.upd h _ _ _ _ _ _ _ _ _ _ _ _ _ _ _ _ _ _

theorem Keeps.dropCopy {q : List Instr} {s : State} (h : Keeps q s) (uid : ℕ) :
    Keeps q (State.dropCopy s uid) := by
  unfold State.dropCopy
  exact Keeps.upd h _ _ _ _ _ _ _ _ _ _ _ _ _ _ _ _ _ _

theorem Keeps.transferFails {q : List Instr} {s : State} (h : Keeps q s) (t : Transfer) (status : ℕ) :
    Keeps q (State.transferFails s t status) := by
  unfold State.transferFails
  exact Keeps.ite (Keeps.complete (Keeps.dropCopy (Keeps.dropTransfers h _) _) _ _ _) (by
    try dsimp only
    split
    · exact Keeps.dropTransfers h _
    · exact Keeps.opDone (Keeps.failStep (Keeps.dropTransfers h _) _ _ _ _ _) _ _ _)

theorem Keeps.transferEnds {q : List Instr} {s : State} (h : Keeps q s) (t : Transfer) :
    Keeps q (State.transferEnds s t) := by
  unfold State.transferEnds
  exact Keeps.ite (by
    try dsimp only
    split
    · exact Keeps.ite (Keeps.complete (Keeps.dropCopy h _) _ _ _) (Keeps.dmaEnd (Keeps.dropCopy h _) _ _)
    · exact h) (Keeps.opDone h _ _ _)

theorem Keeps.hostWritten {q : List Instr} {s : State} (h : Keeps q s) (tag : ℕ) :
    Keeps q (State.hostWritten s tag) := by
  unfold State.hostWritten
  exact Keeps.upd h _ _ _ _ _ _ _ _ _ _ _ _ _ _ _ _ _ _

theorem Keeps.acknowledge {q : List Instr} {s : State} (h : Keeps q s) (i : ℕ) (tag : ℕ) (blocks : ℕ) (status : ℕ) :
    Keeps q (State.acknowledge s i tag blocks status) := by
  unfold State.acknowledge
  try dsimp only
  split
  · exact Keeps.hostWritten h _
  · exact Keeps.ite (Keeps.transferFails h _ _) (Keeps.ite (Keeps.transferFails h _ _) (Keeps.ite (Keeps.upd h _ _ _ _ _ _ _ _ _ _ _ _ _ _ _ _ _ _) (Keeps.ite (Keeps.upd h _ _ _ _ _ _ _ _ _ _ _ _ _ _ _ _ _ _) (Keeps.transferEnds (Keeps.upd h _ _ _ _ _ _ _ _ _ _ _ _ _ _ _ _ _ _) _))))

theorem Keeps.sendBack {q : List Instr} {s : State} (h : Keeps q s) (f : Flit) (pl : Payload) :
    Keeps q (State.sendBack s f pl) := by
  unfold State.sendBack
  try dsimp only
  split
  · exact h
  · exact Keeps.enqueue h _ _

theorem Keeps.answerDown {q : List Instr} {s : State} (h : Keeps q s) (f : Flit) :
    Keeps q (State.answerDown s f) := by
  unfold State.answerDown
  try dsimp only
  split
  · exact Keeps.ite (Keeps.acknowledge h _ _ _ _) (Keeps.sendBack h _ _)
  · exact Keeps.ite (Keeps.acknowledge h _ _ _ _) (Keeps.sendBack h _ _)
  · exact Keeps.ite (by
      try dsimp only
      split
      · exact Keeps.complete h _ _ _
      · exact h) (Keeps.sendBack h _ _)
  · exact h

theorem Keeps.reroute {q : List Instr} {s : State} (h : Keeps q s) (f : Flit) :
    Keeps q (State.reroute s f) := by
  unfold State.reroute
  try dsimp only
  split
  · exact h
  · exact h
  · exact h
  · exact by
      try dsimp only
      split
      · exact Keeps.enqueue h _ _
      · exact Keeps.answerDown h _

theorem Keeps.failSpanning {q : List Instr} {s : State} (h : Keeps q s) :
    Keeps q (State.failSpanning s) := by
  unfold State.failSpanning
  exact Keeps.ite (Keeps.foldl (fun _ _ h3 => Keeps.failStep h3 _ _ _ _ _) h) h

theorem Keeps.emptyPort {q : List Instr} {s : State} (h : Keeps q s) (p : ℕ) :
    Keeps q (State.emptyPort s p) := by
  unfold State.emptyPort
  exact Keeps.foldl (fun _ _ h3 => Keeps.reroute h3 _) (Keeps.setPort h _ _)

theorem Keeps.portDown {q : List Instr} {s : State} (h : Keeps q s) (p : ℕ) :
    Keeps q (State.portDown s p) := by
  unfold State.portDown
  exact Keeps.ite (Keeps.failSpanning (Keeps.emptyPort (Keeps.raise (Keeps.bump (Keeps.wr (Keeps.setPortState h _ _) _ _) _ _) _ _ _ _ _) _)) (Keeps.takeBudget (Keeps.failSpanning (Keeps.emptyPort (Keeps.raise (Keeps.bump (Keeps.wr (Keeps.setPortState h _ _) _ _) _ _) _ _ _ _ _) _)) _)

theorem Keeps.modPort {q : List Instr} {s : State} (h : Keeps q s) (p : ℕ) (f : Port → Port) :
    Keeps q (State.modPort s p f) := by
  unfold State.modPort
  exact Keeps.setPort h _ _

theorem Keeps.startReplay {q : List Instr} {s : State} (h : Keeps q s) (p : ℕ) :
    Keeps q (State.startReplay s p) := by
  unfold State.startReplay
  try dsimp only
  split
  · exact h
  · exact Keeps.bump (Keeps.modPort h _ _) _ _

theorem Keeps.replayFails {q : List Instr} {s : State} (h : Keeps q s) (p : ℕ) :
    Keeps q (State.replayFails s p) := by
  unfold State.replayFails
  exact Keeps.ite (Keeps.portDown (Keeps.bump (Keeps.modPort h _ _) _ _) _) (Keeps.startReplay (Keeps.bump (Keeps.modPort h _ _) _ _) _)

theorem Keeps.replayWorks {q : List Instr} {s : State} (h : Keeps q s) (p : ℕ) :
    Keeps q (State.replayWorks s p) := by
  unfold State.replayWorks
  exact Keeps.ite (Keeps.raise (Keeps.modPort (Keeps.bump (Keeps.modPort h _ _) _ _) _ _) _ _ _ _ _) (Keeps.bump (Keeps.modPort h _ _) _ _)

theorem Keeps.ackTo {q : List Instr} {s : State} (h : Keeps q s) (p : ℕ) (ack : ℕ) :
    Keeps q (State.ackTo s p ack) := by
  unfold State.ackTo
  try dsimp only
  split
  · exact h
  · exact Keeps.ite h (Keeps.pumpPort (Keeps.ite (Keeps.replayWorks (Keeps.setPort h _ _) _) (Keeps.setPort h _ _)) _)

theorem Keeps.nakFrom {q : List Instr} {s : State} (h : Keeps q s) (p : ℕ) (ack : ℕ) :
    Keeps q (State.nakFrom s p ack) := by
  unfold State.nakFrom
  try dsimp only
  split
  · exact Keeps.ackTo h _ _
  · exact Keeps.ite (Keeps.replayFails (Keeps.ackTo h _ _) _) (Keeps.startReplay (Keeps.ackTo h _ _) _)

theorem Keeps.execNakReceived {q : List Instr} {s : State} (h : Keeps q s) (p : ℕ) (ack : ℕ) :
    KeepsO q (Sys2Proof.Machine.execNakReceived p ack s) := by
  unfold Sys2Proof.Machine.execNakReceived
  exact KeepsO.unit (Keeps.when h _ _ (fun _ h3 => Keeps.nakFrom h3 _ _))

theorem Keeps.ackTimeout {q : List Instr} {s : State} (h : Keeps q s) (p : ℕ) :
    Keeps q (State.ackTimeout s p) := by
  unfold State.ackTimeout
  exact Keeps.ite h (Keeps.ite (Keeps.ite (Keeps.startReplay h _) h) (Keeps.ite (Keeps.replayFails h _) h))

theorem Keeps.execAckTimeout {q : List Instr} {s : State} (h : Keeps q s) (p : ℕ) :
    KeepsO q (Sys2Proof.Machine.execAckTimeout p s) := by
  unfold Sys2Proof.Machine.execAckTimeout
  exact KeepsO.unit (Keeps.when h _ _ (fun _ h3 => Keeps.ackTimeout h3 _))

theorem Keeps.setChainEnable {q : List Instr} {s : State} (h : Keeps q s) (on : Bool) :
    Keeps q (State.setChainEnable s on) := by
  unfold State.setChainEnable
  exact Keeps.foldl (fun _ _ h3 => Keeps.ite (Keeps.ite (Keeps.setPortState h3 _ _) h3) (Keeps.emptyPort (Keeps.modPort (Keeps.wr (Keeps.setPortState h3 _ _) _ _) _ _) _)) (Keeps.setFlag h _ _)

theorem Keeps.formCheck {q : List Instr} {s : State} (h : Keeps q s) :
    Keeps q (State.formCheck s) := by
  unfold State.formCheck
  exact Keeps.ite (Keeps.upd (Keeps.wr (Keeps.setFlag h _ _) _ _) _ _ _ _ _ _ _ _ _ _ _ _ _ _ _ _ _ _) h

theorem Keeps.portUp {q : List Instr} {s : State} (h : Keeps q s) (p : ℕ) (peer : ℕ) (peerPort : ℕ) :
    Keeps q (State.portUp s p peer peerPort) := by
  unfold State.portUp
  exact Keeps.formCheck (Keeps.pumpPort (Keeps.modPort (Keeps.wr (Keeps.wr (Keeps.setPortState h _ _) _ _) _ _) _ _) _)

theorem Keeps.portAdvance {q : List Instr} {s : State} (h : Keeps q s) (p : ℕ) (lanes : ℕ) (peer : ℕ) (peerPort : ℕ) :
    Keeps q (State.portAdvance s p lanes peer peerPort) := by
  unfold State.portAdvance
  try dsimp only
  split
  · exact Keeps.setPortState h _ _
  · exact Keeps.ite (Keeps.setPortState h _ _) (Keeps.setPortState (Keeps.wr h _ _) _ _)
  · exact Keeps.setPortState h _ _
  · exact Keeps.portUp h _ _ _
  · exact Keeps.setPortState h _ _
  · exact Keeps.ite h (Keeps.pumpPort (Keeps.setPortState h _ _) _)
  · exact h

theorem Keeps.execPortStateAdvance {q : List Instr} {s : State} (h : Keeps q s) (p : ℕ) (lanes : ℕ) (peer : ℕ) (peerPort : ℕ) :
    KeepsO q (Sys2Proof.Machine.execPortStateAdvance p lanes peer peerPort s) := by
  unfold Sys2Proof.Machine.execPortStateAdvance
  exact KeepsO.unit (Keeps.when h _ _ (fun _ h3 => Keeps.portAdvance h3 _ _ _ _))

theorem Keeps.portLate {q : List Instr} {s : State} (h : Keeps q s) (p : ℕ) :
    Keeps q (State.portLate s p) := by
  unfold State.portLate
  exact Keeps.ite (Keeps.ite (Keeps.bump (Keeps.wr (Keeps.setPortState h _ _) _ _) _ _) (Keeps.wr (Keeps.setPortState h _ _) _ _)) h

theorem Keeps.execPortStateTimeout {q : List Instr} {s : State} (h : Keeps q s) (p : ℕ) :
    KeepsO q (Sys2Proof.Machine.execPortStateTimeout p s) := by
  unfold Sys2Proof.Machine.execPortStateTimeout
  exact KeepsO.unit (Keeps.when h _ _ (fun _ h3 => Keeps.portLate h3 _))

theorem Keeps.execPortDown {q : List Instr} {s : State} (h : Keeps q s) (p : ℕ) :
    KeepsO q (Sys2Proof.Machine.execPortDown p s) := by
  unfold Sys2Proof.Machine.execPortDown
  exact KeepsO.unit (Keeps.when h _ _ (fun _ h3 => Keeps.portDown h3 _))

theorem Keeps.formFails {q : List Instr} {s : State} (h : Keeps q s) :
    Keeps q (State.formFails s) := by
  unfold State.formFails
  exact Keeps.raise (Keeps.upd (Keeps.wr (Keeps.setFlag h _ _) _ _) _ _ _ _ _ _ _ _ _ _ _ _ _ _ _ _ _ _) _ _ _ _ _

theorem Keeps.enumerate {q : List Instr} {s : State} (h : Keeps q s) (x : ℕ) (y : ℕ) :
    Keeps q (State.enumerate s x y) := by
  unfold State.enumerate
  exact Keeps.ite (Keeps.sendOut (Keeps.sendOut h _ _) _ _) (Keeps.sendOut h _ _)

theorem Keeps.form {q : List Instr} {s : State} (h : Keeps q s) :
    Keeps q (State.form s) := by
  unfold State.form
  exact Keeps.ite h (Keeps.enumerate (Keeps.wr (Keeps.upd (Keeps.wr (Keeps.setFlag (Keeps.setFlag h _ _) _ _) _ _) _ _ _ _ _ _ _ _ _ _ _ _ _ _ _ _ _ _) _ _) _ _)

theorem Keeps.writeChainCtrl {q : List Instr} {s : State} (h : Keeps q s) (v : ℕ) :
    Keeps q (State.writeChainCtrl s v) := by
  unfold State.writeChainCtrl
  exact Keeps.ite (Keeps.form (Keeps.setChainEnable (Keeps.wr (Keeps.wr (Keeps.wr h _ _) _ _) _ _) _)) (Keeps.setChainEnable (Keeps.wr (Keeps.wr (Keeps.wr h _ _) _ _) _ _) _)

theorem Keeps.execChainEnableWrite {q : List Instr} {s : State} (h : Keeps q s) (value : ℕ) :
    KeepsO q (Sys2Proof.Machine.execChainEnableWrite value s) := by
  unfold Sys2Proof.Machine.execChainEnableWrite
  exact KeepsO.done (Keeps.when h _ _ (fun _ h3 => Keeps.cmdWrite h3 _ _ (fun _ h5 => Keeps.writeChainCtrl h5 _)))

theorem Keeps.execForm {q : List Instr} {s : State} (h : Keeps q s) :
    KeepsO q (Sys2Proof.Machine.execForm s) := by
  unfold Sys2Proof.Machine.execForm
  exact KeepsO.done (Keeps.when h _ _ (fun _ h3 => Keeps.cmdWrite h3 _ _ (fun _ h5 => Keeps.form h5)))

theorem Keeps.formLate {q : List Instr} {s : State} (h : Keeps q s) :
    Keeps q (State.formLate s) := by
  unfold State.formLate
  exact Keeps.ite (Keeps.formFails h) h

theorem Keeps.execFormTimeout {q : List Instr} {s : State} (h : Keeps q s) :
    KeepsO q (Sys2Proof.Machine.execFormTimeout s) := by
  unfold Sys2Proof.Machine.execFormTimeout
  exact KeepsO.done (Keeps.when h _ _ (fun _ h3 => Keeps.formLate h3))

theorem Keeps.checkMirror {q : List Instr} {s : State} (h : Keeps q s) (k : ℕ) :
    Keeps q (State.checkMirror s k) := by
  unfold State.checkMirror
  exact Keeps.ite h (Keeps.setFlag h _ _)

theorem Keeps.writeMirrorWord {q : List Instr} {s : State} (h : Keeps q s) (k : ℕ) (w : ℕ) (v : ℕ) :
    Keeps q (State.writeMirrorWord s k w v) := by
  unfold State.writeMirrorWord
  exact Keeps.ite (Keeps.checkMirror (Keeps.setWord h _ _) _) (Keeps.ite (Keeps.checkMirror (Keeps.setWord h _ _) _) h)

theorem Keeps.writeMirror {q : List Instr} {s : State} (h : Keeps q s) (k : ℕ) (v : ℕ) :
    Keeps q (State.writeMirror s k v) := by
  unfold State.writeMirror
  exact Keeps.writeMirrorWord (Keeps.writeMirrorWord (Keeps.writeMirrorWord h _ _ _) _ _ _) _ _ _

theorem Keeps.execMirrorWrite {q : List Instr} {s : State} (h : Keeps q s) (k : ℕ) (value : ℕ) :
    KeepsO q (Sys2Proof.Machine.execMirrorWrite k value s) := by
  unfold Sys2Proof.Machine.execMirrorWrite
  exact KeepsO.unit (Keeps.when h _ _ (fun _ h3 => Keeps.cmdWrite h3 _ _ (fun _ h5 => Keeps.writeMirror h5 _ _)))

theorem Keeps.writeSpan {q : List Instr} {s : State} (h : Keeps q s) (i : ℕ) (v : ℕ) :
    Keeps q (State.writeSpan s i v) := by
  unfold State.writeSpan
  exact Keeps.ite h (Keeps.ite (Keeps.foldl (fun _ _ h3 => Keeps.sendFlit h3 _ _ _) (Keeps.wr (Keeps.wr h _ _) _ _)) (Keeps.wr h _ _))

theorem Keeps.execSpanWrite {q : List Instr} {s : State} (h : Keeps q s) (i : ℕ) (value : ℕ) :
    KeepsO q (Sys2Proof.Machine.execSpanWrite i value s) := by
  unfold Sys2Proof.Machine.execSpanWrite
  exact KeepsO.unit (Keeps.when h _ _ (fun _ h3 => Keeps.cmdWrite h3 _ _ (fun _ h5 => Keeps.writeSpan h5 _ _)))

end Sys2Proof.Machine
end

