-- ==== Sys2Proof/Laws/KeepsFlits.lean ====
section
/-!
SUPPORT. What the operations of Machine/Flits.lean keep.
-/

namespace Sys2Proof.Machine

theorem Keeps.takeCredits {q : List Instr} {s : State} (h : Keeps q s) (p : ℕ) (f : Flit) :
    Keeps q (State.takeCredits s p f) := by
  unfold State.takeCredits
  exact Keeps.pumpPort (Keeps.modPort h _ _) _

theorem Keeps.takeLink {q : List Instr} {s : State} (h : Keeps q s) (p : ℕ) (f : Flit) :
    Keeps q (State.takeLink s p f) := by
  unfold State.takeLink
  exact Keeps.takeCredits (Keeps.ite (Keeps.nakFrom h _ _) (Keeps.ackTo h _ _)) _ _

theorem Keeps.refuseFlit {q : List Instr} {s : State} (h : Keeps q s) (p : ℕ) :
    Keeps q (State.refuseFlit s p) := by
  unfold State.refuseFlit
  exact Keeps.modPort h _ _

theorem Keeps.receive {q : List Instr} {s : State} (h : Keeps q s) (p : ℕ) (f : Flit) (use : State → State) (hf_use : ∀ a0, Keeps q a0 → Keeps q (use a0)) :
    Keeps q (State.receive s p f use) := by
  unfold State.receive
  exact Keeps.ite h (Keeps.ite (Keeps.refuseFlit (Keeps.bump h _ _) _) (Keeps.ite (Keeps.takeLink h _ _) (Keeps.ite (Keeps.refuseFlit (Keeps.takeLink h _ _) _) (hf_use _ (Keeps.bump (Keeps.modPort (Keeps.takeLink h _ _) _ _) _ _)))))

theorem Keeps.discard {q : List Instr} {s : State} (h : Keeps q s) (p : ℕ) :
    Keeps q (State.discard s p) := by
  unfold State.discard
  exact Keeps.bump h _ _

theorem Keeps.forward {q : List Instr} {s : State} (h : Keeps q s) (p : ℕ) (f : Flit) :
    Keeps q (State.forward s p f) := by
  unfold State.forward
  try dsimp only
  split
  · exact Keeps.enqueue h _ _
  · exact Keeps.answerDown h _

theorem Keeps.deliver {q : List Instr} {s : State} (h : Keeps q s) (p : ℕ) (f : Flit) (use : State → State) (hf_use : ∀ a0, Keeps q a0 → Keeps q (use a0)) :
    Keeps q (State.deliver s p f use) := by
  unfold State.deliver
  exact Keeps.receive h _ _ _ (fun _ h3 => Keeps.ite (Keeps.ite (Keeps.discard h3 _) (Keeps.forward h3 _ _)) (Keeps.ite (hf_use _ (h3)) (Keeps.discard h3 _)))

theorem Keeps.flit {q : List Instr} {s : State} (h : Keeps q s) (p : ℕ) :
    KeepsO q (Sys2Proof.Machine.flit p s) := by
  unfold Sys2Proof.Machine.flit
  exact KeepsO.unit h

theorem Keeps.strange {q : List Instr} {s : State} (h : Keeps q s) (p : ℕ) (f : Flit) :
    Keeps q (State.strange s p f) := by
  unfold State.strange
  try dsimp only
  split
  · exact Keeps.receive h _ _ _ (fun _ h3 => Keeps.discard h3 _)
  · exact h

theorem Keeps.execIdleFlit {q : List Instr} {s : State} (h : Keeps q s) (p : ℕ) (f : Flit) :
    KeepsO q (Sys2Proof.Machine.execIdleFlit p f s) := by
  unfold Sys2Proof.Machine.execIdleFlit
  exact KeepsO.unit (by
    try dsimp only
    split
    · exact Keeps.receive h _ _ _ (fun _ h3 => h3)
    · exact Keeps.strange h _ _)

theorem Keeps.execTrainFlit {q : List Instr} {s : State} (h : Keeps q s) (p : ℕ) (f : Flit) :
    KeepsO q (Sys2Proof.Machine.execTrainFlit p f s) := by
  unfold Sys2Proof.Machine.execTrainFlit
  exact KeepsO.unit (by
    try dsimp only
    split
    · exact Keeps.receive h _ _ _ (fun _ h3 => h3)
    · exact Keeps.strange h _ _)

theorem Keeps.takeData {q : List Instr} {s : State} (h : Keeps q s) (p : ℕ) (f : Flit) (y_3 : ℕ) (off : ℕ) (tag : ℕ) (bs : List ℕ) :
    Keeps q (State.takeData s p f y_3 off tag bs) := by
  unfold State.takeData
  exact Keeps.ite (Keeps.sendBack (Keeps.t2Write h _ _ _ _) _ _) (Keeps.sendBack (Keeps.raise (Keeps.discard h _) _ _ _ _ _) _ _)

theorem Keeps.execDataFlit {q : List Instr} {s : State} (h : Keeps q s) (p : ℕ) (f : Flit) :
    KeepsO q (Sys2Proof.Machine.execDataFlit p f s) := by
  unfold Sys2Proof.Machine.execDataFlit
  exact KeepsO.unit (by
    try dsimp only
    split
    · exact Keeps.deliver h _ _ _ (fun _ h3 => Keeps.takeData h3 _ _ _ _ _ _)
    · exact Keeps.strange h _ _)

theorem Keeps.execXackFlit {q : List Instr} {s : State} (h : Keeps q s) (p : ℕ) (f : Flit) :
    KeepsO q (Sys2Proof.Machine.execXackFlit p f s) := by
  unfold Sys2Proof.Machine.execXackFlit
  exact KeepsO.unit (by
    try dsimp only
    split
    · exact Keeps.deliver h _ _ _ (fun _ h3 => Keeps.acknowledge h3 _ _ _ _)
    · exact Keeps.strange h _ _)

theorem Keeps.takePeg {q : List Instr} {s : State} (h : Keeps q s) (p : ℕ) (f : Flit) (y_3 : ℕ) (off : ℕ) (set : Bool) (v : ℕ) :
    Keeps q (State.takePeg s p f y_3 off set v) := by
  unfold State.takePeg
  exact Keeps.ite (Keeps.pegOp h _ _ _ _ _ _) (Keeps.discard h _)

theorem Keeps.execPegFlit {q : List Instr} {s : State} (h : Keeps q s) (p : ℕ) (f : Flit) :
    KeepsO q (Sys2Proof.Machine.execPegFlit p f s) := by
  unfold Sys2Proof.Machine.execPegFlit
  exact KeepsO.unit (by
    try dsimp only
    split
    · exact Keeps.deliver h _ _ _ (fun _ h3 => Keeps.takePeg h3 _ _ _ _ _ _)
    · exact Keeps.strange h _ _)

theorem Keeps.takeDesc {q : List Instr} {s : State} (h : Keeps q s) (f : Flit) (ring : ℕ) (slot : ℕ) (bs : List ℕ) :
    Keeps q (State.takeDesc s f ring slot bs) := by
  unfold State.takeDesc
  exact Keeps.busyNow (Keeps.upd h _ _ _ _ _ _ _ _ _ _ _ _ _ _ _ _ _ _)

theorem Keeps.execDescFlit {q : List Instr} {s : State} (h : Keeps q s) (p : ℕ) (f : Flit) :
    KeepsO q (Sys2Proof.Machine.execDescFlit p f s) := by
  unfold Sys2Proof.Machine.execDescFlit
  exact KeepsO.unit (by
    try dsimp only
    split
    · exact Keeps.deliver h _ _ _ (fun _ h3 => Keeps.ite (Keeps.takeDesc h3 _ _ _ _) (Keeps.discard h3 _))
    · exact Keeps.strange h _ _)

theorem Keeps.takeRecord {q : List Instr} {s : State} (h : Keeps q s) (f : Flit) (kind : ℕ) (ring : ℕ) (slot : ℕ) (b : List ℕ) :
    Keeps q (State.takeRecord s f kind ring slot b) := by
  unfold State.takeRecord
  exact Keeps.ite (by
    try dsimp only
    split
    · exact Keeps.completeC h _ _ _ _
    · exact h) (Keeps.ite (Keeps.ite (Keeps.logRecord (Keeps.ite (Keeps.deliverEvent h _ _) h) _) (Keeps.ite (Keeps.deliverEvent h _ _) h)) (Keeps.ite (Keeps.upd (Keeps.ite (Keeps.logRecord (Keeps.ite (Keeps.deliverEvent h _ _) h) _) (Keeps.ite (Keeps.deliverEvent h _ _) h)) _ _ _ _ _ _ _ _ _ _ _ _ _ _ _ _ _ _) (Keeps.ite (Keeps.failSpanning (Keeps.ite (Keeps.logRecord (Keeps.ite (Keeps.deliverEvent h _ _) h) _) (Keeps.ite (Keeps.deliverEvent h _ _) h))) (Keeps.ite (Keeps.logRecord (Keeps.ite (Keeps.deliverEvent h _ _) h) _) (Keeps.ite (Keeps.deliverEvent h _ _) h)))))

theorem Keeps.execRecordFlit {q : List Instr} {s : State} (h : Keeps q s) (p : ℕ) (f : Flit) :
    KeepsO q (Sys2Proof.Machine.execRecordFlit p f s) := by
  unfold Sys2Proof.Machine.execRecordFlit
  exact KeepsO.unit (by
    try dsimp only
    split
    · exact Keeps.deliver h _ _ _ (fun _ h3 => Keeps.ite (Keeps.takeRecord h3 _ _ _ _ _) (Keeps.discard h3 _))
    · exact Keeps.strange h _ _)

theorem Keeps.serveHost {q : List Instr} {s : State} (h : Keeps q s) (f : Flit) :
    Keeps q (State.serveHost s f) := by
  unfold State.serveHost
  try dsimp only
  split
  · exact Keeps.sendBack (Keeps.hostStore h _ _) _ _
  · exact Keeps.sendBack h _ _
  · exact h

theorem Keeps.takeHost {q : List Instr} {s : State} (h : Keeps q s) (f : Flit) :
    Keeps q (State.takeHost s f) := by
  unfold State.takeHost
  exact Keeps.ite (Keeps.serveHost h _) (Keeps.upd h _ _ _ _ _ _ _ _ _ _ _ _ _ _ _ _ _ _)

theorem Keeps.releaseHosts {q : List Instr} {s : State} (h : Keeps q s) :
    Keeps q (State.releaseHosts s) := by
  unfold State.releaseHosts
  exact Keeps.foldl (fun _ _ h3 => Keeps.serveHost h3 _) (Keeps.upd h _ _ _ _ _ _ _ _ _ _ _ _ _ _ _ _ _ _)

theorem Keeps.execHostFlit {q : List Instr} {s : State} (h : Keeps q s) (p : ℕ) (f : Flit) :
    KeepsO q (Sys2Proof.Machine.execHostFlit p f s) := by
  unfold Sys2Proof.Machine.execHostFlit
  exact KeepsO.unit (by
    try dsimp only
    split
    · exact Keeps.deliver h _ _ _ (fun _ h3 => Keeps.ite (Keeps.takeHost h3 _) (Keeps.discard h3 _))
    · exact Keeps.strange h _ _)

theorem Keeps.takeHostRsp {q : List Instr} {s : State} (h : Keeps q s) (tag : ℕ) (bs : List ℕ) :
    Keeps q (State.takeHostRsp s tag bs) := by
  unfold State.takeHostRsp
  try dsimp only
  split
  · exact h
  · exact Keeps.hostStore (Keeps.upd h _ _ _ _ _ _ _ _ _ _ _ _ _ _ _ _ _ _) _ _

theorem Keeps.execHostRspFlit {q : List Instr} {s : State} (h : Keeps q s) (p : ℕ) (f : Flit) :
    KeepsO q (Sys2Proof.Machine.execHostRspFlit p f s) := by
  unfold Sys2Proof.Machine.execHostRspFlit
  exact KeepsO.unit (by
    try dsimp only
    split
    · exact Keeps.deliver h _ _ _ (fun _ h3 => Keeps.takeHostRsp h3 _ _)
    · exact Keeps.strange h _ _)

theorem Keeps.enrol {q : List Instr} {s : State} (h : Keeps q s) (p : ℕ) (topo : ℕ) (x : ℕ) (y : ℕ) (sx : ℕ) (sy : ℕ) :
    Keeps q (State.enrol s p topo x y sx sy) := by
  unfold State.enrol
  exact Keeps.sendFlit (Keeps.enumerate (Keeps.upd (Keeps.setFlag (Keeps.wr (Keeps.wr (Keeps.wr (Keeps.wr h _ _) _ _) _ _) _ _) _ _) _ _ _ _ _ _ _ _ _ _ _ _ _ _ _ _ _ _) _ _) _ _ _

theorem Keeps.takeEnum {q : List Instr} {s : State} (h : Keeps q s) (p : ℕ) (topo : ℕ) (x : ℕ) (y : ℕ) (sx : ℕ) (sy : ℕ) :
    Keeps q (State.takeEnum s p topo x y sx sy) := by
  unfold State.takeEnum
  exact Keeps.ite (Keeps.ite (Keeps.formFails h) h) (Keeps.ite (Keeps.sendOut (Keeps.setFlag h _ _) _ _) (Keeps.ite (Keeps.enrol h _ _ _ _ _ _) (Keeps.ite h (Keeps.sendFlit (Keeps.setFlag h _ _) _ _ _))))

theorem Keeps.takeReport {q : List Instr} {s : State} (h : Keeps q s) (d : ℕ) (ok : Bool) :
    Keeps q (State.takeReport s d ok) := by
  unfold State.takeReport
  exact Keeps.ite h (Keeps.ite (Keeps.formFails h) (Keeps.formCheck (Keeps.wr (Keeps.upd h _ _ _ _ _ _ _ _ _ _ _ _ _ _ _ _ _ _) _ _)))

theorem Keeps.takeLeave {q : List Instr} {s : State} (h : Keeps q s) (p : ℕ) :
    Keeps q (State.takeLeave s p) := by
  unfold State.takeLeave
  exact Keeps.emptyPort (Keeps.wr (Keeps.setPortState h _ _) _ _) _

theorem Keeps.takeCtrl {q : List Instr} {s : State} (h : Keeps q s) (p : ℕ) (f : Flit) (keyOk : Bool) (m : CtrlMsg) :
    Keeps q (State.takeCtrl s p f keyOk m) := by
  unfold State.takeCtrl
  try dsimp only
  split
  · exact Keeps.takeEnum h _ _ _ _ _ _
  · exact Keeps.takeReport h _ _
  · exact Keeps.takeBudget h _
  · exact Keeps.ite (Keeps.upd h _ _ _ _ _ _ _ _ _ _ _ _ _ _ _ _ _ _) h
  · exact Keeps.wake h _ _
  · exact Keeps.takeLeave h _
  · exact Keeps.ite (Keeps.askReset h _ _ _ _ _ _) h
  · exact Keeps.ite (Keeps.wr h _ _) h

theorem Keeps.execCtrlFlit {q : List Instr} {s : State} (h : Keeps q s) (p : ℕ) (f : Flit) (keyOk : Bool) :
    KeepsO q (Sys2Proof.Machine.execCtrlFlit p f keyOk s) := by
  unfold Sys2Proof.Machine.execCtrlFlit
  exact KeepsO.unit (by
    try dsimp only
    split
    · exact Keeps.ite (Keeps.receive h _ _ _ (fun _ h3 => Keeps.takeCtrl h3 _ _ _ _)) (Keeps.deliver h _ _ _ (fun _ h3 => Keeps.takeCtrl h3 _ _ _ _))
    · exact Keeps.strange h _ _)

end Sys2Proof.Machine
end

