-- ==== Sys2Proof/Laws/KeepsErrors.lean ====
section
/-!
SUPPORT. What the operations of Machine/Errors.lean keep.
-/

namespace Sys2Proof.Machine

theorem Keeps.sendRecord {q : List Instr} {s : State} (h : Keeps q s) (j : RingJob) :
    Keeps q (State.sendRecord s j) := by
  unfold State.sendRecord
  exact Keeps.ite (Keeps.forwardRecord (Keeps.forwardRecord h _ _ _ _ _) _ _ _ _ _) (Keeps.forwardRecord h _ _ _ _ _)

theorem Keeps.recordStep {q : List Instr} {s : State} (h : Keeps q s) :
    Keeps q (State.recordStep s) := by
  unfold State.recordStep
  exact Keeps.ite (by
    try dsimp only
    split
    · exact Keeps.ite (Keeps.sendRecord (Keeps.upd h _ _ _ _ _ _ _ _ _ _ _ _ _ _ _ _ _ _) _) h
    · exact h) (Keeps.ite (by
    try dsimp only
    split
    · exact Keeps.ite (Keeps.sendRecord (Keeps.upd h _ _ _ _ _ _ _ _ _ _ _ _ _ _ _ _ _ _) _) h
    · exact h) (Keeps.ite h (by
    try dsimp only
    split
    · exact Keeps.overflowMarker h _
    · exact by
        try dsimp only
        split
        · exact Keeps.deliverEvent (Keeps.upd h _ _ _ _ _ _ _ _ _ _ _ _ _ _ _ _ _ _) _ _
        · exact h)))

theorem Keeps.execEventRingWrite {q : List Instr} {s : State} (h : Keeps q s) :
    KeepsO q (Sys2Proof.Machine.execEventRingWrite s) := by
  unfold Sys2Proof.Machine.execEventRingWrite
  exact KeepsO.done (Keeps.when h _ _ (fun _ h3 => Keeps.recordStep h3))

theorem Keeps.writeErrlogHead {q : List Instr} {s : State} (h : Keeps q s) (v : ℕ) :
    Keeps q (State.writeErrlogHead s v) := by
  unfold State.writeErrlogHead
  exact Keeps.ite h (Keeps.wr h _ _)

theorem Keeps.execErrlogHeadWrite {q : List Instr} {s : State} (h : Keeps q s) (value : ℕ) :
    KeepsO q (Sys2Proof.Machine.execErrlogHeadWrite value s) := by
  unfold Sys2Proof.Machine.execErrlogHeadWrite
  exact KeepsO.done (Keeps.when h _ _ (fun _ h3 => Keeps.cmdWrite h3 _ _ (fun _ h5 => Keeps.writeErrlogHead h5 _)))

theorem Keeps.doubleFault {q : List Instr} {s : State} (h : Keeps q s) (code : ℕ) (seq : ℕ) :
    Keeps q (State.doubleFault s code seq) := by
  unfold State.doubleFault
  exact Keeps.halt (Keeps.countRecord h _) _

theorem Keeps.execDoubleFault {q : List Instr} {s : State} (h : Keeps q s) (code : ℕ) (seq : ℕ) :
    KeepsO q (Sys2Proof.Machine.execDoubleFault code seq s) := by
  unfold Sys2Proof.Machine.execDoubleFault
  exact KeepsO.done (Keeps.when h _ _ (fun _ h3 => Keeps.doubleFault h3 _ _))

theorem Keeps.writeFatalValid {q : List Instr} {s : State} (h : Keeps q s) (v : ℕ) :
    Keeps q (State.writeFatalValid s v) := by
  unfold State.writeFatalValid
  exact Keeps.ite (Keeps.setFlag (Keeps.setWords h _ _) _ _) h

theorem Keeps.execFatalValidClear {q : List Instr} {s : State} (h : Keeps q s) (value : ℕ) :
    KeepsO q (Sys2Proof.Machine.execFatalValidClear value s) := by
  unfold Sys2Proof.Machine.execFatalValidClear
  exact KeepsO.done (Keeps.when h _ _ (fun _ h3 => Keeps.cmdWrite h3 _ _ (fun _ h5 => Keeps.writeFatalValid h5 _)))

theorem Keeps.fwExpires {q : List Instr} {s : State} (h : Keeps q s) (cp : ℕ) :
    Keeps q (State.fwExpires s cp) := by
  unfold State.fwExpires
  exact Keeps.ite h (Keeps.ite (Keeps.raise (Keeps.upd h _ _ _ _ _ _ _ _ _ _ _ _ _ _ _ _ _ _) _ _ _ _ _) (Keeps.raise (Keeps.upd (Keeps.upd h _ _ _ _ _ _ _ _ _ _ _ _ _ _ _ _ _ _) _ _ _ _ _ _ _ _ _ _ _ _ _ _ _ _ _ _) _ _ _ _ _))

theorem Keeps.execFwWatchdog {q : List Instr} {s : State} (h : Keeps q s) (cp : ℕ) :
    KeepsO q (Sys2Proof.Machine.execFwWatchdog cp s) := by
  unfold Sys2Proof.Machine.execFwWatchdog
  exact KeepsO.unit (Keeps.when h _ _ (fun _ h3 => Keeps.fwExpires h3 _))

theorem Keeps.runWaiting {q : List Instr} {s : State} (h : Keeps q s) (keyOk : Bool) (c : ℕ × ℕ) :
    Keeps q (State.runWaiting s keyOk c) := by
  unfold State.runWaiting
  exact Keeps.ite (Keeps.instRun h _ _) (Keeps.ite (Keeps.flashRun h _) (Keeps.laneCmdRun h _ _))

theorem Keeps.restartDone {q : List Instr} {s : State} (h : Keeps q s) (cp : ℕ) (keyOk : Bool) :
    Keeps q (State.restartDone s cp keyOk) := by
  unfold State.restartDone
  exact Keeps.ite h (Keeps.ite (Keeps.foldl (fun _ _ h3 => Keeps.runWaiting h3 _ _) (Keeps.upd (Keeps.upd h _ _ _ _ _ _ _ _ _ _ _ _ _ _ _ _ _ _) _ _ _ _ _ _ _ _ _ _ _ _ _ _ _ _ _ _)) (Keeps.upd h _ _ _ _ _ _ _ _ _ _ _ _ _ _ _ _ _ _))

theorem Keeps.execFwRestartDone {q : List Instr} {s : State} (h : Keeps q s) (cp : ℕ) (keyOk : Bool) :
    KeepsO q (Sys2Proof.Machine.execFwRestartDone cp keyOk s) := by
  unfold Sys2Proof.Machine.execFwRestartDone
  exact KeepsO.unit (Keeps.when h _ _ (fun _ h3 => Keeps.restartDone h3 _ _))

theorem Keeps.tripped {q : List Instr} {s : State} (h : Keeps q s) (d : ℕ) :
    Keeps q (State.tripped s d) := by
  unfold State.tripped
  exact Keeps.ite (Keeps.guardDown (Keeps.upd (Keeps.raise h _ _ _ _ _) _ _ _ _ _ _ _ _ _ _ _ _ _ _ _ _ _ _) _) (Keeps.upd (Keeps.raise h _ _ _ _ _) _ _ _ _ _ _ _ _ _ _ _ _ _ _ _ _ _ _)

theorem Keeps.execThermalTrip {q : List Instr} {s : State} (h : Keeps q s) (d : ℕ) :
    KeepsO q (Sys2Proof.Machine.execThermalTrip d s) := by
  unfold Sys2Proof.Machine.execThermalTrip
  exact KeepsO.unit (Keeps.when h _ _ (fun _ h3 => Keeps.tripped h3 _))

end Sys2Proof.Machine
end

