-- ==== Sys2Proof/Laws/KeepsBoot.lean ====
section
/-!
SUPPORT. What the operations of Machine/Boot.lean keep.
-/

namespace Sys2Proof.Machine

theorem Keeps.flashCut {q : List Instr} {s : State} (h : Keeps q s) :
    Keeps q (State.flashCut s) := by
  unfold State.flashCut
  exact Keeps.upd (by
    try dsimp only
    split
    · exact Keeps.flashBroken (by
        try dsimp only
        split
        · exact Keeps.flashBroken (by
            try dsimp only
            split
            · exact Keeps.flashBroken h _
            · exact h) _
        · exact by
            try dsimp only
            split
            · exact Keeps.flashBroken h _
            · exact h) _
    · exact by
        try dsimp only
        split
        · exact Keeps.flashBroken (by
            try dsimp only
            split
            · exact Keeps.flashBroken h _
            · exact h) _
        · exact by
            try dsimp only
            split
            · exact Keeps.flashBroken h _
            · exact h) _ _ _ _ _ _ _ _ _ _ _ _ _ _ _ _ _ _

theorem Keeps.flashDrain {q : List Instr} {s : State} (h : Keeps q s) :
    Keeps q (State.flashDrain s) := by
  unfold State.flashDrain
  exact Keeps.upd (by
    try dsimp only
    split
    · exact Keeps.recordWritten (by
        try dsimp only
        split
        · exact Keeps.ite (Keeps.flashEffect (Keeps.recordWritten h) _) (Keeps.recordWritten h)
        · exact Keeps.recordWritten h)
    · exact by
        try dsimp only
        split
        · exact Keeps.ite (Keeps.flashEffect (Keeps.recordWritten h) _) (Keeps.recordWritten h)
        · exact Keeps.recordWritten h) _ _ _ _ _ _ _ _ _ _ _ _ _ _ _ _ _ _

theorem Keeps.unpowered {q : List Instr} {s : State} (h : Keeps q s) :
    Keeps q (State.unpowered s) := by
  unfold State.unpowered
  exact ⟨h.pending, Tab.wf_nil _, memReset_wf.t0, memReset_wf.t1, memReset_wf.t2, h.mem.host, memReset_wf.g0, memReset_wf.g1,
    memReset_wf.t2Key⟩

theorem Keeps.coldStart {q : List Instr} {s : State} (h : Keeps q s) (cause : ℕ) (keepFatal : Bool) :
    Keeps q (State.coldStart s cause keepFatal) := by
  unfold State.coldStart
  refine Keeps.wr (Keeps.wr (Keeps.setFlag (Keeps.setFlag (Keeps.setFlag (Keeps.setFlag (Keeps.wr (Keeps.wr ?_ _ _) _ _) _ _) _ _) _ _) _ _) _ _) _ _
  refine ⟨(Keeps.unpowered h).pending, ?_, (Keeps.unpowered h).mem⟩
  have hr := (Tab.wf_iff regReset s.regs).1 h.regs
  exact (Tab.wf_iff regReset _).2 ⟨List.Pairwise.sublist List.filter_sublist hr.1, fun e he => hr.2 e (List.mem_filter.1 he).1⟩

theorem Keeps.aonRise {q : List Instr} {s : State} (h : Keeps q s) (straps : ℕ) :
    Keeps q (State.aonRise s straps) := by
  unfold State.aonRise
  exact Keeps.ite h (Keeps.coldStart (Keeps.upd h _ _ _ _ _ _ _ _ _ _ _ _ _ _ _ _ _ _) _ _)

theorem Keeps.execVAonRise {q : List Instr} {s : State} (h : Keeps q s) (straps : ℕ) :
    KeepsO q (Sys2Proof.Machine.execVAonRise straps s) := by
  unfold Sys2Proof.Machine.execVAonRise
  exact KeepsO.done (Keeps.aonRise h _)

theorem Keeps.aonLoss {q : List Instr} {s : State} (h : Keeps q s) :
    Keeps q (State.aonLoss s) := by
  unfold State.aonLoss
  exact Keeps.ite (Keeps.unpowered (Keeps.flashCut h)) h

theorem Keeps.execVAonLoss {q : List Instr} {s : State} (h : Keeps q s) :
    KeepsO q (Sys2Proof.Machine.execVAonLoss s) := by
  unfold Sys2Proof.Machine.execVAonLoss
  exact KeepsO.done (Keeps.aonLoss h)

theorem Keeps.loadFirmware {q : List Instr} {s : State} (h : Keeps q s) :
    Keeps q (State.loadFirmware s).1 := by
  unfold State.loadFirmware
  exact Keeps.ite1 (Keeps.pair h) (Keeps.ite1 (Keeps.pair (Keeps.upd h _ _ _ _ _ _ _ _ _ _ _ _ _ _ _ _ _ _)) (Keeps.ite1 (Keeps.pair (Keeps.wr h _ _)) (Keeps.ite1 (Keeps.pair (Keeps.wr h _ _)) (Keeps.pair (Keeps.setFlag (Keeps.upd h _ _ _ _ _ _ _ _ _ _ _ _ _ _ _ _ _ _) _ _)))))

theorem Keeps.useTable {q : List Instr} {s : State} (h : Keeps q s) (n : ℕ) :
    Keeps q (State.useTable s n) := by
  unfold State.useTable
  exact Keeps.wr (Keeps.upd h _ _ _ _ _ _ _ _ _ _ _ _ _ _ _ _ _ _) _ _

theorem Keeps.chooseTable {q : List Instr} {s : State} (h : Keeps q s) :
    Keeps q (State.chooseTable s) := by
  unfold State.chooseTable
  exact Keeps.ite (Keeps.setFlag (Keeps.useTable h _) _ _) (Keeps.ite (Keeps.raise (Keeps.useTable h _) _ _ _ _ _) (Keeps.raise (Keeps.useTable h _) _ _ _ _ _))

theorem Keeps.legacyRails {q : List Instr} {s : State} (h : Keeps q s) :
    Keeps q (State.legacyRails s) := by
  unfold State.legacyRails
  exact Keeps.foldl (fun _ _ h3 => Keeps.wr (Keeps.wr (Keeps.wr (Keeps.wr h3 _ _) _ _) _ _) _ _) h

theorem Keeps.railsBoot {q : List Instr} {s : State} (h : Keeps q s) :
    Keeps q (State.railsBoot s) := by
  unfold State.railsBoot
  exact Keeps.guardUp (Keeps.ite (Keeps.legacyRails (Keeps.upd (Keeps.chooseTable h) _ _ _ _ _ _ _ _ _ _ _ _ _ _ _ _ _ _)) (Keeps.upd (Keeps.chooseTable h) _ _ _ _ _ _ _ _ _ _ _ _ _ _ _ _ _ _)) _

theorem Keeps.keysBoot {q : List Instr} {s : State} (h : Keeps q s) (keyOk : Bool) :
    Keeps q (State.keysBoot s keyOk) := by
  unfold State.keysBoot
  exact Keeps.modInst (Keeps.updMemory (Keeps.drawKey (Keeps.drawKey h _) _) (MemWf.upd (Keeps.memOf (Keeps.drawKey (Keeps.drawKey h _) _)) _ _ _ _ _ _ _ _ _ _ _ _ _ _) _ _ _ _ _ _ _ _ _ _ _ _ _ _ _ _ _ _) _ _

theorem Keeps.diesBoot {q : List Instr} {s : State} (h : Keeps q s) (dies : ℕ) :
    Keeps q (State.diesBoot s dies) := by
  unfold State.diesBoot
  exact Keeps.foldl (fun _ _ h3 => Keeps.wr (Keeps.wr h3 _ _) _ _) (Keeps.wr h _ _)

theorem Keeps.bootAt {q : List Instr} {s : State} (h : Keeps q s) (n : ℕ) :
    Keeps q (State.bootAt s n) := by
  unfold State.bootAt
  exact Keeps.upd h _ _ _ _ _ _ _ _ _ _ _ _ _ _ _ _ _ _

theorem Keeps.coldSteps {q : List Instr} {s : State} (h : Keeps q s) (keyOk : Bool) (dies : ℕ) (fail : ℕ) :
    Keeps q (State.coldSteps s keyOk dies fail) := by
  unfold State.coldSteps
  exact Keeps.ite h (Keeps.ite (Keeps.loadFirmware h) (Keeps.ite (Keeps.raise (Keeps.railsBoot (Keeps.loadFirmware h)) _ _ _ _ _) (Keeps.ite (Keeps.raise (Keeps.loadFirmware h) _ _ _ _ _) (Keeps.ite (Keeps.raise (Keeps.railsBoot (Keeps.loadFirmware h)) _ _ _ _ _) (Keeps.bootAt (Keeps.diesBoot (Keeps.keysBoot (Keeps.railsBoot (Keeps.loadFirmware h)) _) _) _)))))

theorem Keeps.execColdReset {q : List Instr} {s : State} (h : Keeps q s) (keyOk : Bool) (dies : ℕ) (fail : ℕ) :
    KeepsO q (Sys2Proof.Machine.execColdReset keyOk dies fail s) := by
  unfold Sys2Proof.Machine.execColdReset
  exact KeepsO.done (Keeps.coldSteps h _ _ _)

theorem Keeps.bootReady {q : List Instr} {s : State} (h : Keeps q s) :
    Keeps q (State.bootReady s) := by
  unfold State.bootReady
  exact Keeps.ite h (Keeps.retarget (Keeps.upd (Keeps.setFlag (Keeps.bootAt h _) _ _) _ _ _ _ _ _ _ _ _ _ _ _ _ _ _ _ _ _))

theorem Keeps.execBootReady {q : List Instr} {s : State} (h : Keeps q s) :
    KeepsO q (Sys2Proof.Machine.execBootReady s) := by
  unfold Sys2Proof.Machine.execBootReady
  exact KeepsO.done (Keeps.bootReady h)

theorem Keeps.loadGo {q : List Instr} {s : State} (h : Keeps q s) :
    Keeps q (State.loadGo s) := by
  unfold State.loadGo
  exact Keeps.ite h (Keeps.ite (Keeps.ite (Keeps.bootAt (Keeps.setFlag (Keeps.wr h _ _) _ _) _) (Keeps.bootAt (Keeps.setFlag (Keeps.wr h _ _) _ _) _)) (Keeps.wr h _ _))

theorem Keeps.execLoadCmdGo {q : List Instr} {s : State} (h : Keeps q s) :
    KeepsO q (Sys2Proof.Machine.execLoadCmdGo s) := by
  unfold Sys2Proof.Machine.execLoadCmdGo
  exact KeepsO.done (Keeps.when h _ _ (fun _ h3 => Keeps.loadGo (Keeps.dropHeld h3 _)))

theorem Keeps.stopAll {q : List Instr} {s : State} (h : Keeps q s) :
    Keeps q (State.stopAll s) := by
  unfold State.stopAll
  exact Keeps.loseWork (Keeps.upd (Keeps.foldl (fun _ _ h3 => Keeps.dropFrames (Keeps.dropPegs (Keeps.dropJobs (Keeps.dropSteps (Keeps.dropWork h3 _) _) _) _) _) h) _ _ _ _ _ _ _ _ _ _ _ _ _ _ _ _ _ _)

theorem Keeps.flashWarm {q : List Instr} {s : State} (h : Keeps q s) :
    Keeps q (State.flashWarm s) := by
  unfold State.flashWarm
  try dsimp only
  split
  · exact Keeps.upd h _ _ _ _ _ _ _ _ _ _ _ _ _ _ _ _ _ _
  · exact Keeps.upd (Keeps.upd h _ _ _ _ _ _ _ _ _ _ _ _ _ _ _ _ _ _) _ _ _ _ _ _ _ _ _ _ _ _ _ _ _ _ _ _

theorem Keeps.warmRegs {q : List Instr} {s : State} (h : Keeps q s) :
    Keeps q (State.warmRegs s) := by
  unfold State.warmRegs
  exact Keeps.setFlag (Keeps.setFlag (Keeps.loseEntries (Keeps.upd (Keeps.ite (Keeps.setFlag (Keeps.wr (Keeps.foldl (fun _ _ h3 => Keeps.resetPage h3 _) (Keeps.resetRegs (Keeps.loseChain h) _)) _ _) _ _) (Keeps.foldl (fun _ _ h3 => Keeps.wr (Keeps.wr (Keeps.wr (Keeps.settle h3 _ _) _ _) _ _) _ _) (Keeps.setFlag (Keeps.wr (Keeps.foldl (fun _ _ h3 => Keeps.resetPage h3 _) (Keeps.resetRegs (Keeps.loseChain h) _)) _ _) _ _))) _ _ _ _ _ _ _ _ _ _ _ _ _ _ _ _ _ _)) _ _) _ _

theorem Keeps.warmState {q : List Instr} {s : State} (h : Keeps q s) (keyOk : Bool) (dies : ℕ) :
    Keeps q (State.warmState s keyOk dies) := by
  unfold State.warmState
  have hm : MemWf { s.mem with t0 := [], t1 := [], g0 := blankGranules s.mem.g0, g1 := blankGranules s.mem.g1 } :=
    ⟨Tab.wf_nil _, Tab.wf_nil _, h.mem.t2, h.mem.host, blankGranules_wf h.mem.g0, blankGranules_wf h.mem.g1, h.mem.t2Key⟩
  exact Keeps.diesBoot (Keeps.renewAll (Keeps.updMemory h hm _ _ _ _ _ _ _ _ _ _ _ _ _ _ _ _ _ _) _ _) _

theorem Keeps.warmReset {q : List Instr} {s : State} (h : Keeps q s) (cause : ℕ) (dies : ℕ) (keyOk : Bool) :
    Keeps q (State.warmReset s cause dies keyOk) := by
  unfold State.warmReset
  exact Keeps.ite (Keeps.upd (Keeps.setFlag (Keeps.wr (Keeps.bump (Keeps.wr (Keeps.warmState (Keeps.warmRegs (Keeps.flashWarm (Keeps.stopAll (Keeps.ite (Keeps.abortEntry h _ _ _) h)))) _ _) _ _) _ _) _ _) _ _) _ _ _ _ _ _ _ _ _ _ _ _ _ _ _ _ _ _) (Keeps.upd (Keeps.loadFirmware (Keeps.setFlag (Keeps.wr (Keeps.bump (Keeps.wr (Keeps.warmState (Keeps.warmRegs (Keeps.flashWarm (Keeps.stopAll (Keeps.ite (Keeps.abortEntry h _ _ _) h)))) _ _) _ _) _ _) _ _) _ _)) _ _ _ _ _ _ _ _ _ _ _ _ _ _ _ _ _ _)

theorem Keeps.askWarm {q : List Instr} {s : State} (h : Keeps q s) (cause : ℕ) (dies : ℕ) (keyOk : Bool) :
    Keeps q (State.askWarm s cause dies keyOk) := by
  unfold State.askWarm
  exact Keeps.ite h (Keeps.ite (Keeps.upd h _ _ _ _ _ _ _ _ _ _ _ _ _ _ _ _ _ _) (Keeps.warmReset h _ _ _))

theorem Keeps.execResetCtrlWarm {q : List Instr} {s : State} (h : Keeps q s) (key : ℕ) (keyOk : Bool) (dies : ℕ) :
    KeepsO q (Sys2Proof.Machine.execResetCtrlWarm key keyOk dies s) := by
  unfold Sys2Proof.Machine.execResetCtrlWarm
  exact KeepsO.done (Keeps.when h _ _ (fun _ h3 => Keeps.askWarm (Keeps.dropHeld h3 _) _ _ _))

theorem Keeps.coldByRegister {q : List Instr} {s : State} (h : Keeps q s) :
    Keeps q (State.coldByRegister s) := by
  unfold State.coldByRegister
  exact Keeps.coldStart (Keeps.flashDrain h) _ _

theorem Keeps.execResetCtrlCold {q : List Instr} {s : State} (h : Keeps q s) (key : ℕ) :
    KeepsO q (Sys2Proof.Machine.execResetCtrlCold key s) := by
  unfold Sys2Proof.Machine.execResetCtrlCold
  exact KeepsO.done (Keeps.when h _ _ (fun _ h3 => Keeps.coldByRegister (Keeps.dropHeld h3 _)))

theorem Keeps.exitEnds {q : List Instr} {s : State} (h : Keeps q s) (keyOk : Bool) :
    Keeps q (State.exitEnds s keyOk) := by
  unfold State.exitEnds
  try dsimp only
  split
  · exact Keeps.warmReset (Keeps.logicRdy h _) _ _ _
  · exact Keeps.logicRdy h _

theorem Keeps.execLogicRdy {q : List Instr} {s : State} (h : Keeps q s) (keyOk : Bool) :
    KeepsO q (Sys2Proof.Machine.execLogicRdy keyOk s) := by
  unfold Sys2Proof.Machine.execLogicRdy
  exact KeepsO.done (Keeps.when h _ _ (fun _ h3 => Keeps.exitEnds h3 _))

theorem Keeps.linkDown {q : List Instr} {s : State} (h : Keeps q s) :
    Keeps q (State.linkDown s) := by
  unfold State.linkDown
  exact Keeps.upd h _ _ _ _ _ _ _ _ _ _ _ _ _ _ _ _ _ _

theorem Keeps.perstAssert {q : List Instr} {s : State} (h : Keeps q s) (keyOk : Bool) (dies : ℕ) :
    Keeps q (State.perstAssert s keyOk dies) := by
  unfold State.perstAssert
  exact Keeps.ite (Keeps.coldStart (Keeps.flashCut (Keeps.upd (Keeps.linkDown h) _ _ _ _ _ _ _ _ _ _ _ _ _ _ _ _ _ _)) _ _) (Keeps.ite (Keeps.upd (Keeps.linkDown h) _ _ _ _ _ _ _ _ _ _ _ _ _ _ _ _ _ _) (Keeps.askWarm (Keeps.upd (Keeps.linkDown h) _ _ _ _ _ _ _ _ _ _ _ _ _ _ _ _ _ _) _ _ _))

theorem Keeps.execPerstNAssert {q : List Instr} {s : State} (h : Keeps q s) (keyOk : Bool) (dies : ℕ) :
    KeepsO q (Sys2Proof.Machine.execPerstNAssert keyOk dies s) := by
  unfold Sys2Proof.Machine.execPerstNAssert
  exact KeepsO.done (Keeps.when h _ _ (fun _ h3 => Keeps.perstAssert h3 _ _))

theorem Keeps.perstDeassert {q : List Instr} {s : State} (h : Keeps q s) :
    Keeps q (State.perstDeassert s) := by
  unfold State.perstDeassert
  exact Keeps.wake (Keeps.upd h _ _ _ _ _ _ _ _ _ _ _ _ _ _ _ _ _ _) _ _

theorem Keeps.execPerstNDeassert {q : List Instr} {s : State} (h : Keeps q s) :
    KeepsO q (Sys2Proof.Machine.execPerstNDeassert s) := by
  unfold Sys2Proof.Machine.execPerstNDeassert
  exact KeepsO.done (Keeps.when h _ _ (fun _ h3 => Keeps.perstDeassert h3))

theorem Keeps.execPcieSurpriseDown {q : List Instr} {s : State} (h : Keeps q s) :
    KeepsO q (Sys2Proof.Machine.execPcieSurpriseDown s) := by
  unfold Sys2Proof.Machine.execPcieSurpriseDown
  exact KeepsO.done (Keeps.linkDown h)

theorem Keeps.drainHost {q : List Instr} {s : State} (h : Keeps q s) :
    Keeps q (State.drainHost s) := by
  unfold State.drainHost
  exact Keeps.foldl (fun _ _ h3 => Keeps.writeRecord h3) (Keeps.foldl (fun _ _ h3 => Keeps.recordStep h3) (Keeps.releaseHosts h))

theorem Keeps.linkReturns {q : List Instr} {s : State} (h : Keeps q s) :
    Keeps q (State.linkReturns s) := by
  unfold State.linkReturns
  exact Keeps.ite h (Keeps.ite (Keeps.drainHost (Keeps.upd h _ _ _ _ _ _ _ _ _ _ _ _ _ _ _ _ _ _)) (Keeps.upd h _ _ _ _ _ _ _ _ _ _ _ _ _ _ _ _ _ _))

theorem Keeps.execPcieLinkUp {q : List Instr} {s : State} (h : Keeps q s) :
    KeepsO q (Sys2Proof.Machine.execPcieLinkUp s) := by
  unfold Sys2Proof.Machine.execPcieLinkUp
  exact KeepsO.done (Keeps.linkReturns h)

theorem Keeps.fire {q : List Instr} {s : State} (h : Keeps q s) (n : ℕ) :
    Keeps q (State.fire s n) := by
  unfold State.fire
  exact Keeps.ite (Keeps.wake (Keeps.ite (Keeps.irq (Keeps.upd (Keeps.setFlag (Keeps.setFlag h _ _) _ _) _ _ _ _ _ _ _ _ _ _ _ _ _ _ _ _ _ _) _ _) (Keeps.upd (Keeps.setFlag (Keeps.setFlag h _ _) _ _) _ _ _ _ _ _ _ _ _ _ _ _ _ _ _ _ _ _)) _ _) (Keeps.ite (Keeps.irq (Keeps.upd (Keeps.setFlag (Keeps.setFlag h _ _) _ _) _ _ _ _ _ _ _ _ _ _ _ _ _ _ _ _ _ _) _ _) (Keeps.upd (Keeps.setFlag (Keeps.setFlag h _ _) _ _) _ _ _ _ _ _ _ _ _ _ _ _ _ _ _ _ _ _))

theorem Keeps.execAlarmFire {q : List Instr} {s : State} (h : Keeps q s) (n : ℕ) :
    KeepsO q (Sys2Proof.Machine.execAlarmFire n s) := by
  unfold Sys2Proof.Machine.execAlarmFire
  exact KeepsO.unit (Keeps.when h _ _ (fun _ h3 => Keeps.fire h3 _))

theorem Keeps.writeAlarmCtrl {q : List Instr} {s : State} (h : Keeps q s) (n : ℕ) (v : ℕ) :
    Keeps q (State.writeAlarmCtrl s n v) := by
  unfold State.writeAlarmCtrl
  exact Keeps.ite (Keeps.fire (Keeps.setFlag (Keeps.setWord h _ _) _ _) _) (Keeps.setFlag (Keeps.setWord h _ _) _ _)

theorem Keeps.execAlarmCtrlWrite {q : List Instr} {s : State} (h : Keeps q s) (n : ℕ) (value : ℕ) :
    KeepsO q (Sys2Proof.Machine.execAlarmCtrlWrite n value s) := by
  unfold Sys2Proof.Machine.execAlarmCtrlWrite
  exact KeepsO.unit (Keeps.when h _ _ (fun _ h3 => Keeps.cmdWrite h3 _ _ (fun _ h5 => Keeps.writeAlarmCtrl h5 _ _)))

theorem Keeps.pulseEnds {q : List Instr} {s : State} (h : Keeps q s) (n : ℕ) :
    Keeps q (State.pulseEnds s n) := by
  unfold State.pulseEnds
  exact Keeps.upd h _ _ _ _ _ _ _ _ _ _ _ _ _ _ _ _ _ _

theorem Keeps.execToutPulseEnd {q : List Instr} {s : State} (h : Keeps q s) (n : ℕ) :
    KeepsO q (Sys2Proof.Machine.execToutPulseEnd n s) := by
  unfold Sys2Proof.Machine.execToutPulseEnd
  exact KeepsO.unit (Keeps.pulseEnds h _)

end Sys2Proof.Machine
end

