-- ==== Sys2Proof/Laws/KeepsPinOps.lean ====
section
/-!
SUPPORT. What the operations of Machine/PinOps.lean keep.
-/

namespace Sys2Proof.Machine

theorem Keeps.edge {q : List Instr} {s : State} (h : Keeps q s) (n : ℕ) (rise : Bool) :
    Keeps q (State.edge s n rise) := by
  unfold State.edge
  exact Keeps.ite h (Keeps.wake (Keeps.ite (Keeps.irq (Keeps.wr h _ _) _ _) (Keeps.wr h _ _)) _ _)

theorem Keeps.edgeFrom {q : List Instr} {s : State} (h : Keeps q s) (n : ℕ) (before : Bool) :
    Keeps q (State.edgeFrom s n before) := by
  unfold State.edgeFrom
  exact Keeps.ite h (Keeps.edge h _ _)

theorem Keeps.pinLevel {q : List Instr} {s : State} (h : Keeps q s) (n : ℕ) (high : Bool) :
    Keeps q (State.pinLevel s n high) := by
  unfold State.pinLevel
  exact Keeps.ite (Keeps.upd h _ _ _ _ _ _ _ _ _ _ _ _ _ _ _ _ _ _) (Keeps.edgeFrom (Keeps.upd (Keeps.upd h _ _ _ _ _ _ _ _ _ _ _ _ _ _ _ _ _ _) _ _ _ _ _ _ _ _ _ _ _ _ _ _ _ _ _ _) _ _)

theorem Keeps.unpark {q : List Instr} {s : State} (h : Keeps q s) (n : ℕ) :
    Keeps q (State.unpark s n) := by
  unfold State.unpark
  exact Keeps.edgeFrom (Keeps.upd h _ _ _ _ _ _ _ _ _ _ _ _ _ _ _ _ _ _) _ _

theorem Keeps.writePin {q : List Instr} {s : State} (h : Keeps q s) (n : ℕ) (v : ℕ) :
    Keeps q (State.writePin s n v) := by
  unfold State.writePin
  exact Keeps.ite (Keeps.setWord h _ _) (Keeps.upd (Keeps.setWord h _ _) _ _ _ _ _ _ _ _ _ _ _ _ _ _ _ _ _ _)

end Sys2Proof.Machine
end

