-- ==== Sys2Proof/Laws/KeepsRegRead.lean ====
section
/-!
SUPPORT. What the operations of Machine/RegRead.lean keep.
-/

namespace Sys2Proof.Machine

theorem Keeps.readWord {q : List Instr} {s : State} (h : Keeps q s) (path : ℕ) (k : ℕ) :
    Keeps q (State.readWord s path k).1 := by
  unfold State.readWord
  exact Keeps.ite1 (Keeps.pair h) (Keeps.ite1 (Keeps.readWindow h _) (by
    try dsimp only
    split
    · exact Keeps.pair (Keeps.upd h _ _ _ _ _ _ _ _ _ _ _ _ _ _ _ _ _ _)
    · exact Keeps.ite1 (Keeps.pair (Keeps.upd h _ _ _ _ _ _ _ _ _ _ _ _ _ _ _ _ _ _)) (Keeps.pair h)))

end Sys2Proof.Machine
end

