-- ==== Sys2Proof/Laws/KeepsRegWrite.lean ====
section
/-!
SUPPORT. What the operations of Machine/RegWrite.lean keep.
-/

namespace Sys2Proof.Machine

theorem Keeps.writePlain {q : List Instr} {s : State} (h : Keeps q s) (k : ℕ) (v : ℕ) :
    Keeps q (State.writePlain s k v) := by
  unfold State.writePlain
  exact Keeps.setWord h _ _

theorem Keeps.writePlain64 {q : List Instr} {s : State} (h : Keeps q s) (k : ℕ) (v : ℕ) :
    Keeps q (State.writePlain64 s k v) := by
  unfold State.writePlain64
  exact Keeps.writePlain (Keeps.writePlain h _ _) _ _

theorem Keeps.writeGpio {q : List Instr} {s : State} (h : Keeps q s) (k : ℕ) (v : ℕ) :
    Keeps q (State.writeGpio s k v) := by
  unfold State.writeGpio
  exact Keeps.foldl (fun _ _ h3 => Keeps.ite h3 (Keeps.edgeFrom h3 _ _)) (Keeps.writePlain h _ _)

theorem Keeps.writeBoot {q : List Instr} {s : State} (h : Keeps q s) (k : ℕ) (v : ℕ) :
    Keeps q (State.writeBoot s k v) := by
  unfold State.writeBoot
  exact Keeps.ite (Keeps.ite h (Keeps.ite (Keeps.askWarm h _ _ _) (Keeps.ite (Keeps.coldByRegister h) h))) (Keeps.ite (Keeps.ite (Keeps.loadGo h) h) (Keeps.writePlain h _ _))

theorem Keeps.writeTime {q : List Instr} {s : State} (h : Keeps q s) (k : ℕ) (v : ℕ) :
    Keeps q (State.writeTime s k v) := by
  unfold State.writeTime
  exact Keeps.ite (Keeps.writeAlarmCtrl h _ _) (Keeps.writePlain h _ _)

theorem Keeps.writeVolt {q : List Instr} {s : State} (h : Keeps q s) (k : ℕ) (v : ℕ) :
    Keeps q (State.writeVolt s k v) := by
  unfold State.writeVolt
  exact Keeps.ite (Keeps.writeRail h _ _) (Keeps.ite (Keeps.writeEntry h _ _) h)

theorem Keeps.writePress {q : List Instr} {s : State} (h : Keeps q s) (k : ℕ) (v : ℕ) :
    Keeps q (State.writePress s k v) := by
  unfold State.writePress
  exact Keeps.ite (Keeps.writeCap h _) (Keeps.ite (Keeps.writePressCtrl h _) (Keeps.ite (Keeps.writeChainTotal h _) (Keeps.writePlain h _ _)))

theorem Keeps.writeInst {q : List Instr} {s : State} (h : Keeps q s) (k : ℕ) (v : ℕ) :
    Keeps q (State.writeInst s k v) := by
  unfold State.writeInst
  exact Keeps.ite (Keeps.writeInstSel h _) (Keeps.ite (Keeps.ite (Keeps.instGo h _ _) h) (Keeps.upd (Keeps.writePlain h _ _) _ _ _ _ _ _ _ _ _ _ _ _ _ _ _ _ _ _))

theorem Keeps.writeErrlog {q : List Instr} {s : State} (h : Keeps q s) (k : ℕ) (v : ℕ) :
    Keeps q (State.writeErrlog s k v) := by
  unfold State.writeErrlog
  exact Keeps.ite (Keeps.writeErrlogHead h _) (Keeps.ite (Keeps.writeFatalValid h _) (Keeps.writePlain h _ _))

theorem Keeps.writeOutCfg {q : List Instr} {s : State} (h : Keeps q s) (v : ℕ) :
    Keeps q (State.writeOutCfg s v) := by
  unfold State.writeOutCfg
  exact Keeps.ite (Keeps.writePlain h _ _) (Keeps.orStage (Keeps.writePlain h _ _))

theorem Keeps.writeLaneCfg {q : List Instr} {s : State} (h : Keeps q s) (k : ℕ) (v : ℕ) :
    Keeps q (State.writeLaneCfg s k v) := by
  unfold State.writeLaneCfg
  exact Keeps.ite (Keeps.ite (Keeps.writePlain h _ _) (Keeps.wr h _ _)) (Keeps.ite (Keeps.writePlain h _ _) h)

theorem Keeps.portLand {q : List Instr} {s : State} (h : Keeps q s) (k : ℕ) (v : ℕ) :
    Keeps q (State.portLand s k v) := by
  unfold State.portLand
  exact Keeps.ite (Keeps.ite (Keeps.laneBits h _) h) (Keeps.ite (Keeps.ite (Keeps.writePlain h _ _) h) (Keeps.ite (Keeps.writeLaneCfg h _ _) (Keeps.ite (Keeps.ite (Keeps.laneGo h _ _) h) (Keeps.ite (Keeps.writeGuardAper h _ _) (Keeps.writePlain h _ _)))))

theorem Keeps.portOpen {q : List Instr} {s : State} (h : Keeps q s) :
    Keeps q (State.portOpen s) := by
  unfold State.portOpen
  exact Keeps.ite h (Keeps.foldl (fun _ _ h3 => Keeps.portLand h3 _ _) (Keeps.upd h _ _ _ _ _ _ _ _ _ _ _ _ _ _ _ _ _ _))

theorem Keeps.writeMatrix {q : List Instr} {s : State} (h : Keeps q s) (k : ℕ) (v : ℕ) :
    Keeps q (State.writeMatrix s k v) := by
  unfold State.writeMatrix
  exact Keeps.ite (Keeps.wr h _ _) h

theorem Keeps.writeGuard {q : List Instr} {s : State} (h : Keeps q s) (k : ℕ) (v : ℕ) :
    Keeps q (State.writeGuard s k v) := by
  unfold State.writeGuard
  exact Keeps.ite (Keeps.writeGuardCtrl h _) (Keeps.ite (Keeps.writeOutCfg h _) (Keeps.ite (Keeps.writeLatched h _) (Keeps.ite (Keeps.writeCmpCfg h _ _) (Keeps.overPort (Keeps.ite (Keeps.writeMatrix h _ _) h) _ _ _ (fun _ h3 => Keeps.portLand h3 _ _)))))

theorem Keeps.writeChain {q : List Instr} {s : State} (h : Keeps q s) (k : ℕ) (v : ℕ) :
    Keeps q (State.writeChain s k v) := by
  unfold State.writeChain
  exact Keeps.ite (Keeps.writeChainCtrl h _) (Keeps.ite (Keeps.writeMirrorWord h _ _ _) (Keeps.writePlain h _ _))

theorem Keeps.writePeri {q : List Instr} {s : State} (h : Keeps q s) (d : ℕ) (o : ℕ) (v : ℕ) :
    Keeps q (State.writePeri s d o v) := by
  unfold State.writePeri
  try dsimp only
  split
  · exact h
  · exact Keeps.aperIn (Keeps.upd h _ _ _ _ _ _ _ _ _ _ _ _ _ _ _ _ _ _) _

theorem Keeps.writeDie {q : List Instr} {s : State} (h : Keeps q s) (d : ℕ) (o : ℕ) (v : ℕ) :
    Keeps q (State.writeDie s d o v) := by
  unfold State.writeDie
  exact Keeps.ite (Keeps.writePeri h _ _ _) (Keeps.ite (Keeps.startVisits (Keeps.writePlain h _ _) _) (Keeps.writePlain h _ _))

theorem Keeps.takeSnap {q : List Instr} {s : State} (h : Keeps q s) (d : ℕ) :
    Keeps q (State.takeSnap s d) := by
  unfold State.takeSnap
  exact Keeps.setFlag (Keeps.wr (Keeps.upd h _ _ _ _ _ _ _ _ _ _ _ _ _ _ _ _ _ _) _ _) _ _

theorem Keeps.writeSnap {q : List Instr} {s : State} (h : Keeps q s) (v : ℕ) :
    Keeps q (State.writeSnap s v) := by
  unfold State.writeSnap
  exact Keeps.ite (Keeps.takeSnap (Keeps.wr h _ _) _) (Keeps.wr h _ _)

theorem Keeps.writeBar {q : List Instr} {s : State} (h : Keeps q s) (k : ℕ) (v : ℕ) :
    Keeps q (State.writeBar s k v) := by
  unfold State.writeBar
  exact Keeps.ite (Keeps.writeDie h _ _ _) (Keeps.ite (Keeps.writeSnap h _) (by
    try dsimp only
    split
    · exact Keeps.writeBoot h _ _
    · exact Keeps.writeTime h _ _
    · exact Keeps.ite (Keeps.writePin h _ _) (Keeps.ite (Keeps.writeGpio h _ _) (Keeps.writePlain h _ _))
    · exact Keeps.ite (Keeps.writePstateReq h _) (Keeps.writePlain h _ _)
    · exact Keeps.writeVolt h _ _
    · exact Keeps.writePress h _ _
    · exact Keeps.writeInst h _ _
    · exact Keeps.ite (Keeps.ite (Keeps.pegSnap h) h) (Keeps.writePlain h _ _)
    · exact Keeps.writeErrlog h _ _
    · exact Keeps.ite (Keeps.writeFlashCmd h _) (Keeps.writePlain h _ _)
    · exact Keeps.writeGuard h _ _
    · exact Keeps.writeChain h _ _
    · exact Keeps.writePlain h _ _))

theorem Keeps.writeMask {q : List Instr} {s : State} (h : Keeps q s) (f : ℕ) (i : ℕ) (v : ℕ) :
    Keeps q (State.writeMask s f i v) := by
  unfold State.writeMask
  exact Keeps.ite (Keeps.msix (Keeps.wr (Keeps.setFlag h _ _) _ _) _ _) (Keeps.setFlag h _ _)

theorem Keeps.aimAlias {q : List Instr} {s : State} (h : Keeps q s) (f : ℕ) (o : ℕ) (g : State → State) (hf_g : ∀ a0, Keeps q a0 → Keeps q (g a0)) :
    Keeps q (State.aimAlias s f o g) := by
  unfold State.aimAlias
  exact Keeps.ite (hf_g _ (Keeps.becomesPeg h _)) (hf_g _ (h))

theorem Keeps.writeFn {q : List Instr} {s : State} (h : Keeps q s) (f : ℕ) (o : ℕ) (v : ℕ) :
    Keeps q (State.writeFn s f o v) := by
  unfold State.writeFn
  exact Keeps.ite (Keeps.ite (Keeps.bellWrite h _ _ _ _) h) (Keeps.ite (Keeps.writeWrCtrl h _ _ _) (Keeps.ite (Keeps.writeDrCtrl h _ _ _) (Keeps.ite (Keeps.writeEvCtrl h _ _) (Keeps.ite (Keeps.aliasCmd h _ _ _ _ _) (Keeps.ite (Keeps.ite (Keeps.writePlain h _ _) h) (Keeps.ite (Keeps.writeMask h _ _ _) (Keeps.aimAlias h _ _ _ (fun _ h3 => Keeps.writePlain h3 _ _))))))))

theorem Keeps.write64 {q : List Instr} {s : State} (h : Keeps q s) (k : ℕ) (v : ℕ) :
    Keeps q (State.write64 s k v) := by
  unfold State.write64
  exact Keeps.ite (Keeps.ite h (Keeps.aimAlias h _ _ _ (fun _ h3 => Keeps.writePlain64 h3 _ _))) (Keeps.ite (Keeps.writeSpan h _ _) (Keeps.writePlain64 h _ _))

theorem Keeps.writeKey {q : List Instr} {s : State} (h : Keeps q s) (path : ℕ) (k : ℕ) (v : ℕ) :
    Keeps q (State.writeKey s path k v) := by
  unfold State.writeKey
  exact Keeps.ite (Keeps.writeFn h _ _ _) (Keeps.ite h (Keeps.ite (Keeps.ite (Keeps.upd (Keeps.dropHeld h _) _ _ _ _ _ _ _ _ _ _ _ _ _ _ _ _ _ _) (Keeps.write64 (Keeps.dropHeld h _) _ _)) (Keeps.ite (Keeps.writeFn (Keeps.dropHeld h _) _ _ _) (Keeps.writeBar (Keeps.dropHeld h _) _ _))))

theorem Keeps.swapSelects {q : List Instr} {s : State} (h : Keeps q s) :
    Keeps q (State.swapSelects s) := by
  unfold State.swapSelects
  exact Keeps.foldl (fun _ _ h3 => Keeps.setWord (Keeps.upd h3 _ _ _ _ _ _ _ _ _ _ _ _ _ _ _ _ _ _) _ _) h

theorem Keeps.windowDone {q : List Instr} {s : State} (h : Keeps q s) (path : ℕ) (value : ℕ) :
    Keeps q (State.windowDone s path value) := by
  unfold State.windowDone
  exact Keeps.ite (Keeps.upd h _ _ _ _ _ _ _ _ _ _ _ _ _ _ _ _ _ _) (Keeps.upd h _ _ _ _ _ _ _ _ _ _ _ _ _ _ _ _ _ _)

theorem Keeps.served {q : List Instr} {s : State} (h : Keeps q s) (write : Bool) (o : ℕ) (v : ℕ) :
    Keeps q (State.served s write o v).1 := by
  unfold State.served
  exact Keeps.ite1 (Keeps.pair h) (Keeps.ite1 (Keeps.ite1 (Keeps.pair (Keeps.writeKey h _ _ _)) (Keeps.pair h)) (Keeps.readWord h _ _))

theorem Keeps.remoteAccess {q : List Instr} {s : State} (h : Keeps q s) (path : ℕ) (write : Bool) (off : ℕ) (v : ℕ) :
    Keeps q (State.remoteAccess s path write off v) := by
  unfold State.remoteAccess
  exact Keeps.ite (Keeps.windowDone h _ _) (Keeps.ite (Keeps.windowDone (Keeps.served h _ _ _) _ _) (Keeps.sendFlit (Keeps.upd h _ _ _ _ _ _ _ _ _ _ _ _ _ _ _ _ _ _) _ _ _))

theorem Keeps.accessWrite {q : List Instr} {s : State} (h : Keeps q s) (path : ℕ) (off : ℕ) (v : ℕ) :
    Keeps q (State.accessWrite s path off v) := by
  unfold State.accessWrite
  exact Keeps.ite h (Keeps.ite (Keeps.pcieTouch (Keeps.remoteAccess (Keeps.dropHeld h _) _ _ _ _) _) (Keeps.ite (Keeps.pcieTouch (Keeps.ite (Keeps.dropHeld h _) h) _) (Keeps.ite (Keeps.writeKey (Keeps.pcieTouch h _) _ _ _) (Keeps.ite (Keeps.voltTouch (Keeps.writeKey h _ _ _)) (Keeps.ite (Keeps.writeKey h _ _ _) (Keeps.pcieTouch (Keeps.writeKey h _ _ _) _))))))

theorem Keeps.accessRead {q : List Instr} {s : State} (h : Keeps q s) (path : ℕ) (off : ℕ) :
    Keeps q (State.accessRead s path off).1 := by
  unfold State.accessRead
  exact Keeps.readWord h _ _

end Sys2Proof.Machine
end

