-- ==== Sys2Proof/Laws/KeepsRegisters.lean ====
section
/-!
SUPPORT. What the operations of Machine/Registers.lean keep.
-/

namespace Sys2Proof.Machine

theorem Keeps.execRegisterWrite {q : List Instr} {s : State} (h : Keeps q s) (path : ℕ) (off : ℕ) (value : ℕ) :
    KeepsO q (Sys2Proof.Machine.execRegisterWrite path off value s) := by
  unfold Sys2Proof.Machine.execRegisterWrite
  exact KeepsO.unit (Keeps.when h _ _ (fun _ h3 => Keeps.accessWrite h3 _ _ _))

theorem Keeps.execSkewMonitorRelease {q : List Instr} {s : State} (h : Keeps q s) (d : ℕ) (x : ℕ) :
    KeepsO q (Sys2Proof.Machine.execSkewMonitorRelease d x s) := by
  unfold Sys2Proof.Machine.execSkewMonitorRelease
  exact KeepsO.unit (Keeps.portOpen (Keeps.skewRelease h _ _))

theorem Keeps.aperture {q : List Instr} {s : State} (h : Keeps q s) (d : ℕ) (off : ℕ) (write : Bool) (v : ℕ) :
    Keeps q (State.aperture s d off write v) := by
  unfold State.aperture
  exact Keeps.ite (Keeps.accessWrite h _ _ _) (Keeps.pcieTouch (Keeps.upd (Keeps.accessRead h _ _) _ _ _ _ _ _ _ _ _ _ _ _ _ _ _ _ _ _) _)

theorem Keeps.execPeriApertureAccess {q : List Instr} {s : State} (h : Keeps q s) (d : ℕ) (off : ℕ) (write : Bool) (value : ℕ) :
    KeepsO q (Sys2Proof.Machine.execPeriApertureAccess d off write value s) := by
  unfold Sys2Proof.Machine.execPeriApertureAccess
  exact KeepsO.unit (Keeps.when h _ _ (fun _ h3 => Keeps.aperture h3 _ _ _ _))

theorem Keeps.execClipClear {q : List Instr} {s : State} (h : Keeps q s) (d : ℕ) (value : ℕ) :
    KeepsO q (Sys2Proof.Machine.execClipClear d value s) := by
  unfold Sys2Proof.Machine.execClipClear
  exact KeepsO.unit (Keeps.when h _ _ (fun _ h3 => Keeps.aperture h3 _ _ _ _))

theorem Keeps.execDebugSnapTake {q : List Instr} {s : State} (h : Keeps q s) (value : ℕ) :
    KeepsO q (Sys2Proof.Machine.execDebugSnapTake value s) := by
  unfold Sys2Proof.Machine.execDebugSnapTake
  exact KeepsO.done (Keeps.when h _ _ (fun _ h3 => Keeps.accessWrite h3 _ _ _))

theorem Keeps.setRegacc {q : List Instr} {s : State} (h : Keeps q s) (v : ℕ) :
    Keeps q (State.setRegacc s v) := by
  unfold State.setRegacc
  exact Keeps.upd h _ _ _ _ _ _ _ _ _ _ _ _ _ _ _ _ _ _

theorem Keeps.regaccRun {q : List Instr} {s : State} (h : Keeps q s) (write : Bool) (o : ℕ) (v : ℕ) :
    Keeps q (State.regaccRun s write o v) := by
  unfold State.regaccRun
  exact Keeps.ite (Keeps.setRegacc h _) (Keeps.swapSelects (Keeps.ite (Keeps.remoteAccess (Keeps.setRegacc (Keeps.ite (Keeps.dropHeld (Keeps.swapSelects h) _) (Keeps.swapSelects h)) _) _ _ _ _) (Keeps.ite (Keeps.setRegacc (Keeps.ite (Keeps.writeKey (Keeps.swapSelects h) _ _ _) (Keeps.swapSelects h)) _) (Keeps.setRegacc (Keeps.readWord (Keeps.swapSelects h) _ _) _))))

theorem Keeps.regacc {q : List Instr} {s : State} (h : Keeps q s) (dr : ℕ) :
    Keeps q (State.regacc s dr) := by
  unfold State.regacc
  exact Keeps.ite (Keeps.regaccRun (Keeps.upd h _ _ _ _ _ _ _ _ _ _ _ _ _ _ _ _ _ _) _ _ _) (Keeps.ite (Keeps.regaccRun (Keeps.upd h _ _ _ _ _ _ _ _ _ _ _ _ _ _ _ _ _ _) _ _ _) (Keeps.upd h _ _ _ _ _ _ _ _ _ _ _ _ _ _ _ _ _ _))

theorem Keeps.execRegacc {q : List Instr} {s : State} (h : Keeps q s) (dr : ℕ) :
    KeepsO q (Sys2Proof.Machine.execRegacc dr s) := by
  unfold Sys2Proof.Machine.execRegacc
  exact KeepsO.done (Keeps.when h _ _ (fun _ h3 => Keeps.regacc h3 _))

theorem Keeps.execRemoteWindowAccess {q : List Instr} {s : State} (h : Keeps q s) (off : ℕ) (write : Bool) (value : ℕ) :
    KeepsO q (Sys2Proof.Machine.execRemoteWindowAccess off write value s) := by
  unfold Sys2Proof.Machine.execRemoteWindowAccess
  exact KeepsO.unit (Keeps.when h _ _ (fun _ h3 => Keeps.pcieTouch (Keeps.remoteAccess (Keeps.ite (Keeps.dropHeld h3 _) h3) _ _ _ _) _))

theorem Keeps.windowLate {q : List Instr} {s : State} (h : Keeps q s) :
    Keeps q (State.windowLate s) := by
  unfold State.windowLate
  try dsimp only
  split
  · exact h
  · exact Keeps.ite h (Keeps.windowDone (Keeps.setFlag (Keeps.upd h _ _ _ _ _ _ _ _ _ _ _ _ _ _ _ _ _ _) _ _) _ _)

theorem Keeps.execRemoteWindowTimeout {q : List Instr} {s : State} (h : Keeps q s) :
    KeepsO q (Sys2Proof.Machine.execRemoteWindowTimeout s) := by
  unfold Sys2Proof.Machine.execRemoteWindowTimeout
  exact KeepsO.done (Keeps.when h _ _ (fun _ h3 => Keeps.windowLate h3))

theorem Keeps.takeResponse {q : List Instr} {s : State} (h : Keeps q s) (f : Flit) (write : Bool) (o : ℕ) (v : ℕ) :
    Keeps q (State.takeResponse s f write o v) := by
  unfold State.takeResponse
  try dsimp only
  split
  · exact h
  · exact Keeps.windowDone (Keeps.upd h _ _ _ _ _ _ _ _ _ _ _ _ _ _ _ _ _ _) _ _

theorem Keeps.takeRequest {q : List Instr} {s : State} (h : Keeps q s) (f : Flit) (write : Bool) (o : ℕ) (v : ℕ) :
    Keeps q (State.takeRequest s f write o v) := by
  unfold State.takeRequest
  exact Keeps.sendBack (Keeps.served h _ _ _) _ _

theorem Keeps.execRegFlit {q : List Instr} {s : State} (h : Keeps q s) (p : ℕ) (f : Flit) :
    KeepsO q (Sys2Proof.Machine.execRegFlit p f s) := by
  unfold Sys2Proof.Machine.execRegFlit
  exact KeepsO.unit (by
    try dsimp only
    split
    · exact Keeps.deliver h _ _ _ (fun _ h3 => Keeps.ite (Keeps.takeResponse h3 _ _ _ _) (Keeps.takeRequest h3 _ _ _ _))
    · exact Keeps.strange h _ _)

end Sys2Proof.Machine
end

