-- ==== Sys2Proof/Laws/KeepsPins.lean ====
section
/-!
SUPPORT. What the operations of Machine/Pins.lean keep.
-/

namespace Sys2Proof.Machine

theorem Keeps.jtagTake {q : List Instr} {s : State} (h : Keeps q s) (code : ℕ) (dr : ℕ) :
    Keeps q (State.jtagTake s code dr) := by
  unfold State.jtagTake
  exact Keeps.upd h _ _ _ _ _ _ _ _ _ _ _ _ _ _ _ _ _ _

theorem Keeps.execBypass {q : List Instr} {s : State} (h : Keeps q s) :
    KeepsO q (Sys2Proof.Machine.execBypass s) := by
  unfold Sys2Proof.Machine.execBypass
  exact KeepsO.done (Keeps.when h _ _ (fun _ h3 => Keeps.jtagTake h3 _ _))

theorem Keeps.execIdcode {q : List Instr} {s : State} (h : Keeps q s) :
    KeepsO q (Sys2Proof.Machine.execIdcode s) := by
  unfold Sys2Proof.Machine.execIdcode
  exact KeepsO.done (Keeps.when h _ _ (fun _ h3 => Keeps.jtagTake h3 _ _))

theorem Keeps.execSamplePreload {q : List Instr} {s : State} (h : Keeps q s) (pins : ℕ) :
    KeepsO q (Sys2Proof.Machine.execSamplePreload pins s) := by
  unfold Sys2Proof.Machine.execSamplePreload
  exact KeepsO.done (Keeps.when h _ _ (fun _ h3 => Keeps.jtagTake h3 _ _))

theorem Keeps.extestTake {q : List Instr} {s : State} (h : Keeps q s) (code : ℕ) :
    Keeps q (State.extestTake s code) := by
  unfold State.extestTake
  exact Keeps.ite (Keeps.upd (Keeps.jtagTake h _ _) _ _ _ _ _ _ _ _ _ _ _ _ _ _ _ _ _ _) (Keeps.jtagTake h _ _)

theorem Keeps.execExtest {q : List Instr} {s : State} (h : Keeps q s) :
    KeepsO q (Sys2Proof.Machine.execExtest s) := by
  unfold Sys2Proof.Machine.execExtest
  exact KeepsO.done (Keeps.when h _ _ (fun _ h3 => Keeps.extestTake h3 _))

theorem Keeps.execExtestPulse {q : List Instr} {s : State} (h : Keeps q s) :
    KeepsO q (Sys2Proof.Machine.execExtestPulse s) := by
  unfold Sys2Proof.Machine.execExtestPulse
  exact KeepsO.done (Keeps.when h _ _ (fun _ h3 => Keeps.extestTake h3 _))

theorem Keeps.execExtestTrain {q : List Instr} {s : State} (h : Keeps q s) :
    KeepsO q (Sys2Proof.Machine.execExtestTrain s) := by
  unfold Sys2Proof.Machine.execExtestTrain
  exact KeepsO.done (Keeps.when h _ _ (fun _ h3 => Keeps.extestTake h3 _))

theorem Keeps.execPinmuxFuncWrite {q : List Instr} {s : State} (h : Keeps q s) (n : ℕ) (value : ℕ) :
    KeepsO q (Sys2Proof.Machine.execPinmuxFuncWrite n value s) := by
  unfold Sys2Proof.Machine.execPinmuxFuncWrite
  exact KeepsO.unit (Keeps.when h _ _ (fun _ h3 => Keeps.accessWrite h3 _ _ _))

theorem Keeps.execParkEnd {q : List Instr} {s : State} (h : Keeps q s) (n : ℕ) :
    KeepsO q (Sys2Proof.Machine.execParkEnd n s) := by
  unfold Sys2Proof.Machine.execParkEnd
  exact KeepsO.unit (Keeps.when h _ _ (fun _ h3 => Keeps.unpark h3 _))

theorem Keeps.execGpioEdge {q : List Instr} {s : State} (h : Keeps q s) (n : ℕ) (rise : Bool) :
    KeepsO q (Sys2Proof.Machine.execGpioEdge n rise s) := by
  unfold Sys2Proof.Machine.execGpioEdge
  exact KeepsO.unit (Keeps.when h _ _ (fun _ h3 => Keeps.pinLevel h3 _ _))

theorem Keeps.i3cIndex {q : List Instr} {s : State} (h : Keeps q s) (p : ℕ) (i : ℕ) :
    Keeps q (State.i3cIndex s p i) := by
  unfold State.i3cIndex
  exact Keeps.upd h _ _ _ _ _ _ _ _ _ _ _ _ _ _ _ _ _ _

theorem Keeps.execI3cPrivateWrite {q : List Instr} {s : State} (h : Keeps q s) (port : ℕ) (index : ℕ) :
    KeepsO q (Sys2Proof.Machine.execI3cPrivateWrite port index s) := by
  unfold Sys2Proof.Machine.execI3cPrivateWrite
  exact KeepsO.unit (Keeps.when h _ _ (fun _ h3 => Keeps.i3cIndex h3 _ _))

theorem Keeps.i3cRead {q : List Instr} {s : State} (h : Keeps q s) (p : ℕ) (n : ℕ) :
    Keeps q (State.i3cRead s p n) := by
  unfold State.i3cRead
  exact Keeps.i3cIndex (Keeps.upd h _ _ _ _ _ _ _ _ _ _ _ _ _ _ _ _ _ _) _ _

theorem Keeps.execI3cPrivateRead {q : List Instr} {s : State} (h : Keeps q s) (port : ℕ) (n : ℕ) :
    KeepsO q (Sys2Proof.Machine.execI3cPrivateRead port n s) := by
  unfold Sys2Proof.Machine.execI3cPrivateRead
  exact KeepsO.unit (Keeps.when h _ _ (fun _ h3 => Keeps.i3cRead h3 _ _))

theorem Keeps.i3cAssign {q : List Instr} {s : State} (h : Keeps q s) (p : ℕ) (addr : ℕ) :
    Keeps q (State.i3cAssign s p addr) := by
  unfold State.i3cAssign
  exact Keeps.ite (Keeps.upd h _ _ _ _ _ _ _ _ _ _ _ _ _ _ _ _ _ _) h

theorem Keeps.execEntdaa {q : List Instr} {s : State} (h : Keeps q s) (port : ℕ) (addr : ℕ) :
    KeepsO q (Sys2Proof.Machine.execEntdaa port addr s) := by
  unfold Sys2Proof.Machine.execEntdaa
  exact KeepsO.unit (Keeps.when h _ _ (fun _ h3 => Keeps.i3cAssign h3 _ _))

theorem Keeps.execSetdasa {q : List Instr} {s : State} (h : Keeps q s) (port : ℕ) (addr : ℕ) :
    KeepsO q (Sys2Proof.Machine.execSetdasa port addr s) := by
  unfold Sys2Proof.Machine.execSetdasa
  exact KeepsO.unit (Keeps.when h _ _ (fun _ h3 => Keeps.i3cAssign h3 _ _))

theorem Keeps.spi {q : List Instr} {s : State} (h : Keeps q s) (i : ℕ) (n : ℕ) :
    Keeps q (State.spi s i n) := by
  unfold State.spi
  exact Keeps.upd h _ _ _ _ _ _ _ _ _ _ _ _ _ _ _ _ _ _

theorem Keeps.execSpiTransaction {q : List Instr} {s : State} (h : Keeps q s) (index : ℕ) (n : ℕ) :
    KeepsO q (Sys2Proof.Machine.execSpiTransaction index n s) := by
  unfold Sys2Proof.Machine.execSpiTransaction
  exact KeepsO.done (Keeps.when h _ _ (fun _ h3 => Keeps.spi h3 _ _))

theorem Keeps.lineSent {q : List Instr} {s : State} (h : Keeps q s) :
    Keeps q (State.lineSent s) := by
  unfold State.lineSent
  exact Keeps.upd h _ _ _ _ _ _ _ _ _ _ _ _ _ _ _ _ _ _

theorem Keeps.execUartLineSent {q : List Instr} {s : State} (h : Keeps q s) :
    KeepsO q (Sys2Proof.Machine.execUartLineSent s) := by
  unfold Sys2Proof.Machine.execUartLineSent
  exact KeepsO.done (Keeps.when h _ _ (fun _ h3 => Keeps.lineSent h3))

end Sys2Proof.Machine
end

