-- ==== Sys2Proof/Laws/KeepsTick.lean ====
section
/-!
SUPPORT. What the operations of Machine/Tick.lean keep.
-/

namespace Sys2Proof.Machine

theorem Keeps.ageWaits {q : List Instr} {s : State} (h : Keeps q s) (dt : ℕ) :
    Keeps q (State.ageWaits s dt) := by
  unfold State.ageWaits
  exact Keeps.ite (Keeps.upd h _ _ _ _ _ _ _ _ _ _ _ _ _ _ _ _ _ _) h

theorem Keeps.scrubClock {q : List Instr} {s : State} (h : Keeps q s) (dt : ℕ) :
    Keeps q (State.scrubClock s dt) := by
  unfold State.scrubClock
  exact Keeps.ite (Keeps.updMemory h (MemWf.upd (Keeps.memOf h) _ _ _ _ _ _ _ _ _ _ _ _ _ _) _ _ _ _ _ _ _ _ _ _ _ _ _ _ _ _ _ _) h

theorem Keeps.upset {q : List Instr} {s : State} (h : Keeps q s) :
    Keeps q (State.upset s) := by
  unfold State.upset
  exact Keeps.updMemory (Keeps.skip h _) (MemWf.ite (MemWf.upd (Keeps.memOf h) _ _ _ _ _ _ _ _ _ _ _ _ _ _) (MemWf.ite (Mem.upsetSram_wf (Keeps.memOf h) _ _ _) (MemWf.ite (Mem.upsetSram_wf (Keeps.memOf h) _ _ _) (Keeps.memOf h)))) _ _ _ _ _ _ _ _ _ _ _ _ _ _ _ _ _ _

theorem Keeps.ageStep {q : List Instr} {s : State} (h : Keeps q s) (dt : ℕ) :
    Keeps q (State.ageStep s dt) := by
  unfold State.ageStep
  exact Keeps.ite (Keeps.skip (Keeps.grow h _) _) (Keeps.grow h _)

theorem Keeps.idle {q : List Instr} {s : State} (h : Keeps q s) :
    Keeps q (State.idle s) := by
  unfold State.idle
  exact Keeps.upd (Keeps.portOpen (Keeps.ite (Keeps.foldl (fun _ _ h3 => Keeps.sendIdle h3 _) (Keeps.aperAll (Keeps.upset (Keeps.ageStep (Keeps.scrubClock (Keeps.ageWaits (Keeps.ite (Keeps.chargeStalls h _) h) _) _) _)))) (Keeps.aperAll (Keeps.upset (Keeps.ageStep (Keeps.scrubClock (Keeps.ageWaits (Keeps.ite (Keeps.chargeStalls h _) h) _) _) _))))) _ _ _ _ _ _ _ _ _ _ _ _ _ _ _ _ _ _

end Sys2Proof.Machine
end

