-- ==== Sys2Proof/Laws/State.lean ====
section
/-!
SUPPORT. What the shared operations leave alone: one lemma per operation and part of the state, and the reads that a
change of another part does not touch. None of them is proved by `rfl` alone, so that `simp` rewrites with them and the kernel is not left to
compare whole states.
-/

namespace Sys2Proof.Machine

/-! ### Reads of registers after a change of another part -/

theorem State.word_congr {s t : State} (h : t.regs = s.regs) (j : Nat) : t.word j = s.word j := by
  rw [State.word, State.word, h]
theorem State.word64_congr {s t : State} (h : t.regs = s.regs) (j : Nat) : t.word64 j = s.word64 j := by
  rw [State.word64, State.word64, State.word_congr h, State.word_congr h]
theorem State.rd_congr {s t : State} (h : t.regs = s.regs) (j : RField) : t.rd j = s.rd j := by
  rw [State.rd, State.rd, State.word_congr h, State.word64_congr h]
theorem State.flag_congr {s t : State} (h : t.regs = s.regs) (j : RField) : t.flag j = s.flag j := by
  rw [State.flag, State.flag, State.rd_congr h]

@[simp] theorem State.word_with_holds (s : State) (x : Holds) (k : Nat) : ({ s with holds := x } : State).word k = s.word k :=
  State.word_congr rfl k
@[simp] theorem State.word64_with_holds (s : State) (x : Holds) (k : Nat) : ({ s with holds := x } : State).word64 k = s.word64 k :=
  State.word64_congr rfl k
@[simp] theorem State.rd_with_holds (s : State) (x : Holds) (k : RField) : ({ s with holds := x } : State).rd k = s.rd k :=
  State.rd_congr rfl k
@[simp] theorem State.flag_with_holds (s : State) (x : Holds) (k : RField) : ({ s with holds := x } : State).flag k = s.flag k :=
  State.flag_congr rfl k
@[simp] theorem State.word_with_clock (s : State) (x : Clock) (k : Nat) : ({ s with clock := x } : State).word k = s.word k :=
  State.word_congr rfl k
@[simp] theorem State.word64_with_clock (s : State) (x : Clock) (k : Nat) : ({ s with clock := x } : State).word64 k = s.word64 k :=
  State.word64_congr rfl k
@[simp] theorem State.rd_with_clock (s : State) (x : Clock) (k : RField) : ({ s with clock := x } : State).rd k = s.rd k :=
  State.rd_congr rfl k
@[simp] theorem State.flag_with_clock (s : State) (x : Clock) (k : RField) : ({ s with clock := x } : State).flag k = s.flag k :=
  State.flag_congr rfl k
@[simp] theorem State.word_with_errs (s : State) (x : Errs) (k : Nat) : ({ s with errs := x } : State).word k = s.word k :=
  State.word_congr rfl k
@[simp] theorem State.word64_with_errs (s : State) (x : Errs) (k : Nat) : ({ s with errs := x } : State).word64 k = s.word64 k :=
  State.word64_congr rfl k
@[simp] theorem State.rd_with_errs (s : State) (x : Errs) (k : RField) : ({ s with errs := x } : State).rd k = s.rd k :=
  State.rd_congr rfl k
@[simp] theorem State.flag_with_errs (s : State) (x : Errs) (k : RField) : ({ s with errs := x } : State).flag k = s.flag k :=
  State.flag_congr rfl k
@[simp] theorem State.word_with_insts (s : State) (x : Tab Inst) (k : Nat) : ({ s with insts := x } : State).word k = s.word k :=
  State.word_congr rfl k
@[simp] theorem State.word64_with_insts (s : State) (x : Tab Inst) (k : Nat) : ({ s with insts := x } : State).word64 k = s.word64 k :=
  State.word64_congr rfl k
@[simp] theorem State.rd_with_insts (s : State) (x : Tab Inst) (k : RField) : ({ s with insts := x } : State).rd k = s.rd k :=
  State.rd_congr rfl k
@[simp] theorem State.flag_with_insts (s : State) (x : Tab Inst) (k : RField) : ({ s with insts := x } : State).flag k = s.flag k :=
  State.flag_congr rfl k
@[simp] theorem State.word_with_mem (s : State) (x : Mem) (k : Nat) : ({ s with mem := x } : State).word k = s.word k :=
  State.word_congr rfl k
@[simp] theorem State.word64_with_mem (s : State) (x : Mem) (k : Nat) : ({ s with mem := x } : State).word64 k = s.word64 k :=
  State.word64_congr rfl k
@[simp] theorem State.rd_with_mem (s : State) (x : Mem) (k : RField) : ({ s with mem := x } : State).rd k = s.rd k :=
  State.rd_congr rfl k
@[simp] theorem State.flag_with_mem (s : State) (x : Mem) (k : RField) : ({ s with mem := x } : State).flag k = s.flag k :=
  State.flag_congr rfl k
@[simp] theorem State.word_with_rings (s : State) (x : Rings) (k : Nat) : ({ s with rings := x } : State).word k = s.word k :=
  State.word_congr rfl k
@[simp] theorem State.word64_with_rings (s : State) (x : Rings) (k : Nat) : ({ s with rings := x } : State).word64 k = s.word64 k :=
  State.word64_congr rfl k
@[simp] theorem State.rd_with_rings (s : State) (x : Rings) (k : RField) : ({ s with rings := x } : State).rd k = s.rd k :=
  State.rd_congr rfl k
@[simp] theorem State.flag_with_rings (s : State) (x : Rings) (k : RField) : ({ s with rings := x } : State).flag k = s.flag k :=
  State.flag_congr rfl k
@[simp] theorem State.word_with_arr (s : State) (x : Array_) (k : Nat) : ({ s with arr := x } : State).word k = s.word k :=
  State.word_congr rfl k
@[simp] theorem State.word64_with_arr (s : State) (x : Array_) (k : Nat) : ({ s with arr := x } : State).word64 k = s.word64 k :=
  State.word64_congr rfl k
@[simp] theorem State.rd_with_arr (s : State) (x : Array_) (k : RField) : ({ s with arr := x } : State).rd k = s.rd k :=
  State.rd_congr rfl k
@[simp] theorem State.flag_with_arr (s : State) (x : Array_) (k : RField) : ({ s with arr := x } : State).flag k = s.flag k :=
  State.flag_congr rfl k
@[simp] theorem State.word_with_steps (s : State) (x : List Step) (k : Nat) : ({ s with steps := x } : State).word k = s.word k :=
  State.word_congr rfl k
@[simp] theorem State.word64_with_steps (s : State) (x : List Step) (k : Nat) : ({ s with steps := x } : State).word64 k = s.word64 k :=
  State.word64_congr rfl k
@[simp] theorem State.rd_with_steps (s : State) (x : List Step) (k : RField) : ({ s with steps := x } : State).rd k = s.rd k :=
  State.rd_congr rfl k
@[simp] theorem State.flag_with_steps (s : State) (x : List Step) (k : RField) : ({ s with steps := x } : State).flag k = s.flag k :=
  State.flag_congr rfl k
@[simp] theorem State.word_with_pe (s : State) (x : List (Nat × PeRun)) (k : Nat) : ({ s with pe := x } : State).word k = s.word k :=
  State.word_congr rfl k
@[simp] theorem State.word64_with_pe (s : State) (x : List (Nat × PeRun)) (k : Nat) : ({ s with pe := x } : State).word64 k = s.word64 k :=
  State.word64_congr rfl k
@[simp] theorem State.rd_with_pe (s : State) (x : List (Nat × PeRun)) (k : RField) : ({ s with pe := x } : State).rd k = s.rd k :=
  State.rd_congr rfl k
@[simp] theorem State.flag_with_pe (s : State) (x : List (Nat × PeRun)) (k : RField) : ({ s with pe := x } : State).flag k = s.flag k :=
  State.flag_congr rfl k
@[simp] theorem State.word_with_pegs (s : State) (x : Pegs) (k : Nat) : ({ s with pegs := x } : State).word k = s.word k :=
  State.word_congr rfl k
@[simp] theorem State.word64_with_pegs (s : State) (x : Pegs) (k : Nat) : ({ s with pegs := x } : State).word64 k = s.word64 k :=
  State.word64_congr rfl k
@[simp] theorem State.rd_with_pegs (s : State) (x : Pegs) (k : RField) : ({ s with pegs := x } : State).rd k = s.rd k :=
  State.rd_congr rfl k
@[simp] theorem State.flag_with_pegs (s : State) (x : Pegs) (k : RField) : ({ s with pegs := x } : State).flag k = s.flag k :=
  State.flag_congr rfl k
@[simp] theorem State.word_with_guard (s : State) (x : Guard) (k : Nat) : ({ s with guard := x } : State).word k = s.word k :=
  State.word_congr rfl k
@[simp] theorem State.word64_with_guard (s : State) (x : Guard) (k : Nat) : ({ s with guard := x } : State).word64 k = s.word64 k :=
  State.word64_congr rfl k
@[simp] theorem State.rd_with_guard (s : State) (x : Guard) (k : RField) : ({ s with guard := x } : State).rd k = s.rd k :=
  State.rd_congr rfl k
@[simp] theorem State.flag_with_guard (s : State) (x : Guard) (k : RField) : ({ s with guard := x } : State).flag k = s.flag k :=
  State.flag_congr rfl k
@[simp] theorem State.word_with_csi (s : State) (x : Csi) (k : Nat) : ({ s with csi := x } : State).word k = s.word k :=
  State.word_congr rfl k
@[simp] theorem State.word64_with_csi (s : State) (x : Csi) (k : Nat) : ({ s with csi := x } : State).word64 k = s.word64 k :=
  State.word64_congr rfl k
@[simp] theorem State.rd_with_csi (s : State) (x : Csi) (k : RField) : ({ s with csi := x } : State).rd k = s.rd k :=
  State.rd_congr rfl k
@[simp] theorem State.flag_with_csi (s : State) (x : Csi) (k : RField) : ({ s with csi := x } : State).flag k = s.flag k :=
  State.flag_congr rfl k
@[simp] theorem State.word_with_power (s : State) (x : Power) (k : Nat) : ({ s with power := x } : State).word k = s.word k :=
  State.word_congr rfl k
@[simp] theorem State.word64_with_power (s : State) (x : Power) (k : Nat) : ({ s with power := x } : State).word64 k = s.word64 k :=
  State.word64_congr rfl k
@[simp] theorem State.rd_with_power (s : State) (x : Power) (k : RField) : ({ s with power := x } : State).rd k = s.rd k :=
  State.rd_congr rfl k
@[simp] theorem State.flag_with_power (s : State) (x : Power) (k : RField) : ({ s with power := x } : State).flag k = s.flag k :=
  State.flag_congr rfl k
@[simp] theorem State.word_with_volt (s : State) (x : Volt) (k : Nat) : ({ s with volt := x } : State).word k = s.word k :=
  State.word_congr rfl k
@[simp] theorem State.word64_with_volt (s : State) (x : Volt) (k : Nat) : ({ s with volt := x } : State).word64 k = s.word64 k :=
  State.word64_congr rfl k
@[simp] theorem State.rd_with_volt (s : State) (x : Volt) (k : RField) : ({ s with volt := x } : State).rd k = s.rd k :=
  State.rd_congr rfl k
@[simp] theorem State.flag_with_volt (s : State) (x : Volt) (k : RField) : ({ s with volt := x } : State).flag k = s.flag k :=
  State.flag_congr rfl k
@[simp] theorem State.word_with_press (s : State) (x : Press) (k : Nat) : ({ s with press := x } : State).word k = s.word k :=
  State.word_congr rfl k
@[simp] theorem State.word64_with_press (s : State) (x : Press) (k : Nat) : ({ s with press := x } : State).word64 k = s.word64 k :=
  State.word64_congr rfl k
@[simp] theorem State.rd_with_press (s : State) (x : Press) (k : RField) : ({ s with press := x } : State).rd k = s.rd k :=
  State.rd_congr rfl k
@[simp] theorem State.flag_with_press (s : State) (x : Press) (k : RField) : ({ s with press := x } : State).flag k = s.flag k :=
  State.flag_congr rfl k
@[simp] theorem State.word_with_flash (s : State) (x : Flash) (k : Nat) : ({ s with flash := x } : State).word k = s.word k :=
  State.word_congr rfl k
@[simp] theorem State.word64_with_flash (s : State) (x : Flash) (k : Nat) : ({ s with flash := x } : State).word64 k = s.word64 k :=
  State.word64_congr rfl k
@[simp] theorem State.rd_with_flash (s : State) (x : Flash) (k : RField) : ({ s with flash := x } : State).rd k = s.rd k :=
  State.rd_congr rfl k
@[simp] theorem State.flag_with_flash (s : State) (x : Flash) (k : RField) : ({ s with flash := x } : State).flag k = s.flag k :=
  State.flag_congr rfl k
@[simp] theorem State.word_with_chain (s : State) (x : Chain) (k : Nat) : ({ s with chain := x } : State).word k = s.word k :=
  State.word_congr rfl k
@[simp] theorem State.word64_with_chain (s : State) (x : Chain) (k : Nat) : ({ s with chain := x } : State).word64 k = s.word64 k :=
  State.word64_congr rfl k
@[simp] theorem State.rd_with_chain (s : State) (x : Chain) (k : RField) : ({ s with chain := x } : State).rd k = s.rd k :=
  State.rd_congr rfl k
@[simp] theorem State.flag_with_chain (s : State) (x : Chain) (k : RField) : ({ s with chain := x } : State).flag k = s.flag k :=
  State.flag_congr rfl k
@[simp] theorem State.word_with_board (s : State) (x : Board) (k : Nat) : ({ s with board := x } : State).word k = s.word k :=
  State.word_congr rfl k
@[simp] theorem State.word64_with_board (s : State) (x : Board) (k : Nat) : ({ s with board := x } : State).word64 k = s.word64 k :=
  State.word64_congr rfl k
@[simp] theorem State.rd_with_board (s : State) (x : Board) (k : RField) : ({ s with board := x } : State).rd k = s.rd k :=
  State.rd_congr rfl k
@[simp] theorem State.flag_with_board (s : State) (x : Board) (k : RField) : ({ s with board := x } : State).flag k = s.flag k :=
  State.flag_congr rfl k
@[simp] theorem State.word_with_free (s : State) (x : Nat) (k : Nat) : ({ s with free := x } : State).word k = s.word k :=
  State.word_congr rfl k
@[simp] theorem State.word64_with_free (s : State) (x : Nat) (k : Nat) : ({ s with free := x } : State).word64 k = s.word64 k :=
  State.word64_congr rfl k
@[simp] theorem State.rd_with_free (s : State) (x : Nat) (k : RField) : ({ s with free := x } : State).rd k = s.rd k :=
  State.rd_congr rfl k
@[simp] theorem State.flag_with_free (s : State) (x : Nat) (k : RField) : ({ s with free := x } : State).flag k = s.flag k :=
  State.flag_congr rfl k
@[simp] theorem State.word_with_pending (s : State) (x : List Instr) (k : Nat) : ({ s with pending := x } : State).word k = s.word k :=
  State.word_congr rfl k
@[simp] theorem State.word64_with_pending (s : State) (x : List Instr) (k : Nat) : ({ s with pending := x } : State).word64 k = s.word64 k :=
  State.word64_congr rfl k
@[simp] theorem State.rd_with_pending (s : State) (x : List Instr) (k : RField) : ({ s with pending := x } : State).rd k = s.rd k :=
  State.rd_congr rfl k
@[simp] theorem State.flag_with_pending (s : State) (x : List Instr) (k : RField) : ({ s with pending := x } : State).flag k = s.flag k :=
  State.flag_congr rfl k

/-! ### setWord -/

@[simp] theorem State.setWord_holds (s : State) (k v : Nat) : (s.setWord k v).holds = s.holds := Eq.trans rfl rfl
@[simp] theorem State.setWord_clock (s : State) (k v : Nat) : (s.setWord k v).clock = s.clock := Eq.trans rfl rfl
@[simp] theorem State.setWord_errs (s : State) (k v : Nat) : (s.setWord k v).errs = s.errs := Eq.trans rfl rfl
@[simp] theorem State.setWord_insts (s : State) (k v : Nat) : (s.setWord k v).insts = s.insts := Eq.trans rfl rfl
@[simp] theorem State.setWord_mem (s : State) (k v : Nat) : (s.setWord k v).mem = s.mem := Eq.trans rfl rfl
@[simp] theorem State.setWord_rings (s : State) (k v : Nat) : (s.setWord k v).rings = s.rings := Eq.trans rfl rfl
@[simp] theorem State.setWord_arr (s : State) (k v : Nat) : (s.setWord k v).arr = s.arr := Eq.trans rfl rfl
@[simp] theorem State.setWord_steps (s : State) (k v : Nat) : (s.setWord k v).steps = s.steps := Eq.trans rfl rfl
@[simp] theorem State.setWord_pe (s : State) (k v : Nat) : (s.setWord k v).pe = s.pe := Eq.trans rfl rfl
@[simp] theorem State.setWord_pegs (s : State) (k v : Nat) : (s.setWord k v).pegs = s.pegs := Eq.trans rfl rfl
@[simp] theorem State.setWord_guard (s : State) (k v : Nat) : (s.setWord k v).guard = s.guard := Eq.trans rfl rfl
@[simp] theorem State.setWord_csi (s : State) (k v : Nat) : (s.setWord k v).csi = s.csi := Eq.trans rfl rfl
@[simp] theorem State.setWord_power (s : State) (k v : Nat) : (s.setWord k v).power = s.power := Eq.trans rfl rfl
@[simp] theorem State.setWord_volt (s : State) (k v : Nat) : (s.setWord k v).volt = s.volt := Eq.trans rfl rfl
@[simp] theorem State.setWord_press (s : State) (k v : Nat) : (s.setWord k v).press = s.press := Eq.trans rfl rfl
@[simp] theorem State.setWord_flash (s : State) (k v : Nat) : (s.setWord k v).flash = s.flash := Eq.trans rfl rfl
@[simp] theorem State.setWord_chain (s : State) (k v : Nat) : (s.setWord k v).chain = s.chain := Eq.trans rfl rfl
@[simp] theorem State.setWord_board (s : State) (k v : Nat) : (s.setWord k v).board = s.board := Eq.trans rfl rfl
@[simp] theorem State.setWord_free (s : State) (k v : Nat) : (s.setWord k v).free = s.free := Eq.trans rfl rfl
@[simp] theorem State.setWord_pending (s : State) (k v : Nat) : (s.setWord k v).pending = s.pending := Eq.trans rfl rfl

/-! ### setWord64 -/

@[simp] theorem State.setWord64_holds (s : State) (k v : Nat) : (s.setWord64 k v).holds = s.holds := by
  rw [State.setWord64, State.setWord_holds, State.setWord_holds]
@[simp] theorem State.setWord64_clock (s : State) (k v : Nat) : (s.setWord64 k v).clock = s.clock := by
  rw [State.setWord64, State.setWord_clock, State.setWord_clock]
@[simp] theorem State.setWord64_errs (s : State) (k v : Nat) : (s.setWord64 k v).errs = s.errs := by
  rw [State.setWord64, State.setWord_errs, State.setWord_errs]
@[simp] theorem State.setWord64_insts (s : State) (k v : Nat) : (s.setWord64 k v).insts = s.insts := by
  rw [State.setWord64, State.setWord_insts, State.setWord_insts]
@[simp] theorem State.setWord64_mem (s : State) (k v : Nat) : (s.setWord64 k v).mem = s.mem := by
  rw [State.setWord64, State.setWord_mem, State.setWord_mem]
@[simp] theorem State.setWord64_rings (s : State) (k v : Nat) : (s.setWord64 k v).rings = s.rings := by
  rw [State.setWord64, State.setWord_rings, State.setWord_rings]
@[simp] theorem State.setWord64_arr (s : State) (k v : Nat) : (s.setWord64 k v).arr = s.arr := by
  rw [State.setWord64, State.setWord_arr, State.setWord_arr]
@[simp] theorem State.setWord64_steps (s : State) (k v : Nat) : (s.setWord64 k v).steps = s.steps := by
  rw [State.setWord64, State.setWord_steps, State.setWord_steps]
@[simp] theorem State.setWord64_pe (s : State) (k v : Nat) : (s.setWord64 k v).pe = s.pe := by
  rw [State.setWord64, State.setWord_pe, State.setWord_pe]
@[simp] theorem State.setWord64_pegs (s : State) (k v : Nat) : (s.setWord64 k v).pegs = s.pegs := by
  rw [State.setWord64, State.setWord_pegs, State.setWord_pegs]
@[simp] theorem State.setWord64_guard (s : State) (k v : Nat) : (s.setWord64 k v).guard = s.guard := by
  rw [State.setWord64, State.setWord_guard, State.setWord_guard]
@[simp] theorem State.setWord64_csi (s : State) (k v : Nat) : (s.setWord64 k v).csi = s.csi := by
  rw [State.setWord64, State.setWord_csi, State.setWord_csi]
@[simp] theorem State.setWord64_power (s : State) (k v : Nat) : (s.setWord64 k v).power = s.power := by
  rw [State.setWord64, State.setWord_power, State.setWord_power]
@[simp] theorem State.setWord64_volt (s : State) (k v : Nat) : (s.setWord64 k v).volt = s.volt := by
  rw [State.setWord64, State.setWord_volt, State.setWord_volt]
@[simp] theorem State.setWord64_press (s : State) (k v : Nat) : (s.setWord64 k v).press = s.press := by
  rw [State.setWord64, State.setWord_press, State.setWord_press]
@[simp] theorem State.setWord64_flash (s : State) (k v : Nat) : (s.setWord64 k v).flash = s.flash := by
  rw [State.setWord64, State.setWord_flash, State.setWord_flash]
@[simp] theorem State.setWord64_chain (s : State) (k v : Nat) : (s.setWord64 k v).chain = s.chain := by
  rw [State.setWord64, State.setWord_chain, State.setWord_chain]
@[simp] theorem State.setWord64_board (s : State) (k v : Nat) : (s.setWord64 k v).board = s.board := by
  rw [State.setWord64, State.setWord_board, State.setWord_board]
@[simp] theorem State.setWord64_free (s : State) (k v : Nat) : (s.setWord64 k v).free = s.free := by
  rw [State.setWord64, State.setWord_free, State.setWord_free]
@[simp] theorem State.setWord64_pending (s : State) (k v : Nat) : (s.setWord64 k v).pending = s.pending := by
  rw [State.setWord64, State.setWord_pending, State.setWord_pending]

/-! ### wr -/

@[simp] theorem State.wr_holds (s : State) (f : RField) (v : Nat) : (s.wr f v).holds = s.holds := by
  rw [State.wr, apply_ite State.holds, State.setWord_holds, State.setWord64_holds, ite_self]
@[simp] theorem State.wr_clock (s : State) (f : RField) (v : Nat) : (s.wr f v).clock = s.clock := by
  rw [State.wr, apply_ite State.clock, State.setWord_clock, State.setWord64_clock, ite_self]
@[simp] theorem State.wr_errs (s : State) (f : RField) (v : Nat) : (s.wr f v).errs = s.errs := by
  rw [State.wr, apply_ite State.errs, State.setWord_errs, State.setWord64_errs, ite_self]
@[simp] theorem State.wr_insts (s : State) (f : RField) (v : Nat) : (s.wr f v).insts = s.insts := by
  rw [State.wr, apply_ite State.insts, State.setWord_insts, State.setWord64_insts, ite_self]
@[simp] theorem State.wr_mem (s : State) (f : RField) (v : Nat) : (s.wr f v).mem = s.mem := by
  rw [State.wr, apply_ite State.mem, State.setWord_mem, State.setWord64_mem, ite_self]
@[simp] theorem State.wr_rings (s : State) (f : RField) (v : Nat) : (s.wr f v).rings = s.rings := by
  rw [State.wr, apply_ite State.rings, State.setWord_rings, State.setWord64_rings, ite_self]
@[simp] theorem State.wr_arr (s : State) (f : RField) (v : Nat) : (s.wr f v).arr = s.arr := by
  rw [State.wr, apply_ite State.arr, State.setWord_arr, State.setWord64_arr, ite_self]
@[simp] theorem State.wr_steps (s : State) (f : RField) (v : Nat) : (s.wr f v).steps = s.steps := by
  rw [State.wr, apply_ite State.steps, State.setWord_steps, State.setWord64_steps, ite_self]
@[simp] theorem State.wr_pe (s : State) (f : RField) (v : Nat) : (s.wr f v).pe = s.pe := by
  rw [State.wr, apply_ite State.pe, State.setWord_pe, State.setWord64_pe, ite_self]
@[simp] theorem State.wr_pegs (s : State) (f : RField) (v : Nat) : (s.wr f v).pegs = s.pegs := by
  rw [State.wr, apply_ite State.pegs, State.setWord_pegs, State.setWord64_pegs, ite_self]
@[simp] theorem State.wr_guard (s : State) (f : RField) (v : Nat) : (s.wr f v).guard = s.guard := by
  rw [State.wr, apply_ite State.guard, State.setWord_guard, State.setWord64_guard, ite_self]
@[simp] theorem State.wr_csi (s : State) (f : RField) (v : Nat) : (s.wr f v).csi = s.csi := by
  rw [State.wr, apply_ite State.csi, State.setWord_csi, State.setWord64_csi, ite_self]
@[simp] theorem State.wr_power (s : State) (f : RField) (v : Nat) : (s.wr f v).power = s.power := by
  rw [State.wr, apply_ite State.power, State.setWord_power, State.setWord64_power, ite_self]
@[simp] theorem State.wr_volt (s : State) (f : RField) (v : Nat) : (s.wr f v).volt = s.volt := by
  rw [State.wr, apply_ite State.volt, State.setWord_volt, State.setWord64_volt, ite_self]
@[simp] theorem State.wr_press (s : State) (f : RField) (v : Nat) : (s.wr f v).press = s.press := by
  rw [State.wr, apply_ite State.press, State.setWord_press, State.setWord64_press, ite_self]
@[simp] theorem State.wr_flash (s : State) (f : RField) (v : Nat) : (s.wr f v).flash = s.flash := by
  rw [State.wr, apply_ite State.flash, State.setWord_flash, State.setWord64_flash, ite_self]
@[simp] theorem State.wr_chain (s : State) (f : RField) (v : Nat) : (s.wr f v).chain = s.chain := by
  rw [State.wr, apply_ite State.chain, State.setWord_chain, State.setWord64_chain, ite_self]
@[simp] theorem State.wr_board (s : State) (f : RField) (v : Nat) : (s.wr f v).board = s.board := by
  rw [State.wr, apply_ite State.board, State.setWord_board, State.setWord64_board, ite_self]
@[simp] theorem State.wr_free (s : State) (f : RField) (v : Nat) : (s.wr f v).free = s.free := by
  rw [State.wr, apply_ite State.free, State.setWord_free, State.setWord64_free, ite_self]
@[simp] theorem State.wr_pending (s : State) (f : RField) (v : Nat) : (s.wr f v).pending = s.pending := by
  rw [State.wr, apply_ite State.pending, State.setWord_pending, State.setWord64_pending, ite_self]

/-! ### setFlag -/

@[simp] theorem State.setFlag_holds (s : State) (f : RField) (b : Bool) : (s.setFlag f b).holds = s.holds := State.wr_holds s f _
@[simp] theorem State.setFlag_clock (s : State) (f : RField) (b : Bool) : (s.setFlag f b).clock = s.clock := State.wr_clock s f _
@[simp] theorem State.setFlag_errs (s : State) (f : RField) (b : Bool) : (s.setFlag f b).errs = s.errs := State.wr_errs s f _
@[simp] theorem State.setFlag_insts (s : State) (f : RField) (b : Bool) : (s.setFlag f b).insts = s.insts := State.wr_insts s f _
@[simp] theorem State.setFlag_mem (s : State) (f : RField) (b : Bool) : (s.setFlag f b).mem = s.mem := State.wr_mem s f _
@[simp] theorem State.setFlag_rings (s : State) (f : RField) (b : Bool) : (s.setFlag f b).rings = s.rings := State.wr_rings s f _
@[simp] theorem State.setFlag_arr (s : State) (f : RField) (b : Bool) : (s.setFlag f b).arr = s.arr := State.wr_arr s f _
@[simp] theorem State.setFlag_steps (s : State) (f : RField) (b : Bool) : (s.setFlag f b).steps = s.steps := State.wr_steps s f _
@[simp] theorem State.setFlag_pe (s : State) (f : RField) (b : Bool) : (s.setFlag f b).pe = s.pe := State.wr_pe s f _
@[simp] theorem State.setFlag_pegs (s : State) (f : RField) (b : Bool) : (s.setFlag f b).pegs = s.pegs := State.wr_pegs s f _
@[simp] theorem State.setFlag_guard (s : State) (f : RField) (b : Bool) : (s.setFlag f b).guard = s.guard := State.wr_guard s f _
@[simp] theorem State.setFlag_csi (s : State) (f : RField) (b : Bool) : (s.setFlag f b).csi = s.csi := State.wr_csi s f _
@[simp] theorem State.setFlag_power (s : State) (f : RField) (b : Bool) : (s.setFlag f b).power = s.power := State.wr_power s f _
@[simp] theorem State.setFlag_volt (s : State) (f : RField) (b : Bool) : (s.setFlag f b).volt = s.volt := State.wr_volt s f _
@[simp] theorem State.setFlag_press (s : State) (f : RField) (b : Bool) : (s.setFlag f b).press = s.press := State.wr_press s f _
@[simp] theorem State.setFlag_flash (s : State) (f : RField) (b : Bool) : (s.setFlag f b).flash = s.flash := State.wr_flash s f _
@[simp] theorem State.setFlag_chain (s : State) (f : RField) (b : Bool) : (s.setFlag f b).chain = s.chain := State.wr_chain s f _
@[simp] theorem State.setFlag_board (s : State) (f : RField) (b : Bool) : (s.setFlag f b).board = s.board := State.wr_board s f _
@[simp] theorem State.setFlag_free (s : State) (f : RField) (b : Bool) : (s.setFlag f b).free = s.free := State.wr_free s f _
@[simp] theorem State.setFlag_pending (s : State) (f : RField) (b : Bool) : (s.setFlag f b).pending = s.pending := State.wr_pending s f _

/-! ### bump -/

@[simp] theorem State.bump_holds (s : State) (f : RField) (n : Nat) : (s.bump f n).holds = s.holds := State.wr_holds s f _
@[simp] theorem State.bump_clock (s : State) (f : RField) (n : Nat) : (s.bump f n).clock = s.clock := State.wr_clock s f _
@[simp] theorem State.bump_errs (s : State) (f : RField) (n : Nat) : (s.bump f n).errs = s.errs := State.wr_errs s f _
@[simp] theorem State.bump_insts (s : State) (f : RField) (n : Nat) : (s.bump f n).insts = s.insts := State.wr_insts s f _
@[simp] theorem State.bump_mem (s : State) (f : RField) (n : Nat) : (s.bump f n).mem = s.mem := State.wr_mem s f _
@[simp] theorem State.bump_rings (s : State) (f : RField) (n : Nat) : (s.bump f n).rings = s.rings := State.wr_rings s f _
@[simp] theorem State.bump_arr (s : State) (f : RField) (n : Nat) : (s.bump f n).arr = s.arr := State.wr_arr s f _
@[simp] theorem State.bump_steps (s : State) (f : RField) (n : Nat) : (s.bump f n).steps = s.steps := State.wr_steps s f _
@[simp] theorem State.bump_pe (s : State) (f : RField) (n : Nat) : (s.bump f n).pe = s.pe := State.wr_pe s f _
@[simp] theorem State.bump_pegs (s : State) (f : RField) (n : Nat) : (s.bump f n).pegs = s.pegs := State.wr_pegs s f _
@[simp] theorem State.bump_guard (s : State) (f : RField) (n : Nat) : (s.bump f n).guard = s.guard := State.wr_guard s f _
@[simp] theorem State.bump_csi (s : State) (f : RField) (n : Nat) : (s.bump f n).csi = s.csi := State.wr_csi s f _
@[simp] theorem State.bump_power (s : State) (f : RField) (n : Nat) : (s.bump f n).power = s.power := State.wr_power s f _
@[simp] theorem State.bump_volt (s : State) (f : RField) (n : Nat) : (s.bump f n).volt = s.volt := State.wr_volt s f _
@[simp] theorem State.bump_press (s : State) (f : RField) (n : Nat) : (s.bump f n).press = s.press := State.wr_press s f _
@[simp] theorem State.bump_flash (s : State) (f : RField) (n : Nat) : (s.bump f n).flash = s.flash := State.wr_flash s f _
@[simp] theorem State.bump_chain (s : State) (f : RField) (n : Nat) : (s.bump f n).chain = s.chain := State.wr_chain s f _
@[simp] theorem State.bump_board (s : State) (f : RField) (n : Nat) : (s.bump f n).board = s.board := State.wr_board s f _
@[simp] theorem State.bump_free (s : State) (f : RField) (n : Nat) : (s.bump f n).free = s.free := State.wr_free s f _
@[simp] theorem State.bump_pending (s : State) (f : RField) (n : Nat) : (s.bump f n).pending = s.pending := State.wr_pending s f _

/-! ### bumpWrap -/

@[simp] theorem State.bumpWrap_holds (s : State) (f : RField) (n : Nat) : (s.bumpWrap f n).holds = s.holds := State.wr_holds s f _
@[simp] theorem State.bumpWrap_clock (s : State) (f : RField) (n : Nat) : (s.bumpWrap f n).clock = s.clock := State.wr_clock s f _
@[simp] theorem State.bumpWrap_errs (s : State) (f : RField) (n : Nat) : (s.bumpWrap f n).errs = s.errs := State.wr_errs s f _
@[simp] theorem State.bumpWrap_insts (s : State) (f : RField) (n : Nat) : (s.bumpWrap f n).insts = s.insts := State.wr_insts s f _
@[simp] theorem State.bumpWrap_mem (s : State) (f : RField) (n : Nat) : (s.bumpWrap f n).mem = s.mem := State.wr_mem s f _
@[simp] theorem State.bumpWrap_rings (s : State) (f : RField) (n : Nat) : (s.bumpWrap f n).rings = s.rings := State.wr_rings s f _
@[simp] theorem State.bumpWrap_arr (s : State) (f : RField) (n : Nat) : (s.bumpWrap f n).arr = s.arr := State.wr_arr s f _
@[simp] theorem State.bumpWrap_steps (s : State) (f : RField) (n : Nat) : (s.bumpWrap f n).steps = s.steps := State.wr_steps s f _
@[simp] theorem State.bumpWrap_pe (s : State) (f : RField) (n : Nat) : (s.bumpWrap f n).pe = s.pe := State.wr_pe s f _
@[simp] theorem State.bumpWrap_pegs (s : State) (f : RField) (n : Nat) : (s.bumpWrap f n).pegs = s.pegs := State.wr_pegs s f _
@[simp] theorem State.bumpWrap_guard (s : State) (f : RField) (n : Nat) : (s.bumpWrap f n).guard = s.guard := State.wr_guard s f _
@[simp] theorem State.bumpWrap_csi (s : State) (f : RField) (n : Nat) : (s.bumpWrap f n).csi = s.csi := State.wr_csi s f _
@[simp] theorem State.bumpWrap_power (s : State) (f : RField) (n : Nat) : (s.bumpWrap f n).power = s.power := State.wr_power s f _
@[simp] theorem State.bumpWrap_volt (s : State) (f : RField) (n : Nat) : (s.bumpWrap f n).volt = s.volt := State.wr_volt s f _
@[simp] theorem State.bumpWrap_press (s : State) (f : RField) (n : Nat) : (s.bumpWrap f n).press = s.press := State.wr_press s f _
@[simp] theorem State.bumpWrap_flash (s : State) (f : RField) (n : Nat) : (s.bumpWrap f n).flash = s.flash := State.wr_flash s f _
@[simp] theorem State.bumpWrap_chain (s : State) (f : RField) (n : Nat) : (s.bumpWrap f n).chain = s.chain := State.wr_chain s f _
@[simp] theorem State.bumpWrap_board (s : State) (f : RField) (n : Nat) : (s.bumpWrap f n).board = s.board := State.wr_board s f _
@[simp] theorem State.bumpWrap_free (s : State) (f : RField) (n : Nat) : (s.bumpWrap f n).free = s.free := State.wr_free s f _
@[simp] theorem State.bumpWrap_pending (s : State) (f : RField) (n : Nat) : (s.bumpWrap f n).pending = s.pending := State.wr_pending s f _

/-! ### resetRegs -/

@[simp] theorem State.resetRegs_holds (s : State) (p : Nat → Bool) : (s.resetRegs p).holds = s.holds := Eq.trans rfl rfl
@[simp] theorem State.resetRegs_clock (s : State) (p : Nat → Bool) : (s.resetRegs p).clock = s.clock := Eq.trans rfl rfl
@[simp] theorem State.resetRegs_errs (s : State) (p : Nat → Bool) : (s.resetRegs p).errs = s.errs := Eq.trans rfl rfl
@[simp] theorem State.resetRegs_insts (s : State) (p : Nat → Bool) : (s.resetRegs p).insts = s.insts := Eq.trans rfl rfl
@[simp] theorem State.resetRegs_mem (s : State) (p : Nat → Bool) : (s.resetRegs p).mem = s.mem := Eq.trans rfl rfl
@[simp] theorem State.resetRegs_rings (s : State) (p : Nat → Bool) : (s.resetRegs p).rings = s.rings := Eq.trans rfl rfl
@[simp] theorem State.resetRegs_arr (s : State) (p : Nat → Bool) : (s.resetRegs p).arr = s.arr := Eq.trans rfl rfl
@[simp] theorem State.resetRegs_steps (s : State) (p : Nat → Bool) : (s.resetRegs p).steps = s.steps := Eq.trans rfl rfl
@[simp] theorem State.resetRegs_pe (s : State) (p : Nat → Bool) : (s.resetRegs p).pe = s.pe := Eq.trans rfl rfl
@[simp] theorem State.resetRegs_pegs (s : State) (p : Nat → Bool) : (s.resetRegs p).pegs = s.pegs := Eq.trans rfl rfl
@[simp] theorem State.resetRegs_guard (s : State) (p : Nat → Bool) : (s.resetRegs p).guard = s.guard := Eq.trans rfl rfl
@[simp] theorem State.resetRegs_csi (s : State) (p : Nat → Bool) : (s.resetRegs p).csi = s.csi := Eq.trans rfl rfl
@[simp] theorem State.resetRegs_power (s : State) (p : Nat → Bool) : (s.resetRegs p).power = s.power := Eq.trans rfl rfl
@[simp] theorem State.resetRegs_volt (s : State) (p : Nat → Bool) : (s.resetRegs p).volt = s.volt := Eq.trans rfl rfl
@[simp] theorem State.resetRegs_press (s : State) (p : Nat → Bool) : (s.resetRegs p).press = s.press := Eq.trans rfl rfl
@[simp] theorem State.resetRegs_flash (s : State) (p : Nat → Bool) : (s.resetRegs p).flash = s.flash := Eq.trans rfl rfl
@[simp] theorem State.resetRegs_chain (s : State) (p : Nat → Bool) : (s.resetRegs p).chain = s.chain := Eq.trans rfl rfl
@[simp] theorem State.resetRegs_board (s : State) (p : Nat → Bool) : (s.resetRegs p).board = s.board := Eq.trans rfl rfl
@[simp] theorem State.resetRegs_free (s : State) (p : Nat → Bool) : (s.resetRegs p).free = s.free := Eq.trans rfl rfl
@[simp] theorem State.resetRegs_pending (s : State) (p : Nat → Bool) : (s.resetRegs p).pending = s.pending := Eq.trans rfl rfl

/-! ### skip -/

@[simp] theorem State.skip_regs (s : State) (n : Nat) : (s.skip n).regs = s.regs := Eq.trans rfl rfl
@[simp] theorem State.skip_holds (s : State) (n : Nat) : (s.skip n).holds = s.holds := Eq.trans rfl rfl
@[simp] theorem State.skip_clock (s : State) (n : Nat) : (s.skip n).clock = s.clock := Eq.trans rfl rfl
@[simp] theorem State.skip_errs (s : State) (n : Nat) : (s.skip n).errs = s.errs := Eq.trans rfl rfl
@[simp] theorem State.skip_insts (s : State) (n : Nat) : (s.skip n).insts = s.insts := Eq.trans rfl rfl
@[simp] theorem State.skip_mem (s : State) (n : Nat) : (s.skip n).mem = s.mem := Eq.trans rfl rfl
@[simp] theorem State.skip_rings (s : State) (n : Nat) : (s.skip n).rings = s.rings := Eq.trans rfl rfl
@[simp] theorem State.skip_arr (s : State) (n : Nat) : (s.skip n).arr = s.arr := Eq.trans rfl rfl
@[simp] theorem State.skip_steps (s : State) (n : Nat) : (s.skip n).steps = s.steps := Eq.trans rfl rfl
@[simp] theorem State.skip_pe (s : State) (n : Nat) : (s.skip n).pe = s.pe := Eq.trans rfl rfl
@[simp] theorem State.skip_pegs (s : State) (n : Nat) : (s.skip n).pegs = s.pegs := Eq.trans rfl rfl
@[simp] theorem State.skip_guard (s : State) (n : Nat) : (s.skip n).guard = s.guard := Eq.trans rfl rfl
@[simp] theorem State.skip_csi (s : State) (n : Nat) : (s.skip n).csi = s.csi := Eq.trans rfl rfl
@[simp] theorem State.skip_power (s : State) (n : Nat) : (s.skip n).power = s.power := Eq.trans rfl rfl
@[simp] theorem State.skip_volt (s : State) (n : Nat) : (s.skip n).volt = s.volt := Eq.trans rfl rfl
@[simp] theorem State.skip_press (s : State) (n : Nat) : (s.skip n).press = s.press := Eq.trans rfl rfl
@[simp] theorem State.skip_flash (s : State) (n : Nat) : (s.skip n).flash = s.flash := Eq.trans rfl rfl
@[simp] theorem State.skip_chain (s : State) (n : Nat) : (s.skip n).chain = s.chain := Eq.trans rfl rfl
@[simp] theorem State.skip_board (s : State) (n : Nat) : (s.skip n).board = s.board := Eq.trans rfl rfl
@[simp] theorem State.skip_pending (s : State) (n : Nat) : (s.skip n).pending = s.pending := Eq.trans rfl rfl
@[simp] theorem State.word_skip (s : State) (n : Nat) (j : Nat) : (s.skip n).word j = s.word j :=
  State.word_congr (State.skip_regs s n) j
@[simp] theorem State.word64_skip (s : State) (n : Nat) (j : Nat) : (s.skip n).word64 j = s.word64 j :=
  State.word64_congr (State.skip_regs s n) j
@[simp] theorem State.rd_skip (s : State) (n : Nat) (j : RField) : (s.skip n).rd j = s.rd j :=
  State.rd_congr (State.skip_regs s n) j
@[simp] theorem State.flag_skip (s : State) (n : Nat) (j : RField) : (s.skip n).flag j = s.flag j :=
  State.flag_congr (State.skip_regs s n) j

/-! ### setInst -/

@[simp] theorem State.setInst_regs (s : State) (i : Nat) (v : Inst) : (s.setInst i v).regs = s.regs := Eq.trans rfl rfl
@[simp] theorem State.setInst_holds (s : State) (i : Nat) (v : Inst) : (s.setInst i v).holds = s.holds := Eq.trans rfl rfl
@[simp] theorem State.setInst_clock (s : State) (i : Nat) (v : Inst) : (s.setInst i v).clock = s.clock := Eq.trans rfl rfl
@[simp] theorem State.setInst_errs (s : State) (i : Nat) (v : Inst) : (s.setInst i v).errs = s.errs := Eq.trans rfl rfl
@[simp] theorem State.setInst_mem (s : State) (i : Nat) (v : Inst) : (s.setInst i v).mem = s.mem := Eq.trans rfl rfl
@[simp] theorem State.setInst_rings (s : State) (i : Nat) (v : Inst) : (s.setInst i v).rings = s.rings := Eq.trans rfl rfl
@[simp] theorem State.setInst_arr (s : State) (i : Nat) (v : Inst) : (s.setInst i v).arr = s.arr := Eq.trans rfl rfl
@[simp] theorem State.setInst_steps (s : State) (i : Nat) (v : Inst) : (s.setInst i v).steps = s.steps := Eq.trans rfl rfl
@[simp] theorem State.setInst_pe (s : State) (i : Nat) (v : Inst) : (s.setInst i v).pe = s.pe := Eq.trans rfl rfl
@[simp] theorem State.setInst_pegs (s : State) (i : Nat) (v : Inst) : (s.setInst i v).pegs = s.pegs := Eq.trans rfl rfl
@[simp] theorem State.setInst_guard (s : State) (i : Nat) (v : Inst) : (s.setInst i v).guard = s.guard := Eq.trans rfl rfl
@[simp] theorem State.setInst_csi (s : State) (i : Nat) (v : Inst) : (s.setInst i v).csi = s.csi := Eq.trans rfl rfl
@[simp] theorem State.setInst_power (s : State) (i : Nat) (v : Inst) : (s.setInst i v).power = s.power := Eq.trans rfl rfl
@[simp] theorem State.setInst_volt (s : State) (i : Nat) (v : Inst) : (s.setInst i v).volt = s.volt := Eq.trans rfl rfl
@[simp] theorem State.setInst_press (s : State) (i : Nat) (v : Inst) : (s.setInst i v).press = s.press := Eq.trans rfl rfl
@[simp] theorem State.setInst_flash (s : State) (i : Nat) (v : Inst) : (s.setInst i v).flash = s.flash := Eq.trans rfl rfl
@[simp] theorem State.setInst_chain (s : State) (i : Nat) (v : Inst) : (s.setInst i v).chain = s.chain := Eq.trans rfl rfl
@[simp] theorem State.setInst_board (s : State) (i : Nat) (v : Inst) : (s.setInst i v).board = s.board := Eq.trans rfl rfl
@[simp] theorem State.setInst_free (s : State) (i : Nat) (v : Inst) : (s.setInst i v).free = s.free := Eq.trans rfl rfl
@[simp] theorem State.setInst_pending (s : State) (i : Nat) (v : Inst) : (s.setInst i v).pending = s.pending := Eq.trans rfl rfl
@[simp] theorem State.word_setInst (s : State) (i : Nat) (v : Inst) (j : Nat) : (s.setInst i v).word j = s.word j :=
  State.word_congr (State.setInst_regs s i v) j
@[simp] theorem State.word64_setInst (s : State) (i : Nat) (v : Inst) (j : Nat) : (s.setInst i v).word64 j = s.word64 j :=
  State.word64_congr (State.setInst_regs s i v) j
@[simp] theorem State.rd_setInst (s : State) (i : Nat) (v : Inst) (j : RField) : (s.setInst i v).rd j = s.rd j :=
  State.rd_congr (State.setInst_regs s i v) j
@[simp] theorem State.flag_setInst (s : State) (i : Nat) (v : Inst) (j : RField) : (s.setInst i v).flag j = s.flag j :=
  State.flag_congr (State.setInst_regs s i v) j

/-! ### modInst -/

@[simp] theorem State.modInst_regs (s : State) (i : Nat) (f : Inst → Inst) : (s.modInst i f).regs = s.regs := Eq.trans rfl rfl
@[simp] theorem State.modInst_holds (s : State) (i : Nat) (f : Inst → Inst) : (s.modInst i f).holds = s.holds := Eq.trans rfl rfl
@[simp] theorem State.modInst_clock (s : State) (i : Nat) (f : Inst → Inst) : (s.modInst i f).clock = s.clock := Eq.trans rfl rfl
@[simp] theorem State.modInst_errs (s : State) (i : Nat) (f : Inst → Inst) : (s.modInst i f).errs = s.errs := Eq.trans rfl rfl
@[simp] theorem State.modInst_mem (s : State) (i : Nat) (f : Inst → Inst) : (s.modInst i f).mem = s.mem := Eq.trans rfl rfl
@[simp] theorem State.modInst_rings (s : State) (i : Nat) (f : Inst → Inst) : (s.modInst i f).rings = s.rings := Eq.trans rfl rfl
@[simp] theorem State.modInst_arr (s : State) (i : Nat) (f : Inst → Inst) : (s.modInst i f).arr = s.arr := Eq.trans rfl rfl
@[simp] theorem State.modInst_steps (s : State) (i : Nat) (f : Inst → Inst) : (s.modInst i f).steps = s.steps := Eq.trans rfl rfl
@[simp] theorem State.modInst_pe (s : State) (i : Nat) (f : Inst → Inst) : (s.modInst i f).pe = s.pe := Eq.trans rfl rfl
@[simp] theorem State.modInst_pegs (s : State) (i : Nat) (f : Inst → Inst) : (s.modInst i f).pegs = s.pegs := Eq.trans rfl rfl
@[simp] theorem State.modInst_guard (s : State) (i : Nat) (f : Inst → Inst) : (s.modInst i f).guard = s.guard := Eq.trans rfl rfl
@[simp] theorem State.modInst_csi (s : State) (i : Nat) (f : Inst → Inst) : (s.modInst i f).csi = s.csi := Eq.trans rfl rfl
@[simp] theorem State.modInst_power (s : State) (i : Nat) (f : Inst → Inst) : (s.modInst i f).power = s.power := Eq.trans rfl rfl
@[simp] theorem State.modInst_volt (s : State) (i : Nat) (f : Inst → Inst) : (s.modInst i f).volt = s.volt := Eq.trans rfl rfl
@[simp] theorem State.modInst_press (s : State) (i : Nat) (f : Inst → Inst) : (s.modInst i f).press = s.press := Eq.trans rfl rfl
@[simp] theorem State.modInst_flash (s : State) (i : Nat) (f : Inst → Inst) : (s.modInst i f).flash = s.flash := Eq.trans rfl rfl
@[simp] theorem State.modInst_chain (s : State) (i : Nat) (f : Inst → Inst) : (s.modInst i f).chain = s.chain := Eq.trans rfl rfl
@[simp] theorem State.modInst_board (s : State) (i : Nat) (f : Inst → Inst) : (s.modInst i f).board = s.board := Eq.trans rfl rfl
@[simp] theorem State.modInst_free (s : State) (i : Nat) (f : Inst → Inst) : (s.modInst i f).free = s.free := Eq.trans rfl rfl
@[simp] theorem State.modInst_pending (s : State) (i : Nat) (f : Inst → Inst) : (s.modInst i f).pending = s.pending := Eq.trans rfl rfl
@[simp] theorem State.word_modInst (s : State) (i : Nat) (f : Inst → Inst) (j : Nat) : (s.modInst i f).word j = s.word j :=
  State.word_congr (State.modInst_regs s i f) j
@[simp] theorem State.word64_modInst (s : State) (i : Nat) (f : Inst → Inst) (j : Nat) : (s.modInst i f).word64 j = s.word64 j :=
  State.word64_congr (State.modInst_regs s i f) j
@[simp] theorem State.rd_modInst (s : State) (i : Nat) (f : Inst → Inst) (j : RField) : (s.modInst i f).rd j = s.rd j :=
  State.rd_congr (State.modInst_regs s i f) j
@[simp] theorem State.flag_modInst (s : State) (i : Nat) (f : Inst → Inst) (j : RField) : (s.modInst i f).flag j = s.flag j :=
  State.flag_congr (State.modInst_regs s i f) j

/-! ### setDeck -/

@[simp] theorem State.setDeck_regs (s : State) (e k : Nat) (v : Deck) : (s.setDeck e k v).regs = s.regs := Eq.trans rfl rfl
@[simp] theorem State.setDeck_holds (s : State) (e k : Nat) (v : Deck) : (s.setDeck e k v).holds = s.holds := Eq.trans rfl rfl
@[simp] theorem State.setDeck_clock (s : State) (e k : Nat) (v : Deck) : (s.setDeck e k v).clock = s.clock := Eq.trans rfl rfl
@[simp] theorem State.setDeck_errs (s : State) (e k : Nat) (v : Deck) : (s.setDeck e k v).errs = s.errs := Eq.trans rfl rfl
@[simp] theorem State.setDeck_insts (s : State) (e k : Nat) (v : Deck) : (s.setDeck e k v).insts = s.insts := Eq.trans rfl rfl
@[simp] theorem State.setDeck_mem (s : State) (e k : Nat) (v : Deck) : (s.setDeck e k v).mem = s.mem := Eq.trans rfl rfl
@[simp] theorem State.setDeck_rings (s : State) (e k : Nat) (v : Deck) : (s.setDeck e k v).rings = s.rings := Eq.trans rfl rfl
@[simp] theorem State.setDeck_steps (s : State) (e k : Nat) (v : Deck) : (s.setDeck e k v).steps = s.steps := Eq.trans rfl rfl
@[simp] theorem State.setDeck_pe (s : State) (e k : Nat) (v : Deck) : (s.setDeck e k v).pe = s.pe := Eq.trans rfl rfl
@[simp] theorem State.setDeck_pegs (s : State) (e k : Nat) (v : Deck) : (s.setDeck e k v).pegs = s.pegs := Eq.trans rfl rfl
@[simp] theorem State.setDeck_guard (s : State) (e k : Nat) (v : Deck) : (s.setDeck e k v).guard = s.guard := Eq.trans rfl rfl
@[simp] theorem State.setDeck_csi (s : State) (e k : Nat) (v : Deck) : (s.setDeck e k v).csi = s.csi := Eq.trans rfl rfl
@[simp] theorem State.setDeck_power (s : State) (e k : Nat) (v : Deck) : (s.setDeck e k v).power = s.power := Eq.trans rfl rfl
@[simp] theorem State.setDeck_volt (s : State) (e k : Nat) (v : Deck) : (s.setDeck e k v).volt = s.volt := Eq.trans rfl rfl
@[simp] theorem State.setDeck_press (s : State) (e k : Nat) (v : Deck) : (s.setDeck e k v).press = s.press := Eq.trans rfl rfl
@[simp] theorem State.setDeck_flash (s : State) (e k : Nat) (v : Deck) : (s.setDeck e k v).flash = s.flash := Eq.trans rfl rfl
@[simp] theorem State.setDeck_chain (s : State) (e k : Nat) (v : Deck) : (s.setDeck e k v).chain = s.chain := Eq.trans rfl rfl
@[simp] theorem State.setDeck_board (s : State) (e k : Nat) (v : Deck) : (s.setDeck e k v).board = s.board := Eq.trans rfl rfl
@[simp] theorem State.setDeck_free (s : State) (e k : Nat) (v : Deck) : (s.setDeck e k v).free = s.free := Eq.trans rfl rfl
@[simp] theorem State.setDeck_pending (s : State) (e k : Nat) (v : Deck) : (s.setDeck e k v).pending = s.pending := Eq.trans rfl rfl
@[simp] theorem State.word_setDeck (s : State) (e k : Nat) (v : Deck) (j : Nat) : (s.setDeck e k v).word j = s.word j :=
  State.word_congr (State.setDeck_regs s e k v) j
@[simp] theorem State.word64_setDeck (s : State) (e k : Nat) (v : Deck) (j : Nat) : (s.setDeck e k v).word64 j = s.word64 j :=
  State.word64_congr (State.setDeck_regs s e k v) j
@[simp] theorem State.rd_setDeck (s : State) (e k : Nat) (v : Deck) (j : RField) : (s.setDeck e k v).rd j = s.rd j :=
  State.rd_congr (State.setDeck_regs s e k v) j
@[simp] theorem State.flag_setDeck (s : State) (e k : Nat) (v : Deck) (j : RField) : (s.setDeck e k v).flag j = s.flag j :=
  State.flag_congr (State.setDeck_regs s e k v) j

/-! ### modDeck -/

@[simp] theorem State.modDeck_regs (s : State) (e k : Nat) (f : Deck → Deck) : (s.modDeck e k f).regs = s.regs := Eq.trans rfl rfl
@[simp] theorem State.modDeck_holds (s : State) (e k : Nat) (f : Deck → Deck) : (s.modDeck e k f).holds = s.holds := Eq.trans rfl rfl
@[simp] theorem State.modDeck_clock (s : State) (e k : Nat) (f : Deck → Deck) : (s.modDeck e k f).clock = s.clock := Eq.trans rfl rfl
@[simp] theorem State.modDeck_errs (s : State) (e k : Nat) (f : Deck → Deck) : (s.modDeck e k f).errs = s.errs := Eq.trans rfl rfl
@[simp] theorem State.modDeck_insts (s : State) (e k : Nat) (f : Deck → Deck) : (s.modDeck e k f).insts = s.insts := Eq.trans rfl rfl
@[simp] theorem State.modDeck_mem (s : State) (e k : Nat) (f : Deck → Deck) : (s.modDeck e k f).mem = s.mem := Eq.trans rfl rfl
@[simp] theorem State.modDeck_rings (s : State) (e k : Nat) (f : Deck → Deck) : (s.modDeck e k f).rings = s.rings := Eq.trans rfl rfl
@[simp] theorem State.modDeck_steps (s : State) (e k : Nat) (f : Deck → Deck) : (s.modDeck e k f).steps = s.steps := Eq.trans rfl rfl
@[simp] theorem State.modDeck_pe (s : State) (e k : Nat) (f : Deck → Deck) : (s.modDeck e k f).pe = s.pe := Eq.trans rfl rfl
@[simp] theorem State.modDeck_pegs (s : State) (e k : Nat) (f : Deck → Deck) : (s.modDeck e k f).pegs = s.pegs := Eq.trans rfl rfl
@[simp] theorem State.modDeck_guard (s : State) (e k : Nat) (f : Deck → Deck) : (s.modDeck e k f).guard = s.guard := Eq.trans rfl rfl
@[simp] theorem State.modDeck_csi (s : State) (e k : Nat) (f : Deck → Deck) : (s.modDeck e k f).csi = s.csi := Eq.trans rfl rfl
@[simp] theorem State.modDeck_power (s : State) (e k : Nat) (f : Deck → Deck) : (s.modDeck e k f).power = s.power := Eq.trans rfl rfl
@[simp] theorem State.modDeck_volt (s : State) (e k : Nat) (f : Deck → Deck) : (s.modDeck e k f).volt = s.volt := Eq.trans rfl rfl
@[simp] theorem State.modDeck_press (s : State) (e k : Nat) (f : Deck → Deck) : (s.modDeck e k f).press = s.press := Eq.trans rfl rfl
@[simp] theorem State.modDeck_flash (s : State) (e k : Nat) (f : Deck → Deck) : (s.modDeck e k f).flash = s.flash := Eq.trans rfl rfl
@[simp] theorem State.modDeck_chain (s : State) (e k : Nat) (f : Deck → Deck) : (s.modDeck e k f).chain = s.chain := Eq.trans rfl rfl
@[simp] theorem State.modDeck_board (s : State) (e k : Nat) (f : Deck → Deck) : (s.modDeck e k f).board = s.board := Eq.trans rfl rfl
@[simp] theorem State.modDeck_free (s : State) (e k : Nat) (f : Deck → Deck) : (s.modDeck e k f).free = s.free := Eq.trans rfl rfl
@[simp] theorem State.modDeck_pending (s : State) (e k : Nat) (f : Deck → Deck) : (s.modDeck e k f).pending = s.pending := Eq.trans rfl rfl
@[simp] theorem State.word_modDeck (s : State) (e k : Nat) (f : Deck → Deck) (j : Nat) : (s.modDeck e k f).word j = s.word j :=
  State.word_congr (State.modDeck_regs s e k f) j
@[simp] theorem State.word64_modDeck (s : State) (e k : Nat) (f : Deck → Deck) (j : Nat) : (s.modDeck e k f).word64 j = s.word64 j :=
  State.word64_congr (State.modDeck_regs s e k f) j
@[simp] theorem State.rd_modDeck (s : State) (e k : Nat) (f : Deck → Deck) (j : RField) : (s.modDeck e k f).rd j = s.rd j :=
  State.rd_congr (State.modDeck_regs s e k f) j
@[simp] theorem State.flag_modDeck (s : State) (e k : Nat) (f : Deck → Deck) (j : RField) : (s.modDeck e k f).flag j = s.flag j :=
  State.flag_congr (State.modDeck_regs s e k f) j

/-! ### setEngine -/

@[simp] theorem State.setEngine_regs (s : State) (e : Nat) (v : Engine) : (s.setEngine e v).regs = s.regs := Eq.trans rfl rfl
@[simp] theorem State.setEngine_holds (s : State) (e : Nat) (v : Engine) : (s.setEngine e v).holds = s.holds := Eq.trans rfl rfl
@[simp] theorem State.setEngine_clock (s : State) (e : Nat) (v : Engine) : (s.setEngine e v).clock = s.clock := Eq.trans rfl rfl
@[simp] theorem State.setEngine_errs (s : State) (e : Nat) (v : Engine) : (s.setEngine e v).errs = s.errs := Eq.trans rfl rfl
@[simp] theorem State.setEngine_insts (s : State) (e : Nat) (v : Engine) : (s.setEngine e v).insts = s.insts := Eq.trans rfl rfl
@[simp] theorem State.setEngine_mem (s : State) (e : Nat) (v : Engine) : (s.setEngine e v).mem = s.mem := Eq.trans rfl rfl
@[simp] theorem State.setEngine_rings (s : State) (e : Nat) (v : Engine) : (s.setEngine e v).rings = s.rings := Eq.trans rfl rfl
@[simp] theorem State.setEngine_steps (s : State) (e : Nat) (v : Engine) : (s.setEngine e v).steps = s.steps := Eq.trans rfl rfl
@[simp] theorem State.setEngine_pe (s : State) (e : Nat) (v : Engine) : (s.setEngine e v).pe = s.pe := Eq.trans rfl rfl
@[simp] theorem State.setEngine_pegs (s : State) (e : Nat) (v : Engine) : (s.setEngine e v).pegs = s.pegs := Eq.trans rfl rfl
@[simp] theorem State.setEngine_guard (s : State) (e : Nat) (v : Engine) : (s.setEngine e v).guard = s.guard := Eq.trans rfl rfl
@[simp] theorem State.setEngine_csi (s : State) (e : Nat) (v : Engine) : (s.setEngine e v).csi = s.csi := Eq.trans rfl rfl
@[simp] theorem State.setEngine_power (s : State) (e : Nat) (v : Engine) : (s.setEngine e v).power = s.power := Eq.trans rfl rfl
@[simp] theorem State.setEngine_volt (s : State) (e : Nat) (v : Engine) : (s.setEngine e v).volt = s.volt := Eq.trans rfl rfl
@[simp] theorem State.setEngine_press (s : State) (e : Nat) (v : Engine) : (s.setEngine e v).press = s.press := Eq.trans rfl rfl
@[simp] theorem State.setEngine_flash (s : State) (e : Nat) (v : Engine) : (s.setEngine e v).flash = s.flash := Eq.trans rfl rfl
@[simp] theorem State.setEngine_chain (s : State) (e : Nat) (v : Engine) : (s.setEngine e v).chain = s.chain := Eq.trans rfl rfl
@[simp] theorem State.setEngine_board (s : State) (e : Nat) (v : Engine) : (s.setEngine e v).board = s.board := Eq.trans rfl rfl
@[simp] theorem State.setEngine_free (s : State) (e : Nat) (v : Engine) : (s.setEngine e v).free = s.free := Eq.trans rfl rfl
@[simp] theorem State.setEngine_pending (s : State) (e : Nat) (v : Engine) : (s.setEngine e v).pending = s.pending := Eq.trans rfl rfl
@[simp] theorem State.word_setEngine (s : State) (e : Nat) (v : Engine) (j : Nat) : (s.setEngine e v).word j = s.word j :=
  State.word_congr (State.setEngine_regs s e v) j
@[simp] theorem State.word64_setEngine (s : State) (e : Nat) (v : Engine) (j : Nat) : (s.setEngine e v).word64 j = s.word64 j :=
  State.word64_congr (State.setEngine_regs s e v) j
@[simp] theorem State.rd_setEngine (s : State) (e : Nat) (v : Engine) (j : RField) : (s.setEngine e v).rd j = s.rd j :=
  State.rd_congr (State.setEngine_regs s e v) j
@[simp] theorem State.flag_setEngine (s : State) (e : Nat) (v : Engine) (j : RField) : (s.setEngine e v).flag j = s.flag j :=
  State.flag_congr (State.setEngine_regs s e v) j

/-! ### modEngine -/

@[simp] theorem State.modEngine_regs (s : State) (e : Nat) (f : Engine → Engine) : (s.modEngine e f).regs = s.regs := Eq.trans rfl rfl
@[simp] theorem State.modEngine_holds (s : State) (e : Nat) (f : Engine → Engine) : (s.modEngine e f).holds = s.holds := Eq.trans rfl rfl
@[simp] theorem State.modEngine_clock (s : State) (e : Nat) (f : Engine → Engine) : (s.modEngine e f).clock = s.clock := Eq.trans rfl rfl
@[simp] theorem State.modEngine_errs (s : State) (e : Nat) (f : Engine → Engine) : (s.modEngine e f).errs = s.errs := Eq.trans rfl rfl
@[simp] theorem State.modEngine_insts (s : State) (e : Nat) (f : Engine → Engine) : (s.modEngine e f).insts = s.insts := Eq.trans rfl rfl
@[simp] theorem State.modEngine_mem (s : State) (e : Nat) (f : Engine → Engine) : (s.modEngine e f).mem = s.mem := Eq.trans rfl rfl
@[simp] theorem State.modEngine_rings (s : State) (e : Nat) (f : Engine → Engine) : (s.modEngine e f).rings = s.rings := Eq.trans rfl rfl
@[simp] theorem State.modEngine_steps (s : State) (e : Nat) (f : Engine → Engine) : (s.modEngine e f).steps = s.steps := Eq.trans rfl rfl
@[simp] theorem State.modEngine_pe (s : State) (e : Nat) (f : Engine → Engine) : (s.modEngine e f).pe = s.pe := Eq.trans rfl rfl
@[simp] theorem State.modEngine_pegs (s : State) (e : Nat) (f : Engine → Engine) : (s.modEngine e f).pegs = s.pegs := Eq.trans rfl rfl
@[simp] theorem State.modEngine_guard (s : State) (e : Nat) (f : Engine → Engine) : (s.modEngine e f).guard = s.guard := Eq.trans rfl rfl
@[simp] theorem State.modEngine_csi (s : State) (e : Nat) (f : Engine → Engine) : (s.modEngine e f).csi = s.csi := Eq.trans rfl rfl
@[simp] theorem State.modEngine_power (s : State) (e : Nat) (f : Engine → Engine) : (s.modEngine e f).power = s.power := Eq.trans rfl rfl
@[simp] theorem State.modEngine_volt (s : State) (e : Nat) (f : Engine → Engine) : (s.modEngine e f).volt = s.volt := Eq.trans rfl rfl
@[simp] theorem State.modEngine_press (s : State) (e : Nat) (f : Engine → Engine) : (s.modEngine e f).press = s.press := Eq.trans rfl rfl
@[simp] theorem State.modEngine_flash (s : State) (e : Nat) (f : Engine → Engine) : (s.modEngine e f).flash = s.flash := Eq.trans rfl rfl
@[simp] theorem State.modEngine_chain (s : State) (e : Nat) (f : Engine → Engine) : (s.modEngine e f).chain = s.chain := Eq.trans rfl rfl
@[simp] theorem State.modEngine_board (s : State) (e : Nat) (f : Engine → Engine) : (s.modEngine e f).board = s.board := Eq.trans rfl rfl
@[simp] theorem State.modEngine_free (s : State) (e : Nat) (f : Engine → Engine) : (s.modEngine e f).free = s.free := Eq.trans rfl rfl
@[simp] theorem State.modEngine_pending (s : State) (e : Nat) (f : Engine → Engine) : (s.modEngine e f).pending = s.pending := Eq.trans rfl rfl
@[simp] theorem State.word_modEngine (s : State) (e : Nat) (f : Engine → Engine) (j : Nat) : (s.modEngine e f).word j = s.word j :=
  State.word_congr (State.modEngine_regs s e f) j
@[simp] theorem State.word64_modEngine (s : State) (e : Nat) (f : Engine → Engine) (j : Nat) : (s.modEngine e f).word64 j = s.word64 j :=
  State.word64_congr (State.modEngine_regs s e f) j
@[simp] theorem State.rd_modEngine (s : State) (e : Nat) (f : Engine → Engine) (j : RField) : (s.modEngine e f).rd j = s.rd j :=
  State.rd_congr (State.modEngine_regs s e f) j
@[simp] theorem State.flag_modEngine (s : State) (e : Nat) (f : Engine → Engine) (j : RField) : (s.modEngine e f).flag j = s.flag j :=
  State.flag_congr (State.modEngine_regs s e f) j

/-! ### setBuf -/

@[simp] theorem State.setBuf_regs (s : State) (i : Nat) (v : Buf) : (s.setBuf i v).regs = s.regs := Eq.trans rfl rfl
@[simp] theorem State.setBuf_holds (s : State) (i : Nat) (v : Buf) : (s.setBuf i v).holds = s.holds := Eq.trans rfl rfl
@[simp] theorem State.setBuf_clock (s : State) (i : Nat) (v : Buf) : (s.setBuf i v).clock = s.clock := Eq.trans rfl rfl
@[simp] theorem State.setBuf_errs (s : State) (i : Nat) (v : Buf) : (s.setBuf i v).errs = s.errs := Eq.trans rfl rfl
@[simp] theorem State.setBuf_insts (s : State) (i : Nat) (v : Buf) : (s.setBuf i v).insts = s.insts := Eq.trans rfl rfl
@[simp] theorem State.setBuf_rings (s : State) (i : Nat) (v : Buf) : (s.setBuf i v).rings = s.rings := Eq.trans rfl rfl
@[simp] theorem State.setBuf_arr (s : State) (i : Nat) (v : Buf) : (s.setBuf i v).arr = s.arr := Eq.trans rfl rfl
@[simp] theorem State.setBuf_steps (s : State) (i : Nat) (v : Buf) : (s.setBuf i v).steps = s.steps := Eq.trans rfl rfl
@[simp] theorem State.setBuf_pe (s : State) (i : Nat) (v : Buf) : (s.setBuf i v).pe = s.pe := Eq.trans rfl rfl
@[simp] theorem State.setBuf_pegs (s : State) (i : Nat) (v : Buf) : (s.setBuf i v).pegs = s.pegs := Eq.trans rfl rfl
@[simp] theorem State.setBuf_guard (s : State) (i : Nat) (v : Buf) : (s.setBuf i v).guard = s.guard := Eq.trans rfl rfl
@[simp] theorem State.setBuf_csi (s : State) (i : Nat) (v : Buf) : (s.setBuf i v).csi = s.csi := Eq.trans rfl rfl
@[simp] theorem State.setBuf_power (s : State) (i : Nat) (v : Buf) : (s.setBuf i v).power = s.power := Eq.trans rfl rfl
@[simp] theorem State.setBuf_volt (s : State) (i : Nat) (v : Buf) : (s.setBuf i v).volt = s.volt := Eq.trans rfl rfl
@[simp] theorem State.setBuf_press (s : State) (i : Nat) (v : Buf) : (s.setBuf i v).press = s.press := Eq.trans rfl rfl
@[simp] theorem State.setBuf_flash (s : State) (i : Nat) (v : Buf) : (s.setBuf i v).flash = s.flash := Eq.trans rfl rfl
@[simp] theorem State.setBuf_chain (s : State) (i : Nat) (v : Buf) : (s.setBuf i v).chain = s.chain := Eq.trans rfl rfl
@[simp] theorem State.setBuf_board (s : State) (i : Nat) (v : Buf) : (s.setBuf i v).board = s.board := Eq.trans rfl rfl
@[simp] theorem State.setBuf_free (s : State) (i : Nat) (v : Buf) : (s.setBuf i v).free = s.free := Eq.trans rfl rfl
@[simp] theorem State.setBuf_pending (s : State) (i : Nat) (v : Buf) : (s.setBuf i v).pending = s.pending := Eq.trans rfl rfl
@[simp] theorem State.word_setBuf (s : State) (i : Nat) (v : Buf) (j : Nat) : (s.setBuf i v).word j = s.word j :=
  State.word_congr (State.setBuf_regs s i v) j
@[simp] theorem State.word64_setBuf (s : State) (i : Nat) (v : Buf) (j : Nat) : (s.setBuf i v).word64 j = s.word64 j :=
  State.word64_congr (State.setBuf_regs s i v) j
@[simp] theorem State.rd_setBuf (s : State) (i : Nat) (v : Buf) (j : RField) : (s.setBuf i v).rd j = s.rd j :=
  State.rd_congr (State.setBuf_regs s i v) j
@[simp] theorem State.flag_setBuf (s : State) (i : Nat) (v : Buf) (j : RField) : (s.setBuf i v).flag j = s.flag j :=
  State.flag_congr (State.setBuf_regs s i v) j

/-! ### setLane -/

@[simp] theorem State.setLane_regs (s : State) (l : Nat) (v : Lane) : (s.setLane l v).regs = s.regs := Eq.trans rfl rfl
@[simp] theorem State.setLane_holds (s : State) (l : Nat) (v : Lane) : (s.setLane l v).holds = s.holds := Eq.trans rfl rfl
@[simp] theorem State.setLane_clock (s : State) (l : Nat) (v : Lane) : (s.setLane l v).clock = s.clock := Eq.trans rfl rfl
@[simp] theorem State.setLane_errs (s : State) (l : Nat) (v : Lane) : (s.setLane l v).errs = s.errs := Eq.trans rfl rfl
@[simp] theorem State.setLane_insts (s : State) (l : Nat) (v : Lane) : (s.setLane l v).insts = s.insts := Eq.trans rfl rfl
@[simp] theorem State.setLane_mem (s : State) (l : Nat) (v : Lane) : (s.setLane l v).mem = s.mem := Eq.trans rfl rfl
@[simp] theorem State.setLane_rings (s : State) (l : Nat) (v : Lane) : (s.setLane l v).rings = s.rings := Eq.trans rfl rfl
@[simp] theorem State.setLane_arr (s : State) (l : Nat) (v : Lane) : (s.setLane l v).arr = s.arr := Eq.trans rfl rfl
@[simp] theorem State.setLane_steps (s : State) (l : Nat) (v : Lane) : (s.setLane l v).steps = s.steps := Eq.trans rfl rfl
@[simp] theorem State.setLane_pe (s : State) (l : Nat) (v : Lane) : (s.setLane l v).pe = s.pe := Eq.trans rfl rfl
@[simp] theorem State.setLane_pegs (s : State) (l : Nat) (v : Lane) : (s.setLane l v).pegs = s.pegs := Eq.trans rfl rfl
@[simp] theorem State.setLane_csi (s : State) (l : Nat) (v : Lane) : (s.setLane l v).csi = s.csi := Eq.trans rfl rfl
@[simp] theorem State.setLane_power (s : State) (l : Nat) (v : Lane) : (s.setLane l v).power = s.power := Eq.trans rfl rfl
@[simp] theorem State.setLane_volt (s : State) (l : Nat) (v : Lane) : (s.setLane l v).volt = s.volt := Eq.trans rfl rfl
@[simp] theorem State.setLane_press (s : State) (l : Nat) (v : Lane) : (s.setLane l v).press = s.press := Eq.trans rfl rfl
@[simp] theorem State.setLane_flash (s : State) (l : Nat) (v : Lane) : (s.setLane l v).flash = s.flash := Eq.trans rfl rfl
@[simp] theorem State.setLane_chain (s : State) (l : Nat) (v : Lane) : (s.setLane l v).chain = s.chain := Eq.trans rfl rfl
@[simp] theorem State.setLane_board (s : State) (l : Nat) (v : Lane) : (s.setLane l v).board = s.board := Eq.trans rfl rfl
@[simp] theorem State.setLane_free (s : State) (l : Nat) (v : Lane) : (s.setLane l v).free = s.free := Eq.trans rfl rfl
@[simp] theorem State.setLane_pending (s : State) (l : Nat) (v : Lane) : (s.setLane l v).pending = s.pending := Eq.trans rfl rfl
@[simp] theorem State.word_setLane (s : State) (l : Nat) (v : Lane) (j : Nat) : (s.setLane l v).word j = s.word j :=
  State.word_congr (State.setLane_regs s l v) j
@[simp] theorem State.word64_setLane (s : State) (l : Nat) (v : Lane) (j : Nat) : (s.setLane l v).word64 j = s.word64 j :=
  State.word64_congr (State.setLane_regs s l v) j
@[simp] theorem State.rd_setLane (s : State) (l : Nat) (v : Lane) (j : RField) : (s.setLane l v).rd j = s.rd j :=
  State.rd_congr (State.setLane_regs s l v) j
@[simp] theorem State.flag_setLane (s : State) (l : Nat) (v : Lane) (j : RField) : (s.setLane l v).flag j = s.flag j :=
  State.flag_congr (State.setLane_regs s l v) j

/-! ### modLane -/

@[simp] theorem State.modLane_regs (s : State) (l : Nat) (f : Lane → Lane) : (s.modLane l f).regs = s.regs := Eq.trans rfl rfl
@[simp] theorem State.modLane_holds (s : State) (l : Nat) (f : Lane → Lane) : (s.modLane l f).holds = s.holds := Eq.trans rfl rfl
@[simp] theorem State.modLane_clock (s : State) (l : Nat) (f : Lane → Lane) : (s.modLane l f).clock = s.clock := Eq.trans rfl rfl
@[simp] theorem State.modLane_errs (s : State) (l : Nat) (f : Lane → Lane) : (s.modLane l f).errs = s.errs := Eq.trans rfl rfl
@[simp] theorem State.modLane_insts (s : State) (l : Nat) (f : Lane → Lane) : (s.modLane l f).insts = s.insts := Eq.trans rfl rfl
@[simp] theorem State.modLane_mem (s : State) (l : Nat) (f : Lane → Lane) : (s.modLane l f).mem = s.mem := Eq.trans rfl rfl
@[simp] theorem State.modLane_rings (s : State) (l : Nat) (f : Lane → Lane) : (s.modLane l f).rings = s.rings := Eq.trans rfl rfl
@[simp] theorem State.modLane_arr (s : State) (l : Nat) (f : Lane → Lane) : (s.modLane l f).arr = s.arr := Eq.trans rfl rfl
@[simp] theorem State.modLane_steps (s : State) (l : Nat) (f : Lane → Lane) : (s.modLane l f).steps = s.steps := Eq.trans rfl rfl
@[simp] theorem State.modLane_pe (s : State) (l : Nat) (f : Lane → Lane) : (s.modLane l f).pe = s.pe := Eq.trans rfl rfl
@[simp] theorem State.modLane_pegs (s : State) (l : Nat) (f : Lane → Lane) : (s.modLane l f).pegs = s.pegs := Eq.trans rfl rfl
@[simp] theorem State.modLane_csi (s : State) (l : Nat) (f : Lane → Lane) : (s.modLane l f).csi = s.csi := Eq.trans rfl rfl
@[simp] theorem State.modLane_power (s : State) (l : Nat) (f : Lane → Lane) : (s.modLane l f).power = s.power := Eq.trans rfl rfl
@[simp] theorem State.modLane_volt (s : State) (l : Nat) (f : Lane → Lane) : (s.modLane l f).volt = s.volt := Eq.trans rfl rfl
@[simp] theorem State.modLane_press (s : State) (l : Nat) (f : Lane → Lane) : (s.modLane l f).press = s.press := Eq.trans rfl rfl
@[simp] theorem State.modLane_flash (s : State) (l : Nat) (f : Lane → Lane) : (s.modLane l f).flash = s.flash := Eq.trans rfl rfl
@[simp] theorem State.modLane_chain (s : State) (l : Nat) (f : Lane → Lane) : (s.modLane l f).chain = s.chain := Eq.trans rfl rfl
@[simp] theorem State.modLane_board (s : State) (l : Nat) (f : Lane → Lane) : (s.modLane l f).board = s.board := Eq.trans rfl rfl
@[simp] theorem State.modLane_free (s : State) (l : Nat) (f : Lane → Lane) : (s.modLane l f).free = s.free := Eq.trans rfl rfl
@[simp] theorem State.modLane_pending (s : State) (l : Nat) (f : Lane → Lane) : (s.modLane l f).pending = s.pending := Eq.trans rfl rfl
@[simp] theorem State.word_modLane (s : State) (l : Nat) (f : Lane → Lane) (j : Nat) : (s.modLane l f).word j = s.word j :=
  State.word_congr (State.modLane_regs s l f) j
@[simp] theorem State.word64_modLane (s : State) (l : Nat) (f : Lane → Lane) (j : Nat) : (s.modLane l f).word64 j = s.word64 j :=
  State.word64_congr (State.modLane_regs s l f) j
@[simp] theorem State.rd_modLane (s : State) (l : Nat) (f : Lane → Lane) (j : RField) : (s.modLane l f).rd j = s.rd j :=
  State.rd_congr (State.modLane_regs s l f) j
@[simp] theorem State.flag_modLane (s : State) (l : Nat) (f : Lane → Lane) (j : RField) : (s.modLane l f).flag j = s.flag j :=
  State.flag_congr (State.modLane_regs s l f) j

/-! ### setPort -/

@[simp] theorem State.setPort_regs (s : State) (p : Nat) (v : Port) : (s.setPort p v).regs = s.regs := Eq.trans rfl rfl
@[simp] theorem State.setPort_holds (s : State) (p : Nat) (v : Port) : (s.setPort p v).holds = s.holds := Eq.trans rfl rfl
@[simp] theorem State.setPort_clock (s : State) (p : Nat) (v : Port) : (s.setPort p v).clock = s.clock := Eq.trans rfl rfl
@[simp] theorem State.setPort_errs (s : State) (p : Nat) (v : Port) : (s.setPort p v).errs = s.errs := Eq.trans rfl rfl
@[simp] theorem State.setPort_insts (s : State) (p : Nat) (v : Port) : (s.setPort p v).insts = s.insts := Eq.trans rfl rfl
@[simp] theorem State.setPort_mem (s : State) (p : Nat) (v : Port) : (s.setPort p v).mem = s.mem := Eq.trans rfl rfl
@[simp] theorem State.setPort_rings (s : State) (p : Nat) (v : Port) : (s.setPort p v).rings = s.rings := Eq.trans rfl rfl
@[simp] theorem State.setPort_arr (s : State) (p : Nat) (v : Port) : (s.setPort p v).arr = s.arr := Eq.trans rfl rfl
@[simp] theorem State.setPort_steps (s : State) (p : Nat) (v : Port) : (s.setPort p v).steps = s.steps := Eq.trans rfl rfl
@[simp] theorem State.setPort_pe (s : State) (p : Nat) (v : Port) : (s.setPort p v).pe = s.pe := Eq.trans rfl rfl
@[simp] theorem State.setPort_pegs (s : State) (p : Nat) (v : Port) : (s.setPort p v).pegs = s.pegs := Eq.trans rfl rfl
@[simp] theorem State.setPort_guard (s : State) (p : Nat) (v : Port) : (s.setPort p v).guard = s.guard := Eq.trans rfl rfl
@[simp] theorem State.setPort_csi (s : State) (p : Nat) (v : Port) : (s.setPort p v).csi = s.csi := Eq.trans rfl rfl
@[simp] theorem State.setPort_power (s : State) (p : Nat) (v : Port) : (s.setPort p v).power = s.power := Eq.trans rfl rfl
@[simp] theorem State.setPort_volt (s : State) (p : Nat) (v : Port) : (s.setPort p v).volt = s.volt := Eq.trans rfl rfl
@[simp] theorem State.setPort_press (s : State) (p : Nat) (v : Port) : (s.setPort p v).press = s.press := Eq.trans rfl rfl
@[simp] theorem State.setPort_flash (s : State) (p : Nat) (v : Port) : (s.setPort p v).flash = s.flash := Eq.trans rfl rfl
@[simp] theorem State.setPort_board (s : State) (p : Nat) (v : Port) : (s.setPort p v).board = s.board := Eq.trans rfl rfl
@[simp] theorem State.setPort_free (s : State) (p : Nat) (v : Port) : (s.setPort p v).free = s.free := Eq.trans rfl rfl
@[simp] theorem State.setPort_pending (s : State) (p : Nat) (v : Port) : (s.setPort p v).pending = s.pending := Eq.trans rfl rfl
@[simp] theorem State.word_setPort (s : State) (p : Nat) (v : Port) (j : Nat) : (s.setPort p v).word j = s.word j :=
  State.word_congr (State.setPort_regs s p v) j
@[simp] theorem State.word64_setPort (s : State) (p : Nat) (v : Port) (j : Nat) : (s.setPort p v).word64 j = s.word64 j :=
  State.word64_congr (State.setPort_regs s p v) j
@[simp] theorem State.rd_setPort (s : State) (p : Nat) (v : Port) (j : RField) : (s.setPort p v).rd j = s.rd j :=
  State.rd_congr (State.setPort_regs s p v) j
@[simp] theorem State.flag_setPort (s : State) (p : Nat) (v : Port) (j : RField) : (s.setPort p v).flag j = s.flag j :=
  State.flag_congr (State.setPort_regs s p v) j

/-! ### busyNow -/

@[simp] theorem State.busyNow_regs (s : State) : (s.busyNow).regs = s.regs := Eq.trans rfl rfl
@[simp] theorem State.busyNow_holds (s : State) : (s.busyNow).holds = s.holds := Eq.trans rfl rfl
@[simp] theorem State.busyNow_clock (s : State) : (s.busyNow).clock = s.clock := Eq.trans rfl rfl
@[simp] theorem State.busyNow_errs (s : State) : (s.busyNow).errs = s.errs := Eq.trans rfl rfl
@[simp] theorem State.busyNow_insts (s : State) : (s.busyNow).insts = s.insts := Eq.trans rfl rfl
@[simp] theorem State.busyNow_mem (s : State) : (s.busyNow).mem = s.mem := Eq.trans rfl rfl
@[simp] theorem State.busyNow_rings (s : State) : (s.busyNow).rings = s.rings := Eq.trans rfl rfl
@[simp] theorem State.busyNow_arr (s : State) : (s.busyNow).arr = s.arr := Eq.trans rfl rfl
@[simp] theorem State.busyNow_steps (s : State) : (s.busyNow).steps = s.steps := Eq.trans rfl rfl
@[simp] theorem State.busyNow_pe (s : State) : (s.busyNow).pe = s.pe := Eq.trans rfl rfl
@[simp] theorem State.busyNow_pegs (s : State) : (s.busyNow).pegs = s.pegs := Eq.trans rfl rfl
@[simp] theorem State.busyNow_guard (s : State) : (s.busyNow).guard = s.guard := Eq.trans rfl rfl
@[simp] theorem State.busyNow_csi (s : State) : (s.busyNow).csi = s.csi := Eq.trans rfl rfl
@[simp] theorem State.busyNow_volt (s : State) : (s.busyNow).volt = s.volt := Eq.trans rfl rfl
@[simp] theorem State.busyNow_press (s : State) : (s.busyNow).press = s.press := Eq.trans rfl rfl
@[simp] theorem State.busyNow_flash (s : State) : (s.busyNow).flash = s.flash := Eq.trans rfl rfl
@[simp] theorem State.busyNow_chain (s : State) : (s.busyNow).chain = s.chain := Eq.trans rfl rfl
@[simp] theorem State.busyNow_board (s : State) : (s.busyNow).board = s.board := Eq.trans rfl rfl
@[simp] theorem State.busyNow_free (s : State) : (s.busyNow).free = s.free := Eq.trans rfl rfl
@[simp] theorem State.busyNow_pending (s : State) : (s.busyNow).pending = s.pending := Eq.trans rfl rfl
@[simp] theorem State.word_busyNow (s : State) (j : Nat) : (s.busyNow).word j = s.word j :=
  State.word_congr (State.busyNow_regs s) j
@[simp] theorem State.word64_busyNow (s : State) (j : Nat) : (s.busyNow).word64 j = s.word64 j :=
  State.word64_congr (State.busyNow_regs s) j
@[simp] theorem State.rd_busyNow (s : State) (j : RField) : (s.busyNow).rd j = s.rd j :=
  State.rd_congr (State.busyNow_regs s) j
@[simp] theorem State.flag_busyNow (s : State) (j : RField) : (s.busyNow).flag j = s.flag j :=
  State.flag_congr (State.busyNow_regs s) j

/-! ### queueRecord -/

@[simp] theorem State.queueRecord_regs (s : State) (r : Record) (d : List (Nat × Bool)) : (s.queueRecord r d).regs = s.regs := Eq.trans rfl rfl
@[simp] theorem State.queueRecord_holds (s : State) (r : Record) (d : List (Nat × Bool)) : (s.queueRecord r d).holds = s.holds := Eq.trans rfl rfl
@[simp] theorem State.queueRecord_clock (s : State) (r : Record) (d : List (Nat × Bool)) : (s.queueRecord r d).clock = s.clock := Eq.trans rfl rfl
@[simp] theorem State.queueRecord_insts (s : State) (r : Record) (d : List (Nat × Bool)) : (s.queueRecord r d).insts = s.insts := Eq.trans rfl rfl
@[simp] theorem State.queueRecord_mem (s : State) (r : Record) (d : List (Nat × Bool)) : (s.queueRecord r d).mem = s.mem := Eq.trans rfl rfl
@[simp] theorem State.queueRecord_rings (s : State) (r : Record) (d : List (Nat × Bool)) : (s.queueRecord r d).rings = s.rings := Eq.trans rfl rfl
@[simp] theorem State.queueRecord_arr (s : State) (r : Record) (d : List (Nat × Bool)) : (s.queueRecord r d).arr = s.arr := Eq.trans rfl rfl
@[simp] theorem State.queueRecord_steps (s : State) (r : Record) (d : List (Nat × Bool)) : (s.queueRecord r d).steps = s.steps := Eq.trans rfl rfl
@[simp] theorem State.queueRecord_pe (s : State) (r : Record) (d : List (Nat × Bool)) : (s.queueRecord r d).pe = s.pe := Eq.trans rfl rfl
@[simp] theorem State.queueRecord_pegs (s : State) (r : Record) (d : List (Nat × Bool)) : (s.queueRecord r d).pegs = s.pegs := Eq.trans rfl rfl
@[simp] theorem State.queueRecord_guard (s : State) (r : Record) (d : List (Nat × Bool)) : (s.queueRecord r d).guard = s.guard := Eq.trans rfl rfl
@[simp] theorem State.queueRecord_csi (s : State) (r : Record) (d : List (Nat × Bool)) : (s.queueRecord r d).csi = s.csi := Eq.trans rfl rfl
@[simp] theorem State.queueRecord_power (s : State) (r : Record) (d : List (Nat × Bool)) : (s.queueRecord r d).power = s.power := Eq.trans rfl rfl
@[simp] theorem State.queueRecord_volt (s : State) (r : Record) (d : List (Nat × Bool)) : (s.queueRecord r d).volt = s.volt := Eq.trans rfl rfl
@[simp] theorem State.queueRecord_press (s : State) (r : Record) (d : List (Nat × Bool)) : (s.queueRecord r d).press = s.press := Eq.trans rfl rfl
@[simp] theorem State.queueRecord_flash (s : State) (r : Record) (d : List (Nat × Bool)) : (s.queueRecord r d).flash = s.flash := Eq.trans rfl rfl
@[simp] theorem State.queueRecord_chain (s : State) (r : Record) (d : List (Nat × Bool)) : (s.queueRecord r d).chain = s.chain := Eq.trans rfl rfl
@[simp] theorem State.queueRecord_board (s : State) (r : Record) (d : List (Nat × Bool)) : (s.queueRecord r d).board = s.board := Eq.trans rfl rfl
@[simp] theorem State.queueRecord_free (s : State) (r : Record) (d : List (Nat × Bool)) : (s.queueRecord r d).free = s.free := Eq.trans rfl rfl
@[simp] theorem State.queueRecord_pending (s : State) (r : Record) (d : List (Nat × Bool)) : (s.queueRecord r d).pending = s.pending := Eq.trans rfl rfl
@[simp] theorem State.word_queueRecord (s : State) (r : Record) (d : List (Nat × Bool)) (j : Nat) : (s.queueRecord r d).word j = s.word j :=
  State.word_congr (State.queueRecord_regs s r d) j
@[simp] theorem State.word64_queueRecord (s : State) (r : Record) (d : List (Nat × Bool)) (j : Nat) : (s.queueRecord r d).word64 j = s.word64 j :=
  State.word64_congr (State.queueRecord_regs s r d) j
@[simp] theorem State.rd_queueRecord (s : State) (r : Record) (d : List (Nat × Bool)) (j : RField) : (s.queueRecord r d).rd j = s.rd j :=
  State.rd_congr (State.queueRecord_regs s r d) j
@[simp] theorem State.flag_queueRecord (s : State) (r : Record) (d : List (Nat × Bool)) (j : RField) : (s.queueRecord r d).flag j = s.flag j :=
  State.flag_congr (State.queueRecord_regs s r d) j

/-! ### countRecord -/

@[simp] theorem State.countRecord_holds (s : State) (c : Nat) : (s.countRecord c).holds = s.holds := by
  rw [State.countRecord, State.bump_holds]
@[simp] theorem State.countRecord_clock (s : State) (c : Nat) : (s.countRecord c).clock = s.clock := by
  rw [State.countRecord, State.bump_clock]
@[simp] theorem State.countRecord_insts (s : State) (c : Nat) : (s.countRecord c).insts = s.insts := by
  rw [State.countRecord, State.bump_insts]
@[simp] theorem State.countRecord_mem (s : State) (c : Nat) : (s.countRecord c).mem = s.mem := by
  rw [State.countRecord, State.bump_mem]
@[simp] theorem State.countRecord_rings (s : State) (c : Nat) : (s.countRecord c).rings = s.rings := by
  rw [State.countRecord, State.bump_rings]
@[simp] theorem State.countRecord_arr (s : State) (c : Nat) : (s.countRecord c).arr = s.arr := by
  rw [State.countRecord, State.bump_arr]
@[simp] theorem State.countRecord_steps (s : State) (c : Nat) : (s.countRecord c).steps = s.steps := by
  rw [State.countRecord, State.bump_steps]
@[simp] theorem State.countRecord_pe (s : State) (c : Nat) : (s.countRecord c).pe = s.pe := by
  rw [State.countRecord, State.bump_pe]
@[simp] theorem State.countRecord_pegs (s : State) (c : Nat) : (s.countRecord c).pegs = s.pegs := by
  rw [State.countRecord, State.bump_pegs]
@[simp] theorem State.countRecord_guard (s : State) (c : Nat) : (s.countRecord c).guard = s.guard := by
  rw [State.countRecord, State.bump_guard]
@[simp] theorem State.countRecord_csi (s : State) (c : Nat) : (s.countRecord c).csi = s.csi := by
  rw [State.countRecord, State.bump_csi]
@[simp] theorem State.countRecord_power (s : State) (c : Nat) : (s.countRecord c).power = s.power := by
  rw [State.countRecord, State.bump_power]
@[simp] theorem State.countRecord_volt (s : State) (c : Nat) : (s.countRecord c).volt = s.volt := by
  rw [State.countRecord, State.bump_volt]
@[simp] theorem State.countRecord_press (s : State) (c : Nat) : (s.countRecord c).press = s.press := by
  rw [State.countRecord, State.bump_press]
@[simp] theorem State.countRecord_flash (s : State) (c : Nat) : (s.countRecord c).flash = s.flash := by
  rw [State.countRecord, State.bump_flash]
@[simp] theorem State.countRecord_chain (s : State) (c : Nat) : (s.countRecord c).chain = s.chain := by
  rw [State.countRecord, State.bump_chain]
@[simp] theorem State.countRecord_board (s : State) (c : Nat) : (s.countRecord c).board = s.board := by
  rw [State.countRecord, State.bump_board]
@[simp] theorem State.countRecord_free (s : State) (c : Nat) : (s.countRecord c).free = s.free := by
  rw [State.countRecord, State.bump_free]
@[simp] theorem State.countRecord_pending (s : State) (c : Nat) : (s.countRecord c).pending = s.pending := by
  rw [State.countRecord, State.bump_pending]

/-! ### uartLine -/

@[simp] theorem State.uartLine_regs (s : State) (b : List Nat) : (s.uartLine b).regs = s.regs := by
  rw [State.uartLine, apply_ite State.regs, ite_self]
@[simp] theorem State.uartLine_holds (s : State) (b : List Nat) : (s.uartLine b).holds = s.holds := by
  rw [State.uartLine, apply_ite State.holds, ite_self]
@[simp] theorem State.uartLine_clock (s : State) (b : List Nat) : (s.uartLine b).clock = s.clock := by
  rw [State.uartLine, apply_ite State.clock, ite_self]
@[simp] theorem State.uartLine_errs (s : State) (b : List Nat) : (s.uartLine b).errs = s.errs := by
  rw [State.uartLine, apply_ite State.errs, ite_self]
@[simp] theorem State.uartLine_insts (s : State) (b : List Nat) : (s.uartLine b).insts = s.insts := by
  rw [State.uartLine, apply_ite State.insts, ite_self]
@[simp] theorem State.uartLine_mem (s : State) (b : List Nat) : (s.uartLine b).mem = s.mem := by
  rw [State.uartLine, apply_ite State.mem, ite_self]
@[simp] theorem State.uartLine_rings (s : State) (b : List Nat) : (s.uartLine b).rings = s.rings := by
  rw [State.uartLine, apply_ite State.rings, ite_self]
@[simp] theorem State.uartLine_arr (s : State) (b : List Nat) : (s.uartLine b).arr = s.arr := by
  rw [State.uartLine, apply_ite State.arr, ite_self]
@[simp] theorem State.uartLine_steps (s : State) (b : List Nat) : (s.uartLine b).steps = s.steps := by
  rw [State.uartLine, apply_ite State.steps, ite_self]
@[simp] theorem State.uartLine_pe (s : State) (b : List Nat) : (s.uartLine b).pe = s.pe := by
  rw [State.uartLine, apply_ite State.pe, ite_self]
@[simp] theorem State.uartLine_pegs (s : State) (b : List Nat) : (s.uartLine b).pegs = s.pegs := by
  rw [State.uartLine, apply_ite State.pegs, ite_self]
@[simp] theorem State.uartLine_guard (s : State) (b : List Nat) : (s.uartLine b).guard = s.guard := by
  rw [State.uartLine, apply_ite State.guard, ite_self]
@[simp] theorem State.uartLine_csi (s : State) (b : List Nat) : (s.uartLine b).csi = s.csi := by
  rw [State.uartLine, apply_ite State.csi, ite_self]
@[simp] theorem State.uartLine_power (s : State) (b : List Nat) : (s.uartLine b).power = s.power := by
  rw [State.uartLine, apply_ite State.power, ite_self]
@[simp] theorem State.uartLine_volt (s : State) (b : List Nat) : (s.uartLine b).volt = s.volt := by
  rw [State.uartLine, apply_ite State.volt, ite_self]
@[simp] theorem State.uartLine_press (s : State) (b : List Nat) : (s.uartLine b).press = s.press := by
  rw [State.uartLine, apply_ite State.press, ite_self]
@[simp] theorem State.uartLine_flash (s : State) (b : List Nat) : (s.uartLine b).flash = s.flash := by
  rw [State.uartLine, apply_ite State.flash, ite_self]
@[simp] theorem State.uartLine_chain (s : State) (b : List Nat) : (s.uartLine b).chain = s.chain := by
  rw [State.uartLine, apply_ite State.chain, ite_self]
@[simp] theorem State.uartLine_free (s : State) (b : List Nat) : (s.uartLine b).free = s.free := by
  rw [State.uartLine, apply_ite State.free, ite_self]
@[simp] theorem State.uartLine_pending (s : State) (b : List Nat) : (s.uartLine b).pending = s.pending := by
  rw [State.uartLine, apply_ite State.pending, ite_self]
@[simp] theorem State.word_uartLine (s : State) (b : List Nat) (j : Nat) : (s.uartLine b).word j = s.word j :=
  State.word_congr (State.uartLine_regs s b) j
@[simp] theorem State.word64_uartLine (s : State) (b : List Nat) (j : Nat) : (s.uartLine b).word64 j = s.word64 j :=
  State.word64_congr (State.uartLine_regs s b) j
@[simp] theorem State.rd_uartLine (s : State) (b : List Nat) (j : RField) : (s.uartLine b).rd j = s.rd j :=
  State.rd_congr (State.uartLine_regs s b) j
@[simp] theorem State.flag_uartLine (s : State) (b : List Nat) (j : RField) : (s.uartLine b).flag j = s.flag j :=
  State.flag_congr (State.uartLine_regs s b) j

/-! ### msix -/

@[simp] theorem State.msix_holds (s : State) (f v : Nat) : (s.msix f v).holds = s.holds := by
  simp only [State.msix, apply_ite State.holds, State.wr_holds, ite_self]
@[simp] theorem State.msix_clock (s : State) (f v : Nat) : (s.msix f v).clock = s.clock := by
  simp only [State.msix, apply_ite State.clock, State.wr_clock, ite_self]
@[simp] theorem State.msix_errs (s : State) (f v : Nat) : (s.msix f v).errs = s.errs := by
  simp only [State.msix, apply_ite State.errs, State.wr_errs, ite_self]
@[simp] theorem State.msix_insts (s : State) (f v : Nat) : (s.msix f v).insts = s.insts := by
  simp only [State.msix, apply_ite State.insts, State.wr_insts, ite_self]
@[simp] theorem State.msix_mem (s : State) (f v : Nat) : (s.msix f v).mem = s.mem := by
  simp only [State.msix, apply_ite State.mem, State.wr_mem, ite_self]
@[simp] theorem State.msix_arr (s : State) (f v : Nat) : (s.msix f v).arr = s.arr := by
  simp only [State.msix, apply_ite State.arr, State.wr_arr, ite_self]
@[simp] theorem State.msix_steps (s : State) (f v : Nat) : (s.msix f v).steps = s.steps := by
  simp only [State.msix, apply_ite State.steps, State.wr_steps, ite_self]
@[simp] theorem State.msix_pe (s : State) (f v : Nat) : (s.msix f v).pe = s.pe := by
  simp only [State.msix, apply_ite State.pe, State.wr_pe, ite_self]
@[simp] theorem State.msix_pegs (s : State) (f v : Nat) : (s.msix f v).pegs = s.pegs := by
  simp only [State.msix, apply_ite State.pegs, State.wr_pegs, ite_self]
@[simp] theorem State.msix_guard (s : State) (f v : Nat) : (s.msix f v).guard = s.guard := by
  simp only [State.msix, apply_ite State.guard, State.wr_guard, ite_self]
@[simp] theorem State.msix_csi (s : State) (f v : Nat) : (s.msix f v).csi = s.csi := by
  simp only [State.msix, apply_ite State.csi, State.wr_csi, ite_self]
@[simp] theorem State.msix_power (s : State) (f v : Nat) : (s.msix f v).power = s.power := by
  simp only [State.msix, apply_ite State.power, State.wr_power, ite_self]
@[simp] theorem State.msix_volt (s : State) (f v : Nat) : (s.msix f v).volt = s.volt := by
  simp only [State.msix, apply_ite State.volt, State.wr_volt, ite_self]
@[simp] theorem State.msix_press (s : State) (f v : Nat) : (s.msix f v).press = s.press := by
  simp only [State.msix, apply_ite State.press, State.wr_press, ite_self]
@[simp] theorem State.msix_flash (s : State) (f v : Nat) : (s.msix f v).flash = s.flash := by
  simp only [State.msix, apply_ite State.flash, State.wr_flash, ite_self]
@[simp] theorem State.msix_chain (s : State) (f v : Nat) : (s.msix f v).chain = s.chain := by
  simp only [State.msix, apply_ite State.chain, State.wr_chain, ite_self]
@[simp] theorem State.msix_board (s : State) (f v : Nat) : (s.msix f v).board = s.board := by
  simp only [State.msix, apply_ite State.board, State.wr_board, ite_self]
@[simp] theorem State.msix_free (s : State) (f v : Nat) : (s.msix f v).free = s.free := by
  simp only [State.msix, apply_ite State.free, State.wr_free, ite_self]
@[simp] theorem State.msix_pending (s : State) (f v : Nat) : (s.msix f v).pending = s.pending := by
  simp only [State.msix, apply_ite State.pending, State.wr_pending, ite_self]

/-! ### irq -/

@[simp] theorem State.irq_holds (s : State) (e : Bool) (v : Nat) : (s.irq e v).holds = s.holds := by
  rw [State.irq, apply_ite State.holds, State.msix_holds, ite_self]
@[simp] theorem State.irq_clock (s : State) (e : Bool) (v : Nat) : (s.irq e v).clock = s.clock := by
  rw [State.irq, apply_ite State.clock, State.msix_clock, ite_self]
@[simp] theorem State.irq_errs (s : State) (e : Bool) (v : Nat) : (s.irq e v).errs = s.errs := by
  rw [State.irq, apply_ite State.errs, State.msix_errs, ite_self]
@[simp] theorem State.irq_insts (s : State) (e : Bool) (v : Nat) : (s.irq e v).insts = s.insts := by
  rw [State.irq, apply_ite State.insts, State.msix_insts, ite_self]
@[simp] theorem State.irq_mem (s : State) (e : Bool) (v : Nat) : (s.irq e v).mem = s.mem := by
  rw [State.irq, apply_ite State.mem, State.msix_mem, ite_self]
@[simp] theorem State.irq_arr (s : State) (e : Bool) (v : Nat) : (s.irq e v).arr = s.arr := by
  rw [State.irq, apply_ite State.arr, State.msix_arr, ite_self]
@[simp] theorem State.irq_steps (s : State) (e : Bool) (v : Nat) : (s.irq e v).steps = s.steps := by
  rw [State.irq, apply_ite State.steps, State.msix_steps, ite_self]
@[simp] theorem State.irq_pe (s : State) (e : Bool) (v : Nat) : (s.irq e v).pe = s.pe := by
  rw [State.irq, apply_ite State.pe, State.msix_pe, ite_self]
@[simp] theorem State.irq_pegs (s : State) (e : Bool) (v : Nat) : (s.irq e v).pegs = s.pegs := by
  rw [State.irq, apply_ite State.pegs, State.msix_pegs, ite_self]
@[simp] theorem State.irq_guard (s : State) (e : Bool) (v : Nat) : (s.irq e v).guard = s.guard := by
  rw [State.irq, apply_ite State.guard, State.msix_guard, ite_self]
@[simp] theorem State.irq_csi (s : State) (e : Bool) (v : Nat) : (s.irq e v).csi = s.csi := by
  rw [State.irq, apply_ite State.csi, State.msix_csi, ite_self]
@[simp] theorem State.irq_power (s : State) (e : Bool) (v : Nat) : (s.irq e v).power = s.power := by
  rw [State.irq, apply_ite State.power, State.msix_power, ite_self]
@[simp] theorem State.irq_volt (s : State) (e : Bool) (v : Nat) : (s.irq e v).volt = s.volt := by
  rw [State.irq, apply_ite State.volt, State.msix_volt, ite_self]
@[simp] theorem State.irq_press (s : State) (e : Bool) (v : Nat) : (s.irq e v).press = s.press := by
  rw [State.irq, apply_ite State.press, State.msix_press, ite_self]
@[simp] theorem State.irq_flash (s : State) (e : Bool) (v : Nat) : (s.irq e v).flash = s.flash := by
  rw [State.irq, apply_ite State.flash, State.msix_flash, ite_self]
@[simp] theorem State.irq_chain (s : State) (e : Bool) (v : Nat) : (s.irq e v).chain = s.chain := by
  rw [State.irq, apply_ite State.chain, State.msix_chain, ite_self]
@[simp] theorem State.irq_board (s : State) (e : Bool) (v : Nat) : (s.irq e v).board = s.board := by
  rw [State.irq, apply_ite State.board, State.msix_board, ite_self]
@[simp] theorem State.irq_free (s : State) (e : Bool) (v : Nat) : (s.irq e v).free = s.free := by
  rw [State.irq, apply_ite State.free, State.msix_free, ite_self]
@[simp] theorem State.irq_pending (s : State) (e : Bool) (v : Nat) : (s.irq e v).pending = s.pending := by
  rw [State.irq, apply_ite State.pending, State.msix_pending, ite_self]

/-! ### setWords -/

@[simp] theorem State.setWords_holds (s : State) (k : Nat) (l : List Nat) : (s.setWords k l).holds = s.holds := by
  induction l generalizing s k with
  | nil => rfl
  | cons w t ih => rw [State.setWords, ih, State.setWord_holds]
@[simp] theorem State.setWords_clock (s : State) (k : Nat) (l : List Nat) : (s.setWords k l).clock = s.clock := by
  induction l generalizing s k with
  | nil => rfl
  | cons w t ih => rw [State.setWords, ih, State.setWord_clock]
@[simp] theorem State.setWords_errs (s : State) (k : Nat) (l : List Nat) : (s.setWords k l).errs = s.errs := by
  induction l generalizing s k with
  | nil => rfl
  | cons w t ih => rw [State.setWords, ih, State.setWord_errs]
@[simp] theorem State.setWords_insts (s : State) (k : Nat) (l : List Nat) : (s.setWords k l).insts = s.insts := by
  induction l generalizing s k with
  | nil => rfl
  | cons w t ih => rw [State.setWords, ih, State.setWord_insts]
@[simp] theorem State.setWords_mem (s : State) (k : Nat) (l : List Nat) : (s.setWords k l).mem = s.mem := by
  induction l generalizing s k with
  | nil => rfl
  | cons w t ih => rw [State.setWords, ih, State.setWord_mem]
@[simp] theorem State.setWords_rings (s : State) (k : Nat) (l : List Nat) : (s.setWords k l).rings = s.rings := by
  induction l generalizing s k with
  | nil => rfl
  | cons w t ih => rw [State.setWords, ih, State.setWord_rings]
@[simp] theorem State.setWords_arr (s : State) (k : Nat) (l : List Nat) : (s.setWords k l).arr = s.arr := by
  induction l generalizing s k with
  | nil => rfl
  | cons w t ih => rw [State.setWords, ih, State.setWord_arr]
@[simp] theorem State.setWords_steps (s : State) (k : Nat) (l : List Nat) : (s.setWords k l).steps = s.steps := by
  induction l generalizing s k with
  | nil => rfl
  | cons w t ih => rw [State.setWords, ih, State.setWord_steps]
@[simp] theorem State.setWords_pe (s : State) (k : Nat) (l : List Nat) : (s.setWords k l).pe = s.pe := by
  induction l generalizing s k with
  | nil => rfl
  | cons w t ih => rw [State.setWords, ih, State.setWord_pe]
@[simp] theorem State.setWords_pegs (s : State) (k : Nat) (l : List Nat) : (s.setWords k l).pegs = s.pegs := by
  induction l generalizing s k with
  | nil => rfl
  | cons w t ih => rw [State.setWords, ih, State.setWord_pegs]
@[simp] theorem State.setWords_guard (s : State) (k : Nat) (l : List Nat) : (s.setWords k l).guard = s.guard := by
  induction l generalizing s k with
  | nil => rfl
  | cons w t ih => rw [State.setWords, ih, State.setWord_guard]
@[simp] theorem State.setWords_csi (s : State) (k : Nat) (l : List Nat) : (s.setWords k l).csi = s.csi := by
  induction l generalizing s k with
  | nil => rfl
  | cons w t ih => rw [State.setWords, ih, State.setWord_csi]
@[simp] theorem State.setWords_power (s : State) (k : Nat) (l : List Nat) : (s.setWords k l).power = s.power := by
  induction l generalizing s k with
  | nil => rfl
  | cons w t ih => rw [State.setWords, ih, State.setWord_power]
@[simp] theorem State.setWords_volt (s : State) (k : Nat) (l : List Nat) : (s.setWords k l).volt = s.volt := by
  induction l generalizing s k with
  | nil => rfl
  | cons w t ih => rw [State.setWords, ih, State.setWord_volt]
@[simp] theorem State.setWords_press (s : State) (k : Nat) (l : List Nat) : (s.setWords k l).press = s.press := by
  induction l generalizing s k with
  | nil => rfl
  | cons w t ih => rw [State.setWords, ih, State.setWord_press]
@[simp] theorem State.setWords_flash (s : State) (k : Nat) (l : List Nat) : (s.setWords k l).flash = s.flash := by
  induction l generalizing s k with
  | nil => rfl
  | cons w t ih => rw [State.setWords, ih, State.setWord_flash]
@[simp] theorem State.setWords_chain (s : State) (k : Nat) (l : List Nat) : (s.setWords k l).chain = s.chain := by
  induction l generalizing s k with
  | nil => rfl
  | cons w t ih => rw [State.setWords, ih, State.setWord_chain]
@[simp] theorem State.setWords_board (s : State) (k : Nat) (l : List Nat) : (s.setWords k l).board = s.board := by
  induction l generalizing s k with
  | nil => rfl
  | cons w t ih => rw [State.setWords, ih, State.setWord_board]
@[simp] theorem State.setWords_free (s : State) (k : Nat) (l : List Nat) : (s.setWords k l).free = s.free := by
  induction l generalizing s k with
  | nil => rfl
  | cons w t ih => rw [State.setWords, ih, State.setWord_free]
@[simp] theorem State.setWords_pending (s : State) (k : Nat) (l : List Nat) : (s.setWords k l).pending = s.pending := by
  induction l generalizing s k with
  | nil => rfl
  | cons w t ih => rw [State.setWords, ih, State.setWord_pending]

/-! ### logRecord -/

@[simp] theorem State.logRecord_holds (s : State) (r : Record) : (s.logRecord r).holds = s.holds := by
  simp only [State.logRecord, apply_ite State.holds, State.irq_holds, State.uartLine_holds, State.wr_holds, State.setWords_holds, State.bump_holds, ite_self]
@[simp] theorem State.logRecord_clock (s : State) (r : Record) : (s.logRecord r).clock = s.clock := by
  simp only [State.logRecord, apply_ite State.clock, State.irq_clock, State.uartLine_clock, State.wr_clock, State.setWords_clock, State.bump_clock, ite_self]
@[simp] theorem State.logRecord_errs (s : State) (r : Record) : (s.logRecord r).errs = s.errs := by
  simp only [State.logRecord, apply_ite State.errs, State.irq_errs, State.uartLine_errs, State.wr_errs, State.setWords_errs, State.bump_errs, ite_self]
@[simp] theorem State.logRecord_insts (s : State) (r : Record) : (s.logRecord r).insts = s.insts := by
  simp only [State.logRecord, apply_ite State.insts, State.irq_insts, State.uartLine_insts, State.wr_insts, State.setWords_insts, State.bump_insts, ite_self]
@[simp] theorem State.logRecord_mem (s : State) (r : Record) : (s.logRecord r).mem = s.mem := by
  simp only [State.logRecord, apply_ite State.mem, State.irq_mem, State.uartLine_mem, State.wr_mem, State.setWords_mem, State.bump_mem, ite_self]
@[simp] theorem State.logRecord_arr (s : State) (r : Record) : (s.logRecord r).arr = s.arr := by
  simp only [State.logRecord, apply_ite State.arr, State.irq_arr, State.uartLine_arr, State.wr_arr, State.setWords_arr, State.bump_arr, ite_self]
@[simp] theorem State.logRecord_steps (s : State) (r : Record) : (s.logRecord r).steps = s.steps := by
  simp only [State.logRecord, apply_ite State.steps, State.irq_steps, State.uartLine_steps, State.wr_steps, State.setWords_steps, State.bump_steps, ite_self]
@[simp] theorem State.logRecord_pe (s : State) (r : Record) : (s.logRecord r).pe = s.pe := by
  simp only [State.logRecord, apply_ite State.pe, State.irq_pe, State.uartLine_pe, State.wr_pe, State.setWords_pe, State.bump_pe, ite_self]
@[simp] theorem State.logRecord_pegs (s : State) (r : Record) : (s.logRecord r).pegs = s.pegs := by
  simp only [State.logRecord, apply_ite State.pegs, State.irq_pegs, State.uartLine_pegs, State.wr_pegs, State.setWords_pegs, State.bump_pegs, ite_self]
@[simp] theorem State.logRecord_guard (s : State) (r : Record) : (s.logRecord r).guard = s.guard := by
  simp only [State.logRecord, apply_ite State.guard, State.irq_guard, State.uartLine_guard, State.wr_guard, State.setWords_guard, State.bump_guard, ite_self]
@[simp] theorem State.logRecord_csi (s : State) (r : Record) : (s.logRecord r).csi = s.csi := by
  simp only [State.logRecord, apply_ite State.csi, State.irq_csi, State.uartLine_csi, State.wr_csi, State.setWords_csi, State.bump_csi, ite_self]
@[simp] theorem State.logRecord_power (s : State) (r : Record) : (s.logRecord r).power = s.power := by
  simp only [State.logRecord, apply_ite State.power, State.irq_power, State.uartLine_power, State.wr_power, State.setWords_power, State.bump_power, ite_self]
@[simp] theorem State.logRecord_volt (s : State) (r : Record) : (s.logRecord r).volt = s.volt := by
  simp only [State.logRecord, apply_ite State.volt, State.irq_volt, State.uartLine_volt, State.wr_volt, State.setWords_volt, State.bump_volt, ite_self]
@[simp] theorem State.logRecord_press (s : State) (r : Record) : (s.logRecord r).press = s.press := by
  simp only [State.logRecord, apply_ite State.press, State.irq_press, State.uartLine_press, State.wr_press, State.setWords_press, State.bump_press, ite_self]
@[simp] theorem State.logRecord_flash (s : State) (r : Record) : (s.logRecord r).flash = s.flash := by
  simp only [State.logRecord, apply_ite State.flash, State.irq_flash, State.uartLine_flash, State.wr_flash, State.setWords_flash, State.bump_flash, ite_self]
@[simp] theorem State.logRecord_chain (s : State) (r : Record) : (s.logRecord r).chain = s.chain := by
  simp only [State.logRecord, apply_ite State.chain, State.irq_chain, State.uartLine_chain, State.wr_chain, State.setWords_chain, State.bump_chain, ite_self]
@[simp] theorem State.logRecord_free (s : State) (r : Record) : (s.logRecord r).free = s.free := by
  simp only [State.logRecord, apply_ite State.free, State.irq_free, State.uartLine_free, State.wr_free, State.setWords_free, State.bump_free, ite_self]
@[simp] theorem State.logRecord_pending (s : State) (r : Record) : (s.logRecord r).pending = s.pending := by
  simp only [State.logRecord, apply_ite State.pending, State.irq_pending, State.uartLine_pending, State.wr_pending, State.setWords_pending, State.bump_pending, ite_self]

/-! ### halt -/

@[simp] theorem State.halt_holds (s : State) (r : Record) : (s.halt r).holds = s.holds := by
  simp only [State.halt, apply_ite State.holds, State.setFlag_holds, State.setWords_holds, ite_self]
@[simp] theorem State.halt_clock (s : State) (r : Record) : (s.halt r).clock = s.clock := by
  simp only [State.halt, apply_ite State.clock, State.setFlag_clock, State.setWords_clock, ite_self]
@[simp] theorem State.halt_insts (s : State) (r : Record) : (s.halt r).insts = s.insts := by
  simp only [State.halt, apply_ite State.insts, State.setFlag_insts, State.setWords_insts, ite_self]
@[simp] theorem State.halt_mem (s : State) (r : Record) : (s.halt r).mem = s.mem := by
  simp only [State.halt, apply_ite State.mem, State.setFlag_mem, State.setWords_mem, ite_self]
@[simp] theorem State.halt_rings (s : State) (r : Record) : (s.halt r).rings = s.rings := by
  simp only [State.halt, apply_ite State.rings, State.setFlag_rings, State.setWords_rings, ite_self]
@[simp] theorem State.halt_arr (s : State) (r : Record) : (s.halt r).arr = s.arr := by
  simp only [State.halt, apply_ite State.arr, State.setFlag_arr, State.setWords_arr, ite_self]
@[simp] theorem State.halt_steps (s : State) (r : Record) : (s.halt r).steps = s.steps := by
  simp only [State.halt, apply_ite State.steps, State.setFlag_steps, State.setWords_steps, ite_self]
@[simp] theorem State.halt_pe (s : State) (r : Record) : (s.halt r).pe = s.pe := by
  simp only [State.halt, apply_ite State.pe, State.setFlag_pe, State.setWords_pe, ite_self]
@[simp] theorem State.halt_pegs (s : State) (r : Record) : (s.halt r).pegs = s.pegs := by
  simp only [State.halt, apply_ite State.pegs, State.setFlag_pegs, State.setWords_pegs, ite_self]
@[simp] theorem State.halt_guard (s : State) (r : Record) : (s.halt r).guard = s.guard := by
  simp only [State.halt, apply_ite State.guard, State.setFlag_guard, State.setWords_guard, ite_self]
@[simp] theorem State.halt_csi (s : State) (r : Record) : (s.halt r).csi = s.csi := by
  simp only [State.halt, apply_ite State.csi, State.setFlag_csi, State.setWords_csi, ite_self]
@[simp] theorem State.halt_power (s : State) (r : Record) : (s.halt r).power = s.power := by
  simp only [State.halt, apply_ite State.power, State.setFlag_power, State.setWords_power, ite_self]
@[simp] theorem State.halt_volt (s : State) (r : Record) : (s.halt r).volt = s.volt := by
  simp only [State.halt, apply_ite State.volt, State.setFlag_volt, State.setWords_volt, ite_self]
@[simp] theorem State.halt_press (s : State) (r : Record) : (s.halt r).press = s.press := by
  simp only [State.halt, apply_ite State.press, State.setFlag_press, State.setWords_press, ite_self]
@[simp] theorem State.halt_flash (s : State) (r : Record) : (s.halt r).flash = s.flash := by
  simp only [State.halt, apply_ite State.flash, State.setFlag_flash, State.setWords_flash, ite_self]
@[simp] theorem State.halt_chain (s : State) (r : Record) : (s.halt r).chain = s.chain := by
  simp only [State.halt, apply_ite State.chain, State.setFlag_chain, State.setWords_chain, ite_self]
@[simp] theorem State.halt_board (s : State) (r : Record) : (s.halt r).board = s.board := by
  simp only [State.halt, apply_ite State.board, State.setFlag_board, State.setWords_board, ite_self]
@[simp] theorem State.halt_free (s : State) (r : Record) : (s.halt r).free = s.free := by
  simp only [State.halt, apply_ite State.free, State.setFlag_free, State.setWords_free, ite_self]
@[simp] theorem State.halt_pending (s : State) (r : Record) : (s.halt r).pending = s.pending := by
  simp only [State.halt, apply_ite State.pending, State.setFlag_pending, State.setWords_pending, ite_self]

/-! ### raiseTo -/

@[simp] theorem State.raiseTo_holds (s : State) (a b c d e : Nat) (l : Bool) (t : List (Nat × Bool)) : (s.raiseTo a b c d e l t).holds = s.holds := by
  simp only [State.raiseTo, apply_ite State.holds, State.queueRecord_holds, State.logRecord_holds, State.bump_holds, State.countRecord_holds, ite_self]
@[simp] theorem State.raiseTo_clock (s : State) (a b c d e : Nat) (l : Bool) (t : List (Nat × Bool)) : (s.raiseTo a b c d e l t).clock = s.clock := by
  simp only [State.raiseTo, apply_ite State.clock, State.queueRecord_clock, State.logRecord_clock, State.bump_clock, State.countRecord_clock, ite_self]
@[simp] theorem State.raiseTo_insts (s : State) (a b c d e : Nat) (l : Bool) (t : List (Nat × Bool)) : (s.raiseTo a b c d e l t).insts = s.insts := by
  simp only [State.raiseTo, apply_ite State.insts, State.queueRecord_insts, State.logRecord_insts, State.bump_insts, State.countRecord_insts, ite_self]
@[simp] theorem State.raiseTo_mem (s : State) (a b c d e : Nat) (l : Bool) (t : List (Nat × Bool)) : (s.raiseTo a b c d e l t).mem = s.mem := by
  simp only [State.raiseTo, apply_ite State.mem, State.queueRecord_mem, State.logRecord_mem, State.bump_mem, State.countRecord_mem, ite_self]
@[simp] theorem State.raiseTo_arr (s : State) (a b c d e : Nat) (l : Bool) (t : List (Nat × Bool)) : (s.raiseTo a b c d e l t).arr = s.arr := by
  simp only [State.raiseTo, apply_ite State.arr, State.queueRecord_arr, State.logRecord_arr, State.bump_arr, State.countRecord_arr, ite_self]
@[simp] theorem State.raiseTo_steps (s : State) (a b c d e : Nat) (l : Bool) (t : List (Nat × Bool)) : (s.raiseTo a b c d e l t).steps = s.steps := by
  simp only [State.raiseTo, apply_ite State.steps, State.queueRecord_steps, State.logRecord_steps, State.bump_steps, State.countRecord_steps, ite_self]
@[simp] theorem State.raiseTo_pe (s : State) (a b c d e : Nat) (l : Bool) (t : List (Nat × Bool)) : (s.raiseTo a b c d e l t).pe = s.pe := by
  simp only [State.raiseTo, apply_ite State.pe, State.queueRecord_pe, State.logRecord_pe, State.bump_pe, State.countRecord_pe, ite_self]
@[simp] theorem State.raiseTo_pegs (s : State) (a b c d e : Nat) (l : Bool) (t : List (Nat × Bool)) : (s.raiseTo a b c d e l t).pegs = s.pegs := by
  simp only [State.raiseTo, apply_ite State.pegs, State.queueRecord_pegs, State.logRecord_pegs, State.bump_pegs, State.countRecord_pegs, ite_self]
@[simp] theorem State.raiseTo_guard (s : State) (a b c d e : Nat) (l : Bool) (t : List (Nat × Bool)) : (s.raiseTo a b c d e l t).guard = s.guard := by
  simp only [State.raiseTo, apply_ite State.guard, State.queueRecord_guard, State.logRecord_guard, State.bump_guard, State.countRecord_guard, ite_self]
@[simp] theorem State.raiseTo_csi (s : State) (a b c d e : Nat) (l : Bool) (t : List (Nat × Bool)) : (s.raiseTo a b c d e l t).csi = s.csi := by
  simp only [State.raiseTo, apply_ite State.csi, State.queueRecord_csi, State.logRecord_csi, State.bump_csi, State.countRecord_csi, ite_self]
@[simp] theorem State.raiseTo_power (s : State) (a b c d e : Nat) (l : Bool) (t : List (Nat × Bool)) : (s.raiseTo a b c d e l t).power = s.power := by
  simp only [State.raiseTo, apply_ite State.power, State.queueRecord_power, State.logRecord_power, State.bump_power, State.countRecord_power, ite_self]
@[simp] theorem State.raiseTo_volt (s : State) (a b c d e : Nat) (l : Bool) (t : List (Nat × Bool)) : (s.raiseTo a b c d e l t).volt = s.volt := by
  simp only [State.raiseTo, apply_ite State.volt, State.queueRecord_volt, State.logRecord_volt, State.bump_volt, State.countRecord_volt, ite_self]
@[simp] theorem State.raiseTo_press (s : State) (a b c d e : Nat) (l : Bool) (t : List (Nat × Bool)) : (s.raiseTo a b c d e l t).press = s.press := by
  simp only [State.raiseTo, apply_ite State.press, State.queueRecord_press, State.logRecord_press, State.bump_press, State.countRecord_press, ite_self]
@[simp] theorem State.raiseTo_flash (s : State) (a b c d e : Nat) (l : Bool) (t : List (Nat × Bool)) : (s.raiseTo a b c d e l t).flash = s.flash := by
  simp only [State.raiseTo, apply_ite State.flash, State.queueRecord_flash, State.logRecord_flash, State.bump_flash, State.countRecord_flash, ite_self]
@[simp] theorem State.raiseTo_chain (s : State) (a b c d e : Nat) (l : Bool) (t : List (Nat × Bool)) : (s.raiseTo a b c d e l t).chain = s.chain := by
  simp only [State.raiseTo, apply_ite State.chain, State.queueRecord_chain, State.logRecord_chain, State.bump_chain, State.countRecord_chain, ite_self]
@[simp] theorem State.raiseTo_free (s : State) (a b c d e : Nat) (l : Bool) (t : List (Nat × Bool)) : (s.raiseTo a b c d e l t).free = s.free := by
  simp only [State.raiseTo, apply_ite State.free, State.queueRecord_free, State.logRecord_free, State.bump_free, State.countRecord_free, ite_self]
@[simp] theorem State.raiseTo_pending (s : State) (a b c d e : Nat) (l : Bool) (t : List (Nat × Bool)) : (s.raiseTo a b c d e l t).pending = s.pending := by
  simp only [State.raiseTo, apply_ite State.pending, State.queueRecord_pending, State.logRecord_pending, State.bump_pending, State.countRecord_pending, ite_self]

/-! ### tellMaster -/

@[simp] theorem State.tellMaster_regs (s : State) (r : Record) : (s.tellMaster r).regs = s.regs := by
  rw [State.tellMaster, apply_ite State.regs, State.queueRecord_regs, ite_self]
@[simp] theorem State.tellMaster_holds (s : State) (r : Record) : (s.tellMaster r).holds = s.holds := by
  rw [State.tellMaster, apply_ite State.holds, State.queueRecord_holds, ite_self]
@[simp] theorem State.tellMaster_clock (s : State) (r : Record) : (s.tellMaster r).clock = s.clock := by
  rw [State.tellMaster, apply_ite State.clock, State.queueRecord_clock, ite_self]
@[simp] theorem State.tellMaster_insts (s : State) (r : Record) : (s.tellMaster r).insts = s.insts := by
  rw [State.tellMaster, apply_ite State.insts, State.queueRecord_insts, ite_self]
@[simp] theorem State.tellMaster_mem (s : State) (r : Record) : (s.tellMaster r).mem = s.mem := by
  rw [State.tellMaster, apply_ite State.mem, State.queueRecord_mem, ite_self]
@[simp] theorem State.tellMaster_rings (s : State) (r : Record) : (s.tellMaster r).rings = s.rings := by
  rw [State.tellMaster, apply_ite State.rings, State.queueRecord_rings, ite_self]
@[simp] theorem State.tellMaster_arr (s : State) (r : Record) : (s.tellMaster r).arr = s.arr := by
  rw [State.tellMaster, apply_ite State.arr, State.queueRecord_arr, ite_self]
@[simp] theorem State.tellMaster_steps (s : State) (r : Record) : (s.tellMaster r).steps = s.steps := by
  rw [State.tellMaster, apply_ite State.steps, State.queueRecord_steps, ite_self]
@[simp] theorem State.tellMaster_pe (s : State) (r : Record) : (s.tellMaster r).pe = s.pe := by
  rw [State.tellMaster, apply_ite State.pe, State.queueRecord_pe, ite_self]
@[simp] theorem State.tellMaster_pegs (s : State) (r : Record) : (s.tellMaster r).pegs = s.pegs := by
  rw [State.tellMaster, apply_ite State.pegs, State.queueRecord_pegs, ite_self]
@[simp] theorem State.tellMaster_guard (s : State) (r : Record) : (s.tellMaster r).guard = s.guard := by
  rw [State.tellMaster, apply_ite State.guard, State.queueRecord_guard, ite_self]
@[simp] theorem State.tellMaster_csi (s : State) (r : Record) : (s.tellMaster r).csi = s.csi := by
  rw [State.tellMaster, apply_ite State.csi, State.queueRecord_csi, ite_self]
@[simp] theorem State.tellMaster_power (s : State) (r : Record) : (s.tellMaster r).power = s.power := by
  rw [State.tellMaster, apply_ite State.power, State.queueRecord_power, ite_self]
@[simp] theorem State.tellMaster_volt (s : State) (r : Record) : (s.tellMaster r).volt = s.volt := by
  rw [State.tellMaster, apply_ite State.volt, State.queueRecord_volt, ite_self]
@[simp] theorem State.tellMaster_press (s : State) (r : Record) : (s.tellMaster r).press = s.press := by
  rw [State.tellMaster, apply_ite State.press, State.queueRecord_press, ite_self]
@[simp] theorem State.tellMaster_flash (s : State) (r : Record) : (s.tellMaster r).flash = s.flash := by
  rw [State.tellMaster, apply_ite State.flash, State.queueRecord_flash, ite_self]
@[simp] theorem State.tellMaster_chain (s : State) (r : Record) : (s.tellMaster r).chain = s.chain := by
  rw [State.tellMaster, apply_ite State.chain, State.queueRecord_chain, ite_self]
@[simp] theorem State.tellMaster_board (s : State) (r : Record) : (s.tellMaster r).board = s.board := by
  rw [State.tellMaster, apply_ite State.board, State.queueRecord_board, ite_self]
@[simp] theorem State.tellMaster_free (s : State) (r : Record) : (s.tellMaster r).free = s.free := by
  rw [State.tellMaster, apply_ite State.free, State.queueRecord_free, ite_self]
@[simp] theorem State.tellMaster_pending (s : State) (r : Record) : (s.tellMaster r).pending = s.pending := by
  rw [State.tellMaster, apply_ite State.pending, State.queueRecord_pending, ite_self]
@[simp] theorem State.word_tellMaster (s : State) (r : Record) (j : Nat) : (s.tellMaster r).word j = s.word j :=
  State.word_congr (State.tellMaster_regs s r) j
@[simp] theorem State.word64_tellMaster (s : State) (r : Record) (j : Nat) : (s.tellMaster r).word64 j = s.word64 j :=
  State.word64_congr (State.tellMaster_regs s r) j
@[simp] theorem State.rd_tellMaster (s : State) (r : Record) (j : RField) : (s.tellMaster r).rd j = s.rd j :=
  State.rd_congr (State.tellMaster_regs s r) j
@[simp] theorem State.flag_tellMaster (s : State) (r : Record) (j : RField) : (s.tellMaster r).flag j = s.flag j :=
  State.flag_congr (State.tellMaster_regs s r) j

/-! ### raise -/

@[simp] theorem State.raise_holds (s : State) (a b c d e : Nat) : (s.raise a b c d e).holds = s.holds := by
  simp only [State.raise, apply_ite State.holds, State.raiseTo_holds, State.tellMaster_holds, State.halt_holds, State.logRecord_holds, State.countRecord_holds, ite_self]
@[simp] theorem State.raise_clock (s : State) (a b c d e : Nat) : (s.raise a b c d e).clock = s.clock := by
  simp only [State.raise, apply_ite State.clock, State.raiseTo_clock, State.tellMaster_clock, State.halt_clock, State.logRecord_clock, State.countRecord_clock, ite_self]
@[simp] theorem State.raise_insts (s : State) (a b c d e : Nat) : (s.raise a b c d e).insts = s.insts := by
  simp only [State.raise, apply_ite State.insts, State.raiseTo_insts, State.tellMaster_insts, State.halt_insts, State.logRecord_insts, State.countRecord_insts, ite_self]
@[simp] theorem State.raise_mem (s : State) (a b c d e : Nat) : (s.raise a b c d e).mem = s.mem := by
  simp only [State.raise, apply_ite State.mem, State.raiseTo_mem, State.tellMaster_mem, State.halt_mem, State.logRecord_mem, State.countRecord_mem, ite_self]
@[simp] theorem State.raise_arr (s : State) (a b c d e : Nat) : (s.raise a b c d e).arr = s.arr := by
  simp only [State.raise, apply_ite State.arr, State.raiseTo_arr, State.tellMaster_arr, State.halt_arr, State.logRecord_arr, State.countRecord_arr, ite_self]
@[simp] theorem State.raise_steps (s : State) (a b c d e : Nat) : (s.raise a b c d e).steps = s.steps := by
  simp only [State.raise, apply_ite State.steps, State.raiseTo_steps, State.tellMaster_steps, State.halt_steps, State.logRecord_steps, State.countRecord_steps, ite_self]
@[simp] theorem State.raise_pe (s : State) (a b c d e : Nat) : (s.raise a b c d e).pe = s.pe := by
  simp only [State.raise, apply_ite State.pe, State.raiseTo_pe, State.tellMaster_pe, State.halt_pe, State.logRecord_pe, State.countRecord_pe, ite_self]
@[simp] theorem State.raise_pegs (s : State) (a b c d e : Nat) : (s.raise a b c d e).pegs = s.pegs := by
  simp only [State.raise, apply_ite State.pegs, State.raiseTo_pegs, State.tellMaster_pegs, State.halt_pegs, State.logRecord_pegs, State.countRecord_pegs, ite_self]
@[simp] theorem State.raise_guard (s : State) (a b c d e : Nat) : (s.raise a b c d e).guard = s.guard := by
  simp only [State.raise, apply_ite State.guard, State.raiseTo_guard, State.tellMaster_guard, State.halt_guard, State.logRecord_guard, State.countRecord_guard, ite_self]
@[simp] theorem State.raise_csi (s : State) (a b c d e : Nat) : (s.raise a b c d e).csi = s.csi := by
  simp only [State.raise, apply_ite State.csi, State.raiseTo_csi, State.tellMaster_csi, State.halt_csi, State.logRecord_csi, State.countRecord_csi, ite_self]
@[simp] theorem State.raise_power (s : State) (a b c d e : Nat) : (s.raise a b c d e).power = s.power := by
  simp only [State.raise, apply_ite State.power, State.raiseTo_power, State.tellMaster_power, State.halt_power, State.logRecord_power, State.countRecord_power, ite_self]
@[simp] theorem State.raise_volt (s : State) (a b c d e : Nat) : (s.raise a b c d e).volt = s.volt := by
  simp only [State.raise, apply_ite State.volt, State.raiseTo_volt, State.tellMaster_volt, State.halt_volt, State.logRecord_volt, State.countRecord_volt, ite_self]
@[simp] theorem State.raise_press (s : State) (a b c d e : Nat) : (s.raise a b c d e).press = s.press := by
  simp only [State.raise, apply_ite State.press, State.raiseTo_press, State.tellMaster_press, State.halt_press, State.logRecord_press, State.countRecord_press, ite_self]
@[simp] theorem State.raise_flash (s : State) (a b c d e : Nat) : (s.raise a b c d e).flash = s.flash := by
  simp only [State.raise, apply_ite State.flash, State.raiseTo_flash, State.tellMaster_flash, State.halt_flash, State.logRecord_flash, State.countRecord_flash, ite_self]
@[simp] theorem State.raise_chain (s : State) (a b c d e : Nat) : (s.raise a b c d e).chain = s.chain := by
  simp only [State.raise, apply_ite State.chain, State.raiseTo_chain, State.tellMaster_chain, State.halt_chain, State.logRecord_chain, State.countRecord_chain, ite_self]
@[simp] theorem State.raise_free (s : State) (a b c d e : Nat) : (s.raise a b c d e).free = s.free := by
  simp only [State.raise, apply_ite State.free, State.raiseTo_free, State.tellMaster_free, State.halt_free, State.logRecord_free, State.countRecord_free, ite_self]
@[simp] theorem State.raise_pending (s : State) (a b c d e : Nat) : (s.raise a b c d e).pending = s.pending := by
  simp only [State.raise, apply_ite State.pending, State.raiseTo_pending, State.tellMaster_pending, State.halt_pending, State.logRecord_pending, State.countRecord_pending, ite_self]

/-! ### raiseOwner -/

@[simp] theorem State.raiseOwner_holds (s : State) (a b c d : Nat) : (s.raiseOwner a b c d).holds = s.holds := by
  rw [State.raiseOwner, State.raiseTo_holds]
@[simp] theorem State.raiseOwner_clock (s : State) (a b c d : Nat) : (s.raiseOwner a b c d).clock = s.clock := by
  rw [State.raiseOwner, State.raiseTo_clock]
@[simp] theorem State.raiseOwner_insts (s : State) (a b c d : Nat) : (s.raiseOwner a b c d).insts = s.insts := by
  rw [State.raiseOwner, State.raiseTo_insts]
@[simp] theorem State.raiseOwner_mem (s : State) (a b c d : Nat) : (s.raiseOwner a b c d).mem = s.mem := by
  rw [State.raiseOwner, State.raiseTo_mem]
@[simp] theorem State.raiseOwner_arr (s : State) (a b c d : Nat) : (s.raiseOwner a b c d).arr = s.arr := by
  rw [State.raiseOwner, State.raiseTo_arr]
@[simp] theorem State.raiseOwner_steps (s : State) (a b c d : Nat) : (s.raiseOwner a b c d).steps = s.steps := by
  rw [State.raiseOwner, State.raiseTo_steps]
@[simp] theorem State.raiseOwner_pe (s : State) (a b c d : Nat) : (s.raiseOwner a b c d).pe = s.pe := by
  rw [State.raiseOwner, State.raiseTo_pe]
@[simp] theorem State.raiseOwner_pegs (s : State) (a b c d : Nat) : (s.raiseOwner a b c d).pegs = s.pegs := by
  rw [State.raiseOwner, State.raiseTo_pegs]
@[simp] theorem State.raiseOwner_guard (s : State) (a b c d : Nat) : (s.raiseOwner a b c d).guard = s.guard := by
  rw [State.raiseOwner, State.raiseTo_guard]
@[simp] theorem State.raiseOwner_csi (s : State) (a b c d : Nat) : (s.raiseOwner a b c d).csi = s.csi := by
  rw [State.raiseOwner, State.raiseTo_csi]
@[simp] theorem State.raiseOwner_power (s : State) (a b c d : Nat) : (s.raiseOwner a b c d).power = s.power := by
  rw [State.raiseOwner, State.raiseTo_power]
@[simp] theorem State.raiseOwner_volt (s : State) (a b c d : Nat) : (s.raiseOwner a b c d).volt = s.volt := by
  rw [State.raiseOwner, State.raiseTo_volt]
@[simp] theorem State.raiseOwner_press (s : State) (a b c d : Nat) : (s.raiseOwner a b c d).press = s.press := by
  rw [State.raiseOwner, State.raiseTo_press]
@[simp] theorem State.raiseOwner_flash (s : State) (a b c d : Nat) : (s.raiseOwner a b c d).flash = s.flash := by
  rw [State.raiseOwner, State.raiseTo_flash]
@[simp] theorem State.raiseOwner_chain (s : State) (a b c d : Nat) : (s.raiseOwner a b c d).chain = s.chain := by
  rw [State.raiseOwner, State.raiseTo_chain]
@[simp] theorem State.raiseOwner_free (s : State) (a b c d : Nat) : (s.raiseOwner a b c d).free = s.free := by
  rw [State.raiseOwner, State.raiseTo_free]
@[simp] theorem State.raiseOwner_pending (s : State) (a b c d : Nat) : (s.raiseOwner a b c d).pending = s.pending := by
  rw [State.raiseOwner, State.raiseTo_pending]

/-! ### recordWake -/

@[simp] theorem State.recordWake_holds (s : State) (w : Wake) (p : PState) (b : Bool) : (s.recordWake w p b).holds = s.holds := by
  rw [State.recordWake, State.setWord64_holds, State.setWord_holds]
@[simp] theorem State.recordWake_clock (s : State) (w : Wake) (p : PState) (b : Bool) : (s.recordWake w p b).clock = s.clock := by
  rw [State.recordWake, State.setWord64_clock, State.setWord_clock]
@[simp] theorem State.recordWake_errs (s : State) (w : Wake) (p : PState) (b : Bool) : (s.recordWake w p b).errs = s.errs := by
  rw [State.recordWake, State.setWord64_errs, State.setWord_errs]
@[simp] theorem State.recordWake_insts (s : State) (w : Wake) (p : PState) (b : Bool) : (s.recordWake w p b).insts = s.insts := by
  rw [State.recordWake, State.setWord64_insts, State.setWord_insts]
@[simp] theorem State.recordWake_mem (s : State) (w : Wake) (p : PState) (b : Bool) : (s.recordWake w p b).mem = s.mem := by
  rw [State.recordWake, State.setWord64_mem, State.setWord_mem]
@[simp] theorem State.recordWake_rings (s : State) (w : Wake) (p : PState) (b : Bool) : (s.recordWake w p b).rings = s.rings := by
  rw [State.recordWake, State.setWord64_rings, State.setWord_rings]
@[simp] theorem State.recordWake_arr (s : State) (w : Wake) (p : PState) (b : Bool) : (s.recordWake w p b).arr = s.arr := by
  rw [State.recordWake, State.setWord64_arr, State.setWord_arr]
@[simp] theorem State.recordWake_steps (s : State) (w : Wake) (p : PState) (b : Bool) : (s.recordWake w p b).steps = s.steps := by
  rw [State.recordWake, State.setWord64_steps, State.setWord_steps]
@[simp] theorem State.recordWake_pe (s : State) (w : Wake) (p : PState) (b : Bool) : (s.recordWake w p b).pe = s.pe := by
  rw [State.recordWake, State.setWord64_pe, State.setWord_pe]
@[simp] theorem State.recordWake_pegs (s : State) (w : Wake) (p : PState) (b : Bool) : (s.recordWake w p b).pegs = s.pegs := by
  rw [State.recordWake, State.setWord64_pegs, State.setWord_pegs]
@[simp] theorem State.recordWake_guard (s : State) (w : Wake) (p : PState) (b : Bool) : (s.recordWake w p b).guard = s.guard := by
  rw [State.recordWake, State.setWord64_guard, State.setWord_guard]
@[simp] theorem State.recordWake_csi (s : State) (w : Wake) (p : PState) (b : Bool) : (s.recordWake w p b).csi = s.csi := by
  rw [State.recordWake, State.setWord64_csi, State.setWord_csi]
@[simp] theorem State.recordWake_power (s : State) (w : Wake) (p : PState) (b : Bool) : (s.recordWake w p b).power = s.power := by
  rw [State.recordWake, State.setWord64_power, State.setWord_power]
@[simp] theorem State.recordWake_volt (s : State) (w : Wake) (p : PState) (b : Bool) : (s.recordWake w p b).volt = s.volt := by
  rw [State.recordWake, State.setWord64_volt, State.setWord_volt]
@[simp] theorem State.recordWake_press (s : State) (w : Wake) (p : PState) (b : Bool) : (s.recordWake w p b).press = s.press := by
  rw [State.recordWake, State.setWord64_press, State.setWord_press]
@[simp] theorem State.recordWake_flash (s : State) (w : Wake) (p : PState) (b : Bool) : (s.recordWake w p b).flash = s.flash := by
  rw [State.recordWake, State.setWord64_flash, State.setWord_flash]
@[simp] theorem State.recordWake_chain (s : State) (w : Wake) (p : PState) (b : Bool) : (s.recordWake w p b).chain = s.chain := by
  rw [State.recordWake, State.setWord64_chain, State.setWord_chain]
@[simp] theorem State.recordWake_board (s : State) (w : Wake) (p : PState) (b : Bool) : (s.recordWake w p b).board = s.board := by
  rw [State.recordWake, State.setWord64_board, State.setWord_board]
@[simp] theorem State.recordWake_free (s : State) (w : Wake) (p : PState) (b : Bool) : (s.recordWake w p b).free = s.free := by
  rw [State.recordWake, State.setWord64_free, State.setWord_free]
@[simp] theorem State.recordWake_pending (s : State) (w : Wake) (p : PState) (b : Bool) : (s.recordWake w p b).pending = s.pending := by
  rw [State.recordWake, State.setWord64_pending, State.setWord_pending]

/-! ### startExit -/

@[simp] theorem State.startExit_regs (s : State) (n : Nat) : (s.startExit n).regs = s.regs := by
  simp only [State.startExit, apply_ite State.regs, ite_self]
@[simp] theorem State.startExit_holds (s : State) (n : Nat) : (s.startExit n).holds = s.holds := by
  simp only [State.startExit, apply_ite State.holds, ite_self]
@[simp] theorem State.startExit_clock (s : State) (n : Nat) : (s.startExit n).clock = s.clock := by
  simp only [State.startExit, apply_ite State.clock, ite_self]
@[simp] theorem State.startExit_errs (s : State) (n : Nat) : (s.startExit n).errs = s.errs := by
  simp only [State.startExit, apply_ite State.errs, ite_self]
@[simp] theorem State.startExit_insts (s : State) (n : Nat) : (s.startExit n).insts = s.insts := by
  simp only [State.startExit, apply_ite State.insts, ite_self]
@[simp] theorem State.startExit_mem (s : State) (n : Nat) : (s.startExit n).mem = s.mem := by
  simp only [State.startExit, apply_ite State.mem, ite_self]
@[simp] theorem State.startExit_rings (s : State) (n : Nat) : (s.startExit n).rings = s.rings := by
  simp only [State.startExit, apply_ite State.rings, ite_self]
@[simp] theorem State.startExit_arr (s : State) (n : Nat) : (s.startExit n).arr = s.arr := by
  simp only [State.startExit, apply_ite State.arr, ite_self]
@[simp] theorem State.startExit_steps (s : State) (n : Nat) : (s.startExit n).steps = s.steps := by
  simp only [State.startExit, apply_ite State.steps, ite_self]
@[simp] theorem State.startExit_pe (s : State) (n : Nat) : (s.startExit n).pe = s.pe := by
  simp only [State.startExit, apply_ite State.pe, ite_self]
@[simp] theorem State.startExit_pegs (s : State) (n : Nat) : (s.startExit n).pegs = s.pegs := by
  simp only [State.startExit, apply_ite State.pegs, ite_self]
@[simp] theorem State.startExit_guard (s : State) (n : Nat) : (s.startExit n).guard = s.guard := by
  simp only [State.startExit, apply_ite State.guard, ite_self]
@[simp] theorem State.startExit_csi (s : State) (n : Nat) : (s.startExit n).csi = s.csi := by
  simp only [State.startExit, apply_ite State.csi, ite_self]
@[simp] theorem State.startExit_volt (s : State) (n : Nat) : (s.startExit n).volt = s.volt := by
  simp only [State.startExit, apply_ite State.volt, ite_self]
@[simp] theorem State.startExit_press (s : State) (n : Nat) : (s.startExit n).press = s.press := by
  simp only [State.startExit, apply_ite State.press, ite_self]
@[simp] theorem State.startExit_flash (s : State) (n : Nat) : (s.startExit n).flash = s.flash := by
  simp only [State.startExit, apply_ite State.flash, ite_self]
@[simp] theorem State.startExit_chain (s : State) (n : Nat) : (s.startExit n).chain = s.chain := by
  simp only [State.startExit, apply_ite State.chain, ite_self]
@[simp] theorem State.startExit_board (s : State) (n : Nat) : (s.startExit n).board = s.board := by
  simp only [State.startExit, apply_ite State.board, ite_self]
@[simp] theorem State.startExit_free (s : State) (n : Nat) : (s.startExit n).free = s.free := by
  simp only [State.startExit, apply_ite State.free, ite_self]
@[simp] theorem State.startExit_pending (s : State) (n : Nat) : (s.startExit n).pending = s.pending := by
  simp only [State.startExit, apply_ite State.pending, ite_self]
@[simp] theorem State.word_startExit (s : State) (n : Nat) (j : Nat) : (s.startExit n).word j = s.word j :=
  State.word_congr (State.startExit_regs s n) j
@[simp] theorem State.word64_startExit (s : State) (n : Nat) (j : Nat) : (s.startExit n).word64 j = s.word64 j :=
  State.word64_congr (State.startExit_regs s n) j
@[simp] theorem State.rd_startExit (s : State) (n : Nat) (j : RField) : (s.startExit n).rd j = s.rd j :=
  State.rd_congr (State.startExit_regs s n) j
@[simp] theorem State.flag_startExit (s : State) (n : Nat) (j : RField) : (s.startExit n).flag j = s.flag j :=
  State.flag_congr (State.startExit_regs s n) j

/-! ### wake -/

@[simp] theorem State.wake_holds (s : State) (a b : Nat) : (s.wake a b).holds = s.holds := by
  cases h : s.power.entry <;>
    simp only [State.wake, h, apply_ite State.holds, State.bump_holds, State.startExit_holds, State.recordWake_holds, ite_self]
@[simp] theorem State.wake_clock (s : State) (a b : Nat) : (s.wake a b).clock = s.clock := by
  cases h : s.power.entry <;>
    simp only [State.wake, h, apply_ite State.clock, State.bump_clock, State.startExit_clock, State.recordWake_clock, ite_self]
@[simp] theorem State.wake_errs (s : State) (a b : Nat) : (s.wake a b).errs = s.errs := by
  cases h : s.power.entry <;>
    simp only [State.wake, h, apply_ite State.errs, State.bump_errs, State.startExit_errs, State.recordWake_errs, ite_self]
@[simp] theorem State.wake_insts (s : State) (a b : Nat) : (s.wake a b).insts = s.insts := by
  cases h : s.power.entry <;>
    simp only [State.wake, h, apply_ite State.insts, State.bump_insts, State.startExit_insts, State.recordWake_insts, ite_self]
@[simp] theorem State.wake_mem (s : State) (a b : Nat) : (s.wake a b).mem = s.mem := by
  cases h : s.power.entry <;>
    simp only [State.wake, h, apply_ite State.mem, State.bump_mem, State.startExit_mem, State.recordWake_mem, ite_self]
@[simp] theorem State.wake_rings (s : State) (a b : Nat) : (s.wake a b).rings = s.rings := by
  cases h : s.power.entry <;>
    simp only [State.wake, h, apply_ite State.rings, State.bump_rings, State.startExit_rings, State.recordWake_rings, ite_self]
@[simp] theorem State.wake_arr (s : State) (a b : Nat) : (s.wake a b).arr = s.arr := by
  cases h : s.power.entry <;>
    simp only [State.wake, h, apply_ite State.arr, State.bump_arr, State.startExit_arr, State.recordWake_arr, ite_self]
@[simp] theorem State.wake_steps (s : State) (a b : Nat) : (s.wake a b).steps = s.steps := by
  cases h : s.power.entry <;>
    simp only [State.wake, h, apply_ite State.steps, State.bump_steps, State.startExit_steps, State.recordWake_steps, ite_self]
@[simp] theorem State.wake_pe (s : State) (a b : Nat) : (s.wake a b).pe = s.pe := by
  cases h : s.power.entry <;>
    simp only [State.wake, h, apply_ite State.pe, State.bump_pe, State.startExit_pe, State.recordWake_pe, ite_self]
@[simp] theorem State.wake_pegs (s : State) (a b : Nat) : (s.wake a b).pegs = s.pegs := by
  cases h : s.power.entry <;>
    simp only [State.wake, h, apply_ite State.pegs, State.bump_pegs, State.startExit_pegs, State.recordWake_pegs, ite_self]
@[simp] theorem State.wake_guard (s : State) (a b : Nat) : (s.wake a b).guard = s.guard := by
  cases h : s.power.entry <;>
    simp only [State.wake, h, apply_ite State.guard, State.bump_guard, State.startExit_guard, State.recordWake_guard, ite_self]
@[simp] theorem State.wake_csi (s : State) (a b : Nat) : (s.wake a b).csi = s.csi := by
  cases h : s.power.entry <;>
    simp only [State.wake, h, apply_ite State.csi, State.bump_csi, State.startExit_csi, State.recordWake_csi, ite_self]
@[simp] theorem State.wake_volt (s : State) (a b : Nat) : (s.wake a b).volt = s.volt := by
  cases h : s.power.entry <;>
    simp only [State.wake, h, apply_ite State.volt, State.bump_volt, State.startExit_volt, State.recordWake_volt, ite_self]
@[simp] theorem State.wake_press (s : State) (a b : Nat) : (s.wake a b).press = s.press := by
  cases h : s.power.entry <;>
    simp only [State.wake, h, apply_ite State.press, State.bump_press, State.startExit_press, State.recordWake_press, ite_self]
@[simp] theorem State.wake_flash (s : State) (a b : Nat) : (s.wake a b).flash = s.flash := by
  cases h : s.power.entry <;>
    simp only [State.wake, h, apply_ite State.flash, State.bump_flash, State.startExit_flash, State.recordWake_flash, ite_self]
@[simp] theorem State.wake_chain (s : State) (a b : Nat) : (s.wake a b).chain = s.chain := by
  cases h : s.power.entry <;>
    simp only [State.wake, h, apply_ite State.chain, State.bump_chain, State.startExit_chain, State.recordWake_chain, ite_self]
@[simp] theorem State.wake_board (s : State) (a b : Nat) : (s.wake a b).board = s.board := by
  cases h : s.power.entry <;>
    simp only [State.wake, h, apply_ite State.board, State.bump_board, State.startExit_board, State.recordWake_board, ite_self]
@[simp] theorem State.wake_free (s : State) (a b : Nat) : (s.wake a b).free = s.free := by
  cases h : s.power.entry <;>
    simp only [State.wake, h, apply_ite State.free, State.bump_free, State.startExit_free, State.recordWake_free, ite_self]
@[simp] theorem State.wake_pending (s : State) (a b : Nat) : (s.wake a b).pending = s.pending := by
  cases h : s.power.entry <;>
    simp only [State.wake, h, apply_ite State.pending, State.bump_pending, State.startExit_pending, State.recordWake_pending, ite_self]

/-! ### pcieTouch -/

@[simp] theorem State.pcieTouch_holds (s : State) (f : Nat) : (s.pcieTouch f).holds = s.holds := State.wake_holds s 3 f
@[simp] theorem State.pcieTouch_clock (s : State) (f : Nat) : (s.pcieTouch f).clock = s.clock := State.wake_clock s 3 f
@[simp] theorem State.pcieTouch_errs (s : State) (f : Nat) : (s.pcieTouch f).errs = s.errs := State.wake_errs s 3 f
@[simp] theorem State.pcieTouch_insts (s : State) (f : Nat) : (s.pcieTouch f).insts = s.insts := State.wake_insts s 3 f
@[simp] theorem State.pcieTouch_mem (s : State) (f : Nat) : (s.pcieTouch f).mem = s.mem := State.wake_mem s 3 f
@[simp] theorem State.pcieTouch_rings (s : State) (f : Nat) : (s.pcieTouch f).rings = s.rings := State.wake_rings s 3 f
@[simp] theorem State.pcieTouch_arr (s : State) (f : Nat) : (s.pcieTouch f).arr = s.arr := State.wake_arr s 3 f
@[simp] theorem State.pcieTouch_steps (s : State) (f : Nat) : (s.pcieTouch f).steps = s.steps := State.wake_steps s 3 f
@[simp] theorem State.pcieTouch_pe (s : State) (f : Nat) : (s.pcieTouch f).pe = s.pe := State.wake_pe s 3 f
@[simp] theorem State.pcieTouch_pegs (s : State) (f : Nat) : (s.pcieTouch f).pegs = s.pegs := State.wake_pegs s 3 f
@[simp] theorem State.pcieTouch_guard (s : State) (f : Nat) : (s.pcieTouch f).guard = s.guard := State.wake_guard s 3 f
@[simp] theorem State.pcieTouch_csi (s : State) (f : Nat) : (s.pcieTouch f).csi = s.csi := State.wake_csi s 3 f
@[simp] theorem State.pcieTouch_volt (s : State) (f : Nat) : (s.pcieTouch f).volt = s.volt := State.wake_volt s 3 f
@[simp] theorem State.pcieTouch_press (s : State) (f : Nat) : (s.pcieTouch f).press = s.press := State.wake_press s 3 f
@[simp] theorem State.pcieTouch_flash (s : State) (f : Nat) : (s.pcieTouch f).flash = s.flash := State.wake_flash s 3 f
@[simp] theorem State.pcieTouch_chain (s : State) (f : Nat) : (s.pcieTouch f).chain = s.chain := State.wake_chain s 3 f
@[simp] theorem State.pcieTouch_board (s : State) (f : Nat) : (s.pcieTouch f).board = s.board := State.wake_board s 3 f
@[simp] theorem State.pcieTouch_free (s : State) (f : Nat) : (s.pcieTouch f).free = s.free := State.wake_free s 3 f
@[simp] theorem State.pcieTouch_pending (s : State) (f : Nat) : (s.pcieTouch f).pending = s.pending := State.wake_pending s 3 f

end Sys2Proof.Machine
end

