-- ==== Sys2Proof/Laws/Ops.lean ====
section
/-!
SUPPORT. What each shared operation can do: outcomes, conditions, PCIe accesses in RUN, records, descriptors.
-/

namespace Sys2Proof.Machine

@[simp] theorem done_eq (s : State) : done s = .next s := rfl
@[simp] theorem unit_true (s : State) : unit true s = .next s := rfl
theorem unit_of {b : Bool} (h : b = true) (s : State) : unit b s = .next s := by rw [h]; rfl
@[simp] theorem when_true (s : State) (f : State → State) : s.when true f = f s := rfl
@[simp] theorem when_false (s : State) (f : State → State) : s.when false f = s := rfl
theorem when_of {s : State} {c : Bool} (h : c = true) (f : State → State) : s.when c f = f s := by rw [h]; rfl

theorem State.running_run {s : State} (h : s.running = true) : s.power.st = .run := by
  simp [State.running] at h; exact h.2
theorem State.running_hubUp {s : State} (h : s.running = true) : s.hubUp = true := by
  simp [State.running] at h; exact h.1
theorem State.steady_running {s : State} (h : s.steady = true) : s.running = true := by
  simp [State.steady] at h; exact h.1
theorem State.steady_entry {s : State} (h : s.steady = true) : s.power.entry = none := by
  simp [State.steady] at h; exact h.2
theorem State.steady_run {s : State} (h : s.steady = true) : s.power.st = .run := State.running_run (State.steady_running h)
theorem State.steady_hubUp {s : State} (h : s.steady = true) : s.hubUp = true :=
  State.running_hubUp (State.steady_running h)
theorem State.hubUp_ready {s : State} (h : s.hubUp = true) : s.ready = true := by
  simp [State.hubUp] at h; exact h.1.1
theorem State.hubUp_halted {s : State} (h : s.hubUp = true) : s.halted = false := by
  simp [State.hubUp] at h; exact h.1.2
theorem State.hubUp_asleep {s : State} (h : s.hubUp = true) : s.hubAsleep = false := by
  simp [State.hubUp] at h; exact h.2

/-- In RUN with no entry in progress no source wakes anything (R499). -/
theorem State.wake_run {s : State} (a b : Nat) (h1 : s.power.st = .run) (h2 : s.power.entry = none) : s.wake a b = s := by
  unfold State.wake
  rw [h2, h1]
  simp [wakeActs]

/-- A PCIe access in RUN changes nothing by itself. -/
theorem State.pcieTouch_run {s : State} (f : Nat) (h1 : s.power.st = .run) (h2 : s.power.entry = none) : s.pcieTouch f = s :=
  State.wake_run 3 f h1 h2

/-- A PCIe access after work on a steady device that left its power state alone. -/
theorem State.pcieTouch_of {s t : State} (f : Nat) (h : s.steady = true) (hp : t.power = s.power) : t.pcieTouch f = t :=
  State.pcieTouch_run f (by rw [hp]; exact State.steady_run h) (by rw [hp]; exact State.steady_entry h)

end Sys2Proof.Machine
end

