-- ==== Sys2Proof/Machine/Flags.lean ====
section
/-!
DEFINITION. The flags and lines that the block shows at its pins, computed from the state (R458, R465, R500, R599, R650, R652, R653).
-/

namespace Sys2Proof.Machine

/-- FAULT_n is driven low: a FATAL record has been raised (R599, R600). -/
def State.faultLow (s : State) : Bool := s.errs.faultPin

/-- WAKE_n is driven low (R500). -/
def State.wakeLow (s : State) : Bool := s.power.wakePin

/-- What drives a pin. -/
inductive Drive where
  | low | high | floats
  deriving DecidableEq, Repr

/-- GUARD_OUT_n[j] as the OR stage drives it (R458). -/
def State.guardOut (s : State) (j : Nat) : Drive :=
  match s.guard.out.getD j 2 with
  | 0 => .low
  | 1 => .high
  | _ => .floats

/-- The 100 Ω terminations of FSP receiver `p` are connected: ENABLE = 1 and the guard domain is up (R646). -/
def State.fspTerminated (s : State) (p : Nat) : Bool := s.flag (R.SENSOR_FSP_STATUS_ENABLE p) && s.guard.up

/-- GP_D[15:0] (R465): none = high-impedance. -/
def State.guardPort (s : State) : Option Nat := s.guard.gpD

/-- GPIO pin `n`: its own driver floats during a park, while it is an input, and in DEEP and OFF (R506, R649, R650). Functions are
driven by their units: TOUT by its pulse, UART_TX idle high. -/
def State.pinDrive (s : State) (n : Nat) : Drive :=
  if !s.aon || s.hubAsleep || s.parked n then .floats
  else if s.pinFunc n then
    if 8 ≤ n ∧ n ≤ 11 then (if s.board.tout.any fun t => t.1 == n - 8 then .high else .low)
    else if n = 4 then .high
    else .floats
  else if s.drives n then (if bit (s.rd R.GPIO_OUT_PINS) n then .high else .low)
  else .floats

end Sys2Proof.Machine
end

