-- ==== Sys2Proof/Tests/Slice0.lean ====
section
/-!
SUPPORT. Tests: commands with an operand just past its range, which the check refuses, and at its bound, which it accepts; and for every
statement that has hypotheses one theorem, `witness_<its name>`, with a state and operands that meet the hypotheses of each of its clauses.
-/

namespace Sys2Proof.Tests

open Sys2Proof Sys2Proof.Machine

set_option Elab.async false
set_option linter.unusedVariables false

/-! ### Small states -/

/-- Reset, booted into RUN with the link up. -/
def up : State :=
  (({ State.reset with
    rings := { Rings.reset with linkUp := true }
    board := { Board.reset with boot := 7 } } : State).setFlag R.BOOT_STATUS_READY true)

/-- `n` bytes that are 0 but at the places named. -/
def bytesAt (n : Nat) (l : List (Nat × Nat)) : List Nat := (List.range n).map fun i => ((l.find? fun p => p.1 == i).map Prod.snd).getD 0

/-- A descriptor of function 0, ring 0, with these bytes. -/
def desc (l : List (Nat × Nat)) : Desc := ⟨1, 0, 0, 0, 0, bytesAt 64 l, false, none, 0⟩

/-- A state with a fetched descriptor. -/
def holding (s : State) (d : Desc) : State := { s with rings := { s.rings with descs := [d], nextUid := 2 } }

/-- Work ring 0, done ring 0 and the event ring of function 0 with 64 slots. -/
def ringsUp : State :=
  ((((((up.wr (R.WR_CTRL_SIZE_LOG2 0 0) 6).setFlag (R.WR_CTRL_ENABLE 0 0) true).wr (R.DR_CTRL_SIZE_LOG2 0 0) 6).setFlag
    (R.DR_CTRL_ENABLE 0 0) true).wr (R.EV_CTRL_SIZE_LOG2 0) 6).setFlag (R.EV_CTRL_ENABLE 0) true)

/-- The power state is `p`. -/
def inPower (s : State) (p : PState) : State := { s with power := { s.power with st := p } }

/-- Instance `i` ready, with this quota and these cores. -/
def withInst (s : State) (i : Nat) (quota cores : List Nat) : State :=
  s.modInst i fun x => { x with st := .ready, gen := 0, quota := quota, cores := cores, key := i + 1 }

/-- A completion record of function 0, ring 0. -/
def rec0 : CRec := ⟨1, 0, 0, 0, 0, 5, 0, false, 1, 0, 0, none, none, []⟩

/-- A bound step of function 0 with nothing in it. -/
def step0 : Step where
  uid := 1
  inst := 0
  gen := 0
  ring := 0
  descId := 0
  bound := true
  compat := false
  imgTier := 2
  tag := []
  stepCount := 1
  bufs := []
  cores := []
  decks := []
  pleats := []
  peri := []
  books := []
  params := []
  entries := []
  plan := []
  sources := []
  outs := []
  streams := []
  status := 0
  failStep := 0
  evals := 0
  clips := 0
  splits := 0
  stallNs := [0, 0, 0, 0, 0]
  stall := []

/-- A state in which this step is, with its descriptor. -/
def withStep (s : State) (t : Step) : State := { holding s { desc [(0, 1)] with started := true } with steps := [t] }

/-- An operation of these bytes, not started. -/
def opOf (l : List (Nat × Nat)) : Op := ⟨bytesAt 32 l, 0, []⟩

/-- A core stream and a cluster stream of one operation. -/
def onCore (o : Op) : Stream := ⟨false, 0, [o], 256⟩
def onCluster (o : Op) : Stream := ⟨true, 0, [o], 256⟩

/-- The step whose only stream is `m`. -/
def stepOf (m : Stream) : Step := { step0 with streams := [m] }

/-- Started, and with its effect begun and this result held. -/
def begun (o : Op) : Op := { o with stage := 1 }
def held (o : Op) (r : Nat × Nat × Nat × List Nat) : Op := { o with stage := 2, result := [r] }

/-- Granules 0 to 7 of tier `t` belong to instance 0 and are written. -/
def tagged (s : State) (t : Nat) : State := { s with mem := (List.range 8).foldl (fun m g => m.setGranule t g ⟨0, true, false, 0⟩) s.mem }

/-- A deck of instance 0, programmed. -/
def deck0 : Deck := { Deck.init with owner := 0, pbo := true }

/-- Decks 0 of engines 0 and 1 are instance 0's, and so are the first bytes of T0. -/
def decksUp : State := tagged ((up.setDeck 0 0 deck0).setDeck 1 0 deck0) 0

/-- A step image with an empty BUFFERS, an empty ENGINE_MAP and no stream, at host address 0. -/
def image : List Nat :=
  let strm := List.replicate 16 0
  let dir := [1, 0, 0, 0, 0x80, 0, 0, 0, 0, 0, 0, 0] ++ leBytes 4 (crc32c []) ++ [2, 0, 1, 0, 0x80, 0, 0, 0, 0, 0, 0, 0] ++ leBytes 4 (crc32c []) ++
    [6, 0, 0, 0, 0x80, 0, 0, 0, 16, 0, 0, 0] ++ leBytes 4 (crc32c strm)
  let h := leBytes 4 0x31495347 ++ [1, 0, 0, 0] ++ leBytes 8 0x90 ++ [3, 0, 1, 0, 0x48, 8, 1, 0] ++ List.replicate 36 0
  h ++ leBytes 4 (crc32c h) ++ dir ++ List.replicate 16 0 ++ strm

/-- The image lies in host memory, and a RUN_STEP of it has been fetched. -/
def hostImage : State := holding (up.hostStore 0 image) (desc [(0, 1), (0x14, 1), (0x21, 1)])

/-- A step whose cluster 0 waits for a scheduled prefetch entry since the beginning. -/
def lateT : Step := { stepOf (onCluster (opOf [])) with entries := [⟨bytesAt 48 [], 0, 0, false⟩], stall := [(0, 1)] }
def lateS : State := { withStep up lateT with clock := ⟨20000000, 0⟩ }

def evalOp : Op := begun (opOf [(0, 1), (0xC, 1)])
def eval0 : Eval := ⟨1, 0, 0, 0, 0, 1, false, false, 0, [1], [], [], [], false, false⟩

/-- An EVAL_PLEAT of engines 0 and 1, one row each; `flags` is byte 0xA. -/
def pleatOp (flags : Nat) : Op := ⟨bytesAt 64 [(0, 2), (4, 2), (8, 2), (0xA, flags), (0x19, 0x10), (0x29, 0x10)], 1, []⟩
def pleatStep (split : Bool) (o : Op) : Step := { stepOf (onCore o) with pleats := [⟨2, 0, split, 0, 0, false⟩] }

/-- An element-wise operation of one element that reads T0 at 0 and 2 and writes at 0x40. -/
def vecOp (code : Nat) : Op := begun (opOf [(0, code), (0xC, 2), (0x10, 0x40), (0x14, 1)])

/-- A Precision Engine operation of function `f`, with a parameter block of zeros. -/
def peOp (f : Nat) : Op := begun (opOf [(0, 0x30 + f / 8), (8, f % 8)])
def peStep (f : Nat) : Step := { stepOf (onCluster (peOp f)) with params := [bytesAt 64 []] }

/-- A Precision Engine operation in progress with these blocks. -/
def peRun (bs : List PeBlock) : PeRun := ⟨1, 0, 0, bs, 0, St.ok, 0, 0⟩

/-- A peg operation of a stream on plan entry 0, which names a peg of tier `t`. -/
def pegStep (t code : Nat) : Step := { stepOf (onCore (begun (opOf [(0, code), (0x10, 7)]))) with plan := [bytesAt 32 [(0, t)]] }

/-- A wait of instance 0 on peg 0 of core 0. -/
def wait0 (age : Nat) : Wait := ⟨0, 0, 0, true, 1, false, 0, 0, 1, 0, 0, none, 0, age, 0⟩

/-- A prefetch entry of cluster 0 from host memory; `kind` 1 is a tile transfer of one tile. -/
def entry0 (kind st : Nat) (reread : Bool) : Entry :=
  ⟨bytesAt 48 [(5, kind), (6, 4), (0x1C, 64 * (1 - kind)), (0x20, kind), (0x24, 63), (0x26, 63), (0x28, 128), (0x2C, 1), (0x2D, 4)], st, 0, reread⟩
def entryStep (e : Entry) : Step := { step0 with entries := [e] }

/-- A tile of format 1 and rank 4, all factors zero. -/
def tile0 : List Nat :=
  let h := [0x52, 0x4C, 1, 4] ++ leBytes 2 (tilePayload 1 4) ++ [0, 0]
  h ++ leBytes 4 (crc32c (h ++ [0, 0, 0, 0] ++ List.replicate (4 + tilePayload 1 4) 0)) ++ List.replicate (4 + tilePayload 1 4) 0

/-- Core 0's first peg unit is instance 0's. -/
def pegsUp : State := { up with pegs := { up.pegs with owner := [(0, 1)] } }

/-- Alias 0 of function 0 names peg 0 of core 0. -/
def aliasUp : State := pegsUp.wr (R.ALIAS_TARGET_TIER_TIER 0 0) 1

/-- A MOVE of two bytes of T0 to T0. -/
def moveOp : Op := begun (opOf [(0, 0x20), (0x10, 0x40), (0x18, 2)])

/-- A target on deck 0 of engine 0, and a descriptor's job of that one target. -/
def target0 (stage : Nat) : Target := ⟨0, 0, 0, false, stage, 0, 0, 0, [], [], 0, 0, 0, [], 0, 0, []⟩
def job0 (kind flags stage : Nat) : ProgJob := ⟨1, 0, kind, flags, 0, 0, 0, 0, 0, 0, [target0 stage]⟩
def withJob (s : State) (j : ProgJob) : State :=
  { holding s { desc [(0, j.kind)] with started := true } with arr := { s.arr with jobs := [j] } }

/-- Instance 0 has core 0, whose decks are its own. -/
def mine : State := withInst decksUp 0 [32, 64, 16, 0, 1] [0]

/-- Buffer 1: one unit of `tier`, of instance 0; a T2 buffer has page 16. -/
def buf1 (tier : Nat) : Buf := ⟨true, 0, 0, tier, 0, 0, quotaUnit tier, if tier = 2 then [16] else []⟩

/-- A check of deck 0 of engine 0. -/
def withCheck (s : State) (c : Check) : State := { s with arr := { s.arr with checks := [c] } }

/-- A zeroed allocation of buffer 1 waits. -/
def zeroS : State := let s := holding (up.setBuf 1 { buf1 2 with pages := [] }) (desc [(0, 3), (0x10, 2), (0x11, 1)])
  { s with mem := { s.mem with zeroing := [(1, 1)] } }

/-- The RINSE target's row, its job and the target after the pass. -/
def atRow (r : Nat) : Target := { target0 2 with row := r }
def rowJob (r : Nat) : ProgJob := { job0 6 0 2 with targets := [atRow r] }
def rowDone (r : Nat) : ProgJob × Target :=
  ((((withJob mine (rowJob r)).modTarget 1 0 fun _ => atRow r).pulse (rowJob r) 1 0 (atRow r) []).target? 1 0).getD (rowJob r, atRow r)

/-- VF 1 enabled, instance 1 selected; and the instance ready. -/
def vfUp : State := { (up.wr R.INST_SEL_INSTANCE 1) with rings := { up.rings with numVfs := 1 } }
def vfReady : State := withInst vfUp 1 [0, 0, 0, 0, 0] []
def busyS : State := up.setFlag R.INST_RESULT_BUSY true

/-- Instance 1 is in `st` since the beginning; device time is 1 s. -/
def inState (st : InstState) : State := { up.modInst 1 fun x => { x with st := st } with clock := ⟨1000000000, 0⟩ }

/-- The guard domain is up, `f` changes it. -/
def guardUp (f : Guard → Guard) : State := { up with guard := f { up.guard with up := true } }
/-- Lane 15 is as `x`. -/
def laneS (x : Lane) : State := (guardUp id).setLane 15 x
def lane1 : Lane := { Lane.init with on := true, started := true, checkAge := 250 }

/-- A good frame-port packet of one sample of stream 0, and the same with a wrong CRC. -/
def packet : List Nat := [0x0E5B, 0, 7, crc16 [0, 7]]

/-- An empty backup of every lane, valid; lane 0's holds a section for engine 0. -/
def backups : Tab Backup := (List.range 16).map fun l => (l, { Backup.init with
  valid := true, sections := if l = 0 then [some [], none, none, none] else [none, none, none, none] })
def backed : State := guardUp fun g => { g with backups := backups }
/-- A lane command runs. -/
def laneCmd (op : Nat) : State := guardUp fun g => { g with cmd := some (op, 0), backups := backups }

/-- A MOVE from core 0 to a core of die 1, whose hem is closed. -/
def farMove : Op := begun (opOf [(0, 0x20), (0x15, 0), (0x16, 3), (0x18, 2)])
def hemS : State := { withStep up (stepOf (onCore farMove)) with power := { up.power with closed := [1] } }
/-- Frame port 3 is enabled. -/
def fspUp : State := (guardUp id).setFlag (R.SENSOR_FSP_STATUS_ENABLE 3) true

/-- Camera port 7 receives on one lane. -/
def camUp : State := (up.wr (R.SENSOR_CSI_CFG_LANES 7) 1).setFlag (R.SENSOR_CSI_CFG_ENABLE 7) true

/-- Context `x` is bound to number 3. -/
def bound (s : State) (x : Ctx) : State := { s with csi := ⟨[(3, x)]⟩ }
/-- A context of instance 0 on port 7, virtual channel 15, data type 0x2A, four slots of 4 KB in handle 256. -/
def ctx0 (inst : Nat) (open_ closing : Bool) : Ctx :=
  ⟨inst, 7, 15, 0x2A, 4, 256, 4096, none, 5, open_, closing, 0, 1, 0, 0, 0, 0, 0, 0, 0, 0x40, false⟩
/-- Its STREAM_BIND (`op` 1 unbinds). -/
def bindDesc (op : Nat) : Desc := desc [(0, 0xF), (0x10, 3), (0x11, op), (0x12, 7), (0x13, 15), (0x14, 0x2A), (0x15, 4), (0x19, 1), (0x1D, 16)]

/-- An entry for `t` is in progress. -/
def entering (t : PState) (f : Power → Power) : State := { up with power := f { up.power with entry := some t, askedPcie := true } }

/-- Legacy bias mode. -/
def legacyS (p : PState) : State := inPower { up with board := { up.board with straps := 8 } } p
/-- The power state is `p` and the exit awaits step `n`. -/
def exiting (p : PState) (n : Nat) (rep : Bool) : State :=
  { up with power := { up.power with st := p, exit := n, repeated := rep } }

/-- Device time is `n` ns. -/
def atTime (s : State) (n : Nat) : State := { s with clock := ⟨n, 0⟩ }
/-- The power manager as `f` makes it. -/
def press (s : State) (f : Press → Press) : State := { s with press := f s.press }
/-- The chain is formed of devices 0 and 1, and this is the master. -/
def chainUp : State := { (up.setFlag R.CHAIN_STATUS_MASTER true).setFlag R.CHAIN_STATUS_FORMED true with chain := { up.chain with found := [0, 1] } }

/-- The flash as `f` makes it; ADDR is 0x06000000 and LENGTH `n`. -/
def flashS (n : Nat) (f : Flash → Flash) : State := { (up.wr R.FLASH_ADDR_ADDR 0x06000000).wr R.FLASH_LENGTH_LENGTH n with flash := f up.flash }
/-- An operation of the flash at 0x06000000. -/
def flashOp (k : Nat) : FlashOp := ⟨k, 0x06000000, 16, [0xF0], 0⟩
/-- An operation runs. -/
def flashing (k : Nat) : State := flashS 16 fun x => { x with op := some (flashOp k) }

/-- Port 3 is in state `st`, and the ports are enabled. -/
def portS (st : Nat) : State := (up.setFlag R.CHAIN_CTRL_ENABLE true).setPortState 3 st
/-- A flit with payload `p` for device 0, in order. -/
def flit (p : Payload) : Flit := ⟨0, 0, 1, 0, 0, 0, 0, 0, p, 0, false, 0, 0, 0, true⟩
/-- The master has a setting of two devices on a ring. -/
def masterUp : State := ((up.setFlag R.CHAIN_STATUS_MASTER true).wr R.CHAIN_CTRL_TOPO 1).wr R.CHAIN_CTRL_X 2

/-- The board as `f` makes it. -/
def onBoard (s : State) (f : Board → Board) : State := { s with board := f s.board }
/-- Pin `n` has its function. -/
def pinOn (s : State) (n : Nat) : State := s.setFlag (R.PINMUX_PIN_FUNC n) true

/-- A record, and its copy for the event ring of function 0. -/
def record0 : Record := ⟨0x101, 1, 0, false, 0, false, 0, 0, 0, 0, 0⟩
def errsUp (f : Errs → Errs) : State := { ringsUp with errs := f up.errs }

/-- Reset with V_AON up at boot step `n` and these straps. -/
def booting (n straps : Nat) : State :=
  { (State.reset.setFlag R.BOOT_STATUS_HOST_LOADED true) with rings := { Rings.reset with linkUp := true }, board := { Board.reset with boot := n, straps := straps } }
/-- Alarm 3 is enabled and its time is reached. -/
def alarmS : State := up.setFlag (R.TIME_ALARM_CTRL_ENABLE 3) true

/-- Deck 0 of engine 0, with this codebook and no image, is due for a check. -/
def dueS (book : List Nat) : State :=
  ((atTime up 10000000000000).setDeck 0 0 { deck0 with codebook := book }).setFlag (R.DIE_CHECK_CTRL_ENABLE 0) true

/-- An input of 1.9 V or less reads as no over-range. -/
theorem low_level (s : State) (c vin : Nat) (h : vin ≤ 19000) : s.levelAt c vin ≠ 3 := by
  unfold State.levelAt cmpLevel
  repeat' split
  all_goals omega

/-! ### The check of operands -/

theorem test_check_refuses_1 : ∀ c ∈ ([
    .workRingDoorbell 17 0 0 0, .workRingDoorbell 0 16 0 0, .doneRingDoorbell 17 0 0 0, .doneRingDoorbell 0 16 0 0, .eventRingDoorbell 17 0 0,
      .descriptorFetch 17 0 0, .descriptorFetch 0 16 0, .nop 17 0, .nop 0 16, .runStep 17 0, .runStep 0 16, .dmaCopy 17 0, .dmaCopy 0 16, .bufAlloc 17
      0, .bufAlloc 0 16, .bufFree 17 0, .bufFree 0 16, .programDecks 17 0, .programDecks 0 16, .rinse 17 0, .rinse 0 16, .pegSignal 17 0, .pegSignal 0
      16, .pegWait 17 0, .pegWait 0 16, .fence 17 0, .fence 0 16, .powerHint 17 0, .powerHint 0 16, .selfTest 17 0] : List Instr), c.wellFormed =
      false := by decide +kernel

theorem test_check_refuses_2 : ∀ c ∈ ([
    .selfTest 0 16, .calibrate 17 0, .calibrate 0 16, .lend 17 0, .lend 0 16, .reclaim 17 0, .reclaim 0 16, .lendExpiry 98304, .streamBind 17 0,
      .streamBind 0 16, .instReset 17 0, .instReset 0 16, .heldRecordRelease 17 0, .heldRecordRelease 0 16, .wrCtrlEnable 17 0 0, .wrCtrlEnable 0 16
      0, .drCtrlEnable 17 0 0, .drCtrlEnable 0 16 0, .evCtrlEnable 17 0, .evalHandoff 98304, .pleatHandoff 98304, .peBlockStep 256,
      .peOperationComplete 256, .pegWatchdog 17, .aliasAdd 17 0 0 0, .aliasAdd 0 64 0 0, .aliasAdd 0 0 3 0, .aliasSet 17 0 0 0, .aliasSet 0 64 0 0,
      .aliasSet 0 0 3 0] : List Instr), c.wellFormed = false := by decide +kernel

theorem test_check_refuses_3 : ∀ c ∈ ([
    .stepLateFetch 0 256, .backgroundVisit 98304, .checkEvaluationDone 98304, .checkRetry 98304, .darnComplete 98368 false, .columnCalibration 98304,
      .pageMoveComplete 24576, .packetAtHem 10 0 0 0, .skewMonitorTrip 8 2, .skewMonitorTrip 4 1, .skewMonitorTrip 3 2, .skewMonitorTrip 0 3,
      .skewMonitorRelease 8 2, .skewMonitorRelease 4 1, .skewMonitorRelease 3 2, .skewMonitorRelease 0 3, .inflightZero 17, .inflightZero 0,
      .instResetTimeout 17, .instResetTimeout 0, .vfEnable 17, .vfFlr 17 false, .vfFlr 0 false, .fspPacket 4 [], .fspClockLoss 4, .guardCheckEval 16,
      .guardCheckRetry 16, .guardCalibration 16 0, .guardCalibration 0 4, .comparatorTrip 8 0] : List Instr), c.wellFormed = false :=
      by decide +kernel

theorem test_check_refuses_4 : ∀ c ∈ ([
    .comparatorDeglitch 8, .cmpCfgWrite 8 0, .save 16, .load 16, .restoreDecks 16, .darn 16, .frameStart 8 0 0 0, .frameStart 0
      16 0 0, .longPacket 8 0 0 [] false 0, .longPacket 0 16 0 [] false 0, .frameEnd 8 0 0 0, .frameEnd 0 16 0 0, .frameClose 16, .frameTimeout 16,
      .csiLinkError 8 0, .entryAnswer 12, .entryAnswerTimeout 12, .wakeEvent 0 0, .wakeEvent 1 1, .wakeEvent 2 1, .wakeEvent 3 17, .wakeEvent 4 4,
      .wakeEvent 5 4, .wakeEvent 6 8, .wakeEvent 7 16, .wakeEvent 8 16, .wakeEvent 9 0, .avsVdone 9, .avsAttemptTimeout 9] : List Instr), c.wellFormed
      = false := by decide +kernel

theorem test_check_refuses_5 : ∀ c ∈ ([
    .avsProbe 2 false [], .voltRailWrite 9 0, .lbEntryStage 4 0, .lbEntryStage 0 0, .vpointLower 8, .vpointRaise 8, .vrAlertAssert 2, .vrAlertHoldEnd
      2, .hintStart 16, .hintUnused 16, .flashWindowRead 32768, .firmwareRecordWrite 536870912 [], .portStateAdvance 4 0 0 0, .portStateTimeout 4,
      .idleFlit 4 (flit .idle), .dataFlit 4 (flit .idle), .pegFlit 4 (flit .idle), .descFlit 4 (flit .idle), .recordFlit 4 (flit .idle), .hostFlit 4
      (flit .idle), .hostRspFlit 4 (flit .idle), .regFlit 4 (flit .idle), .ctrlFlit 4 (flit .idle) false, .trainFlit 4 (flit .idle), .xackFlit 4 (flit
      .idle), .nakReceived 4 0, .ackTimeout 4, .portDown 4, .remoteWindowAccess 32768 false 0, .mirrorWrite 64 0] : List Instr), c.wellFormed = false
      := by decide +kernel

theorem test_check_refuses_6 : ∀ c ∈ ([
    .spanWrite 17 0, .spanWrite 0 0, .fwWatchdog 2, .fwRestartDone 2 false, .thermalTrip 10, .alarmFire 4, .alarmCtrlWrite 4 0, .toutPulseEnd 4,
      .periApertureAccess 8 0 false 0, .clipClear 8 0, .pinmuxFuncWrite 16 0, .parkEnd 16, .gpioEdge 16 false, .i3cPrivateWrite 2 0, .i3cPrivateRead 2
      0, .entdaa 2 0, .setdasa 2 0, .registerWrite 17 0 0, .vrAlertDeassert 2] : List Instr), c.wellFormed = false := by decide +kernel

theorem test_check_accepts_1 : ∀ c ∈ ([
    .workRingDoorbell 16 15 0 0, .doneRingDoorbell 16 15 0 0, .eventRingDoorbell 16 0 0, .descriptorFetch 16 15 0, .nop 16 15, .runStep 16 15,
      .dmaCopy 16 15, .bufAlloc 16 15, .bufFree 16 15, .programDecks 16 15, .rinse 16 15, .pegSignal 16 15, .pegWait 16 15, .fence 16 15, .powerHint
      16 15, .selfTest 16 15, .calibrate 16 15, .lend 16 15, .reclaim 16 15, .lendExpiry 98303, .streamBind 16 15, .instReset 16 15,
      .heldRecordRelease 16 15, .wrCtrlEnable 16 15 0, .drCtrlEnable 16 15 0, .evCtrlEnable 16 0, .evalHandoff 98303, .pleatHandoff 98303,
      .peBlockStep 255, .peOperationComplete 255] : List Instr), c.wellFormed = true := by decide +kernel

theorem test_check_accepts_2 : ∀ c ∈ ([
    .pegWatchdog 16, .aliasAdd 16 63 2 0, .aliasSet 16 63 2 0, .stepLateFetch 0 255, .backgroundVisit 98303, .checkEvaluationDone 98303, .checkRetry
      98303, .darnComplete 98367 false, .columnCalibration 98303, .pageMoveComplete 24575, .packetAtHem 9 0 0 0, .skewMonitorTrip 5 1,
      .skewMonitorRelease 5 1, .inflightZero 16, .instResetTimeout 16, .vfEnable 16, .vfFlr 16 false, .fspPacket 3 [], .fspClockLoss 3,
      .guardCheckEval 15, .guardCheckRetry 15, .guardCalibration 15 3, .comparatorTrip 7 3, .comparatorDeglitch 7, .cmpCfgWrite 7 0, .save 15, .load
      15, .restoreDecks 15, .darn 15, .frameStart 7 15 0 0] : List Instr), c.wellFormed = true := by decide +kernel

theorem test_check_accepts_3 : ∀ c ∈ ([
    .longPacket 7 15 0 [] false 0, .frameEnd 7 15 0 0, .frameClose 15, .frameTimeout 15, .csiLinkError 7 0, .entryAnswer 11, .entryAnswerTimeout 11,
      .wakeEvent 8 15, .avsVdone 8, .avsAttemptTimeout 8, .avsProbe 1 false [], .voltRailWrite 8 0, .lbEntryStage 3 0, .vpointLower 7, .vpointRaise 7,
      .vrAlertAssert 1, .vrAlertHoldEnd 1, .hintStart 15, .hintUnused 15, .flashWindowRead 32767, .firmwareRecordWrite 536870911 [], .portStateAdvance
      3 0 0 0, .portStateTimeout 3, .idleFlit 3 (flit .idle), .dataFlit 3 (flit .idle), .pegFlit 3 (flit .idle), .descFlit 3 (flit .idle), .recordFlit
      3 (flit .idle), .hostFlit 3 (flit .idle), .hostRspFlit 3 (flit .idle)] : List Instr), c.wellFormed = true := by decide +kernel

theorem test_check_accepts_4 : ∀ c ∈ ([
    .regFlit 3 (flit .idle), .ctrlFlit 3 (flit .idle) false, .trainFlit 3 (flit .idle), .xackFlit 3 (flit .idle), .nakReceived 3 0, .ackTimeout 3,
      .portDown 3, .remoteWindowAccess 32767 false 0, .mirrorWrite 63 0, .spanWrite 16 0, .fwWatchdog 1, .fwRestartDone 1 false, .thermalTrip 9,
      .alarmFire 3, .alarmCtrlWrite 3 0, .toutPulseEnd 3, .periApertureAccess 7 0 false 0, .clipClear 7 0, .pinmuxFuncWrite 15 0, .parkEnd 15,
      .gpioEdge 15 false, .i3cPrivateWrite 1 0, .i3cPrivateRead 1 0, .entdaa 1 0, .setdasa 1 0, .registerWrite 16 0 0, .vrAlertDeassert 1] : List
      Instr), c.wellFormed = true := by decide +kernel

/-! ### What the hypotheses of the statements are met by -/

theorem witness_StepRunsFront :
    (∃ (s : Machine.State) (c : Instr) (t : List Instr), (s.pending = c :: t)) :=
  ⟨({ up with pending := [.apply]}), (.apply), ([]), by decide +kernel⟩

theorem witness_EmptyQueueTicks :
    (∃ (s : Machine.State), (s.pending = []) ∧ (s.steady = true) ∧ (s.aon = true) ∧ (s.onCrystal = false)) ∧
    (∃ (s : Machine.State), (s.pending = []) ∧ (s.power.st = PState.off)) :=
  ⟨
    ⟨up, by decide +kernel⟩,
    ⟨(inPower up .off), by decide +kernel⟩⟩

theorem witness_ResetState :
    (∃ (i : ℕ), (i ≠ 0)) :=
  ⟨1, by decide +kernel⟩

theorem witness_Doorbells :
    (∃ (s : Machine.State) (f : ℕ) (w : ℕ) (v : ℕ), (s.steady = true) ∧ (f ≤ 16) ∧ (w < 16) ∧
      let u : Machine.State := s.dropHeld f;
      let workOk : Prop := s.takesBells f = true ∧ s.workOn f w = true ∧ bellForm v (s.wrSize f w) = true ∧ posCount (posOf v (s.wrSize f w)) (posOf
        (s.rd (R.WR_TAIL_POSITION f w)) (s.wrSize f w)) (s.wrSize f w) ≤ s.wrSize f w - posCount (posOf (s.rd (R.WR_TAIL_POSITION f w)) (s.wrSize f
        w)) (posOf (s.rd (R.WR_HEAD_POSITION f w)) (s.wrSize f w)) (s.wrSize f w);
      ((s.inst f).st ≠ InstState.parked) ∧ (s.closedFor f = none) ∧ (workOk)) ∧
    (∃ (s : Machine.State) (f : ℕ) (w : ℕ) (v : ℕ), (s.steady = true) ∧ (f ≤ 16) ∧ (w < 16) ∧
      let u : Machine.State := s.dropHeld f;
      let doneOk : Prop := s.takesBells f = true ∧ s.flag (R.DR_CTRL_ENABLE f w) = true ∧ bellForm v (s.drSize f w) = true ∧ posCount (posOf v
        (s.drSize f w)) (posOf (s.rd (R.DR_HEAD_POSITION f w)) (s.drSize f w)) (s.drSize f w) ≤ posCount (posOf (s.rd (R.DR_TAIL_POSITION f w))
        (s.drSize f w)) (posOf (s.rd (R.DR_HEAD_POSITION f w)) (s.drSize f w)) (s.drSize f w);
      ((s.inst f).st ≠ InstState.parked) ∧ (s.closedFor f = none) ∧ (doneOk)) ∧
    (∃ (s : Machine.State) (f : ℕ) (w : ℕ) (v : ℕ), (s.steady = true) ∧ (f ≤ 16) ∧ (w < 16) ∧
      let u : Machine.State := s.dropHeld f;
      let eventOk : Prop := s.takesBells f = true ∧ s.flag (R.EV_CTRL_ENABLE f) = true ∧ bellForm v (s.evSize f) = true ∧ posCount (posOf v
        (s.evSize f)) (posOf (s.rd (R.EV_HEAD_POSITION f)) (s.evSize f)) (s.evSize f) ≤ posCount (posOf (s.rd (R.EV_TAIL_POSITION f)) (s.evSize f))
        (posOf (s.rd (R.EV_HEAD_POSITION f)) (s.evSize f)) (s.evSize f);
      ((s.inst f).st ≠ InstState.parked) ∧ (s.closedFor f = none) ∧ (eventOk) ∧ (s.lostOf f = 0)) ∧
    (∃ (s : Machine.State) (f : ℕ) (w : ℕ) (v : ℕ), (s.steady = true) ∧ (f ≤ 16) ∧ (w < 16) ∧
      let u : Machine.State := s.dropHeld f;
      let workOk : Prop := s.takesBells f = true ∧ s.workOn f w = true ∧ bellForm v (s.wrSize f w) = true ∧ posCount (posOf v (s.wrSize f w)) (posOf
        (s.rd (R.WR_TAIL_POSITION f w)) (s.wrSize f w)) (s.wrSize f w) ≤ s.wrSize f w - posCount (posOf (s.rd (R.WR_TAIL_POSITION f w)) (s.wrSize f
        w)) (posOf (s.rd (R.WR_HEAD_POSITION f w)) (s.wrSize f w)) (s.wrSize f w);
      ((s.inst f).st ≠ InstState.parked) ∧ (s.closedFor f = none) ∧ (¬workOk)) ∧
    (∃ (s : Machine.State) (f : ℕ) (w : ℕ) (v : ℕ), (s.steady = true) ∧ (f ≤ 16) ∧ (w < 16) ∧
      let u : Machine.State := s.dropHeld f;
      let doneOk : Prop := s.takesBells f = true ∧ s.flag (R.DR_CTRL_ENABLE f w) = true ∧ bellForm v (s.drSize f w) = true ∧ posCount (posOf v
        (s.drSize f w)) (posOf (s.rd (R.DR_HEAD_POSITION f w)) (s.drSize f w)) (s.drSize f w) ≤ posCount (posOf (s.rd (R.DR_TAIL_POSITION f w))
        (s.drSize f w)) (posOf (s.rd (R.DR_HEAD_POSITION f w)) (s.drSize f w)) (s.drSize f w);
      ((s.inst f).st ≠ InstState.parked) ∧ (s.closedFor f = none) ∧ (¬doneOk)) ∧
    (∃ (s : Machine.State) (f : ℕ) (w : ℕ) (v : ℕ), (s.steady = true) ∧ (f ≤ 16) ∧ (w < 16) ∧
      let u : Machine.State := s.dropHeld f;
      let eventOk : Prop := s.takesBells f = true ∧ s.flag (R.EV_CTRL_ENABLE f) = true ∧ bellForm v (s.evSize f) = true ∧ posCount (posOf v
        (s.evSize f)) (posOf (s.rd (R.EV_HEAD_POSITION f)) (s.evSize f)) (s.evSize f) ≤ posCount (posOf (s.rd (R.EV_TAIL_POSITION f)) (s.evSize f))
        (posOf (s.rd (R.EV_HEAD_POSITION f)) (s.evSize f)) (s.evSize f);
      ((s.inst f).st ≠ InstState.parked) ∧ (s.closedFor f = none) ∧ (¬eventOk)) ∧
    (∃ (s : Machine.State) (f : ℕ) (w : ℕ) (n : ℕ), (s.steady = true) ∧ (f ≤ 16) ∧ (w < 16) ∧
      let u : Machine.State := s.dropHeld f;
      ((s.inst f).st ≠ InstState.parked) ∧ (n ≠ 4)) ∧
    (∃ (s : Machine.State) (f : ℕ) (w : ℕ) (d : ℕ), (s.steady = true) ∧ (f ≤ 16) ∧ (w < 16) ∧
      let u : Machine.State := s.dropHeld f;
      ((s.inst f).st ≠ InstState.parked) ∧ (s.closedFor f = some d)) ∧
    (∃ (s : Machine.State) (f : ℕ) (w : ℕ), (s.steady = true) ∧ (f ≤ 16) ∧ (w < 16) ∧
      let u : Machine.State := s.dropHeld f;
      ((s.inst f).st = InstState.parked)) :=
  ⟨
    ⟨ringsUp, (0), (0), (0), by decide +kernel⟩,
    ⟨ringsUp, (0), (0), (0), by decide +kernel⟩,
    ⟨ringsUp, (0), (0), (0), by decide +kernel⟩,
    ⟨ringsUp, (0), (0), (64), by decide +kernel⟩,
    ⟨ringsUp, (0), (0), (63), by decide +kernel⟩,
    ⟨ringsUp, (0), (0), (63), by decide +kernel⟩,
    ⟨ringsUp, (0), (0), (3), by decide +kernel⟩,
    ⟨{ withInst up 1 [] [0] with power := { up.power with closed := [0] } }, 1, 15, 0, by decide +kernel⟩,
    ⟨(up.modInst 16 fun x => { x with st := .parked }), 16, 0, by decide +kernel⟩⟩

theorem witness_DescriptorsRun :
    (∃ (s : Machine.State) (f : ℕ) (w : ℕ), (f ≤ 16) ∧ (w < 16) ∧ (s.mayFetch f w = true) ∧ (s.myTurn f w = true) ∧ (0 < s.announced f w) ∧ (∀ e ∈
      s.rings.descs, e.started = true ∨ dDevice e.bytes = 0) ∧
      let z : ℕ := s.wrSize f w;
      let p : ℕ := posOf (s.rd (R.WR_HEAD_POSITION f w)) z;
      let b : List ℕ := s.hostRead (s.rd (R.WR_BASE_BASE f w) * 4096 + p % z * 64) 64;
      (s.fetchStatus f b = St.ok) ∧ (dDevice b = 0)) ∧
    (∃ (s : Machine.State) (f : ℕ) (w : ℕ) (d : Desc), (f ≤ 16) ∧ (w < 16) ∧ (s.begin f w 0 = some d)) ∧
    (∃ (s : Machine.State) (f : ℕ) (w : ℕ) (d : Desc), (f ≤ 16) ∧ (w < 16) ∧ (s.begin f w 9 = some d) ∧ (s.fenceMet d = true)) ∧
    (∃ (s : Machine.State) (uid : ℕ) (d : Desc), (s.desc? uid = some d) ∧ (s.rings.stopping = [])) :=
  ⟨
    ⟨(ringsUp.wr (R.WR_TAIL_POSITION 0 0) 1), (0), (0), by decide +kernel⟩,
    ⟨(holding up (desc [])), (0), (0), (desc []), by decide +kernel⟩,
    ⟨(holding up (desc [(0,9)])), (0), (0), (desc [(0,9)]), by decide +kernel⟩,
    ⟨(holding up (desc [])), (1), (desc []), by decide +kernel⟩⟩

theorem witness_CompletionRecords :
    (∃ (s : Machine.State) (c : CRec), (s.hubUp = true) ∧ (List.find? s.mayDeliver s.rings.due = some c) ∧ (c.fromDev = none) ∧
      let d : ℕ := c.done;
      let z : ℕ := s.drSize c.inst d;
      let p : ℕ := posOf (s.rd (R.DR_TAIL_POSITION c.inst d)) z;
      (s.reportsToMaster = false) ∧ (s.flag (R.DR_CTRL_ENABLE c.inst d) = true) ∧ (0 < s.drFree c.inst d) ∧ (∀ h ∈ s.rings.held, ¬(h.inst = c.inst ∧
        h.done = d)) ∧ (s.flag (R.DR_CTRL_MSIX_EN c.inst d) = false) ∧ (c.inst ≤ 16) ∧ (d < 16)) ∧
    (∃ (s : Machine.State) (c : CRec), (s.hubUp = true) ∧ (List.find? s.mayDeliver s.rings.due = some c) ∧ (c.fromDev = none) ∧ (s.flag
      (R.DR_CTRL_ENABLE c.inst c.done) = false ∨ s.drFree c.inst c.done = 0 ∨ ∃ h ∈ s.rings.held, h.inst = c.inst ∧ h.done = c.done)) ∧
    (∃ (s : Machine.State) (f : ℕ) (d : ℕ) (c : CRec), (f ≤ 16) ∧ (d < 16) ∧ (s.hubUp = true) ∧ (s.linkOpen = true) ∧ (s.flag (R.DR_CTRL_ENABLE f d)
      = true) ∧ (0 < s.drFree f d) ∧ (List.find? (fun c => c.inst == f && c.done == d) s.rings.held = some c)) :=
  ⟨
    ⟨({ ringsUp with rings := { ringsUp.rings with due := [rec0] } }), (rec0), by decide +kernel⟩,
    ⟨{ up with rings := { up.rings with due := [rec0] } }, rec0, by decide +kernel⟩,
    ⟨({ ringsUp with rings := { ringsUp.rings with held := [rec0] } }), (0), (0), (rec0), by decide +kernel⟩⟩

theorem witness_RingsEnabled :
    (∃ (s : Machine.State) (f : ℕ) (w : ℕ) (v : ℕ), (s.steady = true) ∧ (f ≤ 16) ∧ (w < 16) ∧ (bit v 31 = true) ∧ (6 ≤ fld v 4 0) ∧ (fld v 4 0 ≤ 16)
      ∧ (s.flag (R.WR_CTRL_ENABLE f w) = false) ∧ (s.workRings f < (s.inst f).quota.getD 4 0)) ∧
    (∃ (s : Machine.State) (f : ℕ) (w : ℕ) (v : ℕ), (s.steady = true) ∧ (f ≤ 16) ∧ (w < 16) ∧ (bit v 31 = true) ∧ (6 ≤ fld v 4 0) ∧ (fld v 4 0 ≤ 16)
      ∧ (s.flag (R.DR_CTRL_ENABLE f w) = false)) ∧
    (∃ (s : Machine.State) (f : ℕ) (w : ℕ) (v : ℕ), (s.steady = true) ∧ (f ≤ 16) ∧ (w < 16) ∧ (bit v 31 = true) ∧ (6 ≤ fld v 4 0) ∧ (fld v 4 0 ≤ 16)
      ∧ (s.flag (R.EV_CTRL_ENABLE f) = false) ∧ (s.lostOf f = 0)) :=
  ⟨
    ⟨(withInst up 0 [0,0,0,0,1] []), (0), (0), (0x80000006), by decide +kernel⟩,
    ⟨(withInst up 0 [0,0,0,0,1] []), (0), (0), (0x80000006), by decide +kernel⟩,
    ⟨(withInst up 0 [0,0,0,0,1] []), (0), (0), (0x80000006), by decide +kernel⟩⟩

theorem witness_RunStepDecided :
    (∃ (s : Machine.State) (f : ℕ) (w : ℕ) (d : Desc), (f ≤ 16) ∧ (w < 16) ∧ (s.begin f w 1 = some d) ∧ (s.stepTurn d = true) ∧
      let s0 : Machine.State := s.started d.uid;
      let tier : ℕ := if bit (u16At d.bytes 20) 0 = true then 4 else 2;
      let h : ℕ := u32At d.bytes 16;
      let o : ℕ := u64At d.bytes 24;
      let area : ℕ := u64At d.bytes 32;
      (tier = 2 → s0.inBuffer d.inst 2 h o area = true ∧ s.power.closed.contains 8 = false) ∧
      let r : Machine.State × Access := s0.readSpace d.inst tier h o 64;
      (r.2.status = St.ok) ∧ (headBreach r.2.bytes area = none) ∧
      let q : Machine.State × Access := r.1.readSpace d.inst tier h o (max 64 (u64At r.2.bytes 8));
      (q.2.status = St.ok) ∧
      let im : Img := { inst := d.inst, bytes := q.2.bytes, outs := q.1.outTable d.bytes };
      (firstBreach (q.1.breaches im) = none)) ∧
    (∃ (s : Machine.State) (f : ℕ) (w : ℕ) (d : Desc), (f ≤ 16) ∧ (w < 16) ∧ (s.begin f w 1 = some d) ∧ (bit (u16At d.bytes 20) 0 = false) ∧
      ((s.started d.uid).inBuffer d.inst 2 (u32At d.bytes 16) (u64At d.bytes 24) (u64At d.bytes 32) = false)) :=
  ⟨
    ⟨(hostImage), (0), (0), (desc [(0,1),(0x14,1),(0x21,1)]), by decide +kernel⟩,
    ⟨(holding up (desc [(0,1)])), (0), (0), (desc [(0,1)]), by decide +kernel⟩⟩

theorem witness_StepLife :
    (∃ (s : Machine.State) (uid : ℕ) (t : Step) (d : Desc), (s.step? uid = some t) ∧ (s.desc? uid = some d) ∧ (s.mayBind t = true) ∧ (s.bindFault t
      = none) ∧ (s.bindShut t = none)) ∧
    (∃ (s : Machine.State) (uid : ℕ) (t : Step) (d : Desc) (x : ℕ × ℕ), (s.step? uid = some t) ∧ (s.desc? uid = some d) ∧ (s.mayBind t = true) ∧
      (s.bindFault t = some x)) ∧
    (∃ (s : Machine.State) (uid : ℕ) (st : ℕ) (op : ℕ) (t : Step) (m : Machine.Stream) (o : Op),
      let u : Machine.State := s.fetchStep uid;
      (u.op? uid st op = some (t, m, o)) ∧ (u.opReady t m op o = true) ∧ (m.has op = true) ∧ (t.gateOpen m.clusterNo o.step = true) ∧ (u.streamReady
        t m o = true)) ∧
    (∃ (s : Machine.State) (uid : ℕ) (t : Step), (s.step? uid = some t) ∧ (s.stepOver t = true) ∧ ((s.inst t.inst).gen = t.gen) ∧ (t.status =
      St.ok)) ∧
    (∃ (s : Machine.State) (uid : ℕ) (cl : ℕ) (t : Step) (c : ℕ × ℕ), (cl < 256) ∧ (s.step? uid = some t) ∧ (s.alive t = true) ∧ (s.stallCause t cl
      = some c) ∧ (Tab.get (fun x => 0) t.stall cl ≠ 0) ∧ (s.stallLimit t.inst < s.now + 1 - Tab.get (fun x => 0) t.stall cl)) :=
  ⟨
    ⟨(withStep (withInst up 0 [] [0]) {step0 with bound := false, cores := [(0,1)]}), (1), {step0 with bound := false, cores := [(0,1)]}, {desc
      [(0,1)] with started := true}, by decide +kernel⟩,
    ⟨(withStep up {step0 with bound := false, cores := [(0,1)]}), (1), {step0 with bound := false, cores := [(0,1)]}, {desc [(0,1)] with started :=
      true}, (St.engineNotOwned, 0), by decide +kernel⟩,
    ⟨(withStep up (stepOf (onCore (opOf [])))), (1), (0), (0), (stepOf (onCore (opOf []))), (onCore (opOf [])), (opOf []), by decide +kernel⟩,
    ⟨(withStep up step0), (1), step0, by decide +kernel⟩,
    ⟨lateS, (1), (0), lateT, (0, 0), by decide +kernel⟩⟩

theorem witness_EvaluationsRun :
    (∃ (s : Machine.State) (uid : ℕ) (st : ℕ) (op : ℕ) (t : Step) (m : Machine.Stream) (o : Op), (s.op? uid st op = some (t, m, o)) ∧ (s.running =
      true) ∧ (o.stage = 1) ∧ (o.code = 1) ∧
      let a : EvalArgs := evalArgs m o;
      let r : Machine.State × Access := s.latch t.inst a;
      (s.deckStatus t.inst a.engine a.deck = St.ok) ∧ (r.2.status = St.ok)) ∧
    (∃ (s : Machine.State) (uid : ℕ) (st : ℕ) (op : ℕ) (t : Step) (m : Machine.Stream) (o : Op), (s.op? uid st op = some (t, m, o)) ∧ (s.running =
      true) ∧ (o.stage = 1) ∧ (o.code = 1) ∧
      let a : EvalArgs := evalArgs m o;
      let ds : ℕ := s.deckStatus t.inst a.engine a.deck;
      (ds ≠ St.ok)) ∧
    (∃ (s : Machine.State) (e : ℕ) (v : Eval), (e < 98304) ∧ (s.running = true) ∧ ((s.engine e).eval = some v)) ∧
    (∃ (s : Machine.State) (uid : ℕ) (st : ℕ) (op : ℕ) (cal : Bool) (t : Step) (m : Machine.Stream) (o : Op) (p : Pleat), (s.op? uid st op = some
      (t, m, o)) ∧ (s.running = true) ∧ (o.stage = 1) ∧ (o.code = 2) ∧
      let size : ℕ := u8At o.bytes 8;
      let first : ℕ := u32At o.bytes 12;
      let shift : ℕ := fld (u8At o.bytes 10) 4 2;
      (t.pleat? size first = some p) ∧ (s.pleatDeckFault t.inst (List.map (memberArgs o.bytes shift) (List.range size)) = none) ∧
      let s1 : Machine.State := s.decideMode uid size first p cal;
      let split : Bool := s1.isSplit uid size first;
      (split = true ∧ bit (u8At o.bytes 10) 5 = true)) ∧
    (∃ (s : Machine.State) (uid : ℕ) (st : ℕ) (op : ℕ) (cal : Bool) (t : Step) (m : Machine.Stream) (o : Op) (p : Pleat), (s.op? uid st op = some
      (t, m, o)) ∧ (s.running = true) ∧ (o.stage = 1) ∧ (o.code = 2) ∧
      let size : ℕ := u8At o.bytes 8;
      let first : ℕ := u32At o.bytes 12;
      let shift : ℕ := fld (u8At o.bytes 10) 4 2;
      (t.pleat? size first = some p) ∧ (s.pleatDeckFault t.inst (List.map (memberArgs o.bytes shift) (List.range size)) = none) ∧
      let s1 : Machine.State := s.decideMode uid size first p cal;
      let split : Bool := s1.isSplit uid size first;
      (bit (u8At o.bytes 10) 5 = false ∨ split = false) ∧
      let as : List EvalArgs := List.map (memberArgs o.bytes (if split = true then splitShift size shift else shift)) (List.range size);
      let r : Machine.State × List Access := s1.latchAll t.inst as;
      (latchFault r.2 = none)) ∧
    (∃ (s : Machine.State) (e : ℕ) (p : PleatEval) (v : Eval), (e < 98304) ∧ (s.running = true) ∧ (List.find? (fun p => headOf p.size p.first == e)
      s.arr.pleatEvals = some p) ∧ (p.members.getLast? = some v)) :=
  ⟨
    ⟨(withStep decksUp (stepOf (onCore evalOp))), (1), (0), (0), (stepOf (onCore evalOp)), (onCore evalOp), evalOp, by decide +kernel⟩,
    ⟨(withStep up (stepOf (onCore evalOp))), (1), (0), (0), (stepOf (onCore evalOp)), (onCore evalOp), evalOp, by decide +kernel⟩,
    ⟨(decksUp.modEngine 0 fun g => {g with eval := some eval0}), (0), eval0, by decide +kernel⟩,
    ⟨(withStep decksUp (pleatStep true (pleatOp 0x20))), (1), (0), (0), (false), (pleatStep true (pleatOp 0x20)), (onCore (pleatOp 0x20)), (pleatOp
      0x20), ⟨2, 0, true, 0, 0, false⟩, by decide +kernel⟩,
    ⟨(withStep decksUp (pleatStep false (pleatOp 0))), (1), (0), (0), (true), (pleatStep false (pleatOp 0)), (onCore (pleatOp 0)), (pleatOp 0), ⟨2,
      0, false, 0, 0, false⟩, by decide +kernel⟩,
    ⟨({ decksUp with arr := { decksUp.arr with pleatEvals := [⟨2, 0, false, 0, [eval0, eval0]⟩] } }), (1), ⟨2, 0, false, 0, [eval0, eval0]⟩, eval0,
      by decide +kernel⟩⟩

theorem witness_VectorOpsRun :
    (∃ (s : Machine.State) (uid : ℕ) (st : ℕ) (op : ℕ) (t : Step) (m : Machine.Stream) (o : Op), (s.op? uid st op = some (t, m, o)) ∧ (s.running =
      true) ∧ (o.stage = 1) ∧ (o.code = 3) ∧
      let n : ℕ := u32At o.bytes 20;
      let ra : Machine.State × Access := s.vecSource uid t.inst m.unit (u32At o.bytes 8) (2 * n) (u32At o.bytes 28) (if 3 = 4 then u8At o.bytes 25 +
        1 else 1);
      let nb : ℕ := srcBBytes 3 n (u8At o.bytes 24);
      let rb : Machine.State × Access := if nb = 0 then (ra.1, Access.ok []) else ra.1.vecSource uid t.inst m.unit (u32At o.bytes 12) nb 0 1;
      (ra.2.status = St.ok) ∧ (rb.2.status = St.ok)) ∧
    (∃ (s : Machine.State) (uid : ℕ) (st : ℕ) (op : ℕ) (t : Step) (m : Machine.Stream) (o : Op), (s.op? uid st op = some (t, m, o)) ∧ (s.running =
      true) ∧ (o.stage = 1) ∧ (o.code = 3) ∧
      let n : ℕ := u32At o.bytes 20;
      let ra : Machine.State × Access := s.vecSource uid t.inst m.unit (u32At o.bytes 8) (2 * n) (u32At o.bytes 28) (if 3 = 4 then u8At o.bytes 25 +
        1 else 1);
      let nb : ℕ := srcBBytes 3 n (u8At o.bytes 24);
      (ra.2.status ≠ St.ok)) ∧
    (∃ (s : Machine.State) (uid : ℕ) (st : ℕ) (op : ℕ) (t : Step) (m : Machine.Stream) (o : Op), (s.op? uid st op = some (t, m, o)) ∧ (s.running =
      true) ∧ (o.stage = 1) ∧ (o.code = 4) ∧
      let n : ℕ := u32At o.bytes 20;
      let ra : Machine.State × Access := s.vecSource uid t.inst m.unit (u32At o.bytes 8) (2 * n) (u32At o.bytes 28) (if 4 = 4 then u8At o.bytes 25 +
        1 else 1);
      let nb : ℕ := srcBBytes 4 n (u8At o.bytes 24);
      let rb : Machine.State × Access := if nb = 0 then (ra.1, Access.ok []) else ra.1.vecSource uid t.inst m.unit (u32At o.bytes 12) nb 0 1;
      (ra.2.status = St.ok) ∧ (rb.2.status = St.ok)) ∧
    (∃ (s : Machine.State) (uid : ℕ) (st : ℕ) (op : ℕ) (t : Step) (m : Machine.Stream) (o : Op), (s.op? uid st op = some (t, m, o)) ∧ (s.running =
      true) ∧ (o.stage = 1) ∧ (o.code = 4) ∧
      let n : ℕ := u32At o.bytes 20;
      let ra : Machine.State × Access := s.vecSource uid t.inst m.unit (u32At o.bytes 8) (2 * n) (u32At o.bytes 28) (if 4 = 4 then u8At o.bytes 25 +
        1 else 1);
      let nb : ℕ := srcBBytes 4 n (u8At o.bytes 24);
      (ra.2.status ≠ St.ok)) ∧
    (∃ (s : Machine.State) (uid : ℕ) (st : ℕ) (op : ℕ) (t : Step) (m : Machine.Stream) (o : Op), (s.op? uid st op = some (t, m, o)) ∧ (s.running =
      true) ∧ (o.stage = 1) ∧ (o.code = 16) ∧
      let n : ℕ := u32At o.bytes 20;
      let ra : Machine.State × Access := s.vecSource uid t.inst m.unit (u32At o.bytes 8) (2 * n) (u32At o.bytes 28) (if 16 = 4 then u8At o.bytes 25
        + 1 else 1);
      let nb : ℕ := srcBBytes 16 n (u8At o.bytes 24);
      let rb : Machine.State × Access := if nb = 0 then (ra.1, Access.ok []) else ra.1.vecSource uid t.inst m.unit (u32At o.bytes 12) nb 0 1;
      (ra.2.status = St.ok) ∧ (rb.2.status = St.ok)) ∧
    (∃ (s : Machine.State) (uid : ℕ) (st : ℕ) (op : ℕ) (t : Step) (m : Machine.Stream) (o : Op), (s.op? uid st op = some (t, m, o)) ∧ (s.running =
      true) ∧ (o.stage = 1) ∧ (o.code = 16) ∧
      let n : ℕ := u32At o.bytes 20;
      let ra : Machine.State × Access := s.vecSource uid t.inst m.unit (u32At o.bytes 8) (2 * n) (u32At o.bytes 28) (if 16 = 4 then u8At o.bytes 25
        + 1 else 1);
      let nb : ℕ := srcBBytes 16 n (u8At o.bytes 24);
      (ra.2.status ≠ St.ok)) ∧
    (∃ (s : Machine.State) (uid : ℕ) (st : ℕ) (op : ℕ) (t : Step) (m : Machine.Stream) (o : Op), (s.op? uid st op = some (t, m, o)) ∧ (s.running =
      true) ∧ (o.stage = 1) ∧ (o.code = 17) ∧
      let n : ℕ := u32At o.bytes 20;
      let ra : Machine.State × Access := s.vecSource uid t.inst m.unit (u32At o.bytes 8) (2 * n) (u32At o.bytes 28) (if 17 = 4 then u8At o.bytes 25
        + 1 else 1);
      let nb : ℕ := srcBBytes 17 n (u8At o.bytes 24);
      let rb : Machine.State × Access := if nb = 0 then (ra.1, Access.ok []) else ra.1.vecSource uid t.inst m.unit (u32At o.bytes 12) nb 0 1;
      (ra.2.status = St.ok) ∧ (rb.2.status = St.ok)) ∧
    (∃ (s : Machine.State) (uid : ℕ) (st : ℕ) (op : ℕ) (t : Step) (m : Machine.Stream) (o : Op), (s.op? uid st op = some (t, m, o)) ∧ (s.running =
      true) ∧ (o.stage = 1) ∧ (o.code = 17) ∧
      let n : ℕ := u32At o.bytes 20;
      let ra : Machine.State × Access := s.vecSource uid t.inst m.unit (u32At o.bytes 8) (2 * n) (u32At o.bytes 28) (if 17 = 4 then u8At o.bytes 25
        + 1 else 1);
      let nb : ℕ := srcBBytes 17 n (u8At o.bytes 24);
      (ra.2.status ≠ St.ok)) ∧
    (∃ (s : Machine.State) (uid : ℕ) (st : ℕ) (op : ℕ) (t : Step) (m : Machine.Stream) (o : Op), (s.op? uid st op = some (t, m, o)) ∧ (s.running =
      true) ∧ (o.stage = 1) ∧ (o.code = 18) ∧
      let n : ℕ := u32At o.bytes 20;
      let ra : Machine.State × Access := s.vecSource uid t.inst m.unit (u32At o.bytes 8) (2 * n) (u32At o.bytes 28) (if 18 = 4 then u8At o.bytes 25
        + 1 else 1);
      let nb : ℕ := srcBBytes 18 n (u8At o.bytes 24);
      let rb : Machine.State × Access := if nb = 0 then (ra.1, Access.ok []) else ra.1.vecSource uid t.inst m.unit (u32At o.bytes 12) nb 0 1;
      (ra.2.status = St.ok) ∧ (rb.2.status = St.ok)) ∧
    (∃ (s : Machine.State) (uid : ℕ) (st : ℕ) (op : ℕ) (t : Step) (m : Machine.Stream) (o : Op), (s.op? uid st op = some (t, m, o)) ∧ (s.running =
      true) ∧ (o.stage = 1) ∧ (o.code = 18) ∧
      let n : ℕ := u32At o.bytes 20;
      let ra : Machine.State × Access := s.vecSource uid t.inst m.unit (u32At o.bytes 8) (2 * n) (u32At o.bytes 28) (if 18 = 4 then u8At o.bytes 25
        + 1 else 1);
      let nb : ℕ := srcBBytes 18 n (u8At o.bytes 24);
      (ra.2.status ≠ St.ok)) ∧
    (∃ (s : Machine.State) (uid : ℕ) (st : ℕ) (op : ℕ) (t : Step) (m : Machine.Stream) (o : Op), (s.op? uid st op = some (t, m, o)) ∧ (s.running =
      true) ∧ (o.stage = 1) ∧ (o.code = 19) ∧
      let n : ℕ := u32At o.bytes 20;
      let ra : Machine.State × Access := s.vecSource uid t.inst m.unit (u32At o.bytes 8) (2 * n) (u32At o.bytes 28) (if 19 = 4 then u8At o.bytes 25
        + 1 else 1);
      let nb : ℕ := srcBBytes 19 n (u8At o.bytes 24);
      let rb : Machine.State × Access := if nb = 0 then (ra.1, Access.ok []) else ra.1.vecSource uid t.inst m.unit (u32At o.bytes 12) nb 0 1;
      (ra.2.status = St.ok) ∧ (rb.2.status = St.ok)) ∧
    (∃ (s : Machine.State) (uid : ℕ) (st : ℕ) (op : ℕ) (t : Step) (m : Machine.Stream) (o : Op), (s.op? uid st op = some (t, m, o)) ∧ (s.running =
      true) ∧ (o.stage = 1) ∧ (o.code = 19) ∧
      let n : ℕ := u32At o.bytes 20;
      let ra : Machine.State × Access := s.vecSource uid t.inst m.unit (u32At o.bytes 8) (2 * n) (u32At o.bytes 28) (if 19 = 4 then u8At o.bytes 25
        + 1 else 1);
      let nb : ℕ := srcBBytes 19 n (u8At o.bytes 24);
      (ra.2.status ≠ St.ok)) ∧
    (∃ (s : Machine.State) (uid : ℕ) (st : ℕ) (op : ℕ) (t : Step) (m : Machine.Stream) (o : Op), (s.op? uid st op = some (t, m, o)) ∧ (s.running =
      true) ∧ (o.stage = 1) ∧ (o.code = 20) ∧
      let n : ℕ := u32At o.bytes 20;
      let ra : Machine.State × Access := s.vecSource uid t.inst m.unit (u32At o.bytes 8) (2 * n) (u32At o.bytes 28) (if 20 = 4 then u8At o.bytes 25
        + 1 else 1);
      let nb : ℕ := srcBBytes 20 n (u8At o.bytes 24);
      let rb : Machine.State × Access := if nb = 0 then (ra.1, Access.ok []) else ra.1.vecSource uid t.inst m.unit (u32At o.bytes 12) nb 0 1;
      (ra.2.status = St.ok) ∧ (rb.2.status = St.ok)) ∧
    (∃ (s : Machine.State) (uid : ℕ) (st : ℕ) (op : ℕ) (t : Step) (m : Machine.Stream) (o : Op), (s.op? uid st op = some (t, m, o)) ∧ (s.running =
      true) ∧ (o.stage = 1) ∧ (o.code = 20) ∧
      let n : ℕ := u32At o.bytes 20;
      let ra : Machine.State × Access := s.vecSource uid t.inst m.unit (u32At o.bytes 8) (2 * n) (u32At o.bytes 28) (if 20 = 4 then u8At o.bytes 25
        + 1 else 1);
      let nb : ℕ := srcBBytes 20 n (u8At o.bytes 24);
      (ra.2.status ≠ St.ok)) ∧
    (∃ (s : Machine.State) (uid : ℕ) (st : ℕ) (op : ℕ) (t : Step) (m : Machine.Stream) (o : Op), (s.op? uid st op = some (t, m, o)) ∧ (s.running =
      true) ∧ (o.stage = 1) ∧ (o.code = 21) ∧
      let n : ℕ := u32At o.bytes 20;
      let ra : Machine.State × Access := s.vecSource uid t.inst m.unit (u32At o.bytes 8) (2 * n) (u32At o.bytes 28) (if 21 = 4 then u8At o.bytes 25
        + 1 else 1);
      let nb : ℕ := srcBBytes 21 n (u8At o.bytes 24);
      let rb : Machine.State × Access := if nb = 0 then (ra.1, Access.ok []) else ra.1.vecSource uid t.inst m.unit (u32At o.bytes 12) nb 0 1;
      (ra.2.status = St.ok) ∧ (rb.2.status = St.ok)) ∧
    (∃ (s : Machine.State) (uid : ℕ) (st : ℕ) (op : ℕ) (t : Step) (m : Machine.Stream) (o : Op), (s.op? uid st op = some (t, m, o)) ∧ (s.running =
      true) ∧ (o.stage = 1) ∧ (o.code = 21) ∧
      let n : ℕ := u32At o.bytes 20;
      let ra : Machine.State × Access := s.vecSource uid t.inst m.unit (u32At o.bytes 8) (2 * n) (u32At o.bytes 28) (if 21 = 4 then u8At o.bytes 25
        + 1 else 1);
      let nb : ℕ := srcBBytes 21 n (u8At o.bytes 24);
      (ra.2.status ≠ St.ok)) ∧
    (∃ (s : Machine.State) (uid : ℕ) (st : ℕ) (op : ℕ) (t : Step) (m : Machine.Stream) (o : Op), (s.op? uid st op = some (t, m, o)) ∧ (s.running =
      true) ∧ (o.stage = 1) ∧ (o.code = 22) ∧
      let n : ℕ := u32At o.bytes 20;
      let ra : Machine.State × Access := s.vecSource uid t.inst m.unit (u32At o.bytes 8) (2 * n) (u32At o.bytes 28) (if 22 = 4 then u8At o.bytes 25
        + 1 else 1);
      let nb : ℕ := srcBBytes 22 n (u8At o.bytes 24);
      let rb : Machine.State × Access := if nb = 0 then (ra.1, Access.ok []) else ra.1.vecSource uid t.inst m.unit (u32At o.bytes 12) nb 0 1;
      (ra.2.status = St.ok) ∧ (rb.2.status = St.ok)) ∧
    (∃ (s : Machine.State) (uid : ℕ) (st : ℕ) (op : ℕ) (t : Step) (m : Machine.Stream) (o : Op), (s.op? uid st op = some (t, m, o)) ∧ (s.running =
      true) ∧ (o.stage = 1) ∧ (o.code = 22) ∧
      let n : ℕ := u32At o.bytes 20;
      let ra : Machine.State × Access := s.vecSource uid t.inst m.unit (u32At o.bytes 8) (2 * n) (u32At o.bytes 28) (if 22 = 4 then u8At o.bytes 25
        + 1 else 1);
      let nb : ℕ := srcBBytes 22 n (u8At o.bytes 24);
      (ra.2.status ≠ St.ok)) :=
  ⟨
    ⟨(withStep decksUp (stepOf (onCore (vecOp 3)))), (1), (0), (0), (stepOf (onCore (vecOp 3))), (onCore (vecOp 3)), (vecOp 3), by decide +kernel⟩,
    ⟨(withStep up (stepOf (onCore (vecOp 3)))), 1, 0, 0, (stepOf (onCore (vecOp 3))), (onCore (vecOp 3)), (vecOp 3), by decide +kernel⟩,
    ⟨(withStep decksUp (stepOf (onCore (vecOp 4)))), (1), (0), (0), (stepOf (onCore (vecOp 4))), (onCore (vecOp 4)), (vecOp 4), by decide +kernel⟩,
    ⟨(withStep up (stepOf (onCore (vecOp 4)))), 1, 0, 0, (stepOf (onCore (vecOp 4))), (onCore (vecOp 4)), (vecOp 4), by decide +kernel⟩,
    ⟨(withStep decksUp (stepOf (onCore (vecOp 0x10)))), (1), (0), (0), (stepOf (onCore (vecOp 0x10))), (onCore (vecOp 0x10)), (vecOp 0x10),
      by decide +kernel⟩,
    ⟨(withStep up (stepOf (onCore (vecOp 0x10)))), (1), (0), (0), (stepOf (onCore (vecOp 0x10))), (onCore (vecOp 0x10)), (vecOp 0x10),
      by decide +kernel⟩,
    ⟨(withStep decksUp (stepOf (onCore (vecOp 0x11)))), (1), (0), (0), (stepOf (onCore (vecOp 0x11))), (onCore (vecOp 0x11)), (vecOp 0x11),
      by decide +kernel⟩,
    ⟨(withStep up (stepOf (onCore (vecOp 17)))), 1, 0, 0, (stepOf (onCore (vecOp 17))), (onCore (vecOp 17)), (vecOp 17), by decide +kernel⟩,
    ⟨(withStep decksUp (stepOf (onCore (vecOp 0x12)))), (1), (0), (0), (stepOf (onCore (vecOp 0x12))), (onCore (vecOp 0x12)), (vecOp 0x12),
      by decide +kernel⟩,
    ⟨(withStep up (stepOf (onCore (vecOp 18)))), 1, 0, 0, (stepOf (onCore (vecOp 18))), (onCore (vecOp 18)), (vecOp 18), by decide +kernel⟩,
    ⟨(withStep decksUp (stepOf (onCore (vecOp 0x13)))), (1), (0), (0), (stepOf (onCore (vecOp 0x13))), (onCore (vecOp 0x13)), (vecOp 0x13),
      by decide +kernel⟩,
    ⟨(withStep up (stepOf (onCore (vecOp 19)))), 1, 0, 0, (stepOf (onCore (vecOp 19))), (onCore (vecOp 19)), (vecOp 19), by decide +kernel⟩,
    ⟨(withStep decksUp (stepOf (onCore (vecOp 0x14)))), (1), (0), (0), (stepOf (onCore (vecOp 0x14))), (onCore (vecOp 0x14)), (vecOp 0x14),
      by decide +kernel⟩,
    ⟨(withStep up (stepOf (onCore (vecOp 20)))), 1, 0, 0, (stepOf (onCore (vecOp 20))), (onCore (vecOp 20)), (vecOp 20), by decide +kernel⟩,
    ⟨(withStep decksUp (stepOf (onCore (vecOp 0x15)))), (1), (0), (0), (stepOf (onCore (vecOp 0x15))), (onCore (vecOp 0x15)), (vecOp 0x15),
      by decide +kernel⟩,
    ⟨(withStep up (stepOf (onCore (vecOp 21)))), 1, 0, 0, (stepOf (onCore (vecOp 21))), (onCore (vecOp 21)), (vecOp 21), by decide +kernel⟩,
    ⟨(withStep decksUp (stepOf (onCore (vecOp 0x16)))), (1), (0), (0), (stepOf (onCore (vecOp 0x16))), (onCore (vecOp 0x16)), (vecOp 0x16),
      by decide +kernel⟩,
    ⟨(withStep up (stepOf (onCore (vecOp 22)))), 1, 0, 0, (stepOf (onCore (vecOp 22))), (onCore (vecOp 22)), (vecOp 22), by decide +kernel⟩⟩

theorem witness_VectorArithmetic :
    (∃ (x : ℤ) (y : ℤ), (-32768 ≤ x ∧ x ≤ 32767) ∧ (-32768 ≤ y ∧ y ≤ 32767)) :=
  ⟨(-32768), (32767), by decide +kernel⟩

theorem witness_MovesAndEntries :
    (∃ (s : Machine.State) (uid : ℕ) (st : ℕ) (op : ℕ) (t : Step) (m : Machine.Stream) (o : Op) (r : ℕ × ℕ × ℕ × List ℕ), (s.op? uid st op = some
      (t, m, o)) ∧ (s.running = true) ∧ (o.stage = 2) ∧ (isVector o.code = true) ∧ (s.mayWrite t = true) ∧ (o.result = [r]) ∧ (r.1 = 0) ∧
      let w : Machine.State × Access := s.sramWrite 0 t.inst r.2.1 r.2.2.1 r.2.2.2;
      (w.2.status = St.ok)) ∧
    (∃ (s : Machine.State) (uid : ℕ) (st : ℕ) (op : ℕ) (t : Step) (m : Machine.Stream) (o : Op), (s.op? uid st op = some (t, m, o)) ∧ (s.running =
      true) ∧ (o.stage = 1) ∧ (o.code = 32) ∧
      let src : ℕ := u64At o.bytes 8;
      let r : Machine.State × Access := s.readSpace t.inst (locSpace src) (t.locUnit src) (locOff src) (u32At o.bytes 24);
      (r.2.status = St.ok)) ∧
    (∃ (s : Machine.State) (uid : ℕ) (st : ℕ) (op : ℕ) (t : Step) (m : Machine.Stream) (o : Op) (r : ℕ × ℕ × ℕ × List ℕ), (s.op? uid st op = some
      (t, m, o)) ∧ (s.running = true) ∧ (o.stage = 2) ∧ (o.code = 32) ∧ (o.result = [r]) ∧ (r.1 ≤ 2) ∧ ((s.inst t.inst).gen = t.gen) ∧ (s.moveOpen t
      m st op o = true) ∧ (r.1 = 2 → s.mirrorOf t.inst r.2.1 = none) ∧
      let w : Machine.State × Access := s.writeSpace t.inst r.1 r.2.1 r.2.2.1 r.2.2.2;
      (w.2.status = St.ok)) ∧
    (∃ (s : Machine.State) (uid : ℕ) (st : ℕ) (op : ℕ) (t : Step) (m : Machine.Stream) (o : Op) (e : Entry), (s.op? uid st op = some (t, m, o)) ∧
      (s.running = true) ∧ (o.stage = 1) ∧ (o.code = 33) ∧ (t.entries[u32At o.bytes 8]? = some e)) ∧
    (∃ (s : Machine.State) (uid : ℕ) (k : ℕ) (t : Step) (e : Entry), (s.entry? uid k = some (t, e)) ∧ (s.mayIssue t k e = true)) ∧
    (∃ (s : Machine.State) (uid : ℕ) (k : ℕ) (t : Step) (e : Entry), (s.running = true) ∧ (s.entry? uid k = some (t, e)) ∧ (e.st = 1) ∧ (e.isTile =
      false) ∧ (s.old t = false) ∧ (s.entryTokens t k e = true) ∧ (s.sourceReady t k e (u64At e.bytes 16) (u32At e.bytes 28) = true) ∧
      let r : Machine.State × Access := s.copyBlocks t.inst e 0 (u32At e.bytes 28 / 64);
      (r.2.status = St.ok)) ∧
    (∃ (s : Machine.State) (uid : ℕ) (k : ℕ) (t : Step) (e : Entry), (s.running = true) ∧ (s.entry? uid k = some (t, e)) ∧ (s.tileThere t k e =
      true) ∧ (s.old t = false) ∧
      let r : Machine.State × Access := s.readSource t.inst e e.tileAt (16 + tilePayload (u8At e.bytes 44) (u8At e.bytes 45));
      (r.2.status = St.ok) ∧ (e.reread = false) ∧ (s.mayStart 2 = true) ∧ (s.gateTokens e.cluster = true)) ∧
    (∃ (s : Machine.State) (uid : ℕ) (k : ℕ) (t : Step) (e : Entry), (s.running = true) ∧ (s.entry? uid k = some (t, e)) ∧ (s.tileThere t k e =
      true) ∧ (s.old t = false) ∧
      let r : Machine.State × Access := s.readSource t.inst e e.tileAt (16 + tilePayload (u8At e.bytes 44) (u8At e.bytes 45));
      (r.2.status = St.ok) ∧ (e.reread = true)) :=
  ⟨
    ⟨(withStep decksUp (stepOf (onCore (held (vecOp 3) (0, 0, 0, [1, 2]))))), (1), (0), (0), (stepOf (onCore (held (vecOp 3) (0, 0, 0, [1, 2])))),
      (onCore (held (vecOp 3) (0, 0, 0, [1, 2]))), (held (vecOp 3) (0, 0, 0, [1, 2])), ((0, 0, 0, [1, 2])), by decide +kernel⟩,
    ⟨(withStep decksUp (stepOf (onCore moveOp))), (1), (0), (0), (stepOf (onCore moveOp)), (onCore moveOp), moveOp, by decide +kernel⟩,
    ⟨(withStep decksUp (stepOf (onCore (held moveOp (0, 0, 0, [1, 2]))))), (1), (0), (0), (stepOf (onCore (held moveOp (0, 0, 0, [1, 2])))), (onCore
      (held moveOp (0, 0, 0, [1, 2]))), (held moveOp (0, 0, 0, [1, 2])), ((0, 0, 0, [1, 2])), by decide +kernel⟩,
    ⟨(withStep up {stepOf (onCluster (begun (opOf [(0, 0x21)]))) with entries := [entry0 0 0 false]}), (1), (0), (0), {stepOf (onCluster (begun
      (opOf [(0, 0x21)]))) with entries := [entry0 0 0 false]}, (onCluster (begun (opOf [(0, 0x21)]))), (begun (opOf [(0, 0x21)])), (entry0 0 0
      false), by decide +kernel⟩,
    ⟨(withStep up (entryStep (entry0 0 0 false))), (1), (0), (entryStep (entry0 0 0 false)), (entry0 0 0 false), by decide +kernel⟩,
    ⟨(withStep (tagged up 1) (entryStep (entry0 0 1 false))), (1), (0), (entryStep (entry0 0 1 false)), (entry0 0 1 false), by decide +kernel⟩,
    ⟨(withStep (up.hostStore 0 tile0) (entryStep (entry0 1 1 false))), (1), (0), (entryStep (entry0 1 1 false)), (entry0 1 1 false),
      by decide +kernel⟩,
    ⟨(withStep (up.hostStore 0 tile0) (entryStep (entry0 1 1 true))), (1), (0), (entryStep (entry0 1 1 true)), (entry0 1 1 true), by decide +kernel⟩⟩

theorem witness_PrecisionEngines :
    (∃ (s : Machine.State) (uid : ℕ) (st : ℕ) (op : ℕ) (t : Step) (m : Machine.Stream) (o : Op) (p : List ℕ), (s.op? uid st op = some (t, m, o)) ∧
      (s.running = true) ∧ (o.stage = 1) ∧ (o.code = 48 + fMatmul / 8) ∧ (o.func = fMatmul % 8) ∧ (t.params[u32At o.bytes 12]? = some p) ∧ (peFromT2
      fMatmul p = true → s.heldTo (dieOf m.unit) 8 = false ∧ s.power.closed.contains 8 = false)) ∧
    (∃ (s : Machine.State) (uid : ℕ) (st : ℕ) (op : ℕ) (t : Step) (m : Machine.Stream) (o : Op) (p : List ℕ), (s.op? uid st op = some (t, m, o)) ∧
      (s.running = true) ∧ (o.stage = 1) ∧ (o.code = 48 + fBatched / 8) ∧ (o.func = fBatched % 8) ∧ (t.params[u32At o.bytes 12]? = some p) ∧
      (peFromT2 fBatched p = true → s.heldTo (dieOf m.unit) 8 = false ∧ s.power.closed.contains 8 = false)) ∧
    (∃ (s : Machine.State) (uid : ℕ) (st : ℕ) (op : ℕ) (t : Step) (m : Machine.Stream) (o : Op) (p : List ℕ), (s.op? uid st op = some (t, m, o)) ∧
      (s.running = true) ∧ (o.stage = 1) ∧ (o.code = 48 + fGather / 8) ∧ (o.func = fGather % 8) ∧ (t.params[u32At o.bytes 12]? = some p) ∧ (peFromT2
      fGather p = true → s.heldTo (dieOf m.unit) 8 = false ∧ s.power.closed.contains 8 = false)) ∧
    (∃ (s : Machine.State) (uid : ℕ) (st : ℕ) (op : ℕ) (t : Step) (m : Machine.Stream) (o : Op) (p : List ℕ), (s.op? uid st op = some (t, m, o)) ∧
      (s.running = true) ∧ (o.stage = 1) ∧ (o.code = 48 + fScatter / 8) ∧ (o.func = fScatter % 8) ∧ (t.params[u32At o.bytes 12]? = some p) ∧
      (peFromT2 fScatter p = true → s.heldTo (dieOf m.unit) 8 = false ∧ s.power.closed.contains 8 = false)) ∧
    (∃ (s : Machine.State) (uid : ℕ) (st : ℕ) (op : ℕ) (t : Step) (m : Machine.Stream) (o : Op) (p : List ℕ), (s.op? uid st op = some (t, m, o)) ∧
      (s.running = true) ∧ (o.stage = 1) ∧ (o.code = 48 + fScatterAdd / 8) ∧ (o.func = fScatterAdd % 8) ∧ (t.params[u32At o.bytes 12]? = some p) ∧
      (peFromT2 fScatterAdd p = true → s.heldTo (dieOf m.unit) 8 = false ∧ s.power.closed.contains 8 = false)) ∧
    (∃ (s : Machine.State) (uid : ℕ) (st : ℕ) (op : ℕ) (t : Step) (m : Machine.Stream) (o : Op) (p : List ℕ), (s.op? uid st op = some (t, m, o)) ∧
      (s.running = true) ∧ (o.stage = 1) ∧ (o.code = 48 + fQk / 8) ∧ (o.func = fQk % 8) ∧ (t.params[u32At o.bytes 12]? = some p) ∧ (peFromT2 fQk p =
      true → s.heldTo (dieOf m.unit) 8 = false ∧ s.power.closed.contains 8 = false)) ∧
    (∃ (s : Machine.State) (uid : ℕ) (st : ℕ) (op : ℕ) (t : Step) (m : Machine.Stream) (o : Op) (p : List ℕ), (s.op? uid st op = some (t, m, o)) ∧
      (s.running = true) ∧ (o.stage = 1) ∧ (o.code = 48 + fAv / 8) ∧ (o.func = fAv % 8) ∧ (t.params[u32At o.bytes 12]? = some p) ∧ (peFromT2 fAv p =
      true → s.heldTo (dieOf m.unit) 8 = false ∧ s.power.closed.contains 8 = false)) ∧
    (∃ (s : Machine.State) (uid : ℕ) (st : ℕ) (op : ℕ) (t : Step) (m : Machine.Stream) (o : Op) (p : List ℕ), (s.op? uid st op = some (t, m, o)) ∧
      (s.running = true) ∧ (o.stage = 1) ∧ (o.code = 48 + fRope / 8) ∧ (o.func = fRope % 8) ∧ (t.params[u32At o.bytes 12]? = some p) ∧ (peFromT2
      fRope p = true → s.heldTo (dieOf m.unit) 8 = false ∧ s.power.closed.contains 8 = false)) ∧
    (∃ (s : Machine.State) (uid : ℕ) (st : ℕ) (op : ℕ) (t : Step) (m : Machine.Stream) (o : Op) (p : List ℕ), (s.op? uid st op = some (t, m, o)) ∧
      (s.running = true) ∧ (o.stage = 1) ∧ (o.code = 48 + fRms / 8) ∧ (o.func = fRms % 8) ∧ (t.params[u32At o.bytes 12]? = some p) ∧ (peFromT2 fRms
      p = true → s.heldTo (dieOf m.unit) 8 = false ∧ s.power.closed.contains 8 = false)) ∧
    (∃ (s : Machine.State) (uid : ℕ) (st : ℕ) (op : ℕ) (t : Step) (m : Machine.Stream) (o : Op) (p : List ℕ), (s.op? uid st op = some (t, m, o)) ∧
      (s.running = true) ∧ (o.stage = 1) ∧ (o.code = 48 + fLayer / 8) ∧ (o.func = fLayer % 8) ∧ (t.params[u32At o.bytes 12]? = some p) ∧ (peFromT2
      fLayer p = true → s.heldTo (dieOf m.unit) 8 = false ∧ s.power.closed.contains 8 = false)) ∧
    (∃ (s : Machine.State) (uid : ℕ) (st : ℕ) (op : ℕ) (t : Step) (m : Machine.Stream) (o : Op) (p : List ℕ), (s.op? uid st op = some (t, m, o)) ∧
      (s.running = true) ∧ (o.stage = 1) ∧ (o.code = 48 + fSoftmax / 8) ∧ (o.func = fSoftmax % 8) ∧ (t.params[u32At o.bytes 12]? = some p) ∧
      (peFromT2 fSoftmax p = true → s.heldTo (dieOf m.unit) 8 = false ∧ s.power.closed.contains 8 = false)) ∧
    (∃ (s : Machine.State) (uid : ℕ) (st : ℕ) (op : ℕ) (t : Step) (m : Machine.Stream) (o : Op) (p : List ℕ), (s.op? uid st op = some (t, m, o)) ∧
      (s.running = true) ∧ (o.stage = 1) ∧ (o.code = 48 + fTopk / 8) ∧ (o.func = fTopk % 8) ∧ (t.params[u32At o.bytes 12]? = some p) ∧ (peFromT2
      fTopk p = true → s.heldTo (dieOf m.unit) 8 = false ∧ s.power.closed.contains 8 = false)) ∧
    (∃ (s : Machine.State) (cl : ℕ) (r : PeRun) (b : PeBlock) (rest : List PeBlock) (t : Step) (m : Machine.Stream) (o : Op), (cl < 256) ∧
      (s.running = true) ∧ (s.peRun? cl = some r) ∧ (r.blocks = b :: rest) ∧ (s.op? r.step r.stream r.op = some (t, m, o)) ∧ (b.steps ≠ 0) ∧
      (s.peStopped t = false) ∧ (s.gateTokens cl = true) ∧ (r.ran + 1 < b.steps)) ∧
    (∃ (s : Machine.State) (cl : ℕ) (r : PeRun) (b : PeBlock) (rest : List PeBlock) (t : Step) (m : Machine.Stream) (o : Op), (cl < 256) ∧
      (s.running = true) ∧ (s.peRun? cl = some r) ∧ (r.blocks = b :: rest) ∧ (s.op? r.step r.stream r.op = some (t, m, o)) ∧ (b.steps ≠ 0) ∧
      (s.peStopped t = false) ∧ (s.gateTokens cl = true) ∧ (b.steps ≤ r.ran + 1)) ∧
    (∃ (s : Machine.State) (cl : ℕ) (r : PeRun) (t : Step) (m : Machine.Stream) (o : Op), (cl < 256) ∧ (s.running = true) ∧ (s.peRun? cl = some r) ∧
      (s.op? r.step r.stream r.op = some (t, m, o)) ∧ (s.peStopped t = false) ∧ ((r.blocks.any fun b => b.steps != 0) = false) ∧ (r.fail = St.ok)) :=
  ⟨
    ⟨(withStep up (peStep 0)), (1), (0), (0), (peStep 0), (onCluster (peOp 0)), (peOp 0), (bytesAt 64 []), by decide +kernel⟩,
    ⟨(withStep up (peStep 1)), (1), (0), (0), (peStep 1), (onCluster (peOp 1)), (peOp 1), (bytesAt 64 []), by decide +kernel⟩,
    ⟨(withStep up (peStep 2)), (1), (0), (0), (peStep 2), (onCluster (peOp 2)), (peOp 2), (bytesAt 64 []), by decide +kernel⟩,
    ⟨(withStep up (peStep 3)), (1), (0), (0), (peStep 3), (onCluster (peOp 3)), (peOp 3), (bytesAt 64 []), by decide +kernel⟩,
    ⟨(withStep up (peStep 4)), (1), (0), (0), (peStep 4), (onCluster (peOp 4)), (peOp 4), (bytesAt 64 []), by decide +kernel⟩,
    ⟨(withStep up (peStep 8)), (1), (0), (0), (peStep 8), (onCluster (peOp 8)), (peOp 8), (bytesAt 64 []), by decide +kernel⟩,
    ⟨(withStep up (peStep 9)), (1), (0), (0), (peStep 9), (onCluster (peOp 9)), (peOp 9), (bytesAt 64 []), by decide +kernel⟩,
    ⟨(withStep up (peStep 10)), (1), (0), (0), (peStep 10), (onCluster (peOp 10)), (peOp 10), (bytesAt 64 []), by decide +kernel⟩,
    ⟨(withStep up (peStep 16)), (1), (0), (0), (peStep 16), (onCluster (peOp 16)), (peOp 16), (bytesAt 64 []), by decide +kernel⟩,
    ⟨(withStep up (peStep 17)), (1), (0), (0), (peStep 17), (onCluster (peOp 17)), (peOp 17), (bytesAt 64 []), by decide +kernel⟩,
    ⟨(withStep up (peStep 24)), (1), (0), (0), (peStep 24), (onCluster (peOp 24)), (peOp 24), (bytesAt 64 []), by decide +kernel⟩,
    ⟨(withStep up (peStep 25)), (1), (0), (0), (peStep 25), (onCluster (peOp 25)), (peOp 25), (bytesAt 64 []), by decide +kernel⟩,
    ⟨({ withStep up (peStep 0) with pe := [(0, peRun [⟨2, [], 0, 0, 0⟩])] }), (0), (peRun [⟨2, [], 0, 0, 0⟩]), ⟨2, [], 0, 0, 0⟩, ([]), (peStep 0),
      (onCluster (peOp 0)), (peOp 0), by decide +kernel⟩,
    ⟨({ withStep up (peStep 0) with pe := [(0, peRun [⟨1, [], 0, 0, 0⟩])] }), (0), (peRun [⟨1, [], 0, 0, 0⟩]), ⟨1, [], 0, 0, 0⟩, ([]), (peStep 0),
      (onCluster (peOp 0)), (peOp 0), by decide +kernel⟩,
    ⟨({ withStep up (peStep 16) with pe := [(0, peRun [⟨0, [], 0, 0, 0⟩])] }), (0), (peRun [⟨0, [], 0, 0, 0⟩]), (peStep 16), (onCluster (peOp 16)),
      (peOp 16), by decide +kernel⟩⟩

theorem witness_PegCommands :
    (∃ (s : Machine.State) (uid : ℕ) (st : ℕ) (op : ℕ) (set : Bool) (t : Step) (m : Machine.Stream) (o : Op), (s.op? uid st op = some (t, m, o)) ∧
      (s.running = true) ∧ (o.stage = 1) ∧ (o.code = if set = true then 65 else 64) ∧ ((s.inst t.inst).gen = t.gen) ∧
      let l : PegLoc := t.planLoc (t.planEntry o);
      (l.tier ≠ 3) ∧ (s.blockedFor (uid, st, op) (dieOf m.clusterNo) (pegDomain l) = false) ∧ (s.pegPoisoned t.inst l = false)) ∧
    (∃ (s : Machine.State) (uid : ℕ) (st : ℕ) (op : ℕ) (set : Bool) (t : Step) (m : Machine.Stream) (o : Op), (s.op? uid st op = some (t, m, o)) ∧
      (s.running = true) ∧ (o.stage = 1) ∧ (o.code = if set = true then 65 else 64) ∧ ((s.inst t.inst).gen = t.gen) ∧
      let l : PegLoc := t.planLoc (t.planEntry o);
      (l.tier = 3)) ∧
    (∃ (s : Machine.State) (uid : ℕ) (st : ℕ) (op : ℕ) (ge : Bool) (t : Step) (m : Machine.Stream) (o : Op), (s.op? uid st op = some (t, m, o)) ∧
      (s.running = true) ∧ (o.stage = 1) ∧ (o.code = if ge = true then 66 else 67) ∧ ((s.inst t.inst).gen = t.gen) ∧
      let l : PegLoc := t.planLoc (t.planEntry o);
      (s.blockedFor (uid, st, op) (dieOf m.clusterNo) (pegDomain l) = false) ∧ (s.pegPoisoned t.inst l = false)) ∧
    (∃ (s : Machine.State) (uid : ℕ) (st : ℕ) (op : ℕ) (t : Step) (m : Machine.Stream) (o : Op), (s.op? uid st op = some (t, m, o)) ∧ (s.running =
      true) ∧ (o.stage = 1) ∧ (o.code = 0)) ∧
    (∃ (s : Machine.State) (f : ℕ) (w : ℕ) (d : Desc), (f ≤ 16) ∧ (w < 16) ∧ (s.begin f w 7 = some d) ∧ (s.descPegPasses f w = true) ∧
      let s1 : Machine.State := s.started d.uid;
      let l : PegLoc := descPeg d.bytes;
      (l.tier ≠ 3) ∧ (s1.pegAllowed d.inst l = true) ∧ (s1.power.closed.contains (pegDomain l) = false) ∧ (s1.pegPoisoned d.inst l = false)) ∧
    (∃ (s : Machine.State) (f : ℕ) (w : ℕ) (d : Desc), (f ≤ 16) ∧ (w < 16) ∧ (s.begin f w 8 = some d) ∧ (s.descPegPasses f w = true) ∧
      let s1 : Machine.State := s.started d.uid;
      let l : PegLoc := descPeg d.bytes;
      (l.tier ≠ 3) ∧ (l.tier = 2 → s1.mirrorOf d.inst l.unit = none) ∧ (s1.pegAllowed d.inst l = true) ∧ (s1.power.closed.contains (pegDomain l) =
        false) ∧ (s1.pegPoisoned d.inst l = false)) ∧
    (∃ (s : Machine.State) (n : ℕ) (r : Retry), (s.hubUp = true) ∧ (s.pegs.retries[n]? = some r) ∧ (r.at_ ≤ s.now) ∧ (s.heldTo (s.waitSide r.wait)
      (pegDomain { tier := r.wait.tier, unit := r.wait.unit, addr := r.wait.addr }) = false)) ∧
    (∃ (s : Machine.State) (i : ℕ) (w : Wait), (i ≤ 16) ∧ (s.hubUp = true) ∧ (s.pegs.waits = [w]) ∧ (w.inst = i) ∧ (s.pegs.retries = []) ∧ (w.desc =
      none) ∧ (List.filter (fun t => t.inst == i && t.bound) s.steps = []) ∧ (s.wdNs i < w.age)) :=
  ⟨
    ⟨(withStep pegsUp (pegStep 0 0x40)), (1), (0), (0), (false), (pegStep 0 0x40), (onCore (begun (opOf [(0, 0x40), (0x10, 7)]))), (begun (opOf [(0,
      0x40), (0x10, 7)])), by decide +kernel⟩,
    ⟨(withStep pegsUp (pegStep 3 0x41)), (1), (0), (0), (true), (pegStep 3 0x41), (onCore (begun (opOf [(0, 0x41), (0x10, 7)]))), (begun (opOf [(0,
      0x41), (0x10, 7)])), by decide +kernel⟩,
    ⟨(withStep pegsUp (pegStep 0 0x42)), (1), (0), (0), (true), (pegStep 0 0x42), (onCore (begun (opOf [(0, 0x42), (0x10, 7)]))), (begun (opOf [(0,
      0x42), (0x10, 7)])), by decide +kernel⟩,
    ⟨(withStep up (stepOf (onCore (begun (opOf []))))), (1), (0), (0), (stepOf (onCore (begun (opOf [])))), (onCore (begun (opOf []))), (begun (opOf
      [])), by decide +kernel⟩,
    ⟨(holding pegsUp (desc [(0, 7), (0x20, 1)])), (0), (0), (desc [(0, 7), (0x20, 1)]), by decide +kernel⟩,
    ⟨(holding pegsUp (desc [(0, 8), (0x20, 1)])), (0), (0), (desc [(0, 8), (0x20, 1)]), by decide +kernel⟩,
    ⟨({ up with pegs := { up.pegs with retries := [⟨wait0 0, 0⟩] } }), (0), ⟨wait0 0, 0⟩, by decide +kernel⟩,
    ⟨({ up with pegs := { up.pegs with waits := [wait0 250000001] } }), (0), (wait0 250000001), by decide +kernel⟩⟩

theorem witness_PegArithmetic :
    (∃ (old : ℕ) (v : ℕ), (old < 2 ^ 64) ∧ (v < 2 ^ 64)) :=
  ⟨(2 ^ 64 - 1), 1, by decide +kernel⟩

theorem witness_PegOpOnT0 :
    (∃ (s : Machine.State) (core : ℕ) (n : ℕ) (c : ℕ) (m : ℕ), (n < 256) ∧ (core < nCores) ∧ (∀ w ∈ s.pegs.waits, ¬(w.tier = 0 ∧ w.unit = core ∧
      w.addr = n)) ∧
      let l : PegLoc := { tier := 0, unit := core, addr := n };
      (m < 256) ∧ (c ≠ core ∨ m ≠ n)) :=
  ⟨{ up with pegs := { up.pegs with waits := [wait0 0] } }, 6143, 255, 0, 254, by decide +kernel⟩

theorem witness_AliasesAndSnapshot :
    (∃ (s : Machine.State) (f : ℕ) (a : ℕ) (v : ℕ), (f ≤ 16) ∧ (a < 64) ∧ (s.steady = true) ∧ ((s.inst f).st ≠ InstState.parked) ∧ (v < 2 ^ 64) ∧
      let l : PegLoc := s.aliasLoc f a;
      (s.aliasOk f a = true) ∧ (s.power.closed.contains (pegDomain l) = false) ∧ (s.heldTo hubSide (pegDomain l) = false)) ∧
    (∃ (s : Machine.State) (f : ℕ) (a : ℕ) (v : ℕ), (f ≤ 16) ∧ (a < 64) ∧ (s.steady = true) ∧ ((s.inst f).st ≠ InstState.parked) ∧ (v < 2 ^ 64) ∧
      (s.aliasOk f a = false)) ∧
    (∃ (s : Machine.State), (s.steady = true) ∧ (∀ (l : PegLoc), s.selPeg = some l → s.isPeg l = false)) :=
  ⟨
    ⟨aliasUp, (0), (0), (5), by decide +kernel⟩,
    ⟨up, (16), (63), (5), by decide +kernel⟩,
    ⟨(up.wr R.PEG_SEL_TIER 3), by decide +kernel⟩⟩

theorem witness_Buffers :
    (∃ (s : Machine.State) (f : ℕ) (w : ℕ) (d : Desc) (k : ℕ), (f ≤ 16) ∧ (w < 16) ∧ (s.begin f w 3 = some d) ∧
      let s0 : Machine.State := s.started d.uid;
      let b : List ℕ := d.bytes;
      let tier : ℕ := u8At b 16;
      let size : ℕ := unitsFor tier (u64At b 24) * quotaUnit tier;
      let g : ℕ := (s0.buf k).gen;
      (s0.allocStatus d.inst b = St.ok) ∧ (s0.nextIndex = some k) ∧ (tier < 2)) ∧
    (∃ (s : Machine.State) (f : ℕ) (w : ℕ) (d : Desc) (k : ℕ), (f ≤ 16) ∧ (w < 16) ∧ (s.begin f w 3 = some d) ∧
      let s0 : Machine.State := s.started d.uid;
      let b : List ℕ := d.bytes;
      let tier : ℕ := u8At b 16;
      let size : ℕ := unitsFor tier (u64At b 24) * quotaUnit tier;
      let g : ℕ := (s0.buf k).gen;
      (s0.allocStatus d.inst b = St.ok) ∧ (s0.nextIndex = some k) ∧ (tier = 2) ∧ (bit (u8At b 17) 0 = false)) ∧
    (∃ (s : Machine.State) (f : ℕ) (w : ℕ) (d : Desc) (k : ℕ), (f ≤ 16) ∧ (w < 16) ∧ (s.begin f w 3 = some d) ∧
      let s0 : Machine.State := s.started d.uid;
      let b : List ℕ := d.bytes;
      let tier : ℕ := u8At b 16;
      let size : ℕ := unitsFor tier (u64At b 24) * quotaUnit tier;
      let g : ℕ := (s0.buf k).gen;
      (s0.allocStatus d.inst b = St.ok) ∧ (s0.nextIndex = some k) ∧ (tier = 2) ∧ (bit (u8At b 17) 0 = true)) ∧
    (∃ (s : Machine.State) (uid : ℕ) (z : ℕ × ℕ) (d : Desc), (s.hubUp = true) ∧ (List.find? (fun z => z.1 == uid) s.mem.zeroing = some z) ∧ (s.desc?
      uid = some d)) ∧
    (∃ (s : Machine.State) (f : ℕ) (w : ℕ) (d : Desc), (f ≤ 16) ∧ (w < 16) ∧ (s.begin f w 4 = some d) ∧
      let s0 : Machine.State := s.started d.uid;
      let h : ℕ := u32At d.bytes 16;
      (s0.live h = none)) ∧
    (∃ (s : Machine.State) (f : ℕ) (w : ℕ) (d : Desc) (b : Buf), (f ≤ 16) ∧ (w < 16) ∧ (s.begin f w 4 = some d) ∧
      let s0 : Machine.State := s.started d.uid;
      let h : ℕ := u32At d.bytes 16;
      (s0.live h = some b) ∧ (b.owner ≠ d.inst)) ∧
    (∃ (s : Machine.State) (f : ℕ) (w : ℕ) (d : Desc) (b : Buf), (f ≤ 16) ∧ (w < 16) ∧ (s.begin f w 4 = some d) ∧
      let s0 : Machine.State := s.started d.uid;
      let h : ℕ := u32At d.bytes 16;
      (s0.live h = some b) ∧ (b.owner = d.inst) ∧ (s0.inUse h = true)) ∧
    (∃ (s : Machine.State) (f : ℕ) (w : ℕ) (d : Desc) (b : Buf), (f ≤ 16) ∧ (w < 16) ∧ (s.begin f w 4 = some d) ∧
      let s0 : Machine.State := s.started d.uid;
      let h : ℕ := u32At d.bytes 16;
      (s0.live h = some b) ∧ (b.owner = d.inst) ∧ (s0.inUse h = false)) ∧
    (∃ (s : Machine.State) (k : ℕ) (j : ℕ), ((s.buf k).pages = []) ∧ (j ≠ k)) ∧
    (∃ (s : Machine.State) (uid : ℕ) (h : ℕ) (b : Buf) (d : Desc), (s.hubUp = true) ∧ (List.find? (fun w => w.1 == uid) s.mem.freeWaits = some (uid,
      h)) ∧ (s.inUse h = false) ∧ (s.live h = some b) ∧ (s.desc? uid = some d)) :=
  ⟨
    ⟨(holding mine (desc [(0, 3), (0x10, 0), (0x18, 64)])), (0), (0), (desc [(0, 3), (0x10, 0), (0x18, 64)]), (1), by decide +kernel⟩,
    ⟨(holding mine (desc [(0, 3), (0x10, 2), (0x18, 64)])), (0), (0), (desc [(0, 3), (0x10, 2), (0x18, 64)]), (1), by decide +kernel⟩,
    ⟨(holding mine (desc [(0, 3), (0x10, 2), (0x11, 1), (0x18, 64)])), (0), (0), (desc [(0, 3), (0x10, 2), (0x11, 1), (0x18, 64)]), (1),
      by decide +kernel⟩,
    ⟨zeroS, (1), (1, 1), (desc [(0, 3), (0x10, 2), (0x11, 1)]), by decide +kernel⟩,
    ⟨(holding up (desc [(0, 4)])), (0), (0), (desc [(0, 4)]), by decide +kernel⟩,
    ⟨(holding (up.setBuf 1 { buf1 2 with owner := 1 }) (desc [(0, 4), (0x11, 1)])), (0), (0), (desc [(0, 4), (0x11, 1)]), { buf1 2 with owner := 1
      }, by decide +kernel⟩,
    ⟨{ holding (up.setBuf 1 (buf1 2)) (desc [(0, 4), (0x11, 1)]) with steps := [{ step0 with bufs := [(256, 0)] }] }, 0, 0, (desc [(0, 4), (0x11,
      1)]), (buf1 2), by decide +kernel⟩,
    ⟨(holding (up.setBuf 1 (buf1 2)) (desc [(0, 4), (0x11, 1)])), 0, 0, (desc [(0, 4), (0x11, 1)]), (buf1 2), by decide +kernel⟩,
    ⟨(up.setBuf 1 (buf1 0)), (1), (2), by decide +kernel⟩,
    ⟨({ holding (up.setBuf 1 (buf1 0)) (desc [(0, 4), (0x11, 1)]) with mem := { (up.setBuf 1 (buf1 0)).mem with freeWaits := [(1, 256)] } }), (1),
      (256), (buf1 0), (desc [(0, 4), (0x11, 1)]), by decide +kernel⟩⟩

theorem witness_DmaCopies :
    (∃ (s : Machine.State) (f : ℕ) (w : ℕ) (d : Desc), (f ≤ 16) ∧ (w < 16) ∧ (s.begin f w 2 = some d) ∧
      let s0 : Machine.State := s.started d.uid;
      let j : DmaJob := dmaJob d;
      let ok : Bool := s0.sideOk d.inst j.srcSpace j.srcUnit j.srcOff j.len && s0.sideOk d.inst j.dstSpace j.dstUnit j.dstOff j.len;
      (ok = true)) ∧
    (∃ (s : Machine.State) (f : ℕ) (w : ℕ) (d : Desc), (f ≤ 16) ∧ (w < 16) ∧ (s.begin f w 2 = some d) ∧
      let s0 : Machine.State := s.started d.uid;
      let j : DmaJob := dmaJob d;
      let ok : Bool := s0.sideOk d.inst j.srcSpace j.srcUnit j.srcOff j.len && s0.sideOk d.inst j.dstSpace j.dstUnit j.dstOff j.len;
      (ok = false)) ∧
    (∃ (s : Machine.State) (uid : ℕ) (j : DmaJob) (d : Desc), (s.hubUp = true) ∧ (s.dmaSent uid = false) ∧ (List.find? (fun j => j.desc == uid)
      s.rings.dma = some j) ∧ (s.desc? uid = some d) ∧ (s.dmaMirror d.inst j = none) ∧
      let u : Machine.State := s.dmaServe uid (s.dmaTurns j);
      (List.find? (fun k => k.desc == uid) u.rings.dma = none)) ∧
    (∃ (s : Machine.State) (uid : ℕ) (j : DmaJob) (d : Desc) (k : DmaJob), (s.hubUp = true) ∧ (s.dmaSent uid = false) ∧ (List.find? (fun j => j.desc
      == uid) s.rings.dma = some j) ∧ (s.desc? uid = some d) ∧ (s.dmaMirror d.inst j = none) ∧
      let u : Machine.State := s.dmaServe uid (s.dmaTurns j);
      (List.find? (fun k => k.desc == uid) u.rings.dma = some k) ∧ (k.moved < k.len ∨ u.dmaPegPasses d.inst k = false ∨ u.hostAcked d.inst = false)) ∧
    (∃ (s : Machine.State) (uid : ℕ) (j : DmaJob) (d : Desc) (k : DmaJob), (s.hubUp = true) ∧ (s.dmaSent uid = false) ∧ (List.find? (fun j => j.desc
      == uid) s.rings.dma = some j) ∧ (s.desc? uid = some d) ∧ (s.dmaMirror d.inst j = none) ∧
      let u : Machine.State := s.dmaServe uid (s.dmaTurns j);
      (List.find? (fun k => k.desc == uid) u.rings.dma = some k) ∧ (k.len ≤ k.moved) ∧ (u.hostAcked d.inst = true) ∧ (k.pegAlias = none)) ∧
    (∃ (s : Machine.State) (uid : ℕ) (j : DmaJob) (d : Desc) (k : DmaJob) (a : ℕ), (s.hubUp = true) ∧ (s.dmaSent uid = false) ∧ (List.find? (fun j
      => j.desc == uid) s.rings.dma = some j) ∧ (s.desc? uid = some d) ∧ (s.dmaMirror d.inst j = none) ∧
      let u : Machine.State := s.dmaServe uid (s.dmaTurns j);
      (List.find? (fun k => k.desc == uid) u.rings.dma = some k) ∧ (k.len ≤ k.moved) ∧ (u.hostAcked d.inst = true) ∧ (k.pegAlias = some a) ∧
        (u.aliasOk d.inst a = true) ∧ (u.power.closed.contains (pegDomain (u.aliasLoc d.inst a)) = false) ∧ (u.heldTo hubSide (pegDomain (u.aliasLoc
        d.inst a)) = false)) ∧
    (∃ (s : Machine.State) (j : DmaJob) (rest : List DmaJob) (d : Desc), (s.hubUp = true) ∧ (s.dmaSent j.desc = false) ∧ (s.rings.dma = j :: rest) ∧
      (s.desc? j.desc = some d) ∧ (s.dmaMirror d.inst j = none) ∧ (j.moved = 0) ∧ (0 < j.len) ∧ (j.len ≤ 65536) ∧ (s.dmaFree j j.len = true) ∧
      let r : Machine.State × ℕ × ℕ := s.dmaBlocks d.inst j 0 (j.len / 64);
      (r.2.2 = St.ok) ∧ (j.pegAlias = none) ∧ (r.1.hostAcked d.inst = true)) ∧
    (∃ (s : Machine.State) (j : DmaJob) (rest : List DmaJob) (d : Desc), (s.hubUp = true) ∧ (s.dmaSent j.desc = false) ∧ (s.rings.dma = j :: rest) ∧
      (s.desc? j.desc = some d) ∧ (s.dmaMirror d.inst j = none) ∧ (j.moved = 0) ∧ (0 < j.len) ∧ (j.len ≤ 65536) ∧ (s.dmaFree j j.len = true) ∧
      let r : Machine.State × ℕ × ℕ := s.dmaBlocks d.inst j 0 (j.len / 64);
      (r.2.2 ≠ St.ok)) :=
  ⟨
    ⟨(holding up (desc [(0, 2), (0x10, 4), (0x11, 4)])), (0), (0), (desc [(0, 2), (0x10, 4), (0x11, 4)]), by decide +kernel⟩,
    ⟨(holding up (desc [(0, 2), (0x10, 2), (0x11, 4)])), (0), (0), (desc [(0, 2), (0x10, 2), (0x11, 4)]), by decide +kernel⟩,
    ⟨{ holding up (desc [(0, 2)]) with rings := { (holding up (desc [(0, 2)])).rings with dma := [⟨1, 2, 4, 0, 0, 0, 0x100, 64, none, 0, 0⟩] } }, 1,
      ⟨1, 2, 4, 0, 0, 0, 0x100, 64, none, 0, 0⟩, (desc [(0, 2)]), by decide +kernel⟩,
    ⟨{ { holding up (desc [(0, 2)]) with rings := { (holding up (desc [(0, 2)])).rings with dma := [⟨1, 4, 4, 0, 0, 0, 0x100, 131072, none, 0, 0⟩] }
      } with power := { up.power with closed := [9] } }, 1, ⟨1, 4, 4, 0, 0, 0, 0x100, 131072, none, 0, 0⟩, (desc [(0, 2)]), ⟨1, 4, 4, 0, 0, 0,
      0x100, 131072, none, 0, 0⟩, by decide +kernel⟩,
    ⟨{ holding up (desc [(0, 2)]) with rings := { (holding up (desc [(0, 2)])).rings with dma := [⟨1, 4, 4, 0, 0, 0, 0x100, 64, none, 0, 0⟩] } }, 1,
      ⟨1, 4, 4, 0, 0, 0, 0x100, 64, none, 0, 0⟩, (desc [(0, 2)]), ⟨1, 4, 4, 0, 0, 0, 0x100, 64, none, 0, 64⟩, by decide +kernel⟩,
    ⟨{ holding aliasUp (desc [(0, 2)]) with rings := { (holding aliasUp (desc [(0, 2)])).rings with dma := [⟨1, 4, 4, 0, 0, 0, 0x100, 64, (some 0),
      1, 0⟩] } }, 1, ⟨1, 4, 4, 0, 0, 0, 0x100, 64, (some 0), 1, 0⟩, (desc [(0, 2)]), ⟨1, 4, 4, 0, 0, 0, 0x100, 64, (some 0), 1, 64⟩, 0,
      by decide +kernel⟩,
    ⟨{ holding up (desc [(0, 2)]) with rings := { (holding up (desc [(0, 2)])).rings with dma := [⟨1, 4, 4, 0, 0, 0, 0x100, 64, none, 0, 0⟩] } },
      ⟨1, 4, 4, 0, 0, 0, 0x100, 64, none, 0, 0⟩, [], (desc [(0, 2)]), by decide +kernel⟩,
    ⟨{ holding up (desc [(0, 2)]) with rings := { (holding up (desc [(0, 2)])).rings with dma := [⟨1, 2, 4, 0, 0, 0, 0x100, 64, none, 0, 0⟩] } },
      ⟨1, 2, 4, 0, 0, 0, 0x100, 64, none, 0, 0⟩, [], (desc [(0, 2)]), by decide +kernel⟩⟩

theorem witness_Scrubbing :
    (∃ (s : Machine.State) (find : ℕ), (s.scrubOn = true) ∧ (s.scrubDue = true) ∧
      let p : ℕ := s.rd R.HBM_SCRUB_STATUS_PAGE;
      let n : ℕ := p * 32768 + s.mem.scrubBlock;
      let kind : ℕ := max find (Tab.get (fun x => 0) s.mem.t2Err n);
      (s.mem.t2Bad n = true ∨ kind ≠ 1 ∧ kind ≠ 2)) ∧
    (∃ (s : Machine.State) (find : ℕ), (s.scrubOn = true) ∧ (s.scrubDue = true) ∧
      let p : ℕ := s.rd R.HBM_SCRUB_STATUS_PAGE;
      let n : ℕ := p * 32768 + s.mem.scrubBlock;
      let kind : ℕ := max find (Tab.get (fun x => 0) s.mem.t2Err n);
      (s.mem.t2Bad n = false) ∧ (kind = 1)) ∧
    (∃ (s : Machine.State) (find : ℕ), (s.scrubOn = true) ∧ (s.scrubDue = true) ∧
      let p : ℕ := s.rd R.HBM_SCRUB_STATUS_PAGE;
      let n : ℕ := p * 32768 + s.mem.scrubBlock;
      let kind : ℕ := max find (Tab.get (fun x => 0) s.mem.t2Err n);
      (s.mem.t2Bad n = false) ∧ (kind = 2)) ∧
    (∃ (s : Machine.State), (s.mem.scrubBlock + 1 < 32768)) ∧
    (∃ (s : Machine.State), (s.mem.scrubBlock + 1 = 32768) ∧ (s.rd R.HBM_SCRUB_STATUS_PAGE + 1 < 24576)) ∧
    (∃ (s : Machine.State) (p : ℕ) (q : ℕ) (k : ℕ), (p < 24576) ∧ (s.hubUp = true) ∧ (List.find? (fun m => m.1 == p) s.errs.moves = some (p, q, k))
      ∧ ((s.buf k).live = true) ∧ ((s.buf k).pages.contains p = true)) :=
  ⟨
    ⟨(up.setFlag R.HBM_SCRUB_CTRL_ENABLE true), 0, by decide +kernel⟩,
    ⟨(up.setFlag R.HBM_SCRUB_CTRL_ENABLE true), 1, by decide +kernel⟩,
    ⟨(up.setFlag R.HBM_SCRUB_CTRL_ENABLE true), 2, by decide +kernel⟩,
    ⟨(up.setFlag R.HBM_SCRUB_CTRL_ENABLE true), by decide +kernel⟩,
    ⟨{ up with mem := { up.mem with scrubBlock := 32767 } }, by decide +kernel⟩,
    ⟨({ up.setBuf 1 (buf1 2) with errs := { up.errs with moves := [(16, 17, 1)] } }), (16), (17), (1), by decide +kernel⟩⟩

theorem witness_SramContents :
    (∃ (m : Mem) (tier : ℕ) (i : ℕ) (u : ℕ) (a : ℕ) (bs : List ℕ) (k : ℕ), (tier ≤ 1) ∧ (∀ b ∈ bs, b < 256) ∧ (∀ g ∈ unitsOf 64 (sramKey tier u a)
      bs.length, (m.granule tier g).tag = i) ∧ (k < bs.length)) ∧
    (∃ (m : Mem) (tier : ℕ) (i : ℕ) (u : ℕ) (a : ℕ) (bs : List ℕ) (x : ℕ), (tier ≤ 1) ∧ (∀ b ∈ bs, b < 256) ∧ (∀ g ∈ unitsOf 64 (sramKey tier u a)
      bs.length, (m.granule tier g).tag = i) ∧ (x < sramKey tier u a ∨ sramKey tier u a + bs.length ≤ x)) ∧
    (∃ (s : Machine.State) (tier : ℕ) (i : ℕ) (u : ℕ) (a : ℕ) (bs : List ℕ), (tier ≤ 1) ∧ (bs ≠ []) ∧ (∀ g ∈ unitsOf 64 (sramKey tier u a)
      bs.length, (s.mem.granule tier g).tag ≠ i)) :=
  ⟨
    ⟨decksUp.mem, (0), (0), (0), (511), [255], (0), by decide +kernel⟩,
    ⟨decksUp.mem, (0), (0), (0), (511), [255], (16), by decide +kernel⟩,
    ⟨up, (1), (0), (0), (0), [1], by decide +kernel⟩⟩

theorem witness_T2ReadAfterWrite :
    (∃ (key : ℕ) (bs : List ℕ) (k : ℕ), (key ≠ 0) ∧ (∀ b ∈ bs, b < 256) ∧ (k < bs.length)) ∧
    (∃ (key : ℕ) (a : ℕ) (bs : List ℕ) (x : ℕ), (key ≠ 0) ∧ (∀ b ∈ bs, b < 256) ∧ (x < a ∨ a + bs.length ≤ x)) ∧
    (∃ (key : ℕ) (a : ℕ) (bs : List ℕ) (x : ℕ), (key ≠ 0) ∧ (∀ b ∈ bs, b < 256) ∧ (x / 16 ∉ unitsOf 16 a bs.length)) :=
  ⟨
    ⟨(1), [1, 255], (0), by decide +kernel⟩,
    ⟨(1), (15), [1, 255], (0), by decide +kernel⟩,
    ⟨1, 15, [1, 255], 48, by decide +kernel⟩⟩

theorem witness_ProgramAccepted :
    (∃ (s : Machine.State) (f : ℕ) (w : ℕ) (d : Desc) (rinse : Bool) (s1 : Machine.State) (j : ProgJob), (f ≤ 16) ∧ (w < 16) ∧ (s.begin f w (if
      rinse = true then 6 else 5) = some d) ∧ ((s.started d.uid).readTargets d = (s1, Sum.inr j))) ∧
    (∃ (s : Machine.State) (f : ℕ) (w : ℕ) (d : Desc) (rinse : Bool) (s1 : Machine.State) (x : ℕ × ℕ), (f ≤ 16) ∧ (w < 16) ∧ (s.begin f w (if rinse
      = true then 6 else 5) = some d) ∧ ((s.started d.uid).readTargets d = (s1, Sum.inl x))) ∧
    (∃ (s : Machine.State) (uid : ℕ) (pos : ℕ) (j : ProgJob) (t : Target), (s.target? uid pos = some (j, t)) ∧ (s.mayStart 0 = true) ∧ (s.startable
      j pos t = true) ∧ (s.turn = some j.inst) ∧
      let r : Machine.State × ℕ × List ℕ := { s with arr := { s.arr with grant := j.inst + 1 } }.checkTarget j pos t;
      (r.2.1 = St.ok)) ∧
    (∃ (s : Machine.State) (uid : ℕ) (pos : ℕ) (j : ProgJob) (t : Target), (s.target? uid pos = some (j, t)) ∧ (s.mayStart 0 = true) ∧ (s.startable
      j pos t = true) ∧ (s.turn = some j.inst) ∧
      let r : Machine.State × ℕ × List ℕ := { s with arr := { s.arr with grant := j.inst + 1 } }.checkTarget j pos t;
      (r.2.1 ≠ St.ok)) :=
  ⟨
    ⟨(holding mine (desc [(0, 5), (0x30, 1), (0x34, 3)])), (0), (0), (desc [(0, 5), (0x30, 1), (0x34, 3)]), (false), ((holding mine (desc [(0, 5),
      (0x30, 1), (0x34, 3)])).started 1), (newJob (desc [(0, 5), (0x30, 1), (0x34, 3)]) [tEntry 0]), by decide +kernel⟩,
    ⟨(holding mine (desc [(0, 6), (0x30, 1)])), (0), (0), (desc [(0, 6), (0x30, 1)]), (true), ((holding mine (desc [(0, 6), (0x30, 1)])).started 1),
      (St.descRange, 0xFFFFFFFF), by decide +kernel⟩,
    ⟨(withJob mine (job0 6 0 0)), (1), (0), (job0 6 0 0), (target0 0), by decide +kernel⟩,
    ⟨(withJob up (job0 5 1 0)), (1), (0), (job0 5 1 0), (target0 0), by decide +kernel⟩⟩

theorem witness_ClaimAndCommit :
    (∃ (s : Machine.State) (uid : ℕ) (pos : ℕ) (j : ProgJob) (t : Target), (s.target? uid pos = some (j, t)) ∧ (s.mayStart 0 = true) ∧ (t.stage = 1)
      ∧ (s.engineFree t.engine = true) ∧ (s.gapBusy t.engine = false) ∧ ((s.arr.darns.any fun x => x.engine == t.engine && x.deck != t.deck) =
      false) ∧ (t.guard = true → s.restoreEngine = []) ∧ (s.claimRefusal j t = St.ok)) ∧
    (∃ (s : Machine.State) (uid : ℕ) (pos : ℕ) (j : ProgJob) (t : Target), (s.target? uid pos = some (j, t)) ∧ (s.mayStart 0 = true) ∧ (t.stage = 1)
      ∧ (s.engineFree t.engine = true) ∧ (s.gapBusy t.engine = false) ∧ ((s.arr.darns.any fun x => x.engine == t.engine && x.deck != t.deck) =
      false) ∧ (t.guard = true → s.restoreEngine = []) ∧ (s.claimRefusal j t ≠ St.ok)) ∧
    (∃ (d : Deck) (kind : ℕ), (d.wear < 2 ^ 32 - 1) ∧ (kind = 5)) ∧
    (∃ (d : Deck) (kind : ℕ), (d.wear < 2 ^ 32 - 1) ∧ (kind ≠ 5)) ∧
    (∃ (s : Machine.State) (uid : ℕ) (pos : ℕ) (j : ProgJob) (t : Target), (s.target? uid pos = some (j, t)) ∧ (s.running = true) ∧ (t.stage = 3) ∧
      (s.engineFree t.engine = true) ∧ (s.checkToken t.engine = true) ∧ ((s.arr.darns.any fun x => x.target == some (uid, pos)) = false) ∧ (j.kind =
      6) ∧ (t.guard = false)) :=
  ⟨
    ⟨(withJob mine (job0 6 0 1)), (1), (0), (job0 6 0 1), (target0 1), by decide +kernel⟩,
    ⟨(withJob up { job0 6 0 1 with inst := 5 }), 1, 0, { job0 6 0 1 with inst := 5 }, (target0 1), by decide +kernel⟩,
    ⟨deck0, (5), by decide +kernel⟩,
    ⟨deck0, (6), by decide +kernel⟩,
    ⟨(withJob mine (job0 6 0 3)), (1), (0), (job0 6 0 3), (target0 3), by decide +kernel⟩⟩

theorem witness_PassesAndFailures :
    (∃ (s : Machine.State) (uid : ℕ) (pos : ℕ) (j : ProgJob) (t : Target) (reads : List (ℕ × ℕ × ℕ)) (v : ProgJob × Target), (s.target? uid pos =
      some (j, t)) ∧ (s.mayPass t = true) ∧ (j.kind = 6) ∧
      let u : Machine.State := (s.modTarget uid pos fun x => t).pulse j uid pos t reads;
      (u.target? uid pos = some v) ∧ (v.2.row ≠ 512)) ∧
    (∃ (s : Machine.State) (uid : ℕ) (pos : ℕ) (j : ProgJob) (t : Target) (reads : List (ℕ × ℕ × ℕ)) (v : ProgJob × Target), (s.target? uid pos =
      some (j, t)) ∧ (s.mayPass t = true) ∧ (j.kind = 6) ∧
      let u : Machine.State := (s.modTarget uid pos fun x => t).pulse j uid pos t reads;
      (u.target? uid pos = some v) ∧ (v.2.row = 512)) ∧
    (∃ (t : Target) (e : ℕ) (k : ℕ), (deckKey e k ≠ deckKey t.engine t.deck)) ∧
    (∃ (s : Machine.State), (s.hubUp = true) ∧ (s.arr.jobs = []) ∧ (s.restoreEngine = [])) ∧
    (∃ (s : Machine.State) (uid : ℕ) (pos : ℕ) (j : ProgJob) (t : Target), (s.hubUp = true) ∧ (s.job? uid = some j) ∧ (j.targets[pos]? = some t) ∧
      (j.kind = 5) ∧ (bit j.flags 0 = true) ∧ (1 ≤ t.stage) ∧ (t.stage ≤ 3)) ∧
    (∃ (s : Machine.State) (uid : ℕ) (pos : ℕ) (j : ProgJob), (s.hubUp = true) ∧ (s.job? uid = some j) ∧ (j.targets.length ≤ pos) ∧ (bit j.flags 1 =
      true) ∧ ((j.targets.all fun t => t.stage == 0) = true)) :=
  ⟨
    ⟨(withJob mine (rowJob 0)), 1, 0, (rowJob 0), (atRow 0), [], (rowDone 0), by decide +kernel⟩,
    ⟨(withJob mine (rowJob 511)), 1, 0, (rowJob 511), (atRow 511), [], (rowDone 511), by decide +kernel⟩,
    ⟨(atRow 0), 1, 0, by decide +kernel⟩,
    ⟨up, by decide +kernel⟩,
    ⟨(withJob mine (job0 5 1 1)), (1), (0), (job0 5 1 1), (target0 1), by decide +kernel⟩,
    ⟨(withJob mine (job0 5 2 0)), (1), (1), (job0 5 2 0), by decide +kernel⟩⟩

theorem witness_TestsAndLoans :
    (∃ (s : Machine.State) (f : ℕ) (w : ℕ) (d : Desc) (cal : Bool) (s1 : Machine.State) (j : ProgJob), (f ≤ 16) ∧ (w < 16) ∧ (s.begin f w (if cal =
      true then 12 else 11) = some d) ∧ ((s.started d.uid).readTargets d = (s1, Sum.inr j))) ∧
    (∃ (s : Machine.State) (uid : ℕ) (pos : ℕ) (j : ProgJob) (t : Target), (s.hubUp = true) ∧ (s.target? uid pos = some (j, t)) ∧ (j.programs =
      false) ∧ (t.stage = 0) ∧ (j.deadline ≤ s.now)) ∧
    (∃ (s : Machine.State) (f : ℕ) (w : ℕ) (d : Desc) (lend : Bool), (f ≤ 16) ∧ (w < 16) ∧ (s.begin f w (if lend = true then 13 else 14) = some d) ∧
      let s0 : Machine.State := s.started d.uid;
      let core : ℕ := u32At d.bytes 16;
      ((s0.inst d.inst).cores.contains core = false)) ∧
    (∃ (s : Machine.State) (f : ℕ) (w : ℕ) (d : Desc) (lend : Bool), (f ≤ 16) ∧ (w < 16) ∧ (s.begin f w (if lend = true then 13 else 14) = some d) ∧
      let s0 : Machine.State := s.started d.uid;
      let core : ℕ := u32At d.bytes 16;
      let mask : ℕ := s0.lendLeft lend core (u16At d.bytes 20);
      ((s0.inst d.inst).cores.contains core = true) ∧ (mask = 0)) ∧
    (∃ (s : Machine.State) (f : ℕ) (w : ℕ) (d : Desc) (lend : Bool), (f ≤ 16) ∧ (w < 16) ∧ (s.begin f w (if lend = true then 13 else 14) = some d) ∧
      let s0 : Machine.State := s.started d.uid;
      let core : ℕ := u32At d.bytes 16;
      let mask : ℕ := s0.lendLeft lend core (u16At d.bytes 20);
      ((s0.inst d.inst).cores.contains core = true) ∧ (mask ≠ 0)) ∧
    (∃ (s : Machine.State) (e : ℕ), (e < 98304) ∧ (s.hubUp = true) ∧ ((s.engine e).lent = true) ∧ ((s.engine e).lendEnd ≠ 0) ∧ ((s.engine e).lendEnd
      ≤ s.now) ∧ ((s.engine e).testing = false)) :=
  ⟨
    ⟨(holding mine (desc [(0, 0xB), (0x30, 1), (0x34, 2)])), (0), (0), (desc [(0, 0xB), (0x30, 1), (0x34, 2)]), (false), ((holding mine (desc [(0,
      0xB), (0x30, 1), (0x34, 2)])).started 1), (newJob (desc [(0, 0xB), (0x30, 1), (0x34, 2)]) [tEntry 0]), by decide +kernel⟩,
    ⟨(withJob up (job0 0xB 0 0)), (1), (0), (job0 0xB 0 0), (target0 0), by decide +kernel⟩,
    ⟨(holding up (desc [(0, 0xD), (0x14, 1)])), (0), (0), (desc [(0, 0xD), (0x14, 1)]), (true), by decide +kernel⟩,
    ⟨(holding mine (desc [(0, 0xE), (0x14, 1)])), (0), (0), (desc [(0, 0xE), (0x14, 1)]), (false), by decide +kernel⟩,
    ⟨(holding mine (desc [(0, 0xD), (0x14, 1)])), (0), (0), (desc [(0, 0xD), (0x14, 1)]), (true), by decide +kernel⟩,
    ⟨({ up.modEngine 0 fun g => { g with lent := true, lendEnd := 1 } with clock := ⟨1, 0⟩ }), (0), by decide +kernel⟩⟩

theorem witness_ChecksAndDarns :
    (∃ (s : Machine.State) (e : ℕ) (k : ℕ), (e < 98304) ∧ (s.running = true) ∧ (s.flag (R.DIE_CHECK_CTRL_ENABLE (dieOfEngine e)) = true) ∧
      (s.dueDeck e = some k) ∧
      let s1 : Machine.State := s.carryVisits e k;
      let r : Machine.State × List Vec := s1.vectors e k;
      let d : Deck := r.1.deck e k;
      (s1.mayVisit e = false)) ∧
    (∃ (s : Machine.State) (e : ℕ) (k : ℕ), (e < 98304) ∧ (s.running = true) ∧ (s.flag (R.DIE_CHECK_CTRL_ENABLE (dieOfEngine e)) = true) ∧
      (s.dueDeck e = some k) ∧
      let s1 : Machine.State := s.carryVisits e k;
      let r : Machine.State × List Vec := s1.vectors e k;
      let d : Deck := r.1.deck e k;
      let v : ℕ := if r.2.length = 1 then 0 else d.nextVec;
      (s1.mayVisit e = true) ∧ (r.2[v]? = none)) ∧
    (∃ (s : Machine.State) (e : ℕ) (k : ℕ) (x : Vec), (e < 98304) ∧ (s.running = true) ∧ (s.flag (R.DIE_CHECK_CTRL_ENABLE (dieOfEngine e)) = true) ∧
      (s.dueDeck e = some k) ∧
      let s1 : Machine.State := s.carryVisits e k;
      let r : Machine.State × List Vec := s1.vectors e k;
      let d : Deck := r.1.deck e k;
      let v : ℕ := if r.2.length = 1 then 0 else d.nextVec;
      (s1.mayVisit e = true) ∧ (r.2[v]? = some x)) ∧
    (∃ (s : Machine.State) (e : ℕ) (c : Check) (x : Vec), (e < 98304) ∧ (s.running = true) ∧ (List.find? (fun c => c.engine == e && c.running)
      s.arr.checks = some c) ∧ (c.data = some x)) ∧
    (∃ (s : Machine.State) (e : ℕ) (c : Check), (e < 98304) ∧ (s.running = true) ∧ (s.retryFor e = some c) ∧ ((s.deck e c.deck).retired = false) ∧
      (s.checkReady e = true) ∧ (c.target = none)) ∧
    (∃ (s : Machine.State) (e : ℕ) (c : Check), (e < 98304) ∧ (s.running = true) ∧ (s.retryFor e = some c) ∧ ((s.deck e c.deck).retired = true)) ∧
    (∃ (s : Machine.State) (e : ℕ) (x : Darn), (e < 98368) ∧ (s.running = true) ∧ (List.find? (fun x => x.engine == e) s.arr.darns = some x) ∧
      (s.arr.vprogOk = true) ∧ (s.darnRuns x = true) ∧ (s.engineFree e = true)) ∧
    (∃ (s : Machine.State) (e : ℕ) (k : ℕ), (e < 98304) ∧ (s.running = true) ∧ (s.runningTest e = none) ∧ (s.calNext e = some k) ∧ (s.mayStart 0 =
      true) ∧ (s.gapFree e = true) ∧ (s.checkToken e = true)) ∧
    (∃ (s : Machine.State) (e : ℕ), (e < 98368) ∧ (s.running = true) ∧ ((s.rosc e).at_ + 1000000 ≤ s.now)) :=
  ⟨
    ⟨((dueS []).modEngine 0 fun g => { g with eval := some eval0 }), 0, 0, by decide +kernel⟩,
    ⟨(dueS [1]), 0, 0, by decide +kernel⟩,
    ⟨(dueS []), 0, 0, builtIn, by decide +kernel⟩,
    ⟨(withCheck (dueS []) ⟨0, 0, 0, none, 0, true, (some builtIn), false, none⟩), 0, ⟨0, 0, 0, none, 0, true, (some builtIn), false, none⟩, builtIn,
      by decide +kernel⟩,
    ⟨(withCheck (dueS []) ⟨0, 0, 0, (some [0]), 0, false, none, false, none⟩), 0, ⟨0, 0, 0, (some [0]), 0, false, none, false, none⟩,
      by decide +kernel⟩,
    ⟨(withCheck ((dueS []).setDeck 0 0 { deck0 with retired := true }) ⟨0, 0, 0, (some [0]), 0, false, none, false, none⟩), 0, ⟨0, 0, 0, (some [0]),
      0, false, none, false, none⟩, by decide +kernel⟩,
    ⟨({ mine with arr := { mine.arr with darns := [⟨98367, 0, 0, 0, none⟩] } }), (98367), ⟨98367, 0, 0, 0, none⟩, by decide +kernel⟩,
    ⟨(up.setDeck 0 7 { deck0 with calDue := true }), (0), (7), by decide +kernel⟩,
    ⟨(dueS []), (0), by decide +kernel⟩⟩

theorem witness_FabricEvents :
    (∃ (s : Machine.State) (d : ℕ) (uid : ℕ) (st : ℕ) (op : ℕ) (x : Transit), (d < 8) ∧ (s.hubUp = true) ∧ (s.transit uid st op = some x) ∧
      (s.meetsHem x d = true)) ∧
    (∃ (s : Machine.State) (uid : ℕ) (st : ℕ) (op : ℕ) (d : ℕ) (t : Step) (m : Machine.Stream) (o : Op), (s.hubUp = true) ∧ (s.transit uid st op =
      some (Transit.oper t m o)) ∧ (d ∈ t.opDomains o) ∧ (s.meetsHem (Transit.oper t m o) d = true)) ∧
    (∃ (s : Machine.State) (d : ℕ) (x : ℕ), (crossingOk d x = true) ∧ (s.monitored = true) ∧ (s.power.held.contains (d * 4 + x) = false) ∧
      let last : ℕ := Tab.get (fun x => 0) s.power.skewLast (d * 4 + x);
      (last = 0 ∨ last + 10000000 ≤ s.now + 1)) ∧
    (∃ (s : Machine.State) (d : ℕ) (x : ℕ), (crossingOk d x = true) ∧ (s.monitored = true) ∧ (s.power.held.contains (d * 4 + x) = false) ∧
      let last : ℕ := Tab.get (fun x => 0) s.power.skewLast (d * 4 + x);
      (last ≠ 0) ∧ (s.now + 1 < last + 10000000)) ∧
    (∃ (s : Machine.State) (d : ℕ) (x : ℕ), (crossingOk d x = true) ∧ (s.power.held.contains (d * 4 + x) = true) ∧ (s.monitored = true)) ∧
    (∃ (d : ℕ) (x : ℕ), (crossingOk d x = true) ∧ (d < 8)) ∧
    (∃ (d : ℕ) (x : ℕ), (crossingOk d x = true) ∧ (d = 8)) ∧
    (∃ (s : Machine.State), (s.hubUp = true)) ∧
    (∃ (s : Machine.State) (d : ℕ) (i : ℕ) (t : ℕ), (d < 8) ∧ (i < 40) ∧ (s.power.st = PState.run) ∧ (t < 1000)) :=
  ⟨
    ⟨hemS, (1), (1), (0), (0), (.oper (stepOf (onCore farMove)) (onCore farMove) farMove), by decide +kernel⟩,
    ⟨hemS, (1), (0), (0), (1), (stepOf (onCore farMove)), (onCore farMove), farMove, by decide +kernel⟩,
    ⟨up, (7), (0), by decide +kernel⟩,
    ⟨(atTime { up with power := { up.power with skewLast := [(28, 1)] } } 9999998), 7, 0, by decide +kernel⟩,
    ⟨{ up with power := { up.power with held := [28] } }, 7, 0, by decide +kernel⟩,
    ⟨(7), (0), by decide +kernel⟩,
    ⟨8, 1, by decide +kernel⟩,
    ⟨up, by decide +kernel⟩,
    ⟨up, (7), (39), (999), by decide +kernel⟩⟩

theorem witness_InstanceCommands :
    (∃ (s : Machine.State), (s.hubUp = true)) ∧
    (∃ (s : Machine.State), (s.steady = true) ∧ (s.flag R.INST_RESULT_BUSY = true)) ∧
    (∃ (s : Machine.State), (s.hubUp = true) ∧ (s.flag R.INST_RESULT_BUSY = false) ∧ (s.fwUp = true) ∧
      let i : ℕ := s.rd R.INST_SEL_INSTANCE;
      let s0 : Machine.State := (s.dropHeld 0).setFlag R.INST_RESULT_BUSY true;
      let s1 : Machine.State := { s0 with rings := { s0.rings with instBusy := some i } };
      (1 ≤ i) ∧ (i ≤ 16) ∧ ((s.inst i).st = InstState.none) ∧ (i ≤ s.rings.numVfs) ∧ (s1.hamperStatus i s1.staged false = St.ok) ∧ (s.mem.keyFail =
        false) ∧ (s.mem.nextKey ≠ 0)) ∧
    (∃ (s : Machine.State), (s.hubUp = true) ∧ (s.flag R.INST_RESULT_BUSY = false) ∧ (s.fwUp = true) ∧
      let i : ℕ := s.rd R.INST_SEL_INSTANCE;
      let s0 : Machine.State := (s.dropHeld 0).setFlag R.INST_RESULT_BUSY true;
      (i ≤ 16) ∧ ((s.inst i).st ≠ InstState.none)) ∧
    (∃ (s : Machine.State), (s.hubUp = true) ∧ (s.flag R.INST_RESULT_BUSY = false) ∧ (s.fwUp = true) ∧
      let i : ℕ := s.rd R.INST_SEL_INSTANCE;
      let s0 : Machine.State := (s.dropHeld 0).setFlag R.INST_RESULT_BUSY true;
      let s1 : Machine.State := { s0 with rings := { s0.rings with instBusy := some i } };
      (i ≤ 16) ∧ ((s.inst i).st = InstState.ready) ∧ (s1.hamperStatus i s1.staged false = St.ok)) ∧
    (∃ (s : Machine.State), (s.hubUp = true) ∧ (s.flag R.INST_RESULT_BUSY = false) ∧ (s.fwUp = true) ∧
      let i : ℕ := s.rd R.INST_SEL_INSTANCE;
      let s0 : Machine.State := (s.dropHeld 0).setFlag R.INST_RESULT_BUSY true;
      (1 ≤ i) ∧ (i ≤ 16) ∧ ((s.inst i).st = InstState.ready)) ∧
    (∃ (s : Machine.State), (s.hubUp = true) ∧ (s.flag R.INST_RESULT_BUSY = false) ∧ (s.fwUp = true) ∧
      let i : ℕ := s.rd R.INST_SEL_INSTANCE;
      let s0 : Machine.State := (s.dropHeld 0).setFlag R.INST_RESULT_BUSY true;
      (i = 0)) :=
  ⟨
    ⟨up, by decide +kernel⟩,
    ⟨busyS, by decide +kernel⟩,
    ⟨vfUp, by decide +kernel⟩,
    ⟨vfReady, by decide +kernel⟩,
    ⟨vfReady, by decide +kernel⟩,
    ⟨vfReady, by decide +kernel⟩,
    ⟨up, by decide +kernel⟩⟩

theorem witness_InstanceEvents :
    (∃ (s : Machine.State) (f : ℕ) (w : ℕ) (d : Desc), (f ≤ 16) ∧ (w < 16) ∧ (s.begin f w 16 = some d) ∧
      let s0 : Machine.State := s.started d.uid;
      let i : ℕ := u8At d.bytes 16;
      ((s0.inst i).st = InstState.ready)) ∧
    (∃ (s : Machine.State) (f : ℕ) (w : ℕ) (d : Desc), (f ≤ 16) ∧ (w < 16) ∧ (s.begin f w 16 = some d) ∧
      let s0 : Machine.State := s.started d.uid;
      let i : ℕ := u8At d.bytes 16;
      ((s0.inst i).st = InstState.none)) ∧
    (∃ (s : Machine.State) (i : ℕ), (1 ≤ i) ∧ (i ≤ 16) ∧ (s.hubUp = true) ∧ ((s.inst i).st = InstState.resetting) ∧ (s.drained i = true)) ∧
    (∃ (s : Machine.State) (i : ℕ), (1 ≤ i) ∧ (i ≤ 16) ∧ (s.hubUp = true) ∧ ((s.inst i).st = InstState.resetting) ∧ (s.drained i = false) ∧ ((s.inst
      i).resetAt + 50000 ≤ s.now)) ∧
    (∃ (s : Machine.State) (n : ℕ), (n ≤ 16) ∧ (s.steady = true) ∧ (s.rings.numVfs ≤ n)) ∧
    (∃ (s : Machine.State) (n : ℕ), (s.hubUp = true) ∧ (n < s.rings.numVfs)) ∧
    (∃ (s : Machine.State) (i : ℕ), (1 ≤ i) ∧ (i ≤ 16) ∧ (s.steady = true) ∧ (i ≤ s.rings.numVfs) ∧ ((s.inst i).st = InstState.none)) ∧
    (∃ (s : Machine.State) (i : ℕ), (1 ≤ i) ∧ (i ≤ 16) ∧ (s.steady = true) ∧ (i ≤ s.rings.numVfs) ∧ ((s.inst i).st = InstState.ready)) ∧
    (∃ (s : Machine.State), (s.mem.keyFail = false)) :=
  ⟨
    ⟨(holding vfReady (desc [(0, 0x10), (0x10, 1)])), (0), (0), (desc [(0, 0x10), (0x10, 1)]), by decide +kernel⟩,
    ⟨(holding up (desc [(0, 0x10), (0x10, 1)])), (0), (0), (desc [(0, 0x10), (0x10, 1)]), by decide +kernel⟩,
    ⟨(inState .resetting), (1), by decide +kernel⟩,
    ⟨({ inState .resetting with steps := [{ step0 with inst := 1, gen := 1 }] }), (1), by decide +kernel⟩,
    ⟨(inState .parked), (16), by decide +kernel⟩,
    ⟨vfReady, (0), by decide +kernel⟩,
    ⟨vfUp, (1), by decide +kernel⟩,
    ⟨vfReady, (1), by decide +kernel⟩,
    ⟨(holding vfReady (desc [(0, 0x10), (0x10, 1)])), by decide +kernel⟩⟩

theorem witness_SpdmAnswers :
    (∃ (s : Machine.State) (slot : ℕ), (s.steady = true) ∧ (slot ≠ 0)) ∧
    (∃ (s : Machine.State) (index : ℕ), (s.steady = true) ∧ (1 ≤ index) ∧ (index ≤ 5)) ∧
    (∃ (s : Machine.State) (index : ℕ), (s.steady = true) ∧ (5 < index) ∧ (index ≠ 255)) ∧
    (∃ (s : Machine.State), (s.steady = true)) :=
  ⟨
    ⟨up, (1), by decide +kernel⟩,
    ⟨up, (1), by decide +kernel⟩,
    ⟨up, 6, by decide +kernel⟩,
    ⟨up, by decide +kernel⟩⟩

theorem witness_OrStage :
    (∃ (s : Machine.State) (j : ℕ), (s.power.st ≠ PState.off) ∧ (s.board.extest = false) ∧ (∀ l < 16, (s.lane l).tripped = ((s.lane l).present &&
      s.wordTrips l (s.rd (R.GUARD_VERDICT_WORD l)))) ∧ (j < 8)) ∧
    (∃ (s : Machine.State), (s.power.st = PState.off)) :=
  ⟨
    ⟨up, (7), by decide +kernel⟩,
    ⟨(inPower up .off), by decide +kernel⟩⟩

theorem witness_GuardFrames :
    (∃ (s : Machine.State), (s.guard.up = true) ∧ (s.frameDue = true)) ∧
    (∃ (s : Machine.State), (∀ l < 16, (s.lane l).on = false ∧ (s.lane l).started = false ∧ (s.lane l).stopping = false ∧ (s.lane l).present =
      false)) ∧
    (∃ (l : ℕ), (l < 16)) ∧
    (∃ (s : Machine.State), (s.guard.up = true) ∧ (s.guard.trimAt + 1000000 ≤ s.now)) ∧
    (∃ (s : Machine.State) (p : ℕ) (ws : List ℕ), (p < 4) ∧ (s.guard.up = true) ∧ (s.flag (R.SENSOR_FSP_STATUS_ENABLE p) = true) ∧ (Tab.get (fun x
      => []) s.guard.rx p = []) ∧ (∀ w ∈ ws, w < 65536) ∧ (ws.getD 0 0 = 3675) ∧
      let h : ℕ := ws.getD 1 0;
      let n : ℕ := fld h 13 10 + 1;
      (ws.length < n + 3)) ∧
    (∃ (s : Machine.State) (p : ℕ) (ws : List ℕ), (p < 4) ∧ (s.guard.up = true) ∧ (s.flag (R.SENSOR_FSP_STATUS_ENABLE p) = true) ∧ (Tab.get (fun x
      => []) s.guard.rx p = []) ∧ (∀ w ∈ ws, w < 65536) ∧ (ws.getD 0 0 = 3675) ∧
      let h : ℕ := ws.getD 1 0;
      let n : ℕ := fld h 13 10 + 1;
      (ws.length = n + 3) ∧ (fld h 2 0 ≠ 0 ∨ crc16 (List.take (n + 1) (List.drop 1 ws)) ≠ ws.getD (n + 2) 0)) ∧
    (∃ (s : Machine.State) (p : ℕ) (ws : List ℕ), (p < 4) ∧ (s.guard.up = true) ∧ (s.flag (R.SENSOR_FSP_STATUS_ENABLE p) = true) ∧ (Tab.get (fun x
      => []) s.guard.rx p = []) ∧ (∀ w ∈ ws, w < 65536) ∧ (ws.getD 0 0 = 3675) ∧
      let h : ℕ := ws.getD 1 0;
      let n : ℕ := fld h 13 10 + 1;
      let st : ℕ := 4 * p + fld h 15 14;
      (ws.length = n + 3) ∧ (fld h 2 0 = 0) ∧ (crc16 (List.take (n + 1) (List.drop 1 ws)) = ws.getD (n + 2) 0) ∧ ((s.gstream st).queue.length + n ≤
        64)) ∧
    (∃ (s : Machine.State) (p : ℕ) (ws : List ℕ), (p < 4) ∧ (s.guard.up = true) ∧ (s.flag (R.SENSOR_FSP_STATUS_ENABLE p) = true) ∧
      let bs : List ℕ := Tab.get (fun x => []) s.guard.rx p ++ List.flatMap wordBits ws;
      (∀ i < bs.length, i + 16 ≤ bs.length → bitsWord (List.drop i bs) 0 ≠ 3675)) :=
  ⟨
    ⟨(guardUp id), by decide +kernel⟩,
    ⟨(guardUp id), by decide +kernel⟩,
    ⟨(15), by decide +kernel⟩,
    ⟨({ guardUp id with clock := ⟨1000000, 0⟩ }), by decide +kernel⟩,
    ⟨fspUp, 3, [0x0E5B, 0x0400], by decide +kernel⟩,
    ⟨fspUp, (3), ([0x0E5B, 0, 7, 0]), by decide +kernel⟩,
    ⟨fspUp, (3), packet, by decide +kernel⟩,
    ⟨fspUp, (3), ([0]), by decide +kernel⟩⟩

theorem witness_GuardLanes :
    (∃ (s : Machine.State) (l : ℕ), (l < 16) ∧ (s.guard.up = true) ∧ ((s.lane l).started = true) ∧
      let x : Lane := s.lane l;
      let e : ℕ := x.checkNext / 4;
      let s1 : Machine.State := s.setLane l { x with checkAge := 0, checkNext := (x.checkNext + 1) % 16, slack := true };
      (x.checkAge < 250 ∨ x.slack = true ∨ s.engineFree (guardEngine l e) = false)) ∧
    (∃ (s : Machine.State) (l : ℕ), (l < 16) ∧ (s.guard.up = true) ∧ ((s.lane l).started = true) ∧
      let x : Lane := s.lane l;
      let e : ℕ := x.checkNext / 4;
      let s1 : Machine.State := s.setLane l { x with checkAge := 0, checkNext := (x.checkNext + 1) % 16, slack := true };
      let r : Machine.State × Option (List (ℕ × Bool)) := s1.runVector (guardEngine l e) 0 (x.checkNext % 4);
      (250 ≤ x.checkAge) ∧ (x.slack = false) ∧ (s.engineFree (guardEngine l e) = true)) ∧
    (∃ (s : Machine.State) (l : ℕ) (q : ℕ × ℕ × List ℕ × ℕ), (l < 16) ∧ (s.guard.up = true) ∧ ((s.lane l).started = true) ∧ (List.find? (fun r =>
      r.2.2.2 == 0) (s.lane l).retry = some q) ∧ ((s.lane l).slack = false) ∧ (s.engineFree (guardEngine l q.1) = true)) ∧
    (∃ (s : Machine.State) (l : ℕ) (e : ℕ), (l < 16) ∧ (e < 4) ∧ (s.guard.up = true) ∧ ((s.lane l).started = true) ∧ ((s.deck (guardEngine l e)
      0).calDue = true) ∧ (s.engineFree (guardEngine l e) = true) ∧ (32 ≤ (s.lane l).calRuns)) ∧
    (∃ (s : Machine.State), (s.hubUp = true)) ∧
    (∃ (s : Machine.State) (l : ℕ) (k : ℕ), (l < 16) ∧ (s.laneRefusal l = none) ∧ (k ≠ l)) ∧
    (∃ (s : Machine.State) (l : ℕ) (r : ℕ) (n : ℕ), (l < 16) ∧ (s.laneRefusal l = some (r, n)) ∧ (r < 16) ∧ (n < 65536)) :=
  ⟨
    ⟨(laneS { lane1 with checkAge := 249 }), (15), by decide +kernel⟩,
    ⟨(laneS { lane1 with retry := [(0, 0, [], 0)] }), (15), by decide +kernel⟩,
    ⟨(laneS { lane1 with retry := [(0, 0, [], 0)] }), (15), (0, 0, [], 0), by decide +kernel⟩,
    ⟨((laneS { lane1 with calRuns := 32 }).setDeck (guardEngine 15 3) 0 { deck0 with calDue := true }), 15, 3, by decide +kernel⟩,
    ⟨up, by decide +kernel⟩,
    ⟨(laneS { Lane.init with loaded := true }), (15), (14), by decide +kernel⟩,
    ⟨(laneS Lane.init), (15), (5), (0), by decide +kernel⟩⟩

theorem witness_ComparatorsAndPort :
    (∃ (s : Machine.State) (c : ℕ) (vin : ℕ), (c < 8) ∧ (s.power.st ≠ PState.off) ∧
      let x : Comparator := s.cmp c;
      let level : ℕ := s.levelAt c vin;
      let slow : Bool := decide (x.level = 3 ∧ level ≠ 3);
      let deg : Bool := s.flag (R.GUARD_CMP_CFG_DEGLITCH c);
      (slow = false) ∧ (deg = false)) ∧
    (∃ (s : Machine.State) (c : ℕ) (vin : ℕ), (c < 8) ∧ (s.power.st ≠ PState.off) ∧
      let x : Comparator := s.cmp c;
      let level : ℕ := s.levelAt c vin;
      let slow : Bool := decide (x.level = 3 ∧ level ≠ 3);
      let deg : Bool := s.flag (R.GUARD_CMP_CFG_DEGLITCH c);
      (slow = false) ∧ (deg = true)) ∧
    (∃ (s : Machine.State) (c : ℕ) (vin : ℕ), (c < 8) ∧ (s.power.st ≠ PState.off) ∧
      let x : Comparator := s.cmp c;
      let level : ℕ := s.levelAt c vin;
      let slow : Bool := decide (x.level = 3 ∧ level ≠ 3);
      let deg : Bool := s.flag (R.GUARD_CMP_CFG_DEGLITCH c);
      (slow = true) ∧ (deg = false)) ∧
    (∃ (s : Machine.State) (c : ℕ) (vin : ℕ), (c < 8) ∧ (s.power.st ≠ PState.off) ∧
      let x : Comparator := s.cmp c;
      let level : ℕ := s.levelAt c vin;
      let slow : Bool := decide (x.level = 3 ∧ level ≠ 3);
      let deg : Bool := s.flag (R.GUARD_CMP_CFG_DEGLITCH c);
      (slow = true) ∧ (deg = true)) ∧
    (∃ (s : Machine.State) (c : ℕ), (c < 8) ∧ (s.power.st ≠ PState.off) ∧ ((s.cmp c).at_ ≠ 0) ∧ ((s.cmp c).at_ ≤ s.now + 1)) ∧
    (∃ (s : Machine.State) (c : ℕ), (c < 8) ∧ (s.hubUp = true)) ∧
    (∃ (s : Machine.State) (a : ℕ), (a < 64) ∧ (s.guard.up = true)) ∧
    (∃ (s : Machine.State) (a : ℕ), (a < 64) ∧ (s.guard.up = false)) :=
  ⟨
    ⟨up, 7, 0, by decide +kernel⟩,
    ⟨(up.setFlag (R.GUARD_CMP_CFG_DEGLITCH 7) true), 7, 0, by decide +kernel⟩,
    ⟨(guardUp fun g => { g with cmps := [(7, { Comparator.init with vin := 19000, level := 3 })] }), 7, 5000, ⟨by decide, by decide +kernel,
      decide_eq_true ⟨by decide +kernel, low_level _ _ _ (by decide)⟩, by decide +kernel⟩⟩,
    ⟨((guardUp fun g => { g with cmps := [(7, { Comparator.init with vin := 19000, level := 3 })] }).setFlag (R.GUARD_CMP_CFG_DEGLITCH 7) true), 7,
      5000, ⟨by decide, by decide +kernel, decide_eq_true ⟨by decide +kernel, low_level _ _ _ (by decide)⟩, by decide +kernel⟩⟩,
    ⟨(up.setCmp 7 { up.cmp 7 with level := 1, at_ := 1 }), (7), by decide +kernel⟩,
    ⟨up, (7), by decide +kernel⟩,
    ⟨(guardUp id), (63), by decide +kernel⟩,
    ⟨up, (63), by decide +kernel⟩⟩

theorem witness_LaneCommands :
    (∃ (s : Machine.State), (s.guard.up = true) ∧ (s.hubUp = true) ∧ (s.flag R.GUARD_STATUS_LOADED = false) ∧ (s.autoLoad = true) ∧ (s.guard.again =
      none) ∧ (∀ l < 16, (s.backup l).valid = true)) ∧
    (∃ (s : Machine.State), (s.flag R.GUARD_STATUS_LOADED = true)) ∧
    (∃ (s : Machine.State) (l : ℕ), (l < 16) ∧ (s.hubUp = true) ∧ (s.guard.up = true) ∧ (s.fwUp = true) ∧ (s.flag R.GUARD_LANE_RESULT_BUSY = false)
      ∧ (s.power.held.contains guardCrossing = false) ∧ (s.guard.port = []) ∧
      let s1 : Machine.State := (s.dropHeld 0).setFlag R.GUARD_LANE_RESULT_BUSY true;
      ((s.lane l).on = false) ∧ ((s.backup l).valid = true)) ∧
    (∃ (s : Machine.State) (l : ℕ), (l < 16) ∧ (s.hubUp = true) ∧ (s.guard.up = true) ∧ (s.fwUp = true) ∧ (s.flag R.GUARD_LANE_RESULT_BUSY = false)
      ∧ (s.power.held.contains guardCrossing = false) ∧ (s.guard.port = []) ∧
      let s1 : Machine.State := (s.dropHeld 0).setFlag R.GUARD_LANE_RESULT_BUSY true;
      ((s.lane l).on = false) ∧ ((s.backup l).valid = false)) ∧
    (∃ (s : Machine.State) (l : ℕ), (l < 16) ∧ (s.hubUp = true) ∧ (s.guard.up = true) ∧ (s.fwUp = true) ∧ (s.flag R.GUARD_LANE_RESULT_BUSY = false)
      ∧ (s.power.held.contains guardCrossing = false) ∧ (s.guard.port = []) ∧
      let s1 : Machine.State := (s.dropHeld 0).setFlag R.GUARD_LANE_RESULT_BUSY true;
      ((s.lane l).on = false) ∧ (s.laneSections l ≠ [])) ∧
    (∃ (s : Machine.State) (l : ℕ), (l < 16) ∧ (s.hubUp = true) ∧ (s.guard.up = true) ∧ (s.fwUp = true) ∧ (s.flag R.GUARD_LANE_RESULT_BUSY = false)
      ∧ (s.power.held.contains guardCrossing = false) ∧ (s.guard.port = []) ∧
      let s1 : Machine.State := (s.dropHeld 0).setFlag R.GUARD_LANE_RESULT_BUSY true;
      ((s.lane l).on = false) ∧ (∀ e < 4, s.guardBad l e ≠ [] → ((s.backup l).sections.getD e none).isSome = true)) ∧
    (∃ (s : Machine.State) (l : ℕ), (l < 16) ∧ (s.hubUp = true) ∧ (s.guard.up = true) ∧ (s.fwUp = true) ∧ (s.flag R.GUARD_LANE_RESULT_BUSY = false)
      ∧ (s.power.held.contains guardCrossing = false) ∧ (s.guard.port = []) ∧
      let s1 : Machine.State := (s.dropHeld 0).setFlag R.GUARD_LANE_RESULT_BUSY true;
      ((s.lane l).on = true)) ∧
    (∃ (s : Machine.State) (l : ℕ), (l < 16) ∧ (s.steady = true) ∧ (s.flag R.GUARD_LANE_RESULT_BUSY = true) ∧ (s.power.held.contains guardCrossing =
      false) ∧ (s.guard.port = [])) ∧
    (∃ (s : Machine.State) (l : ℕ), (l < 16) ∧ (s.steady = true) ∧ (s.power.held.contains guardCrossing = true ∨ s.guard.port ≠ [])) ∧
    (∃ (s : Machine.State) (l : ℕ), (s.hubUp = true) ∧ (s.guard.up = true) ∧ (s.guard.cmd = some (1, l))) ∧
    (∃ (s : Machine.State) (l : ℕ), (s.hubUp = true) ∧ (s.guard.up = true) ∧ (s.guard.cmd = some (2, l))) ∧
    (∃ (s : Machine.State) (l : ℕ), (s.hubUp = true) ∧ (s.guard.up = true) ∧ (s.guard.cmd = some (3, l)) ∧
      let t : Machine.State := s.restoreTry l;
      (t.guard.claimed = none)) ∧
    (∃ (s : Machine.State) (l : ℕ), (s.hubUp = true) ∧ (s.guard.up = true) ∧ (s.guard.cmd = some (3, l)) ∧
      let t : Machine.State := s.restoreTry l;
      (t.guard.claimed ≠ none) ∧ (t.arr.vprogOk = true)) ∧
    (∃ (s : Machine.State) (l : ℕ), (s.hubUp = true) ∧ (s.guard.up = true) ∧ (s.guard.cmd = some (4, l)) ∧ (s.laneDarns l = false)) ∧
    (∃ (s : Machine.State) (l : ℕ), (s.hubUp = true) ∧ (s.guard.up = true) ∧ (s.guard.cmd = some (5, l))) :=
  ⟨
    ⟨({ guardUp fun g => { g with backups := backups, cold := false } with regs := (up.setFlag R.GUARD_CTRL_AUTO_LOAD true).regs }),
      by decide +kernel⟩,
    ⟨(up.setFlag R.GUARD_STATUS_LOADED true), by decide +kernel⟩,
    ⟨backed, (0), by decide +kernel⟩,
    ⟨(guardUp id), (15), by decide +kernel⟩,
    ⟨backed, (0), by decide +kernel⟩,
    ⟨backed, (0), by decide +kernel⟩,
    ⟨(laneS lane1), (15), by decide +kernel⟩,
    ⟨(up.setFlag R.GUARD_LANE_RESULT_BUSY true), (15), by decide +kernel⟩,
    ⟨{ (guardUp id) with power := { up.power with held := [32] } }, 15, by decide +kernel⟩,
    ⟨(laneCmd 1), (0), by decide +kernel⟩,
    ⟨(laneCmd 2), (0), by decide +kernel⟩,
    ⟨(guardUp fun g => { g with cmd := some (3, 0) }), (0), by decide +kernel⟩,
    ⟨{ laneCmd 3 with guard := { (laneCmd 3).guard with claimed := some 1 } }, 0, by decide +kernel⟩,
    ⟨(laneCmd 4), (0), by decide +kernel⟩,
    ⟨(laneCmd 5), (0), by decide +kernel⟩⟩

theorem witness_CameraStreams :
    (∃ (s : Machine.State) (f : ℕ) (w : ℕ) (d : Desc), (f ≤ 16) ∧ (w < 16) ∧ (s.begin f w 15 = some d) ∧
      let s0 : Machine.State := s.started d.uid;
      (s0.bindStatus d ≠ St.ok)) ∧
    (∃ (s : Machine.State) (f : ℕ) (w : ℕ) (d : Desc), (f ≤ 16) ∧ (w < 16) ∧ (s.begin f w 15 = some d) ∧
      let s0 : Machine.State := s.started d.uid;
      (s0.bindStatus d = St.ok) ∧ (u8At d.bytes 17 = 1)) ∧
    (∃ (s : Machine.State) (f : ℕ) (w : ℕ) (d : Desc), (f ≤ 16) ∧ (w < 16) ∧ (s.begin f w 15 = some d) ∧
      let s0 : Machine.State := s.started d.uid;
      (s0.bindStatus d = St.ok) ∧ (u8At d.bytes 17 ≠ 1)) ∧
    (∃ (s : Machine.State) (d : Desc) (x : Ctx), (s.ctx? (u8At d.bytes 16) = some x) ∧ (x.inst ≠ d.inst)) ∧
    (∃ (s : Machine.State) (p : ℕ) (vc : ℕ), (p < 8) ∧ (vc < 16) ∧ (s.receiving p = true)) ∧
    (∃ (s : Machine.State) (p : ℕ) (vc : ℕ) (n : ℕ), (p < 8) ∧ (vc < 16) ∧ (s.receiving p = true) ∧ (2 ≤ n)) ∧
    (∃ (s : Machine.State) (p : ℕ) (vc : ℕ), (p < 8) ∧ (vc < 16) ∧ (s.receiving p = true) ∧ ((s.ctxsOf fun x => x.takes && (x.port == p && x.vc ==
      vc)) = [])) ∧
    (∃ (s : Machine.State) (p : ℕ) (vc : ℕ), (p < 8) ∧ (vc < 16) ∧ (s.receiving p = true) ∧ ((s.ctxsOf fun x => x.takes && (x.port == p && x.vc ==
      vc)) ≠ [])) ∧
    (∃ (s : Machine.State) (p : ℕ) (vc : ℕ), (p < 8) ∧ (vc < 16) ∧ (s.receiving p = true) ∧ ((s.ctxsOf fun x => x.takes && x.port == p) = [])) ∧
    (∃ (s : Machine.State) (c : ℕ) (x : Ctx), (c < 16) ∧ (s.hubUp = true) ∧ (s.ctx? c = some x) ∧ (x.open_ = true) ∧ (x.closing = true) ∧ (x.inst ≤
      16) ∧ (x.seq < 2 ^ 32)) ∧
    (∃ (s : Machine.State) (c : ℕ) (x : Ctx), (c < 16) ∧ (s.hubUp = true) ∧ (s.ctx? c = some x) ∧ (x.takes = true) ∧ (x.tsStart + s.frameLimit
      x.inst c ≤ s.now)) :=
  ⟨
    ⟨(holding up (bindDesc 0)), (0), (0), (bindDesc 0), by decide +kernel⟩,
    ⟨(holding (bound up (ctx0 0 false false)) (bindDesc 1)), (0), (0), (bindDesc 1), by decide +kernel⟩,
    ⟨(holding (up.setBuf 1 (buf1 2)) (bindDesc 0)), (0), (0), (bindDesc 0), by decide +kernel⟩,
    ⟨(bound up (ctx0 1 false false)), (bindDesc 0), (ctx0 1 false false), by decide +kernel⟩,
    ⟨camUp, (7), (15), by decide +kernel⟩,
    ⟨camUp, (7), (15), (2), by decide +kernel⟩,
    ⟨camUp, (7), (15), by decide +kernel⟩,
    ⟨(bound camUp (ctx0 0 true false)), (7), (15), by decide +kernel⟩,
    ⟨camUp, (7), (15), by decide +kernel⟩,
    ⟨(bound up (ctx0 0 true true)), (3), (ctx0 0 true true), by decide +kernel⟩,
    ⟨(atTime (bound up (ctx0 0 true false)) 1000000000), (3), (ctx0 0 true false), by decide +kernel⟩⟩

theorem witness_SlotHeader :
    (∃ (c : ℕ) (x : Ctx), (c < 256) ∧ (x.vc < 256) ∧ (x.dt < 256) ∧ (x.seq < 2 ^ 32) ∧ (x.frameNum < 2 ^ 16) ∧ (x.status < 2 ^ 16) ∧ (x.tsStart < 2
      ^ 64) ∧ (x.tsEnd < 2 ^ 64) ∧ (x.bytes < 2 ^ 32) ∧ (x.lines < 2 ^ 32) ∧ (x.stride < 2 ^ 32)) :=
  ⟨(15), (ctx0 0 true false), by decide +kernel⟩

theorem witness_PowerEntries :
    (∃ (s : Machine.State) (t : PState), (s.hubUp = true) ∧ (s.power.entry = some t) ∧ (s.power.committed = false)) ∧
    (∃ (s : Machine.State) (t : PState), (s.hubUp = true) ∧ (s.power.entry = some t) ∧ (s.power.committed = true)) ∧
    (∃ (s : Machine.State), (s.steady = true) ∧ (s.flag R.PSTATE_CTRL_AUTO_IDLE = true) ∧ (s.quiet = true) ∧ ((s.power.idleSince + 1000 * if s.rd
      R.PSTATE_CTRL_IDLE_US = 0 then 100 else s.rd R.PSTATE_CTRL_IDLE_US) ≤ s.now)) ∧
    (∃ (s : Machine.State) (t : PState) (b : ℕ), (b < 12) ∧ (s.running = true) ∧ (s.power.entry = some t) ∧ (s.asked b = true) ∧ (s.answerOf t b =
      Answer.accept)) ∧
    (∃ (s : Machine.State) (t : PState) (b : ℕ), (b < 12) ∧ (s.running = true) ∧ (s.power.entry = some t) ∧ (s.asked b = true) ∧ (s.answerOf t b =
      Answer.delay)) ∧
    (∃ (s : Machine.State) (t : PState) (b : ℕ) (r : ℕ), (b < 12) ∧ (s.running = true) ∧ (s.power.entry = some t) ∧ (s.asked b = true) ∧ (s.answerOf
      t b = Answer.refuse r)) ∧
    (∃ (s : Machine.State) (t : PState) (b : ℕ), (b < 12) ∧ (s.running = true) ∧ (s.power.entry = some t) ∧ (s.asked b = true) ∧ (s.answerOf t b =
      Answer.later)) ∧
    (∃ (s : Machine.State) (t : PState) (b : ℕ), (b < 12) ∧ (s.running = true) ∧ (s.power.entry = some t) ∧ (s.asked b = true) ∧ (b ≠ 7 ∨ t =
      PState.idle ∨ t = PState.sleep) ∧ (Tab.get (fun x => 0) s.power.askedAt b + 1000000 ≤ s.now)) ∧
    (∃ (s : Machine.State) (t : PState) (b : ℕ), (b < 12) ∧ (s.running = true) ∧ (s.power.entry = some t) ∧ (s.asked b = true) ∧ (b = 7) ∧
      (t.deepOrOff = true)) ∧
    (∃ (s : Machine.State) (t : PState) (b : ℕ), (b < 12) ∧ (s.running = true) ∧ (s.power.entry = some t) ∧ (s.asked b = true) ∧ (∀ c < 12, c ∈
      s.power.accepted ++ [b])) ∧
    (∃ (s : Machine.State) (t : PState), (s.running = true) ∧ (s.power.entry = some t) ∧ (s.power.committed = true) ∧ (s.power.latched = none) ∧
      let off : List ℕ := List.filter (fun r => !s.volt.off.contains r) (s.railsOffIn t);
      let s1 : Machine.State := ((s.entryResult 1 0 0).endEntry'.switchRails t off).into t;
      (t = PState.sleep)) ∧
    (∃ (s : Machine.State) (t : PState), (s.running = true) ∧ (s.power.entry = some t) ∧ (s.power.committed = true) ∧ (s.power.latched = none) ∧
      let off : List ℕ := List.filter (fun r => !s.volt.off.contains r) (s.railsOffIn t);
      let s1 : Machine.State := ((s.entryResult 1 0 0).endEntry'.switchRails t off).into t;
      (t.deepOrOff = true)) ∧
    (∃ (s : Machine.State), (s.pegs.posted = [])) :=
  ⟨
    ⟨(entering .idle id), .idle, by decide +kernel⟩,
    ⟨(entering .off fun p => { p with committed := true }), .off, by decide +kernel⟩,
    ⟨(atTime (up.setFlag R.PSTATE_CTRL_AUTO_IDLE true) 100000), by decide +kernel⟩,
    ⟨(entering .sleep id), .sleep, (10), by decide +kernel⟩,
    ⟨(entering .deep id), .deep, (7), by decide +kernel⟩,
    ⟨((entering .sleep id).setFlag R.GUARD_CTRL_GUARD_HOLD true), .sleep, (11), (2), by decide +kernel⟩,
    ⟨{ withStep (entering .idle id) (stepOf (onCluster moveOp)) with arr := (up.modEngine 0 fun g => { g with eval := some eval0 }).arr }, .idle,
      (0), by decide +kernel⟩,
    ⟨(atTime (entering .idle id) 1000000), .idle, (11), by decide +kernel⟩,
    ⟨(entering .deep id), .deep, (7), by decide +kernel⟩,
    ⟨(entering .off fun p => { p with accepted := [0, 1, 2, 3, 4, 5, 6, 7, 8, 9, 10] }), .off, (11), by decide +kernel⟩,
    ⟨(entering .sleep fun p => { p with committed := true }), .sleep, by decide +kernel⟩,
    ⟨(entering .off fun p => { p with committed := true }), .off, by decide +kernel⟩,
    ⟨(entering .off id), by decide +kernel⟩⟩

theorem witness_WakingUp :
    (∃ (s : Machine.State) (src : ℕ) (detail : ℕ), (detailOk src detail = true) ∧ (s.halted = false) ∧ (s.aon = true) ∧ (s.wakeEnabled src = true) ∧
      (s.power.st = PState.run) ∧ (s.power.entry = none)) ∧
    (∃ (s : Machine.State) (src : ℕ) (detail : ℕ), (detailOk src detail = true) ∧ (s.halted = false) ∧ (s.aon = true) ∧ (s.wakeEnabled src = true) ∧
      (s.power.entry = none) ∧ (wakeActs src s.power.st s.guard.up = true) ∧ (s.power.recorded = false)) ∧
    (∃ (s : Machine.State) (src : ℕ) (detail : ℕ), (detailOk src detail = true) ∧ (s.halted = false) ∧ (s.aon = true) ∧ (s.wakeEnabled src = true) ∧
      (s.power.entry = none) ∧ (wakeActs src s.power.st s.guard.up = true) ∧ (s.power.recorded = true)) ∧
    (∃ (s : Machine.State) (src : ℕ) (detail : ℕ) (t : PState), (detailOk src detail = true) ∧ (s.halted = false) ∧ (s.aon = true) ∧ (s.wakeEnabled
      src = true) ∧ (s.power.entry = some t) ∧ (wakeActs src t s.guard.up = true) ∧ (s.power.latched = none)) ∧
    (∃ (s : Machine.State), (s.halted = false) ∧ (s.aon = true) ∧ (s.power.exit = 0) ∧ (s.power.entry = none) ∧ (s.power.recorded = false) ∧
      (s.power.st = PState.sleep) ∧ (s.legacy = false)) ∧
    (∃ (s : Machine.State), (s.halted = false) ∧ (s.aon = true) ∧ (s.power.exit = 1)) ∧
    (∃ (s : Machine.State), (s.halted = false) ∧ (s.aon = true) ∧ (s.power.exit = 2) ∧ (s.legacy = false)) ∧
    (∃ (s : Machine.State), (s.halted = false) ∧ (s.aon = true) ∧ (s.power.exit = 2) ∧ (s.legacy = true)) ∧
    (∃ (s : Machine.State), (s.halted = false) ∧ (s.aon = true) ∧ (s.power.exit = 3)) ∧
    (∃ (s : Machine.State), (s.halted = false) ∧ (s.aon = true) ∧ (s.power.exit = 4) ∧ (s.power.warmAfter = none)) ∧
    (∃ (s : Machine.State), (s.halted = false) ∧ (s.aon = true) ∧ (s.power.exit ≠ 0) ∧ (s.power.repeated = false)) ∧
    (∃ (s : Machine.State), (s.halted = false) ∧ (s.aon = true) ∧ (s.power.exit ≠ 0) ∧ (s.power.repeated = true)) ∧
    (∃ (s : Machine.State), (s.power.reqHeld = none) ∧ (s.errs.held = []) ∧ (s.pegs.posted = []) ∧ (s.power.st.deepOrOff = false)) :=
  ⟨
    ⟨up, (3), (16), by decide +kernel⟩,
    ⟨(inPower up .off), (1), (0), by decide +kernel⟩,
    ⟨({ exiting .sleep 1 false with power := { (exiting .sleep 1 false).power with recorded := true } }), (1), (0), by decide +kernel⟩,
    ⟨(entering .sleep id), (1), (0), .sleep, by decide +kernel⟩,
    ⟨(inPower up .sleep), by decide +kernel⟩,
    ⟨({ exiting .sleep 1 false with power := { (exiting .sleep 1 false).power with recorded := true } }), by decide +kernel⟩,
    ⟨(exiting .sleep 2 true), by decide +kernel⟩,
    ⟨{ exiting .sleep 2 false with board := (legacyS .sleep).board }, by decide +kernel⟩,
    ⟨(exiting .deep 3 false), by decide +kernel⟩,
    ⟨(exiting .deep 4 false), by decide +kernel⟩,
    ⟨({ exiting .sleep 1 false with power := { (exiting .sleep 1 false).power with recorded := true } }), by decide +kernel⟩,
    ⟨(exiting .sleep 2 true), by decide +kernel⟩,
    ⟨(exiting .sleep 4 false), by decide +kernel⟩⟩

theorem witness_VoltageControl :
    (∃ (s : Machine.State) (r : ℕ), (r < 9) ∧ (s.railsUp = true) ∧ (s.attempt r ≠ 0) ∧ (s.attempt r < 4)) ∧
    (∃ (s : Machine.State) (r : ℕ), (r < 9) ∧ (s.railsUp = true) ∧ (s.attempt r ≠ 0) ∧ (4 ≤ s.attempt r)) ∧
    (∃ (s : Machine.State) (b : ℕ), (b < 2) ∧ (s.railsUp = true) ∧ (s.busLost b = false)) ∧
    (∃ (s : Machine.State) (b : ℕ), (b < 2) ∧ (s.railsUp = true) ∧ (s.busLost b = true) ∧ (s.volt.probeAt.getD b 0 + 10000000 ≤ s.now)) ∧
    (∃ (s : Machine.State) (r : ℕ) (v : ℕ), (r < 9) ∧ (s.steady = true) ∧ (s.legacy = false) ∧ (fld v 27 24 ≤ fld v 31 28)) ∧
    (∃ (s : Machine.State) (r : ℕ) (v : ℕ), (r < 9) ∧ (s.steady = true) ∧ (fld v 31 28 < fld v 27 24 ∨ s.legacy = true)) ∧
    (∃ (s : Machine.State) (n : ℕ), (1 ≤ n) ∧ (n ≤ 3) ∧ (s.hubUp = true) ∧ (s.legacy = false)) ∧
    (∃ (s : Machine.State) (n : ℕ), (1 ≤ n) ∧ (n ≤ 3) ∧ (s.hubUp = true) ∧ (s.legacy = true) ∧ (s.power.st ≠ PState.idle)) ∧
    (∃ (s : Machine.State) (n : ℕ), (1 ≤ n) ∧ (n ≤ 3) ∧ (s.hubUp = true) ∧ (s.legacy = true) ∧ (s.power.st = PState.idle)) ∧
    (∃ (s : Machine.State), (s.ordered = true)) ∧
    (∃ (s : Machine.State), (s.ordered = false)) :=
  ⟨
    ⟨(up.setAttempt 8 1 3), (8), by decide +kernel⟩,
    ⟨(up.setAttempt 0 4 3), (0), by decide +kernel⟩,
    ⟨up, (1), by decide +kernel⟩,
    ⟨(atTime (up.setFlag (lostBit 1) true) 10000000), (1), by decide +kernel⟩,
    ⟨up, (8), (0x30000000), by decide +kernel⟩,
    ⟨up, (8), (0x03000000), by decide +kernel⟩,
    ⟨up, (3), by decide +kernel⟩,
    ⟨(legacyS .run), (1), by decide +kernel⟩,
    ⟨(legacyS .idle), (3), by decide +kernel⟩,
    ⟨(up.setAttempt 8 1 3), by decide +kernel⟩,
    ⟨(up.setWord (entryKey 0) 0x77), by decide +kernel⟩⟩

theorem witness_PressAndBudgets :
    (∃ (s : Machine.State), (s.ready = true) ∧ (s.halted = false) ∧
      let due : Prop := s.press.tickAt + 1000 ≤ s.now;
      (¬due)) ∧
    (∃ (s : Machine.State), (s.ready = true) ∧ (s.halted = false) ∧
      let due : Prop := s.press.tickAt + 1000 ≤ s.now;
      (due) ∧ (s.railsUp = true)) ∧
    (∃ (s : Machine.State), (s.ready = true) ∧ (s.halted = false) ∧
      let due : Prop := s.press.tickAt + 1000 ≤ s.now;
      (due) ∧ (s.power.st = PState.sleep ∨ s.power.st = PState.deep)) ∧
    (∃ (s : Machine.State), (s.ready = true) ∧ (s.halted = false) ∧
      let due : Prop := s.press.tickAt + 1000 ≤ s.now;
      (due) ∧ (s.power.st = PState.off)) ∧
    (∃ (s : Machine.State), (s.railsUp = true) ∧ (s.now < s.press.calAt + 10000000 ∨ s.press.ticks = 0 ∨ s.legacy = true)) ∧
    (∃ (s : Machine.State), (s.railsUp = true) ∧ (s.press.calAt + 10000000 ≤ s.now) ∧ (s.press.ticks ≠ 0) ∧ (s.legacy = false)) ∧
    (∃ (s : Machine.State), (s.hubUp = true)) ∧
    (∃ (s : Machine.State) (d : ℕ), (d < 8) ∧
      let lower : Prop := s.mayChoose = true ∧ d ∈ s.diesUp ∧ s.lasted s.press.below d = true ∧ s.rd (R.VOLT_RAIL_VP_MIN d) < s.target d;
      (lower)) ∧
    (∃ (s : Machine.State) (d : ℕ), (d < 8) ∧
      let lower : Prop := s.mayChoose = true ∧ d ∈ s.diesUp ∧ s.lasted s.press.below d = true ∧ s.rd (R.VOLT_RAIL_VP_MIN d) < s.target d;
      (¬lower)) ∧
    (∃ (s : Machine.State) (d : ℕ), (d < 8) ∧
      let raise_ : Prop := s.mayChoose = true ∧ d ∈ s.diesUp ∧ s.lasted s.press.full d = true ∧ s.pressed d = true ∧ s.target d < s.rd
        (R.VOLT_RAIL_VP_MAX d);
      (raise_)) ∧
    (∃ (s : Machine.State) (d : ℕ), (d < 8) ∧
      let raise_ : Prop := s.mayChoose = true ∧ d ∈ s.diesUp ∧ s.lasted s.press.full d = true ∧ s.pressed d = true ∧ s.target d < s.rd
        (R.VOLT_RAIL_VP_MAX d);
      (¬raise_)) ∧
    (∃ (s : Machine.State) (n : ℕ) (d : ℕ), (n < 2) ∧ (s.pressUp = true) ∧
      let bitOf : RField := if n = 0 then R.PRESS_STATUS_ALERT_A else R.PRESS_STATUS_ALERT_B;
      (s.press.alert.length = 2) ∧ (s.railsUp = true) ∧ (s.legacy = false) ∧ (d ∈ s.diesUp)) ∧
    (∃ (s : Machine.State) (n : ℕ) (r : ℕ), (n < 2) ∧ (s.pressUp = true) ∧
      let bitOf : RField := if n = 0 then R.PRESS_STATUS_ALERT_A else R.PRESS_STATUS_ALERT_B;
      (s.press.alert.length = 2) ∧ (s.railsUp = true) ∧ (s.legacy = false) ∧ (r < 9) ∧ (s.railPresent r = true)) ∧
    (∃ (s : Machine.State) (n : ℕ), (n < 2) ∧ (s.pressUp = true) ∧
      let bitOf : RField := if n = 0 then R.PRESS_STATUS_ALERT_A else R.PRESS_STATUS_ALERT_B;
      (s.press.alert.getD n false = true)) ∧
    (∃ (s : Machine.State) (n : ℕ), (n < 2) ∧ (s.pressUp = true) ∧
      let bitOf : RField := if n = 0 then R.PRESS_STATUS_ALERT_A else R.PRESS_STATUS_ALERT_B;
      (s.press.alert.getD n false = false)) ∧
    (∃ (s : Machine.State) (n : ℕ), (n < 2) ∧ (s.pressUp = true) ∧
      let bitOf : RField := if n = 0 then R.PRESS_STATUS_ALERT_A else R.PRESS_STATUS_ALERT_B;
      (s.press.holdEnd.getD n 0 ≠ 0) ∧ (s.press.holdEnd.getD n 0 ≤ s.now + 1)) ∧
    (∃ (s : Machine.State) (n : ℕ), (n < 2) ∧ (s.pressUp = true) ∧
      let bitOf : RField := if n = 0 then R.PRESS_STATUS_ALERT_A else R.PRESS_STATUS_ALERT_B;
      (s.press.holdEnd.getD n 0 = 0 ∨ s.now + 1 < s.press.holdEnd.getD n 0)) ∧
    (∃ (s : Machine.State) (f : ℕ) (w : ℕ) (d : Desc), (f ≤ 16) ∧ (w < 16) ∧ (s.begin f w 10 = some d) ∧
      let s0 : Machine.State := s.started d.uid;
      (s0.press.hints.length < 16)) ∧
    (∃ (s : Machine.State) (f : ℕ) (w : ℕ) (d : Desc), (f ≤ 16) ∧ (w < 16) ∧ (s.begin f w 10 = some d) ∧
      let s0 : Machine.State := s.started d.uid;
      (16 ≤ s0.press.hints.length)) ∧
    (∃ (s : Machine.State) (k : ℕ) (h : Hint), (k < 16) ∧ (s.railsUp = true) ∧ (s.press.hints[k]? = some h) ∧
      let starts : Prop := h.on = false ∧ h.start ≤ s.now + 100000 ∧ s.now < h.start + h.dur;
      (starts) ∧ (s.mayChoose = false)) ∧
    (∃ (s : Machine.State) (k : ℕ) (h : Hint), (k < 16) ∧ (s.railsUp = true) ∧ (s.press.hints[k]? = some h) ∧
      let starts : Prop := h.on = false ∧ h.start ≤ s.now + 100000 ∧ s.now < h.start + h.dur;
      (starts) ∧ (s.mayChoose = true)) ∧
    (∃ (s : Machine.State) (k : ℕ) (h : Hint), (k < 16) ∧ (s.railsUp = true) ∧ (s.press.hints[k]? = some h) ∧
      let starts : Prop := h.on = false ∧ h.start ≤ s.now + 100000 ∧ s.now < h.start + h.dur;
      (¬starts)) ∧
    (∃ (s : Machine.State) (k : ℕ) (h : Hint), (k < 16) ∧ (s.railsUp = true) ∧ (s.press.hints[k]? = some h) ∧
      let unused : Prop := h.on = true ∧ h.start + 50000 ≤ s.now ∧ 2 * h.most < h.mw;
      (unused)) ∧
    (∃ (s : Machine.State) (k : ℕ) (h : Hint), (k < 16) ∧ (s.railsUp = true) ∧ (s.press.hints[k]? = some h) ∧
      let unused : Prop := h.on = true ∧ h.start + 50000 ≤ s.now ∧ 2 * h.most < h.mw;
      (¬unused)) ∧
    (∃ (s : Machine.State) (k : ℕ), (k < 16) ∧ (s.railsUp = true) ∧ (s.press.hints[k]? = none)) ∧
    (∃ (s : Machine.State), (s.railsUp = true) ∧
      let enters : Prop := s.flag R.PRESS_STATUS_FLOOR = false ∧ s.press.floorIn ≠ 0 ∧ s.press.floorIn + 100000 ≤ s.now + 1;
      let short : ℕ := s.rd R.PRESS_EST_MW - s.capApplied;
      (enters)) ∧
    (∃ (s : Machine.State), (s.railsUp = true) ∧
      let enters : Prop := s.flag R.PRESS_STATUS_FLOOR = false ∧ s.press.floorIn ≠ 0 ∧ s.press.floorIn + 100000 ≤ s.now + 1;
      let short : ℕ := s.rd R.PRESS_EST_MW - s.capApplied;
      (¬enters)) ∧
    (∃ (s : Machine.State), (s.railsUp = true) ∧
      let leaves : Prop := s.flag R.PRESS_STATUS_FLOOR = true ∧ s.press.floorOut ≠ 0 ∧ s.press.floorOut + 100000 ≤ s.now + 1;
      let short : ℕ := s.rd R.PRESS_EST_MW - s.capApplied;
      (leaves)) ∧
    (∃ (s : Machine.State), (s.railsUp = true) ∧
      let leaves : Prop := s.flag R.PRESS_STATUS_FLOOR = true ∧ s.press.floorOut ≠ 0 ∧ s.press.floorOut + 100000 ≤ s.now + 1;
      let short : ℕ := s.rd R.PRESS_EST_MW - s.capApplied;
      (¬leaves)) ∧
    (∃ (s : Machine.State) (v : ℕ), (s.steady = true) ∧
      let total : ℕ := fld v 23 0;
      let ok : Prop := s.isMaster = true ∧ (total = 0 ∨ 35000 * s.members.length ≤ total);
      (ok)) ∧
    (∃ (s : Machine.State) (v : ℕ), (s.steady = true) ∧
      let total : ℕ := fld v 23 0;
      let ok : Prop := s.isMaster = true ∧ (total = 0 ∨ 35000 * s.members.length ≤ total);
      (¬ok)) ∧
    (∃ (ds : List ℕ), (ds ≠ []) ∧ (ds.Nodup)) ∧
    (∃ (s : Machine.State), (s.railsUp = true) ∧
      let due : Prop := s.press.reportAt + 1000000 ≤ s.now ∧ s.flag R.CHAIN_STATUS_FORMED = true;
      let w : ℕ := min s.press.waitNs (2 ^ 32 - 1);
      (due) ∧ (s.isMaster = true)) ∧
    (∃ (s : Machine.State), (s.railsUp = true) ∧
      let due : Prop := s.press.reportAt + 1000000 ≤ s.now ∧ s.flag R.CHAIN_STATUS_FORMED = true;
      let w : ℕ := min s.press.waitNs (2 ^ 32 - 1);
      (due) ∧ (s.isMaster = false)) ∧
    (∃ (s : Machine.State), (s.railsUp = true) ∧
      let due : Prop := s.press.reportAt + 1000000 ≤ s.now ∧ s.flag R.CHAIN_STATUS_FORMED = true;
      let w : ℕ := min s.press.waitNs (2 ^ 32 - 1);
      (¬due)) ∧
    (∃ (s : Machine.State), (s.railsUp = true) ∧
      let total : ℕ := s.rd R.PRESS_CHAIN_TOTAL_MW;
      let due : Prop := s.isMaster = true ∧ total ≠ 0 ∧ s.press.shiftAt + 1000000 ≤ s.now;
      (¬due)) ∧
    (∃ (s : Machine.State), (s.railsUp = true) ∧
      let total : ℕ := s.rd R.PRESS_CHAIN_TOTAL_MW;
      let due : Prop := s.isMaster = true ∧ total ≠ 0 ∧ s.press.shiftAt + 1000000 ≤ s.now;
      let most : Option (ℕ × ℕ) := pickDevice s.press.reports (fun d => decide (35000 < s.budget d)) fun a b => decide (b < a);
      let least : Option (ℕ × ℕ) := pickDevice s.press.reports (fun d => decide (s.budget d < s.capOf d)) fun a b => decide (a < b);
      (due) ∧ (most = none ∨ least = none)) ∧
    (∃ (s : Machine.State) (h : ℕ × ℕ) (l : ℕ × ℕ), (s.railsUp = true) ∧
      let total : ℕ := s.rd R.PRESS_CHAIN_TOTAL_MW;
      let due : Prop := s.isMaster = true ∧ total ≠ 0 ∧ s.press.shiftAt + 1000000 ≤ s.now;
      let most : Option (ℕ × ℕ) := pickDevice s.press.reports (fun d => decide (35000 < s.budget d)) fun a b => decide (b < a);
      let least : Option (ℕ × ℕ) := pickDevice s.press.reports (fun d => decide (s.budget d < s.capOf d)) fun a b => decide (a < b);
      (due) ∧ (most = some h) ∧ (least = some l) ∧ (h.2 ≤ l.2 + 100000)) ∧
    (∃ (s : Machine.State) (h : ℕ × ℕ) (l : ℕ × ℕ), (s.railsUp = true) ∧
      let total : ℕ := s.rd R.PRESS_CHAIN_TOTAL_MW;
      let due : Prop := s.isMaster = true ∧ total ≠ 0 ∧ s.press.shiftAt + 1000000 ≤ s.now;
      let most : Option (ℕ × ℕ) := pickDevice s.press.reports (fun d => decide (35000 < s.budget d)) fun a b => decide (b < a);
      let least : Option (ℕ × ℕ) := pickDevice s.press.reports (fun d => decide (s.budget d < s.capOf d)) fun a b => decide (a < b);
      (due) ∧ (most = some h) ∧ (least = some l) ∧ (l.2 + 100000 < h.2)) ∧
    (∃ (s : Machine.State), (s.legacy = false) ∧ (s.rd R.PRESS_CHAIN_BUDGET_MW ≠ 0) ∧ (s.rd R.PRESS_CHAIN_BUDGET_MW < s.capMw)) :=
  ⟨
    ⟨up, by decide +kernel⟩,
    ⟨(atTime up 1000), by decide +kernel⟩,
    ⟨(inPower (atTime up 1000) .deep), by decide +kernel⟩,
    ⟨(inPower (atTime up 1000) .off), by decide +kernel⟩,
    ⟨up, by decide +kernel⟩,
    ⟨(press (atTime up 10000000) fun p => { p with ticks := 1 }), by decide +kernel⟩,
    ⟨up, by decide +kernel⟩,
    ⟨(press (atTime (up.wr (R.VOLT_RAIL_TARGET 7) 15) 100000) fun p => { p with below := [(7, 1)] }), (7), by decide +kernel⟩,
    ⟨(press (atTime (up.wr (R.VOLT_RAIL_VP_MAX 7) 15) 100000) fun p => { p with full := [(7, 1)] }), (7), by decide +kernel⟩,
    ⟨(press (atTime (up.wr (R.VOLT_RAIL_VP_MAX 7) 15) 100000) fun p => { p with full := [(7, 1)] }), (7), by decide +kernel⟩,
    ⟨(press (atTime (up.wr (R.VOLT_RAIL_TARGET 7) 15) 100000) fun p => { p with below := [(7, 1)] }), (7), by decide +kernel⟩,
    ⟨up, 0, 7, by decide +kernel⟩,
    ⟨up, 0, 8, by decide +kernel⟩,
    ⟨(press up fun p => { p with alert := [true, true], holdEnd := [1, 1] }), (1), by decide +kernel⟩,
    ⟨up, 0, by decide +kernel⟩,
    ⟨(press up fun p => { p with alert := [true, true], holdEnd := [1, 1] }), (1), by decide +kernel⟩,
    ⟨up, 0, by decide +kernel⟩,
    ⟨(holding up (desc [(0, 0xA)])), (0), (0), (desc [(0, 0xA)]), by decide +kernel⟩,
    ⟨(holding (press up fun p => { p with hints := List.replicate 16 ⟨0, 0, 0, [], false, 0⟩ }) (desc [(0, 0xA)])), (0), (0), (desc [(0, 0xA)]),
      by decide +kernel⟩,
    ⟨(press (up.setFlag R.PRESS_CTRL_FIXED true) fun p => { p with hints := [⟨100000, 1, 0, [], false, 0⟩] }), (0), ⟨100000, 1, 0, [], false, 0⟩,
      by decide +kernel⟩,
    ⟨(press (atTime up 1) fun p => { p with hints := [⟨100000, 1, 0, [0, 7], false, 0⟩] }), 0, ⟨100000, 1, 0, [0, 7], false, 0⟩, by decide +kernel⟩,
    ⟨(press (atTime up 50000) fun p => { p with hints := [⟨0, 1, 1, [], true, 0⟩] }), (0), ⟨0, 1, 1, [], true, 0⟩, by decide +kernel⟩,
    ⟨(press (atTime up 50000) fun p => { p with hints := [⟨0, 1, 1, [], true, 0⟩] }), (0), ⟨0, 1, 1, [], true, 0⟩, by decide +kernel⟩,
    ⟨(press (up.setFlag R.PRESS_CTRL_FIXED true) fun p => { p with hints := [⟨100000, 1, 0, [], false, 0⟩] }), (0), ⟨100000, 1, 0, [], false, 0⟩,
      by decide +kernel⟩,
    ⟨up, 0, by decide +kernel⟩,
    ⟨(press (atTime up 100000) fun p => { p with floorIn := 1 }), by decide +kernel⟩,
    ⟨up, by decide +kernel⟩,
    ⟨(press (atTime (up.setFlag R.PRESS_STATUS_FLOOR true) 100000) fun p => { p with floorOut := 1 }), by decide +kernel⟩,
    ⟨up, by decide +kernel⟩,
    ⟨chainUp, (70000), by decide +kernel⟩,
    ⟨up, (100000), by decide +kernel⟩,
    ⟨([0, 1]), by decide +kernel⟩,
    ⟨(atTime chainUp 1000000), by decide +kernel⟩,
    ⟨(atTime (up.setFlag R.CHAIN_STATUS_FORMED true) 1000000), by decide +kernel⟩,
    ⟨up, by decide +kernel⟩,
    ⟨up, by decide +kernel⟩,
    ⟨(atTime (chainUp.wr R.PRESS_CHAIN_TOTAL_MW 70000) 1000000), by decide +kernel⟩,
    ⟨(press (atTime (chainUp.wr R.PRESS_CHAIN_TOTAL_MW 70000) 1000000) fun p => { p with reports := [(0, 100, 5), (1, 200, 500)], budgets := [(0,
      36000), (1, 34000)] }), (0, 5), (0, 5), by decide +kernel⟩,
    ⟨(press (atTime (chainUp.wr R.PRESS_CHAIN_TOTAL_MW 70000) 1000000) fun p => { p with reports := [(0, 30000, 500000), (1, 200, 0)], budgets :=
      [(0, 36000), (1, 34000)] }), (0, 500000), (1, 0), by decide +kernel⟩,
    ⟨(up.wr R.PRESS_CHAIN_BUDGET_MW 1), by decide +kernel⟩⟩

theorem witness_FlashCommands :
    (∃ (s : Machine.State), (s.hubUp = true) ∧ (s.fwUp = true) ∧ (s.flashBusy = false) ∧
      let a : ℕ := s.rd R.FLASH_ADDR_ADDR;
      let n : ℕ := s.rd R.FLASH_LENGTH_LENGTH;
      let u : Machine.State := s.dropHeld 0;
      (s.flashRefusal 1 a n = 0)) ∧
    (∃ (s : Machine.State), (s.hubUp = true) ∧ (s.fwUp = true) ∧ (s.flashBusy = false) ∧
      let a : ℕ := s.rd R.FLASH_ADDR_ADDR;
      let n : ℕ := s.rd R.FLASH_LENGTH_LENGTH;
      let u : Machine.State := s.dropHeld 0;
      (s.flashRefusal 1 a n ≠ 0)) ∧
    (∃ (s : Machine.State), (s.hubUp = true) ∧ (s.fwUp = true) ∧ (s.flashBusy = false) ∧
      let a : ℕ := s.rd R.FLASH_ADDR_ADDR;
      let n : ℕ := s.rd R.FLASH_LENGTH_LENGTH;
      let u : Machine.State := s.dropHeld 0;
      (s.flashRefusal 2 a n = 0)) ∧
    (∃ (s : Machine.State), (s.hubUp = true) ∧ (s.fwUp = true) ∧ (s.flashBusy = false) ∧
      let a : ℕ := s.rd R.FLASH_ADDR_ADDR;
      let n : ℕ := s.rd R.FLASH_LENGTH_LENGTH;
      let u : Machine.State := s.dropHeld 0;
      (s.flashRefusal 2 a n ≠ 0)) ∧
    (∃ (s : Machine.State), (s.hubUp = true) ∧ (s.fwUp = true) ∧ (s.flashBusy = false) ∧
      let a : ℕ := s.rd R.FLASH_ADDR_ADDR;
      let n : ℕ := s.rd R.FLASH_LENGTH_LENGTH;
      let u : Machine.State := s.dropHeld 0;
      (s.flashRefusal 5 a n = 0)) ∧
    (∃ (s : Machine.State), (s.hubUp = true) ∧ (s.fwUp = true) ∧ (s.flashBusy = false) ∧
      let a : ℕ := s.rd R.FLASH_ADDR_ADDR;
      let n : ℕ := s.rd R.FLASH_LENGTH_LENGTH;
      let u : Machine.State := s.dropHeld 0;
      (s.flashRefusal 6 a n = 0)) ∧
    (∃ (s : Machine.State), (s.hubUp = true) ∧ (s.fwUp = true) ∧ (s.flashBusy = false) ∧
      let a : ℕ := s.rd R.FLASH_ADDR_ADDR;
      let n : ℕ := s.rd R.FLASH_LENGTH_LENGTH;
      let u : Machine.State := s.dropHeld 0;
      (s.flashRefusal 7 a n = 0)) ∧
    (∃ (s : Machine.State) (o : FlashOp), (s.hubUp = true) ∧ (s.fwUp = true) ∧ (s.flashBusy = false) ∧
      let a : ℕ := s.rd R.FLASH_ADDR_ADDR;
      let n : ℕ := s.rd R.FLASH_LENGTH_LENGTH;
      let u : Machine.State := s.dropHeld 0;
      (s.flash.susp = some o)) ∧
    (∃ (s : Machine.State), (s.hubUp = true) ∧ (s.fwUp = true) ∧ (s.flashBusy = false) ∧
      let a : ℕ := s.rd R.FLASH_ADDR_ADDR;
      let n : ℕ := s.rd R.FLASH_LENGTH_LENGTH;
      let u : Machine.State := s.dropHeld 0;
      (s.flash.susp = none)) ∧
    (∃ (s : Machine.State) (o : FlashOp), (s.hubUp = true) ∧ (s.fwUp = true) ∧ (s.flashWaits = false) ∧ (s.flash.op = some o) ∧ (o.kind = 2)) ∧
    (∃ (s : Machine.State), (s.steady = true) ∧ (s.flashBusy = true)) ∧
    (∃ (s : Machine.State) (o : FlashOp), (s.flashOn = true) ∧ (s.flash.op = some o) ∧ (s.flashHeld o = true)) ∧
    (∃ (s : Machine.State) (o : FlashOp), (s.flashOn = true) ∧ (s.flash.op = some o) ∧ (o.writes = true) ∧ (s.flashHeld o = false) ∧ (o.start +
      o.longest ≤ s.now)) ∧
    (∃ (s : Machine.State) (off : ℕ), (off < 32768) ∧ (s.hubUp = true) ∧
      let a : ℕ := s.rd R.FLASH_WIN_BASE_BASE * 32768 + (off - off % 4);
      (s.bankBusy (a / bankBytes) = false)) ∧
    (∃ (s : Machine.State) (off : ℕ), (off < 32768) ∧ (s.hubUp = true) ∧
      let a : ℕ := s.rd R.FLASH_WIN_BASE_BASE * 32768 + (off - off % 4);
      (s.bankBusy (a / bankBytes) = true)) ∧
    (∃ (s : Machine.State) (a : ℕ) (bs : List ℕ), (a < flashBytes) ∧ (s.flashOn = true) ∧ (s.flash.fw = none) ∧ (s.flash.op = none) ∧ (firmwareOnly
      a bs.length = true)) ∧
    (∃ (s : Machine.State) (a : ℕ) (bs : List ℕ), (a < flashBytes) ∧ (s.flashOn = true) ∧ (s.flash.fw ≠ none) ∧ (firmwareOnly a bs.length = true)) ∧
    (∃ (s : Machine.State) (o : FlashOp), (s.flashOn = true) ∧ (s.flash.fw = some o) ∧ (o.kind = 15) ∧ (s.flash.op = none) ∧ (s.flash.due = [])) :=
  ⟨
    ⟨(flashS 16 id), by decide +kernel⟩,
    ⟨(flashS 15 id), by decide +kernel⟩,
    ⟨(flashS 16 id), by decide +kernel⟩,
    ⟨up, by decide +kernel⟩,
    ⟨(flashS 16 id), by decide +kernel⟩,
    ⟨(flashS 16 id), by decide +kernel⟩,
    ⟨(flashS 64 fun x => { x with susp := some (flashOp 2) }), by decide +kernel⟩,
    ⟨(flashS 64 fun x => { x with susp := some (flashOp 2) }), (flashOp 2), by decide +kernel⟩,
    ⟨(flashS 16 id), by decide +kernel⟩,
    ⟨(flashing 2), (flashOp 2), by decide +kernel⟩,
    ⟨(flashing 2), by decide +kernel⟩,
    ⟨(flashS 16 fun x => { x with op := some ⟨1, 0, 16, [], 0⟩, fw := some ⟨15, 0, 1, [1], 0⟩ }), ⟨1, 0, 16, [], 0⟩, by decide +kernel⟩,
    ⟨(atTime (flashing 1) (10 ^ 13)), (flashOp 1), by decide +kernel⟩,
    ⟨up, (0x7FFF), by decide +kernel⟩,
    ⟨((flashing 1).wr R.FLASH_WIN_BASE_BASE 0xC00), (0), by decide +kernel⟩,
    ⟨up, (0), ([0x1FF]), by decide +kernel⟩,
    ⟨(flashS 16 fun x => { x with fw := some ⟨15, 0, 1, [1], 0⟩ }), 0, [0x1FF], by decide +kernel⟩,
    ⟨(flashS 16 fun x => { x with fw := some ⟨15, 0, 1, [1], 0⟩ }), ⟨15, 0, 1, [1], 0⟩, by decide +kernel⟩⟩

theorem witness_FlashContents :
    (∃ (data : List ℕ) (j : ℕ), (∀ b ∈ data, b < 256) ∧ (j < data.length)) ∧
    (∃ (a : ℕ) (data : List ℕ) (b : ℕ), (∀ b ∈ data, b < 256) ∧ (b < a ∨ a + data.length ≤ b)) ∧
    (∃ (s : Machine.State) (a : ℕ) (b : ℕ), (Tab.wf erased s.flash.bytes = true) ∧ ((sectorOf a).1 ≤ b) ∧ (b < (sectorOf a).1 + (sectorOf a).2)) ∧
    (∃ (s : Machine.State) (a : ℕ) (b : ℕ), (Tab.wf erased s.flash.bytes = true) ∧ (b < (sectorOf a).1 ∨ (sectorOf a).1 + (sectorOf a).2 ≤ b)) :=
  ⟨
    ⟨([0xF0, 0x0F]), (0), by decide +kernel⟩,
    ⟨(0x06000000), ([0xF0, 0x0F]), (0), by decide +kernel⟩,
    ⟨(up.programBytes 0x06000000 [0x3C]), 0x06000000, 0x0603FFFF, by decide +kernel⟩,
    ⟨(up.programBytes 0x06000000 [0x3C]), (0x06000000), (0), by decide +kernel⟩⟩

theorem witness_ChainPorts :
    (∃ (s : Machine.State), (s.steady = true) ∧ (s.isMaster = false ∨ s.chainSize = 0)) ∧
    (∃ (s : Machine.State), (s.hubUp = true) ∧ (s.isMaster = true) ∧ (s.chainSize ≠ 0)) ∧
    (∃ (s : Machine.State), (s.hubUp = true) ∧ (s.chain.forming ≠ 0) ∧ (s.chain.forming - 1 + 500000000 ≤ s.now)) ∧
    (∃ (s : Machine.State), (s.hubUp = true) ∧ (s.chain.forming ≠ 0) ∧ (s.now < s.chain.forming - 1 + 500000000)) ∧
    (∃ (s : Machine.State) (p : ℕ), (p < 4) ∧ (s.hubUp = true) ∧ (s.flag R.CHAIN_CTRL_ENABLE = true) ∧ (s.portState p = 1)) ∧
    (∃ (s : Machine.State) (p : ℕ) (lanes : ℕ), (p < 4) ∧ (s.hubUp = true) ∧ (s.flag R.CHAIN_CTRL_ENABLE = true) ∧ (s.portState p = 2) ∧ (laneWidth
      lanes = 0)) ∧
    (∃ (s : Machine.State) (p : ℕ) (lanes : ℕ), (p < 4) ∧ (s.hubUp = true) ∧ (s.flag R.CHAIN_CTRL_ENABLE = true) ∧ (s.portState p = 2) ∧ (laneWidth
      lanes ≠ 0)) ∧
    (∃ (s : Machine.State) (p : ℕ), (p < 4) ∧ (s.hubUp = true) ∧ (s.flag R.CHAIN_CTRL_ENABLE = true) ∧ (s.portState p = 3)) ∧
    (∃ (s : Machine.State) (p : ℕ), (p < 4) ∧ (s.hubUp = true) ∧ (s.flag R.CHAIN_CTRL_ENABLE = true) ∧ (s.portState p = 4)) ∧
    (∃ (s : Machine.State) (p : ℕ), (p < 4) ∧ (s.hubUp = true) ∧ (s.flag R.CHAIN_CTRL_ENABLE = true) ∧ (s.portState p = 6)) ∧
    (∃ (s : Machine.State) (p : ℕ), (p < 4) ∧ (s.hubUp = true) ∧ (s.flag R.CHAIN_CTRL_ENABLE = true) ∧ (s.portState p = 0)) ∧
    (∃ (p : ℕ) (st : ℕ) (q : ℕ), (p < 4) ∧ (st < 8) ∧ (q < 4) ∧ (q ≠ p)) ∧
    (∃ (s : Machine.State) (p : ℕ), (p < 4) ∧ (s.hubUp = true) ∧ (2 ≤ s.portState p) ∧ (s.portState p ≤ 4) ∧ ((s.port p).since + portLimit
      (s.portState p) ≤ s.now)) ∧
    (∃ (s : Machine.State) (p : ℕ) (ack : ℕ), (p < 4) ∧ (s.portLive p = true) ∧ (ack < 4096) ∧ ((s.port p).unacked = [])) ∧
    (∃ (s : Machine.State) (p : ℕ) (ack : ℕ) (f : Flit) (t : List Flit), (p < 4) ∧ (s.portLive p = true) ∧ (ack < 4096) ∧ ((s.port p).unacked = f ::
      t) ∧ ((s.port p).replay = 0) ∧ ((s.port p).ackAt + 2000 ≤ s.now)) ∧
    (∃ (s : Machine.State) (k : ℕ), (k < 64) ∧ (s.hubUp = true)) ∧
    (∃ (s : Machine.State) (i : ℕ), (1 ≤ i) ∧ (i ≤ 16) ∧ (s.steady = true) ∧ (s.isMaster = false)) ∧
    (∃ (s : Machine.State) (i : ℕ) (v : ℕ), (1 ≤ i) ∧ (i ≤ 16) ∧ (s.steady = true) ∧ (s.isMaster = true) ∧ (v < 2 ^ 64) ∧ (v ≠ s.rd
      (R.CHAIN_SPAN_SPAN (i - 1))) ∧ (v ≠ 0)) :=
  ⟨
    ⟨up, by decide +kernel⟩,
    ⟨masterUp, by decide +kernel⟩,
    ⟨(atTime { up with chain := { up.chain with forming := 1 } } 500000000), by decide +kernel⟩,
    ⟨{ up with chain := { up.chain with forming := 1 } }, by decide +kernel⟩,
    ⟨(portS 1), (3), by decide +kernel⟩,
    ⟨(portS 2), (3), (0x0E), by decide +kernel⟩,
    ⟨(portS 2), (3), (0x0F), by decide +kernel⟩,
    ⟨(portS 3), (3), by decide +kernel⟩,
    ⟨(portS 4), (3), by decide +kernel⟩,
    ⟨(portS 6), (3), by decide +kernel⟩,
    ⟨(portS 0), (3), by decide +kernel⟩,
    ⟨(3), (7), (2), by decide +kernel⟩,
    ⟨(atTime (portS 4) 1000000), 3, by decide +kernel⟩,
    ⟨(portS 5), (3), (4095), by decide +kernel⟩,
    ⟨(atTime ((portS 5).modPort 3 fun a => { a with unacked := [flit .idle] }) 2000), (3), (0), (flit .idle), ([]), by decide +kernel⟩,
    ⟨up, (63), by decide +kernel⟩,
    ⟨up, (16), by decide +kernel⟩,
    ⟨masterUp, (16), (0xFFFFFFFF), by decide +kernel⟩⟩

theorem witness_FlitsArrive :
    (∃ (s : Machine.State) (p : ℕ) (f : Flit), (p < 4) ∧ (s.portLive p = true) ∧ (s.serdesOpen = true) ∧ (f.crcOk = false) ∧ (f.payload =
      Payload.idle)) ∧
    (∃ (s : Machine.State) (p : ℕ) (f : Flit), (p < 4) ∧ (s.portLive p = true) ∧ (s.serdesOpen = true) ∧ (f.crcOk = false) ∧ (f.payload =
      Payload.train)) ∧
    (∃ (s : Machine.State) (p : ℕ) (f : Flit) (h : ℕ) (o : ℕ) (t : ℕ) (l : Bool) (k : Bool) (bs : List ℕ), (p < 4) ∧ (s.portLive p = true) ∧
      (s.serdesOpen = true) ∧ (f.crcOk = false) ∧ (f.payload = Payload.data h o t l k bs)) ∧
    (∃ (s : Machine.State) (p : ℕ) (f : Flit), (p < 4) ∧ (s.portLive p = true) ∧ (s.serdesOpen = true) ∧ (f.crcOk = true) ∧ (f.payload =
      Payload.idle)) ∧
    (∃ (s : Machine.State) (p : ℕ) (f : Flit), (p < 4) ∧ (s.portLive p = true) ∧ (s.serdesOpen = true) ∧ (f.crcOk = true) ∧ (f.payload =
      Payload.train)) ∧
    (∃ (s : Machine.State) (p : ℕ) (f : Flit) (h : ℕ) (o : ℕ) (t : ℕ) (l : Bool) (k : Bool) (bs : List ℕ), (p < 4) ∧ (s.portLive p = true) ∧
      (s.serdesOpen = true) ∧ (f.crcOk = true) ∧ (unsequenced f.payload = false) ∧
      let s0 : Machine.State := s.takeLink p f;
      (f.seq = (s0.port p).rxSeq) ∧
      let s1 : Machine.State := (s0.modPort p fun a => a.accept f).bump (R.CHAIN_PORT_COUNT_COUNT p 1) 1;
      (f.dst = s1.rd R.CHAIN_STATUS_DEVICE_ID) ∧ (s1.flitCurrent f = true) ∧ (f.payload = Payload.data h o t l k bs)) ∧
    (∃ (s : Machine.State) (p : ℕ) (f : Flit) (t : ℕ) (b : ℕ) (st : ℕ), (p < 4) ∧ (s.portLive p = true) ∧ (s.serdesOpen = true) ∧ (f.crcOk = true) ∧
      (unsequenced f.payload = false) ∧
      let s0 : Machine.State := s.takeLink p f;
      (f.seq = (s0.port p).rxSeq) ∧
      let s1 : Machine.State := (s0.modPort p fun a => a.accept f).bump (R.CHAIN_PORT_COUNT_COUNT p 1) 1;
      (f.dst = s1.rd R.CHAIN_STATUS_DEVICE_ID) ∧ (s1.flitCurrent f = true) ∧ (f.payload = Payload.xack t b st)) ∧
    (∃ (s : Machine.State) (p : ℕ) (f : Flit) (h : ℕ) (o : ℕ) (st : Bool) (v : ℕ), (p < 4) ∧ (s.portLive p = true) ∧ (s.serdesOpen = true) ∧
      (f.crcOk = true) ∧ (unsequenced f.payload = false) ∧
      let s0 : Machine.State := s.takeLink p f;
      (f.seq = (s0.port p).rxSeq) ∧
      let s1 : Machine.State := (s0.modPort p fun a => a.accept f).bump (R.CHAIN_PORT_COUNT_COUNT p 1) 1;
      (f.dst = s1.rd R.CHAIN_STATUS_DEVICE_ID) ∧ (s1.flitCurrent f = true) ∧ (f.payload = Payload.peg h o st v)) ∧
    (∃ (s : Machine.State) (p : ℕ) (f : Flit) (r : ℕ) (n : ℕ) (bs : List ℕ), (p < 4) ∧ (s.portLive p = true) ∧ (s.serdesOpen = true) ∧ (f.crcOk =
      true) ∧ (unsequenced f.payload = false) ∧
      let s0 : Machine.State := s.takeLink p f;
      (f.seq = (s0.port p).rxSeq) ∧
      let s1 : Machine.State := (s0.modPort p fun a => a.accept f).bump (R.CHAIN_PORT_COUNT_COUNT p 1) 1;
      (f.dst = s1.rd R.CHAIN_STATUS_DEVICE_ID) ∧ (s1.flitCurrent f = true) ∧ (f.payload = Payload.desc r n bs) ∧ (r < 16) ∧ (bs.length = 64)) ∧
    (∃ (s : Machine.State) (p : ℕ) (f : Flit) (k : ℕ) (r : ℕ) (n : ℕ) (bs : List ℕ), (p < 4) ∧ (s.portLive p = true) ∧ (s.serdesOpen = true) ∧
      (f.crcOk = true) ∧ (unsequenced f.payload = false) ∧
      let s0 : Machine.State := s.takeLink p f;
      (f.seq = (s0.port p).rxSeq) ∧
      let s1 : Machine.State := (s0.modPort p fun a => a.accept f).bump (R.CHAIN_PORT_COUNT_COUNT p 1) 1;
      (f.dst = s1.rd R.CHAIN_STATUS_DEVICE_ID) ∧ (s1.flitCurrent f = true) ∧ (f.payload = Payload.record k r n bs) ∧ (s1.isMaster = true)) ∧
    (∃ (s : Machine.State) (p : ℕ) (f : Flit) (w : Bool) (a : ℕ) (n : ℕ) (t : ℕ) (bs : List ℕ), (p < 4) ∧ (s.portLive p = true) ∧ (s.serdesOpen =
      true) ∧ (f.crcOk = true) ∧ (unsequenced f.payload = false) ∧
      let s0 : Machine.State := s.takeLink p f;
      (f.seq = (s0.port p).rxSeq) ∧
      let s1 : Machine.State := (s0.modPort p fun a => a.accept f).bump (R.CHAIN_PORT_COUNT_COUNT p 1) 1;
      (f.dst = s1.rd R.CHAIN_STATUS_DEVICE_ID) ∧ (s1.flitCurrent f = true) ∧ (f.payload = Payload.host w a n t bs) ∧ (s1.isMaster = true)) ∧
    (∃ (s : Machine.State) (p : ℕ) (f : Flit) (t : ℕ) (bs : List ℕ), (p < 4) ∧ (s.portLive p = true) ∧ (s.serdesOpen = true) ∧ (f.crcOk = true) ∧
      (unsequenced f.payload = false) ∧
      let s0 : Machine.State := s.takeLink p f;
      (f.seq = (s0.port p).rxSeq) ∧
      let s1 : Machine.State := (s0.modPort p fun a => a.accept f).bump (R.CHAIN_PORT_COUNT_COUNT p 1) 1;
      (f.dst = s1.rd R.CHAIN_STATUS_DEVICE_ID) ∧ (s1.flitCurrent f = true) ∧ (f.payload = Payload.hostRsp t bs)) ∧
    (∃ (s : Machine.State) (p : ℕ) (f : Flit) (w : Bool) (o : ℕ) (v : ℕ), (p < 4) ∧ (s.portLive p = true) ∧ (s.serdesOpen = true) ∧ (f.crcOk = true)
      ∧ (unsequenced f.payload = false) ∧
      let s0 : Machine.State := s.takeLink p f;
      (f.seq = (s0.port p).rxSeq) ∧
      let s1 : Machine.State := (s0.modPort p fun a => a.accept f).bump (R.CHAIN_PORT_COUNT_COUNT p 1) 1;
      (f.dst = s1.rd R.CHAIN_STATUS_DEVICE_ID) ∧ (s1.flitCurrent f = true) ∧ (f.payload = Payload.reg false w o v)) ∧
    (∃ (s : Machine.State) (p : ℕ) (f : Flit) (w : Bool) (o : ℕ) (v : ℕ), (p < 4) ∧ (s.portLive p = true) ∧ (s.serdesOpen = true) ∧ (f.crcOk = true)
      ∧ (unsequenced f.payload = false) ∧
      let s0 : Machine.State := s.takeLink p f;
      (f.seq = (s0.port p).rxSeq) ∧
      let s1 : Machine.State := (s0.modPort p fun a => a.accept f).bump (R.CHAIN_PORT_COUNT_COUNT p 1) 1;
      (f.dst = s1.rd R.CHAIN_STATUS_DEVICE_ID) ∧ (s1.flitCurrent f = true) ∧ (f.payload = Payload.reg true w o v)) ∧
    (∃ (s : Machine.State) (p : ℕ) (f : Flit) (m : CtrlMsg), (p < 4) ∧ (s.portLive p = true) ∧ (s.serdesOpen = true) ∧ (f.crcOk = true) ∧
      (unsequenced f.payload = false) ∧
      let s0 : Machine.State := s.takeLink p f;
      (f.seq = (s0.port p).rxSeq) ∧
      let s1 : Machine.State := (s0.modPort p fun a => a.accept f).bump (R.CHAIN_PORT_COUNT_COUNT p 1) 1;
      (f.dst = s1.rd R.CHAIN_STATUS_DEVICE_ID) ∧ (s1.flitCurrent f = true) ∧ (f.payload = Payload.ctrl m)) ∧
    (∃ (s : Machine.State) (p : ℕ) (f : Flit) (h : ℕ) (o : ℕ) (t : ℕ) (l : Bool) (k : Bool) (bs : List ℕ), (p < 4) ∧ (s.portLive p = true) ∧
      (s.serdesOpen = true) ∧ (f.crcOk = true) ∧ (unsequenced f.payload = false) ∧
      let s0 : Machine.State := s.takeLink p f;
      (f.seq = (s0.port p).rxSeq) ∧
      let s1 : Machine.State := (s0.modPort p fun a => a.accept f).bump (R.CHAIN_PORT_COUNT_COUNT p 1) 1;
      (f.payload = Payload.data h o t l k bs) ∧ (f.dst ≠ s1.rd R.CHAIN_STATUS_DEVICE_ID) ∧ (f.hops = 0)) ∧
    (∃ (s : Machine.State) (p : ℕ) (f : Flit) (h : ℕ) (o : ℕ) (t : ℕ) (l : Bool) (k : Bool) (bs : List ℕ), (p < 4) ∧ (s.portLive p = true) ∧
      (s.serdesOpen = true) ∧ (f.crcOk = true) ∧ (unsequenced f.payload = false) ∧
      let s0 : Machine.State := s.takeLink p f;
      (f.seq = (s0.port p).rxSeq) ∧
      let s1 : Machine.State := (s0.modPort p fun a => a.accept f).bump (R.CHAIN_PORT_COUNT_COUNT p 1) 1;
      (f.payload = Payload.data h o t l k bs) ∧ (f.dst ≠ s1.rd R.CHAIN_STATUS_DEVICE_ID) ∧ (f.hops ≠ 0)) ∧
    (∃ (s : Machine.State) (p : ℕ) (f : Flit) (h : ℕ) (o : ℕ) (t : ℕ) (l : Bool) (k : Bool) (bs : List ℕ), (p < 4) ∧ (s.portLive p = true) ∧
      (s.serdesOpen = true) ∧ (f.crcOk = true) ∧ (unsequenced f.payload = false) ∧
      let s0 : Machine.State := s.takeLink p f;
      (f.seq = (s0.port p).rxSeq) ∧
      let s1 : Machine.State := (s0.modPort p fun a => a.accept f).bump (R.CHAIN_PORT_COUNT_COUNT p 1) 1;
      (f.payload = Payload.data h o t l k bs) ∧ (f.dst = s1.rd R.CHAIN_STATUS_DEVICE_ID) ∧ (s1.flitCurrent f = false)) ∧
    (∃ (s : Machine.State) (p : ℕ) (f : Flit) (h : ℕ) (o : ℕ) (t : ℕ) (l : Bool) (k : Bool) (bs : List ℕ), (p < 4) ∧ (s.portLive p = true) ∧
      (s.serdesOpen = true) ∧ (f.crcOk = true) ∧ (unsequenced f.payload = false) ∧ (f.seq ≠ ((s.takeLink p f).port p).rxSeq) ∧ (f.payload =
      Payload.data h o t l k bs)) ∧
    (∃ (s : Machine.State) (p : ℕ) (f : Flit) (n : ℕ), (p < 4) ∧ (s.portLive p = true) ∧ (s.serdesOpen = true) ∧ (f.crcOk = true) ∧ (f.payload =
      Payload.reserved n) ∧ (f.seq = ((s.takeLink p f).port p).rxSeq)) ∧
    (∃ (s : Machine.State) (p : ℕ), (p < 4) ∧ (s.serdesOpen = false)) :=
  ⟨
    ⟨(portS 5), (3), { flit .idle with crcOk := false }, by decide +kernel⟩,
    ⟨(portS 5), (3), { flit .train with crcOk := false }, by decide +kernel⟩,
    ⟨(portS 5), (3), { flit (.data 1 0 0 true false [1]) with crcOk := false }, (1), (0), (0), (true), (false), ([1]), by decide +kernel⟩,
    ⟨(portS 5), (3), (flit .idle), by decide +kernel⟩,
    ⟨(portS 5), (3), (flit .train), by decide +kernel⟩,
    ⟨(portS 5), (3), (flit (.data 1 0 0 true false [1])), (1), (0), (0), (true), (false), ([1]), by decide +kernel⟩,
    ⟨(portS 5), (3), (flit (.xack 1 2 0)), (1), (2), (0), by decide +kernel⟩,
    ⟨(portS 5), (3), (flit (.peg 1 0 true 5)), (1), (0), (true), (5), by decide +kernel⟩,
    ⟨(portS 5), (3), (flit (.desc 15 1 (List.replicate 64 0))), (15), (1), (List.replicate 64 0), by decide +kernel⟩,
    ⟨((portS 5).setFlag R.CHAIN_STATUS_MASTER true), (3), (flit (.record 2 0 0 (List.replicate 32 0))), (2), (0), (0), (List.replicate 32 0),
      by decide +kernel⟩,
    ⟨((portS 5).setFlag R.CHAIN_STATUS_MASTER true), (3), (flit (.host true 0 1 0 [5])), (true), (0), (1), (0), ([5]), by decide +kernel⟩,
    ⟨(portS 5), (3), (flit (.hostRsp 0 [5])), (0), ([5]), by decide +kernel⟩,
    ⟨(portS 5), (3), (flit (.reg false true 0 0)), (true), (0), (0), by decide +kernel⟩,
    ⟨(portS 5), (3), (flit (.reg true false 0 5)), (false), (0), (5), by decide +kernel⟩,
    ⟨(portS 5), (3), (flit (.ctrl (.budget 70000))), (.budget 70000), by decide +kernel⟩,
    ⟨(portS 5), (3), { flit (.data 1 0 0 true false [1]) with dst := 3 }, (1), (0), (0), (true), (false), ([1]), by decide +kernel⟩,
    ⟨(portS 5), (3), { flit (.data 1 0 0 true false [1]) with dst := 3, hops := 1 }, (1), (0), (0), (true), (false), ([1]), by decide +kernel⟩,
    ⟨(portS 5), (3), { flit (.data 1 0 0 true false [1]) with inst := 1 }, (1), (0), (0), (true), (false), ([1]), by decide +kernel⟩,
    ⟨(portS 5), (3), { flit (.data 1 0 0 true false [1]) with seq := 1 }, (1), (0), (0), (true), (false), ([1]), by decide +kernel⟩,
    ⟨(portS 5), 3, (flit (.reserved 9)), 9, by decide +kernel⟩,
    ⟨{ portS 5 with power := { up.power with held := [33] } }, 3, by decide +kernel⟩⟩

theorem witness_RegisterWrites :
    (∃ (s : Machine.State) (path : ℕ), (path ≤ 16) ∧ (s.pathUp path = false)) ∧
    (∃ (s : Machine.State) (path : ℕ) (off : ℕ) (v : ℕ), (path ≤ 16) ∧ (s.steady = true) ∧ (v < 2 ^ 32) ∧
      let k : ℕ := pathKey path off;
      let window : Prop := path = 0 ∧ inWindow (off - off % 4) = true;
      (¬window) ∧ (takesWrite k = false) ∧ (aliasKey k = false)) ∧
    (∃ (s : Machine.State) (path : ℕ) (off : ℕ) (v : ℕ), (path ≤ 16) ∧ (s.steady = true) ∧ (v < 2 ^ 32) ∧
      let k : ℕ := pathKey path off;
      let window : Prop := path = 0 ∧ inWindow (off - off % 4) = true;
      let copy : Prop := ringCopy path (off - off % 4) = true;
      (¬window) ∧ (¬copy) ∧ (takesWrite k = true) ∧ (aliasKey k = false) ∧ (pairKey k = true) ∧ (k % 8 = 0)) ∧
    (∃ (s : Machine.State) (path : ℕ) (off : ℕ) (v : ℕ), (path ≤ 16) ∧ (s.steady = true) ∧ (v < 2 ^ 32) ∧
      let k : ℕ := pathKey path off;
      let window : Prop := path = 0 ∧ inWindow (off - off % 4) = true;
      let copy : Prop := ringCopy path (off - off % 4) = true;
      (path = 0) ∧ (¬window) ∧ (¬copy) ∧ (takesWrite k = true) ∧ (pairKey k = true) ∧ (k % 8 = 4) ∧ (k < 983040)) ∧
    (∃ (s : Machine.State) (path : ℕ) (off : ℕ) (v : ℕ), (path ≤ 16) ∧ (s.steady = true) ∧ (v < 2 ^ 32) ∧
      let k : ℕ := pathKey path off;
      let copy : Prop := ringCopy path (off - off % 4) = true;
      (¬copy) ∧ (fnBase ≤ k) ∧ (localOff k < 8192) ∧ (takesWrite k = true) ∧ (pairKey k = true) ∧ (k % 8 = 4)) ∧
    (∃ (s : Machine.State) (path : ℕ) (off : ℕ) (v : ℕ), (path ≤ 16) ∧ (s.steady = true) ∧ (v < 2 ^ 32) ∧
      let k : ℕ := pathKey path off;
      (path = 0) ∧ (k < 16777216) ∧ (k >>> 16 = 7 ∨ k >>> 16 = 13 ∨ k >>> 16 = 16) ∧ (takesWrite k = true) ∧ (pairKey k = false)) ∧
    (∃ (s : Machine.State) (v : ℕ), (s.steady = true) ∧ (v < 2 ^ 32) ∧ (bit v 31 = false)) ∧
    (∃ (s : Machine.State) (v : ℕ), (s.steady = true) ∧ (v < 2 ^ 32) ∧ (bit v 31 = true)) ∧
    (∃ (s : Machine.State) (d : ℕ) (off : ℕ) (v : ℕ), (d < 8) ∧ (off < 65536) ∧ (s.steady = true) ∧ (v < 2 ^ 32) ∧ (s.periEngine d = none)) ∧
    (∃ (s : Machine.State) (d : ℕ) (off : ℕ) (v : ℕ) (e : ℕ), (d < 8) ∧ (off < 65536) ∧ (s.steady = true) ∧ (v < 2 ^ 32) ∧ (s.periEngine d = some
      e)) ∧
    (∃ (s : Machine.State) (d : ℕ) (off : ℕ) (v : ℕ), (d < 8) ∧ (off < 65536) ∧ (s.steady = true) ∧ (v < 2 ^ 32) ∧ (s.holds.rd = [])) ∧
    (∃ (s : Machine.State) (n : ℕ) (v : ℕ), (n < 16) ∧ (s.steady = true) ∧ (v < 2 ^ 32) ∧ (bit v 0 = s.flag (R.PINMUX_PIN_FUNC n))) ∧
    (∃ (s : Machine.State) (n : ℕ) (v : ℕ), (n < 16) ∧ (s.steady = true) ∧ (v < 2 ^ 32) ∧ (bit v 0 ≠ s.flag (R.PINMUX_PIN_FUNC n))) ∧
    (∃ (v : ℕ) (b : ℕ), (v < 2 ^ 32) ∧ (b < 32)) ∧
    (∃ (k : ℕ) (j : ℕ), (j ≠ k)) :=
  ⟨
    ⟨(booting 1 0), 1, by decide +kernel⟩,
    ⟨up, 16, 28676, 5, by decide +kernel⟩,
    ⟨up, (16), (0x1000), (5), by decide +kernel⟩,
    ⟨up, 0, (R.BOOT_LOAD_ADDR_ADDR.key + 4), 5, by decide +kernel⟩,
    ⟨up, 16, (localOff (R.WR_BASE_BASE 16 0).key + 4), 5, by decide +kernel⟩,
    ⟨up, 0, R.HBM_SCRUB_CTRL_ENABLE.key, 1, by decide +kernel⟩,
    ⟨up, (5), by decide +kernel⟩,
    ⟨up, (0xFFFFFFFF), by decide +kernel⟩,
    ⟨(up.wr (R.DIE_PERI_SEL_ENGINE 7) 12288), 7, 36620, 1, by decide +kernel⟩,
    ⟨up, 7, 36620, 1, 86016, by decide +kernel⟩,
    ⟨up, (7), (0xFFFF), (1), by decide +kernel⟩,
    ⟨up, 15, 0, by decide +kernel⟩,
    ⟨up, (15), (1), by decide +kernel⟩,
    ⟨(0xFFFFFFFF), (31), by decide +kernel⟩,
    ⟨(0xC0008), (0xC000C), by decide +kernel⟩⟩

theorem witness_FieldReadBack :
    (∃ (f : RField), (f.lsb ≤ f.msb) ∧ (f.msb < 64)) ∧
    (∃ (f : RField) (g : RField), (f.lsb ≤ f.msb) ∧ (f.msb < 32) ∧ (g.lsb ≤ g.msb) ∧ (g.msb < 32) ∧ (f.key ≠ g.key ∨ f.msb < g.lsb ∨ g.msb < f.lsb)) :=
  ⟨
    ⟨(⟨8, 63, 0⟩), by decide +kernel⟩,
    ⟨(⟨8, 7, 0⟩), (⟨8, 31, 8⟩), by decide +kernel⟩⟩

theorem witness_PortsAndPins :
    (∃ (s : Machine.State), (s.jtagUp = true)) ∧
    (∃ (s : Machine.State), (s.jtagUp = true) ∧ (s.testMode = false) ∧ (s.flag R.DEBUG_CTRL_SCAN_EN = false)) ∧
    (∃ (s : Machine.State), (s.jtagUp = true) ∧ (s.testMode = true ∨ s.flag R.DEBUG_CTRL_SCAN_EN = true)) ∧
    (∃ (s : Machine.State) (dr : ℕ), (s.jtagUp = true) ∧ (fld dr 63 62 = 0)) ∧
    (∃ (s : Machine.State) (dr : ℕ), (s.jtagUp = true) ∧ (fld dr 63 62 = 2)) ∧
    (∃ (s : Machine.State) (dr : ℕ), (s.jtagUp = true) ∧ (fld dr 63 62 = 1) ∧ (s.testMode = false) ∧ (s.rd R.DEBUG_CTRL_JTAG_REG = 0)) ∧
    (∃ (s : Machine.State) (off : ℕ) (v : ℕ), (off < 32768) ∧ (s.steady = true) ∧ (v < 2 ^ 32) ∧ (s.isMaster = false)) ∧
    (∃ (s : Machine.State), (s.hubUp = true) ∧ (s.chain.rwin = [])) ∧
    (∃ (s : Machine.State) (a : RemoteAccess) (t : List RemoteAccess), (s.hubUp = true) ∧ (s.chain.rwin = a :: t) ∧ (a.start + 100000 ≤ s.now)) ∧
    (∃ (s : Machine.State) (n : ℕ), (n < 16) ∧ (s.parked n = true)) ∧
    (∃ (s : Machine.State) (n : ℕ), (n < 16) ∧ (s.parked n = false)) ∧
    (∃ (s : Machine.State) (n : ℕ), (n < 16) ∧ (s.pinsUp = true)) ∧
    (∃ (s : Machine.State) (p : ℕ), (p < 2) ∧ (s.i3cServes p = true) ∧ (s.board.i3cAddr.getD p 0 = 0)) ∧
    (∃ (s : Machine.State) (p : ℕ), (p < 2) ∧ (s.i3cServes p = true) ∧ (s.board.i3cAddr.getD p 0 ≠ 0)) ∧
    (∃ (s : Machine.State), (s.spiServes = true)) ∧
    (∃ (s : Machine.State), (s.hubPowered = true) ∧ (s.uartOn = true)) ∧
    (∃ (d : ℕ), (d < 10)) :=
  ⟨
    ⟨up, by decide +kernel⟩,
    ⟨up, by decide +kernel⟩,
    ⟨(onBoard up fun b => { b with straps := 2 }), by decide +kernel⟩,
    ⟨up, (0), by decide +kernel⟩,
    ⟨up, (2 ^ 63 + 5), by decide +kernel⟩,
    ⟨up, (2 ^ 62 + 2 ^ 38), by decide +kernel⟩,
    ⟨up, (0x7FFF), (5), by decide +kernel⟩,
    ⟨up, by decide +kernel⟩,
    ⟨(atTime { up with chain := { up.chain with rwin := [⟨0, false, 0, 0, 0⟩] } } 100000), ⟨0, false, 0, 0, 0⟩, ([]), by decide +kernel⟩,
    ⟨(onBoard up fun b => { b with parks := [(15, 40)] }), (15), by decide +kernel⟩,
    ⟨up, (15), by decide +kernel⟩,
    ⟨up, (15), by decide +kernel⟩,
    ⟨up, (0), by decide +kernel⟩,
    ⟨(onBoard (pinOn (pinOn up 12) 13) fun b => { b with i3cAddr := [5, 6] }), (1), by decide +kernel⟩,
    ⟨(pinOn (pinOn (pinOn (pinOn up 0) 1) 2) 3), by decide +kernel⟩,
    ⟨(onBoard (pinOn up 4) fun b => { b with uart := [[1]] }), by decide +kernel⟩,
    ⟨(9), by decide +kernel⟩⟩

theorem witness_RecordsRaised :
    (∃ (s : Machine.State) (cls : ℕ) (owner : ℕ) (j : ℕ), (cls < fatalClass) ∧ (owner < 256) ∧ (s.halted = false) ∧ (s.hubAsleep = false) ∧ (s.flag
      R.ERRLOG_STATUS_FROZEN = false) ∧ (posCount (s.rd R.ERRLOG_TAIL_POSITION) (s.rd R.ERRLOG_HEAD_POSITION) 64 < 64) ∧ (j < 8)) ∧
    (∃ (s : Machine.State) (owner : ℕ) (j : ℕ), (owner < 256) ∧ (s.halted = false) ∧ (s.flag R.ERRLOG_FATAL_VALID_VALID = false) ∧ (j < 8)) ∧
    (∃ (s : Machine.State), (s.halted = true)) ∧
    (∃ (r : Record), (r.code < 65536) ∧ (r.cls < 8) ∧ (r.inst < 256) ∧ (r.device < 256) ∧ (r.genLo < 256) ∧ (r.seq < 65536) ∧ (r.time < 2 ^ 64) ∧
      (r.info0 < 2 ^ 64) ∧ (r.info1 < 2 ^ 64)) :=
  ⟨
    ⟨up, (1), (0), (7), by decide +kernel⟩,
    ⟨up, (0), (7), by decide +kernel⟩,
    ⟨(up.raise 0x101 fatalClass 0 5 6), by decide +kernel⟩,
    ⟨⟨65535, 7, 255, true, 255, true, 255, 65535, 2 ^ 64 - 1, 2 ^ 64 - 1, 1⟩, by decide +kernel⟩⟩

theorem witness_ErrorHandling :
    (∃ (s : Machine.State), (s.ready = true) ∧ (s.hubAsleep = false) ∧ (s.halted = false) ∧ (s.reportsToMaster = false) ∧ (s.linkOpen = false)) ∧
    (∃ (s : Machine.State) (j : RingJob) (t : List RingJob), (s.ready = true) ∧ (s.hubAsleep = false) ∧ (s.halted = false) ∧ (s.reportsToMaster =
      false) ∧ (s.linkOpen = true) ∧ (s.markerDue = none) ∧ (s.errs.toRings = j :: t)) ∧
    (∃ (s : Machine.State) (f : ℕ), (s.ready = true) ∧ (s.hubAsleep = false) ∧ (s.halted = false) ∧ (s.reportsToMaster = false) ∧ (s.linkOpen =
      true) ∧ (s.markerDue = some f)) ∧
    (∃ (s : Machine.State) (v : ℕ), (s.steady = true) ∧ (s.flag R.ERRLOG_STATUS_FROZEN = false) ∧
      let t : ℕ := s.rd R.ERRLOG_TAIL_POSITION;
      (posCount t (v % 128) 64 ≤ posCount t (s.rd R.ERRLOG_HEAD_POSITION) 64)) ∧
    (∃ (s : Machine.State) (v : ℕ), (s.steady = true) ∧ (s.flag R.ERRLOG_STATUS_FROZEN = false) ∧
      let t : ℕ := s.rd R.ERRLOG_TAIL_POSITION;
      (posCount t (s.rd R.ERRLOG_HEAD_POSITION) 64 < posCount t (v % 128) 64)) ∧
    (∃ (s : Machine.State) (code : ℕ) (seq : ℕ), (s.aon = true) ∧ (s.hubAsleep = false) ∧ (code < 65536) ∧ (seq < 65536)) ∧
    (∃ (s : Machine.State) (v : ℕ), (s.steady = true) ∧ (bit v 0 = false)) ∧
    (∃ (s : Machine.State) (v : ℕ), (s.steady = true) ∧ (bit v 0 = true)) ∧
    (∃ (s : Machine.State) (cp : ℕ), (cp < 2) ∧ (s.hubUp = true) ∧ (cp ∉ s.errs.restarting) ∧
      let last : ℕ := Tab.get (fun x => 0) s.errs.wdLast cp;
      (last = 0 ∨ last - 1 + 1000000000 ≤ s.now)) ∧
    (∃ (s : Machine.State) (cp : ℕ), (cp < 2) ∧ (s.hubUp = true) ∧ (cp ∉ s.errs.restarting) ∧
      let last : ℕ := Tab.get (fun x => 0) s.errs.wdLast cp;
      (last ≠ 0) ∧ (s.now < last - 1 + 1000000000)) ∧
    (∃ (s : Machine.State) (cp : ℕ), (cp < 2) ∧ (s.hubUp = true) ∧ (cp ∉ s.errs.restarting)) ∧
    (∃ (s : Machine.State) (cp : ℕ), (cp < 2) ∧ (s.hubUp = true) ∧ (s.errs.restarting = [cp])) ∧
    (∃ (s : Machine.State) (d : ℕ), (d < 9) ∧ (s.aon = true) ∧ (s.domainPowered d = true) ∧ (s.halted = false)) ∧
    (∃ (s : Machine.State), (s.aon = true) ∧ (s.domainPowered 9 = true)) :=
  ⟨
    ⟨{ up with rings := { up.rings with linkUp := false } }, by decide +kernel⟩,
    ⟨(errsUp fun e => { e with toRings := [⟨0, record0⟩] }), ⟨0, record0⟩, ([]), by decide +kernel⟩,
    ⟨(errsUp fun e => { e with lost := [(0, 3)] }), (0), by decide +kernel⟩,
    ⟨(up.wr R.ERRLOG_TAIL_POSITION 64), (64), by decide +kernel⟩,
    ⟨(up.wr R.ERRLOG_TAIL_POSITION 64), (65), by decide +kernel⟩,
    ⟨up, (5), (6), by decide +kernel⟩,
    ⟨(up.wr R.ERRLOG_TAIL_POSITION 64), (64), by decide +kernel⟩,
    ⟨(up.wr R.ERRLOG_TAIL_POSITION 64), (65), by decide +kernel⟩,
    ⟨up, (1), by decide +kernel⟩,
    ⟨(atTime (errsUp fun e => { e with wdLast := [(1, 1)] }) 999999999), (1), by decide +kernel⟩,
    ⟨up, (1), by decide +kernel⟩,
    ⟨(errsUp fun e => { e with restarting := [1] }), (1), by decide +kernel⟩,
    ⟨up, (8), by decide +kernel⟩,
    ⟨(guardUp id), by decide +kernel⟩⟩

theorem witness_BootAndLink :
    (∃ (s : Machine.State) (straps : ℕ), (s.aon = false) ∧ (straps < 16)) ∧
    (∃ (s : Machine.State), (s.aon = true)) ∧
    (∃ (s : Machine.State), (s.board.boot = 1) ∧ (s.halted = false) ∧ (s.testMode = false) ∧ (s.loadFirmware.2 = true)) ∧
    (∃ (s : Machine.State), (s.board.boot ≠ 1)) ∧
    (∃ (s : Machine.State), (s.board.boot = 5) ∧ (s.halted = false)) ∧
    (∃ (s : Machine.State), (s.bootUp = true) ∧ (s.ready = false) ∧ (s.rings.linkUp = true) ∧ (s.board.boot ≠ 5) ∧ (s.hostMode = true)) ∧
    (∃ (s : Machine.State) (key : ℕ), (s.bootUp = true) ∧ (s.ready = true) ∧ (key ≠ 18514)) ∧
    (∃ (s : Machine.State), (s.bootUp = true) ∧ (s.ready = true) ∧ (s.power.exit = 0)) ∧
    (∃ (s : Machine.State), (s.bootUp = true) ∧ (s.ready = true) ∧ (s.power.exit ≠ 0)) ∧
    (∃ (cause : ℕ), (cause < 8)) ∧
    (∃ (s : Machine.State), (s.aon = true) ∧ (s.flag R.ERRLOG_STATUS_FATAL = false) ∧ (s.hubAsleep = true)) ∧
    (∃ (s : Machine.State), (s.aon = true) ∧ (s.flag R.ERRLOG_STATUS_FATAL = false) ∧ (s.hubAsleep = false) ∧ (s.ready = true) ∧ (s.board.extest =
      false) ∧ (s.power.exit = 0)) ∧
    (∃ (s : Machine.State), (s.hubUp = true) ∧ (s.power.perst = false) ∧ (s.aon = true) ∧ (s.testMode = false) ∧ (9 ∉ s.volt.off)) ∧
    (∃ (s : Machine.State) (n : ℕ), (n < 4) ∧ (s.alarmDue n = true)) ∧
    (∃ (s : Machine.State) (n : ℕ), (n < 4) ∧ (s.alarmDue n = false)) ∧
    (∃ (s : Machine.State) (n : ℕ), (n < 4) ∧ (s.hubUp = true)) :=
  ⟨
    ⟨up.unpowered, (15), by decide +kernel⟩,
    ⟨up, by decide +kernel⟩,
    ⟨(booting 1 0), by decide +kernel⟩,
    ⟨up, by decide +kernel⟩,
    ⟨(booting 5 0), by decide +kernel⟩,
    ⟨(booting 1 1), by decide +kernel⟩,
    ⟨up, (0), by decide +kernel⟩,
    ⟨up, by decide +kernel⟩,
    ⟨(exiting .sleep 1 false), by decide +kernel⟩,
    ⟨(7), by decide +kernel⟩,
    ⟨(inPower up .off), by decide +kernel⟩,
    ⟨up, by decide +kernel⟩,
    ⟨up, by decide +kernel⟩,
    ⟨alarmS, (3), by decide +kernel⟩,
    ⟨up, (3), by decide +kernel⟩,
    ⟨up, (3), by decide +kernel⟩⟩

theorem witness_EveryCommandRuns :
    (∃ i : Instr, i.wellFormed = true) ∧
    (∃ i : Instr, i.wellFormed = false) :=
  ⟨
    ⟨.thermalTrip 9, by decide⟩,
    ⟨.thermalTrip 10, by decide⟩⟩

theorem witness_StepKeepsForm :
    (∃ s t : State, s.regsOk ∧ s.memOk ∧ s.queueOk ∧ step s = .next t) :=
  ⟨{ up with pending := [.pcieSurpriseDown] }, { up with rings := { up.rings with linkUp := false } }, by unfold State.regsOk; decide +kernel, by
    unfold State.memOk; decide +kernel, by unfold State.queueOk; decide, rfl⟩

theorem witness_RowCodes :
    (∃ (bs : List Nat) (n i : Nat), (∀ b ∈ bs, b < 256) ∧ i < n) :=
  ⟨[0xAB, 0xFF], 4, 3, by decide⟩

theorem witness_ConverterCodes :
    (∃ d b s : Nat, 0 < d ∧ 0 < b ∧ s ≤ 7) :=
  ⟨1, 8, 7, by decide⟩

theorem witness_PeripheryScaling :
    (∃ (t : Nat → Int) (p : Int), (∀ i, -32768 ≤ t i ∧ t i ≤ 32767) ∧ -32768 ≤ p ∧ p ≤ 32767) :=
  ⟨fun i => if i = 255 then 32767 else -32768, 32767, fun i => by by_cases h : i = 255 <;> simp [h], by decide⟩

theorem witness_OutputCodes :
    (∃ (ts vs : List Int) (o : Nat), ts.length = 255 ∧ o < vs.length) :=
  ⟨List.replicate 255 (-5), [7], 0, List.length_replicate, by decide⟩

theorem witness_CapInForce :
    (∃ (s : Machine.State),
      let b : ℕ := s.rd R.PRESS_CHAIN_BUDGET_MW;
      (s.legacy = false)) ∧
    (∃ (s : Machine.State),
      let b : ℕ := s.rd R.PRESS_CHAIN_BUDGET_MW;
      let c : ℕ := if b = 0 then s.capMw else min s.capMw b;
      (s.legacy = true) ∧ (c < 60000)) ∧
    (∃ (s : Machine.State) (x : ℕ),
      let b : ℕ := s.rd R.PRESS_CHAIN_BUDGET_MW;
      let c : ℕ := if b = 0 then s.capMw else min s.capMw b;
      (s.legacy = true) ∧ (60000 ≤ c) ∧ (x ∈ [60000, 90000, 120000, 180000]) ∧ (x ≤ c)) :=
  ⟨
    ⟨up, by decide +kernel⟩,
    ⟨((legacyS .run).wr R.PRESS_CHAIN_BUDGET_MW 59999), by decide +kernel⟩,
    ⟨(legacyS .run), 60000, by decide +kernel⟩⟩

end Sys2Proof.Tests
end

section
/-!
PROOFS. The step: what it runs, what every step keeps, what reset leaves, and the fields of registers.
-/

namespace Sys2Proof.Machine

/-- Settles O1: `step` matches on the queue. -/
theorem stepRunsFront : Obligations.StepRunsFront := by
  intro s c t h
  simp only [step, h]

/-- Every meaning keeps the queue and the canonical forms: one lemma of Laws/Keeps*.lean per command. -/
theorem Keeps.exec {q : List Instr} {s : State} (h : Keeps q s) (i : Instr) : KeepsO q (exec i s) := by
  cases i with
  | workRingDoorbell f w value bytes => exact Keeps.execWorkRingDoorbell h f w value bytes
  | doneRingDoorbell f d value bytes => exact Keeps.execDoneRingDoorbell h f d value bytes
  | eventRingDoorbell f value bytes => exact Keeps.execEventRingDoorbell h f value bytes
  | descriptorFetch f w n => exact Keeps.execDescriptorFetch h f w n
  | nop f w => exact Keeps.execNop h f w
  | runStep f w => exact Keeps.execRunStep h f w
  | stepBind uid cal => exact Keeps.execStepBind h uid cal
  | stepComplete uid => exact Keeps.execStepComplete h uid
  | dmaCopy f w => exact Keeps.execDmaCopy h f w
  | dmaCopyComplete uid => exact Keeps.execDmaCopyComplete h uid
  | bufAlloc f w => exact Keeps.execBufAlloc h f w
  | bufAllocZeroDone uid => exact Keeps.execBufAllocZeroDone h uid
  | bufFree f w => exact Keeps.execBufFree h f w
  | bufFreeResume uid => exact Keeps.execBufFreeResume h uid
  | programDecks f w => exact Keeps.execProgramDecks h f w
  | rinse f w => exact Keeps.execRinse h f w
  | programTargetStart uid pos => exact Keeps.execProgramTargetStart h uid pos
  | claim uid pos => exact Keeps.execClaim h uid pos
  | rowPass uid pos open_ => exact Keeps.execRowPass h uid pos open_
  | commit uid pos => exact Keeps.execCommit h uid pos
  | vprogFault => exact Keeps.execVprogFault h
  | pegSignal f w => exact Keeps.execPegSignal h f w
  | pegWait f w => exact Keeps.execPegWait h f w
  | fence f w => exact Keeps.execFence h f w
  | powerHint f w => exact Keeps.execPowerHint h f w
  | selfTest f w => exact Keeps.execSelfTest h f w
  | calibrate f w => exact Keeps.execCalibrate h f w
  | testDeadline uid pos => exact Keeps.execTestDeadline h uid pos
  | lend f w => exact Keeps.execLend h f w
  | reclaim f w => exact Keeps.execReclaim h f w
  | lendExpiry e => exact Keeps.execLendExpiry h e
  | streamBind f w => exact Keeps.execStreamBind h f w
  | instReset f w => exact Keeps.execInstReset h f w
  | completionRecordWrite => exact Keeps.execCompletionRecordWrite h
  | heldRecordRelease f d => exact Keeps.execHeldRecordRelease h f d
  | wrCtrlEnable f w value => exact Keeps.execWrCtrlEnable h f w value
  | drCtrlEnable f d value => exact Keeps.execDrCtrlEnable h f d value
  | evCtrlEnable f value => exact Keeps.execEvCtrlEnable h f value
  | operationStart uid st op => exact Keeps.execOperationStart h uid st op
  | eval uid st op oor => exact Keeps.execEval h uid st op oor
  | evalHandoff e => exact Keeps.execEvalHandoff h e
  | evalPleat uid st op cal oor => exact Keeps.execEvalPleat h uid st op cal oor
  | pleatHandoff e => exact Keeps.execPleatHandoff h e
  | act uid st op => exact Keeps.execAct h uid st op
  | pool uid st op => exact Keeps.execPool h uid st op
  | vecAdd uid st op => exact Keeps.execVecAdd h uid st op
  | vecSub uid st op => exact Keeps.execVecSub h uid st op
  | vecMax uid st op => exact Keeps.execVecMax h uid st op
  | vecMul uid st op => exact Keeps.execVecMul h uid st op
  | vecScale uid st op => exact Keeps.execVecScale h uid st op
  | vecCvt uid st op => exact Keeps.execVecCvt h uid st op
  | vecQuant uid st op => exact Keeps.execVecQuant h uid st op
  | vectorOpComplete uid st op => exact Keeps.execVectorOpComplete h uid st op
  | move uid st op => exact Keeps.execMove h uid st op
  | moveComplete uid st op => exact Keeps.execMoveComplete h uid st op
  | prefetch uid st op => exact Keeps.execPrefetch h uid st op
  | matmul uid st op => exact Keeps.execMatmul h uid st op
  | batched uid st op => exact Keeps.execBatched h uid st op
  | gather uid st op => exact Keeps.execGather h uid st op
  | scatter uid st op => exact Keeps.execScatter h uid st op
  | scatterAdd uid st op => exact Keeps.execScatterAdd h uid st op
  | qk uid st op => exact Keeps.execQk h uid st op
  | av uid st op => exact Keeps.execAv h uid st op
  | rope uid st op => exact Keeps.execRope h uid st op
  | rms uid st op => exact Keeps.execRms h uid st op
  | layer uid st op => exact Keeps.execLayer h uid st op
  | softmax uid st op => exact Keeps.execSoftmax h uid st op
  | topk uid st op => exact Keeps.execTopk h uid st op
  | peBlockStep cl => exact Keeps.execPeBlockStep h cl
  | peOperationComplete cl => exact Keeps.execPeOperationComplete h cl
  | pegAdd uid st op => exact Keeps.execPegAdd h uid st op
  | pegSet uid st op => exact Keeps.execPegSet h uid st op
  | pegWaitGe uid st op => exact Keeps.execPegWaitGe h uid st op
  | pegWaitEq uid st op => exact Keeps.execPegWaitEq h uid st op
  | nopOp uid st op => exact Keeps.execNopOp h uid st op
  | waitRegistrationRetry n => exact Keeps.execWaitRegistrationRetry h n
  | pegWatchdog n => exact Keeps.execPegWatchdog h n
  | aliasAdd f a part value => exact Keeps.execAliasAdd h f a part value
  | aliasSet f a part value => exact Keeps.execAliasSet h f a part value
  | pegSnapTake => exact Keeps.execPegSnapTake h
  | prefetchEntryIssue uid k => exact Keeps.execPrefetchEntryIssue h uid k
  | prefetchEntryDone uid k => exact Keeps.execPrefetchEntryDone h uid k
  | tileExpand uid k bad => exact Keeps.execTileExpand h uid k bad
  | tileReread uid k bad => exact Keeps.execTileReread h uid k bad
  | stepLateFetch uid cl => exact Keeps.execStepLateFetch h uid cl
  | backgroundVisit e => exact Keeps.execBackgroundVisit h e
  | checkEvaluationDone e => exact Keeps.execCheckEvaluationDone h e
  | checkRetry e => exact Keeps.execCheckRetry h e
  | darnComplete e ok => exact Keeps.execDarnComplete h e ok
  | columnCalibration e => exact Keeps.execColumnCalibration h e
  | referenceRecalibration r => exact Keeps.execReferenceRecalibration h r
  | sensorSample temps => exact Keeps.execSensorSample h temps
  | scrubBlock find => exact Keeps.execScrubBlock h find
  | pageMoveComplete page => exact Keeps.execPageMoveComplete h page
  | packetAtHem dom uid st op => exact Keeps.execPacketAtHem h dom uid st op
  | domainDown uid st op => exact Keeps.execDomainDown h uid st op
  | skewMonitorTrip d x => exact Keeps.execSkewMonitorTrip h d x
  | skewMonitorRelease d x => exact Keeps.execSkewMonitorRelease h d x
  | instSelWrite value => exact Keeps.execInstSelWrite h value
  | create keyOk => exact Keeps.execCreate h keyOk
  | apply => exact Keeps.execApply h
  | reset keyOk => exact Keeps.execReset h keyOk
  | destroy keyOk => exact Keeps.execDestroy h keyOk
  | inflightZero inst => exact Keeps.execInflightZero h inst
  | instResetTimeout inst => exact Keeps.execInstResetTimeout h inst
  | vfEnableClear n keyOk => exact Keeps.execVfEnableClear h n keyOk
  | vfEnable n => exact Keeps.execVfEnable h n
  | vfFlr inst keyOk => exact Keeps.execVfFlr h inst keyOk
  | pfFlr keyOk => exact Keeps.execPfFlr h keyOk
  | getVersion => exact Keeps.execGetVersion h
  | getCapabilities => exact Keeps.execGetCapabilities h
  | negotiateAlgorithms => exact Keeps.execNegotiateAlgorithms h
  | getDigests => exact Keeps.execGetDigests h
  | getCertificate slot off len => exact Keeps.execGetCertificate h slot off len
  | challenge slot nonce => exact Keeps.execChallenge h slot nonce
  | getMeasurements index sign nonce => exact Keeps.execGetMeasurements h index sign nonce
  | spdmUnsupportedRequest code => exact Keeps.execSpdmUnsupportedRequest h code
  | frameBoundary late => exact Keeps.execFrameBoundary h late
  | fspPacket port pkt => exact Keeps.execFspPacket h port pkt
  | fspClockLoss port => exact Keeps.execFspClockLoss h port
  | guardOscTrim => exact Keeps.execGuardOscTrim h
  | guardCheckEval l => exact Keeps.execGuardCheckEval h l
  | guardCheckRetry l => exact Keeps.execGuardCheckRetry h l
  | guardCalibration l e => exact Keeps.execGuardCalibration h l e
  | laneEnWrite value => exact Keeps.execLaneEnWrite h value
  | comparatorTrip c vin => exact Keeps.execComparatorTrip h c vin
  | comparatorDeglitch c => exact Keeps.execComparatorDeglitch h c
  | cmpCfgWrite c value => exact Keeps.execCmpCfgWrite h c value
  | latchedClear value => exact Keeps.execLatchedClear h value
  | guardPortLatch a => exact Keeps.execGuardPortLatch h a
  | guardLoad => exact Keeps.execGuardLoad h
  | save l => exact Keeps.execSave h l
  | load l => exact Keeps.execLoad h l
  | restoreDecks l => exact Keeps.execRestoreDecks h l
  | darn l => exact Keeps.execDarn h l
  | saveGlobal => exact Keeps.execSaveGlobal h
  | laneCmdEnd status => exact Keeps.execLaneCmdEnd h status
  | frameStart p vc num hdr => exact Keeps.execFrameStart h p vc num hdr
  | longPacket p vc dt bytes crcBad hdr => exact Keeps.execLongPacket h p vc dt bytes crcBad hdr
  | frameEnd p vc num hdr => exact Keeps.execFrameEnd h p vc num hdr
  | frameClose c => exact Keeps.execFrameClose h c
  | frameTimeout c => exact Keeps.execFrameTimeout h c
  | csiLinkError p kind => exact Keeps.execCsiLinkError h p kind
  | pstateReqRun => exact Keeps.execPstateReqRun h
  | pstateReqIdle => exact Keeps.execPstateReqIdle h
  | pstateReqSleep => exact Keeps.execPstateReqSleep h
  | pstateReqDeep => exact Keeps.execPstateReqDeep h
  | pstateReqOff => exact Keeps.execPstateReqOff h
  | autoIdle => exact Keeps.execAutoIdle h
  | entryAnswer b => exact Keeps.execEntryAnswer h b
  | entryAnswerTimeout b => exact Keeps.execEntryAnswerTimeout h b
  | linkL2l3Ready => exact Keeps.execLinkL2l3Ready h
  | entryComplete => exact Keeps.execEntryComplete h
  | wakeEvent src detail => exact Keeps.execWakeEvent h src detail
  | devWakeN => exact Keeps.execDevWakeN h
  | vrPgood => exact Keeps.execVrPgood h
  | oscRdy => exact Keeps.execOscRdy h
  | memRdy => exact Keeps.execMemRdy h
  | logicRdy keyOk => exact Keeps.execLogicRdy h keyOk
  | readyTimeout => exact Keeps.execReadyTimeout h
  | avsVdone rail => exact Keeps.execAvsVdone h rail
  | avsAttemptTimeout rail => exact Keeps.execAvsAttemptTimeout h rail
  | avsProbe bus ok mv => exact Keeps.execAvsProbe h bus ok mv
  | voltRailWrite rail value => exact Keeps.execVoltRailWrite h rail value
  | lbEntryStage n value => exact Keeps.execLbEntryStage h n value
  | lbEntryCommit value => exact Keeps.execLbEntryCommit h value
  | pressTick est => exact Keeps.execPressTick h est
  | pressCalibration ma => exact Keeps.execPressCalibration h ma
  | vpointLower d => exact Keeps.execVpointLower h d
  | vpointRaise d => exact Keeps.execVpointRaise h d
  | vrAlertAssert n => exact Keeps.execVrAlertAssert h n
  | vrAlertHoldEnd n => exact Keeps.execVrAlertHoldEnd h n
  | pressCapWrite value => exact Keeps.execPressCapWrite h value
  | hintStart k => exact Keeps.execHintStart h k
  | hintUnused k => exact Keeps.execHintUnused h k
  | floorEntry => exact Keeps.execFloorEntry h
  | floorExit => exact Keeps.execFloorExit h
  | chainTotalWrite value => exact Keeps.execChainTotalWrite h value
  | chainBudgetShift => exact Keeps.execChainBudgetShift h
  | program => exact Keeps.execProgram h
  | erase => exact Keeps.execErase h
  | suspend => exact Keeps.execSuspend h
  | resume => exact Keeps.execResume h
  | blankCheck => exact Keeps.execBlankCheck h
  | crc32c => exact Keeps.execCrc32c h
  | signedUpdate => exact Keeps.execSignedUpdate h
  | flashOpEnd fw => exact Keeps.execFlashOpEnd h fw
  | flashTimeout fw => exact Keeps.execFlashTimeout h fw
  | flashWindowRead off => exact Keeps.execFlashWindowRead h off
  | firmwareRecordWrite addr bytes => exact Keeps.execFirmwareRecordWrite h addr bytes
  | chainEnableWrite value => exact Keeps.execChainEnableWrite h value
  | portStateAdvance p lanes peer peerPort => exact Keeps.execPortStateAdvance h p lanes peer peerPort
  | portStateTimeout p => exact Keeps.execPortStateTimeout h p
  | form => exact Keeps.execForm h
  | formTimeout => exact Keeps.execFormTimeout h
  | idleFlit p fl => exact Keeps.execIdleFlit h p fl
  | dataFlit p fl => exact Keeps.execDataFlit h p fl
  | pegFlit p fl => exact Keeps.execPegFlit h p fl
  | descFlit p fl => exact Keeps.execDescFlit h p fl
  | recordFlit p fl => exact Keeps.execRecordFlit h p fl
  | hostFlit p fl => exact Keeps.execHostFlit h p fl
  | hostRspFlit p fl => exact Keeps.execHostRspFlit h p fl
  | regFlit p fl => exact Keeps.execRegFlit h p fl
  | ctrlFlit p fl keyOk => exact Keeps.execCtrlFlit h p fl keyOk
  | trainFlit p fl => exact Keeps.execTrainFlit h p fl
  | xackFlit p fl => exact Keeps.execXackFlit h p fl
  | nakReceived p ack => exact Keeps.execNakReceived h p ack
  | ackTimeout p => exact Keeps.execAckTimeout h p
  | portDown p => exact Keeps.execPortDown h p
  | remoteWindowAccess off write value => exact Keeps.execRemoteWindowAccess h off write value
  | remoteWindowTimeout => exact Keeps.execRemoteWindowTimeout h
  | mirrorWrite k value => exact Keeps.execMirrorWrite h k value
  | spanWrite inst value => exact Keeps.execSpanWrite h inst value
  | eventRingWrite => exact Keeps.execEventRingWrite h
  | errlogHeadWrite value => exact Keeps.execErrlogHeadWrite h value
  | doubleFault code seq => exact Keeps.execDoubleFault h code seq
  | fatalValidClear value => exact Keeps.execFatalValidClear h value
  | fwWatchdog cp => exact Keeps.execFwWatchdog h cp
  | fwRestartDone cp keyOk => exact Keeps.execFwRestartDone h cp keyOk
  | thermalTrip d => exact Keeps.execThermalTrip h d
  | vAonRise straps => exact Keeps.execVAonRise h straps
  | vAonLoss => exact Keeps.execVAonLoss h
  | coldReset keyOk dies fail => exact Keeps.execColdReset h keyOk dies fail
  | bootReady => exact Keeps.execBootReady h
  | loadCmdGo => exact Keeps.execLoadCmdGo h
  | resetCtrlWarm key keyOk dies => exact Keeps.execResetCtrlWarm h key keyOk dies
  | resetCtrlCold key => exact Keeps.execResetCtrlCold h key
  | perstNAssert keyOk dies => exact Keeps.execPerstNAssert h keyOk dies
  | perstNDeassert => exact Keeps.execPerstNDeassert h
  | pcieSurpriseDown => exact Keeps.execPcieSurpriseDown h
  | alarmFire n => exact Keeps.execAlarmFire h n
  | alarmCtrlWrite n value => exact Keeps.execAlarmCtrlWrite h n value
  | toutPulseEnd n => exact Keeps.execToutPulseEnd h n
  | bypass => exact Keeps.execBypass h
  | idcode => exact Keeps.execIdcode h
  | samplePreload pins => exact Keeps.execSamplePreload h pins
  | extest => exact Keeps.execExtest h
  | extestPulse => exact Keeps.execExtestPulse h
  | extestTrain => exact Keeps.execExtestTrain h
  | regacc dr => exact Keeps.execRegacc h dr
  | debugSnapTake value => exact Keeps.execDebugSnapTake h value
  | periApertureAccess d off write value => exact Keeps.execPeriApertureAccess h d off write value
  | clipClear d value => exact Keeps.execClipClear h d value
  | pinmuxFuncWrite n value => exact Keeps.execPinmuxFuncWrite h n value
  | parkEnd n => exact Keeps.execParkEnd h n
  | gpioEdge n rise => exact Keeps.execGpioEdge h n rise
  | i3cPrivateWrite port index => exact Keeps.execI3cPrivateWrite h port index
  | i3cPrivateRead port n => exact Keeps.execI3cPrivateRead h port n
  | entdaa port addr => exact Keeps.execEntdaa h port addr
  | setdasa port addr => exact Keeps.execSetdasa h port addr
  | spiTransaction index n => exact Keeps.execSpiTransaction h index n
  | registerWrite path off value => exact Keeps.execRegisterWrite h path off value
  | pcieLinkUp => exact Keeps.execPcieLinkUp h
  | vprogInRange => exact Keeps.execVprogInRange h
  | programFetchTimeout uid pos => exact Keeps.execProgramFetchTimeout h uid pos
  | vrAlertDeassert n => exact Keeps.execVrAlertDeassert h n
  | gpOeNRise => exact Keeps.execGpOeNRise h
  | chainPowerReport => exact Keeps.execChainPowerReport h
  | keyHealthTestFail => exact Keeps.execKeyHealthTestFail h
  | uartLineSent => exact Keeps.execUartLineSent h

/-- A step keeps the canonical forms and leaves the queue behind its front command. -/
theorem step_keeps {s : State} (hr : s.regsOk) (hm : s.memOk) : KeepsO s.pending.tail (step s) := by
  have hm' : MemWf s.mem := (Mem.wf_iff _).1 hm
  cases hq : s.pending with
  | nil =>
    have he : step s = done s.idle := by simp only [step, hq, done_eq]
    rw [he]
    exact KeepsO.done (Keeps.idle ⟨hq, hr, hm'⟩)
  | cons c t =>
    have he : step s = Machine.exec c { s with pending := t } := stepRunsFront s c t hq
    have hk : Keeps t { s with pending := t } := ⟨rfl, hr, hm'⟩
    rw [he, List.tail_cons]
    exact Keeps.exec hk c

/-- Settles O55: the queue loses its front command only, and every meaning keeps the canonical forms. -/
theorem stepKeepsForm : Obligations.StepKeepsForm := by
  intro s t hr hm hq ht
  obtain ⟨hp, hr', hm'⟩ := step_keeps hr hm t ht
  refine ⟨hr', (Mem.wf_iff _).2 hm', ?_, hp⟩
  intro c hc
  exact hq c (List.mem_of_mem_tail (hp ▸ hc))

/-- Settles O49: the laws of a field read after a write, the field's own and one apart from it. -/
theorem fieldReadBack : Obligations.FieldReadBack := by
  refine ⟨fun s f v hl hm => State.rd_wr_same s f v (by simp [RField.ok, hl, hm]), ?_⟩
  intro s f g v hf hf32 hg hg32 hd
  refine State.rd_wr_other s f g v ?_ ?_
  · simp [RField.ok, hf]; omega
  · simp [RField.apart, RField.narrow, hf32, hg32, hd]

theorem State.reset_word (k : Nat) : State.reset.word k = (regReset k).toNat := by
  unfold State.word
  rw [show State.reset.regs = [] from rfl, Tab.get_nil]

theorem State.reset_inst (i : Nat) : State.reset.inst i = instDflt i := Tab.get_nil _ i

/-- Settles O3: after reset every table is empty, so each reads as its default. -/
theorem resetState : Obligations.ResetState := by
  unfold Obligations.ResetState
  refine ⟨State.reset_word, rfl, ?_, fun i hi => ?_, fun e k => Tab.get_nil _ _, rfl, rfl, fun i => Tab.get_nil _ _, rfl,
    Tab.wf_nil _, (Mem.wf_iff _).2 memReset_wf, ?_⟩
  · rw [State.reset_inst]; rfl
  · rw [State.reset_inst, instDflt, if_neg hi]; rfl
  · intro c hc
    exact absurd hc List.not_mem_nil

end Sys2Proof.Machine
end

section
/-!
PROOFS. The shared rules of register writes that reach the device as commands: a discarded low word changes no other
part, a projection of the state that every element of a fold leaves alone, and what leaves the power states alone.
-/

namespace Sys2Proof.Machine

/-! ### The low word that a path holds (R19) -/

@[simp] theorem State.dropHeld_regs (s : State) (f : Nat) : (s.dropHeld f).regs = s.regs := Eq.trans rfl rfl
@[simp] theorem State.dropHeld_insts (s : State) (f : Nat) : (s.dropHeld f).insts = s.insts := Eq.trans rfl rfl
@[simp] theorem State.dropHeld_rings (s : State) (f : Nat) : (s.dropHeld f).rings = s.rings := Eq.trans rfl rfl
@[simp] theorem State.dropHeld_power (s : State) (f : Nat) : (s.dropHeld f).power = s.power := Eq.trans rfl rfl

@[simp] theorem State.word_dropHeld (s : State) (f k : Nat) : (s.dropHeld f).word k = s.word k := State.word_congr rfl k
@[simp] theorem State.rd_dropHeld (s : State) (f : Nat) (k : RField) : (s.dropHeld f).rd k = s.rd k := State.rd_congr rfl k
@[simp] theorem State.flag_dropHeld (s : State) (f : Nat) (k : RField) : (s.dropHeld f).flag k = s.flag k := State.flag_congr rfl k
@[simp] theorem State.inst_dropHeld (s : State) (f i : Nat) : (s.dropHeld f).inst i = s.inst i := Eq.trans rfl rfl
@[simp] theorem State.hubUp_dropHeld (s : State) (f : Nat) : (s.dropHeld f).hubUp = s.hubUp := Eq.trans rfl rfl
@[simp] theorem State.steady_dropHeld (s : State) (f : Nat) : (s.dropHeld f).steady = s.steady := Eq.trans rfl rfl

/-- On a steady device a register write that leaves the power state alone has its effect and wakes nothing (R499). -/
theorem State.cmdWrite_steady {s : State} {f : Nat} {g : State → State} (h : s.steady = true)
    (hg : (g (s.dropHeld f)).power = s.power) : s.cmdWrite f g = g (s.dropHeld f) :=
  State.pcieTouch_of f h hg

/-! ### Folds -/

/-- What every element of a list leaves alone, a fold over the list leaves alone. -/
theorem foldl_proj_mem {β γ : Type} (π : State → γ) {f : State → β → State} {l : List β} (h : ∀ x ∈ l, ∀ a, π (f a x) = π a)
    (s : State) : π (l.foldl f s) = π s := by
  induction l generalizing s with
  | nil => rfl
  | cons x t ih =>
    rw [List.foldl_cons, ih (fun y hy => h y (List.mem_cons_of_mem _ hy)), h x List.mem_cons_self]

/-- The same for what leaves a projection alone whatever the element. -/
theorem foldl_proj {β γ : Type} (π : State → γ) {f : State → β → State} (h : ∀ a x, π (f a x) = π a) (l : List β) (s : State) :
    π (l.foldl f s) = π s :=
  foldl_proj_mem π (fun x _ a => h a x) s

/-! ### What leaves the power state alone -/

@[simp] theorem State.pumpPort_power (s : State) (p : Nat) : (s.pumpPort p).power = s.power := by
  simp only [State.pumpPort, apply_ite State.power, State.bump_power, State.setPort_power, ite_self]

@[simp] theorem State.enqueue_power (s : State) (p : Nat) (f : Flit) : (s.enqueue p f).power = s.power := by
  simp only [State.enqueue, State.pumpPort_power, State.setPort_power]

@[simp] theorem State.sendFlit_power (s : State) (d i : Nat) (pl : Payload) : (s.sendFlit d i pl).power = s.power := by
  unfold State.sendFlit
  split
  · rfl
  · exact State.enqueue_power _ _ _

@[simp] theorem State.hostWrite_power (s : State) (i a : Nat) (bs : List Nat) : (s.hostWrite i a bs).power = s.power := by
  have hs : (s.hostStore a bs).power = s.power := Eq.trans rfl rfl
  unfold State.hostWrite
  split
  · refine (foldl_proj State.power (fun _ _ => ?_) _ _).trans hs
    exact State.sendFlit_power _ _ _ _
  · exact hs

end Sys2Proof.Machine
end

section
/-!
PROOFS. Doorbells and the enabling of rings (R384 to R386).
-/

namespace Sys2Proof.Machine

/-! ### What leaves the power state alone -/

@[simp] theorem State.writeEvent_power (s : State) (f : Nat) (r : Record) : (s.writeEvent f r).power = s.power := by
  simp only [State.writeEvent, apply_ite State.power, State.msix_power, State.wr_power, State.hostWrite_power, ite_self]

@[simp] theorem State.overflowMarker_power (s : State) (f : Nat) : (s.overflowMarker f).power = s.power := by
  unfold State.overflowMarker
  split
  · have hl : ∀ t : State, (t.setLost f 0).power = t.power := fun _ => Eq.trans rfl rfl
    rw [State.writeEvent_power, hl, State.countRecord_power]
  · rfl

@[simp] theorem State.setBell_power (s : State) (f off v : Nat) : (s.setBell f off v).power = s.power := Eq.trans rfl rfl

@[simp] theorem State.badBell_power (s : State) (f off v : Nat) : (s.badBell f off v).power = s.power := by
  simp only [State.badBell, State.raise_power, State.bump_power]

theorem State.bell_power (s : State) (f off v : Nat) : (s.bell f off v).power = s.power := by
  simp only [State.bell, State.workBell, State.doneBell, State.eventBell, apply_ite State.power, State.badBell_power,
    State.setBell_power, State.wr_power, State.overflowMarker_power, ite_self]

theorem State.post_power (s : State) (p : Posted) : (s.post p).power = s.power := by
  simp only [State.post, apply_ite State.power, State.raise_power, State.bump_power, ite_self]

/-! ### Which doorbell an offset of the page is (R385) -/

theorem State.bell_work (s : State) (f v : Nat) {w : Nat} (hw : w < 16) : s.bell f (4 * w) v = s.workBell f w v := by
  rw [State.bell, if_pos (by omega), Nat.mul_div_cancel_left _ (by decide)]

theorem State.bell_done (s : State) (f v : Nat) {w : Nat} (hw : w < 16) : s.bell f (0x100 + 4 * w) v = s.doneBell f w v := by
  rw [State.bell, if_neg (by omega), if_pos (by omega), Nat.add_sub_cancel_left, Nat.mul_div_cancel_left _ (by decide)]

theorem State.bell_event (s : State) (f v : Nat) : s.bell f 0x200 v = s.eventBell f v := by
  simp [State.bell]

/-- With no record lost there is no marker to write (R596). -/
theorem State.overflowMarker_of_none {s : State} {f : Nat} (h : s.lostOf f = 0) : s.overflowMarker f = s := by
  simp [State.overflowMarker, h]

/-! ### A doorbell write on a steady device -/

theorem State.bellWrite_parked {s : State} {f : Nat} (off v n : Nat) (hp : (s.inst f).st = .parked) : s.bellWrite f off v n = s := by
  simp [State.bellWrite, hp]

section bellWrite
variable {s : State} {f : Nat} (h : s.steady = true)
include h

theorem State.bellWrite_width (off v : Nat) {n : Nat} (hp : (s.inst f).st ≠ .parked) (hn : n ≠ 4) :
    s.bellWrite f off v n = s.badBell f off v := by
  simp only [State.bellWrite, State.steady_hubUp h, hp, hn, Bool.not_true, beq_iff_eq, Bool.false_or, if_false, if_true, ne_eq,
    not_false_eq_true]
  exact State.pcieTouch_of f h (State.badBell_power s f off v)

theorem State.bellWrite_held (off v : Nat) {d : Nat} (hp : (s.inst f).st ≠ .parked) (hd : s.closedFor f = some d) :
    s.bellWrite f off v 4 = s.post ⟨d, f, off, v, 4, none, false⟩ := by
  simp only [State.bellWrite, State.steady_hubUp h, hp, hd, Bool.not_true, beq_iff_eq, Bool.false_or, if_false, ne_eq, not_true_eq_false]
  exact State.pcieTouch_of f h (State.post_power _ _)

theorem State.bellWrite_open (off v : Nat) (hp : (s.inst f).st ≠ .parked) (hd : s.closedFor f = none) :
    s.bellWrite f off v 4 = s.bell f off v := by
  simp only [State.bellWrite, State.steady_hubUp h, hp, hd, Bool.not_true, beq_iff_eq, Bool.false_or, if_false, ne_eq, not_true_eq_false]
  exact State.pcieTouch_of f h (State.bell_power s f off v)

end bellWrite

/-! ### The three doorbells as commands -/

theorem execWorkRingDoorbell_eq {f w : Nat} (hf : f ≤ 16) (hw : w < 16) (v n : Nat) (s : State) :
    exec (.workRingDoorbell f w v n) s = .next ((s.dropHeld f).bellWrite f (4 * w) v n) :=
  unit_of (decide_eq_true ⟨hf, hw⟩) _

theorem execDoneRingDoorbell_eq {f w : Nat} (hf : f ≤ 16) (hw : w < 16) (v n : Nat) (s : State) :
    exec (.doneRingDoorbell f w v n) s = .next ((s.dropHeld f).bellWrite f (0x100 + 4 * w) v n) :=
  unit_of (decide_eq_true ⟨hf, hw⟩) _

theorem execEventRingDoorbell_eq {f : Nat} (hf : f ≤ 16) (v n : Nat) (s : State) :
    exec (.eventRingDoorbell f v n) s = .next ((s.dropHeld f).bellWrite f 0x200 v n) :=
  unit_of (decide_eq_true hf) _

/-! ### Accepted or refused at the hub (R386) -/

theorem State.workBell_eq (s : State) (f w v : Nat) : s.workBell f w v =
    if s.takesBells f = true ∧ s.workOn f w = true ∧ bellForm v (s.wrSize f w) = true ∧
      posCount (posOf v (s.wrSize f w)) (posOf (s.rd (R.WR_TAIL_POSITION f w)) (s.wrSize f w)) (s.wrSize f w) ≤
        s.wrSize f w - posCount (posOf (s.rd (R.WR_TAIL_POSITION f w)) (s.wrSize f w))
          (posOf (s.rd (R.WR_HEAD_POSITION f w)) (s.wrSize f w)) (s.wrSize f w)
    then (s.wr (R.WR_TAIL_POSITION f w) v).setBell f (4 * w) v else s.badBell f (4 * w) v := by
  simp only [State.workBell, Bool.and_eq_true, decide_eq_true_eq, and_assoc]

theorem State.doneBell_eq (s : State) (f d v : Nat) : s.doneBell f d v =
    if s.takesBells f = true ∧ s.flag (R.DR_CTRL_ENABLE f d) = true ∧ bellForm v (s.drSize f d) = true ∧
      posCount (posOf v (s.drSize f d)) (posOf (s.rd (R.DR_HEAD_POSITION f d)) (s.drSize f d)) (s.drSize f d) ≤
        posCount (posOf (s.rd (R.DR_TAIL_POSITION f d)) (s.drSize f d)) (posOf (s.rd (R.DR_HEAD_POSITION f d)) (s.drSize f d))
          (s.drSize f d)
    then (s.wr (R.DR_HEAD_POSITION f d) v).setBell f (0x100 + 4 * d) v else s.badBell f (0x100 + 4 * d) v := by
  simp only [State.doneBell, Bool.and_eq_true, decide_eq_true_eq, and_assoc]

theorem State.eventBell_eq (s : State) (f v : Nat) : s.eventBell f v =
    if s.takesBells f = true ∧ s.flag (R.EV_CTRL_ENABLE f) = true ∧ bellForm v (s.evSize f) = true ∧
      posCount (posOf v (s.evSize f)) (posOf (s.rd (R.EV_HEAD_POSITION f)) (s.evSize f)) (s.evSize f) ≤
        posCount (posOf (s.rd (R.EV_TAIL_POSITION f)) (s.evSize f)) (posOf (s.rd (R.EV_HEAD_POSITION f)) (s.evSize f)) (s.evSize f)
    then ((s.wr (R.EV_HEAD_POSITION f) v).setBell f 0x200 v).overflowMarker f else s.badBell f 0x200 v := by
  simp only [State.eventBell, Bool.and_eq_true, decide_eq_true_eq, and_assoc]

/-- Settles O4: which of the four ways a doorbell goes is `bellWrite_open`, `_width`, `_held` and `_parked`, and an open one is
accepted or refused by the test of its ring. -/
theorem doorbells : Obligations.Doorbells := by
  intro s f w v hs hf hw u bad heldAt workOk doneOk eventOk
  have hu : u.steady = true := hs
  simp only [execWorkRingDoorbell_eq hf hw, execDoneRingDoorbell_eq hf hw, execEventRingDoorbell_eq hf]
  refine ⟨fun hp hd => ?_, fun n hp hn => ?_, fun d hp hd => ?_, fun n hp => ?_⟩
  · have work : (s.dropHeld f).bellWrite f (4 * w) v 4 = (s.dropHeld f).workBell f w v :=
      (State.bellWrite_open hu _ v hp hd).trans (State.bell_work (s.dropHeld f) f v hw)
    have done : (s.dropHeld f).bellWrite f (0x100 + 4 * w) v 4 = (s.dropHeld f).doneBell f w v :=
      (State.bellWrite_open hu _ v hp hd).trans (State.bell_done (s.dropHeld f) f v hw)
    have event : (s.dropHeld f).bellWrite f 0x200 v 4 = (s.dropHeld f).eventBell f v :=
      (State.bellWrite_open hu _ v hp hd).trans (State.bell_event (s.dropHeld f) f v)
    have marker : s.lostOf f = 0 → (((s.dropHeld f).wr (R.EV_HEAD_POSITION f) v).setBell f 0x200 v).lostOf f = 0 := by
      intro hl
      simp only [State.lostOf, State.setBell, State.wr_errs]
      exact hl
    simp only [work, done, event, State.workBell_eq, State.doneBell_eq, State.eventBell_eq]
    refine ⟨fun hok => congrArg _ (if_pos hok), fun hok => congrArg _ (if_pos hok), fun hok => congrArg _ (if_pos hok),
      fun hok hl => ?_, fun hno => congrArg _ (if_neg hno), fun hno => congrArg _ (if_neg hno), fun hno => congrArg _ (if_neg hno)⟩
    exact congrArg _ ((if_pos hok).trans (State.overflowMarker_of_none (marker hl)))
  · exact ⟨congrArg _ (State.bellWrite_width hu _ v hp hn), congrArg _ (State.bellWrite_width hu _ v hp hn),
      congrArg _ (State.bellWrite_width hu _ v hp hn)⟩
  · exact ⟨congrArg _ (State.bellWrite_held hu _ v hp hd), congrArg _ (State.bellWrite_held hu _ v hp hd),
      congrArg _ (State.bellWrite_held hu _ v hp hd)⟩
  · exact ⟨congrArg _ (State.bellWrite_parked _ v n hp), congrArg _ (State.bellWrite_parked _ v n hp),
      congrArg _ (State.bellWrite_parked _ v n hp)⟩

/-! ### Enabling (R384) -/

theorem sizeOk_of {l : Nat} (h1 : 6 ≤ l) (h2 : l ≤ 16) : sizeOk l = true := decide_eq_true ⟨h1, h2⟩

theorem State.writeWrCtrl_enable {s : State} {f w v : Nat} (hb : bit v 31 = true) (hz : sizeOk (fld v 4 0) = true)
    (hoff : s.flag (R.WR_CTRL_ENABLE f w) = false) (hq : s.workRings f < (s.inst f).quota.getD 4 0) :
    s.writeWrCtrl f w v = ((((s.wr (R.WR_CTRL_DONE_RING f w) (fld v 11 8)).wr (R.WR_CTRL_SIZE_LOG2 f w) (fld v 4 0)).wr
      (R.WR_HEAD_POSITION f w) 0).wr (R.WR_TAIL_POSITION f w) 0).setFlag (R.WR_CTRL_ENABLE f w) true := by
  simp only [State.writeWrCtrl, hoff, hb, hz, decide_eq_true hq, Bool.and_self, if_true, Bool.false_eq_true, if_false]

theorem State.writeDrCtrl_enable {s : State} {f d v : Nat} (hb : bit v 31 = true) (hz : sizeOk (fld v 4 0) = true)
    (hoff : s.flag (R.DR_CTRL_ENABLE f d) = false) :
    s.writeDrCtrl f d v = (((((s.wr (R.DR_CTRL_MSIX_EN f d) (fld v 30 30)).wr (R.DR_CTRL_VECTOR f d) (fld v 21 16)).wr
      (R.DR_CTRL_SIZE_LOG2 f d) (fld v 4 0)).wr (R.DR_TAIL_POSITION f d) 0).wr (R.DR_HEAD_POSITION f d) 0).setFlag
      (R.DR_CTRL_ENABLE f d) true := by
  simp only [State.writeDrCtrl, hoff, hb, hz, Bool.and_self, if_true, Bool.false_eq_true, if_false]

theorem State.writeEvCtrl_enable {s : State} {f v : Nat} (hb : bit v 31 = true) (hz : sizeOk (fld v 4 0) = true)
    (hoff : s.flag (R.EV_CTRL_ENABLE f) = false) (hl : s.lostOf f = 0) :
    s.writeEvCtrl f v = (((((s.wr (R.EV_CTRL_MSIX_EN f) (fld v 30 30)).wr (R.EV_CTRL_VECTOR f) (fld v 21 16)).wr
      (R.EV_CTRL_SIZE_LOG2 f) (fld v 4 0)).wr (R.EV_TAIL_POSITION f) 0).wr (R.EV_HEAD_POSITION f) 0).setFlag
      (R.EV_CTRL_ENABLE f) true := by
  simp only [State.writeEvCtrl, hoff, hb, hz, Bool.and_self, if_true, Bool.false_eq_true, if_false]
  refine State.overflowMarker_of_none ?_
  simpa only [State.lostOf, State.setFlag_errs, State.wr_errs] using hl

/-- Settles O7: each control register's write by `write…Ctrl_enable`, which leaves the power state alone. -/
theorem ringsEnabled : Obligations.RingsEnabled := by
  intro s f w v hs hf hw hb h6 h16 u
  have hz := sizeOk_of h6 h16
  have hup : s.hubUp = true := State.steady_hubUp hs
  have hring : ringOk f w = true := decide_eq_true ⟨hf, hw⟩
  have hfn : fnOk f = true := decide_eq_true hf
  refine ⟨fun hoff hq => ?_, fun hoff => ?_, fun hoff hl => ?_⟩
  · have he : u.writeWrCtrl f w v = _ := State.writeWrCtrl_enable hb hz ((State.flag_dropHeld ..).trans hoff) hq
    rw [exec_wrCtrlEnable, execWrCtrlEnable, unit_of hring, when_of hup, State.cmdWrite_steady hs, he]
    rw [he]
    simp only [u, State.setFlag_power, State.wr_power, State.dropHeld_power]
  · have he : u.writeDrCtrl f w v = _ := State.writeDrCtrl_enable hb hz ((State.flag_dropHeld ..).trans hoff)
    rw [exec_drCtrlEnable, execDrCtrlEnable, unit_of hring, when_of hup, State.cmdWrite_steady hs, he]
    rw [he]
    simp only [u, State.setFlag_power, State.wr_power, State.dropHeld_power]
  · have he : u.writeEvCtrl f v = _ := State.writeEvCtrl_enable hb hz ((State.flag_dropHeld ..).trans hoff) hl
    rw [exec_evCtrlEnable, execEvCtrlEnable, unit_of hfn, when_of hup, State.cmdWrite_steady hs, he]
    rw [he]
    simp only [u, State.setFlag_power, State.wr_power, State.dropHeld_power]

end Sys2Proof.Machine
end

section
/-!
PROOFS. Alias writes and the peg snapshot (R364 to R366, R376).
-/

namespace Sys2Proof.Machine

/-! ### Alias writes of 64 bits -/

/-- An alias write by an instance that is not parked, at a hub that is up (R364). -/
theorem State.aliasCmd_open {s : State} {f : Nat} (a part v : Nat) (set : Bool) (hu : s.hubUp = true) (hp : (s.inst f).st ≠ .parked) :
    s.aliasCmd f a part v set = (s.aliasWrite f a part v set).pcieTouch f := by
  have hc : (s.hubUp && (s.inst f).st != .parked) = true := by simp [hu, hp]
  exact when_of hc _

theorem State.aliasWrite_dropped {s : State} {f a : Nat} (v : Nat) (set : Bool) (h : s.aliasOk f a = false) :
    s.aliasWrite f a 0 v set = s.setFlag (R.ALIAS_STATUS_DROPPED f a) true := by
  simp [State.aliasWrite, State.aliasTake, h]

/-- A whole value acts on the target at once (R365). -/
theorem State.aliasWrite_acts {s : State} {f a v : Nat} (set : Bool) (h : s.aliasOk f a = true) (hv : v < 2 ^ 64)
    (hc : s.power.closed.contains (pegDomain (s.aliasLoc f a)) = false) (hh : s.heldTo hubSide (pegDomain (s.aliasLoc f a)) = false) :
    s.aliasWrite f a 0 v set = s.pegOp f (s.aliasLoc f a) (s.compat f) set v (pegId 4 f a) := by
  have hallow : s.pegAllowed f (s.aliasLoc f a) = true := by
    simp only [State.aliasOk, Bool.and_eq_true] at h
    exact h.2
  simp only [State.aliasWrite, State.aliasTake, h, hc, hh, State.aliasAct, hallow, if_true, Bool.not_true, Bool.or_self,
    Bool.false_eq_true, if_false, Nat.mod_eq_of_lt hv]

/-- ALIAS_ADD and ALIAS_SET are one command but for the operation. -/
theorem exec_alias {f a : Nat} (hf : f ≤ 16) (ha : a < 64) (v : Nat) (set : Bool) (s : State) :
    exec (if set then .aliasSet f a 0 v else .aliasAdd f a 0 v) s = .next (s.aliasCmd f a 0 v set) := by
  have hok : decide (f ≤ 16 ∧ a < 64 ∧ 0 ≤ 2) = true := decide_eq_true ⟨hf, ha, by decide⟩
  cases set
  · exact unit_of hok _
  · exact unit_of hok _

/-! ### The snapshot -/

/-- No peg is selected: the snapshot is cleared, and DONE set (R376). -/
theorem State.pegSnap_none {s : State} (h : ∀ l, s.selPeg = some l → s.isPeg l = false) :
    s.pegSnap = (s.setWords 0xA0014 (List.replicate 15 0)).setFlag R.PEG_STATUS_DONE true := by
  unfold State.pegSnap
  cases hl : s.selPeg with
  | none => rfl
  | some l => simp only [h l hl, Bool.not_false, if_true]

/-- Settles O18: `aliasWrite_acts`, `aliasWrite_dropped` and `pegSnap_none`. -/
theorem aliasesAndSnapshot : Obligations.AliasesAndSnapshot := by
  refine ⟨?_, fun s hs hsel => ?_⟩
  · intro s f a v set hf ha hs hp hv c l
    simp only [c, exec_alias hf ha, State.aliasCmd_open a 0 v set (State.steady_hubUp hs) hp]
    refine ⟨fun hok hc hh => ?_, fun hok => ?_⟩
    · rw [State.aliasWrite_acts set hok hv hc hh]
    · rw [State.aliasWrite_dropped v set hok, State.pcieTouch_of f hs (State.setFlag_power ..)]
  · have he : (s.dropHeld 0).pegSnap = _ := State.pegSnap_none (s := s.dropHeld 0) hsel
    rw [exec_pegSnapTake, execPegSnapTake, done_eq, when_of (State.steady_hubUp hs), State.cmdWrite_steady hs, he]
    rw [he, State.setFlag_power, State.setWords_power, State.dropHeld_power]

end Sys2Proof.Machine
end

section
/-!
PROOFS. The commands of the INST block (R415 to R420, R427, R432).
-/

namespace Sys2Proof.Machine

/-- What a GO that is taken leaves before its operation runs: BUSY, and the instance `i` it is for (R415). -/
def State.instTaken (s : State) (i : Nat) : State :=
  { s.setFlag R.INST_RESULT_BUSY true with
    rings := { (s.setFlag R.INST_RESULT_BUSY true).rings with instBusy := some i } }

@[simp] theorem State.instTaken_insts (s : State) (i : Nat) : (s.instTaken i).insts = s.insts := by
  simp only [State.instTaken, State.setFlag_insts]

@[simp] theorem State.instTaken_mem (s : State) (i : Nat) : (s.instTaken i).mem = s.mem := by
  simp only [State.instTaken, State.setFlag_mem]

@[simp] theorem State.instTaken_numVfs (s : State) (i : Nat) : (s.instTaken i).rings.numVfs = s.rings.numVfs := by
  simp only [State.instTaken, State.setFlag_rings]

theorem State.instTaken_sel (s : State) (i : Nat) : (s.instTaken i).rd R.INST_SEL_INSTANCE = s.rd R.INST_SEL_INSTANCE := by
  simp only [State.instTaken, State.rd_with_rings]
  exact State.rd_setFlag_other s _ _ true (by decide) (by decide)

/-! ### GO -/

theorem State.instCmd_busy {s : State} (op : Nat) (keyOk : Bool) (hs : s.steady = true) (hb : s.flag R.INST_RESULT_BUSY = true) :
    s.instCmd op keyOk = s.dropHeld 0 := by
  have he : (s.dropHeld 0).instGo op keyOk = s.dropHeld 0 := if_pos ((State.flag_dropHeld ..).trans hb)
  rw [State.instCmd, when_of (State.steady_hubUp hs), State.cmdWrite_steady hs]
  · exact he
  · rw [he, State.dropHeld_power]

theorem State.instCmd_runs {s : State} {op : Nat} (keyOk : Bool) (hu : s.hubUp = true) (hb : s.flag R.INST_RESULT_BUSY = false)
    (hf : s.fwUp = true) :
    s.instCmd op keyOk = (((s.dropHeld 0).instTaken (s.rd R.INST_SEL_INSTANCE)).instRun op keyOk).pcieTouch 0 := by
  have he : (s.dropHeld 0).instGo op keyOk = ((s.dropHeld 0).instTaken (s.rd R.INST_SEL_INSTANCE)).instRun op keyOk := by
    have hf' : (s.dropHeld 0).fwUp = true := hf
    simp only [State.instGo, State.flag_dropHeld, State.rd_dropHeld, hb, hf', if_true, Bool.false_eq_true, if_false, State.instTaken]
  rw [State.instCmd, when_of hu, State.cmdWrite, he]

/-! ### Each operation on the selected instance -/

section instRun
variable {s : State} {i : Nat} (hi : s.rd R.INST_SEL_INSTANCE = i) (h16 : i ≤ 16)
include hi h16

theorem State.instRun_create (keyOk : Bool) : s.instRun 1 keyOk = s.instCreate i keyOk false := by
  subst hi; simp [State.instRun, Nat.not_lt.2 h16]

theorem State.instRun_apply (keyOk : Bool) : s.instRun 2 keyOk = s.instApply i false := by
  subst hi; simp [State.instRun, Nat.not_lt.2 h16]

theorem State.instRun_reset (keyOk : Bool) : s.instRun 3 keyOk = s.instResetCmd i keyOk := by
  subst hi; simp [State.instRun, Nat.not_lt.2 h16]

theorem State.instRun_destroy (keyOk : Bool) : s.instRun 4 keyOk = s.instDestroy i keyOk := by
  subst hi; simp [State.instRun, Nat.not_lt.2 h16]

end instRun

theorem State.instCreate_exists {s : State} {i : Nat} (keyOk res : Bool) (h : (s.inst i).st ≠ .none) :
    s.instCreate i keyOk res = s.instEnd St.instExists := if_pos h

/-- CREATE with a key pair drawn (R416, R417, R421). -/
theorem State.instCreate_ready {s : State} {i g k : Nat} {res : Bool} (hst : (s.inst i).st = .none) (hvf : i ≤ s.rings.numVfs)
    (hok : s.hamperStatus i s.staged res = St.ok) (hkf : s.mem.keyFail = false) (hk : s.mem.nextKey = k) (hk0 : k ≠ 0)
    (hg : (s.inst i).gen = g) :
    s.instCreate i true res =
      (((({ s with mem := { s.mem with nextKey := s.mem.nextKey + 1 } } : State).setInst i
        { Inst.init with st := .ready, gen := (g + 1) % 65536, key := k }).applyHamper i s.staged).resetStatus i).instEnd St.ok := by
  subst hk hg
  simp only [State.instCreate, hst, hok, State.drawKey, hkf, hk0, Nat.not_lt.2 hvf, ne_eq, not_true_eq_false, if_true, if_false,
    Bool.false_eq_true]

theorem State.instApply_ready {s : State} {i : Nat} {res : Bool} (hst : (s.inst i).st = .ready)
    (hok : s.hamperStatus i s.staged res = St.ok) : s.instApply i res = (s.applyHamper i s.staged).instEnd St.ok := by
  simp only [State.instApply, hst, hok, ne_eq, not_true_eq_false, if_false]

theorem State.instResetCmd_ready {s : State} {i : Nat} (keyOk : Bool) (h1 : 1 ≤ i) (hst : (s.inst i).st = .ready) :
    s.instResetCmd i keyOk = (s.bump (R.BOOT_RESET_COUNT_COUNT 3) 1).askReset i none true false false keyOk := by
  simp [State.instResetCmd, hst, Nat.ne_of_gt h1]

theorem State.instDestroy_ready {s : State} {i : Nat} (keyOk : Bool) (h1 : 1 ≤ i) (hst : (s.inst i).st = .ready) :
    s.instDestroy i keyOk = s.askReset i none true false true keyOk := by
  simp [State.instDestroy, hst, Nat.ne_of_gt h1]

/-- Settles O30: a GO that is taken runs its operation on `instTaken` (`instCmd_runs`), and each operation has its lemma. -/
theorem instanceCommands : Obligations.InstanceCommands := by
  refine ⟨fun s v hu => ?_, fun s keyOk hs hb => ?_, ?_⟩
  · rw [exec_instSelWrite, execInstSelWrite, done_eq, when_of hu]
    rfl
  · have h := fun op k => congrArg (Host.Outcome.next (φ := Fault) (ρ := Refusal)) (State.instCmd_busy op k hs hb)
    exact ⟨h 1 keyOk, h 2 true, h 3 keyOk, h 4 keyOk⟩
  · intro s keyOk hu hb hf i s0 s1
    have run : ∀ op k, done (s.instCmd op k) = .next ((s1.instRun op k).pcieTouch 0) := fun op k =>
      congrArg _ (State.instCmd_runs k hu hb hf)
    have hsel : s1.rd R.INST_SEL_INSTANCE = i := State.instTaken_sel (s.dropHeld 0) i
    have hinsts : s1.insts = s.insts := State.instTaken_insts (s.dropHeld 0) i
    have hmem : s1.mem = s.mem := State.instTaken_mem (s.dropHeld 0) i
    have hvfs : s1.rings.numVfs = s.rings.numVfs := State.instTaken_numVfs (s.dropHeld 0) i
    clear_value s1
    have hinst : s1.inst i = s.inst i := by rw [State.inst, State.inst, hinsts]
    refine ⟨fun h1 h16 hst hvf hok hkf hk => ?_, fun h16 hst => ?_, fun h16 hst hok => ?_, fun h1 h16 hst => ⟨?_, ?_⟩, fun h0 => ⟨?_, ?_⟩⟩
    · rw [exec_create, execCreate, run, State.instRun_create hsel h16, State.instCreate_ready (hinst ▸ hst) (hvfs ▸ hvf) hok (hmem ▸ hkf)
        (congrArg Mem.nextKey hmem) hk (congrArg Inst.gen hinst)]
    · rw [exec_create, execCreate, run, State.instRun_create hsel h16, State.instCreate_exists _ _ (hinst ▸ hst)]
    · rw [exec_apply, execApply, run, State.instRun_apply hsel h16, State.instApply_ready (hinst ▸ hst) hok]
    · rw [exec_reset, execReset, run, State.instRun_reset hsel h16, State.instResetCmd_ready _ h1 (hinst ▸ hst)]
    · rw [exec_destroy, execDestroy, run, State.instRun_destroy hsel h16, State.instDestroy_ready _ h1 (hinst ▸ hst)]
    · rw [exec_reset, execReset, run, State.instRun_reset hsel (by omega), State.instResetCmd, if_pos h0]
    · rw [exec_destroy, execDestroy, run, State.instRun_destroy hsel (by omega), State.instDestroy, if_pos h0]

end Sys2Proof.Machine
end

section
/-!
PROOFS. Comparators, LATCHED and the guard port (R458, R461, R462, R465, R648).
-/

namespace Sys2Proof.Machine

/-- An event of a comparator outside OFF. -/
theorem unit_cmp {s : State} {c : Nat} (hc : c < 8) (hp : s.power.st ≠ .off) (f : State → State) :
    unit (decide (c < 8)) (s.when (s.power.st != .off) f) = .next (f s) := by
  rw [unit_of (decide_eq_true hc), when_of (bne_iff_ne.2 hp)]

/-! ### COMPARATOR_TRIP -/

/-- The reading of comparator `c` as `cmpInput` leaves it before it takes effect, held until `at_` when that is not 0. -/
def State.cmpRead (s : State) (c vin at_ : Nat) : State :=
  (s.setCmp c { s.cmp c with vin := vin, level := s.levelAt c vin, at_ := at_ }).wr R.GUARD_CMP_STATE_CMP_OVR
    (putBit (s.rd R.GUARD_CMP_STATE_CMP_OVR) c (s.levelAt c vin == 3))

/-- An input that comes over range may disturb the other comparators (R462). -/
def State.cmpTold (s : State) (c vin : Nat) (t : State) : State :=
  if s.levelAt c vin = 3 ∧ (s.cmp c).level ≠ 3 then t.crosstalk c else t

section cmpInput
variable {s : State} {c vin : Nat}

theorem State.cmpInput_now (hs : ¬ ((s.cmp c).level = 3 ∧ s.levelAt c vin ≠ 3)) (hd : s.flag (R.GUARD_CMP_CFG_DEGLITCH c) = false) :
    s.cmpInput c vin = s.cmpTold c vin ((s.cmpRead c vin 0).cmpEffect c) := by
  simp only [State.cmpInput, if_neg hs, hd, Bool.false_eq_true, if_false, if_true, Nat.add_zero, State.cmpTold, State.cmpRead]

theorem State.cmpInput_deglitch (hs : ¬ ((s.cmp c).level = 3 ∧ s.levelAt c vin ≠ 3)) (hd : s.flag (R.GUARD_CMP_CFG_DEGLITCH c) = true) :
    s.cmpInput c vin = s.cmpTold c vin (s.cmpRead c vin (s.now + 21)) := by
  simp only [State.cmpInput, if_neg hs, hd, if_true, State.cmpTold, State.cmpRead, Nat.zero_add, Nat.reduceEqDiff, if_false,
    Nat.add_assoc, Nat.reduceAdd]

theorem State.cmpInput_recovery (hs : (s.cmp c).level = 3 ∧ s.levelAt c vin ≠ 3) (hd : s.flag (R.GUARD_CMP_CFG_DEGLITCH c) = false) :
    s.cmpInput c vin = s.cmpRead c vin (s.now + 101) := by
  have hn : ¬ (s.levelAt c vin = 3 ∧ (s.cmp c).level ≠ 3) := fun h => hs.2 h.1
  simp only [State.cmpInput, if_pos hs, if_neg hn, hd, Bool.false_eq_true, if_false, State.cmpRead, Nat.add_zero, Nat.reduceEqDiff,
    Nat.add_assoc, Nat.reduceAdd]

theorem State.cmpInput_recovery_deglitch (hs : (s.cmp c).level = 3 ∧ s.levelAt c vin ≠ 3)
    (hd : s.flag (R.GUARD_CMP_CFG_DEGLITCH c) = true) : s.cmpInput c vin = s.cmpRead c vin (s.now + 121) := by
  have hn : ¬ (s.levelAt c vin = 3 ∧ (s.cmp c).level ≠ 3) := fun h => hs.2 h.1
  simp only [State.cmpInput, if_pos hs, if_neg hn, hd, if_true, if_false, State.cmpRead, Nat.reduceAdd, Nat.reduceEqDiff,
    Nat.add_assoc]

end cmpInput

/-! ### Register writes of the comparators -/

@[simp] theorem State.cmp_setWord (s : State) (k v c : Nat) : (s.setWord k v).cmp c = s.cmp c := by
  rw [State.cmp, State.cmp, State.setWord_guard]

@[simp] theorem State.cmp_dropHeld (s : State) (f c : Nat) : (s.dropHeld f).cmp c = s.cmp c := Eq.trans rfl rfl

/-- Settles O36: the four lemmas of `cmpInput` by DEGLITCH and recovery, and each register write by what it does to the comparator. -/
theorem comparatorsAndPort : Obligations.ComparatorsAndPort := by
  refine ⟨?_, fun s c hc hp h0 hn => ?_, ?_, fun s v hu => ?_, fun s a ha hg => ?_, fun s a ha hg => ?_, fun s => rfl⟩
  · intro s c vin hc hp x level slow deg put told
    rw [exec_comparatorTrip, execComparatorTrip, unit_cmp hc hp]
    refine ⟨fun hs hd => congrArg _ (State.cmpInput_now (of_decide_eq_false hs) hd),
      fun hs hd => congrArg _ (State.cmpInput_deglitch (of_decide_eq_false hs) hd),
      fun hs hd => congrArg _ (State.cmpInput_recovery (of_decide_eq_true hs) hd),
      fun hs hd => congrArg _ (State.cmpInput_recovery_deglitch (of_decide_eq_true hs) hd)⟩
  · rw [exec_comparatorDeglitch, execComparatorDeglitch, unit_cmp hc hp, State.cmpHeld, if_pos ⟨h0, hn⟩]
  · intro s c v hc hu s1 same s2
    rw [exec_cmpCfgWrite, execCmpCfgWrite, unit_of (decide_eq_true hc), when_of hu, State.cmdWrite]
    simp only [State.writeCmpCfg, State.cmpReread, State.cmp_dropHeld, State.rd_dropHeld, State.cmp_setWord]
    rfl
  · rw [exec_latchedClear, execLatchedClear, done_eq, when_of hu, State.cmdWrite, State.writeLatched, State.rd_dropHeld]
  · rw [exec_guardPortLatch, execGuardPortLatch, done_eq, State.portLatch, Nat.mod_eq_of_lt ha, if_pos hg]
  · have hg' : ¬ s.guard.up = true := by rw [hg]; decide
    rw [exec_guardPortLatch, execGuardPortLatch, done_eq, State.portLatch, Nat.mod_eq_of_lt ha, if_neg hg']

end Sys2Proof.Machine
end

section
/-!
PROOFS. The guard plane's load and its lane commands (R468, R474 to R476).
-/

namespace Sys2Proof.Machine

/-! ### What the load of the guard plane leaves alone -/

theorem State.modLane_again (s : State) (l : Nat) (f : Lane → Lane) : (s.modLane l f).guard.again = s.guard.again := Eq.trans rfl rfl

theorem State.setCmp_again (s : State) (c : Nat) (x : Comparator) : (s.setCmp c x).guard.again = s.guard.again := Eq.trans rfl rfl

theorem State.loadLane_again (s : State) (l : Nat) : (s.loadLane l).guard.again = s.guard.again := Eq.trans rfl rfl

theorem State.loadLane_backup (s : State) (l k : Nat) : (s.loadLane l).backup k = s.backup k := Eq.trans rfl rfl

theorem State.orStage_again (s : State) : s.orStage.guard.again = s.guard.again := by
  unfold State.orStage
  split
  · rfl
  · dsimp only
    rw [State.wr_guard]
    refine foldl_proj (fun t : State => t.guard.again) (fun a l => ?_) _ _
    split
    · exact State.modLane_again ..
    · split
      · exact State.modLane_again ..
      · rfl

theorem State.cmpEffect_again (s : State) (c : Nat) : (s.cmpEffect c).guard.again = s.guard.again := by
  simp only [State.cmpEffect, State.cmpOut, apply_ite State.guard, State.wake_guard, ite_self, State.orStage_again, State.wr_guard,
    State.setCmp_again]

theorem State.laneOn_again (s : State) (l : Nat) : (s.laneOn l).guard.again = s.guard.again := by
  unfold State.laneOn
  split
  · unfold State.laneAccepted
    rw [State.wr_guard]
    refine (foldl_proj (fun t : State => t.guard.again) (fun a e => ?_) _ _).trans (State.modLane_again ..)
    simp only [State.modDeck_guard]
  · simp only [State.wr_guard]

theorem State.loadHeader_again (s : State) : s.loadHeader.guard.again = s.guard.again := by
  have reread : ∀ (a : State) (c : Nat), (a.cmpReread c).guard.again = a.guard.again := fun a c => State.setCmp_again ..
  unfold State.loadHeader
  simp only [State.orStage_again, apply_ite State.guard, State.setFlag_guard, ite_self]
  rw [foldl_proj (fun t : State => t.guard.again) (fun a l => State.laneOn_again a l)]
  simp only [State.setFlag_guard]
  rw [foldl_proj (fun t : State => t.guard.again) (fun a c => (State.cmpEffect_again _ c).trans (reread a c)),
    foldl_proj (fun t : State => t.guard.again) (fun a k => congrArg Guard.again (State.setWord_guard a k _))]

/-- Lanes whose backups are valid are all loaded, and no record is raised (R468). -/
theorem State.loadLanes_valid (ls : List Nat) : ∀ s : State, (∀ l ∈ ls, (s.backup l).valid = true) →
    ls.foldl (fun (a : State) l => if (a.backup l).valid then a.loadLane l else a.raise Rc.guardLoadFail deviceClass noOwner l 0) s =
      ls.foldl (fun (a : State) l => a.loadLane l) s := by
  induction ls with
  | nil => exact fun _ _ => rfl
  | cons x t ih =>
    intro s h
    rw [List.foldl_cons, List.foldl_cons, if_pos (h x List.mem_cons_self)]
    exact ih _ fun l hl => (congrArg Backup.valid (State.loadLane_backup s x l)).trans (h l (List.mem_cons_of_mem _ hl))

/-- GUARD_LOAD with every backup valid and no command cut short (R468). -/
theorem State.guardLoad_valid {s : State} (hl : s.flag R.GUARD_STATUS_LOADED = false) (ha : s.autoLoad = true) (hn : s.guard.again = none)
    (hv : ∀ l, l < 16 → (s.backup l).valid = true) :
    s.guardLoad = (if ((List.range 16).foldl (fun (a : State) l => a.loadLane l) s).guard.headerOk
      then ((List.range 16).foldl (fun (a : State) l => a.loadLane l) s).loadHeader
      else (List.range 16).foldl (fun (a : State) l => a.loadLane l) s).setFlag R.GUARD_STATUS_LOADED true := by
  simp only [State.guardLoad, hl, ha, Bool.not_true, Bool.or_self, Bool.false_eq_true, if_false,
    State.loadLanes_valid _ s fun l hl => hv l (List.mem_range.1 hl)]
  generalize hL : (List.range 16).foldl (fun (a : State) l => a.loadLane l) s = s1
  have h1 : s1.guard.again = none := by
    rw [← hL, foldl_proj (fun t : State => t.guard.again) State.loadLane_again, hn]
  have h2 : ((if s1.guard.headerOk then s1.loadHeader else s1).setFlag R.GUARD_STATUS_LOADED true).guard.again = none := by
    rw [State.setFlag_guard]
    split
    · rw [State.loadHeader_again, h1]
    · exact h1
  rw [h2]

/-! ### GO of a lane command (R474, R475) -/

/-- What ends a lane command before it begins depends on the guard plane and its decks only. -/
theorem State.laneCmdStatus_congr {s t : State} (hg : t.guard = s.guard) (ha : t.arr = s.arr) (op l : Nat) :
    t.laneCmdStatus op l = s.laneCmdStatus op l := by
  have hlane : t.lane = s.lane := by unfold State.lane; rw [hg]
  have hbackup : t.backup = s.backup := by unfold State.backup; rw [hg]
  have hbad : t.guardBad = s.guardBad := by unfold State.guardBad State.deck; rw [ha]
  have hsec : t.laneSections = s.laneSections := by unfold State.laneSections; rw [hbackup]
  unfold State.laneCmdStatus
  rw [hlane, hbackup, hbad, hsec]

section laneCmdStatus
variable {s : State} {l : Nat}

theorem State.laneCmdStatus_save : s.laneCmdStatus 1 l = St.ok := by
  simp [State.laneCmdStatus]

theorem State.laneCmdStatus_saveGlobal : s.laneCmdStatus 5 l = St.ok := by
  simp [State.laneCmdStatus]

theorem State.laneCmdStatus_active {op : Nat} (h2 : 2 ≤ op) (h4 : op ≤ 4) (hon : (s.lane l).on = true) :
    s.laneCmdStatus op l = St.guardLaneActive := by
  rw [State.laneCmdStatus, if_neg (by omega), if_pos ⟨h2, h4, hon⟩]

theorem State.laneCmdStatus_load (hon : (s.lane l).on = false) (hv : (s.backup l).valid = true) : s.laneCmdStatus 2 l = St.ok := by
  simp [State.laneCmdStatus, hon, hv]

theorem State.laneCmdStatus_load_invalid (hon : (s.lane l).on = false) (hv : (s.backup l).valid = false) :
    s.laneCmdStatus 2 l = St.guardBackupInvalid := by
  simp [State.laneCmdStatus, hon, hv]

theorem State.laneCmdStatus_restoreDecks (hon : (s.lane l).on = false) (hsec : s.laneSections l ≠ []) :
    s.laneCmdStatus 3 l = St.ok := by
  simp [State.laneCmdStatus, hon, hsec]

theorem State.laneCmdStatus_darn (hon : (s.lane l).on = false)
    (hsec : ∀ e, e < 4 → s.guardBad l e ≠ [] → ((s.backup l).sections.getD e none).isSome = true) : s.laneCmdStatus 4 l = St.ok := by
  have hany : (List.range 4).any (fun e => !(s.guardBad l e).isEmpty && !((s.backup l).sections.getD e none).isSome) = false := by
    rw [List.any_eq_false]
    intro e he
    by_cases hb : s.guardBad l e = []
    · simp [hb]
    · rw [hsec e (List.mem_range.1 he) hb, Bool.not_true, Bool.and_false]
      exact Bool.false_ne_true
  simp only [State.laneCmdStatus, hany]
  simp [hon]

end laneCmdStatus

/-- The port of the guard domain passes a write at once (R302, R305). -/
theorem State.overPort_open {s : State} (k v : Nat) (g : State → State) (hh : s.power.held.contains guardCrossing = false)
    (hp : s.guard.port = []) : s.overPort k v g = g s := by
  rw [State.overPort, hh, hp]
  rfl

/-- A write that meets a held port, or others that wait there, waits in its turn (R302, R305). -/
theorem State.overPort_waits {s : State} (k v : Nat) (g : State → State)
    (h : s.power.held.contains guardCrossing = true ∨ s.guard.port ≠ []) :
    s.overPort k v g = { s with guard := { s.guard with port := s.guard.port ++ [(k, v)] } } := by
  refine if_pos ?_
  simpa [List.isEmpty_iff] using h

/-- A lane command that is taken (R474). -/
theorem State.laneGo_taken {s : State} (op l : Nat) (hb : s.flag R.GUARD_LANE_RESULT_BUSY = false) (hg : s.guard.up = true)
    (hf : s.fwUp = true) : s.laneGo op l = (s.setFlag R.GUARD_LANE_RESULT_BUSY true).laneCmdRun op l := by
  simp only [State.laneGo, hb, hg, hf, Bool.not_true, Bool.or_self, Bool.false_eq_true, if_false, if_true]

theorem State.laneCmdRun_refused {s : State} {op l st : Nat} (h : s.laneCmdStatus op l = st) (hst : st ≠ St.ok) :
    s.laneCmdRun op l = s.laneCmdEnd st := by
  rw [State.laneCmdRun, h, if_pos hst]

theorem State.laneCmdRun_ok {s : State} {op l : Nat} (h : s.laneCmdStatus op l = St.ok) :
    s.laneCmdRun op l = if op = 3 then ({ s with guard := { s.guard with cmd := some (op, l) } } : State).restoreTry l
      else if op = 4 then ({ s with guard := { s.guard with cmd := some (op, l) } } : State).darnStart l
      else { s with guard := { s.guard with cmd := some (op, l) } } := by
  rw [State.laneCmdRun, h, if_neg (not_not_intro rfl)]

/-- A lane command over an open port, none running, with a control processor up. -/
theorem State.laneCmd_taken {s : State} (op l : Nat) (hu : s.hubUp = true) (hg : s.guard.up = true) (hf : s.fwUp = true)
    (hb : s.flag R.GUARD_LANE_RESULT_BUSY = false) (hh : s.power.held.contains guardCrossing = false) (hp : s.guard.port = []) :
    s.laneCmd op l = (((s.dropHeld 0).setFlag R.GUARD_LANE_RESULT_BUSY true).laneCmdRun op l).pcieTouch 0 := by
  rw [State.laneCmd, when_of hu, State.cmdWrite, State.overPort_open (s := s.dropHeld 0) _ _ _ hh hp,
    State.laneGo_taken _ _ ((State.flag_dropHeld ..).trans hb) hg hf]

theorem State.laneCmd_busy {s : State} (op l : Nat) (hs : s.steady = true) (hb : s.flag R.GUARD_LANE_RESULT_BUSY = true)
    (hh : s.power.held.contains guardCrossing = false) (hp : s.guard.port = []) : s.laneCmd op l = s.dropHeld 0 := by
  have hgo : (s.dropHeld 0).laneGo op l = s.dropHeld 0 := by
    rw [State.laneGo, State.flag_dropHeld, hb, Bool.true_or, if_pos rfl]
  have hov : (s.dropHeld 0).overPort 0xE0300 (2 ^ 31 + l * 256 + op) (fun s => s.laneGo op l) = s.dropHeld 0 :=
    (State.overPort_open (s := s.dropHeld 0) _ _ _ hh hp).trans hgo
  rw [State.laneCmd, when_of (State.steady_hubUp hs), State.cmdWrite_steady hs, hov]
  rw [hov, State.dropHeld_power]

theorem State.laneCmd_waits {s : State} (op l : Nat) (hs : s.steady = true)
    (h : s.power.held.contains guardCrossing = true ∨ s.guard.port ≠ []) :
    s.laneCmd op l = { s.dropHeld 0 with guard := { s.guard with port := s.guard.port ++ [(0xE0300, 2 ^ 31 + l * 256 + op)] } } := by
  have hov := State.overPort_waits (s := s.dropHeld 0) 0xE0300 (2 ^ 31 + l * 256 + op) (fun s => s.laneGo op l) h
  rw [State.laneCmd, when_of (State.steady_hubUp hs), State.cmdWrite_steady hs, hov]
  · rfl
  · rw [hov]; rfl

/-- Settles O37: the load by `guardLoad_valid`; a GO is taken, ignored or waits by `laneCmd_taken`, `_busy` and `_waits`, and what
ends it at once is its `laneCmdStatus`. -/
theorem laneCommands : Obligations.LaneCommands := by
  refine ⟨fun s hg hu hl ha hn hv => ?_, fun s hl => ?_, ?_, ?_, ?_⟩
  · rw [exec_guardLoad, execGuardLoad, done_eq, hg, hu, Bool.and_self, when_true, State.guardLoad_valid hl ha hn hv]
  · have he : s.guardLoad = s := by simp only [State.guardLoad, hl, Bool.true_or, if_true]
    rw [exec_guardLoad, execGuardLoad, done_eq, State.when, he, ite_self]
  · intro s l hl hu hg hf hb hh hp s1 run
    have taken : ∀ op k, s.laneCmd op k = (s1.laneCmdRun op k).pcieTouch 0 := fun op k =>
      State.laneCmd_taken op k hu hg hf hb hh hp
    have status : ∀ op k, s1.laneCmdStatus op k = s.laneCmdStatus op k :=
      State.laneCmdStatus_congr (State.setFlag_guard ..) (State.setFlag_arr ..)
    have lane : ∀ op, unit (decide (l < 16)) (s.laneCmd op l) = .next ((s1.laneCmdRun op l).pcieTouch 0) := fun op =>
      (unit_of (decide_eq_true hl) _).trans (congrArg _ (taken op l))
    have ends : ∀ op st, s.laneCmdStatus op l = st → st ≠ St.ok → unit (decide (l < 16)) (s.laneCmd op l) =
        .next ((s1.laneCmdEnd st).pcieTouch 0) := by
      intro op st h hst
      rw [lane, State.laneCmdRun_refused ((status op l).trans h) hst]
    refine ⟨?_, ?_, fun hon hv => ?_, fun hon hv => ?_, fun hon hsec => ?_, fun hon hsec => ?_, fun hon => ⟨?_, ?_, ?_⟩⟩
    · rw [exec_save, execSave, lane, State.laneCmdRun_ok ((status _ _).trans State.laneCmdStatus_save)]
      rfl
    · rw [exec_saveGlobal, execSaveGlobal, done_eq, taken, State.laneCmdRun_ok ((status _ _).trans State.laneCmdStatus_saveGlobal)]
      rfl
    · rw [exec_load, execLoad, lane, State.laneCmdRun_ok ((status _ _).trans (State.laneCmdStatus_load hon hv))]
      rfl
    · exact ends 2 _ (State.laneCmdStatus_load_invalid hon hv) (by decide)
    · rw [exec_restoreDecks, execRestoreDecks, lane, State.laneCmdRun_ok ((status _ _).trans (State.laneCmdStatus_restoreDecks hon hsec)),
        if_pos rfl]
    · rw [exec_darn, execDarn, lane, State.laneCmdRun_ok ((status _ _).trans (State.laneCmdStatus_darn hon hsec))]
      rfl
    · exact ends 2 _ (State.laneCmdStatus_active (by decide) (by decide) hon) (by decide)
    · exact ends 3 _ (State.laneCmdStatus_active (by decide) (by decide) hon) (by decide)
    · exact ends 4 _ (State.laneCmdStatus_active (by decide) (by decide) hon) (by decide)
  · intro s l hl hs
    have lane : ∀ op, unit (decide (l < 16)) (s.laneCmd op l) = .next (s.laneCmd op l) := fun op => unit_of (decide_eq_true hl) _
    refine ⟨fun hb hh hp => ?_, fun h => ?_⟩
    · have busy : ∀ op, unit (decide (l < 16)) (s.laneCmd op l) = .next (s.dropHeld 0) := fun op =>
        (lane op).trans (congrArg _ (State.laneCmd_busy op l hs hb hh hp))
      exact ⟨busy 1, busy 2, busy 3, busy 4, congrArg _ (State.laneCmd_busy 5 0 hs hb hh hp)⟩
    · intro waits
      have wait : ∀ op, unit (decide (l < 16)) (s.laneCmd op l) = .next (waits (2 ^ 31 + l * 256 + op)) := fun op =>
        (lane op).trans (congrArg _ (State.laneCmd_waits op l hs h))
      exact ⟨wait 1, wait 2, wait 3, wait 4, congrArg _ (State.laneCmd_waits 5 0 hs h)⟩
  · intro s l hu hg
    have ended : ∀ st, exec (.laneCmdEnd st) s = .next (s.laneCmdDone st) := by
      intro st
      rw [exec_laneCmdEnd, execLaneCmdEnd, done_eq, hu, hg, Bool.and_self, when_true]
    simp only [ended]
    refine ⟨fun hc => ⟨?_, ?_⟩, fun hc => ?_, fun hc => ?_, fun hc hd => ?_, fun hc => ?_⟩
    · simp only [State.laneCmdDone, hc, decide_true, if_true]
    · simp only [State.laneCmdDone, hc]
      rfl
    · simp only [State.laneCmdDone, hc, if_true]
    · refine ⟨fun ht => ?_, fun ht hv => ?_⟩
      · simp only [State.laneCmdDone, hc, ht, Option.isNone_none, if_true]
      · simp only [State.laneCmdDone, hc, Option.isNone_iff_eq_none, if_neg ht, if_true, hv]
    · simp only [State.laneCmdDone, hc, hd, Bool.false_eq_true, if_false]
    · simp only [State.laneCmdDone, hc, decide_true, if_true]

end Sys2Proof.Machine
end

section
/-!
PROOFS. Entries into lower power states (R489 to R498).
-/

namespace Sys2Proof.Machine

/-! ### Requests (R490) -/

/-- A wake event changes of the power state only what is latched, recorded or under way to RUN, and WAKE_n (R499 to R501). -/
theorem State.wake_power_proj {γ : Type} (π : Power → γ)
    (h : ∀ (p : Power) (l : Option Wake) (r : Bool) (e : Nat) (m : Bool) (w : Bool),
      π { p with latched := l, recorded := r, exit := e, repeated := m, wakePin := w } = π p)
    (s : State) (a b : Nat) : π (s.wake a b).power = π s.power := by
  have hx : ∀ t : State, π (t.startExit a).power = π t.power := by
    intro t
    unfold State.startExit
    split
    · rfl
    · exact h t.power t.power.latched t.power.recorded _ _ _
  unfold State.wake
  split
  · rfl
  split
  · split
    · dsimp only
      split
      · rw [State.bump_power]; exact h s.power _ s.power.recorded s.power.exit s.power.repeated s.power.wakePin
      · rw [State.bump_power]
    · rfl
  · split
    · dsimp only
      split
      · rw [State.bump_power]
      · rw [hx, State.recordWake_power, State.bump_power]
        exact h s.power s.power.latched _ s.power.exit s.power.repeated s.power.wakePin
    · rfl

theorem State.pcieTouch_entry (s : State) (f : Nat) : (s.pcieTouch f).power.entry = s.power.entry :=
  State.wake_power_proj Power.entry (fun _ _ _ _ _ _ => rfl) s 3 f

theorem State.pcieTouch_committed (s : State) (f : Nat) : (s.pcieTouch f).power.committed = s.power.committed :=
  State.wake_power_proj Power.committed (fun _ _ _ _ _ _ => rfl) s 3 f

theorem State.request_run {s : State} (t : PState) (he : s.power.entry = none) (hr : s.power.st = .run) :
    s.request t = s.startEntry t := by
  simp [State.request, he, hr]

theorem State.request_entry {s : State} {e : PState} (t : PState) (he : s.power.entry = some e) : s.request t = s := by
  simp [State.request, he]

theorem State.cancel_none {s : State} (he : s.power.entry = none) : s.cancel = s := by
  simp [State.cancel, he]

theorem State.cancel_open {s : State} {e : PState} (he : s.power.entry = some e) (hc : s.power.committed = false) :
    s.cancel = s.abortEntry 3 0 0 := by
  simp [State.cancel, he, hc]

theorem State.cancel_committed {s : State} (hc : s.power.committed = true) : s.cancel = s := by
  simp [State.cancel, hc]

/-- What a request of each target runs (R490). -/
theorem State.req_up {s u : State} (hu : s.hubUp = true) (hd : (s.dropHeld 0).pcieTouch 0 = u) :
    s.req 0 = u.cancel ∧ s.req 1 = u.request .idle ∧ s.req 2 = u.request .sleep ∧ s.req 3 = u.request .deep ∧
      s.req 4 = u.request .off := by
  subst hd
  have h : ∀ k, s.req k = ((s.dropHeld 0).pcieTouch 0).writePstateReq (2 ^ 31 + k) := fun k => when_of hu _
  exact ⟨h 0, h 1, h 2, h 3, h 4⟩

/-! ### Answers (R494 to R498) -/

theorem State.accepts_last {s : State} (t : PState) {b : Nat} (h : ∀ c, c < 12 → c ∈ s.power.accepted ++ [b]) :
    s.accepts t b = ({ s with power := { s.power with accepted := s.power.accepted ++ [b] } } : State).commitEntry t := by
  have hall : (allBlocks.all fun c => (s.power.accepted ++ [b]).contains c) = true := by
    rw [List.all_eq_true]
    exact fun c hc => List.contains_iff_mem.2 (h c (List.mem_range.1 hc))
  exact if_pos hall

/-- The PCIe block is not asked for its answer within 1 ms in DEEP and OFF (R492). -/
theorem answerDue {t : PState} {b : Nat} (h : b ≠ 7 ∨ t = .idle ∨ t = .sleep) : (b == pcieBlock && t.deepOrOff) = false := by
  rcases h with h | rfl | rfl
  · have hb : (b == pcieBlock) = false := beq_false_of_ne h
    rw [hb, Bool.false_and]
  · exact Bool.and_false _
  · exact Bool.and_false _

/-! ### The state is reached: what keeps memory and pegs (R260, R289, R375) -/

theorem State.entryResult_mem (s : State) (o b r : Nat) : (s.entryResult o b r).mem = s.mem := by
  simp only [State.entryResult, State.irq_mem, State.setWord64_mem, State.setWord_mem]

theorem State.entryResult_power (s : State) (o b r : Nat) : (s.entryResult o b r).power = s.power := by
  simp only [State.entryResult, State.irq_power, State.setWord64_power, State.setWord_power]

theorem State.entryResult_volt (s : State) (o b r : Nat) : (s.entryResult o b r).volt = s.volt := by
  simp only [State.entryResult, State.irq_volt, State.setWord64_volt, State.setWord_volt]

theorem State.entryResult_pegs (s : State) (o b r : Nat) : (s.entryResult o b r).pegs = s.pegs := by
  simp only [State.entryResult, State.irq_pegs, State.setWord64_pegs, State.setWord_pegs]

theorem State.switchRails_mem (s : State) (t : PState) (l : List Nat) : (s.switchRails t l).mem = s.mem := by
  unfold State.switchRails
  extract_lets keep
  split
  · rfl
  · refine foldl_proj State.mem (fun a b => ?_) _ _
    exact State.bump_mem ..

theorem State.disarm_mem (s : State) : s.disarm.mem = s.mem :=
  foldl_proj State.mem (fun a _ => State.wr_mem a _ _) _ _

theorem State.intoSleep_mem (s : State) : s.intoSleep.mem = s.mem := by
  unfold State.intoSleep
  dsimp only
  refine (foldl_proj State.mem (fun a p => ?_) _ _).trans (State.disarm_mem s)
  simp only [State.setPortState, State.wr_mem, State.setPort_mem]

theorem State.laneCmdEnd_mem (s : State) (st : Nat) : (s.laneCmdEnd st).mem = s.mem := by
  simp only [State.laneCmdEnd, State.setFlag_mem, State.wr_mem]

theorem State.laneCmdEnd_pegs (s : State) (st : Nat) : (s.laneCmdEnd st).pegs = s.pegs := by
  simp only [State.laneCmdEnd, State.setFlag_pegs, State.wr_pegs]

theorem State.resetLanes_mem (s : State) : s.resetLanes.mem = s.mem := by
  simp only [State.resetLanes, State.resetRegs_mem, State.wr_mem]
  refine foldl_proj State.mem (fun a l => ?_) _ _
  simp only [State.wr_mem, State.setWord_mem]

theorem State.resetLanes_pegs (s : State) : s.resetLanes.pegs = s.pegs := by
  simp only [State.resetLanes, State.resetRegs_pegs, State.wr_pegs]
  refine foldl_proj State.pegs (fun a l => ?_) _ _
  simp only [State.wr_pegs, State.setWord_pegs]

/-- What the OR stage leaves alone: every part that neither a lane's verdict nor the outputs change. -/
theorem State.orStage_proj {γ : Type} (π : State → γ) (hl : ∀ (t : State) (l : Nat) (f : Lane → Lane), π (t.modLane l f) = π t)
    (hw : ∀ (t : State) (f : RField) (v : Nat), π (t.wr f v) = π t)
    (ho : ∀ (t : State) (o : List Nat), π { t with guard := { t.guard with out := o } } = π t) (s : State) : π s.orStage = π s := by
  unfold State.orStage
  split
  · exact ho s _
  · refine (ho _ _).trans ((hw _ _ _).trans (foldl_proj π (fun a l => ?_) _ _))
    split
    · exact hl ..
    · split
      · exact hl ..
      · rfl

theorem State.orStage_mem (s : State) : s.orStage.mem = s.mem :=
  State.orStage_proj State.mem State.modLane_mem State.wr_mem (fun _ _ => rfl) s

theorem State.orStage_pegs (s : State) : s.orStage.pegs = s.pegs :=
  State.orStage_proj State.pegs State.modLane_pegs State.wr_pegs (fun _ _ => rfl) s

theorem State.calAll_mem (s : State) (p : Nat → Bool) : (s.calAll p).mem = s.mem := Eq.trans rfl rfl
theorem State.calAll_pegs (s : State) (p : Nat → Bool) : (s.calAll p).pegs = s.pegs := Eq.trans rfl rfl

/-- The fall of the guard domain touches neither memory nor pegs. -/
theorem State.guardDown_mem_pegs (s : State) (off : Bool) : (s.guardDown off).mem = s.mem ∧ (s.guardDown off).pegs = s.pegs := by
  unfold State.guardDown
  extract_lets g0 cut s1 arr1 guard1 s2 s3 guard3
  have hcut : cut.mem = s.mem ∧ cut.pegs = s.pegs := by
    simp only [cut]
    split
    · exact ⟨State.laneCmdEnd_mem .., State.laneCmdEnd_pegs ..⟩
    · exact ⟨State.laneCmdEnd_mem .., State.laneCmdEnd_pegs ..⟩
    · exact ⟨rfl, rfl⟩
    · exact ⟨rfl, rfl⟩
  have h2 : s2.mem = s.mem ∧ s2.pegs = s.pegs := by
    simp only [s2, s1, State.calAll_mem, State.calAll_pegs, State.resetLanes_mem, State.resetLanes_pegs]
    exact hcut
  split
  · simp only [s3, State.resetRegs_mem, State.resetRegs_pegs]
    exact h2
  · rw [State.orStage_mem, State.orStage_pegs]
    exact h2

/-- Memory and pegs of the compute dies are gone (R289, R375). -/
def State.diesLost (s : State) : Prop := s.mem.t0 = [] ∧ s.mem.t1 = [] ∧ s.pegs.t0 = []

theorem State.loseDies_lost (s : State) : s.loseDies.diesLost := ⟨rfl, rfl, rfl⟩

theorem State.diesLost_guardDown {s : State} (off : Bool) (h : s.diesLost) : (s.guardDown off).diesLost := by
  obtain ⟨hm, hp⟩ := State.guardDown_mem_pegs s off
  unfold State.diesLost
  rw [hm, hp]
  exact h

theorem State.intoDeep_lost (s : State) : s.intoDeep.diesLost := by
  unfold State.intoDeep
  extract_lets s1 rings1 s2
  have h2 : s2.diesLost := by
    simp only [State.diesLost, s2, s1, State.loseChain, State.resetRegs_mem, State.resetRegs_pegs]
    exact State.loseDies_lost _
  split
  · exact h2
  · exact State.diesLost_guardDown false h2

theorem State.intoOff_lost (s : State) : s.intoOff.diesLost := by
  have h1 : (s.disarm.loseDies.guardDown true).diesLost := State.diesLost_guardDown true (State.loseDies_lost _)
  unfold State.intoOff
  generalize s.disarm.loseDies.guardDown true = u at h1
  simp only [State.diesLost, State.loseHub, State.setFlag_mem, State.setFlag_pegs, State.resetRegs_mem, State.resetRegs_pegs,
    State.loseChain]
  exact h1

theorem State.into_lost (s : State) {t : PState} (h : t.deepOrOff = true) : (s.into t).diesLost := by
  cases t with
  | run => cases h
  | idle => cases h
  | sleep => cases h
  | deep => exact State.intoDeep_lost s
  | off => exact State.intoOff_lost s

/-- An entry that has committed reaches its state (R489, R493). -/
theorem State.entryComplete_reached {s : State} {t : PState} (he : s.power.entry = some t) (hc : s.power.committed = true)
    (hl : s.power.latched = none) : s.entryComplete =
      { (((s.entryResult 1 0 0).endEntry').switchRails t ((s.railsOffIn t).filter fun r => !s.volt.off.contains r)).into t with
        volt := { ((((s.entryResult 1 0 0).endEntry').switchRails t ((s.railsOffIn t).filter fun r => !s.volt.off.contains r)).into
          t).volt with off := ((((s.entryResult 1 0 0).endEntry').switchRails t ((s.railsOffIn t).filter fun r =>
            !s.volt.off.contains r)).into t).volt.off ++ (s.railsOffIn t).filter fun r => !s.volt.off.contains r }
        power := { ((((s.entryResult 1 0 0).endEntry').switchRails t ((s.railsOffIn t).filter fun r => !s.volt.off.contains r)).into
          t).power with st := t, latched := none, recorded := false } } := by
  simp only [State.entryComplete, he, hc, hl, Bool.not_true, Bool.false_eq_true, if_false, Option.isSome_none]

/-! ### An entry that ends early (R498) -/

theorem State.openHems_none {s : State} (h : s.pegs.posted = []) :
    s.openHems = { s with power := { s.power with closed := [], admitted := [] } } := by
  simp only [State.openHems, State.flushPosted, h, List.filter_nil, List.foldl_nil]
  rw [← h]

/-- Settles O40: requests by `req_up`, answers by the state of the block's `answerOf`, the state reached by `entryComplete_reached` and
what it loses by `into_lost`. -/
theorem powerEntries : Obligations.PowerEntries := by
  refine ⟨?_, ?_, fun s hs ha hq hi => ?_, ?_, ?_, ?_⟩
  · intro s hs u
    have hr : u.power.st = .run := State.steady_run hs
    have he : u.power.entry = none := State.steady_entry hs
    obtain ⟨h0, h1, h2, h3, h4⟩ := State.req_up (s := s) (u := u) (State.steady_hubUp hs) (State.pcieTouch_of 0 hs rfl)
    simp only [State.request_run _ he hr, State.cancel_none he] at h0 h1 h2 h3 h4
    exact ⟨congrArg _ h1, congrArg _ h2, congrArg _ h3, congrArg _ h4, congrArg _ h0⟩
  · intro s t hu he u
    have he' : u.power.entry = some t := (State.pcieTouch_entry _ 0).trans he
    have hc' : u.power.committed = s.power.committed := State.pcieTouch_committed _ 0
    obtain ⟨h0, h1, h2, h3, h4⟩ := State.req_up (s := s) (u := u) hu rfl
    simp only [State.request_entry _ he'] at h1 h2 h3 h4
    exact ⟨congrArg _ h1, congrArg _ h2, congrArg _ h3, congrArg _ h4,
      fun hc => congrArg _ (h0.trans (State.cancel_open he' (hc'.trans hc))),
      fun hc => congrArg _ (h0.trans (State.cancel_committed (hc'.trans hc)))⟩
  · have hent : s.power.entry.isNone = true := by rw [State.steady_entry hs]; rfl
    rw [exec_autoIdle, execAutoIdle, done_eq]
    simp only [State.autoIdle, State.steady_running hs, hent, ha, hq, decide_eq_true hi, Bool.and_self, if_true]
  · intro s t b hb hr he hask
    have answer : exec (.entryAnswer b) s = .next (match s.answerOf t b with
        | .accept => s.accepts t b
        | .delay => s.delays t b
        | .refuse r => s.abortEntry 2 b r
        | .later => s) := by
      rw [exec_entryAnswer, execEntryAnswer, unit_of (decide_eq_true hb), when_of hr]
      simp only [State.entryAnswer, he, hask, Bool.not_true, Bool.false_eq_true, if_false] <;> rfl
    refine ⟨fun h => ?_, fun h => ?_, fun r h => ?_, fun h => ?_, fun h7 hdue => ?_, fun h7 hd => ?_, State.accepts_last t⟩
    · rw [answer, h]
    · rw [answer, h]
    · rw [answer, h]
    · rw [answer, h]
    · rw [exec_entryAnswerTimeout, execEntryAnswerTimeout, unit_of (decide_eq_true hb), when_of hr]
      simp only [State.answerTimeout, he, hask, answerDue h7, decide_eq_true hdue, Bool.not_false, Bool.and_self, if_true]
    · subst h7
      have hp : s.asked pcieBlock = true := hask
      rw [exec_linkL2l3Ready, execLinkL2l3Ready, done_eq, when_of hr]
      simp only [State.linkReady, he, hd, hp, Bool.and_self, if_true]
      rfl
  · intro s t hr he hc hl off s1 u
    refine ⟨?_, rfl, fun ht => ?_, fun hd => State.into_lost _ hd⟩
    · rw [exec_entryComplete, execEntryComplete, done_eq, when_of hr, State.entryComplete_reached he hc hl]
    · subst ht
      exact (State.intoSleep_mem _).trans ((State.switchRails_mem ..).trans (State.entryResult_mem ..))
  · intro s o b r hp
    have hposted : ((s.entryResult o b r).endEntry'.pegs).posted = [] := by rw [← hp, ← State.entryResult_pegs s o b r]; rfl
    have he : s.abortEntry o b r = _ := State.openHems_none hposted
    have hst : (s.entryResult o b r).power.st = s.power.st := by rw [State.entryResult_power]
    rw [he]
    exact ⟨rfl, rfl, rfl, hst, State.entryResult_mem s o b r,
      State.entryResult_volt s o b r⟩

end Sys2Proof.Machine
end

section
/-!
PROOFS. Voltage control and legacy bias entries (R508 to R525).
-/

namespace Sys2Proof.Machine

/-! ### What voltage control leaves alone -/

section proj
variable {γ : Type} (π : State → γ) (hw : ∀ (t : State) (f : RField) (v : Nat), π (t.wr f v) = π t)
  (hv : ∀ (t : State) (x : Volt), π { t with volt := x } = π t)
include hw hv

theorem State.settle_proj (s : State) (r k : Nat) : π (s.settle r k) = π s :=
  (hw _ _ _).trans ((hw _ _ _).trans (hv s _))

theorem State.voltStart_proj (s : State) (r : Nat) : π (s.voltStart r) = π s := by
  unfold State.voltStart
  split
  · split
    · have hc : ∀ (t : State) (b : Nat), π (t.avsCommand b) = π t := by
        intro t b
        rw [State.avsCommand, State.avsCommands, State.bump, hw]
      exact (hc _ _).trans ((hw _ _ _).trans (hv s _))
    · rfl
  · rfl

theorem State.voltGo_proj (s : State) : π s.voltGo = π s := by
  unfold State.voltGo
  split
  · exact foldl_proj π (State.voltStart_proj π hw hv) _ _
  · rfl

/-- Voltage control changes registers, its own part and Press's only. -/
theorem State.retarget_proj (hp : ∀ (t : State) (x : Press), π { t with press := x } = π t) (s : State) : π s.retarget = π s := by
  unfold State.retarget
  split
  · rfl
  · refine (State.voltGo_proj π hw hv _).trans (foldl_proj π (fun a t => ?_) _ _)
    unfold State.setTarget
    split
    · rfl
    · exact (hp _ _).trans (hw _ _ _)

end proj

@[simp] theorem State.retarget_board (s : State) : s.retarget.board = s.board :=
  State.retarget_proj State.board State.wr_board (fun _ _ => rfl) (fun _ _ => rfl) s

@[simp] theorem State.retarget_power (s : State) : s.retarget.power = s.power :=
  State.retarget_proj State.power State.wr_power (fun _ _ => rfl) (fun _ _ => rfl) s

/-! ### The strap of legacy mode (R521) -/

theorem State.legacy_congr {s t : State} (h : t.board.straps = s.board.straps) : t.legacy = s.legacy := by
  rw [State.legacy, State.legacy, h]

/-- A line on UART_TX moves no strap, and so no record does. -/
theorem State.logRecord_straps (s : State) (r : Record) : (s.logRecord r).board.straps = s.board.straps := by
  have hu : ∀ (t : State) (bs : List Nat), (t.uartLine bs).board.straps = t.board.straps := by
    intro t bs
    unfold State.uartLine
    split <;> rfl
  unfold State.logRecord
  split
  · rfl
  · dsimp only
    split
    · rw [State.irq_board, hu, State.wr_board, State.setWords_board]
    · rw [State.bump_board]

theorem State.board_with_errs (s : State) (x : Errs) : ({ s with errs := x } : State).board = s.board := Eq.trans rfl rfl

theorem State.raise_straps (s : State) (a b c d e : Nat) : (s.raise a b c d e).board.straps = s.board.straps := by
  unfold State.raise State.raiseTo
  dsimp only
  split
  · split
    · rw [State.countRecord_board]
    · rw [State.tellMaster_board, State.halt_board]
      split
      · rw [State.countRecord_board]
      · rw [State.logRecord_straps, State.countRecord_board]
  · split
    · rw [State.countRecord_board]
    · split
      · split
        · rw [State.board_with_errs, State.countRecord_board]
        · rw [State.bump_board, State.countRecord_board]
      · rw [State.queueRecord_board, if_pos rfl, State.logRecord_straps, State.countRecord_board]

/-! ### Accesses of the VOLT block (R527) -/

theorem State.voltTouch_native {s : State} (h : s.legacy = false) : s.voltTouch = s.pcieTouch 0 := by
  simp [State.voltTouch, h]

theorem State.voltTouch_legacy {s : State} (h : s.legacy = true) : s.voltTouch = s := if_pos h

/-- On a steady device an access to the VOLT block changes nothing by itself. -/
theorem State.voltTouch_steady {s : State} (h : s.steady = true) : s.voltTouch = s := by
  unfold State.voltTouch
  split
  · rfl
  · exact State.pcieTouch_of 0 h rfl

/-! ### Fields of VOLT.RAIL -/

theorem State.settle_acked (s : State) (r k : Nat) : (s.settle r k).acked r = k % 16 := by
  unfold State.settle State.acked
  rw [State.rd_wr_other _ _ _ _ (by simp [RField.ok, R.VOLT_RAIL_STATE])
    (by simp [RField.apart, RField.narrow, R.VOLT_RAIL_STATE, R.VOLT_RAIL_ACKED]),
    State.rd_wr_same _ _ _ (by simp [RField.ok, R.VOLT_RAIL_ACKED])]
  rfl

theorem State.settle_railState (s : State) (r k : Nat) : (s.settle r k).railState r = 0 := by
  unfold State.settle State.railState
  rw [State.rd_wr_same _ _ _ (by simp [RField.ok, R.VOLT_RAIL_STATE]), Nat.zero_mod]

/-! ### Legacy entries (R525) -/

theorem State.commit_ordered {s : State} (h : s.ordered = true) :
    s.commit.volt.applied = (List.range 4).map (fun k => s.word (entryKey k)) ∧ s.commit.rd R.VOLT_LB_STATUS_RESULT = 1 := by
  unfold State.commit
  rw [if_pos h]
  refine ⟨rfl, ?_⟩
  rw [State.rd_with_volt, State.rd_setFlag_other _ _ _ _ (by decide) (by decide), State.bump,
    State.rd_wr_other _ _ _ _ (by decide) (by decide), State.rd_wr_same _ _ _ (by decide)]
  rfl

theorem State.commit_unordered {s : State} (h : s.ordered = false) :
    s.commit = (s.wr R.VOLT_LB_STATUS_RESULT 2).raise Rc.legacyOrder instClass 0 0 0 := by
  simp [State.commit, h]

theorem State.board_with_volt (s : State) (x : Volt) : ({ s with volt := x } : State).board = s.board := Eq.trans rfl rfl

theorem State.commit_legacy (s : State) : s.commit.legacy = s.legacy := by
  refine State.legacy_congr ?_
  unfold State.commit
  split
  · rw [State.board_with_volt, State.setFlag_board, State.bump_board, State.wr_board]
  · rw [State.raise_straps, State.wr_board]

theorem railOk_of {r : Nat} (h : r < 9) : railOk r = true := decide_eq_true h

/-- Settles O42: each command's meaning under its condition, the fields of VOLT.RAIL by `settle_acked` and `settle_railState`, and
what an access to the block wakes by `voltTouch_…`. -/
theorem voltageControl : Obligations.VoltageControl := by
  refine ⟨?_, ?_, ?_, ?_, ?_, fun s h => State.commit_ordered h, fun s h => State.commit_unordered h⟩
  · intro s r hr hu ha sent
    refine ⟨?_, State.settle_acked .., State.settle_railState ..⟩
    rw [exec_avsVdone, execAvsVdone, unit_of (railOk_of hr), when_of hu, State.vdone, if_neg ha]
  · intro s r hr hu ha b s1
    have he : exec (.avsAttemptTimeout r) s = .next (s.attemptFails r) := by
      rw [exec_avsAttemptTimeout, execAvsAttemptTimeout, unit_of (railOk_of hr), when_of hu]
    refine ⟨fun h4 => ?_, ?_⟩
    · rw [he, State.attemptFails, if_neg ha, if_pos h4]
    · intro h4 s2
      rw [he, State.attemptFails, if_neg ha, if_neg (Nat.not_lt.2 h4)]
  · intro s b mv hb hu
    have he : ∀ ok, exec (.avsProbe b ok mv) s = .next (s.probe b ok mv) := fun ok => by
      rw [exec_avsProbe, execAvsProbe, unit_of (decide_eq_true hb), when_of hu]
    refine ⟨fun hl => ?_, fun hl ht => ?_⟩
    · have hs : ∀ ok, s.probe b ok mv = s := fun ok => by simp only [State.probe, hl, Bool.false_and, Bool.false_eq_true, if_false]
      exact ⟨(he true).trans (congrArg _ (hs true)), (he false).trans (congrArg _ (hs false))⟩
    · have hp : (s.busLost b && decide (s.volt.probeAt.getD b 0 + 10000000 ≤ s.now)) = true := by rw [hl, decide_eq_true ht]; rfl
      intro s1
      rw [he, he, State.probe, State.probe, if_pos hp, if_pos hp]
      exact ⟨rfl, rfl⟩
  · intro s r v hr hs
    have he : exec (.voltRailWrite r v) s = .next ((s.dropHeld 0).writeRail r v).voltTouch := by
      rw [exec_voltRailWrite, execVoltRailWrite, unit_of (railOk_of hr), when_of (State.steady_hubUp hs)]
    refine ⟨fun hl hv => ?_, fun h => ?_⟩
    · have hl' : (s.dropHeld 0).legacy = false := hl
      have hw : (s.dropHeld 0).writeRail r v =
          (((s.dropHeld 0).wr (R.VOLT_RAIL_VP_MAX r) (fld v 31 28)).wr (R.VOLT_RAIL_VP_MIN r) (fld v 27 24)).retarget := by
        rw [State.writeRail, hl', decide_eq_false (Nat.not_lt.2 hv), if_neg (by decide)]
      rw [he, hw, State.voltTouch_native]
      rw [State.legacy_congr (s := s), hl]
      rw [State.retarget_board, State.wr_board, State.wr_board]
      rfl
    · have hw : (s.dropHeld 0).writeRail r v = s.dropHeld 0 := by
        refine if_pos ?_
        rw [Bool.or_eq_true, decide_eq_true_eq]
        exact h.symm
      rw [he, hw, State.voltTouch_steady (by rw [State.steady_dropHeld, hs])]
  · intro s n v h1 h3 hu u
    have stage : exec (.lbEntryStage n v) s = .next (u.writeEntry n v).voltTouch := by
      rw [exec_lbEntryStage, execLbEntryStage, unit_of (decide_eq_true ⟨h1, h3⟩), when_of hu]
    have commit : exec (.lbEntryCommit v) s = .next (u.writeEntry 0 v).voltTouch := by
      rw [exec_lbEntryCommit, execLbEntryCommit, done_eq, when_of hu]
    have hul : u.legacy = s.legacy := rfl
    have hup : u.power = s.power := rfl
    clear_value u
    have touch : ∀ t : State, t.legacy = s.legacy → s.legacy = true → t.voltTouch = t := fun t ht hl =>
      State.voltTouch_legacy (ht.trans hl)
    have set_ : ∀ k, (u.setWord (entryKey k) (v &&& 0xFF77)).legacy = s.legacy := fun k =>
      (State.legacy_congr (congrArg Board.straps (State.setWord_board ..))).trans hul
    refine ⟨fun hl => ?_, fun hl hi => ?_, fun hl hi => ?_, fun hl hi => ?_⟩
    · have hw : ∀ k, u.writeEntry k v = u := fun k => by rw [State.writeEntry, hul, hl]; rfl
      rw [stage, commit, hw, hw, State.voltTouch_native (hul.trans hl)]
      exact ⟨rfl, rfl⟩
    · have hw : ∀ k, u.writeEntry k v = u.wr R.VOLT_LB_STATUS_RESULT 3 := fun k => by
        rw [State.writeEntry, hul, hl, hup, if_neg (by decide), if_pos hi]
      rw [stage, commit, hw, hw, touch _ ((State.legacy_congr (congrArg Board.straps (State.wr_board ..))).trans hul) hl]
      exact ⟨rfl, rfl⟩
    · rw [stage, State.writeEntry, hul, hl, hup, if_neg (by decide), if_neg (not_not_intro hi), if_neg (by omega), touch _ (set_ n) hl]
    · rw [commit, State.writeEntry, hul, hl, hup, if_neg (by decide), if_neg (not_not_intro hi), if_pos rfl,
        touch _ ((State.commit_legacy _).trans (set_ 0)) hl]

end Sys2Proof.Machine
end

section
/-!
PROOFS. The program-store flash: its commands, their ends and timeouts, window reads and firmware's records (R552 to R562).
-/

namespace Sys2Proof.Machine

/-! ### GO (R557, R558) -/

/-- What R558 decides depends on the flash and the registers, not on a held low word. -/
theorem State.flashRefusal_dropHeld (s : State) (f op a n : Nat) : (s.dropHeld f).flashRefusal op a n = s.flashRefusal op a n := rfl

theorem State.flashData_dropHeld (s : State) (f n : Nat) : (s.dropHeld f).flashData n = s.flashData n := rfl

/-- A GO that is not turned away, with a control processor up, is decided at once. -/
theorem State.flashCmd_decided {s : State} {op : Nat} (hu : s.hubUp = true) (hf : s.fwUp = true)
    (hb : (s.flashBusy && !s.mayPause op) = false) : s.flashCmd op = ((s.dropHeld 0).flashRun op).pcieTouch 0 := by
  have hb' : ((s.dropHeld 0).flashBusy && !(s.dropHeld 0).mayPause op) = false := hb
  have hf' : (s.dropHeld 0).fwUp = true := hf
  have hgo : (s.dropHeld 0).flashGo op = (s.dropHeld 0).flashRun op := by
    simp only [State.flashGo, hb', hf', Bool.false_eq_true, if_false, if_true]
  rw [State.flashCmd, when_of hu, State.cmdWrite, hgo]

theorem State.flashCmd_ignored {s : State} {op : Nat} (hs : s.steady = true) (hb : s.flashBusy = true) (hp : op ≠ 3) :
    s.flashCmd op = s.dropHeld 0 := by
  have hb' : (s.dropHeld 0).flashBusy = true := hb
  have hgo : (s.dropHeld 0).flashGo op = s.dropHeld 0 := by
    simp [State.flashGo, hb', State.mayPause, hp]
  rw [State.flashCmd, when_of (State.steady_hubUp hs), State.cmdWrite_steady hs, hgo]
  rw [hgo, State.dropHeld_power]

section flashRun
variable {s : State} {op a n : Nat} (ha : s.rd R.FLASH_ADDR_ADDR = a) (hn : s.rd R.FLASH_LENGTH_LENGTH = n)
include ha hn

theorem State.flashRun_begins (h : s.flashRefusal op a n = 0) :
    s.flashRun op = (s.flashBegin op a n).bump (R.FLASH_COUNT_COUNT 0) 1 := by
  subst ha hn
  exact if_pos h

theorem State.flashRun_refused {r : Nat} (h : s.flashRefusal op a n = r) (hr : r ≠ 0) :
    s.flashRun op = (s.flashResult r).bump (R.FLASH_COUNT_COUNT 1) 1 := by
  subst ha hn h
  exact if_neg hr

end flashRun

theorem State.flashRefusal_resume {s : State} (a n : Nat) :
    s.flashRefusal 4 a n = if s.flash.susp.isNone then flashNotSuspended else 0 := by
  simp [State.flashRefusal, flashArgs]

theorem State.flashRefusal_suspend {s : State} {o : FlashOp} (a n : Nat) (ho : s.flash.op = some o) (hk : o.kind = 2) :
    s.flashRefusal 3 a n = 0 := by
  simp [State.flashRefusal, flashArgs, ho, hk]

theorem State.flashResume_of {s : State} {o : FlashOp} (h : s.flash.susp = some o) :
    s.flashResume = { s with flash := { s.flash with op := some { o with start := s.now - o.start }, susp := none } } := by
  rw [State.flashResume, h, Option.map_some]

theorem State.flashSuspend_of {s : State} {o : FlashOp} (h : s.flash.op = some o) :
    s.flashSuspend = { s.flashUnknown (sectorOf o.addr).1 (sectorOf o.addr).2 with
      flash := { (s.flashUnknown (sectorOf o.addr).1 (sectorOf o.addr).2).flash with
        op := none, susp := some { o with start := s.now - o.start } } } := by
  simp only [State.flashSuspend, h]

/-! ### Firmware's records (R560) -/

theorem State.recordStart_free {s : State} (a : Nat) (bs : List Nat) (h : s.flash.op = none) :
    s.recordStart a bs = { s with flash := { s.flash with fw := some ⟨15, a, bs.length, bs, s.now⟩ } } := by
  simp [State.recordStart, h]

/-- A record that ends with none due and no operation to run on is in the flash, and that is all. -/
theorem State.recordEnd_last {s : State} {o : FlashOp} (hf : s.flash.fw = some o) (hop : s.flash.op = none) (hd : s.flash.due = []) :
    s.recordEnd = { s with flash := { s.flash with bytes := cellsWrite erased s.flash.bytes o.addr o.data, fw := none } } := by
  simp only [State.recordEnd, State.recordWritten, State.recordOver, hf, hop, hd, Option.map_none, List.drop_nil]

/-- Settles O44: a GO is decided (`flashCmd_decided`) and begins or is refused by its `flashRefusal`, or is ignored; the ends and
firmware's records follow their conditions. -/
theorem flashCommands : Obligations.FlashCommands := by
  refine ⟨?_, ?_, ?_, ?_, ?_, ?_, ?_, ?_⟩
  · intro s hu hf hb a n u run no
    have hidle : ∀ op, (s.flashBusy && !s.mayPause op) = false := fun op => by rw [hb, Bool.false_and]
    have decided : ∀ op, done (s.flashCmd op) = .next ((u.flashRun op).pcieTouch 0) := fun op =>
      congrArg _ (State.flashCmd_decided hu hf (hidle op))
    have ha : u.rd R.FLASH_ADDR_ADDR = a := State.rd_dropHeld ..
    have hn : u.rd R.FLASH_LENGTH_LENGTH = n := State.rd_dropHeld ..
    have begins : ∀ op, s.flashRefusal op a n = 0 → done (s.flashCmd op) =
        .next (((u.flashBegin op a n).bump (R.FLASH_COUNT_COUNT 0) 1).pcieTouch 0) := fun op h => by
      rw [decided, State.flashRun_begins ha hn h]
    have refused : ∀ op, s.flashRefusal op a n ≠ 0 → done (s.flashCmd op) = .next (no op) := fun op h => by
      rw [decided, State.flashRun_refused ha hn rfl h]
      rfl
    refine ⟨begins 1, refused 1, begins 2, refused 2, begins 5, begins 6, begins 7, fun o ho => ?_, fun ho => ?_⟩
    · have h0 : s.flashRefusal 4 a n = 0 := by rw [State.flashRefusal_resume, ho]; rfl
      have hr : u.flashBegin 4 a n = u.flashResume.flashResult 0 := rfl
      rw [exec_resume, execResume, begins 4 h0, hr, State.flashResume_of (s := u) ho]
      rfl
    · have h0 : s.flashRefusal 4 a n = flashNotSuspended := by rw [State.flashRefusal_resume, ho]; rfl
      rw [exec_resume, execResume, refused 4 (by rw [h0]; decide)]
      simp only [no, h0]
  · intro s o hu hf hw ho hk s1
    have hb : (s.flashBusy && !s.mayPause 3) = false := by simp [State.mayPause, hw, ho, hk]
    have hr : (s.dropHeld 0).flashRun 3 = ((s.dropHeld 0).flashSuspend.flashResult 0).bump (R.FLASH_COUNT_COUNT 0) 1 :=
      State.flashRun_begins rfl rfl (State.flashRefusal_suspend _ _ ho hk)
    rw [exec_suspend, execSuspend, done_eq, State.flashCmd_decided hu hf hb, hr, State.flashSuspend_of (s := s.dropHeld 0) ho]
    rfl
  · intro s hs hb u
    have h : ∀ op, op ≠ 3 → done (s.flashCmd op) = .next u := fun op hp => congrArg _ (State.flashCmd_ignored hs hb hp)
    exact ⟨h 1 (by decide), h 2 (by decide), h 5 (by decide), h 6 (by decide), h 7 (by decide), h 4 (by decide)⟩
  · intro s o hon ho
    have hend : exec (.flashOpEnd false) s = .next (s.flashEnd false) := by
      rw [exec_flashOpEnd, execFlashOpEnd, done_eq, when_of hon]
    refine ⟨fun hh => ?_, fun hh => ?_, fun hw hh ht => ?_⟩
    · rw [hend]
      simp only [State.flashEnd, ho, hh, Bool.false_eq_true, if_false]
    · rw [hend]
      simp only [State.flashEnd, ho, hh, Bool.false_eq_true, if_false, if_true]
    · rw [exec_flashTimeout, execFlashTimeout, done_eq, when_of hon]
      simp only [State.flashTimeout, ho, hw, hh, Nat.not_lt.2 ht, Bool.not_true, Bool.false_eq_true, if_false, or_self]
  · intro s off ho hu a
    have hr : exec (.flashWindowRead off) s = .next (s.windowRead off) := by
      rw [exec_flashWindowRead, execFlashWindowRead, unit_of (decide_eq_true ho), when_of hu]
    refine ⟨fun hb => ?_, ?_⟩
    · have hw : s.readWindow off = (s, leNat (s.flashRead a 4)) := by
        rw [State.readWindow, if_neg]
        rw [hb]; decide
      rw [hr, State.windowRead, hw]
    · intro hb s1
      have hw : s.readWindow off = (s1, 0xFFFFFFFF) := if_pos hb
      rw [hr, State.windowRead, hw]
  · intro s a bs ha hon hfw hop hok
    rw [exec_firmwareRecordWrite, execFirmwareRecordWrite, unit_of (decide_eq_true ha), when_of hon, State.recordDue, List.length_map,
      hok, hfw, if_neg (by decide), if_neg (by decide), State.recordStart_free _ _ hop, List.length_map]
  · intro s a bs ha hon hfw hok
    have hs : s.flash.fw.isSome = true := Option.isSome_iff_ne_none.2 hfw
    rw [exec_firmwareRecordWrite, execFirmwareRecordWrite, unit_of (decide_eq_true ha), when_of hon, State.recordDue, List.length_map,
      hok, if_neg (by decide), if_pos hs]
  · intro s o hon hfw hk hop hd
    have hw : s.fwWrites = true := by simp [State.fwWrites, hfw, hk]
    rw [exec_flashOpEnd, execFlashOpEnd, done_eq, when_of hon, State.flashEnd, if_pos rfl, when_of hw, State.recordEnd_last hfw hop hd]

end Sys2Proof.Machine
end

section
/-!
PROOFS. Chain ports and formation: fields of the ports, what a flit that is sent leaves alone, and the commands of the
CHAIN block (R567 to R588).
-/

namespace Sys2Proof.Machine

/-- Fields of registers that share no word, wide or not, are apart. -/
theorem RField.apart_of_keys {f g : RField} (h1 : f.key ≠ g.key) (h2 : f.key ≠ g.key + 4) (h3 : g.key ≠ f.key + 4) :
    f.apart g = true := by
  unfold RField.apart
  split
  · exact decide_eq_true (.inl h1)
  · exact decide_eq_true ⟨h1, h2, h3⟩

/-! ### Port states (R574) -/

theorem State.setPortState_same (s : State) {p st : Nat} (hp : p < 4) (hst : st < 8) : (s.setPortState p st).portState p = st := by
  unfold State.setPortState State.portState
  rw [State.rd_wr_other _ _ _ _ (by simp [RField.ok]; omega)
    (by apply RField.apart_of_keys <;> simp only [R.CHAIN_STATUS_PORT_UP, R.CHAIN_PORT_STATUS_STATE] <;> omega),
    State.rd_wr_same _ _ _ (by simp [RField.ok, R.CHAIN_PORT_STATUS_STATE])]
  exact Nat.mod_eq_of_lt hst

theorem State.setPortState_other (s : State) {p q : Nat} (st : Nat) (hp : p < 4) (hq : q ≠ p) :
    (s.setPortState p st).portState q = s.portState q := by
  unfold State.setPortState State.portState
  rw [State.rd_wr_other _ _ _ _ (by simp [RField.ok]; omega)
    (by apply RField.apart_of_keys <;> simp only [R.CHAIN_STATUS_PORT_UP, R.CHAIN_PORT_STATUS_STATE] <;> omega),
    State.rd_wr_other _ _ _ _ (by simp [RField.ok, R.CHAIN_PORT_STATUS_STATE])
    (by apply RField.apart_of_keys <;> simp only [R.CHAIN_PORT_STATUS_STATE] <;> omega), State.rd_setPort]

theorem portOk_of {p : Nat} (h : p < 4) : portOk p = true := decide_eq_true h

/-- A bring-up state that has passed its longest time (R574). -/
theorem State.portLate_of {s : State} {p : Nat} (h2 : 2 ≤ s.portState p) (h4 : s.portState p ≤ 4)
    (ht : (s.port p).since + portLimit (s.portState p) ≤ s.now) : s.portLate p =
      if (s.port p).wasUp then ((s.setPortState p 1).wr (R.CHAIN_PORT_STATUS_LANES p) 0).bump (R.CHAIN_PORT_COUNT_COUNT p 6) 1
      else (s.setPortState p 1).wr (R.CHAIN_PORT_STATUS_LANES p) 0 := by
  unfold State.portLate
  rw [if_pos ⟨h2, h4, ht⟩]

/-! ### Acknowledgement (R573) -/

theorem State.ackTimeout_none {s : State} {p : Nat} (h : (s.port p).unacked = []) : s.ackTimeout p = s := by
  simp [State.ackTimeout, h]

theorem State.ackTimeout_starts {s : State} {p : Nat} {f : Flit} {t : List Flit} (hu : (s.port p).unacked = f :: t)
    (hr : (s.port p).replay = 0) (ht : (s.port p).ackAt + 2000 ≤ s.now) : s.ackTimeout p =
      (s.setPort p { s.port p with replay := f.seq + 1, ackAt := s.now }).bump (R.CHAIN_PORT_COUNT_COUNT p 3) 1 := by
  have hs : s.ackTimeout p = s.startReplay p := by simp [State.ackTimeout, hu, hr, ht]
  rw [hs, State.startReplay, hu]
  rfl

/-! ### Flits that leave (R570, R577) -/

theorem State.dimPort_lt {s : State} {torus : Bool} {dist size plus p : Nat} (h : s.dimPort torus dist size plus = some p) :
    p < plus + 2 := by
  have pick : ∀ {a b : Bool} {x y : Nat}, x < plus + 2 → y < plus + 2 →
      (if a then some x else if b then some y else none) = some p → p < plus + 2 := by
    intro a b x y hx hy
    cases a <;> cases b <;> simp <;> omega
  have hx : (if 2 * dist ≤ size then plus else plus + 1) < plus + 2 := by split <;> omega
  exact pick hx (by generalize (if 2 * dist ≤ size then plus else plus + 1) = x; split <;> omega) h

theorem State.route_lt {s : State} {dst p : Nat} (h : s.route dst = some p) : p < 4 := by
  unfold State.route at h
  split at h
  · exact Nat.lt_of_lt_of_le (State.dimPort_lt h) (by decide)
  · split at h
    · dsimp only at h
      split at h
      · exact Nat.lt_of_lt_of_le (State.dimPort_lt h) (by decide)
      · exact State.dimPort_lt h
    · cases h

/-- A port that sends counts what it sent and changes no other field. -/
theorem State.rd_pumpPort (s : State) {p : Nat} {f : RField} (h : (R.CHAIN_PORT_COUNT_COUNT p 0).apart f = true) :
    (s.pumpPort p).rd f = s.rd f := by
  unfold State.pumpPort
  split
  · exact (State.rd_wr_other _ _ _ _ rfl h).trans (State.rd_setPort _ _ _ _)
  · rfl

/-- A flit that is sent changes, of the registers, only the count SENT of a chain port. -/
theorem State.rd_sendFlit (s : State) (d i : Nat) (pl : Payload) {f : RField}
    (h : ∀ p, p < 4 → (R.CHAIN_PORT_COUNT_COUNT p 0).apart f = true) : (s.sendFlit d i pl).rd f = s.rd f := by
  unfold State.sendFlit
  split
  · rfl
  · next p hp => exact (State.rd_pumpPort _ (h p (State.route_lt hp))).trans (State.rd_setPort _ _ _ _)

/-! ### SPAN (R582) -/

/-- What the master does with a new nonzero value of SPAN. -/
theorem State.writeSpan_master {s : State} {i v : Nat} (hm : s.isMaster = true) (hv : v < 2 ^ 64)
    (hne : v ≠ s.rd (R.CHAIN_SPAN_SPAN (i - 1))) (h0 : v ≠ 0) :
    let s1 := s.wr (R.CHAIN_SPAN_SPAN (i - 1)) v
    let g := (s1.rd (R.CHAIN_CGEN_CGEN (i - 1)) + 1) % 65536
    s.writeSpan i v = (s1.spanned i).foldl (fun a d => a.sendFlit d 0 (.ctrl (.generation i g))) (s1.wr (R.CHAIN_CGEN_CGEN (i - 1)) g) := by
  have hc : v % 2 ^ 64 ≠ 0 ∧ v % 2 ^ 64 ≠ s.rd (R.CHAIN_SPAN_SPAN (i - 1)) := by
    rw [Nat.mod_eq_of_lt hv]; exact ⟨h0, hne⟩
  simp only [State.writeSpan, hm, Bool.not_true, Bool.false_eq_true, if_false, if_pos hc]

theorem State.writeSpan_power (s : State) (i v : Nat) : (s.writeSpan i v).power = s.power := by
  unfold State.writeSpan
  split
  · rfl
  · dsimp only
    split
    · rw [foldl_proj State.power (fun _ _ => State.sendFlit_power _ _ _ _), State.wr_power, State.wr_power]
    · exact State.wr_power _ _ _

/-- SPAN reads the new value, and the chain generation has advanced. -/
theorem State.writeSpan_fields {s : State} {i v : Nat} (hm : s.isMaster = true) (hv : v < 2 ^ 64)
    (hne : v ≠ s.rd (R.CHAIN_SPAN_SPAN (i - 1))) (h0 : v ≠ 0) :
    (s.writeSpan i v).rd (R.CHAIN_SPAN_SPAN (i - 1)) = v ∧
    (s.writeSpan i v).rd (R.CHAIN_CGEN_CGEN (i - 1)) = (s.rd (R.CHAIN_CGEN_CGEN (i - 1)) + 1) % 65536 := by
  have hspan : ∀ p, p < 4 → (R.CHAIN_PORT_COUNT_COUNT p 0).apart (R.CHAIN_SPAN_SPAN (i - 1)) = true := fun p hp => by
    apply RField.apart_of_keys <;> simp only [R.CHAIN_PORT_COUNT_COUNT, R.CHAIN_SPAN_SPAN] <;> omega
  have hgen : ∀ p, p < 4 → (R.CHAIN_PORT_COUNT_COUNT p 0).apart (R.CHAIN_CGEN_CGEN (i - 1)) = true := fun p hp => by
    apply RField.apart_of_keys <;> simp only [R.CHAIN_PORT_COUNT_COUNT, R.CHAIN_CGEN_CGEN] <;> omega
  have hsg : (R.CHAIN_SPAN_SPAN (i - 1)).apart (R.CHAIN_CGEN_CGEN (i - 1)) = true := by
    apply RField.apart_of_keys <;> simp only [R.CHAIN_CGEN_CGEN, R.CHAIN_SPAN_SPAN] <;> omega
  have hgs : (R.CHAIN_CGEN_CGEN (i - 1)).apart (R.CHAIN_SPAN_SPAN (i - 1)) = true := by
    apply RField.apart_of_keys <;> simp only [R.CHAIN_CGEN_CGEN, R.CHAIN_SPAN_SPAN] <;> omega
  rw [State.writeSpan_master hm hv hne h0]
  constructor
  · rw [foldl_proj (fun a => State.rd a (R.CHAIN_SPAN_SPAN (i - 1))) (fun a d => State.rd_sendFlit a d 0 _ hspan),
      State.rd_wr_other _ _ _ _ rfl hgs, State.rd_wr_same _ _ _ rfl]
    exact Nat.mod_eq_of_lt hv
  · rw [foldl_proj (fun a => State.rd a (R.CHAIN_CGEN_CGEN (i - 1))) (fun a d => State.rd_sendFlit a d 0 _ hgen),
      State.rd_wr_same _ _ _ rfl, State.rd_wr_other _ _ _ _ rfl hsg]
    exact Nat.mod_mod _ _

/-- Settles O46: each command by its condition; a port's state reads back (`setPortState_same`), and SPAN's fields survive the flits
that announce the chain generation (`rd_sendFlit`). -/
theorem chainPorts : Obligations.ChainPorts := by
  refine ⟨?_, ?_, ?_, ?_, ?_, ?_, ?_, ?_, ?_, ?_⟩
  · intro s v hu
    rw [exec_chainEnableWrite, execChainEnableWrite, done_eq, when_of hu]
    rfl
  · intro s hs h
    have hf : (s.dropHeld 0).form = s.dropHeld 0 := if_pos (by
      rcases h with h | h
      · exact .inl (by rw [show (s.dropHeld 0).isMaster = s.isMaster from State.flag_dropHeld .., h]; rfl)
      · exact .inr (by simpa only [State.chainSize, State.rd_dropHeld] using h))
    rw [exec_form, execForm, done_eq, when_of (State.steady_hubUp hs), State.cmdWrite_steady hs (by rw [hf, State.dropHeld_power]), hf]
  · intro s hu hm hc s1
    have hm' : (s.dropHeld 0).isMaster = true := (State.flag_dropHeld ..).trans hm
    have hc' : (s.dropHeld 0).chainSize ≠ 0 := by simpa only [State.chainSize, State.rd_dropHeld] using hc
    rw [exec_form, execForm, done_eq, when_of hu, State.cmdWrite, State.form, if_neg (by rw [hm']; simp [hc'])]
    rfl
  · intro s hu hf
    have hgo : exec .formTimeout s = .next s.formLate := by rw [exec_formTimeout, execFormTimeout, done_eq, when_of hu]
    exact ⟨fun h => hgo.trans (congrArg _ (if_pos ⟨hf, h⟩)),
      fun h => hgo.trans (congrArg _ (if_neg fun h' => absurd h'.2 (Nat.not_le.2 h)))⟩
  · intro s p lanes peer pp hp hu hen go
    have hgo : go = .next (s.portAdvance p lanes peer pp) := by
      show exec (.portStateAdvance p lanes peer pp) s = _
      rw [exec_portStateAdvance, execPortStateAdvance, unit_of (portOk_of hp), when_of (by rw [hu, hen]; rfl)]
    refine ⟨fun h => ?_, fun h hw => ?_, fun h hw => ?_, fun h => ?_, fun h => ?_, fun h => ?_, fun h => ?_⟩
    · simp only [hgo, State.portAdvance, h]
    · simp only [hgo, State.portAdvance, h, if_pos hw]
    · simp only [hgo, State.portAdvance, h, if_neg hw]
    · simp only [hgo, State.portAdvance, h]
    · simp only [hgo, State.portAdvance, h]
    · simp only [hgo, State.portAdvance, h]
    · simp only [hgo, State.portAdvance, h]
  · intro s p st hp hst
    exact ⟨s.setPortState_same hp hst, fun q _ hq => s.setPortState_other st hp hq⟩
  · intro s p hp hu h2 h4 ht
    rw [exec_portStateTimeout, execPortStateTimeout, unit_of (portOk_of hp), when_of hu, State.portLate_of h2 h4 ht]
  · intro s p ack hp hl hack
    have hback : exec (.ackTimeout p) s = .next (s.ackTimeout p) := by
      rw [exec_ackTimeout, execAckTimeout, unit_of (portOk_of hp), when_of hl]
    obtain ⟨hu, hup⟩ := (Bool.and_eq_true _ _).mp hl
    refine ⟨?_, hback, fun h => ?_, fun f t hf hr ht => ?_, ?_⟩
    · rw [exec_nakReceived, execNakReceived, unit_of (portOk_of hp), when_of hl, Nat.mod_eq_of_lt hack]
    · rw [hback, State.ackTimeout_none h]
    · rw [hback, State.ackTimeout_starts hf hr ht]
    · rw [exec_portDown, execPortDown, unit_of (portOk_of hp), when_of (by rw [hu, State.mayFall, hup]; rfl)]
  · intro s k v hk hu
    rw [exec_mirrorWrite, execMirrorWrite, unit_of (decide_eq_true hk), when_of hu]
    rfl
  · intro s i v h1 hi hs
    have hmd : (s.dropHeld 0).isMaster = s.isMaster := State.flag_dropHeld ..
    have hgo : exec (.spanWrite i v) s = .next ((s.dropHeld 0).writeSpan i v) := by
      rw [exec_spanWrite, execSpanWrite, unit_of (decide_eq_true ⟨h1, hi⟩), when_of (State.steady_hubUp hs),
        State.cmdWrite_steady hs (State.writeSpan_power _ _ _)]
    refine ⟨fun hm => ?_, fun hm hv hne h0 => ?_⟩
    · rw [hgo, State.writeSpan, if_pos (by rw [hmd, hm]; rfl)]
    · have hne' : v ≠ (s.dropHeld 0).rd (R.CHAIN_SPAN_SPAN (i - 1)) := by rwa [State.rd_dropHeld]
      obtain ⟨h2, h3⟩ := State.writeSpan_fields (hmd.trans hm) hv hne' h0
      exact ⟨_, hgo, h2, h3.trans (by rw [State.rd_dropHeld])⟩

end Sys2Proof.Machine
end

section
/-!
PROOFS. Register writes: PCIe answers none in test mode (R610), whatever READY and the power state read, so a write that
`RegisterWrites` says is held on every steady device is not held there.
-/

namespace Sys2Proof.Machine

/-- A steady device whose straps select test mode, in which only JTAG answers (R610). -/
def testModeUp : State := ({ State.reset with board := { Board.reset with boot := 7, straps := 2 } } : State).setFlag R.BOOT_STATUS_READY true

theorem testModeUp_steady : testModeUp.steady = true := by decide +kernel

theorem testModeUp_pathUp : testModeUp.pathUp 0 = false := by decide +kernel

/-- A write over a path that is not up changes nothing (R18). -/
theorem exec_registerWrite_pathDown {s : State} {path : Nat} (off v : Nat) (hp : path ≤ 16) (h : s.pathUp path = false) :
    exec (.registerWrite path off v) s = .next s := by
  rw [exec_registerWrite, execRegisterWrite, unit_of (decide_eq_true hp), h, when_false]

/-- The low word of BOOT.LOAD_ADDR, a 64-bit RW register, is none of an alias, a ring copy or a window. -/
theorem loadAddr_key : ¬ (0 = 0 ∧ inWindow (0x10008 - 0x10008 % 4) = true) ∧ ¬ ringCopy 0 (0x10008 - 0x10008 % 4) = true ∧
    takesWrite (pathKey 0 0x10008) = true ∧ aliasKey (pathKey 0 0x10008) = false ∧ pairKey (pathKey 0 0x10008) = true ∧
    pathKey 0 0x10008 % 8 = 0 := by decide +kernel

/-- Refutes O48: in test mode PCIe answers no write (R610), also while the device is steady, so the low word of BOOT.LOAD_ADDR written
there is not held; the clause of held low words lacks the hypothesis that the path is up. -/
theorem not_registerWrites : ¬ Obligations.RegisterWrites := by
  unfold Obligations.RegisterWrites
  intro h
  obtain ⟨-, hsteady, -⟩ := h
  obtain ⟨hwin, hcopy, htakes, halias, hpair, hlow⟩ := loadAddr_key
  obtain ⟨-, hheld, -⟩ := hsteady testModeUp 0 0x10008 5 (by decide) testModeUp_steady (by decide)
  have hnext := hheld hwin hcopy htakes halias hpair hlow
  rw [exec_registerWrite_pathDown _ _ (by decide) testModeUp_pathUp] at hnext
  have hs := Host.Outcome.next.inj hnext
  have hl := congrArg (fun t : State => t.holds.wr.length) hs
  revert hl
  decide +kernel

end Sys2Proof.Machine
end

section
/-!
PROOFS. Press: what a write of the PRESS and VOLT blocks, and a record, leave unread; the calibration, the alerts, the shares of a
chain's power total, and the events of Press one by one (R530 to R550).
-/

namespace Sys2Proof.Machine

/-! ### Fields by their words -/

/-- A field of one word reads the same where that word does. -/
theorem State.rd_of_word {s t : State} {f : RField} (hf : f.msb < 32) (h : t.word f.key = s.word f.key) : t.rd f = s.rd f := by
  simp only [State.rd, if_pos hf, h]

theorem State.flag_of_word {s t : State} {f : RField} (hf : f.msb < 32) (h : t.word f.key = s.word f.key) : t.flag f = s.flag f := by
  rw [State.flag, State.flag, State.rd_of_word hf h]

/-- Words written from a key upward leave the words below it alone. -/
theorem State.word_setWords_below (s : State) {j k : Nat} (l : List Nat) (h : j < k) : (s.setWords k l).word j = s.word j := by
  induction l generalizing s k with
  | nil => rfl
  | cons w t ih => rw [State.setWords, ih _ (by omega), State.word_setWord_other _ _ (by omega)]

theorem State.word_msix (s : State) (f v : Nat) {j : Nat} (h : j < fnBase) : (s.msix f v).word j = s.word j := by
  have hk : j < fnKey f 0x8800 := by unfold fnKey; omega
  unfold State.msix
  split
  · split
    · exact State.word_wr_other _ _ _ _ (by dsimp only; omega) (by dsimp only; omega)
    · exact State.word_with_rings _ _ _
  · rfl

theorem State.word_irq (s : State) (en : Bool) (v : Nat) {j : Nat} (h : j < fnBase) : (s.irq en v).word j = s.word j := by
  unfold State.irq
  split
  · exact State.word_msix _ _ _ h
  · rfl

/-- A record changes no word below the ERRLOG block. -/
theorem State.word_logRecord (s : State) (r : Record) {j : Nat} (h : j < 0xB0000) : (s.logRecord r).word j = s.word j := by
  have hu : ∀ (t : State) (bs : List Nat), (t.uartLine bs).word j = t.word j := by
    intro t bs
    unfold State.uartLine
    split
    · exact State.word_with_board _ _ _
    · rfl
  unfold State.logRecord
  split
  · rfl
  · dsimp only
    split
    · rw [State.word_irq _ _ _ (Nat.lt_trans h (by decide)), hu, State.word_wr_other _ _ _ _ (by simp only [R.ERRLOG_TAIL_POSITION]; omega)
        (by simp only [R.ERRLOG_TAIL_POSITION]; omega), State.word_setWords_below _ _ (by omega)]
    · exact State.word_wr_other _ _ _ _ (by simp only [R.ERRLOG_STATUS_OVERFLOW]; omega) (by simp only [R.ERRLOG_STATUS_OVERFLOW]; omega)

theorem State.word_countRecord (s : State) (c : Nat) {j : Nat} (h : j < 0xB0000) : (s.countRecord c).word j = s.word j := by
  rw [State.countRecord, State.bump, State.word_wr_other _ _ _ _ (by simp only [R.ERRLOG_CLASS_COUNT_COUNT]; omega)
    (by simp only [R.ERRLOG_CLASS_COUNT_COUNT]; omega), State.word_with_errs]

theorem State.word_raise_device (s : State) (a c d e : Nat) {j : Nat} (h : j < 0xB0000) :
    (s.raise a deviceClass c d e).word j = s.word j := by
  rw [State.raise, if_neg (by decide), State.raiseTo]
  dsimp only
  split
  · exact State.word_countRecord _ _ h
  · split
    · split
      · rw [State.word_with_errs, State.word_countRecord _ _ h]
      · rw [State.bump, State.word_wr_other _ _ _ _ (by simp only [R.ERRLOG_STATUS_OVERFLOW]; omega)
          (by simp only [R.ERRLOG_STATUS_OVERFLOW]; omega), State.word_countRecord _ _ h]
    · rw [if_pos rfl, State.queueRecord, State.word_with_errs, State.word_logRecord _ _ h, State.word_countRecord _ _ h]

/-! ### The calibration (R534) -/

/-- One gain of a calibration takes a value, unless its bus is lost. -/
def State.writeGain (v : Nat → Nat) (a : State) (g : Nat) : State :=
  if a.busLost (gainBus g) then a else a.wr (R.PRESS_GAIN_GAIN g) (v g)

theorem lostBit_msb (b : Nat) : (lostBit b).msb < 32 := by unfold lostBit; split <;> decide

theorem lostBit_key (b : Nat) : (lostBit b).key = 0x50000 := by unfold lostBit; split <;> rfl

theorem State.busLost_writeGain (v : Nat → Nat) (a : State) (g b : Nat) : (a.writeGain v g).busLost b = a.busLost b := by
  unfold State.writeGain
  split
  · rfl
  · exact State.flag_of_word (lostBit_msb b) (State.word_wr_other _ _ _ _ (by simp only [lostBit_key, R.PRESS_GAIN_GAIN]; omega)
      (by simp only [lostBit_key, R.PRESS_GAIN_GAIN]; omega))

theorem gain_apart {g x : Nat} (h : g ≠ x) : (R.PRESS_GAIN_GAIN x).apart (R.PRESS_GAIN_GAIN g) = true := by
  simp [RField.apart, RField.narrow, R.PRESS_GAIN_GAIN, Ne.symm h]

/-- After the gains of a list are taken, each reads its value where its bus is up, and every other gain reads as before. -/
theorem State.rd_writeGain_foldl (v : Nat → Nat) {l : List Nat} (hl : l.Nodup) (a : State) (g : Nat) :
    (l.foldl (State.writeGain v) a).rd (R.PRESS_GAIN_GAIN g) =
      if g ∈ l ∧ a.busLost (gainBus g) = false then v g % 65536 else a.rd (R.PRESS_GAIN_GAIN g) := by
  induction l generalizing a with
  | nil => simp
  | cons x t ih =>
    obtain ⟨hx, ht⟩ := List.nodup_cons.1 hl
    rw [List.foldl_cons, ih ht, State.busLost_writeGain]
    by_cases hg : g = x
    · subst hg
      cases hb : a.busLost (gainBus g)
      · simp only [hx, false_and, if_false, List.mem_cons_self, true_and, if_true, State.writeGain, hb, Bool.false_eq_true]
        exact State.rd_wr_same _ _ _ rfl
      · simp [hx, State.writeGain, hb]
    · have hr : (a.writeGain v x).rd (R.PRESS_GAIN_GAIN g) = a.rd (R.PRESS_GAIN_GAIN g) := by
        unfold State.writeGain
        split
        · rfl
        · exact State.rd_wr_other _ _ _ _ rfl (gain_apart hg)
      simp only [hr, List.mem_cons, hg, false_or]

/-- The commands of a calibration on the buses that are up. -/
def State.gainReads (s : State) : State :=
  let s0 := if s.busLost 0 then s else s.avsCommands 0 9
  if s.busLost 1 then s0 else s0.avsCommands 1 10

theorem State.gainReads_proj {γ : Type} (π : State → γ) (h0 : ∀ t : State, π (t.avsCommands 0 9) = π t)
    (h1 : ∀ t : State, π (t.avsCommands 1 10) = π t) (s : State) : π s.gainReads = π s := by
  simp only [State.gainReads, apply_ite π, h0, h1, ite_self]

theorem State.avsCommands_mem (s : State) (b n : Nat) : (s.avsCommands b n).mem = s.mem := State.wr_mem _ _ _

theorem State.avsCommands_arr (s : State) (b n : Nat) : (s.avsCommands b n).arr = s.arr := State.wr_arr _ _ _

/-- The commands count in VOLT.AVS_COUNT, and every other word stays. -/
theorem State.gainReads_word (s : State) {j : Nat} (h : j < 0x50600 ∨ 0x60000 ≤ j) : s.gainReads.word j = s.word j :=
  State.gainReads_proj (fun t => t.word j)
    (fun _ => State.word_wr_other _ _ _ _ (by simp only [R.VOLT_AVS_COUNT_COUNT]; omega) (by simp only [R.VOLT_AVS_COUNT_COUNT]; omega))
    (fun _ => State.word_wr_other _ _ _ _ (by simp only [R.VOLT_AVS_COUNT_COUNT]; omega) (by simp only [R.VOLT_AVS_COUNT_COUNT]; omega)) s

/-- What the calibration measures for a gain (R534). -/
def State.measuredGain (s : State) (ma : List Nat) (g : Nat) : Nat :=
  newGain (s.rd (R.PRESS_GAIN_GAIN g)) (ma.getD g 0) ((s.press.sums.getD g (0, 0)).1 / s.press.ticks)
    ((s.press.sums.getD g (0, 0)).2 / s.press.ticks)

/-- The gains of a calibration, before its sums begin again. -/
def State.gainsTaken (s : State) (ma : List Nat) : State := (List.range 19).foldl (State.writeGain (s.measuredGain ma)) s.gainReads

theorem State.calibrateGains_of {s : State} (ma : List Nat) (hd : s.press.calAt + 10000000 ≤ s.now) (ht : s.press.ticks ≠ 0)
    (hl : s.legacy = false) : s.calibrateGains ma =
      ({ s.gainsTaken ma with press := { (s.gainsTaken ma).press with sums := [], ticks := 0, calAt := s.now } } : State).setFlag
        R.PRESS_STATUS_CAL_HELD (s.busLost 0 || s.busLost 1) := by
  unfold State.calibrateGains
  rw [if_neg (by rw [hl]; simp only [Bool.false_eq_true, or_false]; omega)]
  rfl

theorem State.gainsTaken_proj {γ : Type} (π : State → γ) (h : ∀ (t : State) (f : RField) (v : Nat), π (t.wr f v) = π t) (s : State)
    (ma : List Nat) : π (s.gainsTaken ma) = π s := by
  have hc : ∀ (b n : Nat) (t : State), π (t.avsCommands b n) = π t := fun b n t => by rw [State.avsCommands, State.bump, h]
  refine (foldl_proj π (fun a g => ?_) _ _).trans (State.gainReads_proj π (hc 0 9) (hc 1 10) s)
  unfold State.writeGain
  split
  · rfl
  · exact h _ _ _

theorem State.rd_gainsTaken (s : State) (ma : List Nat) {g : Nat} (hg : g < 19) : (s.gainsTaken ma).rd (R.PRESS_GAIN_GAIN g) =
    if s.busLost (gainBus g) = false then s.measuredGain ma g % 65536 else s.rd (R.PRESS_GAIN_GAIN g) := by
  have hb : s.gainReads.busLost (gainBus g) = s.busLost (gainBus g) :=
    State.flag_of_word (lostBit_msb _) (s.gainReads_word (by rw [lostBit_key]; decide))
  have hr : s.gainReads.rd (R.PRESS_GAIN_GAIN g) = s.rd (R.PRESS_GAIN_GAIN g) :=
    State.rd_of_word (by simp only [R.PRESS_GAIN_GAIN]; decide) (s.gainReads_word (.inr (by simp only [R.PRESS_GAIN_GAIN]; omega)))
  rw [State.gainsTaken, State.rd_writeGain_foldl _ List.nodup_range, hb, hr]
  simp only [List.mem_range, hg, true_and]

/-- The gains stand when the calibration has ended. -/
theorem State.rd_calibrated (s : State) (ma : List Nat) (p : Press) (c : Bool) (g : Nat) :
    ((({ s.gainsTaken ma with press := p } : State).setFlag R.PRESS_STATUS_CAL_HELD c).rd (R.PRESS_GAIN_GAIN g)) =
      (s.gainsTaken ma).rd (R.PRESS_GAIN_GAIN g) := by
  rw [State.rd_setFlag_other _ _ _ _ rfl (by apply RField.apart_of_keys <;> simp only [R.PRESS_GAIN_GAIN, R.PRESS_STATUS_CAL_HELD] <;> omega),
    State.rd_with_press]

/-! ### Alerts (R543) -/

/-- A die that is taken to level 1 is there, whatever else is. -/
theorem State.level_forceLevel {l : List Nat} {d : Nat} (s : State) (h : d ∈ l ∨ s.level d = 1) : (s.forceLevel l).level d = 1 := by
  induction l generalizing s with
  | nil => exact h.resolve_left (List.not_mem_nil)
  | cons x t ih =>
    refine ih _ ?_
    have hb : ∀ (a : State) (v : Nat), (a.wr (R.PRESS_LEVEL_BINDING x) v).level d = a.level d := fun a v =>
      State.rd_wr_other _ _ _ _ rfl (by simp [RField.apart, RField.narrow, R.PRESS_LEVEL_BINDING, R.PRESS_LEVEL_LEVEL])
    rw [hb]
    by_cases hx : d = x
    · subst hx
      exact .inr (State.rd_wr_same _ _ _ rfl)
    · have ho : (s.wr (R.PRESS_LEVEL_LEVEL x) 1).level d = s.level d :=
        State.rd_wr_other _ _ _ _ rfl (by simp [RField.apart, RField.narrow, R.PRESS_LEVEL_LEVEL, Ne.symm hx])
      rw [ho]
      exact h.imp_left fun hm => (List.mem_cons.1 hm).resolve_left hx

theorem State.word_forceLevel {l : List Nat} (s : State) (hl : ∀ d ∈ l, d < 8) {j : Nat} (hj : j < 0x60020 ∨ 0x60050 ≤ j) :
    (s.forceLevel l).word j = s.word j := by
  induction l generalizing s with
  | nil => rfl
  | cons x t ih =>
    have hx := hl x List.mem_cons_self
    refine (ih _ fun d hd => hl d (List.mem_cons_of_mem _ hd)).trans ?_
    rw [State.word_wr_other _ _ _ _ (by simp only [R.PRESS_LEVEL_BINDING]; omega) (by simp only [R.PRESS_LEVEL_BINDING]; omega),
      State.word_wr_other _ _ _ _ (by simp only [R.PRESS_LEVEL_LEVEL]; omega) (by simp only [R.PRESS_LEVEL_LEVEL]; omega)]

theorem State.forceLevel_proj {γ : Type} (π : State → γ) (h : ∀ (t : State) (f : RField) (v : Nat), π (t.wr f v) = π t) (s : State)
    (l : List Nat) : π (s.forceLevel l) = π s :=
  foldl_proj π (fun _ _ => (h _ _ _).trans (h _ _ _)) _ _

theorem rail_fields_apart {r x : Nat} (h : r ≠ x) : (R.VOLT_RAIL_TARGET x).apart (R.VOLT_RAIL_TARGET r) = true := by
  simp [RField.apart, RField.narrow, R.VOLT_RAIL_TARGET, Ne.symm h]

theorem State.target_setTarget_same (s : State) (r : Nat) {k : Nat} (hk : k < 16) : (s.setTarget r k).target r = k := by
  unfold State.setTarget
  split
  · assumption
  · exact (State.rd_with_press _ _ _).trans ((State.rd_wr_same _ _ _ rfl).trans (Nat.mod_eq_of_lt hk))

theorem State.target_setTarget_other (s : State) {r x : Nat} (k : Nat) (h : r ≠ x) : (s.setTarget x k).target r = s.target r := by
  unfold State.setTarget
  split
  · rfl
  · exact (State.rd_with_press _ _ _).trans (State.rd_wr_other _ _ _ _ rfl (rail_fields_apart h))

/-- Targets that are all V-point 0 are taken. -/
theorem State.target_foldl_zero {l : List (Nat × Nat)} (hl : ∀ t ∈ l, t.2 = 0) (s : State) {r : Nat}
    (h : (r, 0) ∈ l ∨ s.target r = 0) : (l.foldl (fun a t => a.setTarget t.1 t.2) s).target r = 0 := by
  induction l generalizing s with
  | nil => exact h.resolve_left (List.not_mem_nil)
  | cons x t ih =>
    refine ih (fun y hy => hl y (List.mem_cons_of_mem _ hy)) _ ?_
    have hx := hl x List.mem_cons_self
    by_cases hr : r = x.1
    · subst hr
      have hz : (s.setTarget x.1 x.2).target x.1 = 0 := by rw [hx]; exact State.target_setTarget_same _ _ (by decide)
      exact .inr hz
    · rw [State.target_setTarget_other _ _ hr]
      refine h.imp_left fun hm => (List.mem_cons.1 hm).resolve_left fun he => hr ?_
      rw [← he]

/-- Targets of rails change no level. -/
theorem State.level_setTargets {l : List (Nat × Nat)} (hl : ∀ t ∈ l, t.1 < 9) (s : State) (d : Nat) :
    (l.foldl (fun a t => a.setTarget t.1 t.2) s).level d = s.level d := by
  refine foldl_proj_mem (fun a => a.level d) (fun x hx a => ?_) s
  have h9 := hl x hx
  unfold State.setTarget
  split
  · rfl
  · exact (State.rd_with_press _ _ _).trans (State.rd_wr_other _ _ _ _ rfl
      (by apply RField.apart_of_keys <;> simp only [R.VOLT_RAIL_TARGET, R.PRESS_LEVEL_LEVEL] <;> omega))

/-- A write that voltage control sends shows in a rail's STATE and in VOLT.AVS_COUNT. -/
theorem State.rd_voltStart (s : State) {r : Nat} {f : RField} (hs : (R.VOLT_RAIL_STATE r).apart f = true)
    (hc : (R.VOLT_AVS_COUNT_COUNT (3 * busOf r)).apart f = true) : (s.voltStart r).rd f = s.rd f := by
  unfold State.voltStart
  split
  · split
    · exact (State.rd_wr_other _ _ _ _ rfl hc).trans ((State.rd_wr_other _ _ _ _ rfl hs).trans (State.rd_with_volt _ _ _))
    · rfl
  · rfl

theorem State.rd_voltGo (s : State) {f : RField} (h : ∀ r, r < 9 → (R.VOLT_RAIL_STATE r).apart f = true ∧
    (R.VOLT_AVS_COUNT_COUNT (3 * busOf r)).apart f = true) : s.voltGo.rd f = s.rd f := by
  unfold State.voltGo
  split
  · refine foldl_proj_mem (fun a => a.rd f) (fun r hr a => ?_) s
    have h9 : r < 9 := by simp only [List.mem_cons, List.mem_range] at hr; omega
    exact State.rd_voltStart a (h r h9).1 (h r h9).2
  · rfl

theorem busOf_le (r : Nat) : busOf r ≤ 1 := by unfold busOf; split <;> decide

theorem State.level_voltGo (s : State) (d : Nat) : s.voltGo.level d = s.level d := by
  refine s.rd_voltGo fun r hr => ?_
  have hb := busOf_le r
  constructor <;> apply RField.apart_of_keys <;> simp only [R.VOLT_RAIL_STATE, R.VOLT_AVS_COUNT_COUNT, R.PRESS_LEVEL_LEVEL] <;> omega

theorem State.target_voltGo (s : State) {q : Nat} (hq : q < 9) : s.voltGo.target q = s.target q := by
  refine s.rd_voltGo fun r hr => ⟨by simp [RField.apart, RField.narrow, R.VOLT_RAIL_STATE, R.VOLT_RAIL_TARGET], ?_⟩
  have hb := busOf_le r
  apply RField.apart_of_keys <;> simp only [R.VOLT_AVS_COUNT_COUNT, R.VOLT_RAIL_TARGET] <;> omega

/-- The rails are up where READY, the halt and the power state read the same. -/
theorem State.railsUp_congr {s t : State} (hr : t.word 0x10000 = s.word 0x10000) (hf : t.word 0xB0000 = s.word 0xB0000)
    (hb : t.board = s.board) (hp : t.power = s.power) : t.railsUp = s.railsUp := by
  have h1 : t.ready = s.ready := State.flag_of_word (by decide) hr
  have h2 : t.flag R.ERRLOG_STATUS_FATAL = s.flag R.ERRLOG_STATUS_FATAL := State.flag_of_word (by decide) hf
  simp only [State.railsUp, State.hubUp, State.halted, State.hubAsleep, h1, h2, hb, hp]

theorem alertBit_key (n : Nat) : (alertBit n).key = 0x60008 := by unfold alertBit; split <;> rfl

theorem State.diesUp_lt {s : State} {d : Nat} (h : d ∈ s.diesUp) : d < 8 := by
  unfold State.diesUp at h
  split at h
  · exact List.mem_range.1 (List.mem_filter.1 h).1
  · exact absurd h List.not_mem_nil

/-- The dies that are up are the same where the rails are up, and IDENT.CAPS0 and the rails off read the same. -/
theorem State.diesUp_congr {s t : State} (hr : t.railsUp = s.railsUp) (hc : t.word 0x8 = s.word 0x8) (hv : t.volt = s.volt) :
    t.diesUp = s.diesUp := by
  have h1 : t.rd R.IDENT_CAPS0_DIE_MASK = s.rd R.IDENT_CAPS0_DIE_MASK := State.rd_of_word (by decide) hc
  simp only [State.diesUp, hr, h1, hv]

section alert
variable (s : State) (n : Nat)

/-- An alert in force, with its bit set. -/
def State.alertSet : State :=
  ({ s with press := { s.press with alert := s.press.alert.set n true, holdEnd := s.press.holdEnd.set n 0 } } : State).setFlag (alertBit n) true

/-- What an alert takes: it is in force, and every die that is up is at level 1. -/
def State.alertTaken : State := (s.alertSet n).forceLevel (s.alertSet n).diesUp

theorem State.alert_eq : s.alert n = (s.alertTaken n).retarget := rfl

theorem State.alertSet_word {j : Nat} (h : j < 0x60000 ∨ 0x60010 ≤ j) : (s.alertSet n).word j = s.word j :=
  (State.word_wr_other _ _ _ _ (by rw [alertBit_key]; omega) (by rw [alertBit_key]; omega)).trans (State.word_with_press _ _ _)

theorem State.alertTaken_word {j : Nat} (h : j < 0x60000 ∨ 0x60050 ≤ j) : (s.alertTaken n).word j = s.word j :=
  (State.word_forceLevel _ (fun _ hd => State.diesUp_lt hd) (by omega)).trans (s.alertSet_word n (by omega))

theorem State.alertTaken_board : (s.alertTaken n).board = s.board :=
  (State.forceLevel_proj State.board State.wr_board _ _).trans (State.setFlag_board _ _ _)

theorem State.alertTaken_power : (s.alertTaken n).power = s.power :=
  (State.forceLevel_proj State.power State.wr_power _ _).trans (State.setFlag_power _ _ _)

theorem State.alertTaken_press : (s.alertTaken n).press =
    { s.press with alert := s.press.alert.set n true, holdEnd := s.press.holdEnd.set n 0 } :=
  (State.forceLevel_proj State.press State.wr_press _ _).trans (State.setFlag_press _ _ _)

theorem State.alertSet_diesUp : (s.alertSet n).diesUp = s.diesUp :=
  State.diesUp_congr (State.railsUp_congr (s.alertSet_word n (by decide)) (s.alertSet_word n (by decide)) (State.setFlag_board _ _ _)
    (State.setFlag_power _ _ _)) (s.alertSet_word n (by decide)) (State.setFlag_volt _ _ _)

theorem State.alertTaken_railsUp : (s.alertTaken n).railsUp = s.railsUp :=
  State.railsUp_congr (s.alertTaken_word n (by decide)) (s.alertTaken_word n (by decide)) (s.alertTaken_board n) (s.alertTaken_power n)

theorem State.alertTaken_railPresent (r : Nat) : (s.alertTaken n).railPresent r = s.railPresent r := by
  rw [State.railPresent, State.railPresent,
    State.rd_of_word (f := R.IDENT_CAPS0_DIE_MASK) (by decide) (s.alertTaken_word n (j := 0x8) (by decide))]

theorem State.alertTaken_alerted (h : n < s.press.alert.length) : (s.alertTaken n).alerted = true := by
  have ha : (s.press.alert.set n true).any id = true := List.any_eq_true.2 ⟨true, List.mem_set h true, rfl⟩
  simp only [State.alerted, s.alertTaken_press n, ha, Bool.true_or]

/-- In native mode with the rails up, an alert takes every rail that is present to V-point 0. -/
theorem State.alertTaken_targets (h : n < s.press.alert.length) :
    (s.alertTaken n).targets = ((List.range 9).filter s.railPresent).map fun r => (r, 0) := by
  rw [State.targets, if_pos (s.alertTaken_alerted n h), funext (s.alertTaken_railPresent n)]

theorem State.alertTaken_retarget (h : n < s.press.alert.length) (hr : s.railsUp = true) (hl : s.legacy = false) :
    (s.alertTaken n).retarget = ((((List.range 9).filter s.railPresent).map fun r => (r, 0)).foldl (fun a t => a.setTarget t.1 t.2)
      (s.alertTaken n)).voltGo := by
  have hl' : (s.alertTaken n).legacy = false := (State.legacy_congr (by rw [s.alertTaken_board n])).trans hl
  rw [State.retarget, if_neg (by rw [hl', s.alertTaken_railsUp n, hr]; simp), s.alertTaken_targets n h]

theorem State.alert_level (h : n < s.press.alert.length) (hr : s.railsUp = true) (hl : s.legacy = false) {d : Nat} (hd : d ∈ s.diesUp) :
    (s.alertTaken n).retarget.level d = 1 := by
  have h9 : ∀ t ∈ ((List.range 9).filter s.railPresent).map fun r => (r, 0), t.1 < 9 := by
    simp only [List.mem_map, List.mem_filter, List.mem_range]
    rintro _ ⟨r, ⟨hr, -⟩, rfl⟩
    exact hr
  rw [s.alertTaken_retarget n h hr hl, State.level_voltGo, State.level_setTargets h9]
  exact State.level_forceLevel _ (.inl (by rw [s.alertSet_diesUp]; exact hd))

theorem State.alert_target (h : n < s.press.alert.length) (hr : s.railsUp = true) (hl : s.legacy = false) {r : Nat} (h9 : r < 9)
    (hp : s.railPresent r = true) : (s.alertTaken n).retarget.target r = 0 := by
  rw [s.alertTaken_retarget n h hr hl, State.target_voltGo _ h9]
  refine State.target_foldl_zero (fun t ht => ?_) _ (.inl (List.mem_map.2 ⟨r, List.mem_filter.2 ⟨List.mem_range.2 h9, hp⟩, rfl⟩))
  obtain ⟨q, -, rfl⟩ := List.mem_map.1 ht
  rfl

end alert

/-! ### Shares of a total (R549) -/

/-- The share of the device at position `i` of `n`. -/
def shareAt (total n i : Nat) : Nat := total / n + if i = 0 then total % n else 0

/-- Values given to devices by their position in a list. -/
def giveShares (v : Nat → Nat) (t : Tab Nat) (l : List (Nat × Nat)) : Tab Nat :=
  l.foldl (fun t p => Tab.put (fun _ => 0) t p.1 (v p.2)) t

theorem shares_eq (total : Nat) (ds : List Nat) : shares total ds = giveShares (shareAt total ds.length) [] ds.zipIdx := rfl

theorem get_giveShares_other (v : Nat → Nat) (t : Tab Nat) {l : List Nat} {k d : Nat} (h : d ∉ l) :
    Tab.get (fun _ => 0) (giveShares v t (l.zipIdx k)) d = Tab.get (fun _ => 0) t d := by
  induction l generalizing t k with
  | nil => rfl
  | cons x xs ih =>
    obtain ⟨hx, hxs⟩ := not_or.1 (mt List.mem_cons.2 h)
    exact (ih _ hxs).trans (Tab.get_put_other _ _ _ hx)

/-- Each device of a list without repetition gets the value of its position. -/
theorem map_get_giveShares (v : Nat → Nat) (t : Tab Nat) {l : List Nat} (hl : l.Nodup) (k : Nat) :
    (l.map fun d => Tab.get (fun _ => 0) (giveShares v t (l.zipIdx k)) d) = (List.range' k l.length).map v := by
  induction l generalizing t k with
  | nil => rfl
  | cons x xs ih =>
    obtain ⟨hx, hxs⟩ := List.nodup_cons.1 hl
    have hhead : Tab.get (fun _ => 0) (giveShares v t ((x :: xs).zipIdx k)) x = v k :=
      (get_giveShares_other v _ hx).trans (Tab.get_put_same _ _ _ _)
    rw [List.map_cons, hhead, List.length_cons, List.range'_succ, List.map_cons]
    exact congrArg _ (ih _ hxs (k + 1))

theorem sum_shareAt (total m : Nat) : ((List.range' 0 (m + 1)).map (shareAt total (m + 1))).sum = total := by
  have hrest : (List.range' 1 m).map (shareAt total (m + 1)) = List.replicate m (total / (m + 1)) := by
    refine List.eq_replicate_iff.2 ⟨by simp, fun b hb => ?_⟩
    obtain ⟨i, hi, rfl⟩ := List.mem_map.1 hb
    have h1 : i ≠ 0 := by have := (List.mem_range'_1.1 hi).1; omega
    rw [shareAt, if_neg h1, Nat.add_zero]
  rw [List.range'_succ, List.map_cons, List.sum_cons, hrest, List.sum_replicate, shareAt, if_pos rfl, smul_eq_mul]
  have hd := Nat.div_add_mod total (m + 1)
  rw [Nat.add_mul, Nat.one_mul] at hd
  omega

/-- The shares add up to the total. -/
theorem sum_shares (total : Nat) {ds : List Nat} (hn : ds ≠ []) (hd : ds.Nodup) :
    (ds.map fun d => Tab.get (fun _ => 0) (shares total ds) d).sum = total := by
  obtain ⟨m, hm⟩ : ∃ m, ds.length = m + 1 := Nat.exists_eq_succ_of_ne_zero fun h => hn (List.length_eq_zero_iff.1 h)
  rw [shares_eq, map_get_giveShares _ _ hd, hm, sum_shareAt]

end Sys2Proof.Machine
end

section
/-!
PROOFS. Press's events and the chain's power budgets, each by its condition (R530 to R550).
-/

namespace Sys2Proof.Machine

/-! ### Ticks and calibration (R531, R534) -/

theorem State.railsUp_state {s : State} (h : s.railsUp = true) : s.power.st = .run ∨ s.power.st = .idle := by
  unfold State.railsUp at h
  simpa using ((Bool.and_eq_true _ _).mp h).2

theorem State.railsUp_false {s : State} (h : s.power.st ≠ .run ∧ s.power.st ≠ .idle) : s.railsUp = false :=
  Bool.eq_false_iff.2 fun hr => (State.railsUp_state hr).elim h.1 h.2

theorem State.pressTick_early {s : State} (a : List Nat) (h : ¬ s.press.tickAt + 1000 ≤ s.now) : s.pressTick a = s :=
  if_pos (Nat.lt_of_not_le h)

theorem State.pressTick_rails {s : State} (a : List Nat) (h : s.press.tickAt + 1000 ≤ s.now) (hr : s.railsUp = true) :
    s.pressTick a = s.tick (s.activity a) := by
  rw [State.pressTick, if_neg (Nat.not_lt.2 h), if_pos hr]

theorem State.pressTick_asleep {s : State} (a : List Nat) (h : s.press.tickAt + 1000 ≤ s.now) (hp : s.power.st = .sleep ∨ s.power.st = .deep) :
    s.pressTick a = ({ s with press := { s.press with tickAt := s.now } } : State).addEnergy (Config.statePower s.power.st.code) := by
  have hr : s.railsUp = false := State.railsUp_false (by rcases hp with h | h <;> rw [h] <;> decide)
  have hb : (s.power.st == .sleep || s.power.st == .deep) = true := by rcases hp with h | h <;> rw [h] <;> rfl
  rw [State.pressTick, if_neg (Nat.not_lt.2 h), hr, if_neg (by decide), if_pos hb]

theorem State.pressTick_off {s : State} (a : List Nat) (h : s.press.tickAt + 1000 ≤ s.now) (hp : s.power.st = .off) : s.pressTick a = s := by
  have hr : s.railsUp = false := State.railsUp_false (by rw [hp]; decide)
  rw [State.pressTick, if_neg (Nat.not_lt.2 h), hr, if_neg (by decide), hp]
  rfl

theorem State.calibrateGains_early {s : State} (ma : List Nat)
    (h : s.now < s.press.calAt + 10000000 ∨ s.press.ticks = 0 ∨ s.legacy = true) : s.calibrateGains ma = s := if_pos h

/-- What a calibration leaves: its sums begun again, its gains, and memory and array as they were. -/
theorem State.calibrateGains_spec {s : State} (ma : List Nat) (hd : s.press.calAt + 10000000 ≤ s.now) (ht : s.press.ticks ≠ 0)
    (hl : s.legacy = false) :
    (s.calibrateGains ma).press = { s.press with sums := [], ticks := 0, calAt := s.now } ∧ (s.calibrateGains ma).mem = s.mem ∧
    (s.calibrateGains ma).arr = s.arr ∧ (∀ g, g < 19 → (s.calibrateGains ma).rd (R.PRESS_GAIN_GAIN g) =
      if s.busLost (gainBus g) = false then s.measuredGain ma g % 65536 else s.rd (R.PRESS_GAIN_GAIN g)) := by
  have hpress : (s.gainsTaken ma).press = s.press := State.gainsTaken_proj State.press State.wr_press s ma
  rw [State.calibrateGains_of ma hd ht hl, hpress]
  refine ⟨State.setFlag_press _ _ _, ?_, ?_, fun g hg => ?_⟩
  · exact (State.setFlag_mem _ _ _).trans (State.gainsTaken_proj State.mem State.wr_mem s ma)
  · exact (State.setFlag_arr _ _ _).trans (State.gainsTaken_proj State.arr State.wr_arr s ma)
  · rw [State.rd_calibrated, State.rd_gainsTaken s ma hg]

/-! ### V-points (R541) -/

theorem State.lowerPoint_of {s : State} {d : Nat} (hm : s.mayChoose = true) (hd : d ∈ s.diesUp) (hl : s.lasted s.press.below d = true)
    (hv : s.rd (R.VOLT_RAIL_VP_MIN d) < s.target d) : s.lowerPoint d = ((s.setWanted d (s.target d - 1)).newSpan d).retarget :=
  if_pos (by simp [hm, hd, hl, hv])

theorem State.lowerPoint_not {s : State} {d : Nat} (h : ¬ (s.mayChoose = true ∧ d ∈ s.diesUp ∧ s.lasted s.press.below d = true ∧
    s.rd (R.VOLT_RAIL_VP_MIN d) < s.target d)) : s.lowerPoint d = s :=
  if_neg fun hc => h (by simpa [and_assoc] using hc)

theorem State.raisePoint_of {s : State} {d : Nat} (hm : s.mayChoose = true) (hd : d ∈ s.diesUp) (hl : s.lasted s.press.full d = true)
    (hp : s.pressed d = true) (hv : s.target d < s.rd (R.VOLT_RAIL_VP_MAX d)) : s.raisePoint d =
      if s.roomAt d (s.target d + 1) 0 = true then ((s.setWanted d (s.target d + 1)).newSpan d).retarget else s := by
  simp [State.raisePoint, hm, hd, hl, hp, hv]

theorem State.raisePoint_not {s : State} {d : Nat} (h : ¬ (s.mayChoose = true ∧ d ∈ s.diesUp ∧ s.lasted s.press.full d = true ∧
    s.pressed d = true ∧ s.target d < s.rd (R.VOLT_RAIL_VP_MAX d))) : s.raisePoint d = s :=
  if_neg fun hc => h (by
    simp only [Bool.and_eq_true, List.contains_iff_mem, decide_eq_true_eq] at hc
    obtain ⟨⟨⟨⟨⟨hp, hm⟩, hd⟩, hl⟩, hv⟩, -⟩ := hc
    exact ⟨hm, hd, hl, hp, hv⟩)

/-! ### Hints (R398, R544) -/

section hints
variable {s : State} {k : Nat} {h : Hint} (hk : s.press.hints[k]? = some h)
include hk

/-- HINT_START of a hint that has begun, or that begins later, or that is over, does nothing. -/
theorem State.hintStart_not (hn : ¬ (h.on = false ∧ h.start ≤ s.now + 100000 ∧ s.now < h.start + h.dur)) : s.hintStart k = s := by
  have hc : (h.on || decide (s.now + 100000 < h.start) || decide (h.start + h.dur ≤ s.now)) = true := by
    by_contra hc
    simp only [Bool.or_eq_true, decide_eq_true_eq, not_or, Nat.not_lt, Nat.not_le, Bool.not_eq_true] at hc
    obtain ⟨⟨hon, hstart⟩, hend⟩ := hc
    exact hn ⟨hon, hstart, hend⟩
  simp only [State.hintStart, hk, hc, if_true]

theorem State.hintStart_of (hs : h.on = false ∧ h.start ≤ s.now + 100000 ∧ s.now < h.start + h.dur) : s.hintStart k =
    let s1 := ({ s with press := { s.press with hints := s.press.hints.set k { h with on := true } } } : State).setFlag
      R.PRESS_STATUS_HINT_ACTIVE true
    let ds := h.dies.filter fun d => s.diesUp.contains d
    if s.mayChoose then (ds.foldl (fun a d => a.setWanted d (s.hintPoint d (h.mw / max 1 ds.length))) s1).retarget else s1 := by
  obtain ⟨hon, hstart, hend⟩ := hs
  have hc : ¬ (h.on || decide (s.now + 100000 < h.start) || decide (h.start + h.dur ≤ s.now)) = true := by
    simp [hon, hstart, hend]
  simp only [State.hintStart, hk, if_neg hc]

theorem State.hintUnused_of (hu : h.on = true ∧ h.start + 50000 ≤ s.now ∧ 2 * h.most < h.mw) : s.hintUnused k =
    (({ s with press := { s.press with hints := s.press.hints.eraseIdx k } } : State).setFlag R.PRESS_STATUS_HINT_ACTIVE
      ((s.press.hints.eraseIdx k).any Hint.on)).bump R.PRESS_HINT_COUNT_UNUSED 1 := by
  have hc : (h.on && decide (h.start + 50000 ≤ s.now ∧ 2 * h.most < h.mw)) = true := by simpa using hu
  simp only [State.hintUnused, hk, if_pos hc]

theorem State.hintUnused_not (hu : ¬ (h.on = true ∧ h.start + 50000 ≤ s.now ∧ 2 * h.most < h.mw)) : s.hintUnused k = s := by
  have hc : ¬ (h.on && decide (h.start + 50000 ≤ s.now ∧ 2 * h.most < h.mw)) = true := fun hc => hu (by simpa using hc)
  simp only [State.hintUnused, hk, if_neg hc]

end hints

theorem State.hintStart_none {s : State} {k : Nat} (hk : s.press.hints[k]? = none) : s.hintStart k = s := by
  simp only [State.hintStart, hk]

theorem State.hintUnused_none {s : State} {k : Nat} (hk : s.press.hints[k]? = none) : s.hintUnused k = s := by
  simp only [State.hintUnused, hk]

/-! ### The floor (R545) -/

theorem State.floorEntry_not {s : State} (h : ¬ (s.flag R.PRESS_STATUS_FLOOR = false ∧ s.press.floorIn ≠ 0 ∧
    s.press.floorIn + 100000 ≤ s.now + 1)) : s.floorEntry = s :=
  if_pos (by
    by_contra hc
    simp only [Bool.or_eq_true, beq_iff_eq, decide_eq_true_eq, not_or, Nat.not_lt, Bool.not_eq_true] at hc
    obtain ⟨⟨hc1, hc2⟩, hc3⟩ := hc
    exact h ⟨hc1, hc2, hc3⟩)

/-- The interrupt of a floor entry follows PRESS.CTRL, which the record of the entry leaves alone. -/
theorem State.floorEntry_of {s : State} (h : s.flag R.PRESS_STATUS_FLOOR = false ∧ s.press.floorIn ≠ 0 ∧
    s.press.floorIn + 100000 ≤ s.now + 1) :
    let short := s.rd R.PRESS_EST_MW - s.capApplied
    let s1 := ((s.setFlag R.PRESS_STATUS_FLOOR true).wr R.PRESS_SHORTFALL_MW short).raise Rc.capFloor deviceClass noOwner short s.capApplied
    s.floorEntry = s1.irq (s1.flag R.PRESS_CTRL_IRQ_EN) (s1.rd R.PRESS_CTRL_VECTOR) := by
  intro short s1
  have hw : s1.word 0x60004 = s.word 0x60004 :=
    (State.word_raise_device _ _ _ _ _ (by decide)).trans ((State.word_wr_other _ _ _ _ (by decide) (by decide)).trans
      (State.word_wr_other _ _ _ _ (by decide) (by decide)))
  have hen : s1.flag R.PRESS_CTRL_IRQ_EN = s.flag R.PRESS_CTRL_IRQ_EN := State.flag_of_word (by decide) hw
  have hv : s1.rd R.PRESS_CTRL_VECTOR = s.rd R.PRESS_CTRL_VECTOR := State.rd_of_word (by decide) hw
  obtain ⟨hfl, hin, ht⟩ := h
  rw [State.floorEntry, if_neg (by simp [hfl, hin]; omega), hen, hv]

theorem State.floorExit_not {s : State} (h : ¬ (s.flag R.PRESS_STATUS_FLOOR = true ∧ s.press.floorOut ≠ 0 ∧
    s.press.floorOut + 100000 ≤ s.now + 1)) : s.floorExit = s :=
  if_pos (by
    by_contra hc
    simp only [Bool.or_eq_true, Bool.not_eq_true', beq_iff_eq, decide_eq_true_eq, not_or, Nat.not_lt, Bool.not_eq_false] at hc
    obtain ⟨⟨hc1, hc2⟩, hc3⟩ := hc
    exact h ⟨hc1, hc2, hc3⟩)

theorem State.floorExit_of {s : State} (h : s.flag R.PRESS_STATUS_FLOOR = true ∧ s.press.floorOut ≠ 0 ∧
    s.press.floorOut + 100000 ≤ s.now + 1) :
    let s2 := (s.setFlag R.PRESS_STATUS_FLOOR false).wr R.PRESS_SHORTFALL_MW 0
    s.floorExit = ({ s2 with press := { s2.press with floorIn := 0, forced := [] } } : State).retarget := by
  obtain ⟨hfl, hout, ht⟩ := h
  exact if_neg (by simp [hfl, hout]; omega)

/-! ### Chains (R549, R550) -/

theorem State.members_dropHeld (s : State) (f : Nat) : (s.dropHeld f).members = s.members := by
  unfold State.members State.inChain
  simp only [State.flag_dropHeld]
  rfl

theorem State.isMaster_dropHeld (s : State) (f : Nat) : (s.dropHeld f).isMaster = s.isMaster := State.flag_dropHeld ..

theorem State.writeChainTotal_of {s : State} {v : Nat} (hm : s.isMaster = true) (ht : fld v 23 0 = 0 ∨ 35000 * s.members.length ≤ fld v 23 0) :
    let s1 := s.wr R.PRESS_CHAIN_TOTAL_MW (fld v 23 0)
    s.writeChainTotal v = ({ s1 with press := { s1.press with
      budgets := if fld v 23 0 = 0 then [] else shares (fld v 23 0) s.members } } : State).sendBudgets :=
  if_neg (by rcases ht with h | h <;> simp [hm, h])

theorem State.writeChainTotal_not {s : State} {v : Nat}
    (h : ¬ (s.isMaster = true ∧ (fld v 23 0 = 0 ∨ 35000 * s.members.length ≤ fld v 23 0))) : s.writeChainTotal v = s :=
  if_pos (by
    by_contra hc
    simp only [Bool.or_eq_true, Bool.and_eq_true, Bool.not_eq_true', bne_iff_ne, decide_eq_true_eq, not_or, not_and, Bool.not_eq_false,
      Nat.not_lt] at hc
    exact h ⟨hc.1, or_iff_not_imp_left.2 hc.2⟩)

theorem State.powerReport_not {s : State} (h : ¬ (s.press.reportAt + 1000000 ≤ s.now ∧ s.flag R.CHAIN_STATUS_FORMED = true)) :
    s.powerReport = s :=
  if_pos (by
    by_contra hc
    simp only [Bool.not_eq_true', not_or, Nat.not_lt, Bool.not_eq_false] at hc
    exact h hc)

theorem State.powerReport_of {s : State} (h : s.press.reportAt + 1000000 ≤ s.now ∧ s.flag R.CHAIN_STATUS_FORMED = true) :
    let w := min s.press.waitNs (2 ^ 32 - 1)
    let mw := s.rd R.PRESS_EST_MW
    let s1 := ({ s with press := { s.press with waitNs := 0, reportAt := s.now } } : State).wr R.PRESS_CHAIN_WAIT_NS w
    s.powerReport = if s.isMaster then
      { s1 with press := { s1.press with reports := s1.press.reports ++ [(s.rd R.CHAIN_STATUS_DEVICE_ID, mw, w)] } }
    else s1.sendFlit 0 0 (.ctrl (.power mw w)) :=
  if_neg (by simp [h.1, h.2])

/-- The device that gives budget: the longest wait of those above 35 W. -/
def State.giver (s : State) : Option (Nat × Nat) :=
  pickDevice s.press.reports (fun d => decide (35000 < s.budget d)) fun a b => decide (b < a)

/-- The device that takes it: the shortest wait of those below their cap. -/
def State.taker (s : State) : Option (Nat × Nat) :=
  pickDevice s.press.reports (fun d => decide (s.budget d < s.capOf d)) fun a b => decide (a < b)

theorem State.budgetShift_not {s : State} (h : ¬ (s.isMaster = true ∧ s.rd R.PRESS_CHAIN_TOTAL_MW ≠ 0 ∧
    s.press.shiftAt + 1000000 ≤ s.now)) : s.budgetShift = s :=
  if_pos (by
    by_contra hc
    simp only [Bool.or_eq_true, Bool.not_eq_true', beq_iff_eq, decide_eq_true_eq, not_or, Nat.not_lt, Bool.not_eq_false] at hc
    obtain ⟨⟨hc1, hc2⟩, hc3⟩ := hc
    exact h ⟨hc1, hc2, hc3⟩)

section shift
variable {s : State} (hd : s.isMaster = true ∧ s.rd R.PRESS_CHAIN_TOTAL_MW ≠ 0 ∧ s.press.shiftAt + 1000000 ≤ s.now)
include hd

theorem State.shift_due : ¬ (!s.isMaster || s.rd R.PRESS_CHAIN_TOTAL_MW == 0 || decide (s.now < s.press.shiftAt + 1000000)) = true := by
  obtain ⟨hm, ht, hs⟩ := hd
  simp [hm, ht, hs]

theorem State.budgetShift_alone (h : s.giver = none ∨ s.taker = none) :
    s.budgetShift = ({ s with press := { s.press with reports := [], shiftAt := s.now } } : State).sendBudgets := by
  unfold State.giver State.taker at h
  simp only [State.budgetShift, if_neg (State.shift_due hd)]
  rcases h with h | h
  · rw [h]
  · rw [h]
    split
    · contradiction
    · rfl

theorem State.budgetShift_even {h l : Nat × Nat} (hg : s.giver = some h) (ht : s.taker = some l) (hw : h.2 ≤ l.2 + 100000) :
    s.budgetShift = ({ s with press := { s.press with reports := [], shiftAt := s.now } } : State).sendBudgets := by
  unfold State.giver at hg
  unfold State.taker at ht
  simp only [State.budgetShift, if_neg (State.shift_due hd), hg, ht, if_neg (Nat.not_lt.2 hw)]

theorem State.budgetShift_moves {h l : Nat × Nat} (hg : s.giver = some h) (ht : s.taker = some l) (hw : l.2 + 100000 < h.2) :
    let n := min (s.rd R.PRESS_CHAIN_TOTAL_MW / 50) (min (s.budget h.1 - 35000) (s.capOf l.1 - s.budget l.1))
    let t := Tab.put (fun _ => 0) s.press.budgets h.1 (s.budget h.1 - n)
    let s1 : State := { s with press := { s.press with reports := [], shiftAt := s.now } }
    s.budgetShift = ({ s1 with press := { s1.press with budgets := Tab.put (fun _ => 0) t l.1 (s.budget l.1 + n) } } : State).sendBudgets := by
  unfold State.giver at hg
  unfold State.taker at ht
  simp only [State.budgetShift, if_neg (State.shift_due hd), hg, ht, if_pos hw]

end shift

/-- A budget below CAP is the cap applied (R538). -/
theorem State.capApplied_budget {s : State} (hl : s.legacy = false) (h0 : s.rd R.PRESS_CHAIN_BUDGET_MW ≠ 0)
    (hc : s.rd R.PRESS_CHAIN_BUDGET_MW < s.capMw) : s.capApplied = s.rd R.PRESS_CHAIN_BUDGET_MW := by
  have hb : s.budgeted = true := by simp [State.budgeted, h0, hc]
  simp only [State.capApplied, hb, hl, Bool.false_eq_true, if_false, if_true]

/-- Settles O43: each event by its condition; the gains of a calibration (`calibrateGains_spec`), what an alert leaves
(`alert_level`, `alert_target`) and the sum of the shares (`sum_shares`) by induction over the lists they run through. -/
theorem pressAndBudgets : Obligations.PressAndBudgets := by
  refine ⟨⟨?_, ?_, ?_, ?_, ?_, ?_, ?_, ?_, ?_⟩, ?_, ?_, ?_, ?_, ?_⟩
  · intro s est hr hh due
    have hgo : exec (.pressTick est) s = .next (s.pressTick est) := by
      rw [exec_pressTick, execPressTick, done_eq, when_of (by rw [hr, hh]; rfl)]
    exact ⟨fun h => hgo.trans (congrArg _ (State.pressTick_early est h)), fun h hu => hgo.trans (congrArg _ (State.pressTick_rails est h hu)),
      fun h hp => hgo.trans (congrArg _ (State.pressTick_asleep est h hp)), fun h hp => hgo.trans (congrArg _ (State.pressTick_off est h hp))⟩
  · intro s ma hu
    have hgo : exec (.pressCalibration ma) s = .next (s.calibrateGains ma) := by
      rw [exec_pressCalibration, execPressCalibration, done_eq, when_of hu]
    refine ⟨fun h => hgo.trans (congrArg _ (State.calibrateGains_early ma h)), fun hd ht hl => ?_⟩
    obtain ⟨hpress, hmem, harr, hgain⟩ := State.calibrateGains_spec ma hd ht hl
    exact ⟨_, hgo, hpress, hmem, harr, fun g hg hb => (hgain g hg).trans (if_neg (by rw [hb]; decide)),
      fun g hg hb => (hgain g hg).trans (if_pos hb)⟩
  · intro s v hu t u
    rw [exec_pressCapWrite, execPressCapWrite, done_eq, when_of hu]
    rfl
  · intro s d hd lower raise_
    have hlo : exec (.vpointLower d) s = .next (s.lowerPoint d) := by
      rw [exec_vpointLower, execVpointLower, unit_of (decide_eq_true hd)]
    have hra : exec (.vpointRaise d) s = .next (s.raisePoint d) := by
      rw [exec_vpointRaise, execVpointRaise, unit_of (decide_eq_true hd)]
    refine ⟨fun h => ?_, fun h => hlo.trans (congrArg _ (State.lowerPoint_not h)), fun h => ?_,
      fun h => hra.trans (congrArg _ (State.raisePoint_not h))⟩
    · obtain ⟨hm, hu, hl, hv⟩ := h
      exact hlo.trans (congrArg _ (State.lowerPoint_of hm hu hl hv))
    · obtain ⟨hm, hu, hl, hp, hv⟩ := h
      exact hra.trans (congrArg _ (State.raisePoint_of hm hu hl hp hv))
  · intro s n hn hu bitOf s1
    have hend : exec (.vrAlertHoldEnd n) s = .next (s.alertEnds n) := by
      rw [exec_vrAlertHoldEnd, execVrAlertHoldEnd, unit_of (decide_eq_true hn), when_of hu]
    have hoff : exec (.vrAlertDeassert n) s = .next (s.alertOff n) := by
      rw [exec_vrAlertDeassert, execVrAlertDeassert, unit_of (decide_eq_true hn), when_of hu]
    refine ⟨?_, fun hlen hr hl => ?_, fun h => hoff.trans (congrArg _ (if_pos h)), fun h => hoff.trans (congrArg _ (if_neg (by rw [h]; decide))),
      fun h0 ht => hend.trans (congrArg _ (if_pos ⟨h0, ht⟩)), fun h => hend.trans (congrArg _ (if_neg fun hc => ?_))⟩
    · rw [exec_vrAlertAssert, execVrAlertAssert, unit_of (decide_eq_true hn), when_of hu]
      rfl
    · have hlt : n < s.press.alert.length := by rw [hlen]; exact hn
      exact ⟨fun d hd => s.alert_level n hlt hr hl hd, fun r h9 hp => s.alert_target n hlt hr hl h9 hp⟩
    · exact h.elim hc.1 fun h => absurd hc.2 (Nat.not_le.2 h)
  · intro s f w d hf hw hb s0 mask
    have hgo : exec (.powerHint f w) s = .next (s0.powerHint d) := by
      rw [exec_powerHint, execPowerHint, unit_of (by simp [ringOk, hf, hw]), State.onDesc, hb]
    refine ⟨fun h => ?_, fun h => ?_⟩
    · rw [hgo, State.powerHint, if_pos h]
    · rw [hgo, State.powerHint, if_neg (Nat.not_lt.2 h)]
  · intro s k h hk hu hh starts unused s1 ds
    have hst : exec (.hintStart k) s = .next (s.hintStart k) := by
      rw [exec_hintStart, execHintStart, unit_of (decide_eq_true hk), when_of hu]
    have hun : exec (.hintUnused k) s = .next (s.hintUnused k) := by
      rw [exec_hintUnused, execHintUnused, unit_of (decide_eq_true hk), when_of hu]
    refine ⟨fun hs hm => ?_, fun hs hm => ?_, fun hs => hst.trans (congrArg _ (State.hintStart_not hh hs)),
      fun hs => hun.trans (congrArg _ (State.hintUnused_of hh hs)), fun hs => hun.trans (congrArg _ (State.hintUnused_not hh hs))⟩
    · rw [hst, State.hintStart_of hh hs]
      exact congrArg _ (if_neg (by rw [hm]; decide))
    · rw [hst, State.hintStart_of hh hs]
      exact congrArg _ (if_pos hm)
  · intro s k hk hu hh
    rw [exec_hintStart, exec_hintUnused, execHintStart, execHintUnused, unit_of (decide_eq_true hk), unit_of (decide_eq_true hk), when_of hu,
      when_of hu, State.hintStart_none hh, State.hintUnused_none hh]
    exact ⟨rfl, rfl⟩
  · intro s hu enters leaves short s1 s2
    have hin : exec .floorEntry s = .next s.floorEntry := by rw [exec_floorEntry, execFloorEntry, done_eq, when_of hu]
    have hout : exec .floorExit s = .next s.floorExit := by rw [exec_floorExit, execFloorExit, done_eq, when_of hu]
    exact ⟨fun h => hin.trans (congrArg _ (State.floorEntry_of h)), fun h => hin.trans (congrArg _ (State.floorEntry_not h)),
      fun h => hout.trans (congrArg _ (State.floorExit_of h)), fun h => hout.trans (congrArg _ (State.floorExit_not h))⟩
  · intro s v hs total ok s1
    have hmem : (s.dropHeld 0).members = s.members := s.members_dropHeld 0
    have hmas : (s.dropHeld 0).isMaster = s.isMaster := s.isMaster_dropHeld 0
    rw [exec_chainTotalWrite, execChainTotalWrite, done_eq, when_of (State.steady_hubUp hs)]
    refine ⟨fun h => ?_, fun h => ?_⟩
    · have hw := State.writeChainTotal_of (s := s.dropHeld 0) (hmas.trans h.1) (by rw [hmem]; exact h.2)
      rw [hmem] at hw
      rw [State.cmdWrite, hw]
    · have hw : (s.dropHeld 0).writeChainTotal v = s.dropHeld 0 := State.writeChainTotal_not (by rw [hmem, hmas]; exact h)
      rw [State.cmdWrite_steady hs (by rw [hw, State.dropHeld_power]), hw]
  · exact fun total ds hn hd => sum_shares total hn hd
  · intro s hu due w mw s1
    have hgo : exec .chainPowerReport s = .next s.powerReport := by rw [exec_chainPowerReport, execChainPowerReport, done_eq, when_of hu]
    refine ⟨fun h hm => ?_, fun h hm => ?_, fun h => hgo.trans (congrArg _ (State.powerReport_not h))⟩
    · rw [hgo, State.powerReport_of h]
      exact congrArg _ (if_pos hm)
    · rw [hgo, State.powerReport_of h]
      exact congrArg _ (if_neg (by rw [hm]; decide))
  · intro s hu total due most least s1
    have hgo : exec .chainBudgetShift s = .next s.budgetShift := by rw [exec_chainBudgetShift, execChainBudgetShift, done_eq, when_of hu]
    exact ⟨fun h => hgo.trans (congrArg _ (State.budgetShift_not h)), fun h hn => hgo.trans (congrArg _ (State.budgetShift_alone h hn)),
      fun a b h hg ht hw => hgo.trans (congrArg _ (State.budgetShift_even h hg ht hw)),
      fun a b h hg ht hw => hgo.trans (congrArg _ (State.budgetShift_moves h hg ht hw))⟩
  · exact fun s hl h0 hc => State.capApplied_budget hl h0 hc

end Sys2Proof.Machine
end

section
/-!
PROOFS. The numbers of one evaluation: the codes of its rows (R71, R73), and the converter with and without its nonlinearity (R89, R92).
-/

namespace Sys2Proof.Machine

/-! ### Activation codes (R71, R73) -/

theorem getD_rowCodes (nibble : Bool) (bs : List Nat) {n i : Nat} (hi : i < n) :
    (rowCodes nibble bs n).getD i 0 = if nibble then nibbleAt bs i else u8At bs i := by
  rw [rowCodes, List.getD_eq_getElem _ _ (by simpa using hi)]
  simp

/-- The byte that holds the code of an active row lies among the `codeBytes` (R71, R73). -/
theorem code_of_take (nibble : Bool) (bs : List Nat) {n i : Nat} (hi : i < n) :
    (if nibble then nibbleAt (bs.take (codeBytes nibble n)) i else u8At (bs.take (codeBytes nibble n)) i) =
      if nibble then nibbleAt bs i else u8At bs i := by
  have htake : ∀ {m j : Nat}, j < m → u8At (bs.take m) j = u8At bs j := fun h => by
    simp only [u8At, List.getD_eq_getElem?_getD, List.getElem?_take_of_lt h]
  cases nibble with
  | false => exact htake hi
  | true =>
    have hj : i / 2 < codeBytes true n := by simp only [codeBytes, if_true]; omega
    simp only [if_true, nibbleAt, htake hj]

theorem rowCodes_take (nibble : Bool) (bs : List Nat) (n : Nat) :
    rowCodes nibble (bs.take (codeBytes nibble n)) n = rowCodes nibble bs n :=
  List.map_congr_left fun _ hi => code_of_take nibble bs (List.mem_range.1 hi)

/-- Settles O56: a code read back from the list is `getD_rowCodes`, and its byte is one of those taken (`rowCodes_take`). -/
theorem rowCodes_spec : Obligations.RowCodes := by
  intro bs n _
  refine ⟨fun i hi => getD_rowCodes false bs hi, fun i hi => getD_rowCodes true bs hi, fun nib => ⟨?_, rowCodes_take nib bs n⟩⟩
  rw [rowCodes, List.length_map, List.length_range]

/-! ### The converter (R89) -/

/-- The code before it is clamped: the net charge over the step, rounded half up. -/
def unclamped (n : Int) (d s : Nat) : Int := (2 * n * (2 ^ s : Nat) + d) / (2 * d : Nat)

/-- The least code of `b` bits. -/
def codeLo (b : Nat) : Int := -((2 ^ (b - 1) : Nat) : Int)

/-- The greatest code of `b` bits. -/
def codeHi (b : Nat) : Int := ((2 ^ (b - 1) : Nat) : Int) - 1

theorem convert_q (n : Int) (d b s : Nat) : (convert n d b s).q = clampInt (codeLo b) (codeHi b) (unclamped n d s) := rfl

theorem convert_sat (n : Int) (d b s : Nat) :
    (convert n d b s).sat = true ↔ unclamped n d s < codeLo b ∨ codeHi b < unclamped n d s := decide_eq_true_iff

theorem codeLo_le_codeHi (b : Nat) : codeLo b ≤ codeHi b := by
  have : 0 < 2 ^ (b - 1) := Nat.two_pow_pos _
  simp only [codeLo, codeHi]
  omega

/-- One threshold lies between each two neighbouring codes. -/
theorem codeLo_add (b : Nat) (hb : 0 < b) : codeLo b + (2 ^ b - 1 : Nat) = codeHi b := by
  have hp : 2 ^ b = 2 * 2 ^ (b - 1) := by rw [← Nat.pow_succ', Nat.succ_eq_add_one, Nat.sub_add_cancel hb]
  have h0 : 0 < 2 ^ (b - 1) := Nat.two_pow_pos _
  simp only [codeLo, codeHi]
  omega

theorem clampInt_eq {lo hi : Int} (h : lo ≤ hi) (v : Int) : clampInt lo hi v = max lo (min hi v) := by
  unfold clampInt
  split_ifs <;> omega

theorem unclamped_eq_floor (n : Int) {d : Nat} (hd : 0 < d) (s : Nat) : unclamped n d s = ⌊((n : ℚ) / d) / (1 / 2 ^ s) + 1 / 2⌋ := by
  have hd' : (d : ℚ) ≠ 0 := Nat.cast_ne_zero.2 hd.ne'
  rw [unclamped, ← Rat.floor_intCast_div_natCast]
  congr 1
  push_cast
  field_simp

theorem unclamped_mono {n m : Int} (h : n ≤ m) {d : Nat} (hd : 0 < d) (s : Nat) : unclamped n d s ≤ unclamped m d s := by
  have hp : n * (2 ^ s : Nat) ≤ m * (2 ^ s : Nat) := Int.mul_le_mul_of_nonneg_right h (Int.natCast_nonneg _)
  exact Int.ediv_le_ediv (by omega) (by linarith)

/-! ### Counting (R89) -/

theorem countIf_range (p : Nat → Bool) (n : Nat) : countIf p (List.range n) = ((Finset.range n).filter fun k => p k = true).card := by
  rw [← Nat.count_eq_card_filter_range, Nat.count, countIf, ← List.countP_eq_length_filter]
  simp

theorem countIf_le (p : Nat → Bool) (n : Nat) : countIf p (List.range n) ≤ n :=
  (List.length_filter_le _ _).trans List.length_range.le

theorem le_countIf {p : Nat → Bool} {a n : Nat} (ha : a ≤ n) (h : ∀ k < a, p k = true) : a ≤ countIf p (List.range n) := by
  rw [countIf_range]
  calc a = (Finset.range a).card := (Finset.card_range a).symm
    _ ≤ _ := Finset.card_le_card fun k hk => by
      rw [Finset.mem_range] at hk
      exact Finset.mem_filter.2 ⟨Finset.mem_range.2 (hk.trans_le ha), h k hk⟩

theorem countIf_le_of {p : Nat → Bool} {a : Nat} (n : Nat) (h : ∀ k, p k = true → k < a) : countIf p (List.range n) ≤ a := by
  rw [countIf_range]
  calc _ ≤ (Finset.range a).card := Finset.card_le_card fun k hk => Finset.mem_range.2 (h k (Finset.mem_filter.1 hk).2)
    _ = a := Finset.card_range a

theorem countIf_mono {p q : Nat → Bool} (n : Nat) (h : ∀ k, p k = true → q k = true) :
    countIf p (List.range n) ≤ countIf q (List.range n) := by
  simp only [countIf, ← List.countP_eq_length_filter]
  exact List.countP_mono_left fun k _ => h k

/-! ### The nonlinearity (R92) -/

theorem clampInt_bounds {lo hi : Int} (h : lo ≤ hi) (v : Int) : lo ≤ clampInt lo hi v ∧ clampInt lo hi v ≤ hi := by
  rw [clampInt_eq h]
  omega

theorem inlWalk_bounds (draw : Nat → Int) (k : Nat) : -32767 ≤ inlWalk draw k ∧ inlWalk draw k ≤ 32768 := by
  cases k <;> exact clampInt_bounds (by decide) _

/-- Threshold `k` of a converter, that of the code next above `codeLo b + k`, in 2^-16 LSB (R92). -/
def threshold (draw : Nat → Int) (b k : Nat) : Int := (2 * (codeLo b + ((k : Int) + 1)) - 1) * 32768 + inlWalk draw k

/-- The net charge `n / d` lies at or above threshold `k`. -/
def reaches (draw : Nat → Int) (n : Int) (d b s k : Nat) : Bool := decide (threshold draw b k * (d : Int) ≤ n * (2 ^ (s + 16) : Nat))

section convertBy
variable {draw : Nat → Int} {n m : Int} {d b s k : Nat}

theorem convertBy_of_sat (h : (convert n d b s).sat = true) : convertBy draw n d b s = convert n d b s := if_pos h

theorem convertBy_of_not_sat (h : (convert n d b s).sat = false) :
    convertBy draw n d b s = ⟨codeLo b + countIf (reaches draw n d b s) (List.range (2 ^ b - 1)), false⟩ := if_neg (by rw [h]; decide)

theorem convertBy_sat : (convertBy draw n d b s).sat = (convert n d b s).sat := by
  cases h : (convert n d b s).sat with
  | true => rw [convertBy_of_sat h, h]
  | false => rw [convertBy_of_not_sat h]

theorem reaches_mono (h : n ≤ m) (hr : reaches draw n d b s k = true) : reaches draw m d b s k = true :=
  decide_eq_true ((of_decide_eq_true hr).trans (Int.mul_le_mul_of_nonneg_right h (Int.natCast_nonneg _)))

/-- The thresholds of the codes below the unclamped one are reached, whatever the nonlinearity. -/
theorem reaches_of_le (hd : 0 < d) (h : codeLo b + k + 2 ≤ unclamped n d s) : reaches draw n d b s k = true := by
  have hu := Int.ediv_mul_le (2 * n * (2 ^ s : Nat) + d) (b := ((2 * d : Nat) : Int)) (by omega)
  rw [← unclamped] at hu
  have ht : threshold draw b k ≤ 32768 * (2 * unclamped n d s - 1) := by
    have := (inlWalk_bounds draw k).2
    unfold threshold
    omega
  refine decide_eq_true ?_
  calc threshold draw b k * d ≤ 32768 * (2 * unclamped n d s - 1) * d := Int.mul_le_mul_of_nonneg_right ht (Int.natCast_nonneg d)
    _ ≤ n * (2 ^ (s + 16) : Nat) := by
      push_cast [pow_add] at hu ⊢
      linarith

/-- No threshold beyond that of the code next above the unclamped one is reached. -/
theorem le_of_reaches (hd : 0 < d) (h : reaches draw n d b s k = true) : codeLo b + k ≤ unclamped n d s := by
  have hu := Int.lt_ediv_add_one_mul_self (2 * n * (2 ^ s : Nat) + d) (b := ((2 * d : Nat) : Int)) (by omega)
  rw [← unclamped] at hu
  have ht : threshold draw b k * d < 32768 * (2 * unclamped n d s + 1) * d := by
    refine (of_decide_eq_true h).trans_lt ?_
    push_cast [pow_add] at hu ⊢
    linarith
  have := lt_of_mul_lt_mul_right ht (Int.natCast_nonneg d)
  have := (inlWalk_bounds draw k).1
  unfold threshold at *
  omega

/-- The codes of a converter are those of its bits, with the nonlinearity as without. -/
theorem convertBy_range (hb : 0 < b) : codeLo b ≤ (convertBy draw n d b s).q ∧ (convertBy draw n d b s).q ≤ codeHi b := by
  cases h : (convert n d b s).sat with
  | true => rw [convertBy_of_sat h]; exact clampInt_bounds (codeLo_le_codeHi b) _
  | false =>
    have hc := countIf_le (reaches draw n d b s) (2 ^ b - 1)
    rw [convertBy_of_not_sat h, ← codeLo_add b hb]
    dsimp only
    omega

/-- Within one code of the converter without its nonlinearity: the thresholds of the codes below its own are reached, and of those above at
most the next one's. -/
theorem convertBy_near (hd : 0 < d) (hb : 0 < b) :
    (convertBy draw n d b s).q ≤ (convert n d b s).q + 1 ∧ (convert n d b s).q ≤ (convertBy draw n d b s).q + 1 := by
  cases h : (convert n d b s).sat with
  | true => rw [convertBy_of_sat h]; omega
  | false =>
    have hin : ¬ (unclamped n d s < codeLo b ∨ codeHi b < unclamped n d s) := fun hc => by
      rw [(convert_sat n d b s).2 hc] at h
      cases h
    have hq : (convert n d b s).q = unclamped n d s := by
      rw [convert_q, clampInt_eq (codeLo_le_codeHi b)]
      omega
    have hlen := codeLo_add b hb
    have hlow := le_countIf (p := reaches draw n d b s) (a := (unclamped n d s - 1 - codeLo b).toNat) (n := 2 ^ b - 1) (by omega)
      fun k hk => reaches_of_le hd (by omega)
    have hhigh := countIf_le_of (p := reaches draw n d b s) (a := (unclamped n d s + 1 - codeLo b).toNat) (2 ^ b - 1)
      fun k hk => by have := le_of_reaches hd hk; omega
    rw [convertBy_of_not_sat h, hq]
    dsimp only
    omega

/-- Monotonic: a greater charge reaches every threshold that a smaller one reaches, and saturates where that one does at the upper end. -/
theorem convertBy_mono (hd : 0 < d) (hb : 0 < b) (h : n ≤ m) : (convertBy draw n d b s).q ≤ (convertBy draw m d b s).q := by
  have hu := unclamped_mono h hd s
  have hlohi := codeLo_le_codeHi b
  obtain ⟨hlo, -⟩ := convertBy_range (draw := draw) (n := m) (d := d) (s := s) hb
  obtain ⟨-, hhi⟩ := convertBy_range (draw := draw) (n := n) (d := d) (s := s) hb
  by_cases hn : unclamped n d s < codeLo b
  · rw [convertBy_of_sat ((convert_sat n d b s).2 (.inl hn)), convert_q, clampInt_eq hlohi]
    omega
  by_cases hm : codeHi b < unclamped m d s
  · rw [convertBy_of_sat ((convert_sat m d b s).2 (.inr hm)), convert_q, clampInt_eq hlohi]
    omega
  have hin : ∀ {x : Int}, codeLo b ≤ unclamped x d s → unclamped x d s ≤ codeHi b → (convert x d b s).sat = false := fun h1 h2 =>
    Bool.eq_false_iff.2 fun hs => ((convert_sat _ d b s).1 hs).elim (by omega) (by omega)
  rw [convertBy_of_not_sat (hin (by omega) (by omega)), convertBy_of_not_sat (hin (by omega) (by omega))]
  have := countIf_mono (p := reaches draw n d b s) (q := reaches draw m d b s) (2 ^ b - 1) fun _ => reaches_mono h
  dsimp only
  omega

end convertBy

/-- Settles O57: the code before its clamp is the rounded quotient (`unclamped_eq_floor`), and the thresholds of a real converter lie within
half an LSB of the ideal ones, so its code is near (`convertBy_near`) and monotonic (`convertBy_mono`). -/
theorem converterCodes : Obligations.ConverterCodes := by
  refine ⟨?_, fun draw n m d b s hd hb h =>
    ⟨convertBy_sat, (convertBy_near hd hb).1, (convertBy_near hd hb).2, convertBy_mono hd hb h⟩⟩
  intro n d b s hd hb hs q lo hi
  have hq : unclamped n d s = q := unclamped_eq_floor n hd s
  have hlo : codeLo b = lo := by simp only [codeLo, lo, Nat.cast_pow, Nat.cast_ofNat]
  have hhi : codeHi b = hi := by simp only [codeHi, hi, Nat.cast_pow, Nat.cast_ofNat]
  refine ⟨?_, ?_, ?_⟩
  · rw [convert_q, clampInt_eq (codeLo_le_codeHi b), hq, hlo, hhi]
  · rw [convert_sat, hq, hlo, hhi]
  · have hp : (2 : Int) ^ (8 - s) * 2 ^ s = 2 ^ 8 := by rw [← pow_add, Nat.sub_add_cancel (by omega)]
    rw [rawOf, Nat.cast_pow, Nat.cast_ofNat, mul_assoc, hp]

end Sys2Proof.Machine
end

section
/-!
PROOFS. Evaluations and pleat evaluations: the operation commands and the hand-offs, case by case (R67, R98 to R126, R660).
-/

namespace Sys2Proof.Machine

/-- The effect of an operation command comes about on an operation of its code that has started (R344). -/
theorem State.onOp_started {s : State} {uid st op code : Nat} {t : Step} {m : Stream} {o : Op} (ho : s.op? uid st op = some (t, m, o))
    (hr : s.running = true) (h1 : o.stage = 1) (hc : o.code = code) (f : Step → Stream → Op → State) : s.onOp uid st op code f = f t m o := by
  rw [State.onOp, ho]
  exact if_pos (by rw [hr, h1, hc, beq_self_eq_true, beq_self_eq_true]; rfl)

/-- A command whose operand names a unit has its effect in RUN. -/
theorem unit_running {s : State} {b : Bool} (hb : b = true) (hr : s.running = true) (f : State → State) :
    unit b (s.when s.running f) = .next (f s) := by
  rw [unit_of hb, when_of hr]

theorem decide_lt_nEngines {e : Nat} (he : e < 98304) : decide (e < nEngines) = true := decide_eq_true he
theorem decide_lt_allEngines {e : Nat} (he : e < 98368) : decide (e < nEngines + 64) = true := decide_eq_true he

section started
variable {s : State} {uid st op : Nat} {t : Step} {m : Stream} {o : Op} (ho : s.op? uid st op = some (t, m, o)) (hr : s.running = true)
  (h1 : o.stage = 1)
include ho hr h1

/-- A deck that may not be evaluated fails the step (R98). -/
theorem State.evalStart_unfit (oor : Bool) (hc : o.code = 0x01) :
    let a := evalArgs m o
    let ds := s.deckStatus t.inst a.engine a.deck
    ds ≠ St.ok → s.evalStart uid st op oor = (s.failStep uid ds (engineLoc a.engine a.deck) 0 o.step).opDone uid st op :=
  fun hd => (State.onOp_started ho hr h1 hc _).trans (if_pos hd)

/-- With the deck fit and the inputs read, the rows are driven and the engine holds the evaluation (R67, R660). -/
theorem State.evalStart_drives (oor : Bool) (hc : o.code = 0x01) :
    let a := evalArgs m o
    let r := s.latch t.inst a
    s.deckStatus t.inst a.engine a.deck = St.ok → r.2.status = St.ok → s.evalStart uid st op oor =
      ((((r.1.spendEval a.engine a.nibble a.posOnly a.count (resolution a.count)).driveRows a.engine a.deck
        (s.dropsAny a r.2.bytes) oor).modEngine a.engine fun g => { g with eval := some (s.newEval uid st op a r.2.bytes oor) }).setStage
          uid st op 2) :=
  fun hd hl => (State.onOp_started ho hr h1 hc _).trans ((if_neg (not_not.2 hd)).trans (if_neg (not_not.2 hl)))

section pleat
variable (cal oor : Bool) {p : Pleat} (hc : o.code = 0x02) (hp : t.pleat? (u8At o.bytes 8) (u32At o.bytes 0xC) = some p)
  (hf : s.pleatDeckFault t.inst ((List.range (u8At o.bytes 8)).map (memberArgs o.bytes (fld (u8At o.bytes 0xA) 4 2))) = none)
include hc hp hf

/-- In split mode with ON_SPLIT set the step fails (R120). -/
theorem State.pleatStart_spread :
    let size := u8At o.bytes 8
    let first := u32At o.bytes 0xC
    let s1 := s.decideMode uid size first p cal
    s1.isSplit uid size first = true → bit (u8At o.bytes 0xA) 5 = true → s.pleatStart uid st op cal oor =
      (s1.failStep uid St.stepPleatSpread (headOf size first) (s.spread size first) o.step).opDone uid st op := by
  intro size first s1 hs hb
  rw [State.pleatStart, State.onOp_started ho hr h1 hc]
  dsimp only
  rw [hp]
  dsimp only
  rw [hf]
  exact if_pos (by rw [hb, Bool.and_true]; exact hs)

/-- Otherwise the members, their latches good, drive together in the mode decided (R106, R116, R118). -/
theorem State.pleatStart_drives :
    let size := u8At o.bytes 8
    let first := u32At o.bytes 0xC
    let shift := fld (u8At o.bytes 0xA) 4 2
    let s1 := s.decideMode uid size first p cal
    let split := s1.isSplit uid size first
    let as := (List.range size).map (memberArgs o.bytes (if split then splitShift size shift else shift))
    let r := s1.latchAll t.inst as
    bit (u8At o.bytes 0xA) 5 = false ∨ split = false → latchFault r.2 = none → s.pleatStart uid st op cal oor =
      r.1.drivePleat uid st op size first split oor shift (as.zip (r.2.map Access.bytes)) := by
  intro size first shift s1 split as r hb hl
  have hon : (split && bit (u8At o.bytes 0xA) 5) = false := by
    rcases hb with hb | hb <;> rw [hb]
    · exact Bool.and_false _
    · exact Bool.false_and _
  rw [State.pleatStart, State.onOp_started ho hr h1 hc]
  dsimp only
  rw [hp]
  dsimp only
  rw [hf]
  refine (if_neg (Bool.eq_false_iff.1 hon)).trans ?_
  rw [hl]

end pleat

end started

/-- Settles O10: an operation that has started takes its effect (`onOp_started`), whose cases are those of the deck, of the latches and of the
pleat's mode; the hand-offs find the evaluation that the engine or the head holds. -/
theorem evaluationsRun : Obligations.EvaluationsRun := by
  refine ⟨⟨?_, ?_, ?_⟩, ?_, ?_⟩
  · intro s uid st op oor t m o ho hr h1 hc a r hd hl
    rw [exec_eval, execEval, done_eq, State.evalStart_drives ho hr h1 oor hc hd hl]
  · intro s uid st op oor t m o ho hr h1 hc a ds hd
    rw [exec_eval, execEval, done_eq, State.evalStart_unfit ho hr h1 oor hc hd]
  · intro s e v he hr hv r
    rw [exec_evalHandoff, execEvalHandoff, unit_running (decide_lt_nEngines he) hr, State.evalHandoff, hv]
  · intro s uid st op cal oor t m o p ho hr h1 hc size first shift hp hf s1 split
    have hgo : exec (.evalPleat uid st op cal oor) s = .next (s.pleatStart uid st op cal oor) := by
      rw [exec_evalPleat, execEvalPleat, done_eq]
    refine ⟨fun ⟨hs, hb⟩ => hgo.trans (congrArg _ (State.pleatStart_spread ho hr h1 cal oor hc hp hf hs hb)), ?_⟩
    intro hb as r hl
    exact hgo.trans (congrArg _ (State.pleatStart_drives ho hr h1 cal oor hc hp hf hb hl))
  · intro s e p v he hr hp hv r
    rw [exec_pleatHandoff, execPleatHandoff, unit_running (decide_lt_nEngines he) hr, State.pleatHandoff, hp]
    dsimp only
    rw [hv]

end Sys2Proof.Machine
end

section
/-!
PROOFS. Background checks and their retries, darns, column calibrations and the ring-oscillator references (R93, R178 to R195).
-/

namespace Sys2Proof.Machine

/-! ### Background visits (R180, R185) -/

section visit
variable {s : State} {e k : Nat} (hk : s.dueDeck e = some k)
include hk

/-- Without a gap, a token and 96 µs since the last check only the periods missed are counted (R185, R186). -/
theorem State.visit_carried (hm : (s.carryVisits e k).mayVisit e = false) : s.visit e = s.carryVisits e k := by
  rw [State.visit, hk]
  exact if_pos (by rw [hm]; rfl)

/-- A visit that may start takes the deck's next vector, the built-in one being its only one (R180). -/
theorem State.visit_taken (hm : (s.carryVisits e k).mayVisit e = true) :
    let r := (s.carryVisits e k).vectors e k
    let d := r.1.deck e k
    let s2 := r.1.setDeck e k { d with lastVisit := d.lastVisit + s.checkPeriod e, nextVec := (d.nextVec + 1) % 4 }
    let v := if r.2.length = 1 then 0 else d.nextVec
    s.visit e = (r.2[v]?).elim s2 (s2.startCheck e k v) := by
  intro r d s2 v
  rw [State.visit, hk]
  refine (if_neg (by rw [hm]; decide)).trans ?_
  show (match r.2[v]? with | none => s2 | some x => s2.startCheck e k v x) = _
  cases r.2[v]? <;> rfl

end visit

/-! ### Checks and retries (R178, R187) -/

/-- The check that runs on an engine has ended: it is judged, with the columns that fail (R178). -/
theorem State.checkDone_judged {s : State} {e : Nat} {c : Check} {x : Vec}
    (hc : s.arr.checks.find? (fun c => c.engine == e && c.running) = some c) (hx : c.data = some x) :
    let u := ({ s with arr := { s.arr with checks := s.arr.checks.filter fun x => !(x.engine == e && x.running) } } : State).checkConvert e
      c.deck x c.oor false false
    let r := u.1.checkOver e c.deck x u.2
    let failed := r.2.map Prod.fst
    s.checkDone e = if failed = [] then r.1.gapEvent e else (r.1.awaitRetry e c.deck c.vec failed none).gapEvent e := by
  intro u r failed
  have hempty : (r.2.isEmpty = true) = (failed = []) := propext (List.isEmpty_iff.trans List.map_eq_nil_iff.symm)
  rw [State.checkDone, hc]
  dsimp only
  rw [hx, ← apply_ite (State.gapEvent · e)]
  show State.gapEvent (if r.2.isEmpty = true then r.1 else r.1.awaitRetry e c.deck c.vec failed none) e = _
  simp only [hempty]

section retry
variable {s : State} {e : Nat} {c : Check} (hc : s.retryFor e = some c)
include hc

/-- The retry of a deck retired since only ends (R195). -/
theorem State.checkRetry_retired (hd : (s.deck e c.deck).retired = true) : s.checkRetry e = s.dropRetired e := by
  rw [State.checkRetry, hc]
  exact if_pos hd

/-- The background checker's retry runs the vector again and acts on what fails both times (R187). -/
theorem State.checkRetry_judged (hd : (s.deck e c.deck).retired = false) (hr : s.checkReady e = true) (ht : c.target = none) :
    let r := ({ s with arr := { s.arr with checks := s.arr.checks.erase c } } : State).runVector e c.deck c.vec
    s.checkRetry e = (r.2.elim r.1 fun f => r.1.judgeRetry e c.deck (c.first.getD []) f none).gapEvent e := by
  intro r
  rw [State.checkRetry, hc]
  dsimp only
  rw [if_neg (Bool.eq_false_iff.1 hd), if_neg (by rw [hr]; decide), ht]
  show State.gapEvent (match r.2 with | none => r.1 | some f => r.1.judgeRetry e c.deck (c.first.getD []) f none) e = _
  cases r.2 <;> rfl

end retry

/-! ### Darns and calibrations (R189 to R193) -/

/-- The first darn of an engine ends by its cells: the spare serves, or it has failed (R189). -/
theorem State.darnComplete_runs {s : State} {e : Nat} {x : Darn} (hx : s.arr.darns.find? (fun x => x.engine == e) = some x)
    (hv : s.arr.vprogOk = true) (hs : s.darnRuns x = true) (hf : s.engineFree e = true) (ok : Bool) :
    let s1 := ({ s with arr := { s.arr with darns := s.arr.darns.erase x } } : State).modEngine e fun g => { g with lastDeck := some x.deck }
    s.darnComplete e ok = if ok then s1.darned x else s1.redarn x := by
  rw [State.darnComplete, hx]
  exact if_neg (by rw [hv, hs, hf]; decide)

/-- Without a test on the engine the first calibration that is due runs in a gap (R192, R193). -/
theorem State.columnCal_due {s : State} {e k : Nat} (ht : s.runningTest e = none) (hk : s.calNext e = some k) (hm : s.mayStart 0 = true)
    (hg : s.gapFree e = true) (hp : s.checkToken e = true) : s.columnCal e = (s.dueCal e k).gapEvent e := by
  rw [State.columnCal, ht]
  dsimp only
  rw [hk]
  exact if_pos (by rw [hm, hg, hp]; rfl)

/-- 1 ms after the last recalibration a trim is drawn, in force at once on a free engine (R93). -/
theorem State.refTrim_drawn {s : State} {e : Nat} (h : (s.rosc e).at_ + 1000000 ≤ s.now) : s.refTrim e =
    (s.setRosc e (if s.engineFree e = true then ⟨s.now, s.drawn, none⟩ else ⟨s.now, (s.rosc e).trim, some s.drawn⟩)).skip 1 :=
  if_neg (Nat.not_lt.2 h)

/-- Settles O28: each event by its condition; a check is judged by the columns that fail (`checkDone_judged`, `checkRetry_judged`). -/
theorem checksAndDarns : Obligations.ChecksAndDarns := by
  refine ⟨⟨?_, ?_, ?_, ?_⟩, ?_, ?_, ?_⟩
  · intro s e k he hr hf hk s1 r d s2 v
    have hgo : exec (.backgroundVisit e) s = .next (s.visit e) := by
      rw [exec_backgroundVisit, execBackgroundVisit, unit_of (decide_lt_nEngines he), when_of (by rw [hr, hf]; rfl)]
    have htaken : ∀ {x}, s1.mayVisit e = true → r.2[v]? = x → exec (.backgroundVisit e) s = .next (x.elim s2 (s2.startCheck e k v)) :=
      fun hm hx => hgo.trans (congrArg _ ((State.visit_taken hk hm).trans (congrArg (Option.elim · _ _) hx)))
    exact ⟨fun hm => hgo.trans (congrArg _ (State.visit_carried hk hm)), htaken, fun x hm hx => htaken hm hx⟩
  · intro s e c x he hr hc hx u t failed
    have hgo : exec (.checkEvaluationDone e) s = .next ((s.checkDone e).aperIn e) := by
      rw [exec_checkEvaluationDone, execCheckEvaluationDone, unit_running (decide_lt_nEngines he) hr]
    rw [hgo, State.checkDone_judged hc hx]
    rfl
  · intro s e c he hr hc hd hy ht r
    rw [exec_checkRetry, execCheckRetry, unit_running (decide_lt_nEngines he) hr, State.checkRetry_judged hc hd hy ht]
    cases r.2 <;> rfl
  · intro s e c he hr hc hd
    rw [exec_checkRetry, execCheckRetry, unit_running (decide_lt_nEngines he) hr, State.checkRetry_retired hc hd]
  · intro s e x he hr hx hv hs hf s1
    have hgo : ∀ ok, exec (.darnComplete e ok) s = .next (if ok then s1.darned x else s1.redarn x) := fun ok => by
      rw [exec_darnComplete, execDarnComplete, unit_running (decide_lt_allEngines he) hr, State.darnComplete_runs hx hv hs hf]
    exact ⟨hgo true, hgo false⟩
  · intro s e k he hr ht hk hm hg hp
    rw [exec_columnCalibration, execColumnCalibration, unit_running (decide_lt_nEngines he) hr, State.columnCal_due ht hk hm hg hp]
  · intro s e he hr h
    rw [exec_referenceRecalibration, execReferenceRecalibration, unit_running (decide_lt_allEngines he) hr, State.refTrim_drawn h]
    rfl

end Sys2Proof.Machine
end

section
/-!
PROOFS. The engine periphery: the pre-activation and the interpolation in a table (R128, R131, R132), and the output codes (R137, R138).
-/

namespace Sys2Proof.Machine

/-! ### Pre-activation (R128) -/

theorem sat16_eq (v : Int) : sat16 v = max (-32768) (min 32767 v) := clampInt_eq (by decide) v

/-! ### Interpolation (R131, R132) -/

/-- The point `f / 2 ^ sh` of the way from `a` to `b`, rounded half up. -/
def lerp (sh : Nat) (a b f : Int) : Int := a + ((b - a) * f + (2 ^ (sh - 1) : Nat)) / (2 ^ sh : Nat)

/-- The right end of segment `i`: the next entry, and for the `last` segment the saturated extrapolation. -/
def segEnd (t : Nat → Int) (last i : Nat) : Int := if i < last then t (i + 1) else max (-32768) (min 32767 (2 * t last - t (last - 1)))

/-- The input lies `(p + 32768) % 2 ^ (16 - tb)` steps into segment `(p + 32768) / 2 ^ (16 - tb)`. -/
theorem interp_eq_lerp (tb : Nat) (t : Nat → Int) {p : Int} (hp : -32768 ≤ p) :
    let i := ((p + 32768) / (2 ^ (16 - tb) : Nat)).toNat
    interp tb t p = lerp (16 - tb) (t i) (segEnd t (2 ^ tb - 1) i) ((p + 32768) % (2 ^ (16 - tb) : Nat)) := by
  obtain ⟨a, ha⟩ := Int.eq_ofNat_of_zero_le (a := p + 32768) (by omega)
  simp only [interp, lerp, segEnd, sat16_eq, ha, Int.toNat_natCast, ← Int.natCast_ediv, ← Int.natCast_emod]

theorem lerp_eq_shift (sh : Nat) (a b f : Int) : lerp sh a b f = a + ((b - a) * f + (2 ^ (sh - 1) : Nat)) >>> (sh : Int) := by
  rw [lerp, Int.shiftRight_natCast_right, Int.shiftRight_eq_div_pow]

/-- A point of the way lies between its ends: the rounded quotient does not exceed the way itself. -/
theorem lerp_between {sh : Nat} (hsh : 0 < sh) (a b : Int) {f : Int} (h0 : 0 ≤ f) (h1 : f < (2 ^ sh : Nat)) :
    min a b ≤ lerp sh a b f ∧ lerp sh a b f ≤ max a b := by
  have hpow : ((2 ^ sh : Nat) : Int) = 2 * (2 ^ (sh - 1) : Nat) := by
    rw [← Nat.sub_add_cancel hsh, Nat.add_sub_cancel, pow_succ]
    push_cast
    ring
  have hpos : (0 : Int) < (2 ^ (sh - 1) : Nat) := by positivity
  rw [lerp, hpow]
  rw [hpow] at h1
  generalize ((2 ^ (sh - 1) : Nat) : Int) = h at *
  rcases le_total a b with hab | hab
  · have hf0 : 0 ≤ (b - a) * f := mul_nonneg (by omega) h0
    have hf1 : (b - a) * f ≤ (b - a) * (2 * h) := mul_le_mul_of_nonneg_left h1.le (by omega)
    have hlo : 0 ≤ ((b - a) * f + h) / (2 * h) := Int.ediv_nonneg (by omega) (by omega)
    have hhi : ((b - a) * f + h) / (2 * h) < b - a + 1 := Int.ediv_lt_of_lt_mul (by omega) (by linarith)
    omega
  · have hf0 : (b - a) * f ≤ 0 := mul_nonpos_of_nonpos_of_nonneg (by omega) h0
    have hf1 : (b - a) * (2 * h) ≤ (b - a) * f := mul_le_mul_of_nonpos_left h1.le (by omega)
    have hlo : b - a ≤ ((b - a) * f + h) / (2 * h) := Int.le_ediv_of_mul_le (by omega) (by linarith)
    have hhi : ((b - a) * f + h) / (2 * h) < 1 := Int.ediv_lt_of_lt_mul (by omega) (by linarith)
    omega

/-- Settles O58: the sum saturates by `sat16_eq`, and an interpolated value is a point between the ends of its segment (`interp_eq_lerp`,
`lerp_between`). -/
theorem peripheryScaling : Obligations.PeripheryScaling := by
  refine ⟨?_, ?_⟩
  · intro v offset scale pshift z
    have hz : (v * scale + (2 ^ (11 + pshift) : Nat)) / (2 ^ (12 + pshift) : Nat) + offset = z := by
      simp only [z, Nat.one_shiftLeft, Int.shiftRight_eq_div_pow]
    rw [preAct, hz, sat16_eq]
  · intro t p _ hp _ seg fi ci
    have hf : interp 8 t p = lerp 8 (t fi) (seg fi 255) ((p + 32768) % 256) := interp_eq_lerp 8 t hp
    have hc : interp 4 t p = lerp 12 (t ci) (seg ci 15) ((p + 32768) % 4096) := interp_eq_lerp 4 t hp
    obtain ⟨hflo, hfhi⟩ := lerp_between (sh := 8) (by decide) (t fi) (seg fi 255) (f := (p + 32768) % 256) (by omega) (by omega)
    obtain ⟨hclo, hchi⟩ := lerp_between (sh := 12) (by decide) (t ci) (seg ci 15) (f := (p + 32768) % 4096) (by omega) (by omega)
    exact ⟨hf.trans (lerp_eq_shift 8 _ _ _), hc.trans (lerp_eq_shift 12 _ _ _), hf ▸ hflo, hf ▸ hfhi, hc ▸ hclo, hc ▸ hchi⟩

/-! ### Output codes (R137, R138) -/

/-- The number of the thresholds `0 … m - 1` at or below a value. -/
theorem outCode_take {ts : List Int} {m : Nat} (hm : m ≤ ts.length) (x : Int) :
    outCode (ts.take m) x = ((Finset.range m).filter fun k => ts.getD k 0 ≤ x).card := by
  have hts : ts.take m = (List.range m).map fun k => ts.getD k 0 :=
    List.ext_getElem (by simpa using hm) fun k hk _ => by
      rw [List.length_take, lt_min_iff] at hk
      simp [List.getElem?_eq_getElem hk.2]
  have hcount : outCode (ts.take m) x = countIf (fun k => decide (ts.getD k 0 ≤ x)) (List.range m) := by
    rw [outCode, hts, countIf, countIf, List.filter_map, List.length_map]
    rfl
  rw [hcount, countIf_range]
  simp only [decide_eq_true_eq]

theorem outCode_le_length (ts : List Int) (x : Int) : outCode ts x ≤ ts.length := List.length_filter_le _ _

theorem getD_map_outCode (ts : List Int) {vs : List Int} {o : Nat} (ho : o < vs.length) :
    (vs.map (outCode ts)).getD o 0 = outCode ts (vs.getD o 0) := by
  rw [List.getD_eq_getElem _ _ (by simpa using ho), List.getElem_map, List.getD_eq_getElem _ _ ho]

/-- The 4-bit code of an output channel stands in the half of byte `o / 2` that its parity gives: it is below 16, so neither half meets the
other (R138). -/
theorem nibbleAt_outBytes (ts : List Int) {vs : List Int} {o : Nat} (ho : o < vs.length) :
    nibbleAt (outBytes 2 ts vs) o = outCode (ts.take 15) (vs.getD o 0) := by
  have hlt : outCode (ts.take 15) (vs.getD o 0) < 16 := by
    have := outCode_le_length (ts.take 15) (vs.getD o 0)
    have := List.length_take_le 15 ts
    omega
  rw [← getD_map_outCode (ts.take 15) ho] at hlt ⊢
  have hbyte : u8At (outBytes 2 ts vs) (o / 2) = (vs.map (outCode (ts.take 15))).getD (2 * (o / 2)) 0 % 16 +
      16 * ((vs.map (outCode (ts.take 15))).getD (2 * (o / 2) + 1) 0 % 16) := by
    rw [u8At, List.getD_eq_getElem _ _ (by simp [outBytes]; omega)]
    simp [outBytes]
  rw [nibbleAt, hbyte]
  split_ifs with hpar
  · rw [show 2 * (o / 2) = o by omega]
    omega
  · rw [show 2 * (o / 2) + 1 = o by omega]
    omega

/-- Settles O59: a code counts the thresholds at or below the value (`outCode_take`), and stands in its own byte or half byte
(`nibbleAt_outBytes`). -/
theorem outputCodes : Obligations.OutputCodes := by
  intro ts vs hts among
  have hamong : ∀ {m : Nat}, m ≤ 255 → ∀ x, outCode (ts.take m) x = among m x := fun hm => outCode_take (hm.trans hts.ge)
  have hle : ∀ m x, among m x ≤ m := fun m _ => (Finset.card_filter_le _ _).trans (Finset.card_range m).le
  refine ⟨fun o ho => ?_, fun o ho => (nibbleAt_outBytes ts ho).trans (hamong (by decide) _), ?_, ?_, fun x => ⟨hle 255 x, hle 15 x⟩⟩
  · rw [← hamong le_rfl, List.take_of_length_le hts.le]
    exact getD_map_outCode ts ho
  · exact List.length_map _
  · simp [outBytes]

end Sys2Proof.Machine
end

section
/-!
PROOFS. CLAIM and COMMIT of a programming target (R143, R165, R166, R169, R172, R174, R179, R202).
-/

namespace Sys2Proof.Machine

/-! ### CLAIM (R166, R202) -/

section claim
variable {s : State} {uid pos : Nat} {j : ProgJob} {t : Target} (ht : s.target? uid pos = some (j, t)) (hs : s.mayStart 0 = true)
  (h1 : t.stage = 1) (hf : s.engineFree t.engine = true) (hg : s.gapBusy t.engine = false)
  (hd : (s.arr.darns.any fun x => x.engine == t.engine && x.deck != t.deck) = false) (hr : t.guard = true → s.restoreEngine = [])
include ht hs h1 hf hg hd hr

/-- A target whose engine is free of evaluations and of other decks' darns claims its deck, or ends with what refuses it. -/
theorem State.claimTarget_ready : s.claimTarget uid pos =
    if s.claimRefusal j t ≠ St.ok then (s.endTarget uid pos (s.claimRefusal j t)).gapEvent t.engine else
      let s2 := (s.stopDarns fun x => x.engine == t.engine && x.deck == t.deck).dropChecks fun c => c.engine == t.engine && c.deck == t.deck
      let s3 := ((s2.cfgTouched t.engine (0x8E00 + 16 * t.deck)).modDeck t.engine t.deck fun d => d.claim j.kind t.guard t.head).mirrorDeck
        t.engine t.deck
      (s3.modTarget uid pos fun t => { t with
        stage := 2, row := 0, pass := 0, burst := 0, open_ := (s3.deck t.engine t.deck).progCols j.kind }).busyNow := by
  have hlane : (t.guard && !s.restoreEngine.isEmpty) = false := by
    cases hgd : t.guard with
    | false => rfl
    | true => rw [hr hgd]; rfl
  rw [State.claimTarget, ht]
  exact if_neg (by rw [hs, h1, hf, hg, hd, hlane]; decide)

end claim

section deck
variable (d : Deck) (guard : Bool) (head : List Nat)

/-- What CLAIM does to a deck whichever command claims it: its calibration is void, and a guard deck leaves its owner. -/
def Deck.claimed : Deck := { d with pbo := false, wear := satAdd 32 d.wear 1, calOk := false, owner := if guard then 0 else d.owner }

theorem Deck.claim_program : d.claim 5 guard head =
    { d.claimed guard with codebook := secBook head, zero := secZero head, pair := secPair head } := rfl

theorem Deck.claim_rinse {kind : Nat} (hk : kind ≠ 5) : d.claim kind guard head = d.claimed guard := if_neg hk

/-- The wear counts the claim as long as its counter does not saturate (R172). -/
theorem Deck.claimed_wear (hw : d.wear < 2 ^ 32 - 1) : (d.claimed guard).wear = d.wear + 1 := min_eq_left hw

end deck

/-! ### COMMIT (R166, R179) -/

/-- COMMIT of a RINSE target: its deck is reset as `rinseCal` says and takes no section. -/
theorem State.commitTarget_rinse {s : State} {uid pos : Nat} {j : ProgJob} {t : Target} (ht : s.target? uid pos = some (j, t))
    (hr : s.running = true) (h3 : t.stage = 3) (hf : s.engineFree t.engine = true) (hc : s.checkToken t.engine = true)
    (hd : (s.arr.darns.any fun x => x.target == some (uid, pos)) = false) (hk : j.kind = 6) :
    s.commitTarget uid pos = (s.rinseCal t.engine t.deck).commitNow uid pos j t none := by
  rw [State.commitTarget, ht]
  exact (if_neg (by rw [hr, h3, hf, hc, hd]; decide)).trans (if_pos hk)

@[simp] theorem State.rinseCal_now (s : State) (e k : Nat) : (s.rinseCal e k).now = s.now := rfl

/-- Settles O25: CLAIM is refused or claims the deck (`claimTarget_ready`, `Deck.claim_program`, `Deck.claim_rinse`), and COMMIT of a RINSE
target commits what `rinseCal` leaves (`commitTarget_rinse`). -/
theorem claimAndCommit : Obligations.ClaimAndCommit := by
  refine ⟨?_, ?_, ?_, ?_⟩
  · intro s uid pos j t ht hs h1 hf hg hd hr hok s2 s3
    rw [exec_claim, execClaim, done_eq, State.claimTarget_ready ht hs h1 hf hg hd hr, if_neg (not_not.2 hok)]
  · intro s uid pos j t ht hs h1 hf hg hd hr hno
    rw [exec_claim, execClaim, done_eq, State.claimTarget_ready ht hs h1 hf hg hd hr, if_pos hno]
  · intro d kind guard head hw
    by_cases hk : kind = 5
    · subst hk
      rw [Deck.claim_program]
      exact ⟨rfl, d.claimed_wear guard hw, rfl, fun _ => ⟨rfl, rfl, rfl⟩, fun h => absurd rfl h⟩
    · rw [Deck.claim_rinse d guard head hk]
      exact ⟨rfl, d.claimed_wear guard hw, rfl, fun h => absurd h hk, fun _ => ⟨rfl, rfl⟩⟩
  · intro s uid pos j t ht hr h3 hf hc hd hk _
    rw [exec_commit, execCommit, done_eq, State.commitTarget_rinse ht hr h3 hf hc hd hk, State.commitNow, State.rinseCal_now]

end Sys2Proof.Machine
end

section
/-!
PROOFS. PROGRAM_DECKS and RINSE up to a target's CHECK, row passes, and what ends a target from outside (R147, R149, R151, R152, R160 to R162,
R164, R166, R661).
-/

namespace Sys2Proof.Machine

/-! ### A descriptor becomes a job, or ends (R160 to R162, R164) -/

/-- PROGRAM_DECKS and RINSE differ only in the type of the descriptor that they start. -/
theorem exec_program_begun {s : State} {f w : Nat} {d : Desc} {rinse : Bool} (hf : f ≤ 16) (hw : w < 16)
    (hb : s.begin f w (if rinse then 0x06 else 0x05) = some d) :
    exec (if rinse then .rinse f w else .programDecks f w) s = .next ((s.started d.uid).acceptJob d) := by
  have hring : ringOk f w = true := decide_eq_true ⟨hf, hw⟩
  cases rinse with
  | true =>
    rw [if_pos rfl] at hb ⊢
    rw [exec_rinse, execRinse, unit_of hring, State.onDesc, hb]
  | false =>
    rw [if_neg Bool.false_ne_true] at hb ⊢
    rw [exec_programDecks, execProgramDecks, unit_of hring, State.onDesc, hb]

theorem State.acceptJob_taken {s s1 : State} {d : Desc} {j : ProgJob} (h : s.readTargets d = (s1, .inr j)) :
    s.acceptJob d = { s1 with arr := { s1.arr with jobs := s1.arr.jobs ++ [j] } } := by
  rw [State.acceptJob, h]

theorem State.acceptJob_refused {s s1 : State} {d : Desc} {x : Nat × Nat} (h : s.readTargets d = (s1, .inl x)) :
    s.acceptJob d = s1.complete d.uid x.1 x.2 := by
  rw [State.acceptJob, h]

/-! ### A target takes its turn (R152, R661) -/

/-- A target whose turn it is takes a slot, and waits for its CLAIM or ends with what CHECK found. -/
theorem State.targetStart_granted {s : State} {uid pos : Nat} {j : ProgJob} {t : Target} (ht : s.target? uid pos = some (j, t))
    (hs : s.mayStart 0 = true) (hst : s.startable j pos t = true) (hturn : s.turn = some j.inst) :
    let r := ({ s with arr := { s.arr with grant := j.inst + 1 } } : State).checkTarget j pos t
    s.targetStart uid pos = if r.2.1 ≠ St.ok then (r.1.endTarget uid pos r.2.1).gapEvent t.engine else
      (r.1.modTarget uid pos fun t => { t with stage := 1, head := r.2.2.take 0x440, want := u32At r.2.2 0x3C }).busyNow := by
  rw [State.targetStart, ht]
  exact if_neg (by rw [hs, hst, hturn, beq_self_eq_true]; decide)

/-- Settles O24: a descriptor that starts is accepted or ends as its list says (`acceptJob_taken`, `acceptJob_refused`), and a target whose
turn it is takes its slot (`targetStart_granted`). -/
theorem programAccepted : Obligations.ProgramAccepted := by
  refine ⟨?_, ?_⟩
  · intro s f w d rinse hf hw hb c
    have hgo : exec c s = .next ((s.started d.uid).acceptJob d) := exec_program_begun hf hw hb
    exact ⟨fun s1 j h => hgo.trans (congrArg _ (State.acceptJob_taken h)), fun s1 x h => hgo.trans (congrArg _ (State.acceptJob_refused h))⟩
  · intro s uid pos j t ht hs hst hturn r
    have hgo : exec (.programTargetStart uid pos) s = .next (s.targetStart uid pos) := by
      rw [exec_programTargetStart, execProgramTargetStart, done_eq]
    rw [hgo, State.targetStart_granted ht hs hst hturn]
    exact ⟨fun h => congrArg _ (if_neg (not_not.2 h)), fun h => congrArg _ (if_pos h)⟩

/-! ### Row passes (R147, R149) -/

theorem State.deck_setDeck (s : State) (e k e' k' : Nat) (v : Deck) :
    (s.setDeck e k v).deck e' k' = if deckKey e' k' = deckKey e k then v else s.deck e' k' := Tab.get_put _ _ _ _ _

theorem State.deck_placeRow_same (s : State) (e k row : Nat) (cells : List (Nat × Nat)) :
    (s.placeRow e k row cells).deck e k = (s.deck e k).place (deckKey e k) (s.ageOf e) s.free row cells :=
  (s.deck_setDeck e k e k _).trans (if_pos rfl)

theorem State.deck_placeRow_other (s : State) {e k e' k' : Nat} (row : Nat) (cells : List (Nat × Nat)) (h : deckKey e' k' ≠ deckKey e k) :
    (s.placeRow e k row cells).deck e' k' = s.deck e' k' := (s.deck_setDeck e k e' k' _).trans (if_neg h)

section pulse
variable (s : State) (j : ProgJob) (uid pos : Nat) (t : Target) (reads : List (Nat × Nat × Nat))

/-- The cells that a pass verifies, with their targets (R147). -/
def State.pulseHits : List (Nat × Nat) :=
  (t.open_.filter fun c => verified reads c (t.aim j.kind (s.deck t.engine t.deck) c)).map fun c =>
    (c, t.aim j.kind (s.deck t.engine t.deck) c)

/-- A pass places the cells that it verified, leaves its deck as the engine's last and brings the target on. -/
theorem State.pulse_eq : ∃ (g : Engine → Engine) (f : Target → Target),
    s.pulse j uid pos t reads = ((s.placeRow t.engine t.deck t.row (s.pulseHits j t reads)).modEngine t.engine g).modTarget uid pos f :=
  ⟨_, _, rfl⟩

theorem State.pulse_deck (e k : Nat) :
    (s.pulse j uid pos t reads).deck e k = (s.placeRow t.engine t.deck t.row (s.pulseHits j t reads)).deck e k := by
  obtain ⟨g, f, h⟩ := s.pulse_eq j uid pos t reads
  rw [h]
  rfl

@[simp] theorem State.pulse_mem : (s.pulse j uid pos t reads).mem = s.mem := by
  obtain ⟨g, f, h⟩ := s.pulse_eq j uid pos t reads
  rw [h]
  rfl

@[simp] theorem State.pulse_regs : (s.pulse j uid pos t reads).regs = s.regs := by
  obtain ⟨g, f, h⟩ := s.pulse_eq j uid pos t reads
  rw [h]
  rfl

end pulse

/-- A pass of a RINSE target streams no section: its cells are pulsed, and the passes end with the last row. -/
theorem State.rowPass_rinse {s : State} {uid pos : Nat} {j : ProgJob} {t : Target} (reads : List (Nat × Nat × Nat))
    (ht : s.target? uid pos = some (j, t)) (hp : s.mayPass t = true) (hk : j.kind = 6) {v : ProgJob × Target}
    (hv : ((s.modTarget uid pos fun _ => t).pulse j uid pos t reads).target? uid pos = some v) :
    let u := (s.modTarget uid pos fun _ => t).pulse j uid pos t reads
    s.rowPass uid pos reads = if v.2.row = 512 then (u.endPasses uid pos).gapEvent t.engine else u := by
  have h5 : ¬ (t.pass = 0 ∧ j.kind = 5) := fun h => absurd (hk.symm.trans h.2) (by decide)
  rw [State.rowPass, ht]
  simp only [hp, Bool.not_true, Bool.false_eq_true, if_false, if_neg h5, ne_eq, not_true_eq_false, hv]

/-! ### V_PROG and fetches that fail (R151, R164) -/

/-- What is in progress when V_PROG fails ends: targets, and a RESTORE_DECKS that has claimed a deck. -/
theorem State.vprogLost_eq (s : State) :
    let t := s.inProgress.foldl (fun a p => a.breakTarget p.1 p.2 St.vprogFault) ({ s with arr := { s.arr with vprogOk := false } } : State)
    s.vprogLost = if s.restoreEngine = [] then t else t.laneCmdEnd St.vprogFault :=
  if_congr List.isEmpty_iff rfl rfl

theorem State.inProgress_of_idle {s : State} (h : s.arr.jobs = []) : s.inProgress = [] := by rw [State.inProgress, h, List.flatMap_nil]

/-- A target between its start and its end whose image lies in host memory. -/
theorem State.fetchTimeout_image {s : State} {uid pos : Nat} {j : ProgJob} {t : Target} (hj : s.job? uid = some j)
    (ht : j.targets[pos]? = some t) (hk : j.kind = 5) (hh : bit j.flags 0 = true) (h1 : 1 ≤ t.stage) (h3 : t.stage ≤ 3) :
    s.fetchTimeout uid pos = s.breakTarget uid pos St.programFetchFail := by
  obtain ⟨hlt, -⟩ := List.getElem?_eq_some_iff.1 ht
  rw [State.fetchTimeout, hj]
  simp only [if_neg (Nat.not_le.2 hlt), ht]
  exact if_pos ⟨hk, hh, h1, h3⟩

/-- A position past the list is the list itself, which is read before any target starts. -/
theorem State.fetchTimeout_list {s : State} {uid pos : Nat} {j : ProgJob} (hj : s.job? uid = some j) (hp : j.targets.length ≤ pos)
    (hh : bit j.flags 1 = true) (h0 : (j.targets.all fun t => t.stage == 0) = true) :
    s.fetchTimeout uid pos = (s.dropJob uid).complete uid St.programFetchFail 0xFFFFFFFF := by
  rw [State.fetchTimeout, hj]
  exact (if_pos hp).trans (if_pos (by rw [hh, h0]; rfl))

/-- Settles O26: a pass of a RINSE target (`rowPass_rinse`) places what it verifies (`pulse_eq`); a fault of V_PROG ends what is in progress
(`vprogLost_eq`), and a fetch that times out ends its target or its descriptor (`fetchTimeout_image`, `fetchTimeout_list`). -/
theorem passesAndFailures : Obligations.PassesAndFailures := by
  refine ⟨⟨?_, ?_⟩, ?_, ?_, ?_, ?_, ?_⟩
  · intro s uid pos j t reads ht hp hk u
    have hgo : ∀ v, u.target? uid pos = some v → exec (.rowPass uid pos reads) s =
        .next (if v.2.row = 512 then (u.endPasses uid pos).gapEvent t.engine else u) := by
      intro v hv
      rw [exec_rowPass, execRowPass, done_eq, State.rowPass_rinse reads ht hp hk hv]
    exact ⟨fun v hv hrow => (hgo v hv).trans (congrArg _ (if_neg hrow)), fun v hv hrow => (hgo v hv).trans (congrArg _ (if_pos hrow))⟩
  · intro s j uid pos t reads u
    exact ⟨(s.pulse_deck j uid pos t reads _ _).trans (s.deck_placeRow_same _ _ _ _),
      fun e k hk => (s.pulse_deck j uid pos t reads e k).trans (s.deck_placeRow_other _ _ hk), s.pulse_mem .., s.pulse_regs ..⟩
  · intro s hu t
    rw [exec_vprogFault, execVprogFault, done_eq, when_of hu, State.vprogLost_eq]
  · intro s hu hj hr
    rw [exec_vprogFault, execVprogFault, done_eq, when_of hu, State.vprogLost_eq, if_pos hr, State.inProgress_of_idle hj, List.foldl_nil]
  · intro s
    rw [exec_vprogInRange, execVprogInRange, done_eq]
  · intro s uid pos j t hu hj ht hk hh h1 h3
    rw [exec_programFetchTimeout, execProgramFetchTimeout, done_eq, when_of hu, State.fetchTimeout_image hj ht hk hh h1 h3]
  · intro s uid pos j hu hj hp hh h0
    rw [exec_programFetchTimeout, execProgramFetchTimeout, done_eq, when_of hu, State.fetchTimeout_list hj hp hh h0]

end Sys2Proof.Machine
end

section
/-!
PROOFS. SELF_TEST and CALIBRATE, test deadlines, and the loans of engines (R195, R198 to R201).
-/

namespace Sys2Proof.Machine

/-- A descriptor command of a ring, when a descriptor of its type may start: its effect runs on that descriptor (R388). -/
theorem unit_onDesc_begun {s : State} {f w t : Nat} {d : Desc} (hf : f ≤ 16) (hw : w < 16) (hb : s.begin f w t = some d)
    (g : State → Desc → State) : unit (ringOk f w) (s.onDesc f w t g) = .next (g (s.started d.uid) d) := by
  have hring : ringOk f w = true := decide_eq_true ⟨hf, hw⟩
  rw [unit_of hring, State.onDesc, hb]

/-! ### Tests and calibrations on request (R198 to R200) -/

/-- SELF_TEST and CALIBRATE differ only in the type of the descriptor that they start. -/
theorem exec_test_begun {s : State} {f w : Nat} {d : Desc} {cal : Bool} (hf : f ≤ 16) (hw : w < 16)
    (hb : s.begin f w (if cal then 0x0C else 0x0B) = some d) :
    exec (if cal then .calibrate f w else .selfTest f w) s = .next ((s.started d.uid).acceptTests d) := by
  cases cal with
  | true => exact unit_onDesc_begun hf hw hb _
  | false => exact unit_onDesc_begun hf hw hb _

/-- A good list becomes a job, whose targets are then sorted into refused ones and ones that start or wait. -/
theorem State.acceptTests_taken {s s1 : State} {d : Desc} {j : ProgJob} (h : s.readTargets d = (s1, .inr j)) :
    s.acceptTests d = ({ s1 with arr := { s1.arr with jobs := s1.arr.jobs ++ [j] } } : State).sortTargets d.uid := by
  rw [State.acceptTests, State.acceptJob_taken h]

theorem State.testDeadline_passed {s : State} {uid pos : Nat} {j : ProgJob} {t : Target} (ht : s.target? uid pos = some (j, t))
    (hk : j.programs = false) (h0 : t.stage = 0) (hd : j.deadline ≤ s.now) :
    s.testDeadline uid pos = (s.health t.engine 8 1).endTarget uid pos St.testDeferred := by
  rw [State.testDeadline, ht]
  exact if_pos (by rw [hk, h0, decide_eq_true hd]; decide)

/-! ### Loans (R201) -/

/-- LEND and RECLAIM differ in the type of the descriptor that they start and in the direction of the loan. -/
theorem exec_lend_begun {s : State} {f w : Nat} {d : Desc} {lend : Bool} (hf : f ≤ 16) (hw : w < 16)
    (hb : s.begin f w (if lend then 0x0D else 0x0E) = some d) :
    exec (if lend then .lend f w else .reclaim f w) s = .next ((s.started d.uid).lendDesc d lend) := by
  cases lend with
  | true => exact unit_onDesc_begun hf hw hb _
  | false => exact unit_onDesc_begun hf hw hb _

section lendDesc
variable {s : State} {d : Desc} {lend : Bool}

theorem State.lendDesc_notOwned (h : (s.inst d.inst).cores.contains (u32At d.bytes 0x10) = false) :
    s.lendDesc d lend = s.complete d.uid St.engineNotOwned 0 := by
  rw [State.lendDesc, h]
  exact if_pos rfl

theorem State.lendDesc_owned (h : (s.inst d.inst).cores.contains (u32At d.bytes 0x10) = true) :
    let core := u32At d.bytes 0x10
    let mask := s.lendLeft lend core (u16At d.bytes 0x14)
    s.lendDesc d lend = if mask = 0 then s.complete d.uid St.ok 0 else
      (upTo 16 fun n => bit mask n).foldl (fun a n => a.gapTry (core * 16 + n))
        { s with arr := { s.arr with lends := s.arr.lends ++ [⟨d.uid, d.inst, lend, core, mask, if lend then u32At d.bytes 0x18 else 0⟩] } } := by
  rw [State.lendDesc, h]
  exact if_neg Bool.false_ne_true

end lendDesc

/-- A loan of limited length ends at its time, unless a full calibration runs on the engine. -/
theorem State.lendExpiry_due {s : State} {e : Nat} (hl : (s.engine e).lent = true) (h0 : (s.engine e).lendEnd ≠ 0)
    (hd : (s.engine e).lendEnd ≤ s.now) (ht : (s.engine e).testing = false) :
    s.lendExpiry e = (s.modEngine e fun g => { g with lent := false, lendEnd := 0 }).gapEvent e :=
  if_pos (by rw [hl, ht, decide_eq_true ⟨h0, hd⟩]; decide)

/-- Settles O27: a good list becomes a job whose targets are sorted (`acceptTests_taken`), and a target that waits past its deadline ends
(`testDeadline_passed`). A loan or return completes at once, or changes engines in their gaps (`lendDesc_notOwned`, `lendDesc_owned`), and a
loan that has run out ends (`lendExpiry_due`). -/
theorem testsAndLoans : Obligations.TestsAndLoans := by
  refine ⟨⟨?_, ?_⟩, ?_, ?_⟩
  · intro s f w d cal s1 j hf hw hb hj
    rw [exec_test_begun hf hw hb, State.acceptTests_taken hj]
  · intro s uid pos j t hu ht hk h0 hd
    rw [exec_testDeadline, execTestDeadline, done_eq, when_of hu, State.testDeadline_passed ht hk h0 hd]
  · intro s f w d lend hf hw hb s0 core mask c
    have hgo : exec c s = .next (s0.lendDesc d lend) := exec_lend_begun hf hw hb
    refine ⟨fun hno => ?_, fun hown hmask => ?_, fun hown hmask => ?_⟩
    · rw [hgo, State.lendDesc_notOwned hno]
    · exact hgo.trans (congrArg _ ((State.lendDesc_owned hown).trans (if_pos hmask)))
    · exact hgo.trans (congrArg _ ((State.lendDesc_owned hown).trans (if_neg hmask)))
  · intro s e he hu hl h0 hd ht
    rw [exec_lendExpiry, execLendExpiry, unit_of (decide_lt_nEngines he), when_of hu, State.lendExpiry_due hl h0 hd ht]

end Sys2Proof.Machine
end

section
/-!
PROOFS. The Precision Engine: the start of an operation, its block steps and its end (R224 to R233, R236, R662).
-/

namespace Sys2Proof.Machine

/-- Where the HBM domain is reached, or is not needed, an operation that has started takes its streams, forms its blocks and runs (R236). -/
theorem State.peStart_open {s : State} {uid st op f : Nat} {t : Step} {m : Stream} {o : Op} {p : List Nat}
    (ho : s.op? uid st op = some (t, m, o)) (hr : s.running = true) (h1 : o.stage = 1) (hc : o.code = 0x30 + f / 8)
    (hf : o.func = f % 8) (hp : t.params[u32At o.bytes 0xC]? = some p)
    (hhem : peFromT2 f p = true → s.heldTo (dieOf m.unit) 8 = false ∧ s.power.closed.contains 8 = false) :
    let ra := s.peStream uid m.unit (u32At p 8) (fld (u32At p 0x3C) 4 0)
    let rb := ra.1.peStream uid m.unit (u32At p 0xC) (fld (u32At p 0x3C) 4 0)
    let r := rb.1.peBlocks ⟨t, m.unit, p, ra.2, rb.2⟩ f
    let z := r.2.2.getD ⟨⟨0, [], 0, 0, 0⟩, St.ok, 0, 0⟩
    let s1 := r.1.spendFree (dieOf m.unit) (opEnergy f (pM p) (pN p))
    s.peStart uid st op f =
      ({ s1 with pe := s1.pe ++ [(m.unit, ⟨uid, st, op, r.2.1, 0, z.fail, z.hi, z.info⟩)] } : State).setStage uid st op 2 := by
  have hheld : ¬ (peFromT2 f p ∧ s.heldTo (dieOf m.unit) 8) := fun h => Bool.false_ne_true ((hhem h.1).1.symm.trans h.2)
  have hclosed : ¬ (peFromT2 f p ∧ s.power.closed.contains 8) := fun h => Bool.false_ne_true ((hhem h.1).2.symm.trans h.2)
  rw [State.peStart, State.onOp_started ho hr h1 hc, if_neg (not_not.2 hf)]
  simp only [hp, if_neg hheld, if_neg hclosed]

section run
variable {s : State} {cl : Nat} {r : PeRun} {t : Step} {m : Stream} {o : Op} (hrun : s.peRun? cl = some r)
  (ho : s.op? r.step r.stream r.op = some (t, m, o)) (hgo : s.peStopped t = false)
include hrun ho hgo

/-- A block step that has its tokens runs and is counted; the last one of a block writes the block. -/
theorem State.peBlockStep_ready {b : PeBlock} {rest : List PeBlock} (hb : r.blocks = b :: rest) (h0 : b.steps ≠ 0)
    (hg : s.gateTokens cl = true) :
    let s1 := (s.bumpPe cl 0 1).spend (dieOf cl) (stepEnergy (t.peFormat o))
    s.peBlockStep cl = if r.ran + 1 < b.steps then s1.modPe cl fun r => { r with ran := r.ran + 1 }
      else (s1.modPe cl fun r => { r with blocks := rest, ran := 0 }).peWrite cl t o.step b := by
  have hready : ¬ (b.steps = 0 ∨ s.peStopped t ∨ !s.gateTokens cl) := by simp [h0, hgo, hg]
  simp only [State.peBlockStep, hrun, hb, ho, if_neg hready]

/-- An operation without a failure and with no block step left writes its finished blocks and completes. -/
theorem State.peDone_finished (hsteps : (r.blocks.any fun b => b.steps != 0) = false) (hok : r.fail = St.ok) :
    s.peDone cl =
      (({ s with pe := s.pe.filter fun x => x.1 != cl } : State).peWriteAll cl t o.step r.blocks).opDone r.step r.stream r.op := by
  simp only [State.peDone, hrun, ho, hgo, hsteps, hok, Bool.false_eq_true, if_false, if_true]

end run

/-- Settles O14: each of the twelve functions begins by `peStart_open`; a block step is `peBlockStep_ready`, and the end is
`peDone_finished`. -/
theorem precisionEngines : Obligations.PrecisionEngines := by
  refine ⟨?_, ?_, ?_⟩
  · intro runs
    have hruns : ∀ c f, (∀ s uid st op, exec (c uid st op) s = done (s.peStart uid st op f)) → runs c f := by
      intro c f hexec s uid st op t m o p ho hr h1 hc hf hp hhem ra rb r s1
      exact ⟨_, rfl, rfl, rfl, rfl, rfl, (hexec s uid st op).trans (congrArg _ (State.peStart_open ho hr h1 hc hf hp hhem))⟩
    exact ⟨hruns _ _ exec_matmul, hruns _ _ exec_batched, hruns _ _ exec_gather, hruns _ _ exec_scatter, hruns _ _ exec_scatterAdd,
      hruns _ _ exec_qk, hruns _ _ exec_av, hruns _ _ exec_rope, hruns _ _ exec_rms, hruns _ _ exec_layer, hruns _ _ exec_softmax,
      hruns _ _ exec_topk⟩
  · intro s cl r b rest t m o hcl hr hrun hb ho h0 hgo hg s1
    have hstep := (unit_running (decide_eq_true hcl) hr fun s => s.peBlockStep cl).trans
      (congrArg _ (State.peBlockStep_ready hrun ho hgo hb h0 hg))
    exact ⟨fun hlt => hstep.trans (congrArg _ (if_pos hlt)), fun hle => hstep.trans (congrArg _ (if_neg (Nat.not_lt.2 hle)))⟩
  · intro s cl r t m o hcl hr hrun ho hgo hsteps hok
    exact (unit_running (decide_eq_true hcl) hr fun s => s.peDone cl).trans
      (congrArg _ (State.peDone_finished hrun ho hgo hsteps hok))

end Sys2Proof.Machine
end

section
/-!
PROOFS. The ends of vector operations and MOVEs, and what prefetch entries and low-rank tiles do when they may (R251 to R255, R282,
R283, R334, R342, R345).
-/

namespace Sys2Proof.Machine

/-! ### Held results are written (R345) -/

/-- An end has its effect on an operation of its code whose effect has begun (R345). -/
theorem State.onBegun_begun {s : State} {uid st op : Nat} {t : Step} {m : Stream} {o : Op} {p : Nat → Bool}
    (ho : s.op? uid st op = some (t, m, o)) (hr : s.running = true) (h2 : o.stage = 2) (hp : p o.code = true)
    (f : Step → Stream → Op → State) : s.onBegun uid st op p f = f t m o := by
  rw [State.onBegun, ho]
  exact if_pos (by rw [hr, h2, hp, beq_self_eq_true]; rfl)

/-- An access that did not fail leaves the step alone (R594). -/
theorem State.failAccess_ok {a : Access} (h : a.status = St.ok) (s : State) (uid sched : Nat) : s.failAccess uid a sched = s :=
  if_pos h

/-- The step of an instance that was not reset since may write (R427). -/
theorem State.mayWrite_current {s : State} {t : Step} (h : (s.inst t.inst).gen = t.gen) : s.mayWrite t = true :=
  Bool.or_eq_true_iff.2 (.inl (beq_iff_eq.2 h))

/-- A result held for T0, T1 or T2 is written there (R342). -/
theorem State.writeResult_memory {r : Nat × Nat × Nat × List Nat} (h : r.1 ≤ 2) (s : State) (i : Nat) :
    s.writeResult i r = s.writeSpace i r.1 r.2.1 r.2.2.1 r.2.2.2 := by
  have hbook : r.1 ≠ spaceBook := by simp only [spaceBook]; omega
  have hperi : r.1 ≠ spacePeri := by simp only [spacePeri]; omega
  rw [State.writeResult, if_neg hbook, if_neg hperi]

/-- An operation that holds one result for T0, T1 or T2 writes it and completes (R345). -/
theorem State.finishOp_memory {s : State} {t : Step} {o : Op} {r : Nat × Nat × Nat × List Nat} (st op : Nat) (hw : s.mayWrite t = true)
    (hres : o.result = [r]) (hspace : r.1 ≤ 2) :
    let w := s.writeSpace t.inst r.1 r.2.1 r.2.2.1 r.2.2.2
    w.2.status = St.ok → s.finishOp t st op o = w.1.opDone t.uid st op := by
  intro w hok
  have hwrite : s.writeResults t.inst o.result = (w.1, Access.ok []) := by
    rw [hres, State.writeResults, State.writeResult_memory hspace]
    exact congrArg (Prod.mk w.1) (if_neg (not_not.2 hok))
  rw [State.finishOp, if_pos hw, hwrite]
  exact congrArg (fun s : State => s.opDone t.uid st op) (State.failAccess_ok rfl w.1 t.uid o.step)

/-- A result held for T0 leaves a vector operation by `sramWrite` (R345). -/
theorem State.vecDone_begun {s : State} {uid st op : Nat} {t : Step} {m : Stream} {o : Op} {r : Nat × Nat × Nat × List Nat}
    (ho : s.op? uid st op = some (t, m, o)) (hr : s.running = true) (h2 : o.stage = 2) (hv : isVector o.code = true)
    (hw : s.mayWrite t = true) (hres : o.result = [r]) (h0 : r.1 = 0) :
    let w := s.sramWrite 0 t.inst r.2.1 r.2.2.1 r.2.2.2
    w.2.status = St.ok → s.vecDone uid st op = w.1.opDone t.uid st op := by
  have hspace : s.writeSpace t.inst r.1 r.2.1 r.2.2.1 r.2.2.2 = s.sramWrite 0 t.inst r.2.1 r.2.2.1 r.2.2.2 := by
    rw [h0]
    rfl
  have hfinish := State.finishOp_memory st op hw hres (h0.trans_le (Nat.zero_le 2))
  rw [hspace] at hfinish
  exact fun hok => (State.onBegun_begun ho hr h2 hv _).trans (hfinish hok)

/-! ### MOVE and PREFETCH (R334, R342) -/

section op
variable {s : State} {uid st op : Nat} {t : Step} {m : Stream} {o : Op} (ho : s.op? uid st op = some (t, m, o)) (hr : s.running = true)
include ho hr

/-- A MOVE whose source was read holds the bytes for its destination (R342). -/
theorem State.moveStart_read (h1 : o.stage = 1) (hc : o.code = 0x20) :
    let src := u64At o.bytes 8
    let r := s.readSpace t.inst (locSpace src) (t.locUnit src) (locOff src) (u32At o.bytes 0x18)
    let d := t.moveDest (u64At o.bytes 0x10)
    r.2.status = St.ok → s.moveStart uid st op =
      (r.1.spendFree (dieOf m.clusterNo) (40 * ((u32At o.bytes 0x18 + 63) / 64))).modOp uid st op fun o =>
        { o with stage := 2, result := [(d.1, d.2.1, d.2.2, r.2.bytes)] } :=
  fun hok => (State.onOp_started ho hr h1 hc _).trans (if_neg (not_not.2 hok))

/-- A MOVE into the device's memory, its way open and its instance not reset, writes its bytes and completes (R308, R345). -/
theorem State.moveDone_memory {r : Nat × Nat × Nat × List Nat} (h2 : o.stage = 2) (hc : o.code = 0x20) (hres : o.result = [r])
    (hspace : r.1 ≤ 2) (hgen : (s.inst t.inst).gen = t.gen) (hopen : s.moveOpen t m st op o = true)
    (hmirror : r.1 = 2 → s.mirrorOf t.inst r.2.1 = none) :
    let w := s.writeSpace t.inst r.1 r.2.1 r.2.2.1 r.2.2.2
    w.2.status = St.ok → s.moveDone uid st op = w.1.opDone t.uid st op := by
  intro w hok
  have hhost : r.1 ≠ 4 := by omega
  have hlocal : (if r.1 = 2 then s.mirrorOf t.inst r.2.1 else none) = none := ite_eq_right_iff.2 hmirror
  have hway : ¬ ((r.1 = 4 ∧ !s.hostUp) ∨ !s.moveOpen t m st op o) := by simp [hhost, hopen]
  rw [State.moveDone, State.onBegun_begun (p := (· == 0x20)) ho hr h2 (beq_iff_eq.2 hc), hres]
  dsimp only
  rw [if_neg (not_not.2 hgen), if_neg (fun h => hhost h.1), if_neg hway, hlocal]
  exact State.finishOp_memory st op (State.mayWrite_current hgen) hres hspace hok

/-- PREFETCH issues the in-line entry that it names (R334). -/
theorem State.prefetchOp_issues {e : Entry} (h1 : o.stage = 1) (hc : o.code = 0x21) (he : t.entries[u32At o.bytes 8]? = some e) :
    s.prefetchOp uid st op = (s.modStep uid fun t => { t with entries := t.entries.modify (u32At o.bytes 8) fun e =>
      { e with st := 1, tile := u32At e.bytes 0x1C, reread := false } }).setStage uid st op 2 := by
  rw [State.prefetchOp, State.onOp_started ho hr h1 hc]
  dsimp only
  rw [he]

end op

/-! ### Entries and tiles (R251 to R255, R282, R283) -/

section entry
variable {s : State} {uid k : Nat} {t : Step} {e : Entry} (he : s.entry? uid k = some (t, e))

/-- A tile that was read is handed on with the outcome of its check (R251). -/
theorem State.readTile_read (bad : Bool) (f : State → List Nat → Bool → State) :
    let r := s.readSource t.inst e e.tileAt (16 + tilePayload (u8At e.bytes 0x2C) (u8At e.bytes 0x2D))
    r.2.status = St.ok →
      s.readTile t k e bad f = f r.1 r.2.bytes (!bad && tileOk (u8At e.bytes 0x2C) (u8At e.bytes 0x2D) e.tile r.2.bytes) :=
  fun hok => if_neg (not_not.2 hok)

include he

/-- An entry that may start becomes a transfer (R282). -/
theorem State.issueEntry_may (hmay : s.mayIssue t k e = true) :
    s.issueEntry uid k = (s.modEntry uid k fun e => { e with st := 1, tile := e.firstTile, reread := false }).busyNow := by
  rw [State.issueEntry, he]
  exact if_pos hmay

/-- A copy in transfer, with its tokens and its source ready, copies its blocks and is done (R283). -/
theorem State.entryDone_copied (hst : e.st = 1) (htile : e.isTile = false) (hold : s.old t = false)
    (htok : s.entryTokens t k e = true) (hsrc : s.sourceReady t k e (u64At e.bytes 0x10) (u32At e.bytes 0x1C) = true) :
    let r := s.copyBlocks t.inst e 0 (u32At e.bytes 0x1C / 64)
    r.2.status = St.ok → s.entryDone uid k = (r.1.endEntry t k 2).busyNow := by
  intro r hok
  have hgo : ¬ (!s.entryTokens t k e || !s.sourceReady t k e (u64At e.bytes 0x10) (u32At e.bytes 0x1C)) = true := by
    simp [htok, hsrc]
  rw [State.entryDone, he]
  dsimp only
  rw [if_neg (not_not.2 hst), if_neg (Bool.eq_false_iff.1 htile), if_neg (Bool.eq_false_iff.1 hold), if_neg hgo]
  exact if_pos hok

variable (hthere : s.tileThere t k e = true) (hold : s.old t = false) (bad : Bool)
include hthere hold

/-- The first copy of a tile that is ready is expanded, or is to be read again (R251, R254). -/
theorem State.tileExpand_ready (hfirst : e.reread = false) (hstart : s.mayStart 2 = true) (hgate : s.gateTokens e.cluster = true) :
    let r := s.readSource t.inst e e.tileAt (16 + tilePayload (u8At e.bytes 0x2C) (u8At e.bytes 0x2D))
    let ok := !bad && tileOk (u8At e.bytes 0x2C) (u8At e.bytes 0x2D) e.tile r.2.bytes
    r.2.status = St.ok → s.tileExpand uid k bad =
      if ok then r.1.expand t k e r.2.bytes else r.1.modEntry uid k fun e => { e with reread := true } := by
  intro r ok hok
  have hready : ¬ (!s.tileReady t k e) = true := by simp [State.tileReady, hthere, hfirst, hold, hstart, hgate]
  rw [State.tileExpand, he]
  exact (if_neg hready).trans (State.readTile_read bad _ hok)

/-- The second copy of a tile is counted, reported and expanded, or the step fails (R254, R255). -/
theorem State.tileReread_second (hsecond : e.reread = true) :
    let r := s.readSource t.inst e e.tileAt (16 + tilePayload (u8At e.bytes 0x2C) (u8At e.bytes 0x2D))
    let ok := !bad && tileOk (u8At e.bytes 0x2C) (u8At e.bytes 0x2D) e.tile r.2.bytes
    r.2.status = St.ok → s.tileReread uid k bad = if ok then
        ((r.1.bumpTile e.cluster 1).raiseOwner Rc.tileReread t.inst e.tile (u64At e.bytes 0x10)).expand t k e r.2.bytes
      else ((r.1.bumpTile e.cluster 2).failStep t.uid St.stepTileDamaged e.tile (u64At e.bytes 0x10) (t.entryStep k e)).endEntry t k 3 := by
  intro r ok hok
  have hready : ¬ (!(e.reread && s.tileThere t k e)) = true := by simp [hsecond, hthere]
  rw [State.tileReread, he]
  dsimp only
  rw [if_neg hready, if_neg (Bool.eq_false_iff.1 hold)]
  exact State.readTile_read bad _ hok

end entry

/-- Settles O13: an operation has its effect by `onOp_started` and its end by `onBegun_begun`, which writes the held result
(`finishOp_memory`); an entry has the case that its readiness gives it, a tile that of its check (`readTile_read`). -/
theorem movesAndEntries : Obligations.MovesAndEntries := by
  refine ⟨⟨?_, ?_, ?_, ?_⟩, ?_, ?_, ?_⟩
  · intro s uid st op t m o r ho hr h2 hv hw hres h0 w hok
    rw [exec_vectorOpComplete, execVectorOpComplete, done_eq, State.vecDone_begun ho hr h2 hv hw hres h0 hok]
  · intro s uid st op t m o ho hr h1 hc src r d hok
    rw [exec_move, execMove, done_eq, State.moveStart_read ho hr h1 hc hok]
  · intro s uid st op t m o r ho hr h2 hc hres hspace hgen hopen hmirror w hok
    rw [exec_moveComplete, execMoveComplete, done_eq, State.moveDone_memory ho hr h2 hc hres hspace hgen hopen hmirror hok]
  · intro s uid st op t m o e ho hr h1 hc he
    rw [exec_prefetch, execPrefetch, done_eq, State.prefetchOp_issues ho hr h1 hc he]
  · intro s uid k t e he hmay
    rw [exec_prefetchEntryIssue, execPrefetchEntryIssue, done_eq, State.issueEntry_may he hmay]
  · intro s uid k t e hr he hst htile hold htok hsrc r hok
    rw [exec_prefetchEntryDone, execPrefetchEntryDone, when_of hr, done_eq,
      State.entryDone_copied he hst htile hold htok hsrc hok]
  · intro s uid k bad t e hr he hthere hold r ok hok
    refine ⟨fun hfirst hstart hgate => ?_, fun hsecond => ?_⟩
    · rw [exec_tileExpand, execTileExpand, when_of hr, done_eq,
        State.tileExpand_ready he hthere hold bad hfirst hstart hgate hok]
    · rw [exec_tileReread, execTileReread, when_of hr, done_eq, State.tileReread_second he hthere hold bad hsecond hok]

end Sys2Proof.Machine
end

section
/-!
PROOFS. The contents of T0, T1 and T2: what a write leaves at every byte, for every reader (R263, R275 to R277, R424).
-/

namespace Sys2Proof.Machine

/-! ### Ranges, folds over their units, and runs of bytes -/

theorem mem_unitsOf {g a n x : Nat} : x ∈ unitsOf g a n ↔ n ≠ 0 ∧ a / g ≤ x ∧ x ≤ (a + n - 1) / g := by
  unfold unitsOf
  split
  · next h => simp [h]
  · next h =>
    simp only [List.mem_map, List.mem_range, h, ne_eq, not_false_eq_true, true_and]
    constructor
    · rintro ⟨i, hi, rfl⟩
      omega
    · rintro ⟨hlo, hhi⟩
      exact ⟨x - a / g, by omega, by omega⟩

/-- The unit of a byte of a range meets the range. -/
theorem div_mem_unitsOf (g a : Nat) {n k : Nat} (hk : k < n) : (a + k) / g ∈ unitsOf g a n :=
  mem_unitsOf.2 ⟨by omega, Nat.div_le_div_right (by omega), Nat.div_le_div_right (by omega)⟩

/-- What one element of a list brings about, and no other element undoes, holds after a fold over the list. `Q` is what the
element relies on. -/
theorem foldl_establishes {σ β : Type} {f : σ → β → σ} {l : List β} {x : β} (Q P : σ → Prop) (hx : x ∈ l)
    (keepQ : ∀ a, ∀ y ∈ l, Q a → Q (f a y)) (brings : ∀ a, Q a → P (f a x)) (keepP : ∀ a, ∀ y ∈ l, y ≠ x → P a → P (f a y))
    {a : σ} (ha : Q a) : P (l.foldl f a) := by
  obtain ⟨front, back, rfl⟩ := List.append_of_mem hx
  have hfront : Q (front.foldl f a) :=
    List.foldlRecOn (motive := Q) front f ha fun b hb y hy => keepQ b y (List.mem_append_left _ hy) hb
  have hback : ∀ y ∈ back, y ∈ front ++ x :: back := fun y hy => List.mem_append_right _ (List.mem_cons_of_mem _ hy)
  have hboth : Q (back.foldl f (f (front.foldl f a) x)) ∧ P (back.foldl f (f (front.foldl f a) x)) := by
    refine List.foldlRecOn (motive := fun b => Q b ∧ P b) back f ⟨keepQ _ x hx hfront, brings _ hfront⟩ fun b hb y hy => ?_
    obtain ⟨hq, hp⟩ := hb
    refine ⟨keepQ b y (hback y hy) hq, ?_⟩
    by_cases hyx : y = x
    · exact hyx ▸ brings b hq
    · exact keepP b y (hback y hy) hyx hp
  rw [List.foldl_append, List.foldl_cons]
  exact hboth.2

/-- Every byte of a store after a write of a run of bytes. -/
theorem cellsWrite_get (d : Nat → Byte) (c : List Host.Cell) (a : Nat) (bs : List Nat) (x : Nat) :
    Tab.get d (cellsWrite d c a bs) x = if a ≤ x ∧ x < a + bs.length then BitVec.ofNat 8 (bs.getD (x - a) 0) else Tab.get d c x := by
  split
  · next h =>
    have hsame := cellsWrite_same d bs c a (x - a) (by omega)
    rwa [Nat.add_sub_cancel' h.1] at hsame
  · next h => exact cellsWrite_other d bs c a x (by omega)

/-- Every byte of a store after a write of the part `lo … hi-1` of bytes that begin at `k`. -/
theorem cellsWrite_part (d : Nat → Byte) (c : List Host.Cell) {k lo hi : Nat} {bs : List Nat} (hlo : k ≤ lo) (hhi : hi ≤ k + bs.length)
    (x : Nat) : Tab.get d (cellsWrite d c lo ((bs.drop (lo - k)).take (hi - lo))) x =
      if lo ≤ x ∧ x < hi then BitVec.ofNat 8 (bs.getD (x - k) 0) else Tab.get d c x := by
  have hlen : ((bs.drop (lo - k)).take (hi - lo)).length = hi - lo := by
    rw [List.length_take, List.length_drop]
    omega
  rw [cellsWrite_get, hlen]
  refine if_ctx_congr (by omega) (fun hx => ?_) fun _ => rfl
  have hat : lo - k + (x - lo) = x - k := by omega
  have hin : x - lo < hi - lo := by omega
  simp only [List.getD_eq_getElem?_getD, List.getElem?_take, List.getElem?_drop, hin, if_true, hat]

/-! ### Granules of T0 and T1 -/

theorem zeroGranule_get (c : List Host.Cell) (g x : Nat) :
    Tab.get noByte (zeroGranule c g) x = if x / 64 = g then 0 else Tab.get noByte c x := by
  rw [zeroGranule, cellsWrite_get, List.length_replicate]
  refine if_ctx_congr (by omega) (fun hx => ?_) fun _ => rfl
  exact congrArg (BitVec.ofNat 8) (List.getD_replicate _ (by omega))

section set
variable (m : Mem) (tier : Nat) (c : List Host.Cell) (g : Nat) (v : Granule)

theorem Mem.granule_set (x : Nat) : ((m.setSram tier c).setGranule tier g v).granule tier x = if x = g then v else m.granule tier x := by
  have hgr : (m.setSram tier c).granules tier = m.granules tier := by
    unfold Mem.setSram Mem.granules
    split <;> rfl
  have hset : ∀ (n : Mem) t, (n.setGranules tier t).granules tier = t := by
    intro n t
    unfold Mem.setGranules Mem.granules
    split <;> rfl
  rw [Mem.granule, Mem.setGranule, hset, hgr, Tab.get_put, Mem.granule]

theorem Mem.sram_set : ((m.setSram tier c).setGranule tier g v).sram tier = c := by
  unfold Mem.setGranule Mem.setGranules Mem.setSram Mem.sram
  split <;> rfl

theorem Mem.sramByte_set (j x : Nat) : ((m.setSram tier c).setGranule tier g v).sramByte tier j x =
    if (if x / 64 = g then v else m.granule tier (x / 64)).tag = j ∧ (if x / 64 = g then v else m.granule tier (x / 64)).written
    then (Tab.get noByte c x).toNat else 0 := by
  rw [Mem.sramByte, Mem.granule_set, Mem.sram_set]

/-- A change of one tier leaves the other, T2 and host memory alone. -/
theorem Mem.set_frame (h : tier ≤ 1) :
    (∀ j x, ((m.setSram tier c).setGranule tier g v).sramByte (1 - tier) j x = m.sramByte (1 - tier) j x) ∧
    ((m.setSram tier c).setGranule tier g v).t2 = m.t2 ∧ ((m.setSram tier c).setGranule tier g v).host = m.host := by
  obtain rfl | rfl := Nat.le_one_iff_eq_zero_or_eq_one.1 h
  · exact ⟨fun _ _ => rfl, rfl, rfl⟩
  · exact ⟨fun _ _ => rfl, rfl, rfl⟩

end set

section writeGranule
variable {m : Mem} {tier i g : Nat} (k : Nat) (bs : List Nat)

/-- A granule of another instance takes nothing (R263). -/
theorem Mem.writeGranule_foreign (h : (m.granule tier g).tag ≠ i) : m.writeGranule tier i k bs g = m := if_pos h

/-- A granule of the instance takes its part of the bytes and is written; what a first write does not cover becomes zero (R275). -/
theorem Mem.writeGranule_own (h : (m.granule tier g).tag = i) : ∃ (c : List Host.Cell) (v : Granule),
    m.writeGranule tier i k bs g = (m.setSram tier c).setGranule tier g v ∧ v.tag = i ∧ v.written = true ∧
    ∀ x, Tab.get noByte c x = if x / 64 = g ∧ k ≤ x ∧ x < k + bs.length then BitVec.ofNat 8 (bs.getD (x - k) 0)
      else if x / 64 = g ∧ (m.granule tier g).written = false then 0 else Tab.get noByte (m.sram tier) x := by
  refine ⟨_, _, if_neg (not_not.2 h), h, rfl, fun x => ?_⟩
  rw [cellsWrite_part noByte _ (le_max_left _ _) (min_le_left _ _)]
  refine if_congr (by omega) rfl ?_
  cases hw : (m.granule tier g).written with
  | true => simp
  | false => simp [zeroGranule_get]

theorem Mem.writeGranule_tag (x : Nat) : ((m.writeGranule tier i k bs g).granule tier x).tag = (m.granule tier x).tag := by
  by_cases h : (m.granule tier g).tag = i
  · obtain ⟨c, v, he, hv, -, -⟩ := Mem.writeGranule_own k bs h
    rw [he, Mem.granule_set, apply_ite Granule.tag, hv]
    exact ite_eq_right_iff.2 fun hx => (hx ▸ h).symm
  · rw [Mem.writeGranule_foreign k bs h]

/-- A byte that the write of a granule does not cover reads as before, for every reader. -/
theorem Mem.sramByte_writeGranule_other (j : Nat) {x : Nat} (hx : x / 64 ≠ g ∨ x < k ∨ k + bs.length ≤ x) :
    (m.writeGranule tier i k bs g).sramByte tier j x = m.sramByte tier j x := by
  by_cases h : (m.granule tier g).tag = i
  · obtain ⟨c, v, he, hv, hw, hc⟩ := Mem.writeGranule_own k bs h
    have hout : ¬ (x / 64 = g ∧ k ≤ x ∧ x < k + bs.length) := by omega
    rw [he, Mem.sramByte_set, hc, if_neg hout, Mem.sramByte]
    by_cases hg : x / 64 = g
    · cases hwr : (m.granule tier g).written with
      | true => simp [hg, hv, hw, h, hwr]
      | false => simp [hg, hwr]
    · simp [hg]
  · rw [Mem.writeGranule_foreign k bs h]

/-- A byte that the write of an own granule covers reads as written (R275). -/
theorem Mem.sramByte_writeGranule_same (h : (m.granule tier g).tag = i) {p : Nat} (hp : p < bs.length) (hg : (k + p) / 64 = g) :
    (m.writeGranule tier i k bs g).sramByte tier i (k + p) = bs.getD p 0 % 256 := by
  obtain ⟨c, v, he, hv, hw, hc⟩ := Mem.writeGranule_own k bs h
  have hin : (k + p) / 64 = g ∧ k ≤ k + p ∧ k + p < k + bs.length := by omega
  rw [he, Mem.sramByte_set, hc, if_pos hin, if_pos hg, if_pos ⟨hv, hw⟩, BitVec.toNat_ofNat, Nat.add_sub_cancel_left]

theorem Mem.writeGranule_frame (ht : tier ≤ 1) :
    (∀ j x, (m.writeGranule tier i k bs g).sramByte (1 - tier) j x = m.sramByte (1 - tier) j x) ∧
    (m.writeGranule tier i k bs g).t2 = m.t2 ∧ (m.writeGranule tier i k bs g).host = m.host := by
  by_cases h : (m.granule tier g).tag = i
  · obtain ⟨c, v, he, -⟩ := Mem.writeGranule_own k bs h
    exact he ▸ m.set_frame tier c g v ht
  · rw [Mem.writeGranule_foreign k bs h]
    exact ⟨fun _ _ => rfl, rfl, rfl⟩

end writeGranule

/-- A byte of a list of bytes is its own remainder. -/
theorem getD_mod_byte {bs : List Nat} (h : ∀ b ∈ bs, b < 256) (k : Nat) : bs.getD k 0 % 256 = bs.getD k 0 := by
  refine Nat.mod_eq_of_lt ?_
  rw [List.getD_eq_getElem?_getD]
  cases hk : bs[k]? with
  | none => decide
  | some b => exact h b (List.mem_of_getElem? hk)

/-! ### Writes of T0 and T1 (R263, R275) -/

section sramWrite
variable (m : Mem) (tier i u a : Nat) (bs : List Nat)

theorem Mem.sramByte_sramWrite_same {k : Nat} (hk : k < bs.length)
    (hown : (m.granule tier ((sramKey tier u a + k) / 64)).tag = i) :
    (m.sramWrite tier i u a bs).1.sramByte tier i (sramKey tier u a + k) = bs.getD k 0 % 256 := by
  refine foldl_establishes (fun n : Mem => (n.granule tier ((sramKey tier u a + k) / 64)).tag = i)
    (fun n : Mem => n.sramByte tier i (sramKey tier u a + k) = bs.getD k 0 % 256) (div_mem_unitsOf 64 _ hk) ?_ ?_ ?_ hown
  · exact fun n g _ hn => (Mem.writeGranule_tag _ bs _).trans hn
  · exact fun n hn => Mem.sramByte_writeGranule_same _ bs hn hk rfl
  · exact fun n g _ hg hn => (Mem.sramByte_writeGranule_other _ bs i (.inl (Ne.symm hg))).trans hn

theorem Mem.sramByte_sramWrite_other (j : Nat) {x : Nat} (hx : x < sramKey tier u a ∨ sramKey tier u a + bs.length ≤ x) :
    (m.sramWrite tier i u a bs).1.sramByte tier j x = m.sramByte tier j x :=
  List.foldlRecOn (motive := fun n : Mem => n.sramByte tier j x = m.sramByte tier j x) _ _ rfl
    fun _ hn _ _ => (Mem.sramByte_writeGranule_other _ bs j (.inr hx)).trans hn

theorem Mem.sramWrite_frame (ht : tier ≤ 1) :
    (∀ j x, (m.sramWrite tier i u a bs).1.sramByte (1 - tier) j x = m.sramByte (1 - tier) j x) ∧
    (m.sramWrite tier i u a bs).1.t2 = m.t2 ∧ (m.sramWrite tier i u a bs).1.host = m.host := by
  refine List.foldlRecOn (motive := fun n : Mem =>
    (∀ j x, n.sramByte (1 - tier) j x = m.sramByte (1 - tier) j x) ∧ n.t2 = m.t2 ∧ n.host = m.host) _ _ ⟨fun _ _ => rfl, rfl, rfl⟩ fun n hn g _ => ?_
  obtain ⟨hbyte, ht2, hhost⟩ := hn
  obtain ⟨hbyte', ht2', hhost'⟩ := Mem.writeGranule_frame (m := n) (i := i) (g := g) (sramKey tier u a) bs ht
  exact ⟨fun j x => (hbyte' j x).trans (hbyte j x), ht2'.trans ht2, hhost'.trans hhost⟩

/-- A write into granules of other instances changes no memory and ends with STEP_BOUNDS (R263). -/
theorem Mem.sramWrite_foreign (hbs : bs ≠ []) (h : ∀ g ∈ unitsOf 64 (sramKey tier u a) bs.length, (m.granule tier g).tag ≠ i) :
    (m.sramWrite tier i u a bs).1 = m ∧ (m.sramWrite tier i u a bs).2.status = St.stepBounds := by
  constructor
  · refine List.foldlRecOn (motive := (· = m)) _ _ rfl fun n hn g hg => ?_
    subst hn
    exact Mem.writeGranule_foreign _ bs (h g hg)
  · have hmem := div_mem_unitsOf 64 (sramKey tier u a) (List.length_pos_iff.2 hbs)
    have hany : (unitsOf 64 (sramKey tier u a) bs.length).any (fun g => !decide ((m.granule tier g).tag = i)) = true :=
      List.any_eq_true.2 ⟨_, hmem, by simpa using h _ hmem⟩
    rw [Mem.sramWrite]
    exact congrArg Access.status (if_pos hany)

end sramWrite

/-- Settles O22: a write reaches each byte of its range in that byte's granule (`sramByte_sramWrite_same`) and no other byte
(`sramByte_sramWrite_other`, `sramWrite_frame`), and a granule of another instance takes nothing (`sramWrite_foreign`). -/
theorem sramContents : Obligations.SramContents := by
  refine ⟨?_, ?_⟩
  · intro m tier i u a bs ht hbs hown n
    obtain ⟨hother, ht2, hhost⟩ := m.sramWrite_frame tier i u a bs ht
    refine ⟨fun k hk => ?_, fun j x hx => m.sramByte_sramWrite_other tier i u a bs j hx, hother, ht2, hhost⟩
    exact (m.sramByte_sramWrite_same tier i u a bs hk (hown _ (div_mem_unitsOf 64 _ hk))).trans (getD_mod_byte hbs k)
  · intro s tier i u a bs _ hbs hforeign
    obtain ⟨hmem, hst⟩ := s.mem.sramWrite_foreign tier i u a bs hbs hforeign
    have hbad : ¬ (s.mem.sramWrite tier i u a bs).2.status = St.ok := by rw [hst]; decide
    refine ⟨?_, hst⟩
    rw [State.sramWrite]
    dsimp only
    rw [if_neg hbad, hmem]

/-! ### Blocks of T2 (R276, R277, R424) -/

theorem Mem.t2Byte_lt (m : Mem) (key x : Nat) : m.t2Byte key x < 256 := by
  unfold Mem.t2Byte
  dsimp only
  split
  · exact BitVec.isLt _
  · exact BitVec.isLt _

section t2
variable (m : Mem) {key : Nat} (a : Nat) (bs : List Nat)

/-- The write of a block leaves every other block alone, under every pair. -/
theorem Mem.t2Byte_writeBlock_other (key' j : Nat) {blk x : Nat} (hx : x / 16 ≠ blk) :
    (m.t2WriteBlock key' a bs blk).t2Byte j x = m.t2Byte j x := by
  unfold Mem.t2Byte Mem.blockKey Mem.t2WriteBlock
  dsimp only
  rw [Tab.get_put_other _ _ _ hx, cellsWrite_other _ _ _ _ _ (by simp; omega)]

/-- Under the pair of the write, a byte of the block reads as written, and one that the write does not cover as before. -/
theorem Mem.t2Byte_writeBlock_same (hkey : key ≠ 0) {blk x : Nat} (hx : x / 16 = blk) :
    (m.t2WriteBlock key a bs blk).t2Byte key x =
      if a ≤ x ∧ x < a + bs.length then bs.getD (x - a) 0 % 256 else m.t2Byte key x := by
  subst hx
  have hj : x - x / 16 * 16 < 16 := by omega
  have hat : x / 16 * 16 + (x - x / 16 * 16) = x := by omega
  have hin : x / 16 * 16 ≤ x ∧ x < x / 16 * 16 + 16 := by omega
  rw [Mem.t2Byte, Mem.blockKey, Mem.t2WriteBlock]
  dsimp only
  rw [Tab.get_put_same, if_pos ⟨rfl, hkey⟩, cellsWrite_get, List.length_map, List.length_range, if_pos hin]
  simp only [List.getD_eq_getElem?_getD, List.getElem?_map, List.getElem?_range hj, Option.map_some, Option.getD_some, hat, BitVec.toNat_ofNat]
  split
  · rfl
  · exact Nat.mod_eq_of_lt (m.t2Byte_lt key x)

/-- A write of T2 reads back under its pair (R276). -/
theorem Mem.t2Byte_t2Write_same (hkey : key ≠ 0) {k : Nat} (hk : k < bs.length) :
    (m.t2Write key a bs).t2Byte key (a + k) = bs.getD k 0 % 256 := by
  refine foldl_establishes (fun _ => True) (fun n : Mem => n.t2Byte key (a + k) = bs.getD k 0 % 256) (div_mem_unitsOf 16 a hk) (fun _ _ _ => id)
    (fun n _ => ?_) (fun n blk _ hb hn => ?_) trivial
  · rw [Mem.t2Byte_writeBlock_same n a bs hkey rfl, if_pos (by omega), Nat.add_sub_cancel_left]
  · exact (Mem.t2Byte_writeBlock_other n a bs key key (Ne.symm hb)).trans hn

/-- Outside its range a write of T2 shows under its own pair nowhere (R277). -/
theorem Mem.t2Byte_t2Write_other (hkey : key ≠ 0) {x : Nat} (hx : x < a ∨ a + bs.length ≤ x) :
    (m.t2Write key a bs).t2Byte key x = m.t2Byte key x := by
  refine List.foldlRecOn (motive := fun n : Mem => n.t2Byte key x = m.t2Byte key x) _ _ rfl fun n hn blk _ => ?_
  by_cases hb : x / 16 = blk
  · rw [Mem.t2Byte_writeBlock_same n a bs hkey hb, if_neg (by omega), hn]
  · exact (Mem.t2Byte_writeBlock_other n a bs key key hb).trans hn

/-- A block that the range does not meet reads as before under every pair (R424). -/
theorem Mem.t2Byte_t2Write_apart (key' j : Nat) {x : Nat} (hx : x / 16 ∉ unitsOf 16 a bs.length) :
    (m.t2Write key' a bs).t2Byte j x = m.t2Byte j x :=
  List.foldlRecOn (motive := fun n : Mem => n.t2Byte j x = m.t2Byte j x) _ _ rfl fun n hn _ hb =>
    (Mem.t2Byte_writeBlock_other n a bs key' j fun he => hx (he ▸ hb)).trans hn

/-- A write of T2 leaves T0, T1 and host memory alone. -/
theorem Mem.t2Write_frame (key' : Nat) :
    (m.t2Write key' a bs).t0 = m.t0 ∧ (m.t2Write key' a bs).t1 = m.t1 ∧ (m.t2Write key' a bs).host = m.host :=
  List.foldlRecOn (motive := fun n : Mem => n.t0 = m.t0 ∧ n.t1 = m.t1 ∧ n.host = m.host) _ _ ⟨rfl, rfl, rfl⟩ fun _ hn _ _ => hn

end t2

/-- Settles O23: a write of T2 is a fold over the blocks that it meets, and each write of a block says what its bytes read as
(`t2Byte_writeBlock_same`, `t2Byte_writeBlock_other`). -/
theorem t2ReadAfterWrite : Obligations.T2ReadAfterWrite := by
  intro m key a bs hkey hbs n
  exact ⟨fun k hk => (m.t2Byte_t2Write_same a bs hkey hk).trans (getD_mod_byte hbs k), fun _ hx => m.t2Byte_t2Write_other a bs hkey hx,
    fun j _ hx => m.t2Byte_t2Write_apart a bs key j hx, m.t2Write_frame a bs key⟩

end Sys2Proof.Machine
end

section
/-!
PROOFS. The life of a step: bind, operation start, completion and late fetch (R282, R287, R288, R324, R327, R344, R346, R351).
-/

namespace Sys2Proof.Machine

section bind
variable {s : State} {uid : Nat} {t : Step} {d : Desc} (ht : s.step? uid = some t) (hd : s.desc? uid = some d) (hmay : s.mayBind t = true)
include ht hd hmay

/-- A step that may bind and fails nothing of R324 binds, all its pegs being within reach (R309, R327). -/
theorem State.stepBind_binds (cal : List Bool) (hfault : s.bindFault t = none) (hshut : s.bindShut t = none) :
    s.stepBind uid cal = s.bind t cal := by
  have hgo : ¬ (!s.mayBind t) = true := by simp [hmay]
  rw [State.stepBind, ht, hd]
  dsimp only
  rw [if_neg hgo, hfault, hshut]

/-- A step that fails a test of R324 ends its RUN_STEP with that test's status. -/
theorem State.stepBind_fails (cal : List Bool) {x : Nat × Nat} (hfault : s.bindFault t = some x) :
    s.stepBind uid cal = s.dropBind uid d x.1 x.2 := by
  have hgo : ¬ (!s.mayBind t) = true := by simp [hmay]
  rw [State.stepBind, ht, hd]
  dsimp only
  rw [if_neg hgo, hfault]

end bind

/-- An operation that is fetched, ready and past its gate, its streams ready, starts (R282, R344, R346). -/
theorem State.startFetched_ready {s : State} {uid st op : Nat} {t : Step} {m : Stream} {o : Op} (ho : s.op? uid st op = some (t, m, o))
    (hop : s.opReady t m op o = true) (hhas : m.has op = true) (hgate : t.gateOpen m.clusterNo o.step = true)
    (hstream : s.streamReady t m o = true) :
    s.startFetched uid st op = ((s.dropStreamWait uid st op).setStage uid st op 1).busyNow := by
  have hgo : ¬ (!(s.opReady t m op o && m.has op && t.gateOpen m.clusterNo o.step)) = true := by simp [hop, hhas, hgate]
  rw [State.startFetched, ho]
  dsimp only
  rw [if_neg hgo, if_pos hstream]

/-- A step that is over, its instance not reset since, is unbound, counted and completed (R288, R351). -/
theorem State.completeStep_over {s : State} {uid : Nat} {t : Step} (ht : s.step? uid = some t) (hover : s.stepOver t = true)
    (hgen : (s.inst t.inst).gen = t.gen) :
    s.completeStep uid = ((s.unbind t).addCounters t).completeC uid t.status (if t.status = St.ok then 0 else t.failStep)
      (some (min t.evals 0xFFFFFFFF, min t.clips 0xFFFFFFFF, t.stallSummary.1, t.stallSummary.2, min t.splits 0xFFFF)) := by
  have hgo : ¬ (!s.stepOver t) = true := by simp [hover]
  rw [State.completeStep, ht]
  dsimp only
  rw [if_neg hgo, if_neg (not_not.2 hgen)]

/-- A stall longer than STALL_LIMIT fails the step with the waiting step and the cause (R287). -/
theorem State.lateFetch_late {s : State} {uid cl : Nat} {t : Step} {c : Nat × Nat} (ht : s.step? uid = some t) (halive : s.alive t = true)
    (hcause : s.stallCause t cl = some c) (hstall : Tab.get (fun _ => 0) t.stall cl ≠ 0)
    (hlimit : s.stallLimit t.inst < s.now + 1 - Tab.get (fun _ => 0) t.stall cl) :
    s.lateFetch uid cl = s.failStep uid St.stepLateFetch cl (c.1 + c.2 * 65536) c.1 := by
  rw [State.lateFetch, ht]
  dsimp only
  rw [hcause]
  exact if_pos (by rw [halive, decide_eq_true ⟨hstall, hlimit⟩]; rfl)

/-- Settles O9: a step that may bind does (`stepBind_binds`) or ends (`stepBind_fails`), an operation that may start does
(`startFetched_ready`), and a step ends by `completeStep_over` or fails by `lateFetch_late`. -/
theorem stepLife : Obligations.StepLife := by
  refine ⟨?_, ?_, ?_, ?_, ?_⟩
  · intro s uid cal t d ht hd hmay hfault hshut b s1 s2 s3 s4 s5
    rw [exec_stepBind, execStepBind, done_eq, State.stepBind_binds ht hd hmay cal hfault hshut, State.bind]
  · intro s uid cal t d x ht hd hmay hfault
    rw [exec_stepBind, execStepBind, done_eq, State.stepBind_fails ht hd hmay cal hfault, State.dropBind, State.refuseStep, noStep, if_pos rfl]
  · intro s uid st op t m o u ho hop hhas hgate hstream
    rw [exec_operationStart, execOperationStart, done_eq, State.startOp, State.startFetched_ready ho hop hhas hgate hstream]
  · intro s uid t ht hover hgen hok
    rw [exec_stepComplete, execStepComplete, done_eq, State.completeStep_over ht hover hgen, hok, if_pos rfl]
  · intro s uid cl t c hcl ht halive hcause hstall hlimit
    rw [exec_stepLateFetch, execStepLateFetch, unit_of (decide_eq_true (p := cl < nClusters) hcl),
      State.lateFetch_late ht halive hcause hstall hlimit]

end Sys2Proof.Machine
end

section
/-!
PROOFS. Buffers: BUF_ALLOC, BUF_FREE and their ends (R266 to R273, R425).
-/

namespace Sys2Proof.Machine

/-! ### BUF_ALLOC (R268 to R271) -/

/-- The buffer that a BUF_ALLOC names is issued under index `k` at unit `u`, or in the given pages (R266, R267). -/
def State.issueBuf (s : State) (d : Desc) (k u : Nat) (pages : List Nat) : State :=
  let tier := u8At d.bytes 0x10
  (s.takeIndex.setBuf k ⟨true, (s.buf k).gen, d.inst, tier, (if tier = 2 then 0 else u32At d.bytes 0x14), u * quotaUnit tier,
    unitsFor tier (u64At d.bytes 0x18) * quotaUnit tier, pages⟩).skip (if tier = 2 then pages.length else 1)

section alloc
variable {s : State} {d : Desc} (hok : s.allocStatus d.inst d.bytes = St.ok)
include hok

/-- No place is found (R270). -/
theorem State.allocDesc_noSpace (hplace : s.place d.bytes = none) : s.allocDesc d = s.complete d.uid St.bufNoSpace 0 := by
  rw [State.allocDesc]
  dsimp only
  rw [if_neg (not_not.2 hok), hplace]

variable {k u : Nat} {ps : List Nat} (hk : s.nextIndex = some k) (hplace : s.place d.bytes = some (u, ps))
include hk hplace

/-- A place and an index are found: the buffer is issued; a T0 or T1 buffer is tagged, a T2 buffer with ZERO waits for its zeroing. -/
theorem State.allocDesc_placed : s.allocDesc d =
    let tier := u8At d.bytes 0x10
    let base := u * quotaUnit tier
    let size := unitsFor tier (u64At d.bytes 0x18) * quotaUnit tier
    let h := k * 256 + (s.buf k).gen
    let i := s.issueBuf d k u ps
    if tier = 2 then
      if bit (u8At d.bytes 0x11) 0 then { i with mem := { i.mem with zeroing := i.mem.zeroing ++ [(d.uid, k)] } } else i.allocResult d h 0
    else ({ i with mem := i.mem.tagRange tier d.inst (u32At d.bytes 0x14) base size } : State).allocResult d h base := by
  rw [State.allocDesc]
  dsimp only
  rw [if_neg (not_not.2 hok), hplace]
  dsimp only
  rw [hk]
  rfl

end alloc

/-- Every page of the buffer is zeroed under its owner's key, and its result is written (R271, R425). -/
theorem State.allocZeroDone_found {s : State} {uid : Nat} {z : Nat × Nat} {d : Desc}
    (hz : s.mem.zeroing.find? (fun z => z.1 == uid) = some z) (hd : s.desc? uid = some d) :
    let b := s.buf z.2
    let m := b.pages.foldl (fun m p => m.zeroPage (s.key b.owner) p) s.mem
    s.allocZeroDone uid = ({ s with mem := { m with zeroing := m.zeroing.filter (fun y => y.1 != uid) } } : State).allocResult d
      (z.2 * 256 + b.gen) 0 := by
  rw [State.allocZeroDone, hz, hd]

/-! ### BUF_FREE (R272, R273) -/

section free
variable {s : State} {d : Desc}

theorem State.freeDesc_dead (h : s.live (u32At d.bytes 0x10) = none) :
    s.freeDesc d = (s.bump (R.INST_STATUS_BUF_ERRORS_FREE_REJECTED d.inst) 1).complete d.uid St.bufNotAllocated 0 := by
  rw [State.freeDesc]
  dsimp only
  rw [h]

variable {b : Buf} (h : s.live (u32At d.bytes 0x10) = some b)
include h

theorem State.freeDesc_foreign (hb : b.owner ≠ d.inst) :
    s.freeDesc d = (s.raise St.bufNotOwner instClass d.inst (u32At d.bytes 0x10) b.owner).complete d.uid St.bufNotOwner 0 := by
  rw [State.freeDesc]
  dsimp only
  rw [h]
  exact if_pos hb

theorem State.freeDesc_own (hb : b.owner = d.inst) : s.freeDesc d =
    if s.inUse (u32At d.bytes 0x10) then { s with mem := { s.mem with freeWaits := s.mem.freeWaits ++ [(d.uid, u32At d.bytes 0x10)] } }
    else (s.freeBuf (u32At d.bytes 0x10 / 256)).complete d.uid St.ok 0 := by
  rw [State.freeDesc]
  dsimp only
  rw [h]
  exact if_neg (not_not.2 hb)

end free

theorem State.buf_setBuf (s : State) (k : Nat) (v : Buf) (j : Nat) : (s.setBuf k v).buf j = if j = k then v else s.buf j :=
  Tab.get_put _ _ _ _ _

/-- A buffer without pages retires none when it is freed: its entry dies and its index joins the free list (R272). -/
theorem State.freeBuf_unpaged {s : State} {k : Nat} (h : (s.buf k).pages = []) :
    let s1 := s.setBuf k { s.buf k with live := false, gen := ((s.buf k).gen + 1) % 256 }
    s.freeBuf k = { s1 with mem := { s1.mem with freed := s1.mem.freed ++ [k] } } := by
  have hkeep : ∀ l : List Nat, l.filter (fun p => !([] : List Nat).contains p) = l := fun l => List.filter_eq_self.2 fun _ _ => rfl
  have hnone : ∀ f : Nat → Bool, (s.buf k).pages.filter f = [] := fun f => (congrArg (List.filter f) h).trans List.filter_nil
  intro s1
  rw [State.freeBuf]
  simp only [hnone, hkeep, List.foldl_nil]
  rfl

/-- The wait of a free ends with the use of its buffer, which is freed (R273). -/
theorem State.freeResume_ended {s : State} {uid h : Nat} {b : Buf} {d : Desc}
    (hw : s.mem.freeWaits.find? (fun w => w.1 == uid) = some (uid, h)) (huse : s.inUse h = false) (hb : s.live h = some b)
    (hd : s.desc? uid = some d) : s.freeResume uid =
      (({ s with mem := { s.mem with freeWaits := s.mem.freeWaits.filter fun w => w.1 != uid } } : State).freeBuf
        (h / 256)).complete uid St.ok 0 := by
  have hlive : ({ s with mem := { s.mem with freeWaits := s.mem.freeWaits.filter fun w => w.1 != uid } } : State).live h = some b := hb
  have hdesc : ({ s with mem := { s.mem with freeWaits := s.mem.freeWaits.filter fun w => w.1 != uid } } : State).desc? uid = some d := hd
  rw [State.freeResume, hw]
  dsimp only
  rw [if_neg (Bool.eq_false_iff.1 huse), hlive, hdesc]

/-- Settles O19: an allocation finds no space (`allocDesc_noSpace`) or is issued (`allocDesc_placed`) and its zeroing ends by
`allocZeroDone_found`; a free goes by its row of R272, and `freeBuf_unpaged` says what it leaves. -/
theorem buffers : Obligations.Buffers := by
  refine ⟨⟨?_, ?_⟩, ?_, ?_, ?_⟩
  · intro s f w d k hf hw hb s0 b tier size g h issued noSpace hok hk
    have hgo : exec (.bufAlloc f w) s = .next (s0.allocDesc d) := unit_onDesc_begun hf hw hb _
    rw [hgo]
    cases hplace : s0.place b with
    | none =>
      have hend := State.allocDesc_noSpace hok hplace
      exact ⟨fun _ => congrArg _ hend, fun _ _ => congrArg _ hend, fun _ _ => congrArg _ hend⟩
    | some p =>
      obtain ⟨u, ps⟩ := p
      have hdone := State.allocDesc_placed hok hk hplace
      refine ⟨fun htier => ?_, fun htier hzero => ?_, fun htier hzero => ?_⟩
      · exact congrArg _ (hdone.trans (if_neg (Nat.ne_of_lt htier)))
      · exact congrArg _ (hdone.trans ((if_pos htier).trans (if_neg (Bool.eq_false_iff.1 hzero))))
      · exact congrArg _ (hdone.trans ((if_pos htier).trans (if_pos hzero)))
  · intro s uid z d hu hz hd b m
    rw [exec_bufAllocZeroDone, execBufAllocZeroDone, done_eq, when_of hu, State.allocZeroDone_found hz hd]
  · intro s f w d hf hw hb s0 h
    have hgo : exec (.bufFree f w) s = .next (s0.freeDesc d) := unit_onDesc_begun hf hw hb _
    rw [hgo]
    refine ⟨fun hdead => congrArg _ (State.freeDesc_dead hdead), fun b hl ho => congrArg _ (State.freeDesc_foreign hl ho),
      fun b hl ho huse => ?_, fun b hl ho huse => ?_⟩
    · exact congrArg _ ((State.freeDesc_own hl ho).trans (if_pos huse))
    · exact congrArg _ ((State.freeDesc_own hl ho).trans (if_neg (Bool.eq_false_iff.1 huse)))
  · intro s k hp
    have hbuf : ∀ j, (s.freeBuf k).buf j =
        if j = k then { s.buf k with live := false, gen := ((s.buf k).gen + 1) % 256 } else s.buf j := by
      intro j
      rw [State.freeBuf_unpaged hp]
      exact State.buf_setBuf _ _ _ _
    refine ⟨?_, ?_, ?_, fun j hj => (hbuf j).trans (if_neg hj), ?_⟩
    · rw [hbuf, if_pos rfl]
    · rw [hbuf, if_pos rfl]
    · rw [State.freeBuf_unpaged hp]
      rfl
    · rw [State.freeBuf_unpaged hp]
      rfl
  · intro s uid h b d hu hw huse hb hd
    rw [exec_bufFreeResume, execBufFreeResume, done_eq, when_of hu, State.freeResume_ended hw huse hb hd]

end Sys2Proof.Machine
end

section
/-!
PROOFS. The patrol scrubber and page moves (R279, R605, R607).
-/

namespace Sys2Proof.Machine

/-! ### A counter counts whatever memory holds -/

theorem State.setWord_with_mem (s : State) (m : Mem) (k v : Nat) :
    ({ s with mem := m } : State).setWord k v = { s.setWord k v with mem := m } := rfl

theorem State.setWord64_with_mem (s : State) (m : Mem) (k v : Nat) :
    ({ s with mem := m } : State).setWord64 k v = { s.setWord64 k v with mem := m } :=
  (congrArg (fun t : State => t.setWord (k + 4) (v / 2 ^ 32)) (s.setWord_with_mem m k v)).trans ((s.setWord k v).setWord_with_mem m _ _)

theorem State.wr_with_mem (s : State) (m : Mem) (f : RField) (v : Nat) :
    ({ s with mem := m } : State).wr f v = { s.wr f v with mem := m } := by
  rw [State.wr, State.wr, State.word_with_mem, State.word64_with_mem]
  by_cases h : f.msb < 32
  · rw [if_pos h, if_pos h, State.setWord_with_mem]
  · rw [if_neg h, if_neg h, State.setWord64_with_mem]

theorem State.bump_with_mem (s : State) (m : Mem) (f : RField) (n : Nat) :
    ({ s with mem := m } : State).bump f n = { s.bump f n with mem := m } := by
  rw [State.bump, State.wr_with_mem, State.rd_with_mem, State.bump]

/-- An error counted before its block is rewritten, or after. -/
theorem State.clearErr_bump (s : State) (f : RField) (n b : Nat) : (s.bump f n).clearErr b = (s.clearErr b).bump f n := by
  rw [State.clearErr, State.clearErr, State.bump_mem]
  exact (s.bump_with_mem _ f n).symm

/-! ### One block of the pass (R279) -/

section scrub
variable (s : State) (find : Nat)

/-- The block at the scrubber's position. -/
def State.scrubAt : Nat := s.rd R.HBM_SCRUB_STATUS_PAGE * 32768 + s.mem.scrubBlock

/-- What the scrubber finds in that block: the error that stands there, or the one that has arisen. -/
def State.scrubKind : Nat := max find (Tab.get (fun _ => 0) s.mem.t2Err s.scrubAt)

variable {s find}

theorem State.scrub_clean (h : s.mem.t2Bad s.scrubAt = true ∨ (s.scrubKind find ≠ 1 ∧ s.scrubKind find ≠ 2)) :
    s.scrub find = s.scrubNext := by
  refine congrArg State.scrubNext ?_
  by_cases hbad : s.mem.t2Bad s.scrubAt = true
  · exact if_pos hbad
  · obtain ⟨h1, h2⟩ := h.resolve_left hbad
    exact (if_neg hbad).trans ((if_neg h1).trans (if_neg h2))

variable (hgood : s.mem.t2Bad s.scrubAt = false)
include hgood

theorem State.scrub_correctable (h : s.scrubKind find = 1) :
    s.scrub find = ((s.clearErr s.scrubAt).bump R.HBM_CE_COUNT_COUNT 1).scrubNext :=
  congrArg State.scrubNext ((if_neg (Bool.eq_false_iff.1 hgood)).trans ((if_pos h).trans (s.clearErr_bump _ 1 _)))

theorem State.scrub_uncorrectable (h : s.scrubKind find = 2) :
    s.scrub find = ((s.clearErr s.scrubAt).scrubUe (s.rd R.HBM_SCRUB_STATUS_PAGE) s.mem.scrubBlock).scrubNext := by
  have hno : s.scrubKind find ≠ 1 := by omega
  exact congrArg State.scrubNext ((if_neg (Bool.eq_false_iff.1 hgood)).trans ((if_neg hno).trans (if_pos h)))

end scrub

/-- A page that its live buffer still holds is remapped, and the page left is retired (R607). -/
theorem State.pageMoved_live {s : State} {p q k : Nat} (hmove : s.errs.moves.find? (fun m => m.1 == p) = some (p, q, k))
    (hlive : (s.buf k).live = true) (hpage : (s.buf k).pages.contains p = true) :
    let b := s.buf k
    let s1 : State := { s with errs := { s.errs with moves := s.errs.moves.filter fun m => m.1 != p } }
    s.pageMoved p = (({ s1 with mem := s1.mem.movePage (s1.key b.owner) p q } : State).setBuf k
      { b with pages := b.pages.map fun x => if x == p then q else x }).retirePage p b.owner (k * 256 + b.gen) := by
  rw [State.pageMoved, hmove]
  exact if_pos (by rw [hlive, hpage]; rfl)

/-- Settles O21: a block is clean, correctable or uncorrectable (`scrub_clean`, `scrub_correctable`, `scrub_uncorrectable`), the position
moves as `scrubNext` says, and a page move ends by `pageMoved_live`. -/
theorem scrubbing : Obligations.Scrubbing := by
  refine ⟨?_, ?_, ?_, ?_⟩
  · intro s find hon hdue p n kind clean
    have hgo : exec (.scrubBlock find) s = .next (s.scrub find) := by
      rw [exec_scrubBlock, execScrubBlock, done_eq, hon, hdue, Bool.and_self, when_true]
    rw [hgo]
    exact ⟨fun h => congrArg _ (State.scrub_clean h), fun hgood h => congrArg _ (State.scrub_correctable hgood h),
      fun hgood h => congrArg _ (State.scrub_uncorrectable hgood h)⟩
  · intro s h
    exact if_pos h
  · intro s h hp
    exact (if_neg (Nat.not_lt.2 h.ge)).trans (if_pos hp)
  · intro s p q k hp hu hmove hlive hpage b s1
    rw [exec_pageMoveComplete, execPageMoveComplete, unit_of (decide_eq_true hp), when_of hu, State.pageMoved_live hmove hlive hpage]

end Sys2Proof.Machine
end

section
/-!
PROOFS. The fabric and the temperature sensors: hems, lost domains, skew monitors and readings (R302 to R309, R655).
-/

namespace Sys2Proof.Machine

/-! ### Hems (R308, R309) -/

/-- A packet at the closed hem of a compute die is returned and counted (R308). -/
theorem State.atHem_closed {s : State} {d uid st op : Nat} {x : Transit} (hd : d < 8) (hx : s.transit uid st op = some x)
    (hm : s.meetsHem x d = true) : s.atHem d uid st op = s.bump (R.DIE_HEM_STATUS_RETURNED d) 1 := by
  simp only [State.atHem, hx]
  exact if_pos (by rw [hm, decide_eq_true hd]; rfl)

/-- An operation one of whose domains has closed its hem fails (R309). -/
theorem State.domainDown_oper {s : State} {uid st op d : Nat} {t : Step} {m : Stream} {o : Op}
    (hx : s.transit uid st op = some (.oper t m o)) (hd : d ∈ t.opDomains o) (hm : s.meetsHem (.oper t m o) d = true) :
    s.domainDown uid st op = s.operDown t m o st op := by
  have hany : ((Transit.oper t m o).ends.2.any fun d => s.meetsHem (.oper t m o) d) = true := List.any_eq_true.2 ⟨d, hd, hm⟩
  simp only [State.domainDown, hx, hany]
  rfl

/-! ### Skew monitors (R305) -/

/-- What a trip counts on a compute die; the crossings of the hub have no counter. -/
def State.countTrip (s : State) (d x : Nat) : State :=
  if d < 8 then (s.bump (R.DIE_XING_TRIP_COUNT d) 1).wr (R.DIE_XING_TRIP_HELD d) (putBit (s.rd (R.DIE_XING_TRIP_HELD d)) x true) else s

/-- Counting a trip changes registers only. -/
theorem State.countTrip_frame (s : State) (d x : Nat) : (s.countTrip d x).power = s.power ∧ (s.countTrip d x).mem = s.mem ∧
    (s.countTrip d x).errs = s.errs ∧ (s.countTrip d x).arr = s.arr ∧ (s.countTrip d x).steps = s.steps := by
  unfold State.countTrip
  split
  · simp
  · simp

/-- The count does not depend on the power state. -/
theorem State.countTrip_regs_with_power (s : State) (q : Power) (d x : Nat) :
    (State.countTrip { s with power := q } d x).regs = (s.countTrip d x).regs := by
  unfold State.countTrip
  split
  · rfl
  · rfl

/-- The crossing number `k` is held. -/
def State.holdCrossing (s : State) (k : Nat) : State := { s with power := { s.power with held := s.power.held ++ [k] } }

/-- The crossing's last record was raised at `now` (R305). -/
def State.noteSkew (s : State) (k now : Nat) : State :=
  { s with power := { s.power with skewLast := Tab.put (fun _ => 0) s.power.skewLast k (now + 1) } }

theorem State.skewTrip_held {s : State} {d x : Nat} (h : s.power.held.contains (d * 4 + x) = true) : s.skewTrip d x = s := if_pos h

/-- A trip of a crossing that was not held: it is held and counted, and the first in 10 ms raises a record. -/
theorem State.skewTrip_free {s : State} {d x : Nat} (h : s.power.held.contains (d * 4 + x) = false) :
    let last := Tab.get (fun _ => 0) s.power.skewLast (d * 4 + x)
    let s2 := (s.holdCrossing (d * 4 + x)).countTrip d x
    s.skewTrip d x = if last = 0 ∨ last + 10000000 ≤ s.now + 1 then (s2.noteSkew (d * 4 + x) s.now).raise Rc.voltSkew deviceClass noOwner d x
      else s2 := by
  intro last s2
  have hfree : ¬ s.power.held.contains (d * 4 + x) = true := by rw [h]; exact Bool.false_ne_true
  simp only [State.skewTrip, if_neg hfree]
  rfl

/-- The registers of a trip, and what it leaves as it was. -/
theorem State.trip_frame (s : State) (d x : Nat) :
    let t := (s.holdCrossing (d * 4 + x)).countTrip d x
    t.regs = (s.countTrip d x).regs ∧ t.power = { s.power with held := s.power.held ++ [d * 4 + x] } ∧ t.mem = s.mem ∧
      t.errs = s.errs ∧ t.arr = s.arr ∧ t.steps = s.steps :=
  ⟨s.countTrip_regs_with_power _ d x, (s.holdCrossing (d * 4 + x)).countTrip_frame d x⟩

/-! ### Readings (R655) -/

/-- A reading from −64 °C to below 186 °C reads back as it was taken. -/
theorem tempOf_tempField {t : Nat} (h : t < 1000) : tempOf (tempField t % 2 ^ 16) = (t : Int) - 256 := by
  simp only [tempOf, tempField, toSigned, ofSigned, Nat.reducePow, Nat.reduceSub]
  omega

/-- A reading of a compute die in RUN is written to its sensor's field. -/
theorem State.takeReading_die {s : State} {d i : Nat} (t : Nat) (hd : d < 8) (hi : i < 40) (hr : s.power.st = .run) :
    s.takeReading (d, i, t) = s.wr (R.THERM_SENSOR_TEMP d i) (tempField t) := by
  have hcount : i < sensorCount d := by rwa [sensorCount, if_pos hd]
  have hup : s.sensed d = true := by rw [State.sensed, if_pos hd, hr]; rfl
  have h9 : ¬ d = 9 := by omega
  have h10 : ¬ d = 10 := by omega
  simp only [State.takeReading, if_neg h10, if_pos (And.intro hcount hup), if_neg h9]

/-- Settles O29: a hem by `atHem_closed` and `domainDown_oper`, a trip by `skewTrip_held` and `skewTrip_free` with what it changes in
`trip_frame`, and a reading by `takeReading_die`. -/
theorem fabricEvents : Obligations.FabricEvents := by
  refine ⟨?_, ?_, ?_, ?_, ?_, ?_, ?_⟩
  · intro s d uid st op x hd hu hx hm
    rw [exec_packetAtHem, execPacketAtHem, unit_of (decide_eq_true (by omega)), when_of hu, State.atHem_closed hd hx hm]
  · intro s uid st op d t m o hu hx hd hm
    rw [exec_domainDown, execDomainDown, done_eq, when_of hu, State.domainDown_oper hx hd hm]
    rfl
  · intro s d x hok hu hfree last counted
    have hgo : exec (.skewMonitorTrip d x) s = .next (s.skewTrip d x) := by
      rw [exec_skewMonitorTrip, execSkewMonitorTrip, unit_of hok, when_of hu]
    obtain ⟨hregs, hpower, hmem, herrs, harr, hsteps⟩ := s.trip_frame d x
    refine ⟨fun hfirst => ⟨((s.holdCrossing (d * 4 + x)).countTrip d x).noteSkew (d * 4 + x) s.now, ?_, ?_, hregs, hmem, herrs, harr, hsteps⟩,
      fun hne hsoon => ⟨(s.holdCrossing (d * 4 + x)).countTrip d x, ?_, hpower, hregs, hmem, herrs, harr, hsteps⟩⟩
    · rw [hgo, State.skewTrip_free hfree, if_pos hfirst]
    · exact congrArg Power.held hpower
    · have hagain : ¬ (last = 0 ∨ last + 10000000 ≤ s.now + 1) := by omega
      rw [hgo, State.skewTrip_free hfree, if_neg hagain]
  · intro s d x hok hheld hu
    rw [exec_skewMonitorTrip, execSkewMonitorTrip, unit_of hok, when_of hu, State.skewTrip_held hheld]
  · intro s d x hok s1
    have hgo : exec (.skewMonitorRelease d x) s = .next (s.skewRelease d x).portOpen := by
      rw [exec_skewMonitorRelease, execSkewMonitorRelease, unit_of hok]
    refine ⟨fun hd => ?_, fun hd => ?_⟩
    · rw [hgo, State.skewRelease, if_pos hd]
    · rw [hgo, State.skewRelease, if_neg (by omega)]
  · intro s temps hu
    rw [exec_sensorSample, execSensorSample, done_eq, when_of hu]
    rfl
  · intro s d i t hd hi hr ht
    rw [State.takeReading_die t hd hi hr]
    exact ⟨by rw [State.sensor, State.rd_wr_same _ _ _ rfl]; exact tempOf_tempField ht, State.wr_mem _ _ _⟩

end Sys2Proof.Machine
end

section
/-!
PROOFS. Flits that arrive at a chain port: what becomes of a flit before its type matters, and what each type does (R568 to R588).
-/

namespace Sys2Proof.Machine

theorem flit_of {p : Nat} (hp : p < 4) (s : State) : flit p s = .next s := unit_of (portOk_of hp) s

/-! ### The serdes interface and the link (R302, R305, R570) -/

section held
variable {s : State} (ho : s.serdesOpen = false) (p : Nat) (f : Flit) (use : State → State)
include ho

/-- While the crossing of the serdes interface is held, a flit stays outside. -/
theorem State.receive_held : s.receive p f use = s := if_pos (by rw [ho]; exact Bool.or_true _)

theorem State.deliver_held : s.deliver p f use = s := State.receive_held ho p f _

theorem State.strange_held : s.strange p f = s := by
  unfold State.strange
  split
  · exact State.receive_held ho p f _
  · rfl

end held

section live
variable {s : State} {p : Nat} {f : Flit} (hl : s.portLive p = true) (ho : s.serdesOpen = true) (use : State → State)
include hl ho

/-- A flit with a bad CRC is counted and refused, whatever it would do. -/
theorem State.receive_badCrc (hc : f.crcOk = false) :
    s.receive p f use = (s.bump (R.CHAIN_PORT_COUNT_COUNT p 2) 1).refuseFlit p := by
  simp [State.receive, hl, ho, hc]

/-- Of an unsequenced flit only the link word counts. -/
theorem State.receive_unsequenced (hc : f.crcOk = true) (hu : unsequenced f.payload = true) : s.receive p f use = s.takeLink p f := by
  simp [State.receive, hl, ho, hc, hu]

/-- A sequenced flit out of order is refused. -/
theorem State.receive_outOfOrder (hc : f.crcOk = true) (hu : unsequenced f.payload = false)
    (hq : f.seq ≠ ((s.takeLink p f).port p).rxSeq) : s.receive p f use = (s.takeLink p f).refuseFlit p := by
  simp [State.receive, hl, ho, hc, hu, hq]

end live

/-! ### Sequenced flits in order (R569, R572, R577, R582) -/

/-- A sequenced flit that port `p` accepts: the next one, whole, at a live port. -/
structure State.InOrder (s : State) (p : Nat) (f : Flit) : Prop where
  live : s.portLive p = true
  serdes : s.serdesOpen = true
  crc : f.crcOk = true
  sequenced : unsequenced f.payload = false
  next : f.seq = ((s.takeLink p f).port p).rxSeq

/-- The state in which an accepted flit does what its type says. -/
def State.accepted (s : State) (p : Nat) (f : Flit) : State :=
  ((s.takeLink p f).modPort p fun a => a.accept f).bump (R.CHAIN_PORT_COUNT_COUNT p 1) 1

namespace State.InOrder
variable {s : State} {p : Nat} {f : Flit} (h : s.InOrder p f) (use : State → State)
include h

theorem receive : s.receive p f use = use (s.accepted p f) := by
  simp [State.receive, State.accepted, h.live, h.serdes, h.crc, h.sequenced, ← h.next]

theorem deliver_here (hd : f.dst = (s.accepted p f).rd R.CHAIN_STATUS_DEVICE_ID) (hg : (s.accepted p f).flitCurrent f = true) :
    s.deliver p f use = use (s.accepted p f) := by
  rw [State.deliver, h.receive, if_neg (not_not.2 hd), if_pos hg]

theorem deliver_stale (hd : f.dst = (s.accepted p f).rd R.CHAIN_STATUS_DEVICE_ID) (hg : (s.accepted p f).flitCurrent f = false) :
    s.deliver p f use = (s.accepted p f).discard p := by
  rw [State.deliver, h.receive, if_neg (not_not.2 hd), if_neg (by rw [hg]; exact Bool.false_ne_true)]

theorem deliver_noHop (hd : f.dst ≠ (s.accepted p f).rd R.CHAIN_STATUS_DEVICE_ID) (hh : f.hops = 0) :
    s.deliver p f use = (s.accepted p f).discard p := by
  rw [State.deliver, h.receive, if_pos hd, if_pos hh]

theorem deliver_onward (hd : f.dst ≠ (s.accepted p f).rd R.CHAIN_STATUS_DEVICE_ID) (hh : f.hops ≠ 0) :
    s.deliver p f use = (s.accepted p f).forward p f := by
  rw [State.deliver, h.receive, if_pos hd, if_neg hh]

end State.InOrder

/-! ### IDLE, TRAIN and DATA flits, and what each command takes (R569, R570) -/

theorem exec_idleFlit_of {s : State} {p : Nat} {f : Flit} (hp : p < 4) (hf : f.payload = .idle) :
    exec (.idleFlit p f) s = .next (s.receive p f id) := by
  rw [exec_idleFlit, execIdleFlit, hf, flit_of hp]

theorem exec_trainFlit_of {s : State} {p : Nat} {f : Flit} (hp : p < 4) (hf : f.payload = .train) :
    exec (.trainFlit p f) s = .next (s.receive p f id) := by
  rw [exec_trainFlit, execTrainFlit, hf, flit_of hp]

theorem exec_dataFlit_of {s : State} {p : Nat} {f : Flit} (hp : p < 4) {h o t : Nat} {l k : Bool} {bs : List Nat} (hf : f.payload = .data h o t l k bs) :
    exec (.dataFlit p f) s = .next (s.deliver p f fun s => s.takeData p f h o t ((bs.take 224).map (· % 256))) := by
  rw [exec_dataFlit, execDataFlit, hf, flit_of hp]

/-- A flit of a reserved type that is accepted is discarded and counted (R569). -/
theorem exec_dataFlit_reserved {s : State} {p n : Nat} {f : Flit} (hp : p < 4) (hf : f.payload = .reserved n) :
    exec (.dataFlit p f) s = .next (s.receive p f fun s => s.discard p) := by
  rw [exec_dataFlit, execDataFlit, hf, flit_of hp, State.strange, hf]

/-- A control message in order, whether of its link or of the chain, takes effect (R569). -/
theorem exec_ctrlFlit_here {s : State} {p : Nat} {f : Flit} (keyOk : Bool) {m : CtrlMsg} (hp : p < 4) (h : s.InOrder p f)
    (hd : f.dst = (s.accepted p f).rd R.CHAIN_STATUS_DEVICE_ID) (hg : (s.accepted p f).flitCurrent f = true) (hf : f.payload = .ctrl m) :
    exec (.ctrlFlit p f keyOk) s = .next ((s.accepted p f).takeCtrl p f keyOk m) := by
  rw [exec_ctrlFlit, execCtrlFlit, hf, flit_of hp]
  cases hm : linkMsg m with
  | true => simp only [hm, if_true, h.receive]
  | false => simp only [hm, Bool.false_eq_true, if_false, h.deliver_here _ hd hg]

/-- Settles O47: what becomes of a flit before its type matters is `receive_badCrc`, `_unsequenced`, `_outOfOrder` and `_held`; one in
order is delivered by the four lemmas of `State.InOrder`, and each command takes the payload of its own type. -/
theorem flitsArrive : Obligations.FlitsArrive := by
  refine ⟨?_, ?_, ?_, ?_, ?_, ?_⟩
  · intro s p f hp hl ho hc bad
    refine ⟨fun hf => ?_, fun hf => ?_, fun h o t l k bs hf => ?_⟩
    · rw [exec_idleFlit_of hp hf, State.receive_badCrc hl ho _ hc]
    · rw [exec_trainFlit_of hp hf, State.receive_badCrc hl ho _ hc]
    · rw [exec_dataFlit_of hp hf, State.deliver, State.receive_badCrc hl ho _ hc]
  · intro s p f hp hl ho hc
    refine ⟨fun hf => ?_, fun hf => ?_⟩
    · rw [exec_idleFlit_of hp hf, State.receive_unsequenced hl ho _ hc (by rw [hf]; rfl)]
    · rw [exec_trainFlit_of hp hf, State.receive_unsequenced hl ho _ hc (by rw [hf]; rfl)]
  · intro s p f keyOk hp hl ho hc hu s0 hq s1
    have hin : s.InOrder p f := ⟨hl, ho, hc, hu, hq⟩
    refine ⟨fun hd hg => ?_, fun h o t l k bs hf => ⟨fun hd hh => ?_, fun hd hh => ?_, fun hd hg => ?_⟩⟩
    · have here := fun use => congrArg (Host.Outcome.next (φ := Fault) (ρ := Refusal)) (hin.deliver_here use hd hg)
      refine ⟨fun h o t l k bs hf => ?_, fun t b st hf => ?_, fun h o st v hf => ?_, fun r n bs hf hr hlen => ?_, fun k r n bs hf hm => ?_,
        fun w a n t bs hf hm => ?_, fun t bs hf => ?_, fun w o v hf => ?_, fun w o v hf => ?_, fun m hf => ?_⟩
      · exact (exec_dataFlit_of hp hf).trans (here _)
      · rw [exec_xackFlit, execXackFlit, hf, flit_of hp]
        exact here _
      · rw [exec_pegFlit, execPegFlit, hf, flit_of hp]
        exact here _
      · rw [exec_descFlit, execDescFlit, hf, flit_of hp]
        exact (here _).trans (congrArg _ (if_pos ⟨hr, hlen⟩))
      · rw [exec_recordFlit, execRecordFlit, hf, flit_of hp]
        exact (here _).trans (congrArg _ (if_pos hm))
      · rw [exec_hostFlit, execHostFlit, hf, flit_of hp]
        exact (here _).trans (congrArg _ (if_pos hm))
      · rw [exec_hostRspFlit, execHostRspFlit, hf, flit_of hp]
        exact here _
      · rw [exec_regFlit, execRegFlit, hf, flit_of hp]
        exact here _
      · rw [exec_regFlit, execRegFlit, hf, flit_of hp]
        exact here _
      · exact exec_ctrlFlit_here keyOk hp hin hd hg hf
    · rw [exec_dataFlit_of hp hf, hin.deliver_noHop _ hd hh]
      rfl
    · rw [exec_dataFlit_of hp hf, hin.deliver_onward _ hd hh]
      rfl
    · rw [exec_dataFlit_of hp hf, hin.deliver_stale _ hd hg]
      rfl
  · intro s p f hp hl ho hc hu hq h o t l k bs hf
    rw [exec_dataFlit_of hp hf, State.deliver, State.receive_outOfOrder hl ho _ hc hu hq]
  · intro s p f n hp hl ho hc hf hq
    have hin : s.InOrder p f := ⟨hl, ho, hc, by rw [hf]; rfl, hq⟩
    rw [exec_dataFlit_reserved hp hf, hin.receive]
    rfl
  · intro s p f hp ho
    have stays : ∀ t : State, t = s → flit p t = .next s := fun t ht => (flit_of hp t).trans (congrArg _ ht)
    refine ⟨stays _ ?_, stays _ ?_, stays _ ?_, stays _ ?_, stays _ ?_, stays _ ?_, stays _ ?_, stays _ ?_, stays _ ?_, stays _ ?_,
      fun keyOk => stays _ ?_⟩
    all_goals
      simp only [State.receive_held ho, State.deliver_held ho, State.strange_held ho, ite_self]
      split <;> rfl

end Sys2Proof.Machine
end

section
/-!
PROOFS. The arithmetic of the vector unit on INT16 elements, and vector operations up to the results that they hold (R340, R341, R345,
R352).
-/

namespace Sys2Proof.Machine

/-! ### One INT16 element (R341) -/

/-- The two bytes of an INT16 number read back as that number (R15). -/
theorem int16s_leBytes {v : Int} (hlo : -32768 ≤ v) (hhi : v ≤ 32767) : int16s (leBytes 2 (ofSigned 16 v)) = [v] := by
  have hread : toSigned 16 (u16At (leBytes 2 (ofSigned 16 v)) 0) = v := by
    simp only [toSigned, u16At, leBytes, leNat, ofSigned, List.drop_zero, List.take_succ_cons, List.take_nil]
    split <;> omega
  have hlen : (leBytes 2 (ofSigned 16 v)).length = 2 := rfl
  rw [int16s, hlen]
  exact congrArg (fun x => [x]) hread

theorem sat16_of_bounds {v : Int} (hlo : -32768 ≤ v) (hhi : v ≤ 32767) : sat16 v = v := by
  rw [sat16_eq]
  omega

/-- In INT16 mode a two-operand operation on one element each saturates its value, and counts whether it did. -/
theorem vecTwo_one {b : List Nat} (hb : bit (u8At b 0x18) 0 = false) {x y : Int} (hx : -32768 ≤ x ∧ x ≤ 32767)
    (hy : -32768 ≤ y ∧ y ≤ 32767) (fi : Int → Int → Int) (ff : FV → FV → Nat) :
    vecTwo fi ff b (leBytes 2 (ofSigned 16 x)) (leBytes 2 (ofSigned 16 y)) =
      (leBytes 2 (ofSigned 16 (sat16 (fi x y))), if fi x y < -32768 ∨ 32767 < fi x y then 1 else 0) := by
  obtain ⟨hxlo, hxhi⟩ := hx
  obtain ⟨hylo, hyhi⟩ := hy
  rw [vecTwo, hb, int16s_leBytes hxlo hxhi, int16s_leBytes hylo hyhi, if_neg Bool.false_ne_true]
  refine Prod.ext (List.append_nil _) ?_
  by_cases h : fi x y < -32768 ∨ 32767 < fi x y <;> simp [satAll, countIf, h]

/-- Settles O12: each operation is `vecTwo` with its own function of the values, which `vecTwo_one` saturates; the larger of two INT16
numbers needs no saturation. -/
theorem vectorArithmetic : Obligations.VectorArithmetic := by
  intro x y hx hy one b
  have hone := vecTwo_one (b := b) (by decide) hx hy
  have hsat : ∀ fi ff {v : Int}, sat16 (fi x y) = v → (vecTwo fi ff b (one x) (one y)).1 = one v :=
    fun fi ff _ hv => (congrArg Prod.fst (hone fi ff)).trans (congrArg one hv)
  refine ⟨hsat _ _ (sat16_eq _), hsat _ _ (sat16_eq _), hsat _ _ ?_, hsat _ _ (sat16_eq _), congrArg Prod.snd (hone _ _)⟩
  exact sat16_of_bounds (le_max_of_le_left hx.1) (max_le hx.2 hy.2)

/-! ### Operands and the held result (R340, R345, R352) -/

/-- What the vector unit does with a started operation of `code` whose function is `f`: once both operands are read it holds the result
for the destination that the operation names, and otherwise the first access that failed fails its step. -/
def VectorCommandRuns (c : Nat → Nat → Nat → Instr) (code : Nat) (f : List Nat → List Nat → List Nat → List Nat × Nat) : Prop :=
  ∀ (s : State) (uid st op : Nat) (t : Step) (m : Stream) (o : Op), s.op? uid st op = some (t, m, o) → s.running = true →
    o.stage = 1 → o.code = code →
    let n := u32At o.bytes 0x14
    let ra := s.vecSource uid t.inst m.unit (u32At o.bytes 8) (2 * n) (u32At o.bytes 0x1C) (if code = 4 then u8At o.bytes 0x19 + 1 else 1)
    let nb := srcBBytes code n (u8At o.bytes 0x18)
    let rb := if nb = 0 then (ra.1, Access.ok []) else ra.1.vecSource uid t.inst m.unit (u32At o.bytes 0xC) nb 0 1
    let r := f o.bytes ra.2.bytes rb.2.bytes
    let held := [(0, m.unit, u32At o.bytes 0x10, r.1)]
    let bad := if ra.2.status ≠ St.ok then ra.2 else rb.2
    (bad.status = St.ok → exec (c uid st op) s =
      .next (((rb.1.bumpCore m.unit 1 r.2).spendFree (dieOf m.clusterNo) (20 * ((n + 63) / 64))).modOp uid st op fun p =>
        { p with stage := 2, result := held })) ∧
    (bad.status ≠ St.ok → exec (c uid st op) s = .next ((rb.1.failAccess uid bad o.step).opDone uid st op))

/-- A command whose meaning is `vecOp` runs so. -/
theorem vectorCommandRuns_of_exec {c : Nat → Nat → Nat → Instr} {code : Nat} {f : List Nat → List Nat → List Nat → List Nat × Nat}
    (hexec : ∀ s uid st op, exec (c uid st op) s = done (s.vecOp uid st op code f)) : VectorCommandRuns c code f := by
  intro s uid st op t m o ho hr h1 hc n ra nb rb r held bad
  refine ⟨fun hok => (hexec s uid st op).trans (congrArg done ?_), fun hbad => (hexec s uid st op).trans (congrArg done ?_)⟩
  · exact (State.onOp_started ho hr h1 hc _).trans (if_neg (not_not.2 hok))
  · exact (State.onOp_started ho hr h1 hc _).trans (if_pos hbad)

/-- All nine commands of the vector unit run so, whatever else the state holds. -/
theorem vectorCommands_run :
    VectorCommandRuns .act 0x03 vecAct ∧ VectorCommandRuns .pool 0x04 vecPool ∧ VectorCommandRuns .vecAdd 0x10 vecAdd ∧
      VectorCommandRuns .vecSub 0x11 vecSub ∧ VectorCommandRuns .vecMax 0x12 vecMax ∧ VectorCommandRuns .vecMul 0x13 vecMul ∧
      VectorCommandRuns .vecScale 0x14 vecScale ∧ VectorCommandRuns .vecCvt 0x15 vecCvt ∧ VectorCommandRuns .vecQuant 0x16 vecQuant :=
  ⟨vectorCommandRuns_of_exec exec_act, vectorCommandRuns_of_exec exec_pool, vectorCommandRuns_of_exec exec_vecAdd,
    vectorCommandRuns_of_exec exec_vecSub, vectorCommandRuns_of_exec exec_vecMax, vectorCommandRuns_of_exec exec_vecMul,
    vectorCommandRuns_of_exec exec_vecScale, vectorCommandRuns_of_exec exec_vecCvt, vectorCommandRuns_of_exec exec_vecQuant⟩

/-! ### Two steps of one number -/

/-- A started ACT (ReLU, no element) of the stream of engine 0, for this place in T0. -/
def reluOp (dst : Nat) : Op := ⟨[3] ++ List.replicate 10 0 ++ [0x80] ++ List.replicate 4 0 ++ leBytes 4 dst ++ List.replicate 12 0, 1, []⟩

/-- The core stream of that one operation. -/
def reluStream (dst : Nat) : Stream := ⟨false, 0, [reluOp dst], 1⟩

/-- The step of that one stream, under the number 1. -/
def reluStep (dst : Nat) : Step :=
  { (⟨0, [], []⟩ : Img).toStep ⟨1, 0, 0, 0, 0, [], true, none, 0⟩ [] with bound := true, streams := [reluStream dst] }

/-- A device in RUN with two such steps, for different places in T0. -/
def twoReluSteps : State :=
  ({ State.reset with board := { Board.reset with boot := 7 }, steps := [reluStep 0x40, reluStep 0x80] } : State).setFlag
    R.BOOT_STATUS_READY true

/-- The places in T0 for which the operations of a state hold results. -/
def State.heldPlaces (s : State) : List Nat :=
  s.steps.flatMap fun t => t.streams.flatMap fun m => m.ops.flatMap fun o => o.result.map fun r => r.2.2.1

theorem twoReluSteps_op : twoReluSteps.op? 1 0 0 = some (reluStep 0x40, reluStream 0x40, reluOp 0x40) := by decide +kernel

theorem twoReluSteps_running : twoReluSteps.running = true := by decide +kernel

/-- Refutes O11: inside the statement's `fun o => …` the destination is read from the operation that is being changed, while the meaning
reads it from the operation that was found (`vectorCommands_run`). Where two steps bear one number, as the statement does not exclude, the
second step's operation holds the result for the first one's place 0x40, and not for its own place 0x80. -/
theorem not_vectorOpsRun : ¬ Obligations.VectorOpsRun := by
  unfold Obligations.VectorOpsRun
  intro h
  obtain ⟨hact, -⟩ := h
  obtain ⟨hruns, -⟩ := vectorCommands_run
  obtain ⟨hstated, -⟩ := hact twoReluSteps 1 0 0 _ _ _ twoReluSteps_op twoReluSteps_running rfl rfl
  obtain ⟨hholds, -⟩ := hruns twoReluSteps 1 0 0 _ _ _ twoReluSteps_op twoReluSteps_running rfl rfl
  have hnext := (hholds (by decide +kernel)).symm.trans (hstated (by decide +kernel) (by decide +kernel))
  have hplaces := congrArg State.heldPlaces (Host.Outcome.next.inj hnext)
  revert hplaces
  decide +kernel

end Sys2Proof.Machine
end

section
/-!
PROOFS. RUN_STEP: a descriptor in its turn, and what the check of its image decides (R318, R319, R392, R405).
-/

namespace Sys2Proof.Machine

/-- A RUN_STEP that may start, in its turn, runs (R392, R401). -/
theorem exec_runStep_begun {s : State} {f w : Nat} {d : Desc} (hf : f ≤ 16) (hw : w < 16) (hb : s.begin f w 0x01 = some d)
    (hturn : s.stepTurn d = true) : exec (.runStep f w) s = .next ((s.started d.uid).runStep d) := by
  have hring : ringOk f w = true := decide_eq_true ⟨hf, hw⟩
  rw [exec_runStep, execRunStep, unit_of hring, State.runStepNext, hb]
  exact congrArg _ (if_pos hturn)

/-- A descriptor that starts leaves every buffer as it was. -/
@[simp] theorem State.inBuffer_started (s : State) (uid i tier u a n : Nat) :
    (s.started uid).inBuffer i tier u a n = s.inBuffer i tier u a n := Eq.trans rfl rfl

/-- A T2 area outside one buffer of the instance is a breach of row 1, found before anything is read (R318). -/
theorem State.checkedImage_outside {s : State} {d : Desc} (ht2 : bit (u16At d.bytes 0x14) 0 = false)
    (hout : s.inBuffer d.inst 2 (u32At d.bytes 0x10) (u64At d.bytes 0x18) (u64At d.bytes 0x20) = false) :
    s.checkedImage d = (s, .breach ⟨1, 0, 0⟩) :=
  if_pos (by rw [ht2, hout]; rfl)

/-- An image in host memory, or in a T2 buffer that can be reached, that is read and breaks no row of the check is accepted (R318, R319). -/
theorem State.checkedImage_good {s : State} {d : Desc} :
    let tier := if bit (u16At d.bytes 0x14) 0 then 4 else 2
    let h := u32At d.bytes 0x10
    let o := u64At d.bytes 0x18
    let area := u64At d.bytes 0x20
    (tier = 2 → s.inBuffer d.inst 2 h o area = true ∧ s.power.closed.contains 8 = false) →
    let r := s.readSpace d.inst tier h o 64
    r.2.status = St.ok → headBreach r.2.bytes area = none →
    let q := r.1.readSpace d.inst tier h o (max 64 (u64At r.2.bytes 8))
    q.2.status = St.ok →
    let im : Img := ⟨d.inst, q.2.bytes, q.1.outTable d.bytes⟩
    firstBreach (q.1.breaches im) = none → s.checkedImage d = (q.1, .ok im) := by
  intro tier h o area hreach r hr hhead q hq im hgood
  have ht2 : bit (u16At d.bytes 0x14) 0 = false → s.inBuffer d.inst 2 h o area = true ∧ s.power.closed.contains 8 = false :=
    fun hbit => hreach (if_neg (by rw [hbit]; exact Bool.false_ne_true))
  have harea : ¬ (!bit (u16At d.bytes 0x14) 0 && !s.inBuffer d.inst 2 h o area) = true := by
    simpa using fun hbit => (ht2 hbit).1
  have hopen : ¬ (!bit (u16At d.bytes 0x14) 0 && s.power.closed.contains 8) = true := by
    simpa using fun hbit => (ht2 hbit).2
  rw [State.checkedImage]
  refine (if_neg harea).trans ((if_neg hopen).trans ((if_neg (not_not.2 hr)).trans ?_))
  simp only [r, q, im, tier, h, o, area] at hhead hq hgood ⊢
  simp only [hhead, hq, hgood, ne_eq, not_true_eq_false, if_false]

/-- Settles O8: a good image is `checkedImage_good`, an area outside its buffer `checkedImage_outside`; an image
that fails its check waits for no turn (R401). -/
theorem runStepDecided : Obligations.RunStepDecided := by
  refine ⟨?_, ?_⟩
  · intro s f w d hf hw hb hturn s0 tier h o area hreach r hr hhead q hq im hgood
    rw [exec_runStep_begun hf hw hb hturn, State.runStep, State.checkedImage_good hreach hr hhead hq hgood]
    rfl
  · intro s f w d hf hw hb ht2 hout
    have hturn : s.stepTurn d = true := by
      rw [State.stepTurn, State.checkedImage_outside ht2 ((s.inBuffer_started d.uid _ _ _ _ _).symm.trans hout)]
    rw [exec_runStep_begun hf hw hb hturn, State.runStep, State.checkedImage_outside ht2 hout]
    rfl

end Sys2Proof.Machine
end

section
/-!
PROOFS. Peg values, wait conditions, and a peg operation in T0 (R356, R357, R359, R360, R376).
-/

namespace Sys2Proof.Machine

/-! ### Values and conditions (R357, R360) -/

/-- SET leaves its value, in the 32-bit mode too. -/
theorem pegResult_set (compat : Bool) (old : Nat) {v : Nat} (hv : v < 2 ^ 64) : pegResult compat true old v = v :=
  Nat.mod_eq_of_lt hv

/-- In the 32-bit mode ADD is an addition modulo 2^32 in the low half of the word. -/
theorem pegResult_compat_add (old v : Nat) :
    pegResult true false old v = old / 2 ^ 32 * 2 ^ 32 + (old + v) % 2 ^ 32 := by
  have hadd : pegResult true false old v = old - old % 2 ^ 32 + (old + v) % 2 ^ 32 := rfl
  omega

/-- The modulus of the values that a wait compares. -/
def pegModulus (compat : Bool) : Nat := if compat then 2 ^ 32 else 2 ^ 64

/-- WAIT_GE: the difference lies in the lower half of its range. -/
theorem waitHolds_ge (compat : Bool) (peg v : Nat) :
    waitHolds compat true peg v = true ↔
      (peg % pegModulus compat + pegModulus compat - v % pegModulus compat) % pegModulus compat < pegModulus compat / 2 :=
  decide_eq_true_iff

/-- WAIT_EQ: the compared parts are equal. -/
theorem waitHolds_eq (compat : Bool) (peg v : Nat) :
    waitHolds compat false peg v = true ↔ peg % pegModulus compat = v % pegModulus compat := by
  have hzero : waitHolds compat false peg v = true ↔
      (peg % pegModulus compat + pegModulus compat - v % pegModulus compat) % pegModulus compat = 0 := beq_iff_eq
  rw [hzero]
  cases compat with
  | true => simp only [pegModulus, if_true]; omega
  | false => simp only [pegModulus, Bool.false_eq_true, if_false]; omega

/-- Settles O16: `pegResult_set` and `pegResult_compat_add` give the values, `waitHolds_ge` and `waitHolds_eq` the conditions; values below
2^64 are their own residues. -/
theorem pegArithmetic : Obligations.PegArithmetic := by
  intro old v hold hv
  have hadd := pegResult_compat_add old v
  have hge := waitHolds_ge false old v
  have heq := waitHolds_eq false old v
  have hge32 := waitHolds_ge true old v
  simp only [pegModulus, Bool.false_eq_true, if_false, Nat.mod_eq_of_lt hold, Nat.mod_eq_of_lt hv] at hge heq
  refine ⟨rfl, fun c => pegResult_set c old hv, ?_, ?_, hge, heq, waitHolds_eq true old v, hge32⟩
  · omega
  · omega

/-! ### A T0 peg at its home (R356, R357) -/

theorem t0PegKey_inj {c core m n : Nat} (hm : m < 256) (hn : n < 256) : t0PegKey c m = t0PegKey core n ↔ c = core ∧ m = n := by
  rw [t0PegKey, t0PegKey]
  omega

/-- The value of a T0 peg is its word, whoever reads it. -/
theorem State.pegValue_t0 (s : State) (i core n : Nat) :
    s.pegValue i ⟨0, core, n⟩ = Tab.get (fun _ => 0) s.pegs.t0 (t0PegKey core n) := rfl

/-- An operation that makes no wait of the peg hold releases none (R359). -/
theorem State.releaseWaits_none {s : State} {l : PegLoc} {v : Nat}
    (h : ∀ w ∈ s.pegs.waits, w.on l = true → waitHolds w.compat w.ge v w.value = false) : s.releaseWaits l v = s := by
  have hmiss : ∀ w ∈ s.pegs.waits, (w.on l && waitHolds w.compat w.ge v w.value) = false := fun w hw => by
    cases hon : w.on l with
    | true => exact h w hw hon
    | false => rfl
  have hgo : s.pegs.waits.filter (fun w => w.on l && waitHolds w.compat w.ge v w.value) = [] :=
    List.filter_eq_nil_iff.2 fun w hw => Bool.eq_false_iff.1 (hmiss w hw)
  have hkeep : (s.pegs.waits.filter fun w => !(w.on l && waitHolds w.compat w.ge v w.value)) = s.pegs.waits :=
    List.filter_eq_self.2 fun w hw => by rw [hmiss w hw]; rfl
  rw [State.releaseWaits, hgo, List.foldl_nil, hkeep]

/-- What an operation that leaves `v` does to a T0 peg: its word and its last signaller (R356, R376). -/
def State.t0Put (s : State) (core n v id : Nat) : State :=
  { s with pegs := { s.pegs with
    t0 := Tab.put (fun _ => 0) s.pegs.t0 (t0PegKey core n) (v % 2 ^ 64)
    last := (s.pegs.last.filter fun e => !(e.1 == 0 && e.2.1 == core && e.2.2.1 == n)) ++ [(0, core, n, id, s.now)] } }

/-- ADD or SET on a T0 peg that makes no wait hold does nothing else (R357, R359). -/
theorem State.pegOp_t0 {s : State} {core n : Nat} (i v id : Nat) (compat set : Bool) (hn : n < 256) (hcore : core < nCores)
    (hw : ∀ w ∈ s.pegs.waits, w.on ⟨0, core, n⟩ = true →
      waitHolds w.compat w.ge (pegResult compat set (s.pegValue i ⟨0, core, n⟩) v) w.value = false) :
    s.pegOp i ⟨0, core, n⟩ compat set v id = s.t0Put core n (pegResult compat set (s.pegValue i ⟨0, core, n⟩) v) id := by
  have hpeg : (s.pegStore i ⟨0, core, n⟩ (pegResult compat set (s.pegValue i ⟨0, core, n⟩) v)).isPeg ⟨0, core, n⟩ = true :=
    decide_eq_true ⟨hn, hcore⟩
  have hput : (s.pegStore i ⟨0, core, n⟩ (pegResult compat set (s.pegValue i ⟨0, core, n⟩) v)).setSignaller ⟨0, core, n⟩ id =
      s.t0Put core n (pegResult compat set (s.pegValue i ⟨0, core, n⟩) v) id := if_pos hpeg
  refine Eq.trans (congrArg (fun t : State => t.releaseWaits ⟨0, core, n⟩ _) hput) ?_
  exact State.releaseWaits_none hw

/-- Settles O17: with no wait registered at the peg, `pegOp_t0` says all that the operation does. -/
theorem pegOpOnT0 : Obligations.PegOpOnT0 := by
  intro s i core n v id compat set hn hcore hw l t
  have ht : t = s.t0Put core n (pegResult compat set (s.pegValue i l) v) id :=
    State.pegOp_t0 i v id compat set hn hcore fun w hmem hon => by
      simp only [Wait.on, Bool.and_eq_true, beq_iff_eq, and_assoc] at hon
      exact absurd hon (hw w hmem)
  rw [ht]
  refine ⟨fun j => ?_, fun j c m hm hne => ?_, rfl, rfl, rfl, List.mem_append_right _ List.mem_cons_self⟩
  · rw [State.pegValue_t0]
    exact Tab.get_put_same _ _ _ _
  · rw [State.pegValue_t0, State.pegValue_t0]
    refine Tab.get_put_other _ _ _ fun hkey => ?_
    obtain ⟨hc, hm⟩ := (t0PegKey_inj hm hn).1 hkey
    exact hne.elim (absurd hc) (absurd hm)

end Sys2Proof.Machine
end

section
/-!
PROOFS. DMA_COPY: its check, the turns of the hub DMA engine, and the end of a copy (R362, R394, R395, R604).
-/

namespace Sys2Proof.Machine

/-- The copies that wait for the engine, replaced. -/
def State.setDma (s : State) (l : List DmaJob) : State := { s with rings := { s.rings with dma := l } }

@[simp] theorem State.setDma_dma (s : State) (l : List DmaJob) : (s.setDma l).rings.dma = l := rfl
theorem State.setDma_setDma (s : State) (l m : List DmaJob) : (s.setDma l).setDma m = s.setDma m := rfl

/-- The end of a descriptor leaves the copies in the engine's round. -/
@[simp] theorem State.complete_dma (s : State) (uid status detail : Nat) :
    (s.complete uid status detail).rings.dma = s.rings.dma := by
  unfold State.complete State.completeC
  split
  · rfl
  · exact foldl_proj (fun t : State => t.rings.dma) (fun a _ => congrArg Rings.dma (State.setFlag_rings a _ _)) _ _

/-! ### The engine's turns (R395) -/

/-- The round ends once no byte of the named copy is left to move. -/
theorem State.dmaServe_moved {s : State} {uid : Nat} (n : Nat) (h : ∀ k ∈ s.rings.dma, k.desc = uid → k.len ≤ k.moved) :
    s.dmaServe uid n = s := by
  have hnone : (s.rings.dma.any fun k => k.desc == uid && decide (k.moved < k.len)) = false := by
    simpa using h
  cases n with
  | zero => rfl
  | succ n => rw [State.dmaServe, hnone]; rfl

/-- A copy that stands first has the turn. -/
theorem State.dmaServe_front {s : State} {j : DmaJob} {rest : List DmaJob} {d : Desc} (n : Nat) (hfront : s.rings.dma = j :: rest)
    (hd : s.desc? j.desc = some d) (hmore : j.moved < j.len) :
    s.dmaServe j.desc (n + 1) = (s.dmaPiece d.inst j).dmaServe j.desc n := by
  have hany : (s.rings.dma.any fun k => k.desc == j.desc && decide (k.moved < k.len)) = true := by
    simp [hfront, hmore]
  rw [State.dmaServe, hany]
  simp only [hfront, hd, Bool.not_true, Bool.false_eq_true, if_false]

/-- The turn of a copy of one piece whose way is open: its blocks are copied, or one of them ends the copy (R395, R604). -/
theorem State.dmaPiece_whole {s : State} {i : Nat} {j : DmaJob} (hmirror : s.dmaMirror i j = none) (h0 : j.moved = 0) (hpos : 0 < j.len)
    (hlen : j.len ≤ 65536) (hfree : s.dmaFree j j.len = true) :
    let r := s.dmaBlocks i j 0 (j.len / 64)
    let others := s.rings.dma.filter fun k => k.desc != j.desc
    s.dmaPiece i j = if r.2.2 = St.ok then r.1.setDma (others ++ [{ j with moved := j.len }])
      else (r.1.setDma others).complete j.desc r.2.2 r.2.1 := by
  have hn : min dmaPieceBytes (j.len - j.moved) = j.len := by rw [dmaPieceBytes]; omega
  have hgo : ¬ (!s.dmaFree j j.len || (s.dmaMirror i j).isSome || j.len == 0) = true := by
    simp [hfree, hmirror, hpos.ne']
  rw [State.dmaPiece]
  dsimp only
  rw [hn, if_neg hgo, h0, Nat.zero_add]
  rfl

/-- The copy that has just had its turn is the one of its number in the round. -/
theorem dmaRound_find (l : List DmaJob) (k : DmaJob) :
    ((l.filter fun x => x.desc != k.desc) ++ [k]).find? (fun x => x.desc == k.desc) = some k := by
  have hnone : (l.filter fun x => x.desc != k.desc).find? (fun x => x.desc == k.desc) = none :=
    List.find?_eq_none.2 fun x hx => by simpa using (List.mem_filter.1 hx).2
  rw [List.find?_append, hnone, Option.none_or]
  exact List.find?_cons_of_pos (beq_self_eq_true _)

/-- Without it the round holds the other copies. -/
theorem dmaRound_filter (l : List DmaJob) (k : DmaJob) :
    ((l.filter fun x => x.desc != k.desc) ++ [k]).filter (fun x => x.desc != k.desc) = l.filter fun x => x.desc != k.desc := by
  simp

/-! ### The end of a copy (R362, R394) -/

theorem State.dmaEnd_noPeg (s : State) (i : Nat) {j : DmaJob} (h : j.pegAlias = none) : s.dmaEnd i j = s.complete j.desc St.ok 0 := by
  rw [State.dmaEnd, h]

/-- The completion peg that can be reached is signalled before the record. -/
theorem State.dmaEnd_peg {s : State} {i a : Nat} {j : DmaJob} (h : j.pegAlias = some a) (hok : s.aliasOk i a = true)
    (hopen : s.power.closed.contains (pegDomain (s.aliasLoc i a)) = false) :
    s.dmaEnd i j = (s.pegOp i (s.aliasLoc i a) (s.compat i) false j.pegValue (pegId 5 i 256)).complete j.desc St.ok 0 := by
  rw [State.dmaEnd, h]
  dsimp only
  rw [hok, hopen]
  rfl

theorem State.dmaPegPasses_noPeg (s : State) (i : Nat) {j : DmaJob} (h : j.pegAlias = none) : s.dmaPegPasses i j = true := by
  rw [State.dmaPegPasses, h]

theorem State.dmaPegPasses_open {s : State} {i a : Nat} {j : DmaJob} (h : j.pegAlias = some a)
    (hway : s.heldTo hubSide (pegDomain (s.aliasLoc i a)) = false) : s.dmaPegPasses i j = true := by
  rw [State.dmaPegPasses, h]
  dsimp only
  rw [hway]
  exact Bool.or_true _

section done
variable {s : State} {uid : Nat} {j : DmaJob} {d : Desc} (hj : s.rings.dma.find? (fun j => j.desc == uid) = some j)
  (hd : s.desc? uid = some d) (hmirror : s.dmaMirror d.inst j = none)
include hj hd hmirror

/-- A copy that its own turn has stopped is no longer there. -/
theorem State.dmaDone_stopped
    (hk : (s.dmaServe uid (s.dmaTurns j)).rings.dma.find? (fun k => k.desc == uid) = none) :
    s.dmaDone uid = s.dmaServe uid (s.dmaTurns j) := by
  simp only [State.dmaDone, hj, hd, hmirror, hk]

variable {k : DmaJob} (hk : (s.dmaServe uid (s.dmaTurns j)).rings.dma.find? (fun k => k.desc == uid) = some k)
include hk

/-- A copy that has bytes to move, whose peg cannot be reached or whose writes are not acknowledged waits (R305, R362). -/
theorem State.dmaDone_waits (hwait : k.moved < k.len ∨ (s.dmaServe uid (s.dmaTurns j)).dmaPegPasses d.inst k = false ∨
      (s.dmaServe uid (s.dmaTurns j)).hostAcked d.inst = false) :
    s.dmaDone uid = s.dmaServe uid (s.dmaTurns j) := by
  simp only [State.dmaDone, hj, hd, hmirror, hk]
  refine if_pos ?_
  simpa [or_assoc] using hwait

/-- A moved copy leaves the round and ends. -/
theorem State.dmaDone_moved (hmoved : k.len ≤ k.moved) (hpeg : (s.dmaServe uid (s.dmaTurns j)).dmaPegPasses d.inst k = true)
    (hack : (s.dmaServe uid (s.dmaTurns j)).hostAcked d.inst = true) :
    let u := s.dmaServe uid (s.dmaTurns j)
    s.dmaDone uid = (u.setDma (u.rings.dma.filter fun k => k.desc != uid)).dmaEnd d.inst k := by
  simp only [State.dmaDone, hj, hd, hmirror, hk]
  refine if_neg ?_
  simp [hpeg, hack, hmoved]

end done

/-! ### A copy of one piece (R395, R604) -/

section piece
variable {s : State} {j : DmaJob} {rest : List DmaJob} {d : Desc} (hfront : s.rings.dma = j :: rest)
  (hd : s.desc? j.desc = some d) (hmirror : s.dmaMirror d.inst j = none) (h0 : j.moved = 0) (hpos : 0 < j.len)
  (hlen : j.len ≤ 65536) (hfree : s.dmaFree j j.len = true)
include hfront hd hmirror h0 hpos hlen hfree

/-- One turn moves or stops the copy, and the round is over. -/
theorem State.dmaServe_piece :
    let r := s.dmaBlocks d.inst j 0 (j.len / 64)
    let others := s.rings.dma.filter fun k => k.desc != j.desc
    s.dmaServe j.desc (s.dmaTurns j) = if r.2.2 = St.ok then r.1.setDma (others ++ [{ j with moved := j.len }])
      else (r.1.setDma others).complete j.desc r.2.2 r.2.1 := by
  intro r others
  obtain ⟨n, hn⟩ : ∃ n, s.dmaTurns j = n + 1 := Nat.exists_eq_succ_of_ne_zero (Nat.mul_ne_zero (Nat.succ_ne_zero _) (Nat.succ_ne_zero _))
  have hothers : ∀ k ∈ others, k.desc ≠ j.desc := fun k hk => by simpa using (List.mem_filter.1 hk).2
  have hturn := State.dmaPiece_whole hmirror h0 hpos hlen hfree
  rw [hn, State.dmaServe_front n hfront hd (by omega), State.dmaServe_moved n, hturn]
  rw [hturn]
  split
  · intro k hk hkj
    obtain hk | hk := List.mem_append.1 hk
    · exact absurd hkj (hothers k hk)
    · rw [List.mem_singleton.1 hk]
  · intro k hk hkj
    rw [State.complete_dma] at hk
    exact absurd hkj (hothers k hk)

theorem State.dmaDone_copied (hok : (s.dmaBlocks d.inst j 0 (j.len / 64)).2.2 = St.ok) (hpeg : j.pegAlias = none)
    (hack : (s.dmaBlocks d.inst j 0 (j.len / 64)).1.hostAcked d.inst = true) :
    s.dmaDone j.desc = ((s.dmaBlocks d.inst j 0 (j.len / 64)).1.setDma (s.rings.dma.filter fun k => k.desc != j.desc)).complete
      j.desc St.ok 0 := by
  have hj : s.rings.dma.find? (fun k => k.desc == j.desc) = some j := by simp [hfront]
  have hserve := (State.dmaServe_piece hfront hd hmirror h0 hpos hlen hfree).trans (if_pos hok)
  have hmine : (s.dmaServe j.desc (s.dmaTurns j)).rings.dma.find? (fun k => k.desc == j.desc) = some { j with moved := j.len } := by
    rw [hserve]
    exact dmaRound_find _ { j with moved := j.len }
  have hother : (s.dmaServe j.desc (s.dmaTurns j)).rings.dma.filter (fun k => k.desc != j.desc) =
      s.rings.dma.filter fun k => k.desc != j.desc := by
    rw [hserve]
    exact dmaRound_filter _ { j with moved := j.len }
  have hdone := State.dmaDone_moved hj hd hmirror hmine le_rfl (State.dmaPegPasses_noPeg _ _ hpeg) (by rw [hserve]; exact hack)
  refine hdone.trans ((State.dmaEnd_noPeg _ _ hpeg).trans ?_)
  rw [hother, hserve, State.setDma_setDma]

/-- The block that failed has ended the copy, with the blocks copied before as DETAIL (R604). -/
theorem State.dmaDone_poisoned (hbad : (s.dmaBlocks d.inst j 0 (j.len / 64)).2.2 ≠ St.ok) :
    let r := s.dmaBlocks d.inst j 0 (j.len / 64)
    s.dmaDone j.desc = (r.1.setDma (s.rings.dma.filter fun k => k.desc != j.desc)).complete j.desc r.2.2 r.2.1 := by
  have hj : s.rings.dma.find? (fun k => k.desc == j.desc) = some j := by simp [hfront]
  have hserve := (State.dmaServe_piece hfront hd hmirror h0 hpos hlen hfree).trans (if_neg hbad)
  have hgone : (s.dmaServe j.desc (s.dmaTurns j)).rings.dma.find? (fun k => k.desc == j.desc) = none := by
    rw [hserve]
    simp
  exact (State.dmaDone_stopped hj hd hmirror hgone).trans hserve

end piece

/-! ### The two commands -/

/-- The check of the ranges (R395). -/
theorem State.dmaStart_eq (s : State) (d : Desc) :
    let j := dmaJob d
    s.dmaStart d = if (s.sideOk d.inst j.srcSpace j.srcUnit j.srcOff j.len && s.sideOk d.inst j.dstSpace j.dstUnit j.dstOff j.len) = true
      then s.setDma (s.rings.dma ++ [j]) else s.complete d.uid St.descRange 0 := rfl

theorem exec_dmaCopyComplete_of {s : State} {uid : Nat} (hu : s.hubUp = true) (hsent : s.dmaSent uid = false) :
    exec (.dmaCopyComplete uid) s = .next (s.dmaDone uid) := by
  rw [exec_dmaCopyComplete, execDmaCopyComplete, done_eq, when_of (by rw [hu, hsent]; rfl)]

/-- Settles O20: `dmaStart_eq` is the check; after the engine's turns a copy is stopped, waits or is moved (`dmaDone_stopped`, `dmaDone_waits`,
`dmaDone_moved`), and `dmaEnd_peg` gives its peg; one piece is `dmaDone_copied` and `dmaDone_poisoned`. -/
theorem dmaCopies : Obligations.DmaCopies := by
  refine ⟨?_, ?_, ?_⟩
  · intro s f w d hf hw hb s0 j ok
    have hgo : exec (.dmaCopy f w) s = .next (s0.dmaStart d) := unit_onDesc_begun hf hw hb _
    rw [hgo, State.dmaStart_eq]
    exact ⟨fun hok => congrArg _ (if_pos hok), fun hbad => congrArg _ (if_neg (Bool.eq_false_iff.1 hbad))⟩
  · intro s uid j d hu hsent hj hd hmirror u off
    rw [exec_dmaCopyComplete_of hu hsent]
    refine ⟨fun hk => ?_, fun k hk hwait => ?_, fun k hk hmoved hack hpeg => ?_, fun k a hk hmoved hack hpeg hok hopen hway => ?_⟩
    · exact congrArg _ (State.dmaDone_stopped hj hd hmirror hk)
    · exact congrArg _ (State.dmaDone_waits hj hd hmirror hk hwait)
    · have hdone := State.dmaDone_moved hj hd hmirror hk hmoved (State.dmaPegPasses_noPeg u _ hpeg) hack
      exact congrArg _ (hdone.trans (State.dmaEnd_noPeg _ _ hpeg))
    · have hdone := State.dmaDone_moved hj hd hmirror hk hmoved (State.dmaPegPasses_open (s := u) hpeg hway) hack
      exact congrArg _ (hdone.trans (State.dmaEnd_peg (s := off u) hpeg hok hopen))
  · intro s j rest d hu hsent hfront hd hmirror h0 hpos hlen hfree r t
    rw [exec_dmaCopyComplete_of hu hsent]
    refine ⟨fun hok hpeg hack => ?_, fun hbad => ?_⟩
    · exact congrArg _ (State.dmaDone_copied hfront hd hmirror h0 hpos hlen hfree hok hpeg hack)
    · exact congrArg _ (State.dmaDone_poisoned hfront hd hmirror h0 hpos hlen hfree hbad)

end Sys2Proof.Machine
end

section
/-!
PROOFS. Which commands have a meaning: a check of the operands that the opcode table's ranges and the meaning state differently.
-/

namespace Sys2Proof.Machine

/-- Refutes O54: the table takes any reference number, while REFERENCE_RECALIBRATION faults past the last engine (98,304 of the decks and
the 64 of the guard plane). -/
theorem not_everyCommandRuns : ¬ Obligations.EveryCommandRuns := by
  intro h
  obtain ⟨t, ht⟩ := (h (.referenceRecalibration 98368) State.reset).1 rfl
  have hfault : exec (.referenceRecalibration 98368) State.reset = .fault .noSuchUnit := by
    rw [exec_referenceRecalibration, execReferenceRecalibration]
    exact if_neg (by decide)
  exact nomatch hfault.symm.trans ht

end Sys2Proof.Machine
end

section
/-!
PROOFS. The cap in force (R538).
-/

namespace Sys2Proof.Machine

/-- The steps of the cap in legacy bias mode (R538). -/
def legacyStep (c : Nat) : Nat := if 180000 ≤ c then 180000 else if 120000 ≤ c then 120000 else if 90000 ≤ c then 90000 else 60000

theorem legacyStep_mem (c : Nat) : legacyStep c ∈ [60000, 90000, 120000, 180000] := by
  unfold legacyStep
  repeat' split
  all_goals decide

theorem legacyStep_le {c : Nat} (h : 60000 ≤ c) : legacyStep c ≤ c := by
  unfold legacyStep
  repeat' split
  all_goals assumption

/-- It is the largest of the four that does not exceed the cap. -/
theorem le_legacyStep {c x : Nat} (hx : x ∈ [60000, 90000, 120000, 180000]) (h : x ≤ c) : x ≤ legacyStep c := by
  simp only [List.mem_cons, List.not_mem_nil, or_false] at hx
  unfold legacyStep
  repeat' split
  all_goals omega

theorem legacyStep_low {c : Nat} (h : c < 60000) : legacyStep c = 60000 := by
  unfold legacyStep
  rw [if_neg (by omega), if_neg (by omega), if_neg (by omega)]

/-- CAP, or the smaller of CAP and the chain budget where one is set (R538, R550). -/
def State.capSet (s : State) : Nat :=
  if s.rd R.PRESS_CHAIN_BUDGET_MW = 0 then s.capMw else min s.capMw (s.rd R.PRESS_CHAIN_BUDGET_MW)

/-- A budget that is set and below the cap is the smaller of the two. -/
theorem smaller_of_set (b m : Nat) : (if (b != 0 && decide (b < m)) = true then b else m) = if b = 0 then m else min m b := by
  by_cases h0 : b = 0
  · simp [h0]
  · by_cases hlt : b < m
    · simp [h0, hlt, Nat.min_eq_right hlt.le]
    · simp [h0, hlt, Nat.min_eq_left (Nat.le_of_not_lt hlt)]

theorem State.capApplied_eq (s : State) : s.capApplied = if s.legacy = true then legacyStep s.capSet else s.capSet := by
  have hb : (if s.budgeted = true then s.rd R.PRESS_CHAIN_BUDGET_MW else s.capMw) = s.capSet := smaller_of_set _ _
  simp only [State.capApplied, hb, legacyStep]

/-- Settles O60: `capApplied_eq`, and the steps of legacy mode. -/
theorem capInForce : Obligations.CapInForce := by
  intro s b c
  have hc : c = s.capSet := rfl
  rw [State.capApplied_eq, hc]
  refine ⟨fun hl => if_neg (Bool.eq_false_iff.1 hl), fun hl hlow => ?_, fun hl hlow => ?_⟩
  · rw [if_pos hl]
    exact legacyStep_low hlow
  · rw [if_pos hl]
    exact ⟨legacyStep_mem _, legacyStep_le hlow, fun x hx hxc => le_legacyStep hx hxc⟩

end Sys2Proof.Machine
end

section
/-!
PROOFS. SPDM over DOE (R434, R435).
-/

namespace Sys2Proof.Machine

/-- On a steady device the answer is shown, and nothing else changes (R434). -/
theorem State.answer_steady {s : State} (h : s.steady = true) (l : List Nat) :
    s.answer l = ({ s with board := { s.board with spdm := l } } : State) := by
  rw [State.answer, when_of (State.steady_hubUp h)]
  exact State.pcieTouch_of 0 h rfl

@[simp] theorem State.steady_skip (s : State) (n : Nat) : (s.skip n).steady = s.steady := Eq.trans rfl rfl

/-- Settles O32: each request by its answer (`answer_steady`), GET_MEASUREMENTS by its index. -/
theorem spdmAnswers : Obligations.SpdmAnswers := by
  intro s hs ans
  have hans : ∀ l, s.answer l = ans s l := State.answer_steady hs
  refine ⟨congrArg _ (hans _), congrArg _ (hans _), congrArg _ (hans _), congrArg _ (hans _), fun slot off len h0 => ?_,
    fun off len => congrArg _ (hans _), fun slot nonce h0 => ?_, fun nonce => ?_, fun nonce => congrArg _ (hans _),
    fun index nonce h1 h5 => ?_, fun index sign nonce h5 hall => ?_, fun code => congrArg _ (hans _)⟩
  · rw [exec_getCertificate, execGetCertificate, if_neg h0, hans]; rfl
  · rw [exec_challenge, execChallenge, if_neg h0, hans]; rfl
  · exact congrArg _ (State.answer_steady ((State.steady_skip s 1).trans hs) _)
  · have h255 : index ≠ 0xFF := by omega
    have h0 : index ≠ 0 := by omega
    simp only [exec_getMeasurements, execGetMeasurements, State.measurements, h5, h0, h255, true_or, if_true, if_false,
      Bool.false_eq_true]
    exact congrArg _ (hans _)
  · rw [exec_getMeasurements, execGetMeasurements, State.measurements, if_neg (by omega), hans]; rfl

end Sys2Proof.Machine
end

section
/-!
PROOFS. Fields at offsets of a byte list, little-endian, and the header of a camera slot (R484).
-/

namespace Sys2Proof.Machine

/-! ### Fields of byte lists -/

@[simp] theorem length_leBytes (n v : Nat) : (leBytes n v).length = n := by
  induction n generalizing v with
  | zero => rfl
  | succ n ih => rw [leBytes, List.length_cons, ih]

theorem leNat_leBytes (n v : Nat) : leNat (leBytes n v) = v % 256 ^ n := by
  induction n generalizing v with
  | zero => rw [pow_zero, Nat.mod_one]; rfl
  | succ n ih => rw [leBytes, leNat, ih, Nat.pow_succ', Nat.mod_mul]

/-- The number that the `n` bytes from offset `o` spell. -/
def numAt (n : Nat) (b : List Nat) (o : Nat) : Nat := leNat ((b.drop o).take n)

theorem u16At_eq (b : List Nat) (o : Nat) : u16At b o = numAt 2 b o := rfl
theorem u32At_eq (b : List Nat) (o : Nat) : u32At b o = numAt 4 b o := rfl
theorem u64At_eq (b : List Nat) (o : Nat) : u64At b o = numAt 8 b o := rfl

/-- Past the end of the first list, the offset counts in the second. -/
theorem numAt_append {n o : Nat} {a : List Nat} (b : List Nat) (h : a.length ≤ o) : numAt n (a ++ b) o = numAt n b (o - a.length) := by
  rw [numAt, numAt, List.drop_append, List.drop_eq_nil_of_le h, List.nil_append]

/-- A number that fits its bytes reads back. -/
theorem numAt_leBytes {n v : Nat} (b : List Nat) (h : v < 256 ^ n) : numAt n (leBytes n v ++ b) 0 = v := by
  rw [numAt, List.drop_zero, List.take_append_of_le_length (length_leBytes n v).ge, List.take_of_length_le (length_leBytes n v).le,
    leNat_leBytes, Nat.mod_eq_of_lt h]

theorem u8At_append {o : Nat} {a : List Nat} (b : List Nat) (h : a.length ≤ o) : u8At (a ++ b) o = u8At b (o - a.length) :=
  List.getD_append_right a b 0 o h

/-! ### The slot header -/

/-- Settles O39: each field by its place among the fields before it (`numAt_append`), where it reads back (`numAt_leBytes`). -/
theorem slotHeader : Obligations.SlotHeader := by
  intro c x hc hvc hdt hseq hframe hstatus hstart hend hbytes hlines hstride
  have hcrc : min x.crcLines 0xFFFF < 256 ^ 2 := Nat.lt_of_le_of_lt (Nat.min_le_right _ _) (by norm_num)
  have hecc : min x.eccFixed 0xFFFF < 256 ^ 2 := Nat.lt_of_le_of_lt (Nat.min_le_right _ _) (by norm_num)
  simp (disch := simp) only [Ctx.header, List.append_assoc, u16At_eq, u32At_eq, u64At_eq, numAt_append, u8At_append, length_leBytes,
    List.length_cons, List.length_nil, Nat.reduceAdd, Nat.reduceSub]
  exact ⟨by simp, numAt_leBytes _ hseq, numAt_leBytes _ hframe, numAt_leBytes _ hstatus, numAt_leBytes _ hstart, numAt_leBytes _ hend,
    numAt_leBytes _ hbytes, numAt_leBytes _ hlines, numAt_leBytes _ hcrc, numAt_leBytes _ hecc, rfl, rfl, rfl, numAt_leBytes _ hstride⟩

end Sys2Proof.Machine
end

section
/-!
PROOFS. What programming and erasing leave in the flash (R556).
-/

namespace Sys2Proof.Machine

theorem Tab.get_clearKeys {α : Type} (d : Nat → α) (p : Nat → Bool) (t : Tab α) (k : Nat) :
    Tab.get d (Tab.clearKeys p t) k = if p k = true then d k else Tab.get d t k := by
  induction t with
  | nil => simp [Tab.clearKeys]
  | cons e t ih =>
    obtain ⟨a, v⟩ := e
    rw [Tab.clearKeys] at ih
    by_cases ha : p a = true
    · by_cases hk : k = a
      · subst hk
        simp [Tab.clearKeys, ih, ha]
      · simp [Tab.clearKeys, Tab.get, ih, ha, hk]
    · by_cases hk : k = a
      · subst hk
        simp [Tab.clearKeys, Tab.get, ha]
      · simp [Tab.clearKeys, Tab.get, ih, ha, hk]

/-- One byte of the flash. -/
theorem State.flashRead_one (s : State) (a : Nat) : s.flashRead a 1 = [(Tab.get erased s.flash.bytes a).toNat] := rfl

/-- Counting the words programmed leaves the bytes alone (R557). -/
theorem State.countWords_bytes (s : State) (a n : Nat) : (s.countWords a n).flash.bytes = s.flash.bytes :=
  foldl_proj (f := State.countWord) (fun t => t.flash.bytes) (fun _ _ => rfl) _ _

/-- What is programmed: byte by byte the AND of what the range held and the data. -/
def State.anded (s : State) (a : Nat) (data : List Nat) : List Nat := ((s.flashRead a data.length).zip data).map fun p => p.1 &&& p.2

theorem State.programBytes_bytes (s : State) (a : Nat) (data : List Nat) :
    (s.programBytes a data).flash.bytes = cellsWrite erased s.flash.bytes a (s.anded a data) :=
  State.countWords_bytes _ _ _

theorem State.anded_length (s : State) (a : Nat) (data : List Nat) : (s.anded a data).length = data.length := by
  simp [State.anded, State.flashRead, cellsRead]

theorem State.anded_getD (s : State) (a : Nat) {data : List Nat} {j : Nat} (h : j < data.length) :
    (s.anded a data).getD j 0 = (s.flashRead (a + j) 1).getD 0 0 &&& data.getD j 0 := by
  simp [State.anded, State.flashRead, cellsRead, h]

/-- Settles O45: programming writes `anded` in its range (`cellsWrite_same`, `cellsWrite_other`), and erasing clears the keys of the sector. -/
theorem flashContents : Obligations.FlashContents := by
  refine ⟨fun s a data hdata => ⟨fun j hj => ?_, fun b hb => ?_⟩, fun s a _ => ⟨fun b hlo hhi => ?_, fun b hb => ?_⟩⟩
  · have hbyte : (s.flashRead (a + j) 1).getD 0 0 &&& data.getD j 0 < 256 := by
      refine Nat.lt_of_le_of_lt Nat.and_le_right ?_
      rw [List.getD_eq_getElem _ _ hj]
      exact hdata _ (List.getElem_mem hj)
    rw [State.flashRead_one, State.programBytes_bytes, cellsWrite_same _ _ _ _ _ ((State.anded_length s a data).symm ▸ hj),
      State.anded_getD s a hj, BitVec.toNat_ofNat, Nat.mod_eq_of_lt hbyte]
  · rw [State.flashRead_one, State.flashRead_one, State.programBytes_bytes,
      cellsWrite_other _ _ _ _ _ ((State.anded_length s a data).symm ▸ hb)]
  · have hin : decide ((sectorOf a).1 ≤ b ∧ b < (sectorOf a).1 + (sectorOf a).2) = true := decide_eq_true ⟨hlo, hhi⟩
    rw [State.flashRead_one, State.eraseSector]
    dsimp only
    rw [Tab.get_clearKeys, if_pos hin]
    rfl
  · have hout : ¬ decide ((sectorOf a).1 ≤ b ∧ b < (sectorOf a).1 + (sectorOf a).2) = true := by
      rw [decide_eq_true_iff]
      omega
    rw [State.flashRead_one, State.flashRead_one, State.eraseSector]
    dsimp only
    rw [Tab.get_clearKeys, if_neg hout]

end Sys2Proof.Machine
end

section
/-!
PROOFS. Error records: the words that a record stands in, what raising one does, and its 32 bytes (R589 to R601).
-/

namespace Sys2Proof.Machine

/-! ### Words from a key upward -/

theorem State.word_setWords_other (s : State) {j k : Nat} (l : List Nat) (h : j < k ∨ k + 4 * l.length ≤ j) :
    (s.setWords k l).word j = s.word j := by
  induction l generalizing s k with
  | nil => rfl
  | cons w t ih =>
    rw [List.length_cons] at h
    rw [State.setWords, ih _ (by omega), State.word_setWord_other _ _ (by omega)]

theorem State.word_setWords_same (s : State) (k : Nat) {l : List Nat} {j : Nat} (h : j < l.length) :
    (s.setWords k l).word (k + 4 * j) = l.getD j 0 % 2 ^ 32 := by
  induction l generalizing s k j with
  | nil => simp at h
  | cons w t ih =>
    rw [State.setWords]
    cases j with
    | zero => rw [State.word_setWords_other _ _ (by omega), Nat.mul_zero, Nat.add_zero, State.word_setWord_same, List.getD_cons_zero]
    | succ j =>
      rw [show k + 4 * (j + 1) = k + 4 + 4 * j by ring, ih _ _ (Nat.lt_of_succ_lt_succ h), List.getD_cons_succ]

/-! ### The 32 bytes of a record (R590) -/

theorem Record.bytes_length (r : Record) (phase : Bool) : (r.bytes phase).length = 32 := by
  simp [Record.bytes]

/-- CTRL: class, phase, the mark of a masked copy, and that of a chain device. -/
theorem recordCtrl {cls : Nat} (h : cls < 8) (phase masked chain : Bool) :
    let b := cls % 8 + 8 * b2n phase + 16 * b2n masked + 32 * b2n chain
    fld b 2 0 = cls ∧ bit b 3 = phase ∧ bit b 4 = masked ∧ bit b 5 = chain := by
  revert phase masked chain
  interval_cases cls <;> decide

theorem b2n_le_one (b : Bool) : b2n b ≤ 1 := by cases b <;> decide

theorem recordCtrl_lt (cls : Nat) (phase masked chain : Bool) : cls % 8 + 8 * b2n phase + 16 * b2n masked + 32 * b2n chain < 256 := by
  have hcls : cls % 8 < 8 := Nat.mod_lt _ (by decide)
  have h1 := b2n_le_one phase
  have h2 := b2n_le_one masked
  have h3 := b2n_le_one chain
  omega

theorem leBytes_lt (n v : Nat) : ∀ b ∈ leBytes n v, b < 256 := by
  induction n generalizing v with
  | zero => exact fun b hb => absurd hb List.not_mem_nil
  | succ n ih =>
    intro b hb
    rcases List.mem_cons.1 hb with rfl | hb
    · exact Nat.mod_lt _ (by decide)
    · exact ih _ b hb

theorem leNat_lt {l : List Nat} (h : ∀ b ∈ l, b < 256) : leNat l < 256 ^ l.length := by
  induction l with
  | nil => exact Nat.one_pos
  | cons b t ih =>
    have hb := h b List.mem_cons_self
    have ht := ih fun c hc => h c (List.mem_cons_of_mem _ hc)
    rw [leNat, List.length_cons, Nat.pow_succ']
    omega

theorem numAt_lt {l : List Nat} (h : ∀ b ∈ l, b < 256) (n o : Nat) : numAt n l o < 256 ^ n := by
  have hpart : ∀ b ∈ (l.drop o).take n, b < 256 := fun b hb => h b (List.mem_of_mem_drop (List.mem_of_mem_take hb))
  exact Nat.lt_of_lt_of_le (leNat_lt hpart) (Nat.pow_le_pow_right (by decide) (List.length_take_le n _))

theorem Record.bytes_lt {r : Record} (hinst : r.inst < 256) (hdev : r.device < 256) (hgen : r.genLo < 256) (phase : Bool) :
    ∀ b ∈ r.bytes phase, b < 256 := by
  have hctrl := recordCtrl_lt r.cls phase r.masked r.chain
  have hmid : ∀ b ∈ [r.cls % 8 + 8 * b2n phase + 16 * b2n r.masked + 32 * b2n r.chain, r.inst, r.device, r.genLo], b < 256 := by
    simp only [List.mem_cons, List.not_mem_nil, or_false]
    rintro b (rfl | rfl | rfl | rfl) <;> assumption
  intro b hb
  simp only [Record.bytes, List.mem_append] at hb
  rcases hb with ((((hb | hb) | hb) | hb) | hb) | hb
  · exact leBytes_lt _ _ b hb
  · exact hmid b hb
  all_goals exact leBytes_lt _ _ b hb

theorem Record.words_length (r : Record) (phase : Bool) : (wordsOf (r.bytes phase)).length = 8 := by
  simp [wordsOf, Record.bytes_length]

theorem Record.words_getD (r : Record) (phase : Bool) {j : Nat} (h : j < 8) :
    (wordsOf (r.bytes phase)).getD j 0 = u32At (r.bytes phase) (4 * j) := by
  simp [wordsOf, Record.bytes_length, h]

/-- Eight words that a record was written to hold its bytes, when each byte is one. -/
theorem State.word_setWords_record (s : State) (k : Nat) {r : Record} (hb : ∀ b ∈ r.bytes false, b < 256) {j : Nat} (h : j < 8) :
    (s.setWords k (wordsOf (r.bytes false))).word (k + 4 * j) = u32At (r.bytes false) (4 * j) := by
  rw [State.word_setWords_same _ _ ((Record.words_length r false).symm ▸ h), Record.words_getD _ _ h]
  exact Nat.mod_eq_of_lt (numAt_lt hb 4 (4 * j))

theorem State.chainId_lt (s : State) : s.chainId.getD 0 < 256 := by
  unfold State.chainId
  split
  · exact Nat.lt_of_lt_of_le (fld_lt _ _ _) (by decide)
  · decide

theorem State.newRecord_bytes_lt (s : State) (code cls : Nat) {owner : Nat} (i0 i1 : Nat) (h : owner < 256) :
    ∀ b ∈ (s.newRecord code cls owner i0 i1).bytes false, b < 256 := by
  refine Record.bytes_lt h (State.chainId_lt s) ?_ false
  dsimp only [State.newRecord]
  split
  · decide
  · exact Nat.mod_lt _ (by decide)

/-! ### Which fields a record leaves alone -/

theorem State.rd_irq (s : State) (en : Bool) (v : Nat) {f : RField} (hf : f.msb < 32) (h : f.key < fnBase) : (s.irq en v).rd f = s.rd f :=
  State.rd_of_word hf (State.word_irq s en v h)

theorem State.rd_setWords_below (s : State) {k : Nat} (l : List Nat) {f : RField} (hf : f.msb < 32) (h : f.key < k) :
    (s.setWords k l).rd f = s.rd f :=
  State.rd_of_word hf (State.word_setWords_other s l (.inl h))

/-- Counting a record touches CLASS_COUNT and SEQ alone (R591). -/
theorem State.rd_countRecord (s : State) {cls : Nat} {f : RField} (h : (R.ERRLOG_CLASS_COUNT_COUNT cls).apart f = true) :
    (s.countRecord cls).rd f = s.rd f := by
  rw [State.countRecord, State.bump, State.rd_wr_other _ _ _ _ (by rfl) h, State.rd_with_errs]

/-- A field below the entries of the log, other than TAIL and OVERFLOW, reads the same after a record entered it. -/
theorem State.rd_logRecord (s : State) (r : Record) {f : RField} (hf : f.msb < 32) (hk : f.key < 0xB1000)
    (ht : R.ERRLOG_TAIL_POSITION.apart f = true) (ho : R.ERRLOG_STATUS_OVERFLOW.apart f = true) : (s.logRecord r).rd f = s.rd f := by
  unfold State.logRecord
  split
  · rfl
  · dsimp only
    split
    · rw [State.rd_irq _ _ _ hf (by unfold fnBase; omega), State.rd_uartLine, State.rd_wr_other _ _ _ _ rfl ht,
        State.rd_setWords_below _ _ hf (by omega)]
    · exact State.rd_wr_other _ _ _ _ rfl ho

theorem classCount_apart (cls : Nat) {f : RField} (h : f.key + 4 < 0xB0020) : (R.ERRLOG_CLASS_COUNT_COUNT cls).apart f = true := by
  apply RField.apart_of_keys <;> simp only [R.ERRLOG_CLASS_COUNT_COUNT] <;> omega

/-! ### A record below FATAL (R591, R592, R597) -/

/-- Entering a record into a log that has room and is not frozen. -/
theorem State.logRecord_room {s : State} (r : Record) (hf : s.flag R.ERRLOG_STATUS_FROZEN = false)
    (hroom : posCount (s.rd R.ERRLOG_TAIL_POSITION) (s.rd R.ERRLOG_HEAD_POSITION) 64 < 64) :
    s.logRecord r = ((((s.setWords (0xB1000 + 0x20 * (s.rd R.ERRLOG_TAIL_POSITION % 64)) (wordsOf (r.bytes false))).wr R.ERRLOG_TAIL_POSITION
      (s.rd R.ERRLOG_TAIL_POSITION + 1)).uartLine (r.bytes false)).irq (s.flag R.ERRLOG_CTRL_IRQ_EN && decide (3 ≤ r.cls))
        (s.rd R.ERRLOG_CTRL_VECTOR)) := by
  simp only [State.logRecord, hf, hroom, Bool.false_eq_true, if_false, if_true]

theorem State.raise_below {s : State} {cls : Nat} (code owner i0 i1 : Nat) (hc : cls < fatalClass) (hh : s.halted = false)
    (ha : s.hubAsleep = false) : s.raise code cls owner i0 i1 = ((s.countRecord cls).logRecord (s.newRecord code cls owner i0 i1)).queueRecord
      (s.newRecord code cls owner i0 i1) (s.recordDests (s.newRecord code cls owner i0 i1)) := by
  simp only [State.raise, State.raiseTo, hh, ha, Nat.ne_of_lt hc, Bool.false_eq_true, if_false, if_true]

theorem State.flag_congr_rd {s t : State} {f : RField} (h : t.rd f = s.rd f) : t.flag f = s.flag f := by
  rw [State.flag, State.flag, h]

theorem State.raise_halted {s : State} (h : s.halted = true) (code cls owner i0 i1 : Nat) : s.raise code cls owner i0 i1 = s.countRecord cls := by
  simp only [State.raise, State.raiseTo, h, if_true, ite_self]

/-! ### A FATAL record (R600, R601) -/

theorem State.raise_fatal {s : State} (code owner i0 i1 : Nat) (hh : s.halted = false) :
    s.raise code fatalClass owner i0 i1 = (((if s.hubAsleep then s.countRecord fatalClass else
      (s.countRecord fatalClass).logRecord (s.newRecord code fatalClass owner i0 i1)).halt (s.newRecord code fatalClass owner i0 i1)).tellMaster
        (s.newRecord code fatalClass owner i0 i1)) := by
  simp only [State.raise, hh, Bool.false_eq_true, if_false, if_true]

/-- A field apart from the first FATAL record and its marks reads the same after a halt. -/
theorem State.rd_halt (s : State) (r : Record) {f : RField} (hf : f.msb < 32) (hk : f.key < 0xB0100)
    (h1 : R.ERRLOG_STATUS_FATAL.apart f = true) (h2 : R.ERRLOG_STATUS_FROZEN.apart f = true) : (s.halt r).rd f = s.rd f := by
  have hv : R.ERRLOG_FATAL_VALID_VALID.apart f = true := by
    simp [RField.apart, RField.narrow, R.ERRLOG_FATAL_VALID_VALID, hf]
    omega
  unfold State.halt
  rw [State.rd_setFlag_other _ _ _ _ rfl h2, State.rd_setFlag_other _ _ _ _ rfl h1]
  split
  · exact State.rd_with_errs _ _ _
  · rw [State.rd_setFlag_other _ _ _ _ rfl hv, State.rd_setWords_below _ _ hf hk, State.rd_with_errs]

/-- What every FATAL record leaves: the marks of ERRLOG.STATUS and FATAL_VALID, FAULT_n and the halt. -/
theorem State.halt_marks (s : State) (r : Record) :
    (s.halt r).flag R.ERRLOG_STATUS_FATAL = true ∧ (s.halt r).flag R.ERRLOG_STATUS_FROZEN = true ∧
      (s.halt r).flag R.ERRLOG_FATAL_VALID_VALID = true ∧ (s.halt r).errs.faultPin = true := by
  unfold State.halt
  refine ⟨?_, State.flag_setFlag_same _ _ _ (by decide), ?_, ?_⟩
  · rw [State.flag_setFlag_other _ _ _ _ rfl rfl]
    exact State.flag_setFlag_same _ _ _ (by decide)
  · rw [State.flag_setFlag_other _ _ _ _ rfl rfl, State.flag_setFlag_other _ _ _ _ rfl rfl]
    split
    · next hv => exact (State.flag_with_errs _ _ _).trans hv
    · exact State.flag_setFlag_same _ _ _ (by decide)
  · rw [State.setFlag_errs, State.setFlag_errs]
    split
    · rfl
    · rw [State.setFlag_errs, State.setWords_errs]

/-- The first FATAL record stands in FATAL_RECORD (R601). -/
theorem State.halt_record {s : State} {r : Record} (hv : s.flag R.ERRLOG_FATAL_VALID_VALID = false) (hb : ∀ b ∈ r.bytes false, b < 256)
    {j : Nat} (hj : j < 8) : (s.halt r).word (0xB0100 + 4 * j) = u32At (r.bytes false) (4 * j) := by
  have hstatus : ∀ (t : State) (f : RField) (b : Bool), f.key = 0xB0000 ∨ f.key = 0xB0120 → f.msb < 32 →
      (t.setFlag f b).word (0xB0100 + 4 * j) = t.word (0xB0100 + 4 * j) := by
    intro t f b hk hm
    rw [State.setFlag, State.wr, if_pos hm, State.word_setWord_other _ _ (by omega)]
  unfold State.halt
  rw [hstatus _ _ _ (.inl rfl) (by decide), hstatus _ _ _ (.inl rfl) (by decide), if_neg (by rw [hv]; decide),
    hstatus _ _ _ (.inr rfl) (by decide), State.word_setWords_record _ _ hb hj]

/-- Telling the master of a chain queues a copy and touches nothing else (R579). -/
theorem State.tellMaster_faultPin (s : State) (r : Record) : (s.tellMaster r).errs.faultPin = s.errs.faultPin := by
  unfold State.tellMaster
  split <;> rfl

/-! ### What counting and queueing change in the record engine -/

theorem State.countRecord_seq (s : State) (cls : Nat) : (s.countRecord cls).errs.seq = (s.errs.seq + 1) % 65536 := by
  rw [State.countRecord, State.bump_errs]

theorem State.countRecord_toRings (s : State) (cls : Nat) : (s.countRecord cls).errs.toRings = s.errs.toRings := by
  rw [State.countRecord, State.bump_errs]

theorem State.queueRecord_seq (s : State) (r : Record) (d : List (Nat × Bool)) : (s.queueRecord r d).errs.seq = s.errs.seq := Eq.trans rfl rfl

theorem State.queueRecord_toRings (s : State) (r : Record) (d : List (Nat × Bool)) : (s.queueRecord r d).errs.toRings =
    s.errs.toRings ++ d.map fun x => (⟨x.1, if x.2 then r.mask else r⟩ : RingJob) := Eq.trans rfl rfl

theorem State.halted_queueRecord (s : State) (r : Record) (d : List (Nat × Bool)) : (s.queueRecord r d).halted = s.halted := by
  rw [State.halted, State.halted, State.flag_queueRecord, State.queueRecord_board]

theorem State.halted_countRecord (s : State) (cls : Nat) : (s.countRecord cls).halted = s.halted := by
  rw [State.halted, State.halted, State.flag_congr_rd (State.rd_countRecord s (classCount_apart cls (by decide))), State.countRecord_board]

theorem State.uartLine_extest (s : State) (bs : List Nat) : (s.uartLine bs).board.extest = s.board.extest := by
  unfold State.uartLine
  split <;> rfl

theorem State.logRecord_extest (s : State) (r : Record) : (s.logRecord r).board.extest = s.board.extest := by
  unfold State.logRecord
  split
  · rfl
  · dsimp only
    split
    · rw [State.irq_board, State.uartLine_extest, State.wr_board, State.setWords_board]
    · rw [State.bump_board]

theorem State.halted_logRecord (s : State) (r : Record) : (s.logRecord r).halted = s.halted := by
  rw [State.halted, State.halted, State.flag_congr_rd (State.rd_logRecord s r (by decide) (by decide) rfl rfl), State.logRecord_extest]

/-- Settles O51: a record below FATAL by `raise_below` and `logRecord_room`, a FATAL one by `raise_fatal` and what `halt` leaves, one after a
halt by `raise_halted`; the fields of the 32 bytes by `numAt_append`. -/
theorem recordsRaised : Obligations.RecordsRaised := by
  refine ⟨?_, ?_, fun s code cls owner i0 i1 hh => State.raise_halted hh _ _ _ _ _, ?_⟩
  · intro s code cls owner i0 i1 hc howner hh ha hf hroom r t
    have hcount : ∀ f : RField, f.key + 4 < 0xB0020 → (s.countRecord cls).rd f = s.rd f := fun f hk =>
      State.rd_countRecord s (classCount_apart cls hk)
    have hlog := State.logRecord_room (s := s.countRecord cls) r ((State.flag_congr_rd (hcount _ (by decide))).trans hf)
      (by rw [hcount _ (by decide), hcount _ (by decide)]; exact hroom)
    have ht : t = ((s.countRecord cls).logRecord r).queueRecord r (s.recordDests r) := State.raise_below code owner i0 i1 hc hh ha
    have htail : t.rd R.ERRLOG_TAIL_POSITION = (s.rd R.ERRLOG_TAIL_POSITION + 1) % 128 := by
      rw [ht, State.rd_queueRecord, hlog, State.rd_irq _ _ _ (by decide) (by decide), State.rd_uartLine, State.rd_wr_same _ _ _ rfl,
        hcount _ (by decide)]
      rfl
    have hrec : ∀ j, j < 8 → t.word (0xB1000 + 0x20 * (s.rd R.ERRLOG_TAIL_POSITION % 64) + 4 * j) = u32At (r.bytes false) (4 * j) := by
      intro j hj
      rw [ht, State.word_queueRecord, hlog, State.word_irq _ _ _ (by unfold fnBase; omega), State.word_uartLine,
        State.word_wr_other _ _ _ _ (by simp only [R.ERRLOG_TAIL_POSITION]; omega) (by simp only [R.ERRLOG_TAIL_POSITION]; omega),
        hcount _ (by decide)]
      exact State.word_setWords_record _ _ (State.newRecord_bytes_lt s code cls i0 i1 howner) hj
    have hhalted : t.halted = false := by
      rw [ht, State.halted_queueRecord, State.halted_logRecord, State.halted_countRecord, hh]
    refine ⟨?_, ?_, htail, hrec, hhalted, ?_⟩
    · rw [ht, State.queueRecord_seq, State.logRecord_errs, State.countRecord_seq]
    · rw [ht, State.queueRecord_toRings, State.logRecord_errs, State.countRecord_toRings]
    · rw [ht, State.queueRecord_mem, State.logRecord_mem, State.countRecord_mem]
  · intro s code owner i0 i1 howner hh t
    have ht : t = _ := State.raise_fatal code owner i0 i1 hh
    obtain ⟨hfatal, hfrozen, hvalid, hpin⟩ := State.halt_marks (if s.hubAsleep then s.countRecord fatalClass else
      (s.countRecord fatalClass).logRecord (s.newRecord code fatalClass owner i0 i1)) (s.newRecord code fatalClass owner i0 i1)
    have hmark : ∀ f, t.flag f = _ := fun f => (congrArg (fun x : State => x.flag f) ht).trans (State.flag_tellMaster _ _ f)
    refine ⟨?_, ?_, (hmark _).trans hfatal, (hmark _).trans hfrozen, (hmark _).trans hvalid, ?_, fun hv j hj => ?_⟩
    · rw [State.halted, (hmark _).trans hfatal, Bool.true_or]
    · rw [ht, State.tellMaster_faultPin, hpin]
    · exact State.raise_mem ..
    · have hfirst : (if s.hubAsleep then s.countRecord fatalClass else (s.countRecord fatalClass).logRecord
          (s.newRecord code fatalClass owner i0 i1)).flag R.ERRLOG_FATAL_VALID_VALID = false := by
        have hc : (s.countRecord fatalClass).flag R.ERRLOG_FATAL_VALID_VALID = false :=
          (State.flag_congr_rd (State.rd_countRecord s rfl)).trans hv
        split
        · exact hc
        · exact (State.flag_congr_rd (State.rd_logRecord _ _ (by decide) (by decide) rfl rfl)).trans hc
      rw [ht, State.word_tellMaster]
      exact State.halt_record hfirst (State.newRecord_bytes_lt s code fatalClass i0 i1 howner) hj
  · intro r phase hcode hcls hinst hdev hgen hseq htime h0 h1
    obtain ⟨hfld, hphase, hmasked, hchain⟩ := recordCtrl hcls phase r.masked r.chain
    refine ⟨Record.bytes_length r phase, ?_⟩
    simp (disch := simp) only [Record.bytes, List.append_assoc, u16At_eq, u64At_eq, numAt_append, u8At_append, length_leBytes,
      List.length_cons, List.length_nil, Nat.reduceAdd, Nat.reduceSub]
    exact ⟨numAt_leBytes _ hcode, hfld, hphase, hmasked, hchain, rfl, rfl, rfl, numAt_leBytes _ hseq, numAt_leBytes _ htime,
      numAt_leBytes _ h0, numAt_leBytes (b := []) h1⟩

end Sys2Proof.Machine
end

section
/-!
PROOFS. Fetch of descriptors, NOP and FENCE, and completion records (R387 to R391, R397, R403 to R407).
-/

namespace Sys2Proof.Machine

/-! ### Fetch (R388) -/

/-- No waiting descriptor is for another device, so none leaves. -/
theorem State.forwardAll_local {s : State} {f w : Nat} (h : ∀ e ∈ s.rings.descs, e.started = true ∨ dDevice e.bytes = 0) :
    s.forwardAll f w = s := by
  have hnone : ∀ n, s.forwardReady f w n = s := by
    intro n
    cases n with
    | zero => rfl
    | succ n =>
      unfold State.forwardReady
      split
      · rfl
      · next d hd =>
        have hwait : d.started = false := by
          have := List.find?_some hd
          simp only [Bool.and_eq_true, Bool.not_eq_true'] at this
          exact this.2
        have hdev : dDevice d.bytes = 0 := (h d (List.mem_of_find?_eq_some hd)).resolve_left (by rw [hwait]; decide)
        exact if_neg (by simp [hdev])
  exact hnone _

/-- The descriptor that the slot at WR_HEAD holds (R388). -/
def State.headDesc (s : State) (f w : Nat) : Desc :=
  let z := s.wrSize f w
  let p := posOf (s.rd (R.WR_HEAD_POSITION f w)) z
  ⟨s.rings.nextUid, f, w, p % z, (s.inst f).gen, s.hostRead (s.rd (R.WR_BASE_BASE f w) * 4096 + (p % z) * 64) 64, false, none, s.now⟩

/-- A fetched descriptor that passes its check joins the table, and WR_HEAD moves on (R388, R390). -/
theorem State.fetchOne_passes {s : State} {f w : Nat} (h : s.fetchStatus f (s.headDesc f w).bytes = St.ok) :
    let s1 := s.wr (R.WR_HEAD_POSITION f w)
      (regOf (posNext (posOf (s.rd (R.WR_HEAD_POSITION f w)) (s.wrSize f w)) (s.wrSize f w)) (s.wrSize f w))
    s.fetchOne f w = ({ s1 with rings := { s1.rings with
      nextUid := s1.rings.nextUid + 1, descs := s1.rings.descs ++ [s.headDesc f w] } } : State).busyNow :=
  if_neg (not_not.2 h)

/-- The turn passes to the next ring. -/
def State.turnPassed (s : State) (f w : Nat) : State := { s with rings := { s.rings with turn := (f * 16 + w + 1) % 272 } }

/-- The check of a descriptor does not ask whose turn it is (R390). -/
theorem State.fetchStatus_turnPassed (s : State) (f w i : Nat) (b : List Nat) : (s.turnPassed f w).fetchStatus i b = s.fetchStatus i b := by
  have hreach : (s.turnPassed f w).reachable = s.reachable := by
    funext d
    simp only [State.reachable]
    rfl
  have halias : (s.turnPassed f w).aliasOk i = s.aliasOk i := rfl
  rw [State.fetchStatus, State.fetchStatus, hreach, halias]
  rfl

theorem State.fetch_single {s : State} {f w : Nat} (hmay : s.mayFetch f w = true) (hturn : s.myTurn f w = true) (hann : 0 < s.announced f w) :
    s.fetch f w 1 = (s.turnPassed f w).fetchOne f w := by
  have hmin : min 1 (s.announced f w) = 1 := Nat.min_eq_left hann
  have hgo : (s.mayFetch f w && s.myTurn f w && decide (0 < min 1 (s.announced f w))) = true := by rw [hmay, hturn, hmin]; rfl
  rw [State.fetch, when_of hgo]
  dsimp only
  rw [Nat.min_eq_left (by decide : 1 ≤ 8), hmin]
  rfl

/-! ### NOP and FENCE (R391, R397) -/

theorem exec_nop_begun {s : State} {f w : Nat} {d : Desc} (hf : f ≤ 16) (hw : w < 16) (hb : s.begin f w 0x00 = some d) :
    exec (.nop f w) s = .next ((s.started d.uid).complete d.uid St.ok 0) :=
  unit_onDesc_begun hf hw hb _

theorem exec_fence_met {s : State} {f w : Nat} {d : Desc} (hf : f ≤ 16) (hw : w < 16) (hb : s.begin f w 0x09 = some d)
    (hmet : s.fenceMet d = true) : exec (.fence f w) s = .next ((s.started d.uid).complete d.uid St.ok 0) := by
  have hring : ringOk f w = true := decide_eq_true ⟨hf, hw⟩
  rw [exec_fence, execFence, unit_of hring, State.fence, hb]
  exact congrArg _ (if_pos hmet)

/-! ### Completion (R403, R406) -/

theorem State.dropDesc_running {s : State} (uid : Nat) (h : s.rings.stopping = []) :
    s.dropDesc uid = { s with rings := { s.rings with descs := s.rings.descs.filter fun d => d.uid != uid, stopping := [] } } := by
  simp only [State.dropDesc, h, List.filter_nil, List.foldl_nil]

/-- The completion record of a descriptor (R403). -/
def State.recordOf (s : State) (d : Desc) (status detail : Nat) : CRec :=
  ⟨d.uid, d.inst, d.ring, d.slot, d.gen, dId d.bytes, dType d.bytes, dIrq d.bytes, status, detail, s.doneRing d.inst d.ring, none, d.fromDev,
    (s.chain.hostWrites.filter fun w => w.2 == d.inst).map Prod.fst⟩

theorem State.complete_found {s : State} {uid : Nat} {d : Desc} (status detail : Nat) (hd : s.desc? uid = some d) (h : s.rings.stopping = []) :
    s.complete uid status detail = ({ s with rings := { s.rings with
      descs := s.rings.descs.filter fun d => d.uid != uid, stopping := [],
      due := s.rings.due ++ [s.recordOf d status detail] } } : State).busyNow := by
  have huid : d.uid = uid := by simpa using List.find?_some hd
  subst huid
  rw [State.complete, State.completeC, hd]
  dsimp only
  rw [State.dropDesc_running d.uid h]
  rfl

/-- Settles O5: a single fetch is `fetchOne_passes`, after which nothing leaves (`forwardAll_local`); NOP and FENCE end as they begin, and an end
is `complete_found`. -/
theorem descriptorsRun : Obligations.DescriptorsRun := by
  unfold Obligations.DescriptorsRun
  refine ⟨⟨?_, fun s f w d hf hw hb => ?_, fun s f w d hf hw hb hmet => ?_⟩, ?_⟩
  · intro s f w hf hw hmay hturn hann hlocal z p b hok hdev
    have hring : ringOk f w = true := decide_eq_true ⟨hf, hw⟩
    have hone := State.fetchOne_passes ((State.fetchStatus_turnPassed s f w f _).trans hok)
    have hdescs : ((s.turnPassed f w).fetchOne f w).rings.descs = s.rings.descs ++ [s.headDesc f w] := by
      rw [hone, State.busyNow]
      dsimp only
      rw [State.wr_rings]
      rfl
    refine ⟨(s.turnPassed f w).fetchOne f w, ?_, ?_, hdescs, ?_, ?_, ?_, ?_, ?_⟩
    · have hstay : ∀ e ∈ ((s.turnPassed f w).fetchOne f w).rings.descs, e.started = true ∨ dDevice e.bytes = 0 := by
        rw [hdescs]
        intro e he
        rcases List.mem_append.1 he with he | he
        · exact hlocal e he
        · rw [List.mem_singleton.1 he]
          exact .inr hdev
      rw [exec_descriptorFetch, execDescriptorFetch, unit_of hring, State.fetch_single hmay hturn hann, State.forwardAll_local hstay]
    all_goals rw [hone]
    · rfl
    · rw [State.busyNow]
      dsimp only
      rw [State.wr_rings]
      rfl
    · rw [State.busyNow]
      dsimp only
      rw [State.wr_rings]
      rfl
    · exact State.wr_mem (s.turnPassed f w) _ _
    · exact State.wr_arr (s.turnPassed f w) _ _
    · exact State.wr_insts (s.turnPassed f w) _ _
  · exact exec_nop_begun hf hw hb
  · exact exec_fence_met hf hw hb hmet
  · intro s uid status detail d hd hstop
    rw [State.complete_found status detail hd hstop]
    have huid : d.uid = uid := by simpa using List.find?_some hd
    subst huid
    exact ⟨_, rfl, rfl, rfl, rfl, rfl, rfl, rfl, rfl⟩

end Sys2Proof.Machine
end

section
/-!
PROOFS. Completion records at their done rings: written, held and released (R403, R404, R407).
-/

namespace Sys2Proof.Machine

theorem CRec.bytes_length (c : CRec) (phase : Bool) (time : Nat) : (c.bytes phase time).length = 32 := by
  simp [CRec.bytes]

/-- A device that reports to no master writes its host's memory itself (R29). -/
theorem State.hostWrite_own {s : State} (h : s.reportsToMaster = false) (i a : Nat) (bs : List Nat) : s.hostWrite i a bs = s.hostStore a bs := by
  unfold State.hostWrite
  exact if_neg (by rw [h]; decide)

/-- Fields of two different words. -/
theorem RField.apart_of_narrow {f g : RField} (hf : f.msb < 32) (hg : g.msb < 32) (hk : f.key ≠ g.key) : f.apart g = true := by
  simp [RField.apart, RField.narrow, hf, hg, hk]

theorem doneRing_apart (f d : Nat) : (R.DR_TAIL_POSITION f d).apart (R.DR_CTRL_MSIX_EN f d) = true :=
  RField.apart_of_narrow (by decide : 16 < 32) (by decide : 30 < 32) (by simp only [R.DR_TAIL_POSITION, R.DR_CTRL_MSIX_EN, fnKey]; omega)

/-- Where the next record of a done ring goes, and with which phase (R404). -/
def State.doneSlot (s : State) (f d : Nat) : Nat :=
  s.rd (R.DR_BASE_BASE f d) * 4096 + (posOf (s.rd (R.DR_TAIL_POSITION f d)) (s.drSize f d) % s.drSize f d) * 32

def State.donePhase (s : State) (f d : Nat) : Bool := decide (posOf (s.rd (R.DR_TAIL_POSITION f d)) (s.drSize f d) < s.drSize f d)

/-- DR_TAIL after the next record. -/
def State.doneNext (s : State) (f d : Nat) : Nat :=
  regOf (posNext (posOf (s.rd (R.DR_TAIL_POSITION f d)) (s.drSize f d)) (s.drSize f d)) (s.drSize f d)

/-- A done ring without MSI-X: the record stands in the tail slot, and DR_TAIL moves on (R404). -/
theorem State.writeDone_quiet {s : State} {f d : Nat} (bytes : Bool → List Nat) (vector : Bool) (hm : s.reportsToMaster = false)
    (hx : s.flag (R.DR_CTRL_MSIX_EN f d) = false) :
    s.writeDone f d bytes vector = (s.hostStore (s.doneSlot f d) (bytes (s.donePhase f d))).wr (R.DR_TAIL_POSITION f d) (s.doneNext f d) := by
  have hquiet : ∀ a bs v, ((s.hostStore a bs).wr (R.DR_TAIL_POSITION f d) v).flag (R.DR_CTRL_MSIX_EN f d) = false := fun a bs v =>
    (State.flag_wr_other (s.hostStore a bs) _ _ v rfl (doneRing_apart f d)).trans ((State.flag_with_mem s _ _).trans hx)
  simp only [State.writeDone, State.hostWrite_own hm, hquiet, Bool.and_false, Bool.false_eq_true, if_false, State.doneSlot, State.donePhase,
    State.doneNext]

/-- Writing a word, and a field, asks the registers alone. -/
theorem State.setWord_regs_congr {s t : State} (h : t.regs = s.regs) (k v : Nat) : (t.setWord k v).regs = (s.setWord k v).regs := by
  rw [State.setWord, State.setWord, h]

theorem State.wr_regs_congr {s t : State} (h : t.regs = s.regs) (f : RField) (v : Nat) : (t.wr f v).regs = (s.wr f v).regs := by
  rw [State.wr, State.wr, State.word_congr h, State.word64_congr h]
  split
  · exact State.setWord_regs_congr h _ _
  · exact State.setWord_regs_congr (State.setWord_regs_congr h _ _) _ _

/-- What such a write changes: the slot, DR_TAIL and nothing else. -/
theorem State.hostStore_wr_frame (s : State) (a : Nat) (bs : List Nat) (f : RField) (v : Nat) :
    let t := (s.hostStore a bs).wr f v
    t.rings = s.rings ∧ t.regs = (s.wr f v).regs ∧ t.mem = { s.mem with host := cellsWrite noByte s.mem.host a bs } := by
  refine ⟨?_, State.wr_regs_congr (s := s) (t := s.hostStore a bs) rfl f v, ?_⟩
  · rw [State.wr_rings]; rfl
  · rw [State.wr_mem]; rfl

/-- The record leaves the queue of those due. -/
def State.noLongerDue (s : State) (c : CRec) : State := { s with rings := { s.rings with due := s.rings.due.erase c } }

theorem State.rd_noLongerDue (s : State) (c : CRec) (f : RField) : (s.noLongerDue c).rd f = s.rd f := State.rd_with_rings s _ f

theorem State.drSize_noLongerDue (s : State) (c : CRec) (f d : Nat) : (s.noLongerDue c).drSize f d = s.drSize f d := by
  rw [State.drSize, State.drSize, State.rd_noLongerDue]

theorem State.doneSlot_noLongerDue (s : State) (c : CRec) (f d : Nat) : (s.noLongerDue c).doneSlot f d = s.doneSlot f d := by
  rw [State.doneSlot, State.doneSlot, State.drSize_noLongerDue, State.rd_noLongerDue, State.rd_noLongerDue]

theorem State.donePhase_noLongerDue (s : State) (c : CRec) (f d : Nat) : (s.noLongerDue c).donePhase f d = s.donePhase f d := by
  rw [State.donePhase, State.donePhase, State.drSize_noLongerDue, State.rd_noLongerDue]

theorem State.doneNext_noLongerDue (s : State) (c : CRec) (f d : Nat) : (s.noLongerDue c).doneNext f d = s.doneNext f d := by
  rw [State.doneNext, State.doneNext, State.drSize_noLongerDue, State.rd_noLongerDue]

theorem State.writeRecord_found {s : State} {c : CRec} (hu : s.hubUp = true) (hc : s.rings.due.find? s.mayDeliver = some c)
    (hd : c.fromDev = none) : exec .completionRecordWrite s = .next ((s.noLongerDue c).deliverDone c) := by
  have hone : s.writeOne c = (s.noLongerDue c).deliverDone c := by
    rw [State.writeOne, hd]
    rfl
  rw [exec_completionRecordWrite, execCompletionRecordWrite, done_eq, State.writeRecord, hc]
  exact congrArg _ ((if_pos hu).trans hone)

theorem State.doneTakes_iff (s : State) (c : CRec) : s.doneTakes c = true ↔ s.flag (R.DR_CTRL_ENABLE c.inst c.done) = true ∧
    0 < s.drFree c.inst c.done ∧ ∀ h ∈ s.rings.held, ¬ (h.inst = c.inst ∧ h.done = c.done) := by
  simp [State.doneTakes, and_assoc]

/-- The record of a done ring without MSI-X stands in the tail slot, DR_TAIL moves on, and nothing else changes (R404). -/
theorem State.deliverDone_quiet {s : State} {c : CRec} (htakes : s.doneTakes c = true) (hm : s.reportsToMaster = false)
    (hx : s.flag (R.DR_CTRL_MSIX_EN c.inst c.done) = false) : ∃ t, (s.noLongerDue c).deliverDone c = t ∧
      t.rings = (s.noLongerDue c).rings ∧ t.regs = (s.wr (R.DR_TAIL_POSITION c.inst c.done) (s.doneNext c.inst c.done)).regs ∧
      t.mem = { s.mem with
        host := cellsWrite noByte s.mem.host (s.doneSlot c.inst c.done) (c.bytes (s.donePhase c.inst c.done) (s.now % 2 ^ 32)) } := by
  have hdeliver : (s.noLongerDue c).deliverDone c = _ := (if_pos htakes).trans (State.writeDone_quiet _ _ hm hx)
  rw [State.doneSlot_noLongerDue, State.donePhase_noLongerDue, State.doneNext_noLongerDue] at hdeliver
  obtain ⟨hrings, hregs, hmem⟩ := State.hostStore_wr_frame (s.noLongerDue c) (s.doneSlot c.inst c.done)
    (c.bytes (s.donePhase c.inst c.done) (s.now % 2 ^ 32)) (R.DR_TAIL_POSITION c.inst c.done) (s.doneNext c.inst c.done)
  exact ⟨_, hdeliver, hrings, hregs.trans (State.wr_regs_congr (s := s) (t := s.noLongerDue c) rfl _ _), hmem⟩

/-- Settles O6: a record that its done ring takes is written (`deliverDone_quiet`), any other is held; a held one is released as
`releaseHeld` says. -/
theorem completionRecords : Obligations.CompletionRecords := by
  refine ⟨?_, ?_, ?_⟩
  · intro s c hu hc hdev d z p a hm hen hfree hheld hx hi hd
    obtain ⟨t, ht, hrings, hregs, hmem⟩ := State.deliverDone_quiet ((State.doneTakes_iff s c).2 ⟨hen, hfree, hheld⟩) hm hx
    have hslot : s.doneSlot c.inst c.done = a := rfl
    have hphase : s.donePhase c.inst c.done = decide (p < z) := rfl
    rw [hslot, hphase] at hmem
    have hhost : t.mem.host = cellsWrite noByte s.mem.host a (c.bytes (decide (p < z)) (s.now % 2 ^ 32)) := by rw [hmem]
    have hlen := CRec.bytes_length c (decide (p < z)) (s.now % 2 ^ 32)
    refine ⟨t, (State.writeRecord_found hu hc hdev).trans (congrArg _ ht), ?_, hregs, hhost, fun x hout => ?_, ?_, ?_, ?_⟩
    · rw [hrings]; rfl
    · rw [hhost]
      exact cellsWrite_other _ _ _ _ _ (hlen.symm ▸ hout)
    all_goals rw [hmem]
  · intro s c hu hc hdev hno
    have hnot : ¬ (s.noLongerDue c).doneTakes c = true := by
      rw [State.doneTakes_iff]
      rintro ⟨hen, hfree, hheld⟩
      rcases hno with h | h | ⟨e, he, hsame⟩
      · exact absurd (h.symm.trans hen) (by decide)
      · exact absurd h (Nat.ne_of_gt hfree)
      · exact hheld e he hsame
    exact (State.writeRecord_found hu hc hdev).trans (congrArg _ (if_neg hnot))
  · intro s f d c hf hd hu hl hen hfree hheld
    have hring : ringOk f d = true := decide_eq_true ⟨hf, hd⟩
    have hmay : (s.hubUp && s.linkOpen && s.flag (R.DR_CTRL_ENABLE f d) && decide (0 < s.drFree f d)) = true := by
      rw [hu, hl, hen, decide_eq_true hfree]; rfl
    rw [exec_heldRecordRelease, execHeldRecordRelease, unit_of hring, State.releaseHeld, hheld]
    exact congrArg _ (if_pos hmay)

end Sys2Proof.Machine
end

section
/-!
PROOFS. Instance resets, VF enabling, function-level resets and the failure of the key unit (R400, R410 to R432, R615, R616).
-/

namespace Sys2Proof.Machine

/-! ### INST_RESET and the end of a reset (R400, R427, R430) -/

section reset
variable {s : State} {d : Desc}

theorem State.resetDesc_ready (h : (s.inst (u8At d.bytes 0x10)).st = .ready) :
    s.resetDesc d = (s.bump (R.BOOT_RESET_COUNT_COUNT 3) 1).askReset (u8At d.bytes 0x10) (some d.uid) false false false true := by
  simp [State.resetDesc, h]

theorem State.resetDesc_absent (h : (s.inst (u8At d.bytes 0x10)).st = .none) : s.resetDesc d = s.complete d.uid St.instNotFound 0 := by
  simp [State.resetDesc, h]

end reset

theorem workload_of {i : Nat} (h1 : 1 ≤ i) (h16 : i ≤ 16) : workload i = true := decide_eq_true ⟨h1, h16⟩

theorem exec_inflightZero_drained {s : State} {i : Nat} (h1 : 1 ≤ i) (h16 : i ≤ 16) (hu : s.hubUp = true) (hst : (s.inst i).st = .resetting)
    (hd : s.drained i = true) : exec (.inflightZero i) s = .next (s.resetEnd i) := by
  have hawaits : s.awaitsZero i = true := by simp [State.awaitsZero, hst]
  rw [exec_inflightZero, execInflightZero, unit_of (workload_of h1 h16), State.inflightZero, when_of (by rw [hu, hawaits, hd]; rfl)]

theorem State.resetTimeout_due {s : State} {i : Nat} (hst : (s.inst i).st = .resetting) (hd : s.drained i = false)
    (ht : (s.inst i).resetAt + 50000 ≤ s.now) : s.resetTimeout i =
      ((((s.modInst i fun x => { x with st := .failed, late := true, destroying := x.destroying && !x.byCommand }).skip 1).raiseTo
        St.instResetTimeout deviceClass noOwner i (1 + s.drawn) true [(0, false)]).resetAnswer i St.instResetTimeout) := by
  simp [State.resetTimeout, hst, hd, ht]

/-! ### VFs (R410, R414, R615) -/

/-- One instance of those that VF Enable now covers: out of PARKED, and otherwise as it was (R414). -/
def State.unparkOne (s : State) (i : Nat) : State := if (s.inst i).st == .parked then s.modInst i fun x => { x with st := .ready } else s

theorem State.inst_modInst (s : State) (i j : Nat) (f : Inst → Inst) : (s.modInst i f).inst j = if j = i then f (s.inst i) else s.inst j :=
  Tab.get_put _ _ _ _ _

/-- It leaves alone whatever no change of an instance touches. -/
theorem State.unparkOne_proj {γ : Type} (π : State → γ) (h : ∀ (t : State) (j : Nat) (f : Inst → Inst), π (t.modInst j f) = π t) (s : State)
    (i : Nat) : π (s.unparkOne i) = π s := by
  unfold State.unparkOne
  split
  · exact h _ _ _
  · rfl

theorem State.unparkOne_other (s : State) {i j : Nat} (h : j ≠ i) : (s.unparkOne i).inst j = s.inst j := by
  unfold State.unparkOne
  split
  · rw [State.inst_modInst, if_neg h]
  · rfl

/-- An instance that is READY, or that is PARKED and is reached, is READY after those of a list have left PARKED. -/
theorem State.unpark_ready {l : List Nat} {i : Nat} : ∀ s : State, (s.inst i).st = .ready ∨ ((s.inst i).st = .parked ∧ i ∈ l) →
    ((l.foldl State.unparkOne s).inst i).st = .ready := by
  induction l with
  | nil =>
    rintro s (h | ⟨-, h⟩)
    · exact h
    · exact absurd h List.not_mem_nil
  | cons k t ih =>
    intro s h
    refine ih _ ?_
    by_cases hk : i = k
    · subst hk
      rcases h with h | ⟨h, -⟩ <;> simp [State.unparkOne, State.inst_modInst, h]
    · rw [State.unparkOne_other _ hk]
      exact h.imp id fun ⟨hp, hm⟩ => ⟨hp, (List.mem_cons.1 hm).resolve_left hk⟩

theorem State.unpark_other {l : List Nat} {i : Nat} (s : State) (h : i ∉ l) : (l.foldl State.unparkOne s).inst i = s.inst i :=
  foldl_proj_mem (fun t => t.inst i) (fun _ hk a => State.unparkOne_other a fun he => h (he ▸ hk)) s

theorem State.unpark_proj {γ : Type} (π : State → γ) (h : ∀ (t : State) (j : Nat) (f : Inst → Inst), π (t.modInst j f) = π t) (l : List Nat)
    (s : State) : π (l.foldl State.unparkOne s) = π s :=
  foldl_proj π (State.unparkOne_proj π h) l s

/-- The VFs enabled are `n`, and nothing else has changed yet. -/
def State.withVfs (s : State) (n : Nat) : State := { s with rings := { s.rings with numVfs := n } }

theorem State.vfEnable_more {s : State} {n : Nat} (h : s.rings.numVfs ≤ n) :
    s.vfEnable n = ((List.range 17).filter fun i => decide (i ≤ n)).foldl State.unparkOne (s.withVfs n) := if_pos h

section flr
variable {s : State} {i : Nat} (h1 : 1 ≤ i) (h16 : i ≤ 16) (hs : s.steady = true) (hvf : i ≤ s.rings.numVfs)
include h1 h16 hs hvf

theorem exec_vfFlr_absent (keyOk : Bool) (hst : (s.inst i).st = .none) :
    exec (.vfFlr i keyOk) s = .next ((((s.bump (R.BOOT_RESET_COUNT_COUNT 2) 1).writeOut i).resetPage i).pcieTouch i) := by
  rw [exec_vfFlr, execVfFlr, unit_of (workload_of h1 h16), when_of (State.steady_hubUp hs), State.vfFlr, if_neg (Nat.not_lt.2 hvf)]
  simp [hst]

theorem exec_vfFlr_ready (keyOk : Bool) (hst : (s.inst i).st = .ready) : exec (.vfFlr i keyOk) s =
    .next (((s.bump (R.BOOT_RESET_COUNT_COUNT 2) 1).askReset i none false true false keyOk).pcieTouch i) := by
  rw [exec_vfFlr, execVfFlr, unit_of (workload_of h1 h16), when_of (State.steady_hubUp hs), State.vfFlr, if_neg (Nat.not_lt.2 hvf)]
  simp [hst]

end flr

/-- Settles O31: each event under its condition; VF_ENABLE is a fold of `unparkOne`. -/
theorem instanceEvents : Obligations.InstanceEvents := by
  refine ⟨?_, ?_, ?_, ?_, ?_, ?_, ?_⟩
  · intro s f w d hf hw hb s0 i
    have hgo : exec (.instReset f w) s = .next (s0.resetDesc d) := unit_onDesc_begun hf hw hb _
    rw [hgo]
    exact ⟨fun h => congrArg _ (State.resetDesc_ready h), fun h => congrArg _ (State.resetDesc_absent h)⟩
  · intro s i h1 h16 hu hst
    refine ⟨exec_inflightZero_drained h1 h16 hu hst, fun hd ht => ?_⟩
    rw [exec_instResetTimeout, execInstResetTimeout, unit_of (workload_of h1 h16), when_of hu, State.resetTimeout_due hst hd ht]
  · intro s n hn hs hvf
    have hpower : (((List.range 17).filter fun i => decide (i ≤ n)).foldl State.unparkOne (s.withVfs n)).power = s.power :=
      State.unpark_proj State.power State.modInst_power _ (s.withVfs n)
    have hexec : exec (.vfEnable n) s = .next (((List.range 17).filter fun i => decide (i ≤ n)).foldl State.unparkOne (s.withVfs n)) := by
      rw [exec_vfEnable, execVfEnable, unit_of (decide_eq_true hn), when_of (State.steady_hubUp hs), State.vfEnable_more hvf,
        State.pcieTouch_of 0 hs hpower]
    refine ⟨_, hexec, State.unpark_proj State.rings State.modInst_rings _ (s.withVfs n), State.unpark_proj State.regs State.modInst_regs _ (s.withVfs n),
      State.unpark_proj State.mem State.modInst_mem _ (s.withVfs n), fun i hp hi => State.unpark_ready _ (.inr ⟨hp, ?_⟩), fun i hi => State.unpark_other _ ?_⟩
    · simp only [List.mem_filter, List.mem_range, decide_eq_true_eq]
      omega
    · simp only [List.mem_filter, List.mem_range, decide_eq_true_eq]
      omega
  · intro s n keyOk hu hn
    rw [exec_vfEnableClear, execVfEnableClear, when_of hu, State.vfClear, if_pos hn, done_eq]
  · intro s i keyOk h1 h16 hs hvf
    exact ⟨exec_vfFlr_absent h1 h16 hs hvf keyOk, exec_vfFlr_ready h1 h16 hs hvf keyOk⟩
  · intro s keyOk hu s0 v s1 s2
    rw [exec_pfFlr, execPfFlr, when_of hu, State.pfFlr, done_eq]
  · intro s hk
    rw [exec_keyHealthTestFail, execKeyHealthTestFail, State.keyHealth, hk]
    rfl

end Sys2Proof.Machine
end

section
/-!
PROOFS. Camera contexts, packets and frames (R399, R479 to R486).
-/

namespace Sys2Proof.Machine

/-! ### What an alias write leaves alone: the contexts -/

theorem State.dropDesc_csi (s : State) (uid : Nat) : (s.dropDesc uid).csi = s.csi :=
  foldl_proj State.csi (fun _ _ => State.setFlag_csi _ _ _) _ _

theorem State.completeC_csi (s : State) (uid st dt : Nat) (c : Option (Nat × Nat × Nat × Nat × Nat)) :
    (s.completeC uid st dt c).csi = s.csi := by
  unfold State.completeC
  split
  · rfl
  · exact State.dropDesc_csi s uid

theorem State.pegMsix_csi (s : State) (i m : Nat) : (s.pegMsix i m).csi = s.csi := by
  unfold State.pegMsix
  split
  · rfl
  · exact State.msix_csi _ _ _

theorem State.finishWait_csi (s : State) (w : Wait) (v : Nat) : (s.finishWait w v).csi = s.csi := by
  unfold State.finishWait
  dsimp only
  rw [State.pegMsix_csi]
  split
  · exact State.completeC_csi _ _ _ _ _
  · rfl

theorem State.releaseWaits_csi (s : State) (l : PegLoc) (v : Nat) : (s.releaseWaits l v).csi = s.csi :=
  foldl_proj State.csi (fun a w => State.finishWait_csi a w v) _ _

theorem State.setSignaller_csi (s : State) (l : PegLoc) (id : Nat) : (s.setSignaller l id).csi = s.csi := by
  unfold State.setSignaller
  dsimp only
  split <;> rfl

theorem State.sramWrite_csi (s : State) (tier i u a : Nat) (bs : List Nat) : (s.sramWrite tier i u a bs).1.csi = s.csi := by
  unfold State.sramWrite
  dsimp only
  split
  · rfl
  · exact State.bump_csi _ _ _

theorem State.t2Write_csi (s : State) (i h o : Nat) (bs : List Nat) : (s.t2Write i h o bs).1.csi = s.csi := by
  unfold State.t2Write
  split
  · rfl
  · split <;> rfl

theorem State.pegStore_csi (s : State) (i : Nat) (l : PegLoc) (v : Nat) : (s.pegStore i l v).csi = s.csi := by
  unfold State.pegStore
  split
  · rfl
  · split
    · exact State.sramWrite_csi _ _ _ _ _ _
    · exact State.t2Write_csi _ _ _ _ _

theorem State.pumpPort_csi (s : State) (p : Nat) : (s.pumpPort p).csi = s.csi := by
  unfold State.pumpPort
  split
  · dsimp only
    rw [State.bump_csi, State.setPort_csi]
  · rfl

theorem State.sendFlit_csi (s : State) (d i : Nat) (pl : Payload) : (s.sendFlit d i pl).csi = s.csi := by
  unfold State.sendFlit
  split
  · rfl
  · exact (State.pumpPort_csi _ _).trans (State.setPort_csi _ _ _)

theorem State.pegOp_csi (s : State) (i : Nat) (l : PegLoc) (compat set : Bool) (v id : Nat) : (s.pegOp i l compat set v id).csi = s.csi := by
  unfold State.pegOp
  split
  · exact State.sendFlit_csi _ _ _ _
  · dsimp only
    rw [State.releaseWaits_csi, State.setSignaller_csi, State.pegStore_csi]

theorem State.post_csi (s : State) (p : Posted) : (s.post p).csi = s.csi := by
  simp only [State.post, apply_ite State.csi, State.raise_csi, State.bump_csi, ite_self]

theorem State.aliasAct_csi (s : State) (f a part width v : Nat) (set : Bool) (l : PegLoc) (compat : Bool) :
    (s.aliasAct f a part width v set l compat).csi = s.csi := by
  simp only [State.aliasAct, apply_ite State.csi, State.pegOp_csi, ite_self]

/-- A write to an alias changes no camera context (R365, R366). -/
theorem State.aliasTake_csi (s : State) (f a part width v : Nat) (set : Bool) : (s.aliasTake f a part width v set).csi = s.csi := by
  unfold State.aliasTake
  dsimp only
  split
  · exact State.setFlag_csi _ _ _
  · split
    · exact State.post_csi _ _
    · exact State.aliasAct_csi _ _ _ _ _ _ _ _ _

/-! ### STREAM_BIND (R399, R479, R480) -/

/-- A context bound by another instance (R399). -/
theorem State.bindStatus_busy {s : State} {d : Desc} {x : Ctx} (hx : s.ctx? (u8At d.bytes 0x10) = some x) (hi : x.inst ≠ d.inst) :
    s.bindStatus d = St.streamBusy := by
  have hother : (x.inst != d.inst) = true := bne_iff_ne.2 hi
  simp [State.bindStatus, hx, hother]

section bind
variable {s : State} {d : Desc}

theorem State.streamBind_refused (h : s.bindStatus d ≠ St.ok) : s.streamBind d = s.complete d.uid (s.bindStatus d) 0 := if_pos h

theorem State.streamBind_unbinds (h : s.bindStatus d = St.ok) (hu : u8At d.bytes 0x11 = 1) :
    s.streamBind d = (s.unbindCtx (u8At d.bytes 0x10)).complete d.uid St.ok 0 := (if_neg (not_not.2 h)).trans (if_pos hu)

/-- The state of a bind: the context newly bound, its counts and its view fresh. -/
theorem State.streamBind_binds (h : s.bindStatus d = St.ok) (hu : u8At d.bytes 0x11 ≠ 1) :
    let c := u8At d.bytes 0x10
    let s1 := s.unbindCtx c
    let k := (R.INST_STATUS_CTX_FRAMES_COUNT d.inst c).key
    let s2 := ({ s1 with csi := ⟨s1.csi.ctxs ++ [(c, newCtx d)]⟩ } : State).resetRegs fun n => n == k - 4 || n == k || n == k + 4
    s.streamBind d = (s2.viewCtx c (newCtx d)).complete d.uid St.ok 0 := (if_neg (not_not.2 h)).trans (if_neg hu)

end bind

/-! ### Packets (R481, R482, R486) -/

section packets
variable {s : State} {p vc n : Nat} (hp : p < 8) (hvc : vc < 16) (hr : s.receiving p = true)
include hp hvc hr

theorem exec_frameStart_of (num : Nat) : exec (.frameStart p vc num n) s = .next (s.frameStart p vc num n) := by
  rw [exec_frameStart, execFrameStart, unit_of (decide_eq_true ⟨hp, hvc⟩), when_of hr]

theorem exec_longPacket_of (dt : Nat) (bs : List Nat) (bad : Bool) :
    exec (.longPacket p vc dt bs bad n) s = .next (s.longPacket p vc dt bs bad n) := by
  rw [exec_longPacket, execLongPacket, unit_of (decide_eq_true ⟨hp, hvc⟩), when_of hr]

theorem exec_frameEnd_of (num : Nat) : exec (.frameEnd p vc num n) s = .next (s.frameEnd p vc n) := by
  rw [exec_frameEnd, execFrameEnd, unit_of (decide_eq_true ⟨hp, hvc⟩), when_of hr]

end packets

theorem exec_csiLinkError_of {s : State} {p : Nat} (hp : p < 8) (hr : s.receiving p = true) (kind : Nat) :
    exec (.csiLinkError p kind) s = .next (s.linkError p kind) := by
  rw [exec_csiLinkError, execCsiLinkError, unit_of (decide_eq_true hp), when_of hr]

/-- FRAME_END with a clean header, on a virtual channel with an open frame or without one (R481, R486). -/
theorem State.frameEnd_none {s : State} {p vc : Nat} (h : (s.ctxsOf fun x => x.takes && (x.port == p && x.vc == vc)) = []) :
    s.frameEnd p vc 0 = s.bump (R.SENSOR_CSI_ERR_COUNT p 2) 1 := by
  simp [State.frameEnd, h]

theorem State.frameEnd_some {s : State} {p vc : Nat} (h : (s.ctxsOf fun x => x.takes && (x.port == p && x.vc == vc)) ≠ []) :
    s.frameEnd p vc 0 = (s.ctxsOf fun x => x.takes && (x.port == p && x.vc == vc)).foldl
      (fun a c => a.modCtx c fun x => x.close s.now []) s := by
  simp [State.frameEnd, h]

/-- A link error on a port with no open frame marks the port alone (R486). -/
theorem State.linkError_idle {s : State} {p : Nat} (h : (s.ctxsOf fun x => x.takes && x.port == p) = []) (kind : Nat) :
    s.linkError p kind = s.setFlag (if kind = 0 then R.SENSOR_CSI_STATUS_SYNCED p else R.SENSOR_CSI_STATUS_CLK p) false := by
  have hsame : ∀ f, (s.setFlag f false).ctxsOf (fun x => x.takes && x.port == p) = [] := fun f => by
    rw [State.ctxsOf, State.setFlag_csi]
    exact h
  simp [State.linkError, hsame]

/-! ### The end of a frame (R484, R486) -/

theorem State.ctx?_modCtx {s : State} {c : Nat} {f : Ctx → Ctx} {y : Ctx} (h : (s.modCtx c f).ctx? c = some y) : ∃ x, y = f x := by
  simp only [State.ctx?, State.modCtx, Option.map_eq_some_iff] at h
  obtain ⟨e, he, rfl⟩ := h
  have hkey : e.1 = c := by simpa using List.find?_some he
  obtain ⟨x, -, hx⟩ := List.mem_map.1 (List.mem_of_find?_eq_some he)
  by_cases hc : x.1 = c
  · exact ⟨x.2, by simp [← hx, hc]⟩
  · exact absurd (by simpa only [← hx, beq_iff_eq, if_neg hc] using hkey) hc

theorem State.ctx?_congr {s t : State} (h : t.csi = s.csi) (c : Nat) : t.ctx? c = s.ctx? c := by
  rw [State.ctx?, State.ctx?, h]

section closing
variable {s : State} {c : Nat} {x : Ctx}

/-- A closing frame that ends: the counts come last, and the context is open no more. -/
theorem State.closeFrame_ends (hx : s.ctx? c = some x) (ho : x.open_ = true) (hcl : x.closing = true) :
    ∃ u : State, s.closeFrame c = (u.wr (R.INST_STATUS_CTX_FRAMES_COUNT x.inst c) x.seq).wr (R.SENSOR_CTX_VIEW_FRAMES c) x.seq ∧
      ∃ t : State, u.csi = (t.modCtx c fun z => { z with open_ := false, closing := false }).csi := by
  have hends : (!(x.open_ && x.closing)) = false := by rw [ho, hcl]; rfl
  simp only [State.closeFrame, hx, hends, Bool.false_eq_true, if_false]
  refine ⟨_, rfl, (s.t2Write x.inst x.handle (x.slotAt x.seq) (Ctx.header c { x with status := putBit x.status 0 false })).1, ?_⟩
  rw [apply_ite State.csi, State.msix_csi, ite_self]
  split
  · exact State.aliasTake_csi _ _ _ _ _ _ _
  · rfl

theorem State.closeFrame_counts (hx : s.ctx? c = some x) (ho : x.open_ = true) (hcl : x.closing = true) (hc : c < 16) (hseq : x.seq < 2 ^ 32) :
    (s.closeFrame c).rd (R.INST_STATUS_CTX_FRAMES_COUNT x.inst c) = x.seq ∧ (s.closeFrame c).rd (R.SENSOR_CTX_VIEW_FRAMES c) = x.seq ∧
      ∀ y, (s.closeFrame c).ctx? c = some y → y.open_ = false := by
  have hread : x.seq % 2 ^ (31 + 1 - 0) = x.seq := Nat.mod_eq_of_lt hseq
  have hapart : (R.SENSOR_CTX_VIEW_FRAMES c).apart (R.INST_STATUS_CTX_FRAMES_COUNT x.inst c) = true := by
    apply RField.apart_of_keys <;> simp only [R.SENSOR_CTX_VIEW_FRAMES, R.INST_STATUS_CTX_FRAMES_COUNT, fnKey, fnBase] <;> omega
  obtain ⟨u, hu, t, hcsi⟩ := State.closeFrame_ends hx ho hcl
  refine ⟨?_, ?_, ?_⟩
  · rw [hu, State.rd_wr_other _ _ _ _ rfl hapart, State.rd_wr_same _ _ _ rfl]
    exact hread
  · rw [hu, State.rd_wr_same _ _ _ rfl]
    exact hread
  · intro y hy
    rw [hu, State.ctx?_congr (((State.wr_csi _ _ _).trans (State.wr_csi _ _ _)).trans hcsi)] at hy
    obtain ⟨z, rfl⟩ := State.ctx?_modCtx hy
    rfl

/-- An overdue frame is cut (R486). -/
theorem State.frameTimeout_overdue (hx : s.ctx? c = some x) (ht : x.takes = true) (hdue : x.tsStart + s.frameLimit x.inst c ≤ s.now) :
    s.frameTimeout c = (s.modCtx c fun y => y.close s.now [fIncomplete, fTimeout]).bump (R.INST_STATUS_CTX_ERR_INCOMPLETE x.inst c) 1 := by
  simp [State.frameTimeout, State.cutFrame, hx, ht, hdue]

end closing

/-- Settles O38: STREAM_BIND by what `bindStatus` answers, the packets by the header's state, and a closing frame by what its end writes last. -/
theorem cameraStreams : Obligations.CameraStreams := by
  unfold Obligations.CameraStreams
  refine ⟨?bind, fun s d x hx hi => State.bindStatus_busy hx hi, ?packets, ?close, ?timeout⟩
  case bind =>
    intro s f w d hf hw hb
    have hrun : exec (.streamBind f w) s = .next ((s.started d.uid).streamBind d) := unit_onDesc_begun hf hw hb _
    refine ⟨fun h => ?_, fun h hu => ?_, fun h hu => ?_⟩
    · rw [hrun, State.streamBind_refused h]
    · rw [hrun, State.streamBind_unbinds h hu]
    · rw [hrun]
      exact congrArg _ (State.streamBind_binds h hu)
  case packets =>
    intro s p vc n hp hvc hr
    refine ⟨fun num hdr => exec_frameStart_of hp hvc hr num, fun num hn => ?_, fun dt bs bad hn => ?_, fun dt bs bad => ?_, fun num hn => ?_,
      fun num h => ?_, fun num h => ?_, fun h => ⟨?_, ?_⟩⟩
    · exact (exec_frameStart_of hp hvc hr num).trans (congrArg _ (if_pos hn))
    · exact (exec_longPacket_of hp hvc hr dt bs bad).trans (congrArg _ (if_pos hn))
    · rw [exec_longPacket_of hp hvc hr dt bs bad]
      simp [State.longPacket]
    · exact (exec_frameEnd_of hp hvc hr num).trans (congrArg _ (if_pos hn))
    · rw [exec_frameEnd_of hp hvc hr num, State.frameEnd_none h]
    · rw [exec_frameEnd_of hp hvc hr num, State.frameEnd_some h]
    · rw [exec_csiLinkError_of hp hr, State.linkError_idle h, if_pos rfl]
    · rw [exec_csiLinkError_of hp hr, State.linkError_idle h, if_neg (by decide)]
  case close =>
    intro s c x hc hup hx ho hcl _ hseq
    refine ⟨s.closeFrame c, ?_, State.closeFrame_counts hx ho hcl hc hseq⟩
    rw [exec_frameClose, execFrameClose, unit_of (decide_eq_true hc), when_of hup]
  case timeout =>
    intro s c x hc hup hx ht hdue
    rw [exec_frameTimeout, execFrameTimeout, unit_of (decide_eq_true hc), when_of hup, State.frameTimeout_overdue hx ht hdue]

end Sys2Proof.Machine
end

section
/-!
PROOFS. The OR stage (R458, R460, R466).
-/

namespace Sys2Proof.Machine

/-! ### Bits of a word -/

theorem bit_putBit (w n j : Nat) (b : Bool) : bit (putBit w n b) j = if j = n then b else bit w j := by
  rw [bit, bit, putBit, setFld_testBit _ _ _ _ _ le_rfl]
  by_cases h : j = n
  · subst h
    cases b <;> simp [b2n]
  · have hout : ¬(n ≤ j ∧ j ≤ n) := fun hj => h (by omega)
    simp [h, hout]

/-- A word with the bits of a list set. -/
theorem bit_foldl_putBit (l : List Nat) (j : Nat) : ∀ w, bit (l.foldl (fun m n => putBit m n true) w) j = (bit w j || decide (j ∈ l)) := by
  induction l with
  | nil => simp
  | cons n l ih =>
    intro w
    rw [List.foldl_cons, ih, bit_putBit]
    by_cases h : j = n <;> simp [h]

theorem bit_mod_two_pow {j k : Nat} (h : j < k) (w : Nat) : bit (w % 2 ^ k) j = bit w j := by
  rw [bit, bit, Nat.testBit_mod_two_pow, decide_eq_true h, Bool.true_and]

/-! ### The trips and the stop conditions -/

/-- The trip of lane `l` becomes that of its verdict word: the stage's first part, for one lane. -/
def State.tripLane (s : State) (l : Nat) : State :=
  if (s.lane l).present then s.modLane l fun x => { x with tripped := s.wordTrips l (s.rd (R.GUARD_VERDICT_WORD l)) }
  else if (s.lane l).tripped then s.modLane l fun x => { x with tripped := false } else s

/-- `t` shows every register, lane and comparator as `s` does: all that a stop condition reads. -/
structure State.SameStops (s t : State) : Prop where
  rd : ∀ f, t.rd f = s.rd f
  lane : ∀ l, t.lane l = s.lane l
  cmp : ∀ c, t.cmp c = s.cmp c

namespace State.SameStops
variable {s t u : State}

theorem refl (s : State) : s.SameStops s := ⟨fun _ => rfl, fun _ => rfl, fun _ => rfl⟩

theorem trans (h : s.SameStops t) (k : t.SameStops u) : s.SameStops u :=
  ⟨fun f => (k.rd f).trans (h.rd f), fun l => (k.lane l).trans (h.lane l), fun c => (k.cmp c).trans (h.cmp c)⟩

theorem stopOf (h : s.SameStops t) (j : Nat) : t.stopOf j = s.stopOf j := by
  simp only [State.stopOf, h.rd, h.lane, h.cmp]

theorem wordTrips (h : s.SameStops t) (l w : Nat) : t.wordTrips l w = s.wordTrips l w := by
  simp only [State.wordTrips, h.rd]

/-- Writing a lane what it holds. -/
theorem modLane {l : Nat} {f : Lane → Lane} (h : f (s.lane l) = s.lane l) : s.SameStops (s.modLane l f) where
  rd := fun _ => State.rd_modLane _ _ _ _
  lane := fun k => by
    rw [State.lane, State.modLane, h]
    refine (Tab.get_put _ s.guard.lanes k l (s.lane l)).trans ?_
    split
    · next hk => rw [hk]
    · rfl
  cmp := fun _ => rfl

end State.SameStops

/-- The trip of lane `l` is that of its verdict word (R458). -/
def State.Tripped (s : State) (l : Nat) : Prop :=
  (s.lane l).tripped = ((s.lane l).present && s.wordTrips l (s.rd (R.GUARD_VERDICT_WORD l)))

theorem State.SameStops.tripped {s t : State} (h : s.SameStops t) {l : Nat} (k : s.Tripped l) : t.Tripped l := by
  rw [State.Tripped, h.lane, h.wordTrips, h.rd]
  exact k

theorem State.tripLane_settled {s : State} {l : Nat} (h : s.Tripped l) : s.SameStops (s.tripLane l) := by
  rw [State.Tripped] at h
  unfold State.tripLane
  split
  · next hp =>
    rw [hp, Bool.true_and] at h
    exact .modLane (by rw [← h])
  · next hp =>
    rw [Bool.not_eq_true] at hp
    rw [hp, Bool.false_and] at h
    rw [h, if_neg Bool.false_ne_true]
    exact .refl s

theorem State.foldl_tripLane_settled (ls : List Nat) : ∀ s : State, (∀ l ∈ ls, s.Tripped l) → s.SameStops (ls.foldl State.tripLane s) := by
  induction ls with
  | nil => exact fun s _ => .refl s
  | cons l ls ih =>
    intro s h
    have hl := State.tripLane_settled (h l (List.mem_cons_self ..))
    exact hl.trans (ih _ fun k hk => hl.tripped (h k (List.mem_cons_of_mem _ hk)))

/-! ### Outputs and latches -/

/-- The stops, the word of latches and the outputs that the stage makes, after the trips. -/
theorem State.orStage_eq {s t : State} (hoff : s.power.st ≠ .off) (hext : s.board.extest = false)
    (ht : (List.range 16).foldl State.tripLane s = t) :
    (s.orStage.guard.out = ((List.range 8).map fun j => t.stopOf j).map fun b => if !s.flag R.GUARD_CTRL_ARM then 2 else if b then 0 else 1) ∧
    ∀ f, s.orStage.rd f = (t.wr R.GUARD_LATCHED_LATCHED
        ((upTo 8 fun j => ((List.range 8).map fun j => t.stopOf j).getD j false && bit (s.rd R.GUARD_OUT_CFG_LATCH) j).foldl
          (fun m j => putBit m j true) (s.rd R.GUARD_LATCHED_LATCHED))).rd f := by
  have hruns : ¬(s.power.st = .off ∨ s.board.extest = true) := by simp [hoff, hext]
  rw [State.orStage, if_neg hruns, ← ht]
  exact ⟨rfl, fun f => State.rd_with_guard _ _ f⟩

/-- Settles O33: the trips are the lanes' own already, so the stage's stop conditions are those of the state it starts from. -/
theorem orStage : Obligations.OrStage := by
  unfold Obligations.OrStage
  refine ⟨fun s hoff hext htrip j hj => ?_, fun s hoff => ?_⟩
  · obtain ⟨hout, hlatch⟩ := State.orStage_eq hoff hext rfl
    have hsame := State.foldl_tripLane_settled (List.range 16) s fun l hl => htrip l (List.mem_range.1 hl)
    refine ⟨?_, ?_⟩
    · simp [hout, List.getD_eq_getElem?_getD, hj, hsame.stopOf]
    · rw [hlatch, State.rd_wr_same _ _ _ rfl]
      refine (bit_mod_two_pow hj _).trans ?_
      rw [bit_foldl_putBit]
      simp [upTo, hj, hsame.stopOf]
  · rw [State.orStage, if_pos (.inl hoff)]

end Sys2Proof.Machine
end

section
/-!
PROOFS. Frame boundaries, oscillator trims and FSP packets (R440 to R447, R457, R464).
-/

namespace Sys2Proof.Machine

/-! ### The bits of an FSP's words (R444) -/

theorem length_wordBits (w : Nat) : (wordBits w).length = 16 := by simp [wordBits]

theorem length_flatMap_wordBits (ws : List Nat) : (ws.flatMap wordBits).length = 16 * ws.length := by
  simp [List.length_flatMap, length_wordBits, Nat.mul_comm]

theorem drop_flatMap_wordBits (ws : List Nat) : ∀ i, (ws.flatMap wordBits).drop (16 * i) = (ws.drop i).flatMap wordBits := by
  induction ws with
  | nil => simp
  | cons w ws ih =>
    intro i
    cases i with
    | zero => rfl
    | succ i =>
      rw [List.flatMap_cons, show 16 * (i + 1) = (wordBits w).length + 16 * i by rw [length_wordBits]; omega, List.drop_length_add_append, ih,
        List.drop_succ_cons]

/-- The low `k` bits of a word, most significant first, put together again. -/
theorem foldl_bits (k : Nat) : ∀ w, ((List.range k).map fun i => w / 2 ^ (k - 1 - i) % 2).foldl (fun n b => 2 * n + b) 0 = w % 2 ^ k := by
  induction k with
  | zero => simp [Nat.mod_one]
  | succ k ih =>
    intro w
    have hhigh : ((List.range k).map fun i => w / 2 ^ (k + 1 - 1 - i) % 2) = (List.range k).map fun i => w / 2 / 2 ^ (k - 1 - i) % 2 := by
      refine List.map_congr_left fun i hi => ?_
      rw [Nat.div_div_eq_div_mul, ← Nat.pow_succ', show (k - 1 - i).succ = k + 1 - 1 - i by have := List.mem_range.1 hi; omega]
    rw [List.range_succ, List.map_append, List.foldl_append, hhigh, ih]
    simp only [List.map_cons, List.map_nil, List.foldl_cons, List.foldl_nil]
    rw [show k + 1 - 1 - k = 0 by omega, Nat.pow_zero, Nat.div_one, Nat.pow_succ', Nat.mod_mul]
    omega

theorem foldl_wordBits {w : Nat} (h : w < 65536) : (wordBits w).foldl (fun n b => 2 * n + b) 0 = w :=
  (foldl_bits 16 w).trans (Nat.mod_eq_of_lt h)

/-- The receiver reads back the words that arrived. -/
theorem bitsWord_flatMap {ws : List Nat} (h : ∀ w ∈ ws, w < 65536) (i : Nat) : bitsWord (ws.flatMap wordBits) i = ws.getD i 0 := by
  rw [bitsWord, drop_flatMap_wordBits]
  by_cases hi : i < ws.length
  · rw [List.drop_eq_getElem_cons hi, List.flatMap_cons, List.take_left' (length_wordBits _), foldl_wordBits (h _ (List.getElem_mem hi)),
      List.getD_eq_getElem _ _ hi]
  · rw [List.drop_eq_nil_of_le (by omega), List.getD_eq_default _ _ (by omega)]
    rfl

theorem map_bitsWord_flatMap {ws : List Nat} (h : ∀ w ∈ ws, w < 65536) : (List.range ws.length).map (bitsWord (ws.flatMap wordBits)) = ws := by
  apply List.ext_getElem (by simp)
  intro i _ hi
  rw [List.getElem_map, List.getElem_range, bitsWord_flatMap h, List.getD_eq_getElem _ _ hi]

/-! ### The receiver (R446) -/

theorem State.fspScan_short {bs : List Nat} (h : bs.length < 16) (fuel : Nat) (s : State) (p : Nat) : State.fspScan fuel s p bs = (s, bs) := by
  cases fuel with
  | zero => rfl
  | succ fuel => exact if_pos h

/-- Without a SYNC at any position the bits pass, but for the last 15. -/
theorem State.fspScan_silent (s : State) (p : Nat) : ∀ (fuel : Nat) (bs : List Nat), bs.length ≤ fuel →
    (∀ i, i < bs.length → i + 16 ≤ bs.length → bitsWord (bs.drop i) 0 ≠ 0x0E5B) →
    State.fspScan fuel s p bs = (s, bs.drop (bs.length - 15)) := by
  intro fuel
  induction fuel with
  | zero =>
    intro bs hlen _
    rw [List.length_eq_zero_iff.1 (Nat.le_zero.1 hlen)]
    rfl
  | succ fuel ih =>
    intro bs hlen hsync
    by_cases hshort : bs.length < 16
    · rw [State.fspScan_short hshort, show bs.length - 15 = 0 by omega, List.drop_zero]
    · have hfirst : bitsWord bs 0 ≠ 0x0E5B := by simpa using hsync 0 (by omega) (by omega)
      have hrest : ∀ i, i < (bs.drop 1).length → i + 16 ≤ (bs.drop 1).length → bitsWord ((bs.drop 1).drop i) 0 ≠ 0x0E5B := by
        intro i hi hi16
        rw [List.length_drop] at hi hi16
        rw [List.drop_drop]
        exact hsync (1 + i) (by omega) (by omega)
      refine (if_neg hshort).trans ((if_pos hfirst).trans ?_)
      rw [ih _ (by rw [List.length_drop]; omega) hrest, List.length_drop, List.drop_drop, show 1 + (bs.length - 1 - 15) = bs.length - 15 by omega]

section packet
variable {s : State} {p : Nat} {ws : List Nat} (hw : ∀ w ∈ ws, w < 65536) (hsync : ws.getD 0 0 = 0x0E5B)
include hw hsync

/-- A packet cut short is kept until its rest comes. -/
theorem State.fspScan_cut (h : ws.length < fld (ws.getD 1 0) 13 10 + 4) (fuel : Nat) :
    State.fspScan fuel s p (ws.flatMap wordBits) = (s, ws.flatMap wordBits) := by
  cases fuel with
  | zero => rfl
  | succ fuel =>
    have hlen := length_flatMap_wordBits ws
    simp only [State.fspScan, bitsWord_flatMap hw, hsync, hlen]
    have hcut : 16 * ws.length < 32 ∨ 16 * ws.length < 16 * (fld (ws.getD 1 0) 13 10 + 4) := .inr (by omega)
    simp only [ne_eq, not_true_eq_false, if_false, if_pos hcut, ite_self]

/-- A packet that is there to its last bit. -/
theorem State.fspScan_whole (h : ws.length = fld (ws.getD 1 0) 13 10 + 4) (fuel : Nat) :
    State.fspScan (fuel + 1) s p (ws.flatMap wordBits) = (s.fspWhole p ws, []) := by
  have hlen := length_flatMap_wordBits ws
  simp only [State.fspScan, bitsWord_flatMap hw, hsync, hlen, ← h, map_bitsWord_flatMap hw]
  rw [if_neg (by omega), if_neg (not_not.2 rfl), if_neg (by omega), List.drop_eq_nil_of_le hlen.le]
  exact State.fspScan_short (by decide) _ _ _

end packet

/-! ### Samples (R447) -/

theorem State.gstream_setGstream (s : State) (n k : Nat) (v : GStream) : (s.setGstream n v).gstream k = if k = n then v else s.gstream k :=
  Tab.get_put _ _ _ _ _

theorem State.gstream_bump (s : State) (f : RField) (n k : Nat) : (s.bump f n).gstream k = s.gstream k := by
  rw [State.gstream, State.bump_guard, State.gstream]

section samples
variable {γ : Type} (π : State → γ) (p n : Nat)

/-- What neither a stream's queue nor a counter touches, a sample does not. -/
theorem State.gSample_proj (hg : ∀ (t : State) (v : GStream), π (t.setGstream n v) = π t) (hb : ∀ (t : State) (f : RField) (k : Nat), π (t.bump f k) = π t)
    (s : State) (v : Int) : π (s.gSample p n v) = π s := by
  unfold State.gSample
  dsimp only
  split
  · exact hg _ _
  · exact (hb _ _ _).trans (hg _ _)

end samples

/-- Samples that fit the queue follow what it holds, in their order. -/
theorem State.gstream_foldl_gSample (p n : Nat) (vs : List Nat) : ∀ s : State, (s.gstream n).queue.length + vs.length ≤ 64 →
    (vs.foldl (fun a v => a.gSample p n (toSigned 16 v)) s).gstream n =
      { s.gstream n with queue := (s.gstream n).queue ++ vs.map (toSigned 16) } := by
  induction vs with
  | nil => simp
  | cons v vs ih =>
    intro s h
    rw [List.length_cons] at h
    have hone : (s.gSample p n (toSigned 16 v)).gstream n = { s.gstream n with queue := (s.gstream n).queue ++ [toSigned 16 v] } := by
      have hfits : (s.gstream n).queue.length < 64 := by omega
      simp only [State.gSample, if_pos hfits, State.gstream_setGstream, if_true]
    rw [List.foldl_cons, ih _ (by rw [hone, List.length_append, List.length_singleton]; omega), hone]
    simp

/-- A packet whose CRC or reserved bits are wrong is counted, and nothing of it is kept (R445, R446). -/
theorem State.fspWhole_bad {s : State} {p : Nat} {ws : List Nat} (h : fld (ws.getD 1 0) 2 0 ≠ 0 ∨
    crc16 ((ws.drop 1).take (fld (ws.getD 1 0) 13 10 + 1 + 1)) ≠ ws.getD (fld (ws.getD 1 0) 13 10 + 1 + 2) 0) :
    s.fspWhole p ws = s.bump (R.SENSOR_FSP_STATUS_PKT_ERR p) 1 := if_pos h

section good
variable {s : State} {p : Nat} {ws : List Nat} (hres : fld (ws.getD 1 0) 2 0 = 0)
  (hcrc : crc16 ((ws.drop 1).take (fld (ws.getD 1 0) 13 10 + 1 + 1)) = ws.getD (fld (ws.getD 1 0) 13 10 + 1 + 2) 0)
include hres hcrc

/-- A good packet: its stream's sequence number, and then its samples one after another. -/
theorem State.fspWhole_good : ∃ (k : Nat) (b : Bool), s.fspWhole p ws = ((ws.drop 2).take (fld (ws.getD 1 0) 13 10 + 1)).foldl
      (fun a v => a.gSample p (4 * p + fld (ws.getD 1 0) 15 14) (toSigned 16 v))
      ((s.bump (R.SENSOR_FSP_COUNT_SEQ_GAP p) k).setGstream (4 * p + fld (ws.getD 1 0) 15 14)
        { s.gstream (4 * p + fld (ws.getD 1 0) 15 14) with lastSeq := some (fld (ws.getD 1 0) 9 4), sfault := b }) := by
  have hgood : ¬(fld (ws.getD 1 0) 2 0 ≠ 0 ∨
      crc16 ((ws.drop 1).take (fld (ws.getD 1 0) 13 10 + 1 + 1)) ≠ ws.getD (fld (ws.getD 1 0) 13 10 + 1 + 2) 0) := by
    rw [not_or, not_not, not_not]
    exact ⟨hres, hcrc⟩
  exact ⟨_, _, if_neg hgood⟩

/-- What a good packet's words leave alone. -/
theorem State.fspWhole_proj {γ : Type} (π : State → γ) (hg : ∀ (t : State) (v : GStream), π (t.setGstream (4 * p + fld (ws.getD 1 0) 15 14) v) = π t)
    (hb : ∀ (t : State) (f : RField) (k : Nat), π (t.bump f k) = π t) : π (s.fspWhole p ws) = π s := by
  obtain ⟨k, b, hwhole⟩ := State.fspWhole_good (s := s) (p := p) hres hcrc
  rw [hwhole, foldl_proj π (fun a v => State.gSample_proj π p _ hg hb a _), hg, hb]

/-- A good packet whose samples fit its stream's queue. -/
theorem State.fspWhole_gstream (hlen : ws.length = fld (ws.getD 1 0) 13 10 + 4)
    (hfits : (s.gstream (4 * p + fld (ws.getD 1 0) 15 14)).queue.length + (fld (ws.getD 1 0) 13 10 + 1) ≤ 64) :
    ∃ b, (s.fspWhole p ws).gstream (4 * p + fld (ws.getD 1 0) 15 14) = { s.gstream (4 * p + fld (ws.getD 1 0) 15 14) with
      queue := (s.gstream (4 * p + fld (ws.getD 1 0) 15 14)).queue ++ ((ws.drop 2).take (fld (ws.getD 1 0) 13 10 + 1)).map (toSigned 16)
      lastSeq := some (fld (ws.getD 1 0) 9 4), sfault := b } := by
  obtain ⟨k, b, hwhole⟩ := State.fspWhole_good (s := s) (p := p) hres hcrc
  have hcount : ((ws.drop 2).take (fld (ws.getD 1 0) 13 10 + 1)).length = fld (ws.getD 1 0) 13 10 + 1 := by
    rw [List.length_take, List.length_drop]
    omega
  refine ⟨b, ?_⟩
  rw [hwhole, State.gstream_foldl_gSample _ _ _ _ (by rw [State.gstream_setGstream, if_pos rfl, hcount]; exact hfits),
    State.gstream_setGstream, if_pos rfl]

end good

/-! ### Lanes at a boundary (R441) -/

theorem State.lane_modLane (s : State) (l k : Nat) (f : Lane → Lane) : (s.modLane l f).lane k = if k = l then f (s.lane l) else s.lane k :=
  Tab.get_put _ _ _ _ _

/-- The OR stage changes of a lane its trip only. -/
theorem State.orStage_lane_proj {γ : Type} (π : Lane → γ) (hπ : ∀ x b, π { x with tripped := b } = π x) (s : State) (l : Nat) :
    π (s.orStage.lane l) = π (s.lane l) := by
  have hone : ∀ (t : State) (k : Nat), π ((t.tripLane k).lane l) = π (t.lane l) := by
    intro t k
    have hmod : ∀ f : Lane → Lane, π (f (t.lane k)) = π (t.lane k) → π ((t.modLane k f).lane l) = π (t.lane l) := by
      intro f hf
      rw [State.lane_modLane]
      split
      · next hl => rw [hf, hl]
      · rfl
    unfold State.tripLane
    split
    · exact hmod _ (hπ _ _)
    · split
      · exact hmod _ (hπ _ _)
      · rfl
  unfold State.orStage
  split
  · rfl
  · exact foldl_proj (fun t : State => π (t.lane l)) (f := State.tripLane) (fun t k => hone t k) _ _

theorem State.slackEnds_lane_on (s : State) (k l : Nat) : ((s.slackEnds k).lane l).on = (s.lane l).on := by
  unfold State.slackEnds
  have hperi : ∀ (ws : List (Nat × Nat × Nat)) (t : State), ((ws.foldl (fun a w => a.setPeri w.1 w.2.1 w.2.2) t).lane l).on = (t.lane l).on :=
    foldl_proj (fun t : State => (t.lane l).on) fun _ _ => rfl
  refine (hperi _ _).trans ((congrArg Lane.on (Tab.get_put _ _ _ _ _)).trans ?_)
  split
  · next hl => rw [hl]
  · rfl

theorem upTo_eq_nil {n : Nat} {p : Nat → Bool} (h : ∀ l, l < n → p l = false) : upTo n p = [] := by
  rw [upTo, List.filter_eq_nil_iff]
  intro l hl
  rw [h l (List.mem_range.1 hl)]
  exact Bool.false_ne_true

theorem upTo_eq_range {n : Nat} {p : Nat → Bool} (h : ∀ l, l < n → p l = true) : upTo n p = List.range n :=
  List.filter_eq_self.2 fun l hl => h l (List.mem_range.1 hl)

/-- A boundary at which no lane is enabled, present or stopping. -/
theorem State.boundary_still {s : State} (h : ∀ l, l < 16 → (s.lane l).on = false ∧ (s.lane l).started = false ∧
    (s.lane l).stopping = false ∧ (s.lane l).present = false) (late : List Nat) :
    let x := ({ (s.bumpWrap R.GUARD_FRAME_COUNT 1).wr R.GUARD_FRAME_TIME_TIME s.now with guard := { s.guard with tripMask := 0xFFFF } } : State).orStage
    let y := ((List.range 16).foldl State.slackEnds x).ageStreams
    s.boundary late = ({ y with guard := { y.guard with frameNext := max s.guard.frameNext s.now + s.framePeriod } } : State).clearStreams := by
  intro x y
  have hlane : ∀ l, ((s.bumpWrap R.GUARD_FRAME_COUNT 1).wr R.GUARD_FRAME_TIME_TIME s.now).lane l = s.lane l := fun l => by
    rw [State.lane, State.wr_guard, State.bumpWrap_guard, State.lane]
  have hguard : ({ (s.bumpWrap R.GUARD_FRAME_COUNT 1).wr R.GUARD_FRAME_TIME_TIME s.now with guard := { s.guard with tripMask := 0xFFFF } } : State).guard.lanes =
      s.guard.lanes := rfl
  have hx : ∀ {γ : Type} (π : Lane → γ), (∀ z b, π { z with tripped := b } = π z) → ∀ l, π (x.lane l) = π (s.lane l) :=
    fun π hπ l => (State.orStage_lane_proj π hπ _ l).trans (congrArg (fun t => π (Tab.get (fun _ => Lane.init) t l)) hguard)
  have hstops : (upTo 16 fun l => (s.lane l).stopping) = [] := upTo_eq_nil fun l hl => by
    obtain ⟨-, -, hstop, -⟩ := h l hl
    exact hstop
  have hruns : (upTo 16 fun l => (s.lane l).started) = [] := upTo_eq_nil fun l hl => by
    obtain ⟨-, hrun, -, -⟩ := h l hl
    exact hrun
  have habsent : (upTo 16 fun l => !(s.lane l).present || (s.lane l).tripped) = List.range 16 := upTo_eq_range fun l hl => by
    obtain ⟨-, -, -, hpresent⟩ := h l hl
    rw [hpresent]
    rfl
  have hwakes : (upTo 16 fun l => (x.lane l).present && (x.lane l).tripped) = [] := upTo_eq_nil fun l hl => by
    obtain ⟨-, -, -, hpresent⟩ := h l hl
    rw [hx Lane.present (fun _ _ => rfl), hpresent]
    rfl
  have hon : (upTo 16 fun l => (((List.range 16).foldl State.slackEnds x).lane l).on) = [] := upTo_eq_nil fun l hl => by
    obtain ⟨hoff, -, -, -⟩ := h l hl
    rw [foldl_proj (fun t : State => (t.lane l).on) (fun t k => State.slackEnds_lane_on t k l), hx Lane.on (fun _ _ => rfl), hoff]
  have hmask : (List.range 16).foldl (fun m l => putBit m l true) 0 = 0xFFFF := by decide
  have hstart : ({ (s.bumpWrap R.GUARD_FRAME_COUNT 1).wr R.GUARD_FRAME_TIME_TIME s.now with
      guard := { ((s.bumpWrap R.GUARD_FRAME_COUNT 1).wr R.GUARD_FRAME_TIME_TIME s.now).guard with tripMask := 0xFFFF } } : State).orStage = x := by
    rw [State.wr_guard, State.bumpWrap_guard]
  simp only [State.boundary, hstops, hruns, List.foldl_nil, hlane, habsent, hmask, hstart, hwakes, hon]
  rfl

/-! ### FSP_PACKET -/

section arrival
variable {s : State} {p : Nat} {ws : List Nat}

theorem exec_fspPacket_of (hp : p < 4) (hup : s.guard.up = true) (hen : s.flag (R.SENSOR_FSP_STATUS_ENABLE p) = true) :
    exec (.fspPacket p ws) s = .next (s.fspPacket p ws) := by
  rw [exec_fspPacket, execFspPacket, unit_of (decide_eq_true hp), when_of (by rw [hup, hen]; rfl)]

/-- The receiver's state after an arrival, from what the scan gives. -/
theorem State.fspPacket_eq {u : State} {bs : List Nat} (h : State.fspScan (Tab.get (fun _ => []) s.guard.rx p ++ ws.flatMap wordBits).length
    (s.setFlag (R.SENSOR_FSP_STATUS_CLK p) true) p (Tab.get (fun _ => []) s.guard.rx p ++ ws.flatMap wordBits) = (u, bs))
    (hrx : u.guard.rx = s.guard.rx) :
    s.fspPacket p ws = { u with guard := { u.guard with rx := Tab.put (fun _ => []) s.guard.rx p bs } } := by
  simp only [State.fspPacket, h, hrx]

/-- The scan of an arrival behind no bits. -/
theorem State.fspPacket_fresh (hno : Tab.get (fun _ => []) s.guard.rx p = []) {u : State} {bs : List Nat}
    (h : State.fspScan (ws.flatMap wordBits).length (s.setFlag (R.SENSOR_FSP_STATUS_CLK p) true) p (ws.flatMap wordBits) = (u, bs))
    (hrx : u.guard.rx = s.guard.rx) :
    s.fspPacket p ws = { u with guard := { u.guard with rx := Tab.put (fun _ => []) s.guard.rx p bs } } :=
  State.fspPacket_eq (by rw [hno, List.nil_append, h]) hrx

end arrival

/-- Settles O34: the boundary with no lane on it, and the receiver on whole, cut and absent packets. -/
theorem guardFrames : Obligations.GuardFrames := by
  unfold Obligations.GuardFrames
  refine ⟨?frame, fun s late h => State.boundary_still h late, ?verdict, ?trim, ?packet, ?silent, ?clock⟩
  case frame =>
    intro s late hup hdue
    rw [exec_frameBoundary, execFrameBoundary, when_of (by rw [hup, hdue]; rfl)]
    rfl
  case verdict =>
    intro s l _
    have hword : 0xFF12 % 2 ^ (15 + 1 - 0) = 0xFF12 := by decide
    exact (State.rd_wr_same _ _ _ rfl).trans hword
  case trim =>
    intro s hup hdue
    rw [exec_guardOscTrim, execGuardOscTrim, when_of hup, State.oscTrim, if_pos hdue, done]
  case packet =>
    intro s p ws hp hup hen hrx hw hsync s1 kept h n st
    have hrun := exec_fspPacket_of (ws := ws) hp hup hen
    have hsome : ∃ fuel, (ws.flatMap wordBits).length = fuel + 1 := by
      have hne : ws ≠ [] := fun he => by simp [he] at hsync
      have hpos := List.length_pos_of_ne_nil hne
      exact ⟨16 * ws.length - 1, by rw [length_flatMap_wordBits]; omega⟩
    obtain ⟨fuel, hfuel⟩ := hsome
    refine ⟨fun hcut => ?_, fun hwhole hbad => ?_, fun hwhole hres hcrc hfits => ?_⟩
    · rw [hrun, State.fspPacket_fresh hrx (State.fspScan_cut hw hsync hcut _) (by rw [State.setFlag_guard])]
    · have hscan := State.fspScan_whole (s := s1) (p := p) hw hsync hwhole fuel
      rw [State.fspWhole_bad hbad, ← hfuel] at hscan
      rw [hrun, State.fspPacket_fresh hrx hscan (by rw [State.bump_guard, State.setFlag_guard])]
    · have hscan := State.fspScan_whole (s := s1) (p := p) hw hsync hwhole fuel
      have hflag : ∀ k, s1.gstream k = s.gstream k := fun k => by rw [State.gstream, State.setFlag_guard, State.gstream]
      have hkeeps : ∀ {γ : Type} (π : State → γ), (∀ t v, π (State.setGstream t st v) = π t) → (∀ t f k, π (State.bump t f k) = π t) →
          π (s1.fspWhole p ws) = π s1 := fun π => State.fspWhole_proj hres hcrc π
      obtain ⟨b, hstream⟩ := State.fspWhole_gstream (s := s1) (p := p) hres hcrc hwhole (by rw [hflag]; exact hfits)
      rw [← hfuel] at hscan
      have hrx1 : (s1.fspWhole p ws).guard.rx = s.guard.rx := by
        rw [hkeeps (fun t => t.guard.rx) (fun _ _ => rfl) (fun _ _ _ => by rw [State.bump_guard]), State.setFlag_guard]
      refine ⟨_, hrun.trans (congrArg _ (State.fspPacket_fresh hrx hscan hrx1)), ?_, ?_, fun k hk => ?_, ?_, ?_⟩
      · exact (congrArg GStream.queue hstream).trans (by rw [hflag])
      · exact congrArg GStream.lastSeq hstream
      · refine (hkeeps (fun t => t.gstream k) (fun t v => ?_) (fun t f n => State.gstream_bump t f n k)).trans (hflag k)
        rw [State.gstream_setGstream, if_neg hk]
      · exact (hkeeps State.mem (fun _ _ => rfl) State.bump_mem).trans (State.setFlag_mem _ _ _)
      · exact (hkeeps State.arr (fun _ _ => rfl) State.bump_arr).trans (State.setFlag_arr _ _ _)
  case silent =>
    intro s p ws hp hup hen bs hsync
    rw [exec_fspPacket_of hp hup hen, State.fspPacket_eq (State.fspScan_silent _ _ _ _ le_rfl hsync) (by rw [State.setFlag_guard]), State.setFlag_guard]
  case clock =>
    intro s p hp
    rw [exec_fspClockLoss, execFspClockLoss, unit_of (decide_eq_true hp)]

end Sys2Proof.Machine
end

section
/-!
PROOFS. Guard checks, calibration and the enabling of lanes (R455, R471 to R473).
-/

namespace Sys2Proof.Machine

section checks
variable {s : State} {l : Nat}

theorem exec_guardCheckEval_of (hl : l < 16) (hup : s.guard.up = true) : exec (.guardCheckEval l) s = .next (s.guardCheck l) := by
  rw [exec_guardCheckEval, execGuardCheckEval, unit_of (decide_eq_true hl), when_of hup]

theorem exec_guardCheckRetry_of (hl : l < 16) (hup : s.guard.up = true) : exec (.guardCheckRetry l) s = .next (s.guardRetry l) := by
  rw [exec_guardCheckRetry, execGuardCheckRetry, unit_of (decide_eq_true hl), when_of hup]

theorem exec_guardCalibration_of {e : Nat} (hl : l < 16) (he : e < 4) (hup : s.guard.up = true) :
    exec (.guardCalibration l e) s = .next (s.guardCal l e) := by
  rw [exec_guardCalibration, execGuardCalibration, unit_of (decide_eq_true ⟨hl, he⟩), when_of hup]

/-- A check that is not due, or for which the frame has no room left, does not occur (R471). -/
theorem State.guardCheck_none (h : (s.lane l).checkAge < 250 ∨ (s.lane l).slack = true ∨
    s.engineFree (guardEngine l ((s.lane l).checkNext / 4)) = false) : s.guardCheck l = s := by
  refine if_neg fun hruns => ?_
  simp only [Bool.and_eq_true, Bool.not_eq_true', decide_eq_true_eq] at hruns
  obtain ⟨⟨⟨-, hslack⟩, hage⟩, hfree⟩ := hruns
  obtain h | h | h := h
  · omega
  · simp [h] at hslack
  · simp [h] at hfree

/-- The check of the next engine and vector. -/
theorem State.guardCheck_due (hs : (s.lane l).started = true) (hage : 250 ≤ (s.lane l).checkAge) (hslack : (s.lane l).slack = false)
    (hfree : s.engineFree (guardEngine l ((s.lane l).checkNext / 4)) = true) {r : State × Option (List (Nat × Bool))}
    (hr : (s.setLane l { s.lane l with checkAge := 0, checkNext := ((s.lane l).checkNext + 1) % 16, slack := true }).runVector
      (guardEngine l ((s.lane l).checkNext / 4)) 0 ((s.lane l).checkNext % 4) = r) :
    s.guardCheck l = if (r.2.getD []).map Prod.fst = [] then r.1 else r.1.modLane l fun y =>
      { y with retry := y.retry ++ [((s.lane l).checkNext / 4, (s.lane l).checkNext % 4, (r.2.getD []).map Prod.fst, 500)] } := by
  have hruns : ((s.lane l).started && !(s.lane l).slack && decide (250 ≤ (s.lane l).checkAge) &&
      s.engineFree (guardEngine l ((s.lane l).checkNext / 4))) = true := by
    rw [hs, hslack, hfree, decide_eq_true hage]
    rfl
  simp only [State.guardCheck, if_pos hruns, hr]
  cases r.2 with
  | none => rfl
  | some f => cases f <;> rfl

/-- The repeat of a failed check that is due. -/
theorem State.guardRetry_due (hs : (s.lane l).started = true) {q : Nat × Nat × List Nat × Nat}
    (hq : ((s.lane l).retry.find? fun r => r.2.2.2 == 0) = some q) (hslack : (s.lane l).slack = false)
    (hfree : s.engineFree (guardEngine l q.1) = true) {r : State × Option (List (Nat × Bool))}
    (hr : (s.setLane l { s.lane l with retry := (s.lane l).retry.erase q, slack := true }).runVector (guardEngine l q.1) 0 q.2.1 = r) :
    s.guardRetry l = r.1.guardFaults l q.1 (((r.2.getD []).map Prod.fst).filter fun j => q.2.2.1.contains j) := by
  have hruns : (!(s.lane l).started || (s.lane l).slack || !s.engineFree (guardEngine l q.1)) = false := by
    rw [hs, hslack, hfree]
    rfl
  simp only [State.guardRetry, hq, hruns, hr, Bool.false_eq_true, if_false]

/-- The calibration of an engine that needs it, after its 32 slacks. -/
theorem State.guardCal_due {e : Nat} (hs : (s.lane l).started = true) (hdue : (s.deck (guardEngine l e) 0).calDue = true)
    (hfree : s.engineFree (guardEngine l e) = true) (hcal : 32 ≤ (s.lane l).calRuns) :
    s.guardCal l e = ((((s.modLane l fun x => { x with calRuns := 0 }).calibrate (guardEngine l e) 0 none).1.holdTrims
      (s.modLane l fun x => { x with calRuns := 0 }) l (guardEngine l e)).guardFaults l e
        (((s.modLane l fun x => { x with calRuns := 0 }).calibrate (guardEngine l e) 0 none).2.map Prod.fst)) := by
  have hruns : ((s.lane l).started && (s.deck (guardEngine l e) 0).calDue && s.engineFree (guardEngine l e) &&
      decide (32 ≤ (s.lane l).calRuns)) = true := by
    rw [hs, hdue, hfree, decide_eq_true hcal]
    rfl
  exact if_pos hruns

end checks

/-! ### Lanes that are enabled, and lanes that are refused (R455) -/

section enable
variable {s : State} {l : Nat}

theorem State.laneOn_passes (h : s.laneRefusal l = none) : s.laneOn l = s.laneAccepted l := by
  rw [State.laneOn, h]

theorem State.laneOn_refused {r : Nat × Nat} (h : s.laneRefusal l = some r) :
    s.laneOn l = ((s.wr R.GUARD_LANE_ERR_SLOT r.2).wr R.GUARD_LANE_ERR_REASON r.1).wr R.GUARD_LANE_ERR_LANE l := by
  rw [State.laneOn, h]

/-- Of the lanes, an acceptance changes the one that is enabled. -/
theorem State.laneAccepted_lane (k : Nat) : (s.laneAccepted l).lane k = if k = l then { s.lane l with
    code := [], val := [], on := true, started := false, stopping := false, checkAge := 0, retry := [], slack := false, calRuns := 0 }
    else s.lane k := by
  have hdecks : ∀ (es : List Nat) (f : Nat → Deck → Deck) (t : State), (es.foldl (fun a e => a.modDeck (guardEngine l e) 0 (f e)) t).guard = t.guard :=
    fun es f => foldl_proj State.guard (fun a e => State.modDeck_guard _ _ _ _) es
  rw [State.lane, State.laneAccepted, State.wr_guard, hdecks _ fun _ d => if d.retired || !d.pbo then d else { d with calDue := true }]
  exact Tab.get_put _ _ _ _ _

theorem State.laneAccepted_enabled (hl : l < 16) : bit ((s.laneAccepted l).rd R.GUARD_CTRL_LANE_EN) l = true := by
  rw [State.laneAccepted, State.rd_wr_same _ _ _ rfl]
  refine (bit_mod_two_pow hl _).trans ?_
  rw [bit_putBit, if_pos rfl]

end enable

/-- Settles O35: each event in the state the statement names, and a lane by what its check answers. -/
theorem guardLanes : Obligations.GuardLanes := by
  unfold Obligations.GuardLanes
  refine ⟨?check, ?retry, ?cal, ?write, ?accepted, ?refused⟩
  case check =>
    intro s l hl hup hs x e s1 r
    refine ⟨fun h => ?_, ?_⟩
    · rw [exec_guardCheckEval_of hl hup, State.guardCheck_none h]
    · intro failed hage hslack hfree
      rw [exec_guardCheckEval_of hl hup, State.guardCheck_due hs hage hslack hfree rfl]
  case retry =>
    intro s l q hl hup hs hq hslack hfree r
    rw [exec_guardCheckRetry_of hl hup, State.guardRetry_due hs hq hslack hfree rfl]
  case cal =>
    intro s l e hl he hup hs hdue hfree hcal s1 r
    rw [exec_guardCalibration_of hl he hup, State.guardCal_due hs hdue hfree hcal]
  case write =>
    intro s v hup
    rw [exec_laneEnWrite, execLaneEnWrite, when_of hup, done, State.cmdWrite]
  case accepted =>
    intro s l hl h
    rw [State.laneOn_passes h, State.laneAccepted_lane, if_pos rfl]
    refine ⟨rfl, rfl, rfl, rfl, State.laneAccepted_enabled hl, fun k hk => ?_⟩
    rw [State.laneAccepted_lane, if_neg hk]
  case refused =>
    intro s l r n hl h hr hn
    rw [State.laneOn_refused h]
    refine ⟨?_, ?_, ?_, ?_, ?_⟩
    · simp only [State.wr_guard]
    · rw [State.rd_wr_same _ _ _ rfl]
      exact Nat.mod_eq_of_lt hl
    · rw [State.rd_wr_other _ _ _ _ rfl rfl, State.rd_wr_same _ _ _ rfl]
      exact Nat.mod_eq_of_lt hr
    · rw [State.rd_wr_other _ _ _ _ rfl rfl, State.rd_wr_other _ _ _ _ rfl rfl, State.rd_wr_same _ _ _ rfl]
      exact Nat.mod_eq_of_lt hn
    · rw [State.rd_wr_other _ _ _ _ rfl rfl, State.rd_wr_other _ _ _ _ rfl rfl, State.rd_wr_other _ _ _ _ rfl rfl]

end Sys2Proof.Machine
end

section
/-!
PROOFS. Wake events and the way back to RUN (R499 to R505).
-/

namespace Sys2Proof.Machine

/-! ### Wake events -/

section events
variable {s : State} {src detail : Nat} (hh : s.halted = false) (ha : s.aon = true) (hen : s.wakeEnabled src = true)
include hh ha hen

/-- The first event of a lower state (R499). -/
theorem State.wake_first (he : s.power.entry = none) (hacts : wakeActs src s.power.st s.guard.up = true) (hr : s.power.recorded = false) :
    s.wake src detail =
      ({ (s.bump (R.PSTATE_WAKE_COUNT_COUNT (src - 1)) 1).recordWake ⟨src, detail, s.now⟩ s.power.st false with
        power := { ((s.bump (R.PSTATE_WAKE_COUNT_COUNT (src - 1)) 1).recordWake ⟨src, detail, s.now⟩ s.power.st false).power with
          recorded := true } } : State).startExit src := by
  simp [State.wake, hh, ha, hen, he, hacts, hr]

/-- A later one is only counted. -/
theorem State.wake_later (he : s.power.entry = none) (hacts : wakeActs src s.power.st s.guard.up = true) (hr : s.power.recorded = true) :
    s.wake src detail = s.bump (R.PSTATE_WAKE_COUNT_COUNT (src - 1)) 1 := by
  simp [State.wake, hh, ha, hen, he, hacts, hr]

/-- The first event of an entry is latched (R501). -/
theorem State.wake_latches {t : PState} (he : s.power.entry = some t) (hacts : wakeActs src t s.guard.up = true) (hl : s.power.latched = none) :
    s.wake src detail = { s.bump (R.PSTATE_WAKE_COUNT_COUNT (src - 1)) 1 with power := { s.power with latched := some ⟨src, detail, s.now⟩ } } := by
  simp [State.wake, hh, ha, hen, he, hacts, hl]

end events

/-! ### PSTATE.LAST_WAKE -/

theorem State.word64_setWord64_mod (s : State) (k v : Nat) : (s.setWord64 k v).word64 k = v % 2 ^ 64 := by
  unfold State.word64 State.setWord64
  rw [State.word_setWord_same, State.word_setWord_other _ _ (by omega : k ≠ k + 4), State.word_setWord_same]
  omega

theorem State.rd_recordWake_time (s : State) (w : Wake) (p : PState) (b : Bool) :
    (s.recordWake w p b).rd R.PSTATE_LAST_WAKE_TIME_TIME = w.time % 2 ^ 64 := by
  have hword : (s.recordWake w p b).rd R.PSTATE_LAST_WAKE_TIME_TIME = fld ((s.recordWake w p b).word64 0x40028) 63 0 := if_neg (by decide)
  rw [hword, State.recordWake, State.word64_setWord64_mod, fld, Nat.shiftRight_zero]
  exact Nat.mod_mod _ _

/-- The word that names the event. -/
theorem State.word_recordWake (s : State) (w : Wake) (p : PState) (b : Bool) :
    (s.recordWake w p b).word 0x40020 = (b2n b * 2 ^ 31 + p.code * 2 ^ 28 + w.source * 2 ^ 24 + w.detail % 256 * 2 ^ 16) % 2 ^ 32 := by
  rw [State.recordWake, State.setWord64, State.word_setWord_other _ _ (by decide), State.word_setWord_other _ _ (by decide),
    State.word_setWord_same]

/-! ### The exit and its end -/

theorem State.deliverHeld_none {s : State} (h : s.errs.held = []) : s.deliverHeld = s := by
  simp only [State.deliverHeld, h, List.foldl_nil]
  rw [← h]

/-- LOGIC_RDY on the way from a state above DEEP with nothing that waits (R502, R504). -/
theorem State.logicRdy_quiet {s : State} (hreq : s.power.reqHeld = none) (hheld : s.errs.held = []) (hst : s.power.st.deepOrOff = false)
    (keyOk : Bool) : s.logicRdy keyOk = ((List.range 8).foldl State.startVisits { s with power := { s.power with
      st := .run, exit := 0, repeated := false, recorded := false, reqHeld := none, idleSince := s.now } }).openHems.retarget := by
  have hnone : ({ s with power := { s.power with
      st := .run, exit := 0, repeated := false, recorded := false, reqHeld := none, idleSince := s.now } } : State).errs.held = [] := hheld
  simp only [State.logicRdy, State.deliverHeld_none hnone, hst, hreq, Bool.false_eq_true, if_false]

theorem State.foldl_startVisits (ds : List Nat) (s : State) :
    (ds.foldl State.startVisits s).power = s.power ∧ (ds.foldl State.startVisits s).pegs = s.pegs ∧ (ds.foldl State.startVisits s).mem = s.mem :=
  ⟨foldl_proj State.power (f := State.startVisits) (fun _ _ => rfl) _ _, foldl_proj State.pegs (f := State.startVisits) (fun _ _ => rfl) _ _,
    foldl_proj State.mem (f := State.startVisits) (fun _ _ => rfl) _ _⟩

/-- An exit from SLEEP in native mode begins with its first step. -/
theorem State.startExit_sleep {s : State} (hx : s.power.exit = 0) (hst : s.power.st = .sleep) (hl : s.legacy = false) (src : Nat) :
    (s.startExit src).power.exit = 1 ∧ (s.startExit src).power.recorded = s.power.recorded ∧ (s.startExit src).power.st = .sleep := by
  simp [State.startExit, hx, hst, hl]

/-- Settles O41: an event by what `wake` does with it, and the exit's steps in their order. -/
theorem wakingUp : Obligations.WakingUp := by
  unfold Obligations.WakingUp
  refine ⟨?event, fun s => rfl, ?device, ?exit, ?ready⟩
  case event =>
    intro s src detail hd hh ha hen
    have hrun : exec (.wakeEvent src detail) s = .next (s.wake src detail) := by
      rw [exec_wakeEvent, execWakeEvent, unit_of hd]
    rw [hrun]
    refine ⟨fun hst he => ?_, fun he hacts hr => ?_, fun he hacts hr => ?_, fun t he hacts hl => ?_⟩
    · rw [State.wake_run _ _ hst he]
    · exact congrArg _ (State.wake_first hh ha hen he hacts hr)
    · rw [State.wake_later hh ha hen he hacts hr]
    · rw [State.wake_latches hh ha hen he hacts hl]
  case device =>
    intro s hh ha hx he hr hst hl
    have hacts : wakeActs 1 s.power.st s.guard.up = true := by rw [hst]; rfl
    have hwake := State.wake_first (detail := 0) hh ha rfl he hacts hr
    generalize hrec : (s.bump (R.PSTATE_WAKE_COUNT_COUNT (1 - 1)) 1).recordWake ⟨1, 0, s.now⟩ s.power.st false = u at hwake
    have hpower : u.power = s.power := by rw [← hrec, State.recordWake_power, State.bump_power]
    have hboard : u.board = s.board := by rw [← hrec, State.recordWake_board, State.bump_board]
    have hword : u.word 0x40020 = 0x21000000 := by
      rw [← hrec, State.word_recordWake, hst]
      norm_num [b2n, PState.code]
    have hfield : ∀ f : RField, f.msb < 32 → f.key = 0x40020 → u.rd f = fld 0x21000000 f.msb f.lsb := fun f hf hk => by
      rw [State.rd, if_pos hf, hk, hword]
    obtain ⟨hexit, hrecorded, hsleep⟩ := State.startExit_sleep (s := { u with power := { u.power with recorded := true } })
      (by rw [hpower]; exact hx) (by rw [hpower]; exact hst) ((State.legacy_congr (s := s) (by rw [hboard])).trans hl) 1
    refine ⟨_, congrArg done hwake, hexit, hrecorded, hsleep, ?_, ?_, ?_, ?_⟩
    · rw [State.rd_startExit, State.rd_with_power, hfield _ (by decide) (by decide)]
      decide
    · rw [State.rd_startExit, State.rd_with_power, hfield _ (by decide) (by decide)]
      decide
    · rw [State.rd_startExit, State.rd_with_power, ← hrec, State.rd_recordWake_time]
    · rw [State.startExit_mem]
      exact (congrArg State.mem hrec.symm).trans (by rw [State.recordWake_mem, State.bump_mem])
  case exit =>
    intro s hh ha
    have hwait : ∀ n, s.power.exit = n → s.awaiting n = true := fun n h => by simp [State.awaiting, h, hh, ha]
    refine ⟨fun h => ?_, fun h hl => ?_, fun h hl => ?_, fun h => ?_, fun keyOk h hw => ?_, fun h hr => ?_, fun h hr => ?_⟩
    · rw [exec_vrPgood, execVrPgood, when_of (hwait 1 h), done]
    · rw [exec_oscRdy, execOscRdy, when_of (hwait 2 h), hl, done]
      rfl
    · rw [exec_oscRdy, execOscRdy, when_of (hwait 2 h), hl, if_pos rfl, done]
    · rw [exec_memRdy, execMemRdy, when_of (hwait 3 h), done]
    · rw [exec_logicRdy, execLogicRdy, when_of (hwait 4 h), State.exitEnds, hw, done]
    · simp [execReadyTimeout, State.readyMissed, h, hh, hr, done]
    · simp [execReadyTimeout, State.readyMissed, h, hh, hr, done]
  case ready =>
    intro s keyOk hreq hheld hposted hst
    obtain ⟨hpower, hpegs, hmem⟩ := State.foldl_startVisits (List.range 8) { s with power := { s.power with
      st := .run, exit := 0, repeated := false, recorded := false, reqHeld := none, idleSince := s.now } }
    have hnone := (congrArg Pegs.posted hpegs).trans hposted
    rw [State.logicRdy_quiet hreq hheld hst, State.retarget_power, State.openHems_none hnone,
      State.retarget_proj State.mem State.wr_mem (fun _ _ => rfl) (fun _ _ => rfl)]
    exact ⟨congrArg Power.st hpower, congrArg Power.exit hpower, rfl, hmem⟩

end Sys2Proof.Machine
end

section
/-!
PROOFS. Event rings, ERRLOG, watchdogs and thermal trips (R595 to R601, R609, R657).
-/

namespace Sys2Proof.Machine

/-! ### The record engine (R595) -/

section engine
variable {s : State} (hh : s.halted = false) (hm : s.reportsToMaster = false)
include hh hm

theorem State.recordStep_closed (hl : s.linkOpen = false) : s.recordStep = s := by
  simp only [State.recordStep, hh, hm, hl, Bool.false_eq_true, if_false, Bool.not_false, if_true]

theorem State.recordStep_marker (hl : s.linkOpen = true) {f : Nat} (hf : s.markerDue = some f) : s.recordStep = s.overflowMarker f := by
  simp only [State.recordStep, hh, hm, hl, hf, Bool.false_eq_true, if_false, Bool.not_true]

theorem State.recordStep_record (hl : s.linkOpen = true) (hf : s.markerDue = none) {j : RingJob} {t : List RingJob} (ht : s.errs.toRings = j :: t) :
    s.recordStep = ({ s with errs := { s.errs with toRings := t } } : State).deliverEvent j.ring j.record := by
  simp only [State.recordStep, hh, hm, hl, hf, ht, Bool.false_eq_true, if_false, Bool.not_true]

end engine

/-! ### ERRLOG.HEAD and FATAL_VALID (R597, R601) -/

theorem State.writeErrlogHead_power (s : State) (v : Nat) : (s.writeErrlogHead v).power = s.power := by
  simp only [State.writeErrlogHead, apply_ite State.power, State.wr_power, ite_self]

theorem State.writeFatalValid_power (s : State) (v : Nat) : (s.writeFatalValid v).power = s.power := by
  simp only [State.writeFatalValid, apply_ite State.power, State.setFlag_power, State.setWords_power, ite_self]

section steady
variable {s : State} (h : s.steady = true) (v : Nat)
include h

theorem exec_errlogHeadWrite_of : exec (.errlogHeadWrite v) s = .next ((s.dropHeld 0).writeErrlogHead v) := by
  rw [exec_errlogHeadWrite, execErrlogHeadWrite, when_of (State.steady_hubUp h), done,
    State.cmdWrite_steady (g := fun s => s.writeErrlogHead v) h ((State.writeErrlogHead_power _ v).trans (State.dropHeld_power s 0))]

theorem exec_fatalValidClear_of : exec (.fatalValidClear v) s = .next ((s.dropHeld 0).writeFatalValid v) := by
  rw [exec_fatalValidClear, execFatalValidClear, when_of (State.steady_hubUp h), done,
    State.cmdWrite_steady (g := fun s => s.writeFatalValid v) h ((State.writeFatalValid_power _ v).trans (State.dropHeld_power s 0))]

end steady

/-! ### DOUBLE_FAULT (R599) -/

theorem State.halt_toRings (s : State) (r : Record) : (s.halt r).errs.toRings = s.errs.toRings := by
  unfold State.halt
  rw [State.setFlag_errs, State.setFlag_errs]
  split
  · rfl
  · rw [State.setFlag_errs, State.setWords_errs]

theorem State.halted_of_fatal {s : State} (h : s.flag R.ERRLOG_STATUS_FATAL = true) : s.halted = true := by
  rw [State.halted, h, Bool.true_or]

theorem State.doubleFault_halts (s : State) (code seq : Nat) :
    (s.doubleFault code seq).halted = true ∧ (s.doubleFault code seq).errs.faultPin = true ∧
      (s.doubleFault code seq).errs.toRings = s.errs.toRings ∧
      (s.doubleFault code seq).rd R.ERRLOG_TAIL_POSITION = s.rd R.ERRLOG_TAIL_POSITION := by
  obtain ⟨hfatal, -, -, hpin⟩ := State.halt_marks (s.countRecord fatalClass)
    (s.newRecord Rc.doubleFault fatalClass noOwner (code % 65536) (seq % 65536))
  refine ⟨State.halted_of_fatal hfatal, hpin, ?_, ?_⟩
  · rw [State.doubleFault, State.halt_toRings, State.countRecord_toRings]
  · rw [State.doubleFault, State.rd_halt _ _ (by decide) (by decide) rfl rfl, State.rd_countRecord _ (classCount_apart _ (by decide))]

/-! ### Control processors (R609) -/

section processors
variable {s : State} {cp : Nat} (hnot : cp ∉ s.errs.restarting)
include hnot

/-- A first expiry, or one a second and more after the last. -/
theorem State.fwExpires_restarts (h : Tab.get (fun _ => 0) s.errs.wdLast cp = 0 ∨ Tab.get (fun _ => 0) s.errs.wdLast cp - 1 + 1000000000 ≤ s.now) :
    s.fwExpires cp = ({ s with errs := { s.errs with
      wdLast := Tab.put (fun _ => 0) s.errs.wdLast cp (s.now + 1)
      restarting := s.errs.restarting ++ [cp]
      restarts := Tab.put (fun _ => 0) s.errs.restarts cp (Tab.get (fun _ => 0) s.errs.restarts cp + 1) } } : State).raise
        Rc.fwRestart deviceClass noOwner cp (Tab.get (fun _ => 0) s.errs.restarts cp + 1) := by
  have hfree : s.errs.restarting.contains cp = false := by simpa using hnot
  have hfirst : ¬(Tab.get (fun _ => 0) s.errs.wdLast cp ≠ 0 ∧ s.now < Tab.get (fun _ => 0) s.errs.wdLast cp - 1 + 1000000000) := by omega
  simp only [State.fwExpires, hfree, Bool.false_eq_true, if_false, if_neg hfirst]

/-- A second expiry within 1 s is FATAL. -/
theorem State.fwExpires_fatal (h0 : Tab.get (fun _ => 0) s.errs.wdLast cp ≠ 0)
    (h : s.now < Tab.get (fun _ => 0) s.errs.wdLast cp - 1 + 1000000000) :
    s.fwExpires cp = ({ s with errs := { s.errs with wdLast := Tab.put (fun _ => 0) s.errs.wdLast cp (s.now + 1) } } : State).raise
      Rc.fwFatal fatalClass noOwner cp 0 := by
  have hfree : s.errs.restarting.contains cp = false := by simpa using hnot
  simp only [State.fwExpires, hfree, Bool.false_eq_true, if_false, if_pos (And.intro h0 h)]

theorem State.restartDone_other (keyOk : Bool) : s.restartDone cp keyOk = s := by
  have hfree : s.errs.restarting.contains cp = false := by simpa using hnot
  simp only [State.restartDone, hfree, Bool.not_false, if_true]

end processors

/-- The last processor resumes, and the commands that waited run in order. -/
theorem State.restartDone_last {s : State} {cp : Nat} (h : s.errs.restarting = [cp]) (keyOk : Bool) :
    s.restartDone cp keyOk = s.rings.fwWaiting.foldl (fun a c => a.runWaiting keyOk c)
      ({ s with errs := { s.errs with restarting := [] }, rings := { s.rings with fwWaiting := [] } } : State) := by
  simp [State.restartDone, State.fwUp, h]

/-! ### Thermal trips (R657) -/

theorem State.tellMaster_halted (s : State) (r : Record) : (s.tellMaster r).halted = s.halted := by
  unfold State.tellMaster
  split
  · exact State.halted_queueRecord _ _ _
  · rfl

theorem State.raise_fatal_halts {s : State} (h : s.halted = false) (code owner i0 i1 : Nat) : (s.raise code fatalClass owner i0 i1).halted = true := by
  rw [State.raise_fatal code owner i0 i1 h, State.tellMaster_halted]
  obtain ⟨hfatal, -⟩ := State.halt_marks (if s.hubAsleep then s.countRecord fatalClass else
    (s.countRecord fatalClass).logRecord (s.newRecord code fatalClass owner i0 i1)) (s.newRecord code fatalClass owner i0 i1)
  exact State.halted_of_fatal hfatal

/-- A trip of a domain other than the guard's. -/
theorem State.tripped_below {s : State} {d : Nat} (h : d < 9) : s.tripped d = { s.raise Rc.thermalTrip fatalClass noOwner d 0 with
    volt := { (s.raise Rc.thermalTrip fatalClass noOwner d 0).volt with
      off := (s.raise Rc.thermalTrip fatalClass noOwner d 0).volt.off ++
        (tripRails d).filter fun r => !(s.raise Rc.thermalTrip fatalClass noOwner d 0).volt.off.contains r }
    rings := { (s.raise Rc.thermalTrip fatalClass noOwner d 0).rings with
      linkUp := (s.raise Rc.thermalTrip fatalClass noOwner d 0).rings.linkUp && d != 8 } } := if_neg (by omega)

theorem mem_append_filter_not_contains {l m : List Nat} {r : Nat} (h : r ∈ m) : r ∈ l ++ m.filter fun x => !l.contains x := by
  by_cases hl : r ∈ l
  · exact List.mem_append_left _ hl
  · exact List.mem_append_right _ (List.mem_filter.2 ⟨h, by simp [hl]⟩)

theorem exec_thermalTrip_of {s : State} {d : Nat} (hd : d < 10) (ha : s.aon = true) (hp : s.domainPowered d = true) :
    exec (.thermalTrip d) s = .next (s.tripped d) := by
  rw [exec_thermalTrip, execThermalTrip, unit_of (decide_eq_true hd), when_of (by rw [ha, hp]; rfl)]

/-- Settles O52: the record engine by what stands first, and a halt by the marks every FATAL record leaves. -/
theorem errorHandling : Obligations.ErrorHandling := by
  unfold Obligations.ErrorHandling
  refine ⟨?engine, ?head, ?double, ?clear, ?watchdog, ?restarted, ?trip, ?guard⟩
  case engine =>
    intro s hr ha hh hm
    have hrun : exec .eventRingWrite s = .next s.recordStep := by
      rw [exec_eventRingWrite, execEventRingWrite, when_of (by rw [hr, ha]; rfl), done]
    rw [hrun]
    exact ⟨fun hl => by rw [State.recordStep_closed hh hm hl], fun hl hf j t ht => by rw [State.recordStep_record hh hm hl hf ht],
      fun hl f hf => by rw [State.recordStep_marker hh hm hl hf]⟩
  case head =>
    intro s v hs hf t
    refine ⟨fun h => ?_, fun h => ?_⟩
    · have hfrees : ¬((s.dropHeld 0).flag R.ERRLOG_STATUS_FROZEN = true ∨
          posCount ((s.dropHeld 0).rd R.ERRLOG_TAIL_POSITION) ((s.dropHeld 0).rd R.ERRLOG_HEAD_POSITION) 64 <
            posCount ((s.dropHeld 0).rd R.ERRLOG_TAIL_POSITION) (v % 128) 64) := by
        rw [State.flag_dropHeld, hf, State.rd_dropHeld, State.rd_dropHeld, not_or, not_lt]
        exact ⟨Bool.false_ne_true, h⟩
      rw [exec_errlogHeadWrite_of hs, State.writeErrlogHead, if_neg hfrees]
    · rw [exec_errlogHeadWrite_of hs, State.writeErrlogHead, if_pos (.inr (by rw [State.rd_dropHeld, State.rd_dropHeld]; exact h))]
  case double =>
    intro s code seq ha hup _ _
    refine ⟨s.doubleFault code seq, ?_, State.doubleFault_halts s code seq⟩
    rw [exec_doubleFault, execDoubleFault, when_of (by rw [ha, hup]; rfl), done]
  case clear =>
    intro s v hs
    refine ⟨fun h => ?_, fun h => ?_⟩
    · rw [exec_fatalValidClear_of hs, State.writeFatalValid, h, if_neg Bool.false_ne_true]
    · rw [exec_fatalValidClear_of hs, State.writeFatalValid, h, if_pos rfl]
  case watchdog =>
    intro s cp hcp hup hnot last n s1
    have hrun : exec (.fwWatchdog cp) s = .next (s.fwExpires cp) := by
      rw [exec_fwWatchdog, execFwWatchdog, unit_of (decide_eq_true hcp), when_of hup]
    exact ⟨fun h => by rw [hrun, State.fwExpires_restarts hnot h], fun h0 h => by rw [hrun, State.fwExpires_fatal hnot h0 h]⟩
  case restarted =>
    intro s cp keyOk hcp hup
    have hrun : exec (.fwRestartDone cp keyOk) s = .next (s.restartDone cp keyOk) := by
      rw [exec_fwRestartDone, execFwRestartDone, unit_of (decide_eq_true hcp), when_of hup]
    exact ⟨fun h => by rw [hrun, State.restartDone_other h], fun h => by rw [hrun, State.restartDone_last h]⟩
  case trip =>
    intro s d hd ha hp hh
    refine ⟨_, (exec_thermalTrip_of (by omega) ha hp).trans (congrArg _ (State.tripped_below hd)), ?_, fun r hr => ?_, State.raise_mem _ _ _ _ _ _⟩
    · exact State.raise_fatal_halts hh _ _ _ _
    · exact mem_append_filter_not_contains hr
  case guard =>
    intro s ha hp s1 off
    rw [exec_thermalTrip_of (by decide) ha hp]
    rfl

end Sys2Proof.Machine
end

section
/-!
PROOFS. The remote window (R581): an access to the device itself can request a power state, and the request then acts within the entry.
-/

namespace Sys2Proof.Machine

/-- A chain master in RUN whose window names the device itself, with PSTATE.REQ at the window's offset 0. -/
def ownWindow : State := { State.reset with
  regs := [(0x10000, 0x80000000), (0xF0004, 0x20000000), (0xF0200, 0x40000)]
  board := { Board.reset with boot := 7 } }

/-- It after a write through the window that requests IDLE, before the request that carried the write is taken for a wake event. -/
def ownWindowIdle : State := (ownWindow.dropHeld 0).remoteAccess 0 true 0 0x80000001

theorem exec_remoteWindowAccess_ownWindow : exec (.remoteWindowAccess 0 true 0x80000001) ownWindow = .next (ownWindowIdle.wake 3 0) := by
  have hup : ownWindow.hubUp = true := by decide +kernel
  rw [exec_remoteWindowAccess, execRemoteWindowAccess, unit_of (by decide), when_of hup]
  rfl

/-- The write starts an entry for IDLE, in which no wake event is latched. -/
theorem ownWindowIdle_entry : ownWindowIdle.power.entry = some .idle ∧ ownWindowIdle.power.latched = none := by decide +kernel

/-- Refutes O50: REMOTE_WINDOW_ACCESS is a host request and so a wake event of source 3 (R499) after its access. Where the window shows the device its
own PSTATE.REQ, the access starts an entry, and the event is latched in it: the step's state is not the access's alone. -/
theorem not_portsAndPins : ¬ Obligations.PortsAndPins := by
  unfold Obligations.PortsAndPins
  rintro ⟨⟨-, -, -, -, -, hwindow, -⟩, -⟩
  obtain ⟨hentry, hlatched⟩ := ownWindowIdle_entry
  have hsteady : ownWindow.steady = true := by decide +kernel
  obtain ⟨hclaim, -⟩ := hwindow ownWindow 0 0x80000001 true (by decide) hsteady (by decide)
  have hsame : ownWindowIdle.wake 3 0 = ownWindowIdle := Host.Outcome.next.inj (exec_remoteWindowAccess_ownWindow.symm.trans hclaim)
  have hhalted : ownWindowIdle.halted = false := by decide +kernel
  have haon : ownWindowIdle.aon = true := by decide +kernel
  have hwake := State.wake_latches (src := 3) (detail := 0) hhalted haon rfl hentry rfl hlatched
  have hsome : none = some (⟨3, 0, ownWindowIdle.now⟩ : Wake) :=
    hlatched.symm.trans (congrArg (fun t : State => t.power.latched) (hsame.symm.trans hwake))
  exact Option.some_ne_none _ hsome.symm

end Sys2Proof.Machine
end

section
/-!
PROOFS. Device time leaves the queue alone (log entry 1, R619): what a step without a command does, operation by operation.
-/

namespace Sys2Proof.Machine

/-! ### The periphery aperture -/

@[simp] theorem State.setPeri_pending (s : State) (e o v : Nat) : (s.setPeri e o v).pending = s.pending := Eq.trans rfl rfl

@[simp] theorem State.dropWindow_pending (s : State) (e : Nat) : (s.dropWindow e).pending = s.pending := by
  simp only [State.dropWindow, apply_ite State.pending, State.bumpPeri, State.setPeri_pending, State.setEngine_pending, ite_self]

@[simp] theorem State.periWrite_pending (s : State) (e o v : Nat) : (s.periWrite e o v).pending = s.pending := by
  simp only [State.periWrite, State.cfgTouched, State.clipClear, apply_ite State.pending, State.setPeri_pending, State.dropWindow_pending, ite_self]

@[simp] theorem State.aperLand_pending (s : State) (e : Nat) : (s.aperLand e).pending = s.pending := by
  refine foldl_proj State.pending (fun a x => ?_) _ _
  simp only [State.aperServe, apply_ite State.pending, State.setFlag_pending, State.periWrite_pending, ite_self]

@[simp] theorem State.aperAll_pending (s : State) : s.aperAll.pending = s.pending := by
  refine foldl_proj State.pending (f := State.aperIn) (fun a e => ?_) _ _
  simp only [State.aperIn, apply_ite State.pending, State.aperLand_pending, ite_self]

/-! ### Stalls, waits, ageing and errors -/

@[simp] theorem State.chargeStalls_pending (s : State) (dt : Nat) : (s.chargeStalls dt).pending = s.pending := Eq.trans rfl rfl

@[simp] theorem State.ageWaits_pending (s : State) (dt : Nat) : (s.ageWaits dt).pending = s.pending := by
  simp only [State.ageWaits, apply_ite State.pending, ite_self]

@[simp] theorem State.scrubClock_pending (s : State) (dt : Nat) : (s.scrubClock dt).pending = s.pending := by
  simp only [State.scrubClock, apply_ite State.pending, ite_self]

@[simp] theorem State.ageStep_pending (s : State) (dt : Nat) : (s.ageStep dt).pending = s.pending := by
  simp only [State.ageStep, State.grow, apply_ite State.pending, State.skip_pending, ite_self]

@[simp] theorem State.upset_pending (s : State) : s.upset.pending = s.pending := State.skip_pending s 1

/-! ### The chain's ports -/

@[simp] theorem State.sendIdle_pending (s : State) (p : Nat) : (s.sendIdle p).pending = s.pending := by
  simp only [State.sendIdle, apply_ite State.pending, State.bump_pending, State.setPort_pending, ite_self]

@[simp] theorem State.pumpPort_pending (s : State) (p : Nat) : (s.pumpPort p).pending = s.pending := by
  simp only [State.pumpPort, apply_ite State.pending, State.bump_pending, State.setPort_pending, ite_self]

@[simp] theorem State.sendFlit_pending (s : State) (dst i : Nat) (pl : Payload) : (s.sendFlit dst i pl).pending = s.pending := by
  unfold State.sendFlit
  split
  · rfl
  · rw [State.enqueue, State.pumpPort_pending, State.setPort_pending]

/-! ### Reads that a darn's source needs -/

@[simp] theorem State.sramRead_pending (s : State) (tier i u a n : Nat) : (s.sramRead tier i u a n).1.pending = s.pending := by
  simp only [State.sramRead, State.sramEcc, apply_ite State.pending, State.bump_pending, ite_self]

@[simp] theorem State.pageFind_pending (s : State) (p blk : Nat) : (s.pageFind p blk).pending = s.pending := by
  unfold State.pageFind
  dsimp only
  split
  · rfl
  · split
    · rfl
    · split
      · rw [State.retirePage, State.raise_pending, State.bump_pending]
      · split
        · rfl
        · rw [State.bump_pending]

@[simp] theorem State.t2Ecc_pending (s : State) (blks : List Nat) : (s.t2Ecc blks).pending = s.pending := by
  unfold State.t2Ecc
  dsimp only
  split
  · rfl
  · refine (foldl_proj State.pending (fun a b => ?_) _ _).trans (State.bump_pending _ _ _)
    rw [State.pageFind_pending, State.poisonT2, State.bump_pending]

@[simp] theorem State.t2Read_pending (s : State) (i h o n : Nat) : (s.t2Read i h o n).1.pending = s.pending := by
  have hspend : ∀ (t : State) (k : Nat), (t.spendT2 k).pending = t.pending := fun _ _ => rfl
  unfold State.t2Read
  split
  · rfl
  · split
    · rfl
    · dsimp only
      split
      · rw [hspend, State.t2Ecc_pending]
      · simp only [apply_ite State.pending, State.bump_pending, hspend, State.t2Ecc_pending, ite_self]

@[simp] theorem State.hostAsk_pending (s : State) (i a n : Nat) : (s.hostAsk i a n).pending = s.pending := by
  unfold State.hostAsk
  split
  · refine foldl_proj State.pending (fun b r => ?_) _ _
    exact State.sendFlit_pending _ _ _ _
  · rfl

@[simp] theorem State.readSpace_pending (s : State) (i space u o n : Nat) : (s.readSpace i space u o n).1.pending = s.pending := by
  simp only [State.readSpace, apply_ite Prod.fst, apply_ite State.pending, State.sramRead_pending, State.t2Read_pending, State.hostAsk_pending, ite_self]

@[simp] theorem State.residentSection_pending (s : State) (e k : Nat) : (s.residentSection e k).1.pending = s.pending := by
  unfold State.residentSection
  dsimp only
  split
  · rfl
  · split
    · rfl
    · simp only [apply_ite Prod.fst, apply_ite State.pending, State.readSpace_pending, ite_self]

/-! ### Darns and retirements -/

@[simp] theorem State.mirrorDeck_pending (s : State) (e k : Nat) : (s.mirrorDeck e k).pending = s.pending := Eq.trans rfl rfl

@[simp] theorem State.health_pending (s : State) (e n k : Nat) : (s.health e n k).pending = s.pending := by
  simp only [State.health, apply_ite State.pending, State.bump_pending, ite_self]

@[simp] theorem State.setRetired_pending (s : State) (e k : Nat) : (s.setRetired e k).pending = s.pending := by
  rw [State.setRetired, State.mirrorDeck_pending, State.modDeck_pending]
  refine foldl_proj State.pending (fun a x => ?_) _ _
  rw [State.mirrorDeck_pending, State.modDeck_pending]

@[simp] theorem State.retireEngineNow_pending (s : State) (e : Nat) : (s.retireEngineNow e).pending = s.pending := by
  have hdecks : ((List.range 8).foldl (fun (a : State) k => a.setRetired e k) s).pending = s.pending :=
    foldl_proj State.pending (fun a k => State.setRetired_pending a e k) _ _
  simp only [State.retireEngineNow, apply_ite State.pending, State.raise_pending, State.health_pending, State.wr_pending,
    State.modEngine_pending, hdecks, ite_self]

@[simp] theorem State.retire_pending (s : State) (e k : Nat) : (s.retire e k).pending = s.pending := by
  simp only [State.retire, State.retireDeckNow, apply_ite State.pending, State.raise_pending, State.health_pending, State.setRetired_pending,
    State.retireEngineNow_pending, ite_self]

@[simp] theorem State.placeSpare_pending (s : State) (e k : Nat) (sec : Option (List Nat)) (n c : Nat) :
    (s.placeSpare e k sec n c).pending = s.pending := by
  refine foldl_proj State.pending (fun a i => ?_) _ _
  rw [State.placeRow, State.skip_pending, State.modDeck_pending]

@[simp] theorem State.sourceLost_pending (s : State) (e k : Nat) : (s.sourceLost e k).pending = s.pending := by
  simp only [State.sourceLost, apply_ite State.pending, State.raiseOwner_pending, State.setDeck_pending, ite_self]

@[simp] theorem State.darnColumn_pending (s : State) (e k c : Nat) (target : Option (Nat × Nat)) (sec : Option (List Nat)) (rinse : Bool) :
    (s.darnColumn e k c target sec rinse).pending = s.pending := by
  unfold State.darnColumn
  extract_lets d
  split
  · rfl
  · split
    · rw [State.retire_pending, State.setDeck_pending]
    · simp only [apply_ite State.pending, apply_ite Prod.fst, State.placeSpare_pending, State.raiseOwner_pending, State.health_pending,
        State.mirrorDeck_pending, State.modDeck_pending, State.sourceLost_pending, State.residentSection_pending, State.setDeck_pending, ite_self]

@[simp] theorem State.darnStart_pending (s : State) (l : Nat) : (s.darnStart l).pending = s.pending := by
  have hcolumns : ∀ (t : State) (e k : Nat) (cs : List Nat) (target : Option (Nat × Nat)) (sec : Option (List Nat)) (rinse : Bool),
      (t.darnColumns e k cs target sec rinse).pending = t.pending := fun t e k cs target sec rinse => by
    refine foldl_proj State.pending (fun a c => ?_) _ _
    simp only [apply_ite State.pending, State.darnColumn_pending, ite_self]
  have hresume : ∀ (t : State) (e k : Nat) (sec : List Nat), (t.resumeDarns e k sec).pending = t.pending := fun t e k sec => by
    refine foldl_proj State.pending (fun a p => ?_) _ _
    simp only [apply_ite State.pending, State.placeSpare_pending, State.mirrorDeck_pending, State.modDeck_pending, ite_self]
  refine foldl_proj State.pending (fun a x => ?_) _ _
  rw [hcolumns, hresume]

/-! ### The guard plane's register port -/

@[simp] theorem State.laneBits_pending (s : State) (v : Nat) : (s.laneBits v).pending = s.pending := by
  have haccept : ∀ (t : State) (l : Nat), (t.laneAccepted l).pending = t.pending := fun t l => by
    rw [State.laneAccepted, State.wr_pending, foldl_proj State.pending (fun a e => State.modDeck_pending a _ _ _), State.modLane_pending]
  have hon : ∀ (t : State) (l : Nat), (t.laneOn l).pending = t.pending := fun t l => by
    unfold State.laneOn
    split
    · exact haccept t l
    · simp only [State.wr_pending]
  refine foldl_proj State.pending (fun a l => ?_) _ _
  simp only [State.laneOff, apply_ite State.pending, hon, State.wr_pending, State.modLane_pending, ite_self]

@[simp] theorem State.writePlain_pending (s : State) (k v : Nat) : (s.writePlain k v).pending = s.pending := State.setWord_pending _ _ _

@[simp] theorem State.restoreTry_pending (s : State) (l : Nat) : (s.restoreTry l).pending = s.pending := by
  unfold State.restoreTry
  split
  · rfl
  · simp only [State.restoreClaim, apply_ite State.pending, State.mirrorDeck_pending, State.modDeck_pending, ite_self]

@[simp] theorem State.laneGo_pending (s : State) (op l : Nat) : (s.laneGo op l).pending = s.pending := by
  have hrun : ∀ t : State, (t.laneCmdRun op l).pending = t.pending := fun t => by
    simp only [State.laneCmdRun, State.laneCmdEnd, apply_ite State.pending, State.setFlag_pending, State.wr_pending, State.restoreTry_pending,
      State.darnStart_pending, ite_self]
  simp only [State.laneGo, apply_ite State.pending, hrun, State.setFlag_pending, ite_self]

@[simp] theorem State.writeGuardAper_pending (s : State) (o v : Nat) : (s.writeGuardAper o v).pending = s.pending := by
  simp only [State.writeGuardAper, apply_ite State.pending, State.setFlag_pending, State.setPeri_pending, State.modLane_pending, ite_self]

@[simp] theorem State.portLand_pending (s : State) (k v : Nat) : (s.portLand k v).pending = s.pending := by
  simp only [State.portLand, State.writeLaneCfg, apply_ite State.pending, State.laneBits_pending, State.writePlain_pending, State.wr_pending,
    State.laneGo_pending, State.writeGuardAper_pending, ite_self]

@[simp] theorem State.portOpen_pending (s : State) : s.portOpen.pending = s.pending := by
  unfold State.portOpen
  split
  · rfl
  · exact foldl_proj State.pending (fun a (p : Nat × Nat) => State.portLand_pending a p.1 p.2) _ _

/-! ### A step of device time -/

@[simp] theorem State.idle_pending (s : State) : s.idle.pending = s.pending := by
  have hidle : ∀ (ps : List Nat) (t : State), (ps.foldl State.sendIdle t).pending = t.pending :=
    foldl_proj State.pending (f := State.sendIdle) State.sendIdle_pending
  simp only [State.idle, State.portOpen_pending, apply_ite State.pending, hidle, State.aperAll_pending, State.upset_pending, State.ageStep_pending,
    State.scrubClock_pending, State.ageWaits_pending, State.chargeStalls_pending, ite_self]

theorem State.idle_clock (s : State) : s.idle.clock = s.clockStep := Eq.trans rfl rfl

/-- Settles O2: with no command the step is device time's, which every operation of the tick hands the queue on from. -/
theorem emptyQueueTicks : Obligations.EmptyQueueTicks := by
  unfold Obligations.EmptyQueueTicks
  intro s hq
  refine ⟨?_, s.idle_clock, s.idle_pending.trans hq, fun hs ha hx => ?_, fun hoff => ?_⟩
  · rw [step, hq]
  · have hrun : s.power.st = .run := State.running_run (State.steady_running hs)
    rw [State.idle_clock, State.clockStep, ha, hrun, hx]
    rfl
  · rw [State.idle_clock, State.clockStep, hoff]
    simp

end Sys2Proof.Machine
end
